-- ==== Sys2Proof/Word.lean ====
section
/-! DEFINITION. The word types of the model and nothing else: the widths the manual gives. -/

namespace Sys2Proof

/-- A byte of memory or of a frame. -/
abbrev Byte := BitVec 8

/-- A 32-bit register, integer-register, lane or descriptor word (02 R28). -/
abbrev Word := BitVec 32

/-- A package physical address, 48 bits (02 R23). -/
abbrev Addr := BitVec 48

end Sys2Proof
end

