-- ==== Sys2Proof/Syntax.lean ====
section
/-! DEFINITION. The commands of the block: one constructor of `Instr` per row of spec/opcode_table.json, and the
operand types those commands carry. A command is what comes to the ORG-7240 from outside (a register access, a host
transaction, a pin) or one of the indivisible steps that spec/95_what_each_step_holds.md lists. -/

namespace Sys2Proof

/-- The requesters of register accesses (02 R31): two host ports, the management core, the bring-up logic. -/
inductive Requester where
  | h0 | h1 | mgmt | bringup
  deriving DecidableEq, Repr

/-- Package-wide physical tile index 144 n + p (01 R14). -/
abbrev TileId := Fin 1728
/-- Compute die number n of Cn (01 R13). -/
abbrev Die := Fin 12
/-- Base die number b of Bb (01 R13). -/
abbrev Base := Fin 4
/-- Seam die number s of SMs (01 R13). -/
abbrev Seam := Fin 4
/-- Edge stack number k of Ek (01 R13). -/
abbrev Stack := Fin 8
/-- Fabric port number of F0 to F11 (11, Ports and lanes). -/
abbrev FPort := Fin 12
/-- Host port number: 0 is H0, 1 is H1 (12, Host ports). -/
abbrev HPort := Fin 2
/-- Submission window w (12 R356). -/
abbrev Win := Fin 64
/-- DMA channel d (12, DMA channels). -/
abbrev Chan := Fin 32
/-- ARB page instance: base die b as b, compute die n as 4 + n (02 R49). -/
abbrev ArbId := Fin 16
/-- A calendared resource by its 32-bit resource ID: die slot, kind, instance (04 R106). -/
abbrev ResId := BitVec 32

/-- A register page: die slot and page index (02 R27). -/
structure PageRef where
  slot : BitVec 8
  page : BitVec 10
  deriving DecidableEq, Repr

/-- The operand fields of a load/store-slot operation (04 R95). -/
structure LsOp where
  a : BitVec 5
  b : BitVec 5
  n : BitVec 10
  imm : BitVec 8
  deriving DecidableEq, Repr

/-- The operand fields of `AMAC` and `ADIST` (04 R99); `fn` is used by `ADIST`, `rs2` by `AMAC`. -/
structure ArrOp where
  q : BitVec 5
  plane : BitVec 1
  rs1 : BitVec 5
  rs2 : BitVec 5
  fn : BitVec 3
  fmtx : BitVec 4
  fmtw : BitVec 4
  selx : Bool
  selw : Bool
  ow : Bool
  deriving DecidableEq, Repr

/-- The operand fields of `APLD` (04 R99): `src` 1 reads the slice, `sc` 1 loads the scale image as well. -/
structure PlaneOp where
  plane : BitVec 1
  rs1 : BitVec 5
  rs2 : BitVec 5
  src : Bool
  sc : Bool
  deriving DecidableEq, Repr

/-- The operand fields of a vector-slot operation (04 R100). -/
structure VecOp where
  vd : BitVec 5
  va : BitVec 5
  vb : BitVec 5
  vc : BitVec 5
  men : Bool
  msk : BitVec 3
  xb : Bool
  sat : Bool
  deriving DecidableEq, Repr

/-- The rows a row-engine operation names (05 R143): destination, sources, and `Z` of `FILL`. -/
structure RowArgs where
  dst : Addr
  srcA : Addr
  srcB : Addr
  z : Bool
  deriving DecidableEq, Repr

/-- A row engine: of layer m, quarter q of Cn (05 R141), or of channel c of stack k (06 R176). -/
inductive EngineRef where
  | near (n : Die) (m : Fin 4) (q : Fin 4)
  | edge (k : Stack) (c : Fin 32)
  deriving DecidableEq, Repr

/-- A router of the on-package network (07 R188, R190): a tile router by die and position, or a base router by its
package coordinates. -/
inductive RouterRef where
  | tile (n : Die) (x : Fin 6) (y : Fin 24)
  | base (x : Fin 8) (y : Fin 8)
  deriving DecidableEq, Repr

/-- A die-to-die link and the end that acts (07 R205): a drop (end 0 on the base die, end 1 on the compute die) or a
track of a seam link (ends as 07, Seam training). -/
inductive LinkEnd where
  | drop (n : Die) (y : Fin 24) (e : Fin 2)
  | seam (s : Seam) (l : Fin 4) (track : Fin 8) (e : Fin 2)
  deriving DecidableEq, Repr

/-- A Jodar Link port: a fabric port (11) or a host port (12). -/
inductive PortRef where
  | fabric (i : FPort)
  | host (h : HPort)
  deriving DecidableEq, Repr

/-- A router and the input by which a packet comes to it (07 R203). -/
structure RouterInput where
  router : RouterRef
  input : Fin 16
  deriving DecidableEq, Repr

/-- A link frame as it comes, and the owner of its slot where it goes up a drop (07 R204, R205). -/
structure LinkFrame where
  owner : BitVec 12
  bytes : List Byte
  deriving DecidableEq, Repr

/-- What the FEC decoder says of a frame (11 R319): whether an RS code word that it overlaps is uncorrectable, and the RS
code words, corrected and uncorrectable, that end with it. -/
structure FecResult where
  bad : Bool
  fixed : BitVec 8
  lost : BitVec 8
  deriving DecidableEq, Repr

/-- The content of a received control frame (11 R324). -/
structure Control where
  vers : Byte
  port : BitVec 4
  devnum : BitVec 64
  ringN : Word
  ringP : Word
  deriving DecidableEq, Repr

/-- A received EXCHANGE: its content and the `ACK` of its frame (11 R318, R323). -/
structure Exchange where
  control : Control
  ack : BitVec 12
  deriving DecidableEq, Repr

/-- The head code word of a host-link transaction, every field of it, reserved ones included (12 R346). -/
structure HostHead where
  ht : Byte
  flags : Byte
  status : Byte
  rsv3 : Byte
  tag : Word
  addr : BitVec 64
  len : BitVec 16
  eaddr : Addr
  rdata : Word
  rsv28 : Word
  deriving DecidableEq, Repr

/-- A host completion (12 R346, R353): its head and its data code words. -/
structure HostReply where
  head : HostHead
  data : List (List Byte)
  deriving DecidableEq, Repr

/-- Where a unit takes its command from: the command that window `w` holds in flight at count `c` (12 R358), or a
32-byte body given outright (little-endian, byte 0 least significant), as the device's own commands are. -/
inductive CmdSrc where
  | window (w : Win) (c : BitVec 16)
  | body (b : BitVec 256)
  deriving DecidableEq, Repr

/-- What a cairn sweep must reach (09 R276): room for `p` pages under the cap, or a frame that a KV write to die `n`
may use. -/
inductive SweepNeed where
  | cap (p : BitVec 16)
  | frame (n : Die)
  deriving DecidableEq, Repr

/-- Why a tile is fenced (13 R382, 16 R440, R441): the host's write of FENCE, or an error in recovery. -/
inductive FenceCause where
  | trap | sramLoad | host | firmware
  deriving DecidableEq, Repr

/-- A power domain (14 R389). -/
inductive Domain where
  | tile (t : TileId)
  | quarter (n : Die) (m : Fin 4) (q : Fin 4)
  | summit (b : Base) (r : Fin 20)
  | stack (k : Stack)
  | fport (i : FPort)
  | hport (h : HPort)
  deriving DecidableEq, Repr

/-- A persisting clock failure (16 R427). -/
inductive ClockFail where
  | ref | lock | dist
  deriving DecidableEq, Repr

/-- What die discovery finds (16 R432 step 3): the base dies that receive clocks, the dies present, and for each
tested tile position that fails self-test the layers that failed (01 R15, R485; a position failing in the tile
itself has `layers` 0). -/
structure Discovery where
  clocked : BitVec 4
  seamBits : BitVec 4
  dieBits : BitVec 12
  stackBits : BitVec 8
  failed : List (TileId × BitVec 4)
  deriving DecidableEq, Repr

/-- What link training finds (16 R432 step 4): the drops of each die that fail, and for each seam link, index
4 s + l, the proposals of its two ends, coded as the widths of `SEAM_LINK` are (0 NONE: every attempt fails). -/
structure Training where
  dropsDown : List (Fin 12 × BitVec 24)
  seamProps : List (Fin 16 × BitVec 2 × BitVec 2)
  deriving DecidableEq, Repr

/-- How a PMBus transaction ends on the bus (18 R480). -/
inductive PmbEnd where
  | good | nack | stuck | badPec
  deriving DecidableEq, Repr

/-- The commands, one constructor per row of spec/opcode_table.json, in the table's order. -/
inductive Instr where
  /-- REGISTER_WRITE (R34). A 32-bit write to a register field that has no row of its own takes effect according to the field's access type. -/
  | registerWrite (r : Requester) (a : Addr) (v : Word)
  /-- PAIR_LO_READ (R38). A read of the _LO half of an RO pair latches the matching _HI half for that requester. -/
  | pairLoRead (r : Requester) (a : Addr)
  /-- PAGE_LOCK (R42). Writing 1 to PAGE_CTRL.LOCK locks every RWL field of the page until package reset. -/
  | pageLock (p : PageRef)
  /-- SOFT_RESET (R43). Writing PAGE_CTRL.SRST returns the block's RW and unlocked RWL fields and its internal state to their reset values. -/
  | softReset (p : PageRef)
  /-- SOFT_RESET_DONE (R44). A soft reset completes and SRST_BUSY clears, at most 10 us after it started on pages other than DMA pages. -/
  | softResetDone (p : PageRef)
  /-- ERR_ACK_FIRST (R47). Writing PAGE_ERR_ACK.FIRST clears PAGE_ERR_FIRST and PAGE_ERR_NEXT in one update. -/
  | errAckFirst (p : PageRef)
  /-- ERR_ACK_CLR_C (R39). Writing PAGE_ERR_ACK.CLR_C clears PAGE_ERR_CNT_C. -/
  | errAckClrC (p : PageRef)
  /-- ERR_ACK_CLR_U (R39). Writing PAGE_ERR_ACK.CLR_U clears PAGE_ERR_CNT_U. -/
  | errAckClrU (p : PageRef)
  /-- DIE_LOG_FLUSH (R380). When a die's path to B0 returns, its waiting records enter the log and its loss count is added to MGMT_LOG_LOST. -/
  | dieLogFlush (slot : Byte)
  /-- BUNDLE_ISSUE (R92). A 128-bit bundle issues when its operands are ready and nothing holds it back; otherwise it stalls with every later bundle. -/
  | bundleIssue (t : TileId)
  /-- SCALAR_INSTRUCTION (R88). In scalar mode the control core executes one RV32IMC instruction. -/
  | scalarInstruction (t : TileId)
  /-- MRET (R102). MRET returns to mepc in the mode that TMODE.PBM names and clears INTRAP. -/
  | mret (t : TileId)
  /-- BNDL (R94). BNDL jumps to the target address and enters bundle mode. -/
  | bndl (t : TileId) (rd rs1 : BitVec 5) (imm : BitVec 12)
  /-- SCLR (R94). SCLR jumps to the target address and enters scalar mode. -/
  | sclr (t : TileId) (rd rs1 : BitVec 5) (imm : BitVec 12)
  /-- FENCE_T (R94). FENCE.T waits until at most imm transfers are outstanding, then traps if XSTAT.FAULT is 1. -/
  | fenceT (t : TileId) (imm : BitVec 5)
  /-- FENCE_T_RELEASE (R97). A waiting FENCE.T ends once enough transfers have completed, and raises the transfer-fault trap if FAULT is set. -/
  | fenceTRelease (t : TileId)
  /-- VLD (R95). VLD loads 256 bytes from tile SRAM into a vector register. -/
  | vld (t : TileId) (o : LsOp)
  /-- VST (R95). VST stores 256 bytes of a vector register to tile SRAM. -/
  | vst (t : TileId) (o : LsOp)
  /-- NMRD (R95). NMRD starts a transfer of sectors from the tile's own slice to its SRAM. -/
  | nmrd (t : TileId) (o : LsOp)
  /-- NMWR (R95). NMWR starts a transfer of sectors from SRAM to the tile's own slice. -/
  | nmwr (t : TileId) (o : LsOp)
  /-- XRD (R95). XRD starts a transfer of sectors from a package address to SRAM. -/
  | xrd (t : TileId) (o : LsOp)
  /-- XWR (R95). XWR starts a transfer of sectors from SRAM to a package address. -/
  | xwr (t : TileId) (o : LsOp)
  /-- NSND (R194). NSND starts sending sectors from SRAM as an OPN message to a tile or to a reduction group. -/
  | nsnd (t : TileId) (o : LsOp)
  /-- ROWC (R142). ROWC issues a 32-byte row-engine command from SRAM to the engine that x[B] names. -/
  | rowc (t : TileId) (o : LsOp)
  /-- TRANSFER_COMPLETE (R98). An outstanding transfer completes; the first failure is recorded in XSTAT and UE is set for damaged reads. -/
  | transferComplete (t : TileId) (k : Fin 16)
  /-- TRANSFER_LOST (R208). A tile transfer that has not completed 2 ms after issue completes with status LOST. -/
  | transferLost (t : TileId) (k : Fin 16)
  /-- AMAC (R66). AMAC computes the dot product of the input with each plane row into Aq, with the single rounding of R66. -/
  | amac (t : TileId) (o : ArrOp)
  /-- ADIST (R70). ADIST computes the distance or comparison function that FN selects into Aq, or traps without its licence. -/
  | adist (t : TileId) (o : ArrOp)
  /-- APLD (R64). APLD starts loading a weight plane, and optionally its scale image, from SRAM or from the slice. -/
  | apld (t : TileId) (o : PlaneOp)
  /-- APLD_COMPLETE (R64). A plane load completes, and operations that read the plane may then issue. -/
  | apldComplete (t : TileId) (plane : Fin 2)
  /-- AWARM (R82). AWARM starts the activity ramp, or resets the idle count while the array is ON. -/
  | awarm (t : TileId)
  /-- ACOOL (R82). ACOOL starts ramping the lanes off, or reverses a ramp-up. -/
  | acool (t : TileId)
  /-- RAMP_STEP (R83). At each interval I a lane group is gated on or off, and the ramp ends at ON or OFF after eight steps. -/
  | rampStep (t : TileId)
  /-- ARRAY_IDLE_TIMEOUT (R82). When the idle count reaches 8 x IDLE, the array begins to ramp down. -/
  | arrayIdleTimeout (t : TileId)
  /-- ARRAY_RESULT_WRITE (R61). An array operation writes its result to Aq at the end of its last pipeline cycle. -/
  | arrayResultWrite (t : TileId)
  /-- VADD (R77). VADD adds two FP32 operands lane by lane, correctly rounded. -/
  | vadd (t : TileId) (o : VecOp)
  /-- VSUB (R77). VSUB subtracts two FP32 operands lane by lane. -/
  | vsub (t : TileId) (o : VecOp)
  /-- VMUL (R77). VMUL multiplies two FP32 operands lane by lane. -/
  | vmul (t : TileId) (o : VecOp)
  /-- VFMA (R77). VFMA computes a x b + c with one rounding, lane by lane. -/
  | vfma (t : TileId) (o : VecOp)
  /-- VMIN (R78). VMIN takes the lane-wise minimum, ordering -0 below +0. -/
  | vmin (t : TileId) (o : VecOp)
  /-- VMAX (R78). VMAX takes the lane-wise maximum, ordering -0 below +0. -/
  | vmax (t : TileId) (o : VecOp)
  /-- VABS (R77). VABS takes the absolute value of each lane. -/
  | vabs (t : TileId) (o : VecOp)
  /-- VNEG (R77). VNEG negates each lane. -/
  | vneg (t : TileId) (o : VecOp)
  /-- VCMP_EQ (R78). VCMP.EQ writes a lane-wise equality comparison into a mask. -/
  | vcmpEq (t : TileId) (o : VecOp)
  /-- VCMP_LT (R78). VCMP.LT writes a lane-wise less-than comparison into a mask. -/
  | vcmpLt (t : TileId) (o : VecOp)
  /-- VCMP_LE (R78). VCMP.LE writes a lane-wise less-or-equal comparison into a mask. -/
  | vcmpLe (t : TileId) (o : VecOp)
  /-- VSEL (R77). VSEL selects each lane from one of two operands by a mask. -/
  | vsel (t : TileId) (o : VecOp)
  /-- VEXP2 (R79). VEXP2 computes 2^x within 2 ulp, with the exact special values of R79. -/
  | vexp2 (t : TileId) (o : VecOp)
  /-- VEXP (R79). VEXP computes e^x within 3 ulp. -/
  | vexp (t : TileId) (o : VecOp)
  /-- VRCP (R79). VRCP computes 1/x within 1 ulp. -/
  | vrcp (t : TileId) (o : VecOp)
  /-- VRSQRT (R79). VRSQRT computes 1/sqrt(x) within 2 ulp. -/
  | vrsqrt (t : TileId) (o : VecOp)
  /-- VRSUM (R78). VRSUM sums the 64 lanes by a fixed pairwise tree into lane 0. -/
  | vrsum (t : TileId) (o : VecOp)
  /-- VRMAX (R78). VRMAX places the maximum of the 64 lanes in lane 0. -/
  | vrmax (t : TileId) (o : VecOp)
  /-- VACC (R77). VACC copies Aq of all 64 array lanes into a vector register. -/
  | vacc (t : TileId) (o : VecOp)
  /-- VTOA (R77). VTOA copies a vector register into Aq of all 64 array lanes. -/
  | vtoa (t : TileId) (o : VecOp)
  /-- VCVT (R80). VCVT converts between FP32 and another format, with rounding and saturation. -/
  | vcvt (t : TileId) (o : VecOp)
  /-- VCVT_INT32 (R80). VCVT with an INT32 source converts INT32 lanes to FP32, ties to even. -/
  | vcvtInt32 (t : TileId) (o : VecOp)
  /-- VQMX (R81). VQMX quantises 64 lanes as two MX blocks, producing elements and scales. -/
  | vqmx (t : TileId) (o : VecOp)
  /-- TKCLR (R73). TKCLR empties the top-k list and sets its order and value type. -/
  | tkclr (t : TileId) (o : VecOp)
  /-- TKINS (R74). TKINS offers vector lanes as candidates to the top-k list. -/
  | tkins (t : TileId) (o : VecOp)
  /-- TKMRG (R73). TKMRG offers the entries of a list image in SRAM as candidates. -/
  | tkmrg (t : TileId) (o : VecOp)
  /-- TKRD (R75). TKRD writes the top-k list as a 512-byte image to SRAM. -/
  | tkrd (t : TileId) (o : VecOp)
  /-- TKSWAP (R73). TKSWAP writes the list as an image, then loads the list from another image. -/
  | tkswap (t : TileId) (o : VecOp)
  /-- TILE_START (R105). Writing TILE_CTL.START while RUN is 0 or 2 starts the core at TILE_ENTRY. -/
  | tileStart (t : TileId)
  /-- TILE_HALT (R105). Writing TILE_CTL.HALT while RUN is 1 stops issue at the next bundle boundary. -/
  | tileHalt (t : TileId)
  /-- TILE_HALT_DONE (R105). Once in-flight work of a halting tile completes, TILE_PC is recorded and RUN becomes 2. -/
  | tileHaltDone (t : TileId)
  /-- TILE_SOFT_RESET (R487). A soft reset of a TILE page abandons its transfers and resets the tile's registers, planes, accumulators and top-k list, but keeps its SRAM. -/
  | tileSoftReset (t : TileId)
  /-- CALENDAR_SLOT (R108). One slot of a calendared resource serves at most one queued request of its owner, or stays unused. -/
  | calendarSlot (res : ResId)
  /-- ARB_CAL_LOAD (R111). Writing ARB_CAL_CTRL.LOAD starts reading a calendar image into the staging store. -/
  | arbCalLoad (a : ArbId)
  /-- ARB_CAL_LOAD_DONE (R111). A calendar load finishes reading and either stages a checked set or records ERR. -/
  | arbCalLoadDone (a : ArbId)
  /-- ARB_CAL_SWITCH (R112). Writing ARB_CAL_CTRL.SWITCH with a staged set schedules it on each listed resource. -/
  | arbCalSwitch (a : ArbId)
  /-- CAL_RESOURCE_SWITCH (R112). At a resource's next entry 0 the new calendar takes over, and after the last resource BUSY and STAGED clear. -/
  | calResourceSwitch (res : ResId)
  /-- REFRESH_DEBT_TICK (R154). A layer's refresh debt grows by one each refresh interval, and NMEM_REFR_LATE counts when it reaches 4. -/
  | refreshDebtTick (n : Die) (k : Fin 128) (g : Fin 2) (m : Fin 4)
  /-- NMEM_CLR_LATE (R158). Writing NMEM_CTRL.CLR_LATE clears NMEM_REFR_LATE. -/
  | nmemClrLate (n : Die) (m : Fin 4)
  /-- NMEM_CLR_SCRUB (R158). Writing NMEM_CTRL.CLR_SCRUB clears the scrub counters and PASSES. -/
  | nmemClrScrub (n : Die) (m : Fin 4)
  /-- COPY (R144). Row-engine COPY writes every sector of row A into the destination row. -/
  | rowCopy (c : RowArgs)
  /-- FILL (R144). Row-engine FILL writes the pattern sector, or zeros, into every sector of the destination row. -/
  | rowFill (c : RowArgs)
  /-- AND (R144). Row-engine AND writes the sector-wise AND of rows A and B. -/
  | rowAnd (c : RowArgs)
  /-- OR (R144). Row-engine OR writes the sector-wise OR of rows A and B. -/
  | rowOr (c : RowArgs)
  /-- XOR (R144). Row-engine XOR writes the sector-wise XOR of rows A and B. -/
  | rowXor (c : RowArgs)
  /-- NOT (R144). Row-engine NOT writes the complement of row A. -/
  | rowNot (c : RowArgs)
  /-- ROW_STEP (R147). A 48-cycle read or write step of a row-engine command starts in a ROWE run with enough slots left. -/
  | rowStep (e : EngineRef)
  /-- NMEM_SOFT_RESET (R492). A soft reset of an NMEM page completes queued commands of its layer's engines with DISABLED and abandons those not yet writing. -/
  | nmemSoftReset (n : Die) (m : Fin 4)
  /-- EROW_SOFT_RESET (R492). A soft reset of an EROW page acts in the same way on the 32 engines of its stack. -/
  | erowSoftReset (k : Stack)
  /-- BANK_SET_VISIT (R165). At an EMCLK slot with e mod 3 = 0, each pseudo-channel may open one row in the visited bank set for the slot's owner. -/
  | bankSetVisit (k : Stack) (c : Fin 32)
  /-- EDGE_ROW_CLOSE (R165). A row opened at visit e closes at e + 45. -/
  | edgeRowClose (k : Stack) (c : Fin 32) (x : Fin 2) (bank : Fin 64)
  /-- SUMT_MODE_WRITE (R184). Changing SUMT_REG[r].MODE sets BUSY and starts the region's change to cache or scratchpad. -/
  | sumtModeWrite (b : Base) (r : Fin 20) (v : Word)
  /-- SUMT_MODE_DONE (R184). A region's mode change completes and BUSY clears. -/
  | sumtModeDone (b : Base) (r : Fin 20)
  /-- EMC_ENABLE (R185). Setting an EMC page's EN to 1 stops every checker of its stack with ABORT set. -/
  | emcEnable (k : Stack)
  /-- ECHK_START (R185). Writing ECHK_CTRL.START while the EMC is disabled clears the results and starts the channel checker. -/
  | echkStart (k : Stack) (c : Fin 32)
  /-- ECHK_STOP (R186). Writing ECHK_CTRL.STOP stops the checker after its access in flight. -/
  | echkStop (k : Stack) (c : Fin 32)
  /-- ECHK_DONE (R186). A checker reaches its access count, or stops, and sets DONE. -/
  | echkDone (k : Stack) (c : Fin 32)
  /-- FLIT_HEAD_ROUTE (R200). A router decodes a packet's head flit and forwards the packet on its fixed route, or drops it. -/
  | flitHeadRoute (r : RouterInput) (head : List Byte) (body : List (List Byte))
  /-- NSND_DELIVER (R195). An NSND message is written into the destination's tile SRAM, last sector last, and the transfer completes. -/
  | nsndDeliver (t : TileId) (k : Fin 16)
  /-- D2D_FRAME_RECEIVE (R206). A die-to-die link frame is received, checked by CRC, and accepted in order or NAKed. -/
  | d2dFrameReceive (l : LinkEnd) (frame : LinkFrame)
  /-- D2D_NAK_RECEIVE (R206). A NAK makes the sender resend every unacknowledged frame from ACK + 1, and 8 NAKs retrain the link. -/
  | d2dNakReceive (l : LinkEnd) (ack : Byte)
  /-- D2D_NAK_REPEAT (R206). The receiver repeats its NAK every 256 NCLK until the expected frame arrives. -/
  | d2dNakRepeat (l : LinkEnd)
  /-- SEAM_RETRAIN (R210). Writing SEAM_CTRL.RETRAIN bit l starts training of seam link l. -/
  | seamRetrain (s : Seam) (mask : BitVec 4)
  /-- TRAINING_FRAME_RECEIVE (R211). A training frame received on an UP seam link acts as a retrain event. -/
  | trainingFrameReceive (s : Seam) (l : Fin 4)
  /-- SEAM_PROPOSALS_KNOWN (R209). When both proposals are known, the link sets the narrower width or counts a failed attempt. -/
  | seamProposalsKnown (s : Seam) (l : Fin 4) (p0 p1 : BitVec 2)
  /-- SEAM_TEST_DONE (R210). After 4,096 clean PRBS31 frames, the link enters UP and resends from ACK + 1. -/
  | seamTestDone (s : Seam) (l : Fin 4)
  /-- SEAM_ATTEMPT_TIMEOUT (R210). A training attempt that exceeds 20 us fails, and the third failure holds the link down. -/
  | seamAttemptTimeout (s : Seam) (l : Fin 4)
  /-- ROUTE_TABLE_REWRITE (R212). Within 100 us of a link being held down, firmware rewrites base route tables and increments GEN. -/
  | routeTableRewrite (b : Base)
  /-- STALL_DROP (R212). A packet waiting at a held-down link for more than 1 ms is dropped and counted. -/
  | stallDrop (b : Base)
  /-- PRST_REQ (R214). Writing CDIE_PRST_CTRL.REQ in UP starts partition reset by closing the drops downward. -/
  | prstReq (n : Die)
  /-- PRST_DRAIN_END (R214). When the die is quiet or 20 us have passed, the drops close upward, the tiles stop and the die enters RESET. -/
  | prstDrainEnd (n : Die)
  /-- PRST_RELEASE (R214). Writing RELEASE in RESET releases the die, zero-fills tile SRAM and trains its drops. -/
  | prstRelease (n : Die)
  /-- PRST_RELEASING_DONE (R214). When fill and training complete, the drops open, COUNT increases and the die is UP. -/
  | prstReleasingDone (n : Die) (failedDrops : BitVec 24)
  /-- BNET_RG_LOAD (R219). Writing BNET_RG_CTRL.LOAD starts reading and checking a reduction group table. -/
  | bnetRgLoad
  /-- BNET_RG_LOAD_DONE (R219). A group-table load replaces the table and clears failed groups, or records ERR. -/
  | bnetRgLoadDone
  /-- REDUCTION_CONTRIBUTION (R221). A member's contribution is folded at the base routers, and the round's result is delivered once complete. -/
  | reductionContribution (t : TileId) (k : Fin 16)
  /-- REDUCTION_ROUND_TIMEOUT (R222). A round missing contributions after BNET_RED_TMO fails, delivers poisoned results and marks the group failed. -/
  | reductionRoundTimeout (g : BitVec 6)
  /-- ROPE_ON (R232). Writing 1 to ROPE_CFG.ON checks the pool configuration and starts rope service, or records CFG_ERR. -/
  | ropeOn (v : Word)
  /-- ROPE_OFF (R232). Writing 0 to ROPE_CFG.ON stops rope service, unless a rope is not FREE or the cairn store is active. -/
  | ropeOff (v : Word)
  /-- ROPE_SOFT_RESET (R234). A soft reset of the ROPE page frees every rope, clears ON and empties the cairn table. -/
  | ropeSoftReset
  /-- LAYOUT_VALID_WRITE (R225). A write setting ROPE_LAY_CFG[s].VALID takes effect only if the layout checks pass; otherwise LAY_ERR is recorded. -/
  | layoutValidWrite (s : Fin 16) (v : Word)
  /-- ROPE_SEL_WRITE (R240). Writing ROPE_SEL captures a rope entry into the requester's buffer. -/
  | ropeSelWrite (r : Requester) (v : Word)
  /-- ROPE_OPEN (R242). Rope command OPEN makes a FREE rope OPEN with the given model slot, adapter, priority and tier. -/
  | ropeOpen (c : CmdSrc)
  /-- ROPE_CLOSE (R242). Rope command CLOSE releases every page reference and node of the rope, and the rope becomes FREE. -/
  | ropeClose (c : CmdSrc)
  /-- ROPE_FORK (R242). Rope command FORK opens a rope that shares the source's pages up to position p. -/
  | ropeFork (c : CmdSrc)
  /-- ROPE_TRUNC (R242). Rope command TRUNC releases the blocks beyond position p and sets LEN to p. -/
  | ropeTrunc (c : CmdSrc)
  /-- ROPE_SET (R242). Rope command SET writes PRIO or TIER, or clears TAINT. -/
  | ropeSet (c : CmdSrc)
  /-- FRAME_ZERO_DONE (R250). The zeroing of a freed frame completes and the frame returns to its pool. -/
  | frameZeroDone (h : Word)
  /-- AGING_WALK (R251). The aging walk resets the score of page-table entries aged 8 epochs or more. -/
  | agingWalk
  /-- ROPE_EPOCH_END (R252). At each 4 ms epoch end the device adjusts T_UP and T_DOWN for each die. -/
  | ropeEpochEnd
  /-- DEMOTION_SWEEP (R252). While free near frames of a die are below LOW, the device sweeps and demotes cold full pages. -/
  | demotionSweep (n : Die)
  /-- PAGE_MOVE_START (R253). A queued promotion or demotion starts within the move bounds, by allocating a frame and setting MOVING. -/
  | pageMoveStart (x : Word) (toNear : Bool)
  /-- PAGE_MOVE_COMPLETE (R253). A page move writes LOC and LIVE in one sector write and frees the old frame after earlier readers finish. -/
  | pageMoveComplete (x : Word)
  /-- TAINT_NOTICE (R372). The rope logic receives a tile's taint notice, sets TAINT of an OPEN rope or discards it, and confirms. -/
  | taintNotice (t : TileId)
  /-- CAIRN_ON (R264). Writing 1 to CAIRN_CFG.ON checks the configuration, frees every header and starts the store. -/
  | cairnOn (v : Word)
  /-- CAIRN_OFF (R265). Writing 0 to CAIRN_CFG.ON starts evicting every entry and emptying damaged ones. -/
  | cairnOff (v : Word)
  /-- CAIRN_EMPTY_DONE (R265). When the table is empty, ACTIVE and SWEEP become 0. -/
  | cairnEmptyDone
  /-- MATCH (R269). Cairn MATCH walks a prompt's blocks through the table and attaches each accepted entry to the rope. -/
  | cairnMatch (c : CmdSrc)
  /-- PUBLISH (R271). Cairn PUBLISH registers or adopts the rope's full blocks as table entries. -/
  | cairnPublish (c : CmdSrc)
  /-- PIN (R277). Cairn PIN sets PIN of the entry selected by digest or by the rope's anchor. -/
  | cairnPin (c : CmdSrc)
  /-- UNPIN (R277). Cairn UNPIN clears PIN of the selected entry. -/
  | cairnUnpin (c : CmdSrc)
  /-- FLUSH (R277). Cairn FLUSH repeatedly evicts every selected leaf entry. -/
  | cairnFlush (c : CmdSrc)
  /-- CAIRN_SWEEP (R276). A sweep requested by the cap or by a frame need visits entries from the cursor, evicting or halving scores. -/
  | cairnSweep (need : SweepNeed)
  /-- ATTN (R291). The sequencer accepts and checks an ATTN command, then processes its rows. -/
  | attn (c : CmdSrc)
  /-- ATTN_ROW_CHECK (R292). Once earlier operations on its rope complete, a row is checked, writes its KV and generates work items. -/
  | attnRowCheck (a : Nat) (row : BitVec 10)
  /-- ATTN_KERNEL_CALL (R303). A participant calls the attention kernel, which runs its items and home folds for the command and returns. -/
  | attnKernelCall (t : TileId) (cseq : Word)
  /-- ATTN_KERNEL_TIMEOUT (R303). A kernel call with no work list for the command within 10 ms returns a0 = 1. -/
  | attnKernelTimeout (t : TileId) (cseq : Word)
  /-- ATTN_ROW_TIMEOUT (R305). A row whose outputs are not all delivered or failed 10 ms after acceptance completes with LOST. -/
  | attnRowTimeout (a : Nat) (row : BitVec 10)
  /-- ATTN_COMPLETE (R283). A completed command rewrites its rows, writes its done sector and completes its descriptor. -/
  | attnComplete (a : Nat)
  /-- ACCEPT (R314). ACCEPT keeps the longest confirmed draft path, advances LEN and clears the rejected slots. -/
  | accept (c : CmdSrc)
  /-- FPRT_ENABLE (R323). Setting a fabric port's EN to 1 starts equalisation training in PHY. -/
  | fprtEnable (i : FPort)
  /-- FPRT_DISABLE (R323). Clearing EN, or the domain going off, discards the replay buffer and sends electrical idle. -/
  | fprtDisable (i : FPort)
  /-- FEC_LOCK (R323). FEC lock on all lanes moves a port from PHY to EXCHANGE. -/
  | fecLock (p : PortRef) (groups : BitVec 2)
  /-- PHY_TIMEOUT (R323). 500 ms in PHY without lock discards the replay buffer and enters WAIT. -/
  | phyTimeout (p : PortRef)
  /-- HALF_LOCK_TIMEOUT (R344). A host port locked on one lane group for 500 ms goes to EXCHANGE at half width if HALF allows it. -/
  | halfLockTimeout (h : HPort) (group : Fin 2)
  /-- WAIT_TIMEOUT (R323). After 100 ms in WAIT the port restarts equalisation training. -/
  | waitTimeout (p : PortRef)
  /-- EXCHANGE_SEND_TIMER (R323). In EXCHANGE the port sends an EXCHANGE control frame every 10 us. -/
  | exchangeSendTimer (p : PortRef)
  /-- EXCHANGE_RECEIVE (R326). A received EXCHANGE sets the version, checks neighbour identity and brings the port UP, or sets NO_VER. -/
  | exchangeReceive (p : PortRef) (c : Exchange)
  /-- FEC_LOCK_LOSS (R323). Loss of FEC lock on an UP port stops data frames and returns it to PHY. -/
  | fecLockLoss (p : PortRef)
  /-- FPRT_RETRAIN (R323). Writing FPRT_CTRL.RETRAIN retrains an UP port. -/
  | fprtRetrain (i : FPort)
  /-- FPRT_CLR (R342). Writing FPRT_CTRL.CLR clears the port's counters. -/
  | fprtClr (i : FPort)
  /-- FABRIC_FRAME_RECEIVE (R319). A Jodar Link frame is received, checked by CRC and FEC, and accepted or discarded with a NAK. -/
  | fabricFrameReceive (p : PortRef) (frame : List Byte) (fec : FecResult)
  /-- FABRIC_NAK_RECEIVE (R320). A NAK makes the sender resend unacknowledged frames, and 8 NAKs retrain the port. -/
  | fabricNakReceive (p : PortRef) (ack : BitVec 12)
  /-- FABRIC_NAK_REPEAT (R320). The receiver repeats its NAK every 1 us until the expected frame arrives. -/
  | fabricNakRepeat (p : PortRef)
  /-- LP_REQ (R327). A received LP_REQ is answered with LP_ACK, or with LP_NAK when the tolerance forbids retention. -/
  | lpReq (p : PortRef)
  /-- LP_ACK (R327). A received LP_ACK lets the port enter LOWPOWER. -/
  | lpAck (p : PortRef)
  /-- LP_NAK (R327). A received LP_NAK keeps both ends UP. -/
  | lpNak (p : PortRef)
  /-- LP_EXIT (R327). A received LP_EXIT returns a LOWPOWER port to UP. -/
  | lpExit (p : PortRef)
  /-- RING_UPDATE (R324). A received RING_UPDATE copies the neighbour's identity and ring registers. -/
  | ringUpdate (i : FPort) (c : Control)
  /-- RING_UPDATE_TIMER (R324). An UP port sends RING_UPDATE every 1 ms. -/
  | ringUpdateTimer (i : FPort)
  /-- FPRT_RING_WRITE (R330). A write to FPRT_RING_N or FPRT_RING_P takes effect at once and sends RING_UPDATE. -/
  | fprtRingWrite (i : FPort) (prev : Bool) (v : Word)
  /-- FABRIC_PACKET_RECEIVE (R337). A fabric partial or result packet is checked, then folded or forwarded for its stage, or dropped. -/
  | fabricPacketReceive (i : FPort) (head : List Byte) (body : List (List Byte))
  /-- HOST_MEMORY_READ (R350). A host memory read is served in OPEN slots and completed with data, poisoned words or an error status. -/
  | hostMemoryRead (h : HPort) (q : HostHead)
  /-- HOST_MEMORY_WRITE (R351). A host memory write of whole sectors is decoded, written, or refused. -/
  | hostMemoryWrite (h : HPort) (q : HostHead) (data : List (List Byte))
  /-- HOST_REGISTER_READ (R28). A host register read transaction is served and completed with the register value. -/
  | hostRegisterRead (h : HPort) (q : HostHead)
  /-- HOST_REGISTER_WRITE (R28). A host register write transaction is applied and completed. -/
  | hostRegisterWrite (h : HPort) (q : HostHead)
  /-- HOST_COMPLETION_RECEIVE (R348). A host completion of a device request is taken, or dropped when its TAG names nothing. -/
  | hostCompletionReceive (h : HPort) (q : HostReply)
  /-- HOST_REQUEST_TIMEOUT (R353). A host request whose target has not answered within 2 ms completes LOST. -/
  | hostRequestTimeout (h : HPort) (tag : Word)
  /-- DEVICE_REQUEST_TIMEOUT (R353). A device request to host memory not completed within 2 ms counts as HOST_ERR. -/
  | deviceRequestTimeout (h : HPort) (tag : Word)
  /-- DEVICE_PACKET_PORT_TIMEOUT (R488). A device-originated packet that waits 2 ms for its port to reach UP is dropped and counted. -/
  | devicePacketPortTimeout (h : HPort)
  /-- HPRT_SOFT_RESET (R489). A soft reset of an HPRT page takes its port down, clears its counters and retrains it if enabled. -/
  | hprtSoftReset (h : HPort)
  /-- HBRG_SOFT_RESET (R489). A soft reset of the HBRG page clears its three counters only. -/
  | hbrgSoftReset
  /-- SUBW_ENABLE (R356). Writing EN to 1 on a SUBW page checks the window and enables it, or records CFG_ERR. -/
  | subwEnable (w : Win)
  /-- SUBW_DISABLE (R357). Writing EN to 0 makes the window range ordinary memory while pending commands still complete. -/
  | subwDisable (w : Win)
  /-- SUBW_SOFT_RESET (R361). A soft reset of a SUBW page discards pending commands without records. -/
  | subwSoftReset (w : Win)
  /-- COMMAND_ACCEPT (R358). The bridge visits a window and accepts its command at CONS when the acceptance conditions hold. -/
  | commandAccept
  /-- NOP_COMMAND (R355). A NOP descriptor completes at once, or as a barrier after earlier commands when FENCE is 1. -/
  | nopCommand (w : Win) (c : BitVec 16)
  /-- SUBW_CQ_HEAD_WRITE (R360). Writing SUBW_CQ_HEAD reports consumed records, and is ignored if it moves backwards or past TAIL. -/
  | subwCqHeadWrite (w : Win) (v : Word)
  /-- DMA_DESCRIPTOR (R364). A DMA channel checks its next descriptor and moves it in pieces until done or the first failed piece. `replies`: answers of the host that come before the next command. -/
  | dmaDescriptor (d : Chan) (replies : List HostReply)
  /-- DMA_RESUME (R365). Writing DMA_CTL.RESUME clears HALT and continues with the next queued descriptor. -/
  | dmaResume (d : Chan)
  /-- DMA_FLUSH (R365). Writing DMA_CTL.FLUSH completes every queued descriptor with HALTED. -/
  | dmaFlush (d : Chan)
  /-- DMA_SOFT_RESET (R367). A soft reset of a DMA page stops the channel at a piece boundary and completes its descriptors. -/
  | dmaSoftReset (d : Chan)
  /-- TILE_FENCE (R383). A tile is fenced on host request or on an error during recovery; it stops and is marked fenced in one update. -/
  | tileFence (t : TileId) (cause : FenceCause)
  /-- TILE_ERR_CLR (R388). Writing TILE_ERR_CTL.CLR clears TILE_ZERO_CNT and TILE_NOROPE_CNT. -/
  | tileErrClr (t : TileId)
  /-- MGMT_LOG_SEL_WRITE (R379). Writing MGMT_LOG_SEL captures a log record into the requester's buffer. -/
  | mgmtLogSelWrite (r : Requester) (v : Word)
  /-- MGMT_LOG_TAIL_WRITE (R379). Writing MGMT_LOG_TAIL consumes records, and is ignored if it moves backwards or past HEAD. -/
  | mgmtLogTailWrite (v : Word)
  /-- MGMT_CLR_TAINT (R388). Writing MGMT_CTRL.CLR_TAINT clears MGMT_TAINT_DROP. -/
  | mgmtClrTaint
  /-- MGMT_CLR_LOST (R388). Writing MGMT_CTRL.CLR_LOST clears MGMT_LOG_LOST. -/
  | mgmtClrLost
  /-- MGMT_RESTART (R384). An uncorrectable management-memory sector or a 100 ms watchdog expiry restarts the management core. -/
  | mgmtRestart (watchdog : Bool) (within10s : Bool)
  /-- MGMT_RESTART_DONE (R384). A management restart completes with the main image reloaded and verified. -/
  | mgmtRestartDone
  /-- DOMAIN_ENTRY (R401). An idle domain enters retention or off through the steps and abort points of R401. -/
  | domainEntry (d : Domain) (toOff : Bool)
  /-- WAKE_COMPARATOR_TRIP (R400). A group's wake line trips and its power controller wakes each domain with a flagged request. -/
  | wakeComparatorTrip (b : Base) (line : Fin 10)
  /-- DOMAIN_EXIT_COMPLETE (R392). A waking domain reaches on after its exit latency, and waiting requests are served. -/
  | domainExitComplete (d : Domain)
  /-- PWR_REQ_HOLD_ON (R395). Writing HOLD_ON to PAGE_PWR.REQ wakes the domain at once and keeps it on. -/
  | pwrReqHoldOn (p : PageRef)
  /-- PWR_REQ_OFF (R395). Writing OFF to PAGE_PWR.REQ puts the domain off at its next idle moment and ignores wakes. -/
  | pwrReqOff (p : PageRef)
  /-- PWR_REQ_AUTO (R395). Writing AUTO lets the device choose the state within the tolerance. -/
  | pwrReqAuto (p : PageRef)
  /-- LATTOL_WRITE (R396). A write to PAGE_LATTOL wakes the group's domains whose state's exit latency exceeds the new tolerance. -/
  | lattolWrite (p : PageRef) (v : Word)
  /-- SENSOR_SAMPLE (R407). The device samples a sensor, runs its plausibility checks and updates its site value. -/
  | sensorSample (i : BitVec 12) (reading : BitVec 16)
  /-- THRM_CLR_FAULT (R409). Writing THRM_CTRL.CLR_FAULT clears the faulty mark of the selected sensor. -/
  | thrmClrFault
  /-- FORECAST_DECISION (R412). Every 250 us the model forecasts each column and chooses each die's stride. -/
  | forecastDecision
  /-- FLOW_TACH_PULSE (R415). A filtered FLOW_TACH pulse is counted as valid while the input is valid. -/
  | flowTachPulse
  /-- FLOW_INPUT_CHECK (R477). Every 1 ms the FLOW_TACH rate and level are evaluated, and the input is classed valid or invalid. -/
  | flowInputCheck (edges : Byte) (changed : Bool)
  /-- FLOW_UPDATE (R416). Every 10 ms the measured flow and temperature rise are evaluated against the coolant state table. -/
  | flowUpdate
  /-- STOP_CLEARED (R416). After 200 ms of good flow in STOP, the monitor returns to LOW. -/
  | stopCleared
  /-- LOW_CLEARED (R416). After 1 s at or above 1.6 L/min in LOW, the monitor returns to NORMAL. -/
  | lowCleared
  /-- SHUTDOWN (R418). When THRM_STOP_MS reaches 2,000, the orderly coolant shutdown begins. -/
  | shutdown
  /-- SHUTDOWN_COMPLETE (R418). By 10 ms after shutdown begins, every tile, memory and fabric domain is off. -/
  | shutdownComplete
  /-- THERM_TRIP (R419). An analogue trip comparator asserts THERM_TRIP and stops issue on every tile, latched until reset. -/
  | thermTrip (i : BitVec 12)
  /-- CLK_SNAP (R426). Writing CLK_CTRL.SNAP captures every clock counter of every base die in service. -/
  | clkSnap
  /-- CLOCK_FAILURE (R427). A persisting reference, lock or distribution failure starts a package-reset request and may halt bring-up. -/
  | clockFailure (c : ClockFail)
  /-- PKG_RESET (R430). Writing BOOT_CTRL.PKG_RESET is completed first, and the package reset begins 10 us later. -/
  | pkgReset
  /-- PACKAGE_RESET (R429). A package reset ends every transaction and returns all registers except BOOT_RST and the signature counter to reset values. -/
  | packageReset
  /-- RESET_N_ASSERT (R474). RESET_N low starts a package reset that lasts while it is held low. -/
  | resetNAssert
  /-- PWR_OK_CHANGE (R473). PWR_OK falling starts power-on reset; PWR_OK rising allows its release. -/
  | pwrOkChange (level : Bool)
  /-- POWER_ON_RESET_RELEASE (R472). Power-on reset releases 2 ms after PWR_OK or at RESET_N high, and bring-up step 1 begins. -/
  | powerOnResetRelease
  /-- RESET_RELEASE (R432). Bring-up step 1 senses and checks B0's fuses. -/
  | resetRelease (fusesGood : Bool)
  /-- B0_CLOCKS (R432). Bring-up step 2 locks the PLLs, starts the boot stage, enables H0 and selects the active configuration. -/
  | b0Clocks (refGood locked answers : Bool)
  /-- DIE_DISCOVERY (R432). Bring-up step 3 finds the dies, self-tests the tiles, zero-fills and builds the tile maps. -/
  | dieDiscovery (found : Discovery)
  /-- LINK_TRAINING (R432). Bring-up step 4 trains every drop and seam link. -/
  | linkTraining (res : Training)
  /-- EDGE_INIT (R432). Bring-up step 5 initialises and zero-fills each stack and enables its pages. -/
  | edgeInit (failed : List (Fin 8 × Fin 32))
  /-- MGMT_FW (R432). Bring-up step 6 verifies and starts the main image. -/
  | mgmtFw (reported : Bool)
  /-- TILE_FW (R432). Bring-up step 7 broadcasts, repairs and starts the tile image. -/
  | tileFw
  /-- TOPOLOGY (R444). Bring-up step 8 compares the package with the manifest and proceeds or holds. -/
  | topology
  /-- READY (R432). Bring-up step 9 sets the locks, the service level and READY, and accepts commands. -/
  | ready
  /-- BOOT_CHUNK_RECEIVE (R438). A tile's boot receiver writes a received image chunk, checks it and clears its missing bit. -/
  | bootChunkReceive (t : TileId) (c : BitVec 6) (flits : List (List Byte)) (crc : Word)
  /-- BOOT_END_MARKER (R439). At an end marker, participants contribute their missing-chunk maps to an OR reduction. -/
  | bootEndMarker
  /-- BOOT_BITMAP_TIMEOUT (R439). A participant whose map is missing 1 ms after the end marker counts as missing every chunk. -/
  | bootBitmapTimeout
  /-- BOOT_PASS_DONE (R439). When a pass's union of missing chunks is known, the next pass or unicast repair begins. -/
  | bootPassDone
  /-- TILE_STARTUP_CHECK (R441). The bring-up logic reads a started tile's done sector, halts it and sets DONE, or fences it after 1 ms. -/
  | tileStartupCheck (t : TileId) (late : Bool)
  /-- BOOT_RELOAD (R442). Writing BOOT_CTRL.RELOAD runs a tile-image load for the named dies, or records why it did not start. -/
  | bootReload
  /-- BOOT_RELOAD_DONE (R442). A reload ends, BUSY clears and RESULT records the outcome. -/
  | bootReloadDone
  /-- BOOT_ACCEPT (R445). Writing BOOT_CTRL.ACCEPT during the topology hold proceeds to READY. -/
  | bootAccept
  /-- NBR_WAIT_TIMEOUT (R444). When NBR_WAIT has passed, the topology check compares the ports that are UP. -/
  | nbrWaitTimeout
  /-- ERASE (R455). FLSH command ERASE erases a range of the inactive slot. -/
  | flashErase
  /-- PROGRAM (R455). FLSH command PROGRAM programs bytes from memory or FLSH_BUF into the inactive slot. -/
  | flashProgram
  /-- CHECK (R455). FLSH command CHECK examines the inactive slot for validity and records its reason and SEQ. -/
  | flashCheck
  /-- READ (R455). FLSH command READ copies flash bytes to a package address. -/
  | flashRead
  /-- FLASH_COMMAND_DONE (R455). A flash command completes with its status, or FLASH_ERR on failure or after 5 s. -/
  | flashCommandDone (good : Bool)
  /-- ATT_GO (R464). Writing IDNT_ATT_CTRL.GO captures the nonce and starts an attestation report. -/
  | attGo
  /-- ATT_REPORT_DONE (R465). An attestation report is signed with the next one-time index and written, or ends BUDGET. -/
  | attReportDone
  /-- SMB_REGISTER_READ (R479). SMBus command 0x10 reads a register of slot 0x00 and returns status and value. -/
  | smbRegisterRead (off : BitVec 24) (pec : Bool)
  /-- SMB_REGISTER_WRITE (R479). SMBus command 0x11 writes a register of slot 0x00. -/
  | smbRegisterWrite (off : BitVec 24) (v : Word) (pec : Bool)
  /-- SMB_STATUS_READ (R479). SMBus command 0x12 returns the status of the last write. -/
  | smbStatusRead (pec : Bool)
  /-- SMB_CLOCK_TIMEOUT (R477). SMB_CLK low for 35 ms makes the target release both lines and reset its interface. -/
  | smbClockTimeout
  /-- PMB_GO (R480). Writing BDIE_PMB_CTRL.GO runs one PMBus transaction. -/
  | pmbGo (v : Word)
  /-- PMB_DONE (R480). A PMBus transaction ends with its status, including status 2 after the clock is held low for 35 ms. -/
  | pmbDone (r : PmbEnd) (data : BitVec 16)
  /-- BYPASS (R481). The JTAG BYPASS instruction selects the bypass register. -/
  | jtagBypass
  /-- IDCODE (R481). The JTAG IDCODE instruction reads 0x0724_0A1D. -/
  | jtagIdcode
  /-- SAMPLE_PRELOAD (R481). The JTAG SAMPLE/PRELOAD instruction samples or preloads the boundary-scan chain. -/
  | jtagSamplePreload (pins preload : BitVec 64)
  /-- EXTEST (R481). The JTAG EXTEST instruction drives the board signals from the boundary-scan chain. -/
  | jtagExtest
  /-- CLAMP (R481). The JTAG CLAMP instruction holds the outputs and selects bypass. -/
  | jtagClamp
  /-- HIGHZ (R481). The JTAG HIGHZ instruction places the outputs in high impedance. -/
  | jtagHighz
  /-- TRST_N_ASSERT (R481). TRST_N low holds the TAP in Test-Logic-Reset. -/
  | trstNAssert
  /-- DOMAIN_ENTRY_COMPLETE (R392). A domain entering retention or off reaches its new state at the end of its entry time, and PAGE_PWR.STATE leaves 3. -/
  | domainEntryComplete (d : Domain)
  /-- VDD_AON_OR_VIO_18_LOW (R473). VDD_AON or VIO_18 falling below 90 % of nominal starts power-on reset and releases THERM_TRIP_N. -/
  | vddAonOrVio18Low
  /-- HPRT_RETRAIN (R368). Writing HPRT_CTRL.RETRAIN retrains an UP host port, and is ignored outside UP. -/
  | hprtRetrain (h : HPort)
  /-- HPRT_CLR (R368). Writing HPRT_CTRL.CLR clears the host port's counters at 0x080 to 0x094. -/
  | hprtClr (h : HPort)
  deriving DecidableEq, Repr

end Sys2Proof
end

