-- ==== Sys2Proof/Decode.lean ====
section
/-! DEFINITION. The command that a word spells by the opcode table's bits. The table gives no row of this hardware any
bits, so no word spells a command. -/

namespace Sys2Proof

/-- The command spelled by the `nbits` bits `w`: none, since no row of the table gives bits. -/
def decodeTableWord (_nbits _w : Nat) : Option Instr := none

end Sys2Proof
end

