-- ==== Sys2Proof/Config.lean ====
section
/-! DEFINITION. What one part fixes or what the manual leaves open: constants without a body, so that nothing in Lean
can see their value. A claim that holds of the model holds whatever they are. -/

namespace Sys2Proof.Config

/-- The free value number `n` of a run: a word the manual gives no value for (assumption log 2). -/
opaque freeValue : Nat → Word

/-- The bytes the device uses where its own tables hold a sector that cannot be read (assumption log 3): the byte at
package address `a` at the free-value count `n`. -/
opaque damagedByte : Nat → Nat → Byte

/-- The identification CSRs and `misa` of the control core, by number (04 R90 names the standard CSRs only). -/
opaque csrConstant : Nat → Word

/-- Which of the FP32 values within the bound of 2 ulp the part's `VEXP2` returns for an input, as the distance in
encodings from the correctly rounded value, plus 4 (03 R77, R484). -/
opaque exp2Pick : Word → Fin 9

/-- The same for `VEXP` and its bound of 3 ulp, plus 6 (03 R77, R484). -/
opaque expPick : Word → Fin 13

/-- The same for `VRCP` and its bound of 1 ulp, plus 2 (03 R77, R484). -/
opaque rcpPick : Word → Fin 5

/-- The same for `VRSQRT` and its bound of 2 ulp, plus 4 (03 R77, R484). -/
opaque rsqrtPick : Word → Fin 9

/-- Where the search for a free frame, page ID or node begins (08 R233 leaves the choice open). -/
opaque allocStart : Nat → Nat

/-- The position in the fixed cyclic order of frames, of which the manual gives only that it is fixed (08 R252). -/
opaque sweepOrder : Nat → Nat

/-- The device number, fused (17 R463). -/
opaque devNum : BitVec 64

/-- Word i of the device's public key (17 R463). -/
opaque pubKey : Nat → Word

/-- Positions that factory fuses disable, by package-wide physical index (01 R15). -/
opaque fusedOff : Nat → Bool

/-- Spare bonds used on compute die n (07 R207, R223). -/
opaque dropSpares : Nat → BitVec 16

/-- Spare bonds used on seam link 4 s + l (07 R207, R223). -/
opaque seamSpares : Nat → BitVec 4

/-- The board's flash holds 64, 128 or 256 MiB (17 R450), coded 0 to 2. -/
opaque flashDensity : Fin 3

/-- One-time-signature fuse blocks left in the part when the run begins, at most 1,024 (17 R465). -/
opaque fuseBlocks : Fin 1025

/-- Whether the vendor's signature verifies over a message (17 R459; the public key lies in the mask ROM). -/
opaque vendorVerifies : List Byte → List Byte → Bool

/-- The device's signature with a one-time index over a report body (17 R463 to R465): 2,820 bytes. -/
opaque deviceSign : Nat → List Byte → Nat → Byte

/-- The forecast of the compute hot spot of a column at a stride, in 1/16 degrees C, at decision number `n` from the
readings so far (15 R411 gives no formula). -/
opaque forecastDie : Nat → Nat → Nat → Int

/-- The forecast of the near-memory hot spot of a column at a stride (15 R411). -/
opaque forecastNm : Nat → Nat → Nat → Int

/-- The thermal model's estimate for the site of a sensor at its sample number (15 R408, R409). -/
opaque siteEstimate : Nat → Nat → Int

/-- The PRBS31 register of a channel checker at the start of a run, by seed and pseudo-channel (06 R186 says that `SEED`
seeds one sequence per pseudo-channel, not how). -/
opaque prbsStart : Nat → Nat → BitVec 31

/-- The bit of the 256 of a PRBS31 sector, in the order of the sequence, that stands at a place of the sector (06 R186 leaves
the order open). -/
opaque prbsPlace : Nat → Fin 256

/-- The n-th random address of a checker (06 R186, ECHK_CFG.RAND). -/
opaque checkerAddress : Nat → Nat → Nat

/-- The set of a summit region in which a sector of the stack lies, by sector number (06 R180 gives the sets, not the
address bits that choose one). -/
opaque cacheSet : Nat → Fin 32768

/-- The stack temperature a stack reports, in degrees C, at a reading count (06 R174). -/
opaque stackTemp : Nat → Nat → Byte

end Sys2Proof.Config
end

