-- ==== Sys2Proof/Machine/Regs.lean ====
section
/-! DEFINITION. The register pages as the manual's tables give them: the page types and where they lie (02 R49), and
every field of every register with its place, access type and reset value (02 R39 and the register tables of the
chapters). A value given as Fixed, or produced by the block when read, stands here as 0 and is computed where registers
are read. -/

namespace Sys2Proof.Machine

/-- The block types (02 R49); `hdr` stands for the header that every page has (02 R39). -/
inductive PType where
  | hdr
  /-- BDIE: Base-die control and sensors. -/
  | bdie
  /-- CLK: Clock generation and distribution. -/
  | clk
  /-- PWR: Power domain groups. -/
  | pwr
  /-- BNET: Base-die network and reduction. -/
  | bnet
  /-- ARB: Open-slot arbiter. -/
  | arb
  /-- SUMT: Summit cache. -/
  | sumt
  /-- EMC: Edge-memory controller and sector engine. -/
  | emc
  /-- ECHK: Channel traffic generator and checker. -/
  | echk
  /-- FPRT: Fabric port. -/
  | fprt
  /-- HPRT: Host port. -/
  | hprt
  /-- BOOT: Reset, bring-up and firmware broadcast. -/
  | boot
  /-- MGMT: Management core and error log. -/
  | mgmt
  /-- THRM: Thermal model and coolant inputs. -/
  | thrm
  /-- FLSH: Flash and configuration copies. -/
  | flsh
  /-- IDNT: Identity, licences and attestation. -/
  | idnt
  /-- HBRG: Host bridge. -/
  | hbrg
  /-- SUBW: Submission window. -/
  | subw
  /-- DMA: DMA channel. -/
  | dma
  /-- ROPE: Rope table and KV tiering. -/
  | rope
  /-- CAIRN: Cairn engine. -/
  | cairn
  /-- SEAM: Seam links. -/
  | seam
  /-- CDIE: Compute-die control and partition reset. -/
  | cdie
  /-- TMAP: Tile map. -/
  | tmap
  /-- NMEM: Near-memory layer, row engines, scrubber, refresh. -/
  | nmem
  /-- CNET: Compute-die mesh and its drop to the base die. -/
  | cnet
  /-- TILE: Tile control, power and sensor. -/
  | tile
  /-- ESTK: Edge stack control. -/
  | estk
  /-- EROW: Row engines of the logic base. -/
  | erow
  deriving DecidableEq, Repr

/-- The block type code of `PAGE_ID.TYPE` (02 R49). -/
def PType.code : PType → Nat
  | .hdr => 0
  | .bdie => 0x0001
  | .clk => 0x0002
  | .pwr => 0x0003
  | .bnet => 0x0004
  | .arb => 0x0005
  | .sumt => 0x0010
  | .emc => 0x0011
  | .echk => 0x0012
  | .fprt => 0x0020
  | .hprt => 0x0021
  | .boot => 0x0030
  | .mgmt => 0x0031
  | .thrm => 0x0032
  | .flsh => 0x0033
  | .idnt => 0x0034
  | .hbrg => 0x0040
  | .subw => 0x0041
  | .dma => 0x0042
  | .rope => 0x0050
  | .cairn => 0x0051
  | .seam => 0x0060
  | .cdie => 0x0100
  | .tmap => 0x0101
  | .nmem => 0x0102
  | .cnet => 0x0103
  | .tile => 0x0104
  | .estk => 0x0200
  | .erow => 0x0201

/-- The access types of fields (02 R34). -/
inductive Access where
  | ro | rw | w1c | wo | rwl
  deriving DecidableEq, Repr

/-- A field of a register: the page type, the byte offset of its first register, the distance to the next register of
the same name and how many there are (0 and 1 for a single one), its bits, its access type, its reset value, and, for
a field repeated within one register, the width of one repetition and their number. -/
structure Field where
  ty : PType
  off : Nat
  stride : Nat
  count : Nat
  hi : Nat
  lo : Nat
  acc : Access
  reset : Nat
  subWidth : Nat
  subCount : Nat
  deriving DecidableEq, Repr

/-- The field in register number `i` of an array of registers. -/
def Field.at (f : Field) (i : Nat) : Field := { f with off := f.off + f.stride * i, stride := 0, count := 1 }

/-- Repetition `j` of a field repeated within a register. -/
def Field.sub (f : Field) (j : Nat) : Field :=
  { f with hi := f.hi + f.subWidth * j, lo := f.lo + f.subWidth * j, subWidth := 0, subCount := 1 }

def TMAP_SUMMARY.SPARE : Field := ⟨.tmap, 0x040, 0, 1, 31, 24, .ro, 0, 0, 1⟩
def TMAP_SUMMARY.FUSED_OFF : Field := ⟨.tmap, 0x040, 0, 1, 23, 16, .ro, 0, 0, 1⟩
def TMAP_SUMMARY.FENCED : Field := ⟨.tmap, 0x040, 0, 1, 15, 8, .ro, 0, 0, 1⟩
def TMAP_SUMMARY.ENABLED : Field := ⟨.tmap, 0x040, 0, 1, 7, 0, .ro, 0, 0, 1⟩
def TMAP_PHYS.NM_FAIL : Field := ⟨.tmap, 0x080, 4, 144, 19, 16, .ro, 0, 0, 1⟩
def TMAP_PHYS.STATE : Field := ⟨.tmap, 0x080, 4, 144, 10, 8, .ro, 7, 0, 1⟩
def TMAP_PHYS.LOGICAL : Field := ⟨.tmap, 0x080, 4, 144, 6, 0, .ro, 0x7F, 0, 1⟩
def TMAP_LOG.VALID : Field := ⟨.tmap, 0x300, 4, 128, 31, 31, .ro, 0, 0, 1⟩
def TMAP_LOG.PHYS : Field := ⟨.tmap, 0x300, 4, 128, 7, 0, .ro, 0, 0, 1⟩
def PAGE_ID.TYPE : Field := ⟨.hdr, 0x000, 0, 1, 31, 16, .ro, 0, 0, 1⟩
def PAGE_ID.INSTANCE : Field := ⟨.hdr, 0x000, 0, 1, 15, 0, .ro, 0, 0, 1⟩
def PAGE_VER.MAJOR : Field := ⟨.hdr, 0x004, 0, 1, 15, 8, .ro, 1, 0, 1⟩
def PAGE_VER.MINOR : Field := ⟨.hdr, 0x004, 0, 1, 7, 0, .ro, 0, 0, 1⟩
def PAGE_CAPS.LOCKABLE : Field := ⟨.hdr, 0x008, 0, 1, 31, 31, .ro, 0, 0, 1⟩
def PAGE_CAPS.PWR : Field := ⟨.hdr, 0x008, 0, 1, 30, 30, .ro, 0, 0, 1⟩
def PAGE_CAPS.LATTOL : Field := ⟨.hdr, 0x008, 0, 1, 29, 29, .ro, 0, 0, 1⟩
def PAGE_CAPS.LIC_OFF : Field := ⟨.hdr, 0x008, 0, 1, 28, 28, .ro, 0, 0, 1⟩
def PAGE_CAPS.BLOCK : Field := ⟨.hdr, 0x008, 0, 1, 23, 0, .ro, 0, 0, 1⟩
def PAGE_CTRL.LOCK : Field := ⟨.hdr, 0x00C, 0, 1, 31, 31, .rwl, 0, 0, 1⟩
def PAGE_CTRL.SRST : Field := ⟨.hdr, 0x00C, 0, 1, 1, 1, .wo, 0, 0, 1⟩
def PAGE_CTRL.EN : Field := ⟨.hdr, 0x00C, 0, 1, 0, 0, .rw, 0, 0, 1⟩
def PAGE_STAT.BLOCK : Field := ⟨.hdr, 0x010, 0, 1, 31, 16, .ro, 0, 0, 1⟩
def PAGE_STAT.LOCK_HIT : Field := ⟨.hdr, 0x010, 0, 1, 5, 5, .w1c, 0, 0, 1⟩
def PAGE_STAT.SRST_BUSY : Field := ⟨.hdr, 0x010, 0, 1, 4, 4, .ro, 0, 0, 1⟩
def PAGE_STAT.ERR_PENDING : Field := ⟨.hdr, 0x010, 0, 1, 3, 3, .ro, 0, 0, 1⟩
def PAGE_STAT.DEGRADED : Field := ⟨.hdr, 0x010, 0, 1, 2, 2, .ro, 0, 0, 1⟩
def PAGE_STAT.FENCED : Field := ⟨.hdr, 0x010, 0, 1, 1, 1, .ro, 0, 0, 1⟩
def PAGE_STAT.READY : Field := ⟨.hdr, 0x010, 0, 1, 0, 0, .ro, 0, 0, 1⟩
def PAGE_ERR_CNT_C.COUNT : Field := ⟨.hdr, 0x014, 0, 1, 31, 0, .ro, 0, 0, 1⟩
def PAGE_ERR_CNT_U.COUNT : Field := ⟨.hdr, 0x018, 0, 1, 31, 0, .ro, 0, 0, 1⟩
def PAGE_ERR_FIRST.VALID : Field := ⟨.hdr, 0x01C, 0, 1, 31, 31, .ro, 0, 0, 1⟩
def PAGE_ERR_FIRST.CODE : Field := ⟨.hdr, 0x01C, 0, 1, 23, 16, .ro, 0, 0, 1⟩
def PAGE_ERR_FIRST.SYNDROME : Field := ⟨.hdr, 0x01C, 0, 1, 15, 0, .ro, 0, 0, 1⟩
def PAGE_ERR_NEXT.COUNT : Field := ⟨.hdr, 0x020, 0, 1, 31, 0, .ro, 0, 0, 1⟩
def PAGE_ERR_ACK.CLR_U : Field := ⟨.hdr, 0x024, 0, 1, 2, 2, .wo, 0, 0, 1⟩
def PAGE_ERR_ACK.CLR_C : Field := ⟨.hdr, 0x024, 0, 1, 1, 1, .wo, 0, 0, 1⟩
def PAGE_ERR_ACK.FIRST : Field := ⟨.hdr, 0x024, 0, 1, 0, 0, .wo, 0, 0, 1⟩
def PAGE_PWR.STATE : Field := ⟨.hdr, 0x028, 0, 1, 9, 8, .ro, 0, 0, 1⟩
def PAGE_PWR.REQ : Field := ⟨.hdr, 0x028, 0, 1, 1, 0, .rw, 0, 0, 1⟩
def PAGE_LATTOL.TOL_NS : Field := ⟨.hdr, 0x02C, 0, 1, 27, 0, .rw, 0, 0, 1⟩
def TILE_ARR_CFG.IDLE : Field := ⟨.tile, 0x100, 0, 1, 15, 8, .rw, 8, 0, 1⟩
def TILE_ARR_CFG.RAMP : Field := ⟨.tile, 0x100, 0, 1, 2, 0, .rwl, 2, 0, 1⟩
def TILE_ARR_STAT.STATE : Field := ⟨.tile, 0x104, 0, 1, 9, 8, .ro, 0, 0, 1⟩
def TILE_ARR_STAT.GROUPS : Field := ⟨.tile, 0x104, 0, 1, 3, 0, .ro, 0, 0, 1⟩
def TILE_CTL.HALT : Field := ⟨.tile, 0x040, 0, 1, 1, 1, .wo, 0, 0, 1⟩
def TILE_CTL.START : Field := ⟨.tile, 0x040, 0, 1, 0, 0, .wo, 0, 0, 1⟩
def TILE_ENTRY.ADDR : Field := ⟨.tile, 0x044, 0, 1, 20, 4, .rw, 0, 0, 1⟩
def TILE_ENTRY.BMODE : Field := ⟨.tile, 0x044, 0, 1, 0, 0, .rw, 0, 0, 1⟩
def TILE_STAT.CAUSE : Field := ⟨.tile, 0x048, 0, 1, 15, 8, .ro, 0, 0, 1⟩
def TILE_STAT.RUN : Field := ⟨.tile, 0x048, 0, 1, 2, 0, .ro, 0, 0, 1⟩
def TILE_PC.PC : Field := ⟨.tile, 0x04C, 0, 1, 20, 0, .ro, 0, 0, 1⟩
def ARB_PRIO_A.CAIRN : Field := ⟨.arb, 0x040, 0, 1, 15, 12, .rw, 0xA, 0, 1⟩
def ARB_PRIO_A.MGMT : Field := ⟨.arb, 0x040, 0, 1, 11, 8, .rw, 0xC, 0, 1⟩
def ARB_PRIO_A.H1 : Field := ⟨.arb, 0x040, 0, 1, 7, 4, .rw, 8, 0, 1⟩
def ARB_PRIO_A.H0 : Field := ⟨.arb, 0x040, 0, 1, 3, 0, .rw, 8, 0, 1⟩
def ARB_PRIO_DMA.CH : Field := ⟨.arb, 0x044, 4, 4, 3, 0, .rw, 4, 4, 8⟩
def ARB_OBS_SEL.REQ : Field := ⟨.arb, 0x060, 0, 1, 21, 16, .rw, 0, 0, 1⟩
def ARB_OBS_SEL.RES : Field := ⟨.arb, 0x060, 0, 1, 15, 0, .rw, 0, 0, 1⟩
def ARB_OBS_RES.HELD : Field := ⟨.arb, 0x064, 0, 1, 31, 31, .ro, 0, 0, 1⟩
def ARB_OBS_RES.HOLDER : Field := ⟨.arb, 0x064, 0, 1, 29, 24, .ro, 0, 0, 1⟩
def ARB_OBS_RES.HOLD_LEN : Field := ⟨.arb, 0x064, 0, 1, 23, 0, .ro, 0, 0, 1⟩
def ARB_OBS_REQ.PENDING : Field := ⟨.arb, 0x068, 0, 1, 31, 31, .ro, 0, 0, 1⟩
def ARB_OBS_REQ.LOSSES : Field := ⟨.arb, 0x068, 0, 1, 27, 24, .ro, 0, 0, 1⟩
def ARB_OBS_REQ.BACKOFF : Field := ⟨.arb, 0x068, 0, 1, 10, 0, .ro, 0, 0, 1⟩
def ARB_OBS_CAL.MAX_GAP : Field := ⟨.arb, 0x06C, 0, 1, 28, 16, .ro, 0x41, 0, 1⟩
def ARB_OBS_CAL.OPEN_CNT : Field := ⟨.arb, 0x06C, 0, 1, 12, 0, .ro, 0xFC0, 0, 1⟩
def ARB_HOLD_WARN.LIMIT : Field := ⟨.arb, 0x070, 0, 1, 23, 0, .rw, 0, 0, 1⟩
def ARB_CAL_ADDR_LO.ADDR : Field := ⟨.arb, 0x080, 0, 1, 31, 5, .rw, 0, 0, 1⟩
def ARB_CAL_ADDR_HI.ADDR : Field := ⟨.arb, 0x084, 0, 1, 15, 0, .rw, 0, 0, 1⟩
def ARB_CAL_CTRL.SWITCH : Field := ⟨.arb, 0x088, 0, 1, 1, 1, .wo, 0, 0, 1⟩
def ARB_CAL_CTRL.LOAD : Field := ⟨.arb, 0x088, 0, 1, 0, 0, .wo, 0, 0, 1⟩
def ARB_CAL_STAT.ERR : Field := ⟨.arb, 0x08C, 0, 1, 31, 24, .ro, 0, 0, 1⟩
def ARB_CAL_STAT.BUSY : Field := ⟨.arb, 0x08C, 0, 1, 15, 15, .ro, 0, 0, 1⟩
def ARB_CAL_STAT.STAGED : Field := ⟨.arb, 0x08C, 0, 1, 14, 14, .ro, 0, 0, 1⟩
def ARB_CAL_GEN.STAGED : Field := ⟨.arb, 0x090, 0, 1, 31, 16, .ro, 0, 0, 1⟩
def ARB_CAL_GEN.ACTIVE : Field := ⟨.arb, 0x090, 0, 1, 15, 0, .ro, 0, 0, 1⟩
def CDIE_THROT_CFG.MIN_STRIDE : Field := ⟨.cdie, 0x080, 0, 1, 3, 0, .rw, 0, 0, 1⟩
def CDIE_THROT_STAT.CAUSE : Field := ⟨.cdie, 0x084, 0, 1, 18, 16, .ro, 0, 0, 1⟩
def CDIE_THROT_STAT.DEV_STRIDE : Field := ⟨.cdie, 0x084, 0, 1, 11, 8, .ro, 0, 0, 1⟩
def CDIE_THROT_STAT.STRIDE : Field := ⟨.cdie, 0x084, 0, 1, 3, 0, .ro, 0, 0, 1⟩
def NMEM_CFG.SCRUB_INT : Field := ⟨.nmem, 0x040, 0, 1, 23, 16, .rw, 0x10, 0, 1⟩
def NMEM_CFG.REFR_X2 : Field := ⟨.nmem, 0x040, 0, 1, 3, 0, .rw, 0, 0, 1⟩
def NMEM_CTRL.CLR_LATE : Field := ⟨.nmem, 0x044, 0, 1, 1, 1, .wo, 0, 0, 1⟩
def NMEM_CTRL.CLR_SCRUB : Field := ⟨.nmem, 0x044, 0, 1, 0, 0, .wo, 0, 0, 1⟩
def NMEM_REFR_STAT.NO_MODEL : Field := ⟨.nmem, 0x048, 0, 1, 11, 8, .ro, 0xF, 0, 1⟩
def NMEM_REFR_STAT.HOT : Field := ⟨.nmem, 0x048, 0, 1, 7, 4, .ro, 0, 0, 1⟩
def NMEM_REFR_STAT.X2 : Field := ⟨.nmem, 0x048, 0, 1, 3, 0, .ro, 0xF, 0, 1⟩
def NMEM_REFR_LATE.COUNT : Field := ⟨.nmem, 0x04C, 0, 1, 31, 0, .ro, 0, 0, 1⟩
def NMEM_SCRUB_STAT.PASSES : Field := ⟨.nmem, 0x050, 0, 1, 31, 16, .ro, 0, 0, 1⟩
def NMEM_SCRUB_STAT.ROW : Field := ⟨.nmem, 0x050, 0, 1, 10, 0, .ro, 0, 0, 1⟩
def NMEM_SCRUB_C.COUNT : Field := ⟨.nmem, 0x054, 0, 1, 31, 0, .ro, 0, 0, 1⟩
def NMEM_SCRUB_U.COUNT : Field := ⟨.nmem, 0x058, 0, 1, 31, 0, .ro, 0, 0, 1⟩
def NMEM_SCRUB_P.COUNT : Field := ⟨.nmem, 0x05C, 0, 1, 31, 0, .ro, 0, 0, 1⟩
def NMEM_ERR_ADDR_LO.ADDR : Field := ⟨.nmem, 0x060, 0, 1, 31, 5, .ro, 0, 0, 1⟩
def NMEM_ERR_ADDR_HI.SRC : Field := ⟨.nmem, 0x064, 0, 1, 31, 30, .ro, 0, 0, 1⟩
def NMEM_ERR_ADDR_HI.ADDR : Field := ⟨.nmem, 0x064, 0, 1, 15, 0, .ro, 0, 0, 1⟩
def NMEM_RE_STAT.BUSY : Field := ⟨.nmem, 0x080, 4, 4, 31, 31, .ro, 0, 0, 1⟩
def NMEM_RE_STAT.QUEUED : Field := ⟨.nmem, 0x080, 4, 4, 20, 16, .ro, 0, 0, 1⟩
def NMEM_RE_STAT.LAST : Field := ⟨.nmem, 0x080, 4, 4, 7, 0, .ro, 0, 0, 1⟩
def NMEM_RE_DONE.COUNT : Field := ⟨.nmem, 0x090, 4, 4, 31, 0, .ro, 0, 0, 1⟩
def NMEM_RE_POIS.COUNT : Field := ⟨.nmem, 0x0A0, 4, 4, 31, 0, .ro, 0, 0, 1⟩
def EMC_CFG.SWIN_ALLOC : Field := ⟨.emc, 0x040, 0, 1, 15, 8, .rw, 0, 0, 1⟩
def EMC_CFG.SWIN_EN : Field := ⟨.emc, 0x040, 0, 1, 7, 0, .rw, 0, 0, 1⟩
def EMC_SWIN.SIZE : Field := ⟨.emc, 0x060, 4, 8, 31, 16, .rw, 0, 0, 1⟩
def EMC_SWIN.BASE : Field := ⟨.emc, 0x060, 4, 8, 15, 0, .rw, 0, 0, 1⟩
def EMC_OBS_WAIT.CH : Field := ⟨.emc, 0x044, 0, 1, 28, 24, .rw, 0, 0, 1⟩
def EMC_OBS_WAIT.W : Field := ⟨.emc, 0x044, 0, 1, 12, 0, .ro, 0, 0, 1⟩
def EMC_ERR_ADDR_LO.ADDR : Field := ⟨.emc, 0x048, 0, 1, 31, 5, .ro, 0, 0, 1⟩
def EMC_ERR_ADDR_HI.SRC : Field := ⟨.emc, 0x04C, 0, 1, 31, 30, .ro, 0, 0, 1⟩
def EMC_ERR_ADDR_HI.ADDR : Field := ⟨.emc, 0x04C, 0, 1, 15, 0, .ro, 0, 0, 1⟩
def ESTK_STAT.TEMP : Field := ⟨.estk, 0x040, 0, 1, 31, 24, .ro, 0, 0, 1⟩
def ESTK_STAT.X2 : Field := ⟨.estk, 0x040, 0, 1, 16, 16, .ro, 0, 0, 1⟩
def ESTK_STAT.FAIL_CH : Field := ⟨.estk, 0x040, 0, 1, 12, 8, .ro, 0, 0, 1⟩
def ESTK_STAT.INIT : Field := ⟨.estk, 0x040, 0, 1, 1, 0, .ro, 0, 0, 1⟩
def EROW_DONE.COUNT : Field := ⟨.erow, 0x040, 0, 1, 31, 0, .ro, 0, 0, 1⟩
def EROW_POIS.COUNT : Field := ⟨.erow, 0x044, 0, 1, 31, 0, .ro, 0, 0, 1⟩
def EROW_STAT.BUSY : Field := ⟨.erow, 0x080, 4, 32, 31, 31, .ro, 0, 0, 1⟩
def EROW_STAT.QUEUED : Field := ⟨.erow, 0x080, 4, 32, 19, 16, .ro, 0, 0, 1⟩
def EROW_STAT.LAST : Field := ⟨.erow, 0x080, 4, 32, 7, 0, .ro, 0, 0, 1⟩
def SUMT_REG.BUSY : Field := ⟨.sumt, 0x040, 4, 20, 31, 31, .ro, 0, 0, 1⟩
def SUMT_REG.STACK : Field := ⟨.sumt, 0x040, 4, 20, 2, 2, .rw, 0, 0, 1⟩
def SUMT_REG.MODE : Field := ⟨.sumt, 0x040, 4, 20, 1, 0, .rw, 0, 0, 1⟩
def SUMT_HIT.COUNT : Field := ⟨.sumt, 0x0A0, 4, 2, 31, 0, .ro, 0, 0, 1⟩
def SUMT_MISS.COUNT : Field := ⟨.sumt, 0x0A8, 4, 2, 31, 0, .ro, 0, 0, 1⟩
def SUMT_OVF.COUNT : Field := ⟨.sumt, 0x0B0, 4, 2, 31, 0, .ro, 0, 0, 1⟩
def ECHK_CTRL.STOP : Field := ⟨.echk, 0x040, 0, 1, 1, 1, .wo, 0, 0, 1⟩
def ECHK_CTRL.START : Field := ⟨.echk, 0x040, 0, 1, 0, 0, .wo, 0, 0, 1⟩
def ECHK_CFG.SEED : Field := ⟨.echk, 0x044, 0, 1, 31, 16, .rw, 1, 0, 1⟩
def ECHK_CFG.RAND : Field := ⟨.echk, 0x044, 0, 1, 8, 8, .rw, 0, 0, 1⟩
def ECHK_CFG.RAW : Field := ⟨.echk, 0x044, 0, 1, 7, 7, .rw, 0, 0, 1⟩
def ECHK_CFG.PATH : Field := ⟨.echk, 0x044, 0, 1, 6, 6, .rw, 0, 0, 1⟩
def ECHK_CFG.OP : Field := ⟨.echk, 0x044, 0, 1, 5, 4, .rw, 0, 0, 1⟩
def ECHK_CFG.PATTERN : Field := ⟨.echk, 0x044, 0, 1, 2, 0, .rw, 0, 0, 1⟩
def ECHK_RANGE.ROWS : Field := ⟨.echk, 0x048, 0, 1, 30, 16, .rw, 0x7FFF, 0, 1⟩
def ECHK_RANGE.FIRST : Field := ⟨.echk, 0x048, 0, 1, 14, 0, .rw, 0, 0, 1⟩
def ECHK_COUNT.COUNT : Field := ⟨.echk, 0x04C, 0, 1, 31, 0, .rw, 0, 0, 1⟩
def ECHK_MIS_SECT.COUNT : Field := ⟨.echk, 0x054, 0, 1, 31, 0, .ro, 0, 0, 1⟩
def ECHK_MIS_BITS.COUNT : Field := ⟨.echk, 0x058, 0, 1, 31, 0, .ro, 0, 0, 1⟩
def ECHK_CYCLES.COUNT : Field := ⟨.echk, 0x060, 0, 1, 31, 0, .ro, 0, 0, 1⟩
def ECHK_STAT.ABORT : Field := ⟨.echk, 0x050, 0, 1, 2, 2, .ro, 0, 0, 1⟩
def ECHK_STAT.DONE : Field := ⟨.echk, 0x050, 0, 1, 1, 1, .ro, 0, 0, 1⟩
def ECHK_STAT.RUN : Field := ⟨.echk, 0x050, 0, 1, 0, 0, .ro, 0, 0, 1⟩
def ECHK_FIRST.VALID : Field := ⟨.echk, 0x05C, 0, 1, 31, 31, .ro, 0, 0, 1⟩
def ECHK_FIRST.SECT : Field := ⟨.echk, 0x05C, 0, 1, 30, 0, .ro, 0, 0, 1⟩
def ECHK_PAT.BYTES : Field := ⟨.echk, 0x080, 4, 8, 31, 0, .rw, 0, 0, 1⟩
def CDIE_PRST_CTRL.RELEASE : Field := ⟨.cdie, 0x040, 0, 1, 1, 1, .wo, 0, 0, 1⟩
def CDIE_PRST_CTRL.REQ : Field := ⟨.cdie, 0x040, 0, 1, 0, 0, .wo, 0, 0, 1⟩
def CDIE_PRST_STAT.COUNT : Field := ⟨.cdie, 0x044, 0, 1, 31, 16, .ro, 0, 0, 1⟩
def CDIE_PRST_STAT.STATE : Field := ⟨.cdie, 0x044, 0, 1, 2, 0, .ro, 0, 0, 1⟩
def CDIE_DD_CNT.COUNT : Field := ⟨.cdie, 0x048, 0, 1, 31, 0, .ro, 0, 0, 1⟩
def CNET_REPLAY.COUNT : Field := ⟨.cnet, 0x044, 0, 1, 31, 0, .ro, 0, 0, 1⟩
def CNET_HDR_DROP.COUNT : Field := ⟨.cnet, 0x048, 0, 1, 31, 0, .ro, 0, 0, 1⟩
def SEAM_REPLAY.COUNT : Field := ⟨.seam, 0x060, 4, 4, 31, 0, .ro, 0, 0, 1⟩
def BNET_HDR_DROP.COUNT : Field := ⟨.bnet, 0x044, 0, 1, 31, 0, .ro, 0, 0, 1⟩
def BNET_STALL_DROP.COUNT : Field := ⟨.bnet, 0x048, 0, 1, 31, 0, .ro, 0, 0, 1⟩
def BNET_RED_DONE.COUNT : Field := ⟨.bnet, 0x06C, 0, 1, 31, 0, .ro, 0, 0, 1⟩
def CNET_DROP_DOWN.DOWN : Field := ⟨.cnet, 0x040, 0, 1, 23, 0, .ro, 0, 0, 1⟩
def CNET_SPARES.USED : Field := ⟨.cnet, 0x04C, 0, 1, 15, 0, .ro, 0, 0, 1⟩
def SEAM_CTRL.RETRAIN : Field := ⟨.seam, 0x040, 0, 1, 3, 0, .wo, 0, 0, 1⟩
def SEAM_LINK.RETRAINS : Field := ⟨.seam, 0x050, 4, 4, 31, 24, .ro, 0, 0, 1⟩
def SEAM_LINK.SPARES : Field := ⟨.seam, 0x050, 4, 4, 19, 16, .ro, 0, 0, 1⟩
def SEAM_LINK.P1 : Field := ⟨.seam, 0x050, 4, 4, 15, 14, .ro, 0, 0, 1⟩
def SEAM_LINK.P0 : Field := ⟨.seam, 0x050, 4, 4, 13, 12, .ro, 0, 0, 1⟩
def SEAM_LINK.ATTEMPTS : Field := ⟨.seam, 0x050, 4, 4, 9, 8, .ro, 0, 0, 1⟩
def SEAM_LINK.WIDTH : Field := ⟨.seam, 0x050, 4, 4, 5, 4, .ro, 0, 0, 1⟩
def SEAM_LINK.STATE : Field := ⟨.seam, 0x050, 4, 4, 2, 0, .ro, 0, 0, 1⟩
def BNET_RT_STAT.DETOUR : Field := ⟨.bnet, 0x040, 0, 1, 16, 16, .ro, 0, 0, 1⟩
def BNET_RT_STAT.GEN : Field := ⟨.bnet, 0x040, 0, 1, 15, 0, .ro, 0, 0, 1⟩
def BNET_RG_ADDR_LO.ADDR : Field := ⟨.bnet, 0x050, 0, 1, 31, 5, .rw, 0, 0, 1⟩
def BNET_RG_ADDR_HI.ADDR : Field := ⟨.bnet, 0x054, 0, 1, 15, 0, .rw, 0, 0, 1⟩
def BNET_RG_CTRL.LOAD : Field := ⟨.bnet, 0x058, 0, 1, 0, 0, .wo, 0, 0, 1⟩
def BNET_RG_STAT.ERR : Field := ⟨.bnet, 0x05C, 0, 1, 31, 24, .ro, 0, 0, 1⟩
def BNET_RG_STAT.BUSY : Field := ⟨.bnet, 0x05C, 0, 1, 15, 15, .ro, 0, 0, 1⟩
def BNET_RG_STAT.VALID : Field := ⟨.bnet, 0x05C, 0, 1, 4, 0, .ro, 0, 0, 1⟩
def BNET_RED_TMO.US : Field := ⟨.bnet, 0x060, 0, 1, 19, 0, .rw, 0x3E8, 0, 1⟩
def BNET_RED_FAIL_LO.FAILED : Field := ⟨.bnet, 0x064, 0, 1, 31, 0, .ro, 0, 0, 1⟩
def BNET_RED_FAIL_HI.FAILED : Field := ⟨.bnet, 0x068, 0, 1, 31, 0, .ro, 0, 0, 1⟩
def ROPE_CFG.ON : Field := ⟨.rope, 0x040, 0, 1, 31, 31, .rw, 0, 0, 1⟩
def ROPE_CFG.FREEZE : Field := ⟨.rope, 0x040, 0, 1, 8, 8, .rw, 0, 0, 1⟩
def ROPE_CFG.FRAME_ROWS : Field := ⟨.rope, 0x040, 0, 1, 6, 0, .rwl, 0x11, 0, 1⟩
def ROPE_STAT.CFG_ERR : Field := ⟨.rope, 0x044, 0, 1, 31, 24, .ro, 0, 0, 1⟩
def ROPE_STAT.LAY_ERR : Field := ⟨.rope, 0x044, 0, 1, 23, 20, .ro, 0, 0, 1⟩
def ROPE_STAT.ACTIVE : Field := ⟨.rope, 0x044, 0, 1, 0, 0, .ro, 0, 0, 1⟩
def ROPE_META_LO.ADDR : Field := ⟨.rope, 0x048, 0, 1, 31, 21, .rwl, 0, 0, 1⟩
def ROPE_META_HI.ADDR : Field := ⟨.rope, 0x04C, 0, 1, 15, 0, .rwl, 0, 0, 1⟩
def ROPE_META_LEN.MIB : Field := ⟨.rope, 0x050, 0, 1, 15, 0, .rwl, 0, 0, 1⟩
def ROPE_NPOOL_OFF.ROWS : Field := ⟨.rope, 0x054, 0, 1, 16, 0, .rwl, 0, 0, 1⟩
def ROPE_NPOOL_ROWS.ROWS : Field := ⟨.rope, 0x058, 0, 1, 16, 0, .rwl, 0, 0, 1⟩
def ROPE_EPOOL.LEN : Field := ⟨.rope, 0x05C, 0, 1, 31, 16, .rwl, 0, 0, 1⟩
def ROPE_EPOOL.OFF : Field := ⟨.rope, 0x05C, 0, 1, 15, 0, .rwl, 0, 0, 1⟩
def ROPE_MOVE_MAX.PAGES : Field := ⟨.rope, 0x060, 0, 1, 15, 0, .rw, 0x100, 0, 1⟩
def ROPE_EPOCH.COUNT : Field := ⟨.rope, 0x064, 0, 1, 31, 0, .ro, 0, 0, 1⟩
def ROPE_NFREE.COUNT : Field := ⟨.rope, 0x180, 4, 12, 31, 0, .ro, 0, 0, 1⟩
def ROPE_EFREE.COUNT : Field := ⟨.rope, 0x1B0, 4, 4, 31, 0, .ro, 0, 0, 1⟩
def ROPE_SEL.ROPE : Field := ⟨.rope, 0x068, 0, 1, 11, 0, .rw, 0, 0, 1⟩
def ROPE_ENT.WORD : Field := ⟨.rope, 0x080, 4, 16, 31, 0, .ro, 0, 0, 1⟩
def ROPE_THR.T_DOWN : Field := ⟨.rope, 0x0C0, 4, 12, 15, 8, .ro, 2, 0, 1⟩
def ROPE_THR.T_UP : Field := ⟨.rope, 0x0C0, 4, 12, 7, 0, .ro, 4, 0, 1⟩
def ROPE_LAY_TAG.TAG : Field := ⟨.rope, 0x100, 8, 16, 31, 0, .rw, 0, 0, 1⟩
def ROPE_LAY_CFG.VALID : Field := ⟨.rope, 0x104, 8, 16, 31, 31, .rw, 0, 0, 1⟩
def ROPE_LAY_CFG.FMT : Field := ⟨.rope, 0x104, 8, 16, 28, 28, .rw, 0, 0, 1⟩
def ROPE_LAY_CFG.DIES : Field := ⟨.rope, 0x104, 8, 16, 27, 16, .rw, 0, 0, 1⟩
def ROPE_LAY_CFG.HPG : Field := ⟨.rope, 0x104, 8, 16, 15, 14, .rw, 0, 0, 1⟩
def ROPE_LAY_CFG.HEADS : Field := ⟨.rope, 0x104, 8, 16, 13, 8, .rw, 0, 0, 1⟩
def ROPE_LAY_CFG.LAYERS : Field := ⟨.rope, 0x104, 8, 16, 7, 0, .rw, 0, 0, 1⟩
def CAIRN_CFG.ON : Field := ⟨.cairn, 0x040, 0, 1, 31, 31, .rw, 0, 0, 1⟩
def CAIRN_CFG.SIZE : Field := ⟨.cairn, 0x040, 0, 1, 2, 1, .rwl, 0, 0, 1⟩
def CAIRN_CFG.VERIFY : Field := ⟨.cairn, 0x040, 0, 1, 0, 0, .rw, 1, 0, 1⟩
def CAIRN_STAT.CFG_ERR : Field := ⟨.cairn, 0x044, 0, 1, 31, 24, .ro, 0, 0, 1⟩
def CAIRN_STAT.SWEEP : Field := ⟨.cairn, 0x044, 0, 1, 1, 1, .ro, 0, 0, 1⟩
def CAIRN_STAT.ACTIVE : Field := ⟨.cairn, 0x044, 0, 1, 0, 0, .ro, 0, 0, 1⟩
def CAIRN_BASE_LO.ADDR : Field := ⟨.cairn, 0x048, 0, 1, 31, 21, .rwl, 0, 0, 1⟩
def CAIRN_BASE_HI.ADDR : Field := ⟨.cairn, 0x04C, 0, 1, 15, 0, .rwl, 0, 0, 1⟩
def CAIRN_CAP.PAGES : Field := ⟨.cairn, 0x050, 0, 1, 27, 0, .rw, 0, 0, 1⟩
def CAIRN_CURSOR.NEXT : Field := ⟨.cairn, 0x060, 0, 1, 15, 0, .ro, 0, 0, 1⟩
def CAIRN_ENTRIES.COUNT : Field := ⟨.cairn, 0x054, 0, 1, 31, 0, .ro, 0, 0, 1⟩
def CAIRN_PAGES.COUNT : Field := ⟨.cairn, 0x058, 0, 1, 31, 0, .ro, 0, 0, 1⟩
def CAIRN_PINNED.COUNT : Field := ⟨.cairn, 0x05C, 0, 1, 31, 0, .ro, 0, 0, 1⟩
def FPRT_CFG.VERS : Field := ⟨.fprt, 0x040, 0, 1, 1, 0, .rwl, 3, 0, 1⟩
def FPRT_CTRL.CLR : Field := ⟨.fprt, 0x044, 0, 1, 1, 1, .wo, 0, 0, 1⟩
def FPRT_CTRL.RETRAIN : Field := ⟨.fprt, 0x044, 0, 1, 0, 0, .wo, 0, 0, 1⟩
def FPRT_STAT.RETRAINS : Field := ⟨.fprt, 0x048, 0, 1, 31, 24, .ro, 0, 0, 1⟩
def FPRT_STAT.R_OK_P : Field := ⟨.fprt, 0x048, 0, 1, 17, 17, .ro, 0, 0, 1⟩
def FPRT_STAT.R_OK_N : Field := ⟨.fprt, 0x048, 0, 1, 16, 16, .ro, 0, 0, 1⟩
def FPRT_STAT.VER : Field := ⟨.fprt, 0x048, 0, 1, 11, 8, .ro, 0, 0, 1⟩
def FPRT_STAT.NO_VER : Field := ⟨.fprt, 0x048, 0, 1, 4, 4, .ro, 0, 0, 1⟩
def FPRT_STAT.STATE : Field := ⟨.fprt, 0x048, 0, 1, 2, 0, .ro, 0, 0, 1⟩
def FPRT_RING_N.VALID : Field := ⟨.fprt, 0x050, 0, 1, 31, 31, .rwl, 0, 0, 1⟩
def FPRT_RING_N.RING : Field := ⟨.fprt, 0x050, 0, 1, 18, 16, .rwl, 0, 0, 1⟩
def FPRT_RING_N.NM1 : Field := ⟨.fprt, 0x050, 0, 1, 15, 8, .rwl, 0, 0, 1⟩
def FPRT_RING_N.POS : Field := ⟨.fprt, 0x050, 0, 1, 7, 0, .rwl, 0, 0, 1⟩
def FPRT_RING_P.VALID : Field := ⟨.fprt, 0x054, 0, 1, 31, 31, .rwl, 0, 0, 1⟩
def FPRT_RING_P.RING : Field := ⟨.fprt, 0x054, 0, 1, 18, 16, .rwl, 0, 0, 1⟩
def FPRT_RING_P.NM1 : Field := ⟨.fprt, 0x054, 0, 1, 15, 8, .rwl, 0, 0, 1⟩
def FPRT_RING_P.POS : Field := ⟨.fprt, 0x054, 0, 1, 7, 0, .rwl, 0, 0, 1⟩
def FPRT_NBR_ID_LO.DEVNUM : Field := ⟨.fprt, 0x058, 0, 1, 31, 0, .ro, 0, 0, 1⟩
def FPRT_NBR_ID_HI.DEVNUM : Field := ⟨.fprt, 0x05C, 0, 1, 31, 0, .ro, 0, 0, 1⟩
def FPRT_NBR.VALID : Field := ⟨.fprt, 0x060, 0, 1, 31, 31, .ro, 0, 0, 1⟩
def FPRT_NBR.PORT : Field := ⟨.fprt, 0x060, 0, 1, 3, 0, .ro, 0, 0, 1⟩
def FPRT_NBR_RING_N.RING : Field := ⟨.fprt, 0x064, 0, 1, 31, 0, .ro, 0, 0, 1⟩
def FPRT_NBR_RING_P.RING : Field := ⟨.fprt, 0x068, 0, 1, 31, 0, .ro, 0, 0, 1⟩
def FPRT_FEC_C.COUNT : Field := ⟨.fprt, 0x080, 0, 1, 31, 0, .ro, 0, 0, 1⟩
def FPRT_FEC_U.COUNT : Field := ⟨.fprt, 0x084, 0, 1, 31, 0, .ro, 0, 0, 1⟩
def FPRT_REPLAY.COUNT : Field := ⟨.fprt, 0x088, 0, 1, 31, 0, .ro, 0, 0, 1⟩
def FPRT_DROP.COUNT : Field := ⟨.fprt, 0x08C, 0, 1, 31, 0, .ro, 0, 0, 1⟩
def FPRT_PKT_DROP.COUNT : Field := ⟨.fprt, 0x090, 0, 1, 31, 0, .ro, 0, 0, 1⟩
def FPRT_DOWN.COUNT : Field := ⟨.fprt, 0x094, 0, 1, 31, 0, .ro, 0, 0, 1⟩
def HPRT_CFG.HALF : Field := ⟨.hprt, 0x040, 0, 1, 8, 8, .rwl, 1, 0, 1⟩
def HPRT_CFG.VERS : Field := ⟨.hprt, 0x040, 0, 1, 1, 0, .rwl, 3, 0, 1⟩
def HPRT_CTRL.CLR : Field := ⟨.hprt, 0x044, 0, 1, 1, 1, .wo, 0, 0, 1⟩
def HPRT_CTRL.RETRAIN : Field := ⟨.hprt, 0x044, 0, 1, 0, 0, .wo, 0, 0, 1⟩
def HPRT_STAT.RETRAINS : Field := ⟨.hprt, 0x048, 0, 1, 31, 24, .ro, 0, 0, 1⟩
def HPRT_STAT.WIDTH : Field := ⟨.hprt, 0x048, 0, 1, 13, 12, .ro, 0, 0, 1⟩
def HPRT_STAT.VER : Field := ⟨.hprt, 0x048, 0, 1, 11, 8, .ro, 0, 0, 1⟩
def HPRT_STAT.NO_VER : Field := ⟨.hprt, 0x048, 0, 1, 4, 4, .ro, 0, 0, 1⟩
def HPRT_STAT.STATE : Field := ⟨.hprt, 0x048, 0, 1, 2, 0, .ro, 0, 0, 1⟩
def HPRT_PEER_LO.DEVNUM : Field := ⟨.hprt, 0x050, 0, 1, 31, 0, .ro, 0, 0, 1⟩
def HPRT_PEER_HI.DEVNUM : Field := ⟨.hprt, 0x054, 0, 1, 31, 0, .ro, 0, 0, 1⟩
def DMA_DONE.COUNT : Field := ⟨.dma, 0x054, 0, 1, 31, 0, .ro, 0, 0, 1⟩
def SUBW_CFG.PORT : Field := ⟨.subw, 0x040, 0, 1, 16, 16, .rw, 0, 0, 1⟩
def SUBW_CFG.CQLOC : Field := ⟨.subw, 0x040, 0, 1, 12, 12, .rw, 0, 0, 1⟩
def SUBW_CFG.CQSIZE : Field := ⟨.subw, 0x040, 0, 1, 11, 8, .rw, 4, 0, 1⟩
def SUBW_CFG.SIZE : Field := ⟨.subw, 0x040, 0, 1, 3, 0, .rw, 4, 0, 1⟩
def SUBW_BASE_LO.ADDR : Field := ⟨.subw, 0x044, 0, 1, 31, 6, .rw, 0, 0, 1⟩
def SUBW_BASE_HI.ADDR : Field := ⟨.subw, 0x048, 0, 1, 15, 0, .rw, 0, 0, 1⟩
def SUBW_CQ_LO.ADDR : Field := ⟨.subw, 0x04C, 0, 1, 31, 12, .rw, 0, 0, 1⟩
def SUBW_CQ_HI.ADDR : Field := ⟨.subw, 0x050, 0, 1, 31, 0, .rw, 0, 0, 1⟩
def SUBW_STAT.CFG_ERR : Field := ⟨.subw, 0x054, 0, 1, 31, 24, .ro, 0, 0, 1⟩
def SUBW_STAT.INFLIGHT : Field := ⟨.subw, 0x054, 0, 1, 15, 0, .ro, 0, 0, 1⟩
def SUBW_PTR.CONS : Field := ⟨.subw, 0x058, 0, 1, 31, 16, .ro, 0, 0, 1⟩
def SUBW_PTR.TAIL : Field := ⟨.subw, 0x058, 0, 1, 15, 0, .ro, 0, 0, 1⟩
def SUBW_CQ_HEAD.COUNT : Field := ⟨.subw, 0x05C, 0, 1, 15, 0, .rw, 0, 0, 1⟩
def SUBW_CQ_TAIL.PHASE : Field := ⟨.subw, 0x060, 0, 1, 16, 16, .ro, 1, 0, 1⟩
def SUBW_CQ_TAIL.COUNT : Field := ⟨.subw, 0x060, 0, 1, 15, 0, .ro, 0, 0, 1⟩
def DMA_CFG.PACE_SECT : Field := ⟨.dma, 0x040, 0, 1, 31, 16, .rw, 0, 0, 1⟩
def DMA_CFG.PACE_GAP : Field := ⟨.dma, 0x040, 0, 1, 15, 8, .rw, 0, 0, 1⟩
def DMA_CFG.PORT : Field := ⟨.dma, 0x040, 0, 1, 0, 0, .rw, 0, 0, 1⟩
def DMA_CTL.FLUSH : Field := ⟨.dma, 0x044, 0, 1, 1, 1, .wo, 0, 0, 1⟩
def DMA_CTL.RESUME : Field := ⟨.dma, 0x044, 0, 1, 0, 0, .wo, 0, 0, 1⟩
def DMA_STAT.LAST : Field := ⟨.dma, 0x048, 0, 1, 23, 16, .ro, 0, 0, 1⟩
def DMA_STAT.QUEUED : Field := ⟨.dma, 0x048, 0, 1, 13, 8, .ro, 0, 0, 1⟩
def DMA_STAT.BUSY : Field := ⟨.dma, 0x048, 0, 1, 1, 1, .ro, 0, 0, 1⟩
def DMA_STAT.HALT : Field := ⟨.dma, 0x048, 0, 1, 0, 0, .ro, 0, 0, 1⟩
def DMA_ERR_ADDR_LO.ADDR : Field := ⟨.dma, 0x04C, 0, 1, 31, 5, .ro, 0, 0, 1⟩
def DMA_ERR_ADDR_HI.ADDR : Field := ⟨.dma, 0x050, 0, 1, 15, 0, .ro, 0, 0, 1⟩
def TILE_ERR_STAT.FREASON : Field := ⟨.tile, 0x060, 0, 1, 7, 0, .ro, 0, 0, 1⟩
def TILE_ZERO_CNT.COUNT : Field := ⟨.tile, 0x064, 0, 1, 31, 0, .ro, 0, 0, 1⟩
def TILE_NOROPE_CNT.COUNT : Field := ⟨.tile, 0x068, 0, 1, 31, 0, .ro, 0, 0, 1⟩
def MGMT_LOG_LOST.COUNT : Field := ⟨.mgmt, 0x04C, 0, 1, 31, 0, .ro, 0, 0, 1⟩
def MGMT_RESTARTS.COUNT : Field := ⟨.mgmt, 0x058, 0, 1, 31, 0, .ro, 0, 0, 1⟩
def MGMT_TAINT_DROP.COUNT : Field := ⟨.mgmt, 0x05C, 0, 1, 31, 0, .ro, 0, 0, 1⟩
def TILE_ERR_CTL.CLR : Field := ⟨.tile, 0x06C, 0, 1, 1, 1, .wo, 0, 0, 1⟩
def TILE_ERR_CTL.FENCE : Field := ⟨.tile, 0x06C, 0, 1, 0, 0, .wo, 0, 0, 1⟩
def MGMT_LOG_CFG.NO_CE : Field := ⟨.mgmt, 0x040, 0, 1, 0, 0, .rw, 0, 0, 1⟩
def MGMT_LOG_HEAD.COUNT : Field := ⟨.mgmt, 0x044, 0, 1, 15, 0, .ro, 0, 0, 1⟩
def MGMT_LOG_TAIL.COUNT : Field := ⟨.mgmt, 0x048, 0, 1, 15, 0, .rw, 0, 0, 1⟩
def MGMT_LOG_SEL.COUNT : Field := ⟨.mgmt, 0x050, 0, 1, 15, 0, .rw, 0, 0, 1⟩
def MGMT_LOG_REC.WORD : Field := ⟨.mgmt, 0x080, 4, 8, 31, 0, .ro, 0, 0, 1⟩
def MGMT_RSTREQ.REQ : Field := ⟨.mgmt, 0x054, 0, 1, 31, 31, .ro, 0, 0, 1⟩
def MGMT_RSTREQ.CAUSE : Field := ⟨.mgmt, 0x054, 0, 1, 7, 0, .ro, 0, 0, 1⟩
def MGMT_CTRL.CLR_TAINT : Field := ⟨.mgmt, 0x060, 0, 1, 1, 1, .wo, 0, 0, 1⟩
def MGMT_CTRL.CLR_LOST : Field := ⟨.mgmt, 0x060, 0, 1, 0, 0, .wo, 0, 0, 1⟩
def PWR_WAKE_THR.THR : Field := ⟨.pwr, 0x040, 4, 10, 5, 0, .rw, 0x19, 0, 1⟩
def PWR_WAKE_STAT.TRIP : Field := ⟨.pwr, 0x068, 0, 1, 9, 0, .ro, 0, 0, 1⟩
def PWR_NMQ_STAT.Q : Field := ⟨.pwr, 0x070, 4, 3, 1, 0, .ro, 0, 2, 16⟩
def THRM_CFG.FALLBACK : Field := ⟨.thrm, 0x040, 0, 1, 11, 8, .rwl, 3, 0, 1⟩
def THRM_CFG.GUARD : Field := ⟨.thrm, 0x040, 0, 1, 3, 0, .rwl, 3, 0, 1⟩
def THRM_FLOW_CFG.K : Field := ⟨.thrm, 0x044, 0, 1, 15, 0, .rwl, 0xFA0, 0, 1⟩
def THRM_STAT.TRIP : Field := ⟨.thrm, 0x048, 0, 1, 15, 15, .ro, 0, 0, 1⟩
def THRM_STAT.MODEL : Field := ⟨.thrm, 0x048, 0, 1, 14, 14, .ro, 0, 0, 1⟩
def THRM_STAT.INLET_HIGH : Field := ⟨.thrm, 0x048, 0, 1, 13, 13, .ro, 0, 0, 1⟩
def THRM_STAT.FLOW_INV : Field := ⟨.thrm, 0x048, 0, 1, 12, 12, .ro, 0, 0, 1⟩
def THRM_STAT.COOL : Field := ⟨.thrm, 0x048, 0, 1, 2, 0, .ro, 0, 0, 1⟩
def THRM_FLOW.FLOW : Field := ⟨.thrm, 0x04C, 0, 1, 15, 0, .ro, 0, 0, 1⟩
def THRM_COOLANT.OUTLET : Field := ⟨.thrm, 0x050, 0, 1, 31, 16, .ro, 0, 0, 1⟩
def THRM_COOLANT.INLET : Field := ⟨.thrm, 0x050, 0, 1, 15, 0, .ro, 0, 0, 1⟩
def THRM_STOP_MS.MS : Field := ⟨.thrm, 0x054, 0, 1, 15, 0, .ro, 0, 0, 1⟩
def THRM_SEL.SENSOR : Field := ⟨.thrm, 0x058, 0, 1, 11, 0, .rw, 0, 0, 1⟩
def THRM_SENSOR.PRESENT : Field := ⟨.thrm, 0x05C, 0, 1, 31, 31, .ro, 0, 0, 1⟩
def THRM_SENSOR.FAULTY : Field := ⟨.thrm, 0x05C, 0, 1, 30, 30, .ro, 0, 0, 1⟩
def THRM_SENSOR.WHY : Field := ⟨.thrm, 0x05C, 0, 1, 29, 28, .ro, 0, 0, 1⟩
def THRM_SENSOR.TEMP : Field := ⟨.thrm, 0x05C, 0, 1, 15, 0, .ro, 0, 0, 1⟩
def THRM_CTRL.CLR_FAULT : Field := ⟨.thrm, 0x060, 0, 1, 0, 0, .wo, 0, 0, 1⟩
def THRM_FAULTS.COUNT : Field := ⟨.thrm, 0x064, 0, 1, 15, 0, .ro, 0, 0, 1⟩
def THRM_COL_DIE.FCAST : Field := ⟨.thrm, 0x080, 8, 12, 31, 16, .ro, 0, 0, 1⟩
def THRM_COL_DIE.NOW : Field := ⟨.thrm, 0x080, 8, 12, 15, 0, .ro, 0, 0, 1⟩
def THRM_COL_NM.FCAST : Field := ⟨.thrm, 0x084, 8, 12, 31, 16, .ro, 0, 0, 1⟩
def THRM_COL_NM.NOW : Field := ⟨.thrm, 0x084, 8, 12, 15, 0, .ro, 0, 0, 1⟩
def CLK_STAT.RX : Field := ⟨.clk, 0x040, 0, 1, 19, 16, .ro, 0, 0, 1⟩
def CLK_STAT.LOCK : Field := ⟨.clk, 0x040, 0, 1, 11, 8, .ro, 0, 0, 1⟩
def CLK_STAT.SNAP_VALID : Field := ⟨.clk, 0x040, 0, 1, 1, 1, .ro, 0, 0, 1⟩
def CLK_STAT.REF_OK : Field := ⟨.clk, 0x040, 0, 1, 0, 0, .ro, 0, 0, 1⟩
def CLK_REF_KHZ.KHZ : Field := ⟨.clk, 0x044, 0, 1, 19, 0, .ro, 0, 0, 1⟩
def CLK_CTRL.SNAP : Field := ⟨.clk, 0x048, 0, 1, 0, 0, .wo, 0, 0, 1⟩
def CLK_SNAP_LO.COUNT : Field := ⟨.clk, 0x050, 8, 4, 31, 0, .ro, 0, 0, 1⟩
def CLK_SNAP_HI.COUNT : Field := ⟨.clk, 0x054, 8, 4, 31, 0, .ro, 0, 0, 1⟩
def BOOT_STAT.READY : Field := ⟨.boot, 0x040, 0, 1, 31, 31, .ro, 0, 0, 1⟩
def BOOT_STAT.HOLD : Field := ⟨.boot, 0x040, 0, 1, 30, 30, .ro, 0, 0, 1⟩
def BOOT_STAT.HALT : Field := ⟨.boot, 0x040, 0, 1, 29, 29, .ro, 0, 0, 1⟩
def BOOT_STAT.TOL : Field := ⟨.boot, 0x040, 0, 1, 28, 28, .ro, 0, 0, 1⟩
def BOOT_STAT.ACCEPTED : Field := ⟨.boot, 0x040, 0, 1, 27, 27, .ro, 0, 0, 1⟩
def BOOT_STAT.LEVEL : Field := ⟨.boot, 0x040, 0, 1, 22, 20, .ro, 0, 0, 1⟩
def BOOT_STAT.CODE : Field := ⟨.boot, 0x040, 0, 1, 15, 8, .ro, 0, 0, 1⟩
def BOOT_STAT.STEP : Field := ⟨.boot, 0x040, 0, 1, 3, 0, .ro, 1, 0, 1⟩
def BOOT_CTRL.PKG_RESET : Field := ⟨.boot, 0x044, 0, 1, 2, 2, .wo, 0, 0, 1⟩
def BOOT_CTRL.RELOAD : Field := ⟨.boot, 0x044, 0, 1, 1, 1, .wo, 0, 0, 1⟩
def BOOT_CTRL.ACCEPT : Field := ⟨.boot, 0x044, 0, 1, 0, 0, .wo, 0, 0, 1⟩
def BOOT_RELOAD.BUSY : Field := ⟨.boot, 0x048, 0, 1, 31, 31, .ro, 0, 0, 1⟩
def BOOT_RELOAD.RESULT : Field := ⟨.boot, 0x048, 0, 1, 23, 16, .ro, 0, 0, 1⟩
def BOOT_RELOAD.DIES : Field := ⟨.boot, 0x048, 0, 1, 11, 0, .rw, 0, 0, 1⟩
def BOOT_RST.COUNT : Field := ⟨.boot, 0x04C, 0, 1, 31, 16, .ro, 0, 0, 1⟩
def BOOT_RST.PREV_REQ : Field := ⟨.boot, 0x04C, 0, 1, 15, 8, .ro, 0, 0, 1⟩
def BOOT_RST.LAST : Field := ⟨.boot, 0x04C, 0, 1, 2, 0, .ro, 1, 0, 1⟩
def BOOT_TIME.US : Field := ⟨.boot, 0x050, 4, 9, 31, 0, .ro, 0, 0, 1⟩
def BOOT_SVC.STACKS : Field := ⟨.boot, 0x080, 0, 1, 31, 24, .ro, 0, 0, 1⟩
def BOOT_SVC.CDIES : Field := ⟨.boot, 0x080, 0, 1, 23, 12, .ro, 0, 0, 1⟩
def BOOT_SVC.SEAMS : Field := ⟨.boot, 0x080, 0, 1, 11, 8, .ro, 0, 0, 1⟩
def BOOT_SVC.BASES : Field := ⟨.boot, 0x080, 0, 1, 3, 0, .ro, 0, 0, 1⟩
def BOOT_PORTS.HOST : Field := ⟨.boot, 0x084, 0, 1, 17, 16, .ro, 0, 0, 1⟩
def BOOT_PORTS.FABRIC : Field := ⟨.boot, 0x084, 0, 1, 11, 0, .ro, 0, 0, 1⟩
def BOOT_MISMATCH.OUT : Field := ⟨.boot, 0x088, 0, 1, 20, 16, .ro, 0, 0, 1⟩
def BOOT_MISMATCH.DEV : Field := ⟨.boot, 0x088, 0, 1, 4, 0, .ro, 0, 0, 1⟩
def BOOT_FW.PASSES : Field := ⟨.boot, 0x08C, 0, 1, 31, 28, .ro, 0, 0, 1⟩
def BOOT_FW.UNICAST : Field := ⟨.boot, 0x08C, 0, 1, 21, 11, .ro, 0, 0, 1⟩
def BOOT_FW.FENCED : Field := ⟨.boot, 0x08C, 0, 1, 10, 0, .ro, 0, 0, 1⟩
def TILE_BOOT_STAT.DONE : Field := ⟨.tile, 0x070, 0, 1, 31, 31, .ro, 0, 0, 1⟩
def TILE_BOOT_STAT.RCVD : Field := ⟨.tile, 0x070, 0, 1, 6, 0, .ro, 0, 0, 1⟩
def TILE_BOOT_MISS_LO.MISS : Field := ⟨.tile, 0x078, 0, 1, 31, 0, .ro, 0xFFFFFFFF, 0, 1⟩
def TILE_BOOT_MISS_HI.MISS : Field := ⟨.tile, 0x07C, 0, 1, 31, 0, .ro, 0xFFFFFFFF, 0, 1⟩
def FLSH_STAT.WHY_B : Field := ⟨.flsh, 0x040, 0, 1, 11, 8, .ro, 6, 0, 1⟩
def FLSH_STAT.WHY_A : Field := ⟨.flsh, 0x040, 0, 1, 7, 4, .ro, 6, 0, 1⟩
def FLSH_STAT.ACTIVE : Field := ⟨.flsh, 0x040, 0, 1, 0, 0, .ro, 0, 0, 1⟩
def FLSH_SEQ_A.VALUE : Field := ⟨.flsh, 0x044, 0, 1, 31, 0, .ro, 0, 0, 1⟩
def FLSH_SEQ_B.VALUE : Field := ⟨.flsh, 0x048, 0, 1, 31, 0, .ro, 0, 0, 1⟩
def FLSH_SIZE.VALUE : Field := ⟨.flsh, 0x04C, 0, 1, 31, 0, .ro, 0, 0, 1⟩
def FLSH_CMD.READ : Field := ⟨.flsh, 0x050, 0, 1, 3, 3, .wo, 0, 0, 1⟩
def FLSH_CMD.CHECK : Field := ⟨.flsh, 0x050, 0, 1, 2, 2, .wo, 0, 0, 1⟩
def FLSH_CMD.PROGRAM : Field := ⟨.flsh, 0x050, 0, 1, 1, 1, .wo, 0, 0, 1⟩
def FLSH_CMD.ERASE : Field := ⟨.flsh, 0x050, 0, 1, 0, 0, .wo, 0, 0, 1⟩
def FLSH_CSTAT.BUSY : Field := ⟨.flsh, 0x054, 0, 1, 31, 31, .ro, 0, 0, 1⟩
def FLSH_CSTAT.LAST : Field := ⟨.flsh, 0x054, 0, 1, 7, 0, .ro, 0, 0, 1⟩
def FLSH_SRC_LO.ADDR : Field := ⟨.flsh, 0x058, 0, 1, 31, 5, .rw, 0, 0, 1⟩
def FLSH_SRC_HI.ADDR : Field := ⟨.flsh, 0x05C, 0, 1, 15, 0, .rw, 0, 0, 1⟩
def FLSH_OFF.BYTES : Field := ⟨.flsh, 0x060, 0, 1, 27, 0, .rw, 0, 0, 1⟩
def FLSH_LEN.BYTES : Field := ⟨.flsh, 0x064, 0, 1, 27, 0, .rw, 0, 0, 1⟩
def FLSH_BUF.DATA : Field := ⟨.flsh, 0x400, 4, 256, 31, 0, .rw, 0, 0, 1⟩
def IDNT_DEVNUM_LO.DEVNUM : Field := ⟨.idnt, 0x040, 0, 1, 31, 0, .ro, 0, 0, 1⟩
def IDNT_DEVNUM_HI.DEVNUM : Field := ⟨.idnt, 0x044, 0, 1, 31, 0, .ro, 0, 0, 1⟩
def IDNT_FEATURES.VALID : Field := ⟨.idnt, 0x048, 0, 1, 20, 16, .ro, 0, 0, 1⟩
def IDNT_FEATURES.FEAT : Field := ⟨.idnt, 0x048, 0, 1, 4, 0, .ro, 0, 0, 1⟩
def IDNT_SIG.BLOCKS : Field := ⟨.idnt, 0x04C, 0, 1, 26, 16, .ro, 0, 0, 1⟩
def IDNT_SIG.IN_BLOCK : Field := ⟨.idnt, 0x04C, 0, 1, 10, 0, .ro, 0, 0, 1⟩
def IDNT_ATT_CTRL.GO : Field := ⟨.idnt, 0x050, 0, 1, 0, 0, .wo, 0, 0, 1⟩
def IDNT_ATT_STAT.BUSY : Field := ⟨.idnt, 0x054, 0, 1, 31, 31, .ro, 0, 0, 1⟩
def IDNT_ATT_STAT.LAST : Field := ⟨.idnt, 0x054, 0, 1, 7, 0, .ro, 0, 0, 1⟩
def IDNT_ATT_ADDR_LO.ADDR : Field := ⟨.idnt, 0x058, 0, 1, 31, 5, .rw, 0, 0, 1⟩
def IDNT_ATT_ADDR_HI.ADDR : Field := ⟨.idnt, 0x05C, 0, 1, 15, 0, .rw, 0, 0, 1⟩
def IDNT_NONCE.BYTES : Field := ⟨.idnt, 0x060, 4, 8, 31, 0, .rw, 0, 0, 1⟩
def IDNT_PUBKEY.BYTES : Field := ⟨.idnt, 0x080, 4, 16, 31, 0, .ro, 0, 0, 1⟩
def BDIE_PMB_CTRL.GO : Field := ⟨.bdie, 0x040, 0, 1, 31, 31, .wo, 0, 0, 1⟩
def BDIE_PMB_CTRL.PEC : Field := ⟨.bdie, 0x040, 0, 1, 19, 19, .rw, 1, 0, 1⟩
def BDIE_PMB_CTRL.KIND : Field := ⟨.bdie, 0x040, 0, 1, 18, 16, .rw, 0, 0, 1⟩
def BDIE_PMB_CTRL.CODE : Field := ⟨.bdie, 0x040, 0, 1, 15, 8, .rw, 0, 0, 1⟩
def BDIE_PMB_CTRL.ADDR : Field := ⟨.bdie, 0x040, 0, 1, 6, 0, .rw, 0, 0, 1⟩
def BDIE_PMB_DATA.DATA : Field := ⟨.bdie, 0x044, 0, 1, 15, 0, .rw, 0, 0, 1⟩
def BDIE_PMB_STAT.BUSY : Field := ⟨.bdie, 0x048, 0, 1, 31, 31, .ro, 0, 0, 1⟩
def BDIE_PMB_STAT.LAST : Field := ⟨.bdie, 0x048, 0, 1, 7, 0, .ro, 0, 0, 1⟩
def ROPE_PROMOTED.COUNT : Field := ⟨.rope, 0x1C0, 0, 1, 31, 0, .ro, 0, 0, 1⟩
def ROPE_DEMOTED.COUNT : Field := ⟨.rope, 0x1C4, 0, 1, 31, 0, .ro, 0, 0, 1⟩
def ROPE_COW.COUNT : Field := ⟨.rope, 0x1C8, 0, 1, 31, 0, .ro, 0, 0, 1⟩
def ROPE_COW_MOVER.COUNT : Field := ⟨.rope, 0x1CC, 0, 1, 31, 0, .ro, 0, 0, 1⟩
def ROPE_ZEROED.COUNT : Field := ⟨.rope, 0x1D0, 0, 1, 31, 0, .ro, 0, 0, 1⟩
def ROPE_NOFRAME.COUNT : Field := ⟨.rope, 0x1D4, 0, 1, 31, 0, .ro, 0, 0, 1⟩
def ROPE_OPEN_CNT.COUNT : Field := ⟨.rope, 0x1D8, 0, 1, 31, 0, .ro, 0, 0, 1⟩
def CAIRN_LOOKUPS.COUNT : Field := ⟨.cairn, 0x080, 0, 1, 31, 0, .ro, 0, 0, 1⟩
def CAIRN_HITS.COUNT : Field := ⟨.cairn, 0x084, 0, 1, 31, 0, .ro, 0, 0, 1⟩
def CAIRN_VFAIL.COUNT : Field := ⟨.cairn, 0x088, 0, 1, 31, 0, .ro, 0, 0, 1⟩
def CAIRN_REG.COUNT : Field := ⟨.cairn, 0x08C, 0, 1, 31, 0, .ro, 0, 0, 1⟩
def CAIRN_SKIP.COUNT : Field := ⟨.cairn, 0x090, 0, 1, 31, 0, .ro, 0, 0, 1⟩
def CAIRN_EVICT.COUNT : Field := ⟨.cairn, 0x094, 0, 1, 31, 0, .ro, 0, 0, 1⟩
def CAIRN_LOST.COUNT : Field := ⟨.cairn, 0x098, 0, 1, 31, 0, .ro, 0, 0, 1⟩
def HPRT_FEC_C.COUNT : Field := ⟨.hprt, 0x080, 0, 1, 31, 0, .ro, 0, 0, 1⟩
def HPRT_FEC_U.COUNT : Field := ⟨.hprt, 0x084, 0, 1, 31, 0, .ro, 0, 0, 1⟩
def HPRT_REPLAY.COUNT : Field := ⟨.hprt, 0x088, 0, 1, 31, 0, .ro, 0, 0, 1⟩
def HPRT_DROP.COUNT : Field := ⟨.hprt, 0x08C, 0, 1, 31, 0, .ro, 0, 0, 1⟩
def HPRT_REFUSED.COUNT : Field := ⟨.hprt, 0x090, 0, 1, 31, 0, .ro, 0, 0, 1⟩
def HPRT_LOST.COUNT : Field := ⟨.hprt, 0x094, 0, 1, 31, 0, .ro, 0, 0, 1⟩
def HBRG_ACCEPTED.COUNT : Field := ⟨.hbrg, 0x040, 0, 1, 31, 0, .ro, 0, 0, 1⟩
def HBRG_WIN_BUSY.COUNT : Field := ⟨.hbrg, 0x044, 0, 1, 31, 0, .ro, 0, 0, 1⟩
def HBRG_CPL_DROP.COUNT : Field := ⟨.hbrg, 0x048, 0, 1, 31, 0, .ro, 0, 0, 1⟩
def PWR_SUMT_STAT.R : Field := ⟨.pwr, 0x080, 4, 2, 1, 0, .ro, 0, 2, 16⟩

/-- The fields of TMAP pages. -/
def fieldsTmap : List Field :=
  [TMAP_SUMMARY.SPARE, TMAP_SUMMARY.FUSED_OFF, TMAP_SUMMARY.FENCED, TMAP_SUMMARY.ENABLED, TMAP_PHYS.NM_FAIL,
      TMAP_PHYS.STATE, TMAP_PHYS.LOGICAL, TMAP_LOG.VALID, TMAP_LOG.PHYS]

/-- The fields of the page header. -/
def fieldsHdr : List Field :=
  [PAGE_ID.TYPE, PAGE_ID.INSTANCE, PAGE_VER.MAJOR, PAGE_VER.MINOR, PAGE_CAPS.LOCKABLE, PAGE_CAPS.PWR,
      PAGE_CAPS.LATTOL, PAGE_CAPS.LIC_OFF, PAGE_CAPS.BLOCK, PAGE_CTRL.LOCK, PAGE_CTRL.SRST, PAGE_CTRL.EN] ++
    [PAGE_STAT.BLOCK, PAGE_STAT.LOCK_HIT, PAGE_STAT.SRST_BUSY, PAGE_STAT.ERR_PENDING, PAGE_STAT.DEGRADED,
      PAGE_STAT.FENCED, PAGE_STAT.READY, PAGE_ERR_CNT_C.COUNT, PAGE_ERR_CNT_U.COUNT, PAGE_ERR_FIRST.VALID,
      PAGE_ERR_FIRST.CODE, PAGE_ERR_FIRST.SYNDROME] ++
    [PAGE_ERR_NEXT.COUNT, PAGE_ERR_ACK.CLR_U, PAGE_ERR_ACK.CLR_C, PAGE_ERR_ACK.FIRST, PAGE_PWR.STATE, PAGE_PWR.REQ,
      PAGE_LATTOL.TOL_NS]

/-- The fields of TILE pages. -/
def fieldsTile : List Field :=
  [TILE_ARR_CFG.IDLE, TILE_ARR_CFG.RAMP, TILE_ARR_STAT.STATE, TILE_ARR_STAT.GROUPS, TILE_CTL.HALT, TILE_CTL.START,
      TILE_ENTRY.ADDR, TILE_ENTRY.BMODE, TILE_STAT.CAUSE, TILE_STAT.RUN, TILE_PC.PC, TILE_ERR_STAT.FREASON] ++
    [TILE_ZERO_CNT.COUNT, TILE_NOROPE_CNT.COUNT, TILE_ERR_CTL.CLR, TILE_ERR_CTL.FENCE, TILE_BOOT_STAT.DONE,
      TILE_BOOT_STAT.RCVD, TILE_BOOT_MISS_LO.MISS, TILE_BOOT_MISS_HI.MISS]

/-- The fields of ARB pages. -/
def fieldsArb : List Field :=
  [ARB_PRIO_A.CAIRN, ARB_PRIO_A.MGMT, ARB_PRIO_A.H1, ARB_PRIO_A.H0, ARB_PRIO_DMA.CH, ARB_OBS_SEL.REQ, ARB_OBS_SEL.RES,
      ARB_OBS_RES.HELD, ARB_OBS_RES.HOLDER, ARB_OBS_RES.HOLD_LEN, ARB_OBS_REQ.PENDING, ARB_OBS_REQ.LOSSES] ++
    [ARB_OBS_REQ.BACKOFF, ARB_OBS_CAL.MAX_GAP, ARB_OBS_CAL.OPEN_CNT, ARB_HOLD_WARN.LIMIT, ARB_CAL_ADDR_LO.ADDR,
      ARB_CAL_ADDR_HI.ADDR, ARB_CAL_CTRL.SWITCH, ARB_CAL_CTRL.LOAD, ARB_CAL_STAT.ERR, ARB_CAL_STAT.BUSY,
      ARB_CAL_STAT.STAGED, ARB_CAL_GEN.STAGED] ++
    [ARB_CAL_GEN.ACTIVE]

/-- The fields of CDIE pages. -/
def fieldsCdie : List Field :=
  [CDIE_THROT_CFG.MIN_STRIDE, CDIE_THROT_STAT.CAUSE, CDIE_THROT_STAT.DEV_STRIDE, CDIE_THROT_STAT.STRIDE,
      CDIE_PRST_CTRL.RELEASE, CDIE_PRST_CTRL.REQ, CDIE_PRST_STAT.COUNT, CDIE_PRST_STAT.STATE, CDIE_DD_CNT.COUNT]

/-- The fields of NMEM pages. -/
def fieldsNmem : List Field :=
  [NMEM_CFG.SCRUB_INT, NMEM_CFG.REFR_X2, NMEM_CTRL.CLR_LATE, NMEM_CTRL.CLR_SCRUB, NMEM_REFR_STAT.NO_MODEL,
      NMEM_REFR_STAT.HOT, NMEM_REFR_STAT.X2, NMEM_REFR_LATE.COUNT, NMEM_SCRUB_STAT.PASSES, NMEM_SCRUB_STAT.ROW,
      NMEM_SCRUB_C.COUNT, NMEM_SCRUB_U.COUNT] ++
    [NMEM_SCRUB_P.COUNT, NMEM_ERR_ADDR_LO.ADDR, NMEM_ERR_ADDR_HI.SRC, NMEM_ERR_ADDR_HI.ADDR, NMEM_RE_STAT.BUSY,
      NMEM_RE_STAT.QUEUED, NMEM_RE_STAT.LAST, NMEM_RE_DONE.COUNT, NMEM_RE_POIS.COUNT]

/-- The fields of EMC pages. -/
def fieldsEmc : List Field :=
  [EMC_CFG.SWIN_ALLOC, EMC_CFG.SWIN_EN, EMC_SWIN.SIZE, EMC_SWIN.BASE, EMC_OBS_WAIT.CH, EMC_OBS_WAIT.W,
      EMC_ERR_ADDR_LO.ADDR, EMC_ERR_ADDR_HI.SRC, EMC_ERR_ADDR_HI.ADDR]

/-- The fields of ESTK pages. -/
def fieldsEstk : List Field :=
  [ESTK_STAT.TEMP, ESTK_STAT.X2, ESTK_STAT.FAIL_CH, ESTK_STAT.INIT]

/-- The fields of EROW pages. -/
def fieldsErow : List Field :=
  [EROW_DONE.COUNT, EROW_POIS.COUNT, EROW_STAT.BUSY, EROW_STAT.QUEUED, EROW_STAT.LAST]

/-- The fields of SUMT pages. -/
def fieldsSumt : List Field :=
  [SUMT_REG.BUSY, SUMT_REG.STACK, SUMT_REG.MODE, SUMT_HIT.COUNT, SUMT_MISS.COUNT, SUMT_OVF.COUNT]

/-- The fields of ECHK pages. -/
def fieldsEchk : List Field :=
  [ECHK_CTRL.STOP, ECHK_CTRL.START, ECHK_CFG.SEED, ECHK_CFG.RAND, ECHK_CFG.RAW, ECHK_CFG.PATH, ECHK_CFG.OP,
      ECHK_CFG.PATTERN, ECHK_RANGE.ROWS, ECHK_RANGE.FIRST, ECHK_COUNT.COUNT, ECHK_MIS_SECT.COUNT] ++
    [ECHK_MIS_BITS.COUNT, ECHK_CYCLES.COUNT, ECHK_STAT.ABORT, ECHK_STAT.DONE, ECHK_STAT.RUN, ECHK_FIRST.VALID,
      ECHK_FIRST.SECT, ECHK_PAT.BYTES]

/-- The fields of CNET pages. -/
def fieldsCnet : List Field :=
  [CNET_REPLAY.COUNT, CNET_HDR_DROP.COUNT, CNET_DROP_DOWN.DOWN, CNET_SPARES.USED]

/-- The fields of SEAM pages. -/
def fieldsSeam : List Field :=
  [SEAM_REPLAY.COUNT, SEAM_CTRL.RETRAIN, SEAM_LINK.RETRAINS, SEAM_LINK.SPARES, SEAM_LINK.P1, SEAM_LINK.P0,
      SEAM_LINK.ATTEMPTS, SEAM_LINK.WIDTH, SEAM_LINK.STATE]

/-- The fields of BNET pages. -/
def fieldsBnet : List Field :=
  [BNET_HDR_DROP.COUNT, BNET_STALL_DROP.COUNT, BNET_RED_DONE.COUNT, BNET_RT_STAT.DETOUR, BNET_RT_STAT.GEN,
      BNET_RG_ADDR_LO.ADDR, BNET_RG_ADDR_HI.ADDR, BNET_RG_CTRL.LOAD, BNET_RG_STAT.ERR, BNET_RG_STAT.BUSY,
      BNET_RG_STAT.VALID, BNET_RED_TMO.US] ++
    [BNET_RED_FAIL_LO.FAILED, BNET_RED_FAIL_HI.FAILED]

/-- The fields of ROPE pages. -/
def fieldsRope : List Field :=
  [ROPE_CFG.ON, ROPE_CFG.FREEZE, ROPE_CFG.FRAME_ROWS, ROPE_STAT.CFG_ERR, ROPE_STAT.LAY_ERR, ROPE_STAT.ACTIVE,
      ROPE_META_LO.ADDR, ROPE_META_HI.ADDR, ROPE_META_LEN.MIB, ROPE_NPOOL_OFF.ROWS, ROPE_NPOOL_ROWS.ROWS,
      ROPE_EPOOL.LEN] ++
    [ROPE_EPOOL.OFF, ROPE_MOVE_MAX.PAGES, ROPE_EPOCH.COUNT, ROPE_NFREE.COUNT, ROPE_EFREE.COUNT, ROPE_SEL.ROPE,
      ROPE_ENT.WORD, ROPE_THR.T_DOWN, ROPE_THR.T_UP, ROPE_LAY_TAG.TAG, ROPE_LAY_CFG.VALID, ROPE_LAY_CFG.FMT] ++
    [ROPE_LAY_CFG.DIES, ROPE_LAY_CFG.HPG, ROPE_LAY_CFG.HEADS, ROPE_LAY_CFG.LAYERS, ROPE_PROMOTED.COUNT,
      ROPE_DEMOTED.COUNT, ROPE_COW.COUNT, ROPE_COW_MOVER.COUNT, ROPE_ZEROED.COUNT, ROPE_NOFRAME.COUNT,
      ROPE_OPEN_CNT.COUNT]

/-- The fields of CAIRN pages. -/
def fieldsCairn : List Field :=
  [CAIRN_CFG.ON, CAIRN_CFG.SIZE, CAIRN_CFG.VERIFY, CAIRN_STAT.CFG_ERR, CAIRN_STAT.SWEEP, CAIRN_STAT.ACTIVE,
      CAIRN_BASE_LO.ADDR, CAIRN_BASE_HI.ADDR, CAIRN_CAP.PAGES, CAIRN_CURSOR.NEXT, CAIRN_ENTRIES.COUNT,
      CAIRN_PAGES.COUNT] ++
    [CAIRN_PINNED.COUNT, CAIRN_LOOKUPS.COUNT, CAIRN_HITS.COUNT, CAIRN_VFAIL.COUNT, CAIRN_REG.COUNT, CAIRN_SKIP.COUNT,
      CAIRN_EVICT.COUNT, CAIRN_LOST.COUNT]

/-- The fields of FPRT pages. -/
def fieldsFprt : List Field :=
  [FPRT_CFG.VERS, FPRT_CTRL.CLR, FPRT_CTRL.RETRAIN, FPRT_STAT.RETRAINS, FPRT_STAT.R_OK_P, FPRT_STAT.R_OK_N,
      FPRT_STAT.VER, FPRT_STAT.NO_VER, FPRT_STAT.STATE, FPRT_RING_N.VALID, FPRT_RING_N.RING, FPRT_RING_N.NM1] ++
    [FPRT_RING_N.POS, FPRT_RING_P.VALID, FPRT_RING_P.RING, FPRT_RING_P.NM1, FPRT_RING_P.POS, FPRT_NBR_ID_LO.DEVNUM,
      FPRT_NBR_ID_HI.DEVNUM, FPRT_NBR.VALID, FPRT_NBR.PORT, FPRT_NBR_RING_N.RING, FPRT_NBR_RING_P.RING,
      FPRT_FEC_C.COUNT] ++
    [FPRT_FEC_U.COUNT, FPRT_REPLAY.COUNT, FPRT_DROP.COUNT, FPRT_PKT_DROP.COUNT, FPRT_DOWN.COUNT]

/-- The fields of HPRT pages. -/
def fieldsHprt : List Field :=
  [HPRT_CFG.HALF, HPRT_CFG.VERS, HPRT_CTRL.CLR, HPRT_CTRL.RETRAIN, HPRT_STAT.RETRAINS, HPRT_STAT.WIDTH, HPRT_STAT.VER,
      HPRT_STAT.NO_VER, HPRT_STAT.STATE, HPRT_PEER_LO.DEVNUM, HPRT_PEER_HI.DEVNUM, HPRT_FEC_C.COUNT] ++
    [HPRT_FEC_U.COUNT, HPRT_REPLAY.COUNT, HPRT_DROP.COUNT, HPRT_REFUSED.COUNT, HPRT_LOST.COUNT]

/-- The fields of DMA pages. -/
def fieldsDma : List Field :=
  [DMA_DONE.COUNT, DMA_CFG.PACE_SECT, DMA_CFG.PACE_GAP, DMA_CFG.PORT, DMA_CTL.FLUSH, DMA_CTL.RESUME, DMA_STAT.LAST,
      DMA_STAT.QUEUED, DMA_STAT.BUSY, DMA_STAT.HALT, DMA_ERR_ADDR_LO.ADDR, DMA_ERR_ADDR_HI.ADDR]

/-- The fields of SUBW pages. -/
def fieldsSubw : List Field :=
  [SUBW_CFG.PORT, SUBW_CFG.CQLOC, SUBW_CFG.CQSIZE, SUBW_CFG.SIZE, SUBW_BASE_LO.ADDR, SUBW_BASE_HI.ADDR,
      SUBW_CQ_LO.ADDR, SUBW_CQ_HI.ADDR, SUBW_STAT.CFG_ERR, SUBW_STAT.INFLIGHT, SUBW_PTR.CONS, SUBW_PTR.TAIL] ++
    [SUBW_CQ_HEAD.COUNT, SUBW_CQ_TAIL.PHASE, SUBW_CQ_TAIL.COUNT]

/-- The fields of MGMT pages. -/
def fieldsMgmt : List Field :=
  [MGMT_LOG_LOST.COUNT, MGMT_RESTARTS.COUNT, MGMT_TAINT_DROP.COUNT, MGMT_LOG_CFG.NO_CE, MGMT_LOG_HEAD.COUNT,
      MGMT_LOG_TAIL.COUNT, MGMT_LOG_SEL.COUNT, MGMT_LOG_REC.WORD, MGMT_RSTREQ.REQ, MGMT_RSTREQ.CAUSE,
      MGMT_CTRL.CLR_TAINT, MGMT_CTRL.CLR_LOST]

/-- The fields of PWR pages. -/
def fieldsPwr : List Field :=
  [PWR_WAKE_THR.THR, PWR_WAKE_STAT.TRIP, PWR_NMQ_STAT.Q, PWR_SUMT_STAT.R]

/-- The fields of THRM pages. -/
def fieldsThrm : List Field :=
  [THRM_CFG.FALLBACK, THRM_CFG.GUARD, THRM_FLOW_CFG.K, THRM_STAT.TRIP, THRM_STAT.MODEL, THRM_STAT.INLET_HIGH,
      THRM_STAT.FLOW_INV, THRM_STAT.COOL, THRM_FLOW.FLOW, THRM_COOLANT.OUTLET, THRM_COOLANT.INLET, THRM_STOP_MS.MS] ++
    [THRM_SEL.SENSOR, THRM_SENSOR.PRESENT, THRM_SENSOR.FAULTY, THRM_SENSOR.WHY, THRM_SENSOR.TEMP, THRM_CTRL.CLR_FAULT,
      THRM_FAULTS.COUNT, THRM_COL_DIE.FCAST, THRM_COL_DIE.NOW, THRM_COL_NM.FCAST, THRM_COL_NM.NOW]

/-- The fields of CLK pages. -/
def fieldsClk : List Field :=
  [CLK_STAT.RX, CLK_STAT.LOCK, CLK_STAT.SNAP_VALID, CLK_STAT.REF_OK, CLK_REF_KHZ.KHZ, CLK_CTRL.SNAP,
      CLK_SNAP_LO.COUNT, CLK_SNAP_HI.COUNT]

/-- The fields of BOOT pages. -/
def fieldsBoot : List Field :=
  [BOOT_STAT.READY, BOOT_STAT.HOLD, BOOT_STAT.HALT, BOOT_STAT.TOL, BOOT_STAT.ACCEPTED, BOOT_STAT.LEVEL,
      BOOT_STAT.CODE, BOOT_STAT.STEP, BOOT_CTRL.PKG_RESET, BOOT_CTRL.RELOAD, BOOT_CTRL.ACCEPT, BOOT_RELOAD.BUSY] ++
    [BOOT_RELOAD.RESULT, BOOT_RELOAD.DIES, BOOT_RST.COUNT, BOOT_RST.PREV_REQ, BOOT_RST.LAST, BOOT_TIME.US,
      BOOT_SVC.STACKS, BOOT_SVC.CDIES, BOOT_SVC.SEAMS, BOOT_SVC.BASES, BOOT_PORTS.HOST, BOOT_PORTS.FABRIC] ++
    [BOOT_MISMATCH.OUT, BOOT_MISMATCH.DEV, BOOT_FW.PASSES, BOOT_FW.UNICAST, BOOT_FW.FENCED]

/-- The fields of FLSH pages. -/
def fieldsFlsh : List Field :=
  [FLSH_STAT.WHY_B, FLSH_STAT.WHY_A, FLSH_STAT.ACTIVE, FLSH_SEQ_A.VALUE, FLSH_SEQ_B.VALUE, FLSH_SIZE.VALUE,
      FLSH_CMD.READ, FLSH_CMD.CHECK, FLSH_CMD.PROGRAM, FLSH_CMD.ERASE, FLSH_CSTAT.BUSY, FLSH_CSTAT.LAST] ++
    [FLSH_SRC_LO.ADDR, FLSH_SRC_HI.ADDR, FLSH_OFF.BYTES, FLSH_LEN.BYTES, FLSH_BUF.DATA]

/-- The fields of IDNT pages. -/
def fieldsIdnt : List Field :=
  [IDNT_DEVNUM_LO.DEVNUM, IDNT_DEVNUM_HI.DEVNUM, IDNT_FEATURES.VALID, IDNT_FEATURES.FEAT, IDNT_SIG.BLOCKS,
      IDNT_SIG.IN_BLOCK, IDNT_ATT_CTRL.GO, IDNT_ATT_STAT.BUSY, IDNT_ATT_STAT.LAST, IDNT_ATT_ADDR_LO.ADDR,
      IDNT_ATT_ADDR_HI.ADDR, IDNT_NONCE.BYTES] ++
    [IDNT_PUBKEY.BYTES]

/-- The fields of BDIE pages. -/
def fieldsBdie : List Field :=
  [BDIE_PMB_CTRL.GO, BDIE_PMB_CTRL.PEC, BDIE_PMB_CTRL.KIND, BDIE_PMB_CTRL.CODE, BDIE_PMB_CTRL.ADDR,
      BDIE_PMB_DATA.DATA, BDIE_PMB_STAT.BUSY, BDIE_PMB_STAT.LAST]

/-- The fields of HBRG pages. -/
def fieldsHbrg : List Field :=
  [HBRG_ACCEPTED.COUNT, HBRG_WIN_BUSY.COUNT, HBRG_CPL_DROP.COUNT]

/-- The block-specific fields of a page type. -/
def fieldsOf : PType → List Field
  | .hdr => fieldsHdr
  | .bdie => fieldsBdie
  | .clk => fieldsClk
  | .pwr => fieldsPwr
  | .bnet => fieldsBnet
  | .arb => fieldsArb
  | .sumt => fieldsSumt
  | .emc => fieldsEmc
  | .echk => fieldsEchk
  | .fprt => fieldsFprt
  | .hprt => fieldsHprt
  | .boot => fieldsBoot
  | .mgmt => fieldsMgmt
  | .thrm => fieldsThrm
  | .flsh => fieldsFlsh
  | .idnt => fieldsIdnt
  | .hbrg => fieldsHbrg
  | .subw => fieldsSubw
  | .dma => fieldsDma
  | .rope => fieldsRope
  | .cairn => fieldsCairn
  | .seam => fieldsSeam
  | .cdie => fieldsCdie
  | .tmap => fieldsTmap
  | .nmem => fieldsNmem
  | .cnet => fieldsCnet
  | .tile => fieldsTile
  | .estk => fieldsEstk
  | .erow => fieldsErow

/-- The page type and instance number at a die slot and page index (02 R49); none where no page is listed. -/
def pageAt (p : PageRef) : Option (PType × Nat) :=
  let sl := p.slot.toNat
  let i := p.page.toNat
  if sl < 4 then
    if i = 0x000 then some (.bdie, sl)
    else if i = 0x001 then some (.clk, sl)
    else if i = 0x002 then some (.pwr, sl)
    else if i = 0x008 then some (.bnet, sl)
    else if i = 0x009 then some (.arb, sl)
    else if i = 0x010 then some (.sumt, sl)
    else if 0x020 ≤ i ∧ i < 0x022 then some (.emc, 2 * sl + (i - 0x020))
    else if 0x040 ≤ i ∧ i < 0x080 then some (.echk, 64 * sl + (i - 0x040))
    else if 0x080 ≤ i ∧ i < 0x083 then some (.fprt, 3 * sl + (i - 0x080))
    else if i = 0x088 ∧ sl = 0 then some (.hprt, 0)
    else if i = 0x088 ∧ sl = 3 then some (.hprt, 1)
    else if sl ≠ 0 then none
    else if i = 0x0B0 then some (.boot, 0)
    else if i = 0x0B1 then some (.mgmt, 0)
    else if i = 0x0B2 then some (.thrm, 0)
    else if i = 0x0B3 then some (.flsh, 0)
    else if i = 0x0B4 then some (.idnt, 0)
    else if i = 0x0C0 then some (.hbrg, 0)
    else if 0x100 ≤ i ∧ i < 0x140 then some (.subw, i - 0x100)
    else if 0x140 ≤ i ∧ i < 0x160 then some (.dma, i - 0x140)
    else if i = 0x0D0 then some (.rope, 0)
    else if i = 0x0D1 then some (.cairn, 0)
    else none
  else if 0x08 ≤ sl ∧ sl < 0x0C then
    if i = 0 then some (.seam, sl - 0x08) else none
  else if 0x10 ≤ sl ∧ sl < 0x1C then
    let n := sl - 0x10
    if i = 0x000 then some (.cdie, n)
    else if i = 0x001 then some (.tmap, n)
    else if 0x002 ≤ i ∧ i < 0x006 then some (.nmem, 4 * n + (i - 0x002))
    else if i = 0x008 then some (.cnet, n)
    else if i = 0x009 then some (.arb, 4 + n)
    else if 0x200 ≤ i ∧ i < 0x290 then some (.tile, 144 * n + (i - 0x200))
    else none
  else if 0x20 ≤ sl ∧ sl < 0x28 then
    if i = 0 then some (.estk, sl - 0x20) else if i = 1 then some (.erow, sl - 0x20) else none
  else none

/-- The reset value of `PAGE_CTRL.EN` (02 R49, column EN). -/
def enReset : PType → Nat → Nat
  | .hprt, i => if i = 0 then 1 else 0
  | .emc, _ | .echk, _ | .fprt, _ | .subw, _ | .dma, _ | .tile, _ | .estk, _ | .erow, _ => 0
  | _, _ => 1

/-! The pages by name. -/

def mkPage (slot page : Nat) : PageRef := ⟨BitVec.ofNat 8 slot, BitVec.ofNat 10 page⟩
def pgBdie (b : Nat) : PageRef := mkPage b 0x000
def pgClk (b : Nat) : PageRef := mkPage b 0x001
def pgPwr (b : Nat) : PageRef := mkPage b 0x002
def pgBnet (b : Nat) : PageRef := mkPage b 0x008
/-- ARB number 0 to 3 is base die b, 4 + n is compute die n (02 R49). -/
def pgArb (a : Nat) : PageRef := if a < 4 then mkPage a 0x009 else mkPage (0x10 + (a - 4)) 0x009
def pgSumt (b : Nat) : PageRef := mkPage b 0x010
def pgEmc (k : Nat) : PageRef := mkPage (k / 2) (0x020 + k % 2)
def pgEchk (k c : Nat) : PageRef := mkPage (k / 2) (0x040 + 32 * (k % 2) + c)
def pgFprt (i : Nat) : PageRef := mkPage (i / 3) (0x080 + i % 3)
def pgHprt (h : Nat) : PageRef := mkPage (if h = 0 then 0 else 3) 0x088
def pgBoot : PageRef := mkPage 0 0x0B0
def pgMgmt : PageRef := mkPage 0 0x0B1
def pgThrm : PageRef := mkPage 0 0x0B2
def pgFlsh : PageRef := mkPage 0 0x0B3
def pgIdnt : PageRef := mkPage 0 0x0B4
def pgHbrg : PageRef := mkPage 0 0x0C0
def pgSubw (w : Nat) : PageRef := mkPage 0 (0x100 + w)
def pgDma (d : Nat) : PageRef := mkPage 0 (0x140 + d)
def pgRope : PageRef := mkPage 0 0x0D0
def pgCairn : PageRef := mkPage 0 0x0D1
def pgSeam (s : Nat) : PageRef := mkPage (0x08 + s) 0
def pgCdie (n : Nat) : PageRef := mkPage (0x10 + n) 0x000
def pgTmap (n : Nat) : PageRef := mkPage (0x10 + n) 0x001
def pgNmem (n m : Nat) : PageRef := mkPage (0x10 + n) (0x002 + m)
def pgCnet (n : Nat) : PageRef := mkPage (0x10 + n) 0x008
/-- The TILE page of a package-wide physical index (01 R14, 02 R49). -/
def pgTile (t : Nat) : PageRef := mkPage (0x10 + t / 144) (0x200 + t % 144)
def pgEstk (k : Nat) : PageRef := mkPage (0x20 + k) 0
def pgErow (k : Nat) : PageRef := mkPage (0x20 + k) 1

end Sys2Proof.Machine
end

