-- ==== Sys2Proof/Machine/State.lean ====
section
/-! DEFINITION. The state of the ORG-7240 as plain data, the reasons a step can stop, and the state after a power-on
reset. Every register field of the register pages lies in `regs`; every memory tier lies in `mem`; the rest is the state
behind them that the chapters name. Sparse maps are lists of keys with values, rising, holding no entry at its default
(`Machine/Ops.lean`). -/

namespace Sys2Proof.Machine

/-- Why a step stops with a fault. -/
inductive Fault where
  /-- Raised by a command whose operands no sender can form (`WellFormed.lean`): a flit, frame or code word of the wrong
  length. Safe: nothing on the wires has that shape. -/
  | illFormed
  deriving DecidableEq, Repr

/-- Why a step is refused. -/
inductive Refusal where
  /-- Answered by the dispatch for a command that has no meaning in the model. Safe: the run stops. -/
  | notModelled (mnemonic : String)
  deriving DecidableEq, Repr

/-! ## The tile (03, 04) -/

/-- The transfers of the load/store slot (04 R95). -/
inductive XferKind where
  | nmrd | nmwr | xrd | xwr | nsnd | rowc
  deriving DecidableEq, Repr

/-- An attention output (10 R288): the command, the row, the query and the query head. -/
structure OutTag where
  cmd : Nat
  row : Nat
  query : Nat
  head : Nat
  deriving DecidableEq, Repr

/-- An outstanding transfer (04 R97): its SRAM offset, its target (a package address, or the destination word of
`NSND`), its length in sectors, the sectors not yet moved, its status so far (04 R98), whether it met a damaged sector
(13 R373), whether it waits for others to act (a row engine, the network, a reduction round), and the flits it has still to
send up its drop (07 R204), and the 32-byte command of a `ROWC`. `id` tells a tile's transfers and plane loads apart, in
issue order. `sent` is none while the tile waits for the transfer, and holds the code words of a write or message that a
soft reset or partition reset of the tile has left behind and that still takes effect (04 R487, 07 R216), or those of an
attention output, which `out` then names (10 R288). -/
structure Xfer where
  id : Nat
  kind : XferKind
  sram : Nat
  target : Nat
  sectors : Nat
  todo : List Nat
  status : Nat
  ue : Bool
  waits : Bool
  inject : Nat
  body : Nat
  sent : Option (List (List Byte))
  out : Option OutTag
  deriving DecidableEq, Repr

/-- The classes of array operations (03 R51). -/
inductive ArrClass where
  | i | f | h | b
  deriving DecidableEq, Repr

/-- How an array result combines with Aq (03 R65, R66, R70). -/
inductive ArrCombine where
  | addInt | addFloat | maxInt | minInt | maxFloat | minFloat
  deriving DecidableEq, Repr

/-- One lane's result before it meets Aq: an exact integer, an exact real in units of 2^-400, an infinity, or NaN
(with whether a NaN operand or a 0xFF scale was met). -/
inductive Partial where
  | int (v : Int)
  | real (negZero : Bool) (v : Int)
  | inf (neg : Bool)
  | nan (fromOperand : Bool)
  deriving DecidableEq, Repr

/-- An array operation in flight (03 R61): the accumulator, whether it ignores the old value, and the lane results. -/
structure ArrFlight where
  q : Nat
  cls : ArrClass
  comb : ArrCombine
  ow : Bool
  lanes : List Partial
  deriving DecidableEq, Repr

/-- A plane load in progress (03 R64): its sources (`src` tells the slice from SRAM), the 64-byte
units still to be read, the image so far, whether zeros were delivered, and `TROPE` at issue. -/
structure PlaneLoad where
  id : Nat
  plane : Nat
  src : Bool
  sc : Bool
  base : Nat
  scale : Nat
  todo : List Nat
  data : List (Nat × Byte)
  damaged : Bool
  rope : Word
  deriving DecidableEq, Repr

/-- One entry of the top-k list (03 R73): value and index. -/
structure TkEntry where
  val : Word
  idx : Word
  deriving DecidableEq, Repr

/-- A tile: the control core with its cycle and instruction counters (04 R90), the vector unit, the planes and accumulators, the top-k unit, the ramp, the transfers
outstanding, whether a call of the attention kernel is under way (10 R303), and the outputs whose messages have ended, with
their status, until the attention sequencer hears of them (10 R490). Registers of the TILE page lie in `State.regs`. -/
structure Tile where
  x : List (Nat × Word)
  pc : Nat
  bmode : Bool
  csr : List (Nat × Word)
  mcycle : BitVec 64
  minstret : BitVec 64
  astat : Nat
  intrap : Bool
  pbm : Bool
  fault : Bool
  ue : Bool
  xstatus : Nat
  trope : Word
  scratch : List Host.Cell
  scratchBad : List Nat
  v : List (Nat × Word)
  masks : List (Nat × BitVec 64)
  acc : List (Nat × Word)
  planes : List (Nat × Byte)
  tkMax : Bool
  tkFloat : Bool
  tk : List TkEntry
  cool : Bool
  idle : Nat
  interval : Nat
  switched : Nat
  flight : List ArrFlight
  loads : List PlaneLoad
  xfers : List Xfer
  fenceWait : Option Nat
  taintWait : List Nat
  halting : Bool
  fenceDue : Nat
  nextId : Nat
  inKernel : Bool
  outEnded : List (OutTag × Nat)
  deriving DecidableEq, Repr

/-- A tile after package reset: everything zero or empty (04 R90, R105; integer registers, vector registers, planes and
accumulators have no stated reset value: DESIGN CHOICE zero, assumption log 4). -/
def Tile.init : Tile :=
  { x := [], pc := 0, bmode := false, csr := [], mcycle := 0, minstret := 0, astat := 0, intrap := false, pbm := false, fault := false, ue := false,
    xstatus := 0, trope := 0, scratch := [], scratchBad := [], v := [], masks := [], acc := [], planes := [],
    tkMax := false, tkFloat := false, tk := [], cool := false, idle := 0, interval := 0, switched := 0, flight := [], loads := [],
    xfers := [], fenceWait := none, taintWait := [], halting := false, fenceDue := 0, nextId := 0,
    inKernel := false, outEnded := [] }

/-! ## Calendars (04) -/

/-- Who issued a row-engine command (05 R142): a tile's transfer, a window's command at a count, or the device under a
number of its own. -/
inductive RowIssuer where
  | tile (t id : Nat)
  | window (w c : Nat)
  | device (id : Nat)
  deriving DecidableEq, Repr

/-- A row-engine command (05 R143): its fields, the steps done, and the rows buffered (a sector that was damaged is
`none`). -/
structure RowCmd where
  op : Nat
  z : Bool
  dst : Nat
  srcA : Nat
  srcB : Nat
  tag : Nat
  issuer : RowIssuer
  steps : Nat
  bufs : List (List (Option (List Byte)))
  deriving DecidableEq, Repr

/-- A row engine (05 R146, R147): its queue, the executing command first, and the slot count, of the clock that its memory
shares, from which its next step may start. -/
structure Engine where
  queue : List RowCmd
  ready : Nat
  deriving DecidableEq, Repr

def Engine.init : Engine := { queue := [], ready := 0 }

/-- A calendar as runs of one owner code: the code and the number of consecutive slots. -/
abbrev Calendar := List (Nat × Nat)

/-- A calendared resource (04 R106 to R117): its calendar (empty for the reset calendar of R113), the calendar that
takes over at entry 0, the entry of the next slot, the slots passed, the arbiter's holder with the slots it has been
served, the loss count and back-off of each requester, the row-engine commands that requesters of OPEN slots have
queued, the rows open (05 R128: bank, row, first slot that can serve; 06 R165: pseudo-channel and bank, row, visit) and,
for an edge channel, one more than the slot whose visit was last used in each pseudo-channel, and the owner for which
each row opened. `moved` counts the sectors moved in the holder's grant, and `gaps` the OPEN slots that a paced DMA channel
still sits out (12 R366). -/
structure Res where
  cal : Calendar
  next : Option Calendar
  idx : Nat
  slots : Nat
  holder : Option Nat
  holdLen : Nat
  losses : List (Nat × Nat)
  backoff : List (Nat × Nat)
  openQ : List (Nat × RowCmd)
  rows : List (Nat × Nat × Nat × Nat)
  visited : Nat
  moved : Nat
  gaps : List (Nat × Nat)
  deriving DecidableEq, Repr

def Res.init : Res :=
  { cal := [], next := none, idx := 0, slots := 0, holder := none, holdLen := 0, losses := [], backoff := [],
    openQ := [], rows := [], visited := 0, moved := 0, gaps := [] }

/-- An arbiter page behind its registers (04 R111, R112): the image address of the load under way, the staged set (its
blocks in image order), the resource index order (empty for the ascending one), and the resources still to switch. -/
structure Arb where
  loading : Option Nat
  staged : Option (Nat × List (Nat × Calendar))
  order : List Nat
  switching : List Nat
  deriving DecidableEq, Repr

def Arb.init : Arb := { loading := none, staged := none, order := [], switching := [] }

/-- The refresh and scrub state of one layer of a bank group (05 R154, R156): the debt, the next row to refresh and to
scrub, the passes completed, and the MGCLK count of the last scrub. -/
structure Refresh where
  debt : Nat
  row : Nat
  scrubRow : Nat
  passes : Nat
  scrubbed : Nat
  deriving DecidableEq, Repr

def Refresh.init : Refresh := { debt := 0, row := 0, scrubRow := 0, passes := 0, scrubbed := 0 }

/-! ## Edge memory and the summit (06) -/

/-- A sector that a channel checker has still to move (06 R186): the number of its access, its stack offset, whether it is
written, and its pattern. -/
structure CheckEntry where
  n : Nat
  off : Nat
  write : Bool
  pat : List Byte
  deriving DecidableEq, Repr

/-- A running channel checker (06 R185, R186): the accesses queued so far, the sectors that they have still to move, the
PRBS31 register of each pseudo-channel, and whether it has been stopped. -/
structure Checker where
  next : Nat
  queue : List CheckEntry
  prbs0 : Nat
  prbs1 : Nat
  stop : Bool
  deriving DecidableEq, Repr

/-- One set of a summit region in cache mode (06 R180): in each way the package address of the line's sector with the code
word that the line holds, and the replacement tree. -/
structure CacheSet where
  ways : List (Option (Nat × List Byte))
  tree : BitVec 15
  deriving DecidableEq, Repr

/-! ## The network (07) -/

/-- One end of a die-to-die link (07 R203, R206): the sender's next number and replay buffer, the number it resends when
NAKed and how often in a row, the receiver's last number in order and whether it waits after a NAK; the packets that wait to
be sent (the router's input they came by, and their flits), the rest of the packet under way in each class, the input served
last in each class and the class served last; and the packets being received, by the owner of their slots at the base end of
a drop (07 R204) and by class elsewhere. -/
structure Link where
  nextSeq : Nat
  queue : List (Nat × List (List Byte))
  active : List (Nat × List (List Byte))
  turns : List (Nat × Nat)
  lastCls : Nat
  replay : List (Nat × List Byte)
  nakSeq : Nat
  naks : Nat
  last : Nat
  waiting : Bool
  rx : List (Nat × List (List Byte))
  deriving DecidableEq, Repr

/-- A link end after reset: numbering begins at 0, so the last number in order reads 255. -/
def Link.init : Link :=
  { nextSeq := 0, queue := [], active := [], turns := [], lastCls := 3, replay := [], nakSeq := 0, naks := 0, last := 255,
    waiting := false, rx := [] }

/-- The routers' own state (07 R212, 14 R399): for each base die, the seam links that its route tables avoid as a mask of
bits 4 s + l; the packets that wait at a held-down link (router and flits), in order; the packets that a tile router or
drop end holds for a domain that is not on. -/
structure Net where
  known : List (Nat × Nat)
  stalled : List (Nat × List (List Byte))
  parked : List (Domain × Nat × List (List Byte))
  deriving DecidableEq, Repr

/-- A domain in transition (14 R401, R402): the state it goes to (0 on, 1 retention, 2 off), and whether a wake that
arrived after the last abort point sends it on at once. -/
structure PwrMove where
  dom : Domain
  target : Nat
  woken : Bool
  deriving DecidableEq, Repr

/-- A reduction group descriptor (07 R218), its members as logical tiles. -/
structure Group where
  kind : Nat
  op : Nat
  xpkg : Nat
  root : Nat
  len : Nat
  addr : Nat
  members : List Nat
  deriving DecidableEq, Repr

/-- The round of a group (07 R220, 11 R333, R338): its number since the load, the contributions taken (logical tile and
sectors), the stage it stands at and the value the package brings to it once it has one, the stage packets taken (result
or partial, stage, code words), those held for the next round, whether the stage's partial has been sent, and, for a package
that has sent its last partial, the port and the code words that its neighbour has still to acknowledge (11 R338). -/
structure Round where
  num : Nat
  got : List (Nat × List (List Byte))
  stage : Nat
  value : Option (List (List Byte))
  taken : List (Bool × Nat × List (List Byte))
  held : List (Bool × Nat × List (List Byte))
  sent : Bool
  leaving : Option (Nat × Nat)
  deriving DecidableEq, Repr

def Round.init : Round :=
  { num := 0, got := [], stage := 0, value := none, taken := [], held := [], sent := false, leaving := none }

/-- The reduction engines (07 R218 to R222): the groups of the active table and their rounds, the image address of
the load under way, and the results that wait for a tile to wake (logical tile, SRAM address, code words). -/
structure Reduction where
  groups : List (Nat × Group)
  rounds : List (Nat × Round)
  loading : Option Nat
  late : List (Nat × Nat × List (List Byte))
  deriving DecidableEq, Repr

/-! ## Jodar Link ports (11, 12) -/

/-- A data frame in a replay buffer (11 R318, R320): its number and its code words with their kinds. -/
structure JFrame where
  seq : Nat
  words : List (Nat × List Byte)
  deriving DecidableEq, Repr

/-- A fabric or host port behind its registers (11 R318 to R327, 12 R343, R344): the sender's next number, its replay
buffer, the number NAKed last and how often in a row, the receiver's last number in order and whether it waits after a
NAK; code words freed in the receive buffer, the credit last received and the code words sent; code words waiting to be
sent; the words of the packet being received; whether the port has been UP since package reset, and the neighbour's device number
and port at the last time; the lane groups locked, and the one that carries the next frame; whether it has sent LP_REQ; and
whether its receiver has found LP_EXIT, a data frame or a signal while its domain was not on (14 R399). -/
structure Port where
  nextSeq : Nat
  replay : List JFrame
  nakSeq : Nat
  naks : Nat
  last : Nat
  waiting : Bool
  freed : Nat
  credit : Nat
  sent : Nat
  queue : List (Nat × List Byte)
  rx : List (List Byte)
  beenUp : Bool
  peer : Nat × Nat
  locked : Nat
  lane : Nat
  lpAsked : Bool
  sensed : Bool
  deriving DecidableEq, Repr

def Port.init : Port :=
  { nextSeq := 0, replay := [], nakSeq := 0, naks := 0, last := 4095, waiting := false, freed := 0, credit := 0,
    sent := 0, queue := [], rx := [], beenUp := false, peer := (0, 0), locked := 0, lane := 0, lpAsked := false,
    sensed := false }

/-! ## The bridge (12) -/

/-- A command that a window has accepted and not completed (12 R358): its count, its place in the acceptance order of
the package, its class, tag and body (little-endian), whether it writes no record, and whether its record is discarded
(12 R361). -/
structure InFlight where
  count : Nat
  order : Nat
  cls : Nat
  tag : Nat
  body : Nat
  noRecord : Bool
  discard : Bool
  deriving DecidableEq, Repr

/-- A submission window behind its registers (12 R356, R357): the slots flagged as written, and the commands in
flight. -/
structure Win where
  flags : List Nat
  flight : List InFlight
  deriving DecidableEq, Repr

def Win.init : Win := { flags := [], flight := [] }

/-- A host request that waits for a power domain (14 R397): port, head and data code words. -/
structure HostReq where
  port : Nat
  head : HostHead
  data : List (List Byte)
  bad : Bool
  deriving DecidableEq, Repr

/-- What a device request to host memory is for (12 R353): a completion record, or a request of a DMA channel's piece. -/
inductive DevUse where
  | record
  | dma (d : Nat)
  deriving DecidableEq, Repr

/-- A completion record that waits for its port (12 R356, R360): its window, whether the window has not been enabled afresh
since, the address and size of the ring as it stood, the count of its place, and its bytes without `PHASE`. -/
structure WaitRecord where
  win : Nat
  live : Bool
  base : Nat
  size : Nat
  place : Nat
  bytes : List Byte
  deriving DecidableEq, Repr

/-- A device-originated packet that waits for its port (12 R353): its code words, or the completion record of a window; and,
for a request of the device, its tag and use. -/
structure DevPacket where
  port : Nat
  words : List (List Byte)
  record : Option WaitRecord
  req : Option (Nat × DevUse)
  deriving DecidableEq, Repr

/-- For whom a runtime access to memory runs (04 R114, R115): a host request with its port and head; the piece of a DMA
channel; the completion of a window's row-engine command, which has only the drop of its die to pass (07 R204); or nobody
any more, once its request has completed LOST (12 R353). -/
inductive AccessFor where
  | host (port : Nat) (head : HostHead)
  | dma (d : Nat)
  | row (w c status tag : Nat)
  | nobody
  deriving DecidableEq, Repr

/-- A memory access of a runtime requester (04 R114): its place in the order of arrival, the requester's ID, for whom it
runs, its range, the code words to be stored (none for a read), the sectors still to move, the sectors read (address and
code word as delivered), the flits still to pass the drops of compute dies (the tile they come from and their number, 07
R204), and its status so far. -/
structure MemAccess where
  id : Nat
  who : Nat
  use : AccessFor
  addr : Nat
  len : Nat
  words : Option (List (List Byte))
  todo : List Nat
  got : List (Nat × List Byte)
  up : List (Nat × Nat)
  status : Nat
  deriving DecidableEq, Repr

/-- The host bridge: the window served last, the commands accepted so far, the tag of the next device request, the device
requests outstanding (port, tag and use), the host requests that wait, the packets that wait for a port (12 R353), and the
runtime accesses under way with the number of the next one. -/
structure Bridge where
  lastWin : Nat
  accepted : Nat
  nextTag : Nat
  devReqs : List (Nat × Nat × DevUse)
  hostReqs : List HostReq
  devWait : List DevPacket
  accs : List MemAccess
  nextAcc : Nat
  deriving DecidableEq, Repr

/-- The bridge after package reset; the first window visited is window 0. -/
def Bridge.init : Bridge :=
  { lastWin := 63, accepted := 0, nextTag := 0, devReqs := [], hostReqs := [], devWait := [], accs := [], nextAcc := 0 }

/-- A descriptor queued on a DMA channel (12 R362): the window and count it came by, and its body. -/
structure DmaJob where
  win : Nat
  count : Nat
  body : Nat
  deriving DecidableEq, Repr

/-- A descriptor under way (12 R364): the bytes of the pieces written, the length of the piece under way, its source bytes
so far, and whether the piece is being written. -/
structure DmaRun where
  moved : Nat
  piece : Nat
  data : List Byte
  storing : Bool
  deriving DecidableEq, Repr

/-- A DMA channel (12 R362, R364, R367): its queue, the executing descriptor first, what is under way, and whether a soft
reset waits for the piece to complete. -/
structure Dma where
  queue : List DmaJob
  run : Option DmaRun
  stop : Bool
  deriving DecidableEq, Repr

def Dma.init : Dma := { queue := [], run := none, stop := false }

/-! ## Ropes and KV pages (08) -/

/-- A rope (08 R239): its entry in the rope table without `PAGES` and `NEAR`, which follow from its page list; the
positions and pairs that causal and sliding-window rows have written at `LEN` and beyond (10 R294), and those that tree
rows have. `state` is 0 FREE, 1 OPEN; `tier` 0 AUTO, 1 EDGE. -/
structure Rope where
  state : Nat
  taint : Bool
  prio : Nat
  tier : Nat
  mslot : Nat
  depth : Nat
  len : Nat
  adapter : Nat
  anchor : Nat
  xlen : Nat
  av : Bool
  ablk : Nat
  root : Nat
  shared : Nat
  gen : Nat
  written : List (Nat × Nat)
  draft : List (Nat × Nat)
  deriving DecidableEq, Repr

/-- A rope after package reset: FREE, every field 0. -/
def Rope.init : Rope :=
  { state := 0, taint := false, prio := 0, tier := 0, mslot := 0, depth := 0, len := 0, adapter := 0, anchor := 0,
    xlen := 0, av := false, ablk := 0, root := 0, shared := 0, gen := 0, written := [], draft := [] }

/-- A node of the node pool in use (08 R236): the rope that owns it, its level (0 for a block record) and the first block
under it. -/
structure NodeUse where
  rope : Nat
  level : Nat
  block : Nat
  deriving DecidableEq, Repr

/-- What a row command of the rope logic is for (05 R142): zeroing a frame, a copy-on-write under the page ID of the copy,
or clearing draft rows for the command at a place in the acceptance order. -/
inductive JobUse where
  | zero (h : Nat)
  | copy (y : Nat)
  | draft (accept : Nat)
  deriving DecidableEq, Repr

/-- A row command that the rope logic has issued (05 R142, 08 R247, R250): its number, what it is for, its rows (no source
where it zeroes), and its status once it has completed. -/
structure KvJob where
  id : Nat
  use : JobUse
  dst : Nat
  src : Option Nat
  status : Option Nat
  deriving DecidableEq, Repr

/-- A copy-on-write under way (08 R247): the rope, block and pair whose write caused it, the shared page and its copy. -/
structure KvCopy where
  rope : Nat
  block : Nat
  pair : Nat
  old : Nat
  new : Nat
  deriving DecidableEq, Repr

/-- The rope logic's pools (08 R229 to R255): the logical tiles and the stacks that hold frames; the frames that hold a
page, with its ID; the frames that wait to be zeroed; the frames zeroed since `ON` was set; the nodes in use; the pages
queued for promotion and for demotion; the moves under way (page ID, new frame); the moves started per die (die, MGCLK
count); promotions refused in the epoch per die; where the sweep of a die goes on; the old frames that wait for attention
commands (08 R253); the rope entries captured for each requester (08 R240); and the row commands issued with the number of
the next one, and the copies under way. -/
structure Kv where
  nearTiles : List Nat
  edgeStacks : List Nat
  held : List (Nat × Nat)
  zeroing : List Nat
  seen : List Nat
  nodes : List (Nat × NodeUse)
  queue : List Nat
  demote : List Nat
  moves : List (Nat × Nat)
  starts : List (Nat × Nat)
  refused : List (Nat × Nat)
  cursor : List (Nat × Nat)
  late : List (Nat × List Nat)
  captured : List (Nat × List Nat)
  jobs : List KvJob
  nextJob : Nat
  copies : List KvCopy
  deriving DecidableEq, Repr

def Kv.init : Kv :=
  { nearTiles := [], edgeStacks := [], held := [], zeroing := [], seen := [], nodes := [], queue := [], demote := [], moves := [],
    starts := [], refused := [], cursor := [], late := [], captured := [], jobs := [], nextJob := 1, copies := [] }

/-! ## Attention (10) -/

/-- A work item (10 R297, R298): the pair, the block, the page ID with the package address of its frame (none for a page of
zeros), the logical tile that runs it, and whether that tile reads the page itself. -/
structure AttnItem where
  pair : Nat
  block : Nat
  page : Option (Nat × Nat)
  runner : Nat
  own : Bool
  deriving DecidableEq, Repr

/-- A partial result (10 R307): the tile that made it, the query, the query head, the lowest block folded, and m, L, O. -/
structure AttnPart where
  tile : Nat
  query : Nat
  head : Nat
  low : Nat
  m : Word
  l : Word
  o : List Word
  deriving DecidableEq, Repr

/-- How far a row is (10 R292 to R305): not checked, in service, or done. -/
inductive RowPhase where
  | waiting | served | done
  deriving DecidableEq, Repr

/-- A row of an ATTN command (10 R284, R292): its 64 bytes as the table held them at acceptance, its phase and status,
whether its outputs are to go out poisoned, whether a frame need of its KV write has been met (09 R276), `LEN` at its check,
the parents of its tree, its root at the KV write, its work items, the partials made, and the outputs (query, head)
on their way, delivered and failed, the last with their status. -/
structure AttnRow where
  bytes : List Byte
  phase : RowPhase
  status : Nat
  poison : Bool
  met : Bool
  len : Nat
  tree : List Nat
  root : Option Nat
  items : List AttnItem
  parts : List AttnPart
  flying : List (Nat × Nat)
  sent : List (Nat × Nat)
  failed : List (Nat × Nat × Nat)
  deriving DecidableEq, Repr

/-- An ATTN command in progress (10 R291 to R305): its number, its place in the acceptance order, its source, its body, its
participants (logical tiles), the tiles that have called the kernel and those whose call has ended, whether a row of it has
timed out, and its rows. -/
structure AttnCmd where
  id : Nat
  order : Nat
  src : CmdSrc
  body : List Byte
  parts : List Nat
  called : List Nat
  ended : List Nat
  lost : Bool
  rows : List AttnRow
  deriving DecidableEq, Repr

/-- An ACCEPT whose rows are being zeroed (10 R314): a number, its place in the acceptance order, its source and body, the
rope, the results, and the frames released. -/
structure AcceptRun where
  id : Nat
  order : Nat
  src : CmdSrc
  body : List Byte
  rope : Nat
  count : Nat
  bonus : Nat
  frames : List Nat
  deriving DecidableEq, Repr

/-- The attention sequencer: the number of the next command, the commands in progress, the calls that participants still
owe to completed commands (logical tile, `CSEQ`, value returned), and the ACCEPTs under way. -/
structure Attn where
  next : Nat
  cmds : List AttnCmd
  owed : List (Nat × Nat × Nat)
  accepts : List AcceptRun
  deriving DecidableEq, Repr

/-! ## The error log (13) -/

/-- A log record: its eight words (13 R377). -/
abbrev LogRec := List Nat

/-- The log engine (13 R376 to R380): the number of the next record, the ring by place, the records that wait on each
die slot and the losses each die has counted, and the capture buffer of each requester. -/
structure Log where
  seq : Nat
  ring : List (Nat × LogRec)
  waiting : List (Nat × List LogRec)
  lost : List (Nat × Nat)
  captured : List (Nat × LogRec)
  deriving DecidableEq, Repr

/-! ## Presence (16 R432 step 3) -/

/-- What die discovery has found, as bit masks: base dies that receive clocks, seam dies, compute dies and stacks
present. -/
structure Presence where
  clocked : Nat
  seams : Nat
  dies : Nat
  stackBits : Nat
  deriving DecidableEq, Repr

/-! ## Bring-up (16) -/

/-- A tile-image load (16 R436 to R442): its number, the dies named, whether `RELOAD` began it, its participants, the pass
under way, whether the pass's end marker has gone out, the maps contributed in the pass, the union of the last pass, and
the participants started and not yet checked, and those that missed a chunk when unicast repair began. Passes 0 to 4 are
the broadcast passes; 5 is unicast repair; 6 start-up; 7 a load that
failed. -/
structure Load where
  number : Nat
  dies : Nat
  reload : Bool
  parts : List Nat
  pass : Nat
  marker : Bool
  maps : List (Nat × BitVec 64)
  union : BitVec 64
  started : List Nat
  repair : List Nat
  deriving DecidableEq, Repr

/-- An item of the control state that B0 keeps in two copies (13 R385): the rope table, the counts and flags of a submission
window, the bridge queues, the reset and bring-up state. -/
inductive B0Item where
  | ropes
  | window (w : Nat)
  | bridge
  | bringUp
  deriving DecidableEq, Repr

/-- The bring-up logic and the management firmware behind their pages: the number of the last load and the load under
way; the firmware (0 none, 1 the boot stage, 2 the main image, 3 restarting); the package reset that is due (0 none, else
the value `BOOT_RST.LAST` takes); whether the package is held in reset; the MGCLK count at the release of reset; and
whether `NBR_WAIT` has passed; whether power-on reset holds; the slot of the active configuration copy; and the items of B0's
control state that are uncorrectable in one copy, or (true) in both (13 R385). -/
structure Boot where
  loads : Nat
  load : Option Load
  fw : Nat
  due : Nat
  held : Bool
  released : Nat
  nbrDone : Bool
  por : Bool
  active : Option Nat
  damaged : List (B0Item × Bool)
  deriving DecidableEq, Repr

def Boot.init : Boot :=
  { loads := 0, load := none, fw := 0, due := 0, held := false, released := 0, nbrDone := false, por := false, active := none,
    damaged := [] }

/-- A flash command under way (17 R455): its bit number, and the offset, length and package address taken at its start. -/
structure FlashCmd where
  op : Nat
  off : Nat
  len : Nat
  src : Nat
  deriving DecidableEq, Repr

/-- The signature fuses blown since the run began, and the report in progress: its 256-byte body and its address (17
R464, R465). -/
structure Ident where
  blown : Nat
  report : Option (List Byte × Nat)
  deriving DecidableEq, Repr

/-- The board side (18): the level of PWR_OK, the status of the last SMBus write, the control word of the PMBus transaction
under way, the JTAG instruction (0 IDCODE, 1 BYPASS, 2 SAMPLE/PRELOAD, 3 EXTEST, 4 CLAMP, 5 HIGHZ) and the boundary-scan
register. -/
structure Board where
  pwrOk : Bool
  smbStatus : Nat
  pmb : Option Nat
  tap : Nat
  scan : BitVec 64
  deriving DecidableEq, Repr

def Board.init : Board := { pwrOk := true, smbStatus := 0, pmb := none, tap := 0, scan := 0 }

/-! ## Thermal control (15) -/

/-- A temperature sensor (15 R407, R409): its latest reading in 1/16 degree C, why it is marked faulty (0 not), the
samples taken, the readings of the last millisecond, latest first, and the readings and estimates of the last 10 s, latest
first. -/
structure Sensor where
  temp : Int
  why : Nat
  samples : Nat
  recent : List Int
  window : List (Int × Int)
  deriving DecidableEq, Repr

def Sensor.init : Sensor := { temp := 0, why := 0, samples := 0, recent := [], window := [] }

/-- The thermal model and the coolant monitor behind the THRM page (15): the sensors by index; the sites whose LIMIT has
been reported; the base-die sites that raise their dies' stride, bit 8 b + s for site s of Bb; for each layer quarter whether
it runs hot and how long it has been cool; decisions taken; pulses counted in the current 10 ms and in the 10 ms periods
before, latest first; temperature rises, latest first; how many flow updates in a row have met the clearing conditions of
STOP and of LOW; inlet samples in a row above and not above 45 degrees C; milliseconds that FLOW_TACH has stood at one level
and has been good; whether a valid pulse has come in the current millisecond, milliseconds without one, whether they have
come to 50 since the last flow update, and milliseconds since that update. -/
structure Thermal where
  sensors : List (Nat × Sensor)
  limited : List Nat
  raising : Nat
  cooling : List (Nat × Nat)
  decisions : Nat
  bucket : Nat
  buckets : List Nat
  rises : List Int
  stopGood : Nat
  lowGood : Nat
  inletAbove : Nat
  inletBelow : Nat
  steady : Nat
  flowGood : Nat
  pulsed : Bool
  silent : Nat
  gap : Bool
  phase : Nat
  deriving DecidableEq, Repr

def Thermal.init : Thermal :=
  { sensors := [], limited := [], raising := 0, cooling := [], decisions := 0, bucket := 0, buckets := [], rises := [],
    stopGood := 0, lowGood := 0, inletAbove := 0, inletBelow := 0, steady := 0, flowGood := 0,
    pulsed := false, silent := 0, gap := false, phase := 0 }

/-! ## The whole machine -/

/-- What has left the part, in order (the model's own record of its outputs): a packet that a router forwards in a
direction with its class and, on a base link, its track (07 R191); a die-to-die frame at a link end; a Jodar Link frame at a port, with its lane group; an answer on SMBus; a
transaction on PMBus; the level of an output pin; what the JTAG port shifts out. -/
inductive OutMsg where
  | hop (router dir cls track : Nat) (flits : List (List Byte))
  | d2d (link : Nat) (frame : List Byte)
  | jodar (port lane : Nat) (frame : List Byte)
  | smb (bytes : List Byte)
  | pmb (bytes : List Byte)
  | pin (name level : Nat)
  | tdo (bits value : Nat)
  deriving DecidableEq, Repr

/-- The whole block. `regs` holds every stored register field by its key; `staged` and `latched` are the pair buffers of
the requesters (02 R37, R38); `emclk` is the EMCLK count e of each base die (06 R164); `softWait` names the pages whose soft reset waits for a power transition to end (14
R403); `flash` holds the board's flash by offset, each byte as its difference from 0xFF, so that erased flash lists
nothing. -/
structure State where
  pending : List Instr
  out : List OutMsg
  mg : Nat
  fresh : Nat
  regs : List (Nat × Nat)
  staged : List (Nat × Nat)
  latched : List (Nat × Nat)
  mem : List Host.Cell
  log : Log
  tiles : List (Nat × Tile)
  found : Presence
  res : List (Nat × Res)
  arbs : List (Nat × Arb)
  refresh : List (Nat × Refresh)
  engines : List (Nat × Engine)
  emclk : List (Nat × Nat)
  checkers : List (Nat × Checker)
  cache : List (Nat × CacheSet)
  cacheHits : List (Nat × (Nat × Nat))
  links : List (Nat × Link)
  net : Net
  moves : List PwrMove
  boot : Boot
  red : Reduction
  ports : List (Nat × Port)
  wins : List (Nat × Win)
  bridge : Bridge
  dmas : List (Nat × Dma)
  softWait : List PageRef
  thermal : Thermal
  flash : List Host.Cell
  flashCmd : Option FlashCmd
  ident : Ident
  board : Board
  ropes : List (Nat × Rope)
  kv : Kv
  attn : Attn
  deriving DecidableEq, Repr

/-- The machine right after power-on reset. -/
def State.reset : State :=
  { pending := [], out := [], mg := 0, fresh := 0, regs := [], staged := [], latched := [], mem := [],
    log := { seq := 0, ring := [], waiting := [], lost := [], captured := [] }, tiles := [],
    found := { clocked := 0, seams := 0, dies := 0, stackBits := 0 }, res := [], arbs := [], refresh := [],
    engines := [], emclk := [], checkers := [], cache := [], cacheHits := [], links := [],
    net := { known := [], stalled := [], parked := [] }, moves := [],
    boot := Boot.init,
    red := { groups := [], rounds := [], loading := none, late := [] }, ports := [], wins := [],
    bridge := Bridge.init,
    dmas := [], softWait := [], thermal := Thermal.init,
    flash := [], flashCmd := none, ident := { blown := 0, report := none }, board := Board.init,
    ropes := [], kv := Kv.init, attn := { next := 0, cmds := [], owed := [], accepts := [] } }

end Sys2Proof.Machine
end

