-- ==== Sys2Proof/Machine/Ops.lean ====
section
/-! DEFINITION. The named operations over the state: sparse maps, memory and its 36-byte code words (05 R131 to R133),
register fields, page errors and the error log (02 R46, 13 R374 to R380). -/

namespace Sys2Proof.Machine

/-! ## Sparse maps: rising keys, no entry at the default -/

/-- The value at key `k` of a sparse map with default `d`. -/
def mapGet {α : Type} (d : α) (m : List (Nat × α)) (k : Nat) : α :=
  match m.find? (fun e => e.1 == k) with
  | some e => e.2
  | none => d

/-- A sparse map with the value at key `k` set; setting the default removes the entry. -/
def mapSet {α : Type} [DecidableEq α] (d : α) (m : List (Nat × α)) (k : Nat) (v : α) : List (Nat × α) :=
  m.filter (fun e => e.1 < k) ++ (if v = d then [] else [(k, v)]) ++ m.filter (fun e => k < e.1)

/-- Setting several keys in turn. -/
def mapSetAll {α : Type} [DecidableEq α] (d : α) (m : List (Nat × α)) (l : List (Nat × α)) : List (Nat × α) :=
  l.foldl (fun m e => mapSet d m e.1 e.2) m

/-- Every entry of a sparse map changed by a function of its key; entries that come to the default go. -/
def mapUpd {α : Type} [DecidableEq α] (d : α) (m : List (Nat × α)) (f : Nat → α → α) : List (Nat × α) :=
  m.foldl (fun r e => mapSet d r e.1 (f e.1 (mapGet d m e.1))) []

/-- Bits `hi` to `lo` of a number. -/
def bits (v hi lo : Nat) : Nat := v / 2 ^ lo % 2 ^ (hi + 1 - lo)

/-- Bit `i` of a number. -/
def bit (v i : Nat) : Bool := v / 2 ^ i % 2 == 1

def b2n (b : Bool) : Nat := if b then 1 else 0

/-- A little-endian number from bytes (02; all memory structures of the manual are little-endian). -/
def leNat : List Byte → Nat
  | [] => 0
  | b :: bs => b.toNat + 256 * leNat bs

/-- The `n` little-endian bytes of a number. -/
def leBytes : Nat → Nat → List Byte
  | 0, _ => []
  | n + 1, v => BitVec.ofNat 8 v :: leBytes n (v / 256)

/-- Bytes `off` to `off + n - 1` of a byte list, zeros beyond its end. -/
def slice (l : List Byte) (off n : Nat) : List Byte := (List.range n).map (fun i => l.getD (off + i) 0)

/-- The little-endian field of `n` bytes at `off`. -/
def field (l : List Byte) (off n : Nat) : Nat := leNat (slice l off n)

/-! ## Memory -/

/-- The canonical form of the memory list: addresses strictly rising, no entry that reads as an unlisted one does. An
unlisted byte reads as 0x00 (assumption log 5). -/
def memWf (m : List Host.Cell) : Bool :=
  decide (m.Pairwise (fun a b => a.1 < b.1)) && m.all (fun c => c.2 != 0)

/-- One byte of the memory list. -/
def memByte (m : List Host.Cell) (k : Nat) : Byte := mapGet 0 m k

/-- `n` bytes of the memory list from key `k` on. -/
def memRead (m : List Host.Cell) (k n : Nat) : List Byte :=
  let w := m.filter (fun c => k ≤ c.1 && c.1 < k + n)
  (List.range n).map (fun i => mapGet 0 w (k + i))

/-- The entries that the bytes `bs` at key `k` have in the canonical list. -/
def memCells (k : Nat) : List Byte → List Host.Cell
  | [] => []
  | b :: bs => if b = 0 then memCells (k + 1) bs else (k, b) :: memCells (k + 1) bs

/-- The memory list after the bytes `bs` are written from key `k` on. -/
def memWrite (m : List Host.Cell) (k : Nat) (bs : List Byte) : List Host.Cell :=
  m.filter (fun c => c.1 < k) ++ memCells k bs ++ m.filter (fun c => k + bs.length ≤ c.1)

/-- The memory list with `n` bytes from key `k` on returned to zero. -/
def memZero (m : List Host.Cell) (k n : Nat) : List Host.Cell :=
  m.filter (fun c => c.1 < k || k + n ≤ c.1)

/-! ## The code word (05 R131 to R133) -/

/-- Multiplication in GF(2^8) with the field polynomial x^8 + x^4 + x^3 + x^2 + 1. -/
def gfMul (a b : Byte) : Byte :=
  (List.range 8).foldr (fun i r =>
    let d := if r.getMsbD 0 then (r <<< 1) ^^^ 0x1D#8 else r <<< 1
    if b.getLsbD i then d ^^^ a else d) 0

/-- The four check bytes of 32 data bytes: the remainder modulo g(x) = (x+1)(x+2)(x+4)(x+8), whose coefficients below
x^4 are 15, 54, 120 and 64. -/
def rsCheck (d : List Byte) : List Byte :=
  let r := d.foldl (fun (r : Byte × Byte × Byte × Byte) c =>
    let f := c ^^^ r.1
    (r.2.1 ^^^ gfMul f 15#8, r.2.2.1 ^^^ gfMul f 54#8, r.2.2.2 ^^^ gfMul f 120#8, gfMul f 64#8)) (0, 0, 0, 0)
  [r.1, r.2.1, r.2.2.1, r.2.2.2]

/-- A good code word. -/
def codeWord (d : List Byte) : List Byte := d ++ rsCheck d

/-- The poisoned code word that every unit writes (05 R132). -/
def poisonWord : List Byte := List.replicate 32 0 ++ List.replicate 4 0xFF#8

/-- Evaluation of a code word polynomial at a point, by Horner's rule. -/
def gfEval (x : Byte) (w : List Byte) : Byte := w.foldl (fun r c => gfMul r x ^^^ c) 0

/-- The four syndromes of a code word. -/
def syndromes (w : List Byte) : List Byte := [gfEval 1#8 w, gfEval 2#8 w, gfEval 4#8 w, gfEval 8#8 w]

/-- The syndromes of the poison mask: check bytes 0xFF and nothing else. -/
def poisonSyndromes : List Byte := syndromes poisonWord

/-- The position and error value of the one symbol error with these syndromes, when there is one: position 35 - j has
the locator 2^j. -/
def singleError (s : List Byte) : Option (Nat × Byte) :=
  match s with
  | [s0, s1, s2, s3] =>
    if s0 = 0 then none
    else ((List.range 36).foldl (fun (r : Option (Nat × Byte) × Byte) j =>
      (if r.1.isNone && gfMul s0 r.2 = s1 && gfMul s1 r.2 = s2 && gfMul s2 r.2 = s3 then some (35 - j, s0) else r.1,
        gfMul r.2 2#8)) (none, 1#8)).1
  | _ => none

/-- What a reader finds in a sector (05 R133). -/
inductive SectorState where
  | good
  | corrected (pos : Nat) (val : Byte)
  | poisoned
  | uncorrectable
  deriving DecidableEq, Repr

/-- Whether a sector's state is damaged: poisoned or uncorrectable. -/
def SectorState.damaged : SectorState → Bool
  | .poisoned | .uncorrectable => true
  | _ => false

def xorBytes (a b : List Byte) : List Byte := a.zipWith (· ^^^ ·) b

/-- Decoding a code word of 36 bytes: its state and its data bytes, corrected where one symbol was wrong (05 R133). -/
def decodeSector (w : List Byte) : SectorState × List Byte :=
  let s := syndromes w
  let d := w.take 32
  if s = [0, 0, 0, 0] then (.good, d)
  else
    let dp := xorBytes s poisonSyndromes
    if dp = [0, 0, 0, 0] || (singleError dp).isSome then (.poisoned, d)
    else match singleError s with
      | some (p, e) => (.corrected p e, (w.set p (w.getD p 0 ^^^ e)).take 32)
      | none => (.uncorrectable, d)

/-! ## Sectors of the package address space. Data byte j of the sector at address a lies at key 36 (a / 32) + j, check
byte j at key 36 (a / 32) + 32 + j. -/

/-- The key of the first byte of the sector that holds package address `a`. -/
def sectorKey (a : Nat) : Nat := 36 * (a / 32)

/-- The stored code word of the sector that holds package address `a`. -/
def State.codeWordAt (s : State) (a : Nat) : List Byte := memRead s.mem (sectorKey a) 36

/-- What a reader finds in the sector that holds package address `a`. -/
def State.sector (s : State) (a : Nat) : SectorState × List Byte := decodeSector (s.codeWordAt a)

/-- The cached copies of the sector that holds `a` take a code word (06 R181: every write goes through to the stack and
updates them; no other address has a line). -/
def updateLines (l : List (Nat × CacheSet)) (a : Nat) (w : List Byte) : List (Nat × CacheSet) :=
  l.map (fun e => (e.1, { e.2 with ways := e.2.ways.map (fun x => match x with
    | some (b, v) => some (b, if b = 32 * (a / 32) then w.take 36 else v)
    | none => none) }))

/-- The state after a code word is stored in the sector that holds `a`. -/
def State.putCodeWord (s : State) (a : Nat) (w : List Byte) : State :=
  { s with mem := memWrite s.mem (sectorKey a) (w.take 36), cache := updateLines s.cache a w }

/-- The state after 32 data bytes, with valid check bytes, are stored in the sector that holds `a`. -/
def State.putSector (s : State) (a : Nat) (d : List Byte) : State := s.putCodeWord a (codeWord (slice d 0 32))

/-- The state after the sector that holds `a` is written poisoned. -/
def State.poisonSector (s : State) (a : Nat) : State := s.putCodeWord a poisonWord

/-- Whole sectors written from address `a` on, one after another. -/
def State.putBytes (s : State) (a : Nat) (d : List Byte) : State :=
  (List.range ((d.length + 31) / 32)).foldl (fun s i => s.putSector (a + 32 * i) (slice d (32 * i) 32)) s

/-- The summit lines of a zero-filled range hold zeros (06 R181). -/
def zeroLines (c : List (Nat × CacheSet)) (a n : Nat) : List (Nat × CacheSet) :=
  c.map (fun e => (e.1, { e.2 with ways := e.2.ways.map (fun x => match x with
    | some (b, v) => some (b, if a ≤ b ∧ b < a + n then List.replicate 36 0 else v)
    | none => none) }))

/-- `n` bytes of address range `a` zero-filled, a whole number of sectors. -/
def State.zeroRange (s : State) (a n : Nat) : State :=
  { s with mem := memZero s.mem (sectorKey a) (36 * (n / 32)), cache := zeroLines s.cache a n }

/-- The addresses of the sectors that a byte range touches. -/
def sectorsOf (a n : Nat) : List Nat :=
  if n = 0 then [] else (List.range ((a + n - 1) / 32 + 1 - a / 32)).map (fun i => 32 * (a / 32 + i))

/-- One stored data byte as it lies in memory, without decoding. -/
def State.dataByte (s : State) (a : Nat) : Byte := memByte s.mem (sectorKey a + a % 32)

/-! ## Free values (assumption log 2) -/

/-- The next free value, and the state that has used it up. -/
def State.free (s : State) : Word × State := (Config.freeValue s.fresh, { s with fresh := s.fresh + 1 })

/-- A list of `n` free bytes. -/
def State.freeBytes (s : State) (n : Nat) : List Byte × State :=
  ((List.range n).map (fun i => (Config.freeValue (s.fresh + i)).truncate 8), { s with fresh := s.fresh + n })

/-! ## Register fields -/

def pageKey (p : PageRef) : Nat := 2 ^ 22 * p.slot.toNat + 2 ^ 12 * p.page.toNat

/-- The key of a field of a page: its byte address in the register range and its lowest bit. -/
def fieldKey (p : PageRef) (f : Field) : Nat := 32 * (pageKey p + f.off) + f.lo

/-- The reset value of a field on a page: `PAGE_CTRL.EN` follows the index of page types (02 R49). -/
def resetOf (p : PageRef) (f : Field) : Nat :=
  if f = PAGE_CTRL.EN then
    match pageAt p with
    | some (t, i) => enReset t i
    | none => 0
  else f.reset

/-- The stored value of a field. -/
def State.get (s : State) (p : PageRef) (f : Field) : Nat := mapGet (resetOf p f) s.regs (fieldKey p f)

/-- The state with a field stored, cut to the field's width. -/
def State.put (s : State) (p : PageRef) (f : Field) (v : Nat) : State :=
  { s with regs := mapSet (resetOf p f) s.regs (fieldKey p f) (v % 2 ^ (f.hi + 1 - f.lo)) }

def State.flag (s : State) (p : PageRef) (f : Field) : Bool := s.get p f == 1

def State.putFlag (s : State) (p : PageRef) (f : Field) (b : Bool) : State := s.put p f (b2n b)

/-- A counter that saturates at all ones raised by `n`. -/
def State.count (s : State) (p : PageRef) (f : Field) (n : Nat) : State :=
  s.put p f (min (s.get p f + n) (2 ^ (f.hi + 1 - f.lo) - 1))

/-- A counter that wraps raised by `n`. -/
def State.wrapCount (s : State) (p : PageRef) (f : Field) (n : Nat) : State := s.put p f (s.get p f + n)

/-- The 48-bit or 64-bit value of a `_LO` and `_HI` pair of fields. -/
def State.getPair (s : State) (p : PageRef) (lo hi : Field) : Nat := 2 ^ lo.lo * s.get p lo + 2 ^ 32 * s.get p hi

/-- Every stored field of one page dropped, so that each reads as after reset. -/
def State.clearPage (s : State) (p : PageRef) : State :=
  { s with regs := s.regs.filter (fun e => e.1 < 32 * pageKey p || 32 * (4096 + pageKey p) ≤ e.1) }

/-- The fields of a page that hold a register at byte offset `off`, each as the field of that one register. -/
def fieldsAt (t : PType) (off : Nat) : List Field :=
  let one (f : Field) : List Field :=
    let g : Option Field :=
      if f.stride = 0 then (if f.off = off then some f else none)
      else if f.off ≤ off ∧ (off - f.off) % f.stride = 0 ∧ (off - f.off) / f.stride < f.count then
        some (f.at ((off - f.off) / f.stride))
      else none
    match g with
    | none => []
    | some g => if g.subCount ≤ 1 then [g] else (List.range g.subCount).map g.sub
  (if off < 0x40 then fieldsHdr else fieldsOf t).flatMap one

/-! ## The tile map (01 R17, R20) -/

/-- The state of a physical position, by package-wide index (01 R20). -/
def State.tmapState (s : State) (t : Nat) : Nat := s.get (pgTmap (t / 144)) (TMAP_PHYS.STATE.at (t % 144))

/-- The logical tile number of a physical position, when it has one: `STATE` 0 or 5 (01 R17, R20). -/
def State.logicalOf (s : State) (t : Nat) : Option Nat :=
  if s.tmapState t = 0 ∨ s.tmapState t = 5 then
    some (128 * (t / 144) + s.get (pgTmap (t / 144)) (TMAP_PHYS.LOGICAL.at (t % 144)))
  else none

/-- The physical position of a logical tile, when the number is assigned (01 R17). -/
def State.physOf (s : State) (l : Nat) : Option Nat :=
  if l < 1536 ∧ s.get (pgTmap (l / 128)) (TMAP_LOG.VALID.at (l % 128)) = 1 then
    some (144 * (l / 128) + s.get (pgTmap (l / 128)) (TMAP_LOG.PHYS.at (l % 128)))
  else none

/-- Whether a logical tile number is assigned (01 R17). -/
def State.assigned (s : State) (l : Nat) : Bool := (s.physOf l).isSome

/-! ## The bases of the package address map (02 R23) -/

def edgeBase (k : Nat) : Nat := 0x0020_0000_0000 * k
def nearBase (l : Nat) : Nat := 0x0100_0000_0000 + 0x0C00_0000 * l
def summitBase (b r : Nat) : Nat := 0x0180_0000_0000 + 0x2000_0000 * b + 0x0100_0000 * r
def sramBase (l : Nat) : Nat := 0x01C0_0000_0000 + 0x0020_0000 * l
def regBase : Nat := 0x01F0_0000_0000

/-! ## Tiles -/

def State.tile (s : State) (t : Nat) : Tile := mapGet Tile.init s.tiles t

def State.setTile (s : State) (t : Nat) (u : Tile) : State := { s with tiles := mapSet Tile.init s.tiles t u }

def State.modTile (s : State) (t : Nat) (f : Tile → Tile) : State := s.setTile t (f (s.tile t))

/-! ## Errors and the log (02 R46, 13) -/

/-- The kinds of errors (13 R374): corrected, or uncorrected and dropped. -/
inductive ErrKind where
  | c | u
  deriving DecidableEq, Repr

/-- Microseconds since package reset by B0's MGCLK count (13 R377): MGCLK runs at 500 MHz (16 R423). -/
def State.micros (s : State) : Nat := s.mg / 500

/-- Whether every link of seam die `n` is held down: state HELD, code 4 (07 R210, R212). -/
def State.seamHeld (s : State) (n : Nat) : Bool :=
  (List.range 4).all (fun l => s.get (pgSeam n) (SEAM_LINK.STATE.at l) == 4)

/-- Whether the path from a die slot to B0 is held down (13 R380): every seam route from the base die that serves it
(SM0 joins B0 and B1, SM1 B2 and B3, SM2 B0 and B2, SM3 B1 and B3), or all 24 drops of a compute die. -/
def State.pathDown (s : State) (slot : Nat) : Bool :=
  let b : Nat :=
    if slot < 4 then slot
    else if slot < 0x0C then (match slot with | 0x9 => 2 | 0xB => 1 | _ => 0)
    else if slot < 0x20 then (slot - 0x10) / 3 else (slot - 0x20) / 2
  let base : Bool := match b with
    | 0 => false
    | 1 => s.seamHeld 0 && (s.seamHeld 3 || s.seamHeld 1 || s.seamHeld 2)
    | 2 => s.seamHeld 2 && (s.seamHeld 1 || s.seamHeld 3 || s.seamHeld 0)
    | _ => (s.seamHeld 1 || s.seamHeld 2) && (s.seamHeld 3 || s.seamHeld 0)
  base || (0x10 ≤ slot && slot < 0x1C && s.get (pgCnet (slot - 0x10)) CNET_DROP_DOWN.DOWN == 0xFFFFFF)

/-- The log engine takes one record (13 R376, R378): it takes the next number, and is written to the ring unless the
ring is full, when it counts as lost. -/
def State.logEnter (s : State) (r : LogRec) : State :=
  let head := s.get pgMgmt MGMT_LOG_HEAD.COUNT
  let tail := s.get pgMgmt MGMT_LOG_TAIL.COUNT
  let r := r.set 0 (s.log.seq % 2 ^ 32)
  let s1 := { s with log := { s.log with seq := s.log.seq + 1 } }
  if (head + 65536 - tail) % 65536 = 256 then s1.count pgMgmt MGMT_LOG_LOST.COUNT 1
  else { s1 with log := { s1.log with ring := mapSet [] s1.log.ring (head % 256) r } }.put pgMgmt MGMT_LOG_HEAD.COUNT
      (head + 1)

/-- A record produced on a die enters the log, or waits while the die's path to B0 is held down, or while earlier ones of the
die wait, at most 16 of them (13 R376, R380). -/
def State.logRecord (s : State) (slot : Nat) (r : LogRec) : State :=
  let q := mapGet [] s.log.waiting slot
  if s.pathDown slot || !q.isEmpty then
    if q.length < 16 then { s with log := { s.log with waiting := mapSet [] s.log.waiting slot (q ++ [r]) } }
    else { s with log := { s.log with lost := mapSet 0 s.log.lost slot (mapGet 0 s.log.lost slot + 1) } }
  else s.logEnter r

/-- The device reports an error on a page (02 R46, 13 R374 to R377): it counts, is captured or counted behind the first
one, and produces a log record unless it is of kind C and `MGMT_LOG_CFG.NO_CE` is 1. `addr` and `src` are those of
MEM_CE and MEM_UE. -/
def State.report (s : State) (p : PageRef) (k : ErrKind) (code syn addr src : Nat) : State :=
  let s1 := s.count p (if k = .c then PAGE_ERR_CNT_C.COUNT else PAGE_ERR_CNT_U.COUNT) 1
  let first := s1.get p PAGE_ERR_FIRST.VALID = 0
  let s2 :=
    if first then
      ((s1.put p PAGE_ERR_FIRST.VALID 1).put p PAGE_ERR_FIRST.CODE code).put p PAGE_ERR_FIRST.SYNDROME syn
    else s1.count p PAGE_ERR_NEXT.COUNT 1
  if k = .c ∧ s2.get pgMgmt MGMT_LOG_CFG.NO_CE = 1 then s2
  else
    s2.logRecord p.slot.toNat
      [0, 256 * p.page.toNat + p.slot.toNat,
        (if k = .u then 2 ^ 31 else 0) + (if first then 2 ^ 30 else 0) + 65536 * (code % 256) + syn % 65536,
        s2.micros % 2 ^ 32, addr % 2 ^ 32, 2 ^ 30 * src + addr / 2 ^ 32 % 65536, 0, 0]

/-- The syndrome of a corrected sector (05 R140). -/
def ceSyndrome (pos : Nat) (val : Byte) : Nat := pos * 256 + val.toNat

/-- The pair that captures the address of a memory error beside `PAGE_ERR_FIRST` (05 R140, 06 R175), on pages that have
one. -/
def errAddrFields (t : PType) : Option (Field × Field × Field) :=
  match t with
  | .nmem => some (NMEM_ERR_ADDR_LO.ADDR, NMEM_ERR_ADDR_HI.ADDR, NMEM_ERR_ADDR_HI.SRC)
  | .emc => some (EMC_ERR_ADDR_LO.ADDR, EMC_ERR_ADDR_HI.ADDR, EMC_ERR_ADDR_HI.SRC)
  | _ => none

/-- A reader reports what it found in the sector at `a` on the page that owns the sector (05 R138, R140): nothing for a
good or poisoned sector, MEM_CE for a corrected one, MEM_UE for an uncorrectable one. -/
def State.reportSector (s : State) (p : PageRef) (st : SectorState) (a src : Nat) : State :=
  let go (k : ErrKind) (code syn : Nat) : State :=
    let first := s.get p PAGE_ERR_FIRST.VALID = 0
    let s1 := s.report p k code syn a src
    match pageAt p with
    | some (t, _) =>
      match errAddrFields t with
      | some (lo, hi, sf) =>
        if first then ((s1.put p lo (a / 32)).put p hi (a / 2 ^ 32)).put p sf src else s1
      | none => s1
    | none => s1
  match st with
  | .corrected pos v => go .c 0x01 (ceSyndrome pos v)
  | .uncorrectable => go .u 0x02 0xFF00
  | _ => s

/-- Where an error stands among those that a page finds together (13 R375): kind U before C, then the lower syndrome; none for
a sector that is not reported. -/
def SectorState.errRank : SectorState → Option Nat
  | .uncorrectable => some 0
  | .corrected pos v => some (1 + ceSyndrome pos v)
  | _ => none

/-- A sector put behind those of its rank and lower. -/
def insertRanked (e : Nat × Nat) : List (Nat × Nat) → List (Nat × Nat)
  | [] => [e]
  | f :: l => if e.1 < f.1 then e :: f :: l else f :: insertRanked e l

/-- The sectors of a list that a reader reports, in the order in which a page handles errors found together (13 R375,
assumption log 68). -/
def State.errOrder (s : State) (l : List Nat) : List Nat :=
  ((l.filterMap (fun a => (s.sector a).1.errRank.map (fun r => (r, a)))).foldl (fun m e => insertRanked e m) []).map (·.2)

/-- A reader reports what it found in the sectors of a list that it reads together, each on its page. -/
def State.reportAll (s : State) (page : Nat → PageRef) (src : Nat) (l : List Nat) : State :=
  (s.errOrder l).foldl (fun s a => s.reportSector (page a) (s.sector a).1 a src) s

/-- `PAGE_ERR_ACK.FIRST`: the captured error, its count and the captured address clear in one update (02 R47, 05
R140). -/
def State.ackFirst (s : State) (p : PageRef) : State :=
  let s1 := (((s.put p PAGE_ERR_FIRST.VALID 0).put p PAGE_ERR_FIRST.CODE 0).put p PAGE_ERR_FIRST.SYNDROME 0).put p
    PAGE_ERR_NEXT.COUNT 0
  match pageAt p with
  | some (t, _) =>
    match errAddrFields t with
    | some (lo, hi, sf) => ((s1.put p lo 0).put p hi 0).put p sf 0
    | none => s1
  | none => s1

/-- One MGCLK of the idle block (assumption log 1). -/
def State.idleTick (s : State) : State := { s with mg := s.mg + 1 }

/-- What leaves the part. -/
def State.emit (s : State) (m : OutMsg) : State := { s with out := s.out ++ [m] }

/-! ## Package-reset requests and B0's control state (13) -/

def pinThermTrip : Nat := 0
def pinRstReq : Nat := 1

/-- The device asks for a package reset: the first cause is kept, each is reported (13 R386, R387). -/
def State.requestReset (s : State) (cause : Nat) : State :=
  let s1 :=
    if s.flag pgMgmt MGMT_RSTREQ.REQ then s
    else ((s.putFlag pgMgmt MGMT_RSTREQ.REQ true).put pgMgmt MGMT_RSTREQ.CAUSE cause).emit (.pin pinRstReq 0)
  s1.report pgMgmt .u 0x31 cause 0 0

/-- The page of the block that owns an item (13 R385). -/
def itemPage : B0Item → PageRef
  | .ropes => pgRope
  | .window w => pgSubw w
  | .bridge => pgHbrg
  | .bringUp => pgBoot

/-- An item that a step of B0 finds damaged (13 R385): rewritten from the other copy and reported as MEM_CE, whose address and
symbol the manual does not give (assumption log 56); with both copies damaged, a B0 state fault. -/
def State.meetCopy (s : State) (e : B0Item × Bool) : State :=
  if e.2 then s.requestReset 5
  else
    let f := s.free
    let g := f.2.free
    { g.2 with boot := { g.2.boot with damaged := g.2.boot.damaged.erase e } }.report (itemPage e.1) .c 0x01
      (f.1.toNat % 65536) (g.1.toNat + 2 ^ 32 * (f.1.toNat / 65536)) 0

/-- The items that a step uses, each found good or dealt with. -/
def State.meetCopies (s : State) (uses : B0Item → Bool) : State :=
  (s.boot.damaged.filter (fun e => uses e.1)).foldl State.meetCopy s

end Sys2Proof.Machine
end

