-- ==== Sys2Proof/Machine/Flags.lean ====
section
/-! DEFINITION. Rounding to FP32 and the bits of the arithmetic status word (03 R68, R69, R78). Real values are exact
integers in units of 2^-q. -/

namespace Sys2Proof.Machine

/-! ## The bits of ASTAT (03 R69) -/

def flagIntSat : Nat := 1
def flagFpOvf : Nat := 2
def flagNanGen : Nat := 4
def flagNanIn : Nat := 8
def flagCvtSat : Nat := 16
def flagTopkNan : Nat := 32

/-- The bits of `ASTAT` that a program may write. -/
def astatMask : Nat := 63

/-- `c` sets the flag `f`, or none. -/
def flagIf (c : Bool) (f : Nat) : Nat := if c then f else 0

/-- Sticky bits: the union of two flag words. -/
def flagOr (a b : Nat) : Nat := a ||| b

/-- The canonical NaN (03 R67, R78). -/
def canonNaN : Word := 0x7FC00000#32

/-- An infinity of FP32. -/
def inf32 (neg : Bool) : Word := if neg then 0xFF800000#32 else 0x7F800000#32

/-- A zero of FP32. -/
def zero32 (neg : Bool) : Word := if neg then 0x80000000#32 else 0#32

/-- `a / 2^s` rounded to the nearest integer, ties to even. -/
def roundShift (a s : Nat) : Nat :=
  let n := a / 2 ^ s
  let r := a % 2 ^ s
  let h := 2 ^ s
  if 2 * r > h then n + 1 else if 2 * r = h then n + n % 2 else n

/-- A positive value `a` in units of 2^-q rounded, ties to even, to a format with `m` mantissa bits whose smallest
exponent of a unit in the last place is -`emin`: the encoding without sign, running on past the largest finite one
where the value is larger. -/
def roundMag (q m emin a : Nat) : Nat :=
  if a = 0 then 0
  else
    let l := a.log2
    -- exponent of the unit in the last place, plus `emin`: max(l - q - m, -emin) + emin
    let u := l + emin - (q + m)
    -- the value in units of 2^(u - emin)
    let n := if u + q < emin then a * 2 ^ (emin - u - q) else roundShift a (u + q - emin)
    u * 2 ^ m + n

/-- An exact value `v` in units of 2^-q rounded to FP32, ties to even; a result below 2^-126 becomes the zero of its
sign (03 R68, R78). The Bool tells that the rounded value became infinite. `negZero` is the sign of an exact zero. -/
def round32 (q : Nat) (negZero : Bool) (v : Int) : Word × Bool :=
  if v = 0 then (zero32 negZero, false)
  else
    let c := roundMag q 23 149 v.natAbs
    let neg := decide (v < 0)
    if c ≥ 0x7F800000 then (inf32 neg, true)
    else if c < 0x00800000 then (zero32 neg, false)
    else (BitVec.ofNat 32 (c + if neg then 0x80000000 else 0), false)

/-- A sum saturated to the range of INT32, and whether it saturated (03 R65). -/
def saturate32 (v : Int) : Word × Bool :=
  if v > 0x7FFFFFFF then (0x7FFFFFFF#32, true)
  else if v < -0x80000000 then (0x80000000#32, true)
  else (BitVec.ofInt 32 v, false)

end Sys2Proof.Machine
end

