-- ==== Sys2Proof/Machine/Operands.lean ====
section
/-! DEFINITION. Operand forms: the number formats and their packing (03 R51 to R54), the values of elements and of FP32
words, the encodings of narrow results (03 R80, R81), and the register operands of a tile's slots (04 R95, R99, R100). -/

namespace Sys2Proof.Machine

/-! ## Values. A finite magnitude is an integer in units of 2^-200. -/

/-- The value of a floating element: NaN, an infinity, or a finite value with its sign and magnitude. -/
inductive FV where
  | nan
  | inf (neg : Bool)
  | fin (neg : Bool) (m : Nat)
  deriving DecidableEq, Repr

/-- The signed integer of a finite value. -/
def signed (neg : Bool) (m : Nat) : Int := if neg then -(m : Int) else m

/-- A two's complement number of `w` bits. -/
def twos (w raw : Nat) : Int := if raw % 2 ^ w < 2 ^ (w - 1) then (raw % 2 ^ w : Nat) else (raw % 2 ^ w : Nat) - 2 ^ w

/-- A finite encoding with `e` exponent bits, `m` mantissa bits and a bias (03 R52), in units of 2^-200. -/
def finiteMag (e m bias raw : Nat) : Nat :=
  let x := raw / 2 ^ m % 2 ^ e
  let f := raw % 2 ^ m
  if x = 0 then f * 2 ^ (201 - bias - m) else (2 ^ m + f) * 2 ^ (200 + x - bias - m)

/-- The format codes (03 R51). -/
def fmtInt8 : Nat := 0x0
def fmtInt4 : Nat := 0x1
def fmtE4M3 : Nat := 0x2
def fmtE5M2 : Nat := 0x3
def fmtMxInt8 : Nat := 0x4
def fmtMxE4M3 : Nat := 0x5
def fmtMxE5M2 : Nat := 0x6
def fmtMxE2M3 : Nat := 0x7
def fmtMxE3M2 : Nat := 0x8
def fmtMxE2M1 : Nat := 0x9
def fmtFp16 : Nat := 0xA
def fmtBf16 : Nat := 0xB
def fmtBin : Nat := 0xC

/-- The class of a format code; none for the reserved codes (03 R51). -/
def fmtClass (f : Nat) : Option ArrClass :=
  if f ≤ 1 then some .i else if f ≤ 9 then some .f else if f ≤ 0xB then some .h else if f = 0xC then some .b else none

/-- The element width of a format code, in bits (03 R51). -/
def fmtWidth (f : Nat) : Nat :=
  match f with
  | 0x1 | 0x9 => 4
  | 0x7 | 0x8 => 6
  | 0xA | 0xB => 16
  | 0xC => 1
  | _ => 8

/-- Whether a format has block scales (03 R51). -/
def fmtScaled (f : Nat) : Bool := 4 ≤ f && f ≤ 9

/-- The value of a floating element before any block scale (03 R52). -/
def elemValue (f raw : Nat) : FV :=
  let ieee (e m bias w : Nat) : FV :=
    let neg := bit raw (w - 1)
    if raw / 2 ^ m % 2 ^ e = 2 ^ e - 1 then (if raw % 2 ^ m = 0 then .inf neg else .nan)
    else .fin neg (finiteMag e m bias raw)
  let plain (e m bias w : Nat) : FV := .fin (bit raw (w - 1)) (finiteMag e m bias raw)
  match f with
  | 0x2 | 0x5 => if raw % 128 = 127 then .nan else plain 4 3 7 8
  | 0x3 | 0x6 => ieee 5 2 15 8
  | 0x4 => let v := twos 8 raw; .fin (decide (v < 0)) (v.natAbs * 2 ^ 194)
  | 0x7 => plain 2 3 1 6
  | 0x8 => plain 3 2 3 6
  | 0x9 => plain 2 1 1 4
  | 0xA => ieee 5 10 15 16
  | _ => ieee 8 7 127 16

/-- An element's value times its block's scale (03 R54): code 0xFF is NaN, any other code multiplies by 2^(code - 127).
-/
def scaleValue (v : FV) (code : Nat) : FV :=
  if code = 255 then .nan
  else match v with
    | .fin n m => .fin n (m * 2 ^ code / 2 ^ 127)
    | v => v

/-- Element `i` of a packed operand held as one little-endian number (03 R53). -/
def unpackAt (n w i : Nat) : Nat := n / 2 ^ (w * i) % 2 ^ w

/-- The little-endian bytes of packed elements of `w` bits (03 R53). -/
def packElems (w : Nat) (l : List Nat) (bytes : Nat) : List Byte :=
  leBytes bytes (l.foldr (fun e r => e % 2 ^ w + 2 ^ w * r) 0)

/-- An FP32 word at its exact value. -/
def value32 (w : Word) : FV :=
  let n := w.toNat
  let neg := bit n 31
  if bits n 30 23 = 255 then (if n % 2 ^ 23 = 0 then .inf neg else .nan)
  else .fin neg (finiteMag 8 23 127 n)

/-- An FP32 input of the vector unit: subnormal inputs are flushed to zero of the same sign (03 R78). -/
def vecValue (w : Word) : FV :=
  if bits w.toNat 30 23 = 0 then .fin (bit w.toNat 31) 0 else value32 w

def FV.isNaN : FV → Bool
  | .nan => true
  | _ => false

def FV.isInf : FV → Bool
  | .inf _ => true
  | _ => false

/-- Order of two values that are not NaN, with -0 below +0 (03 R71, R78): whether `a` is strictly below `b`. -/
def FV.below (a b : FV) : Bool :=
  match a, b with
  | .inf true, .inf true => false
  | .inf true, _ => true
  | _, .inf true => false
  | .inf false, _ => false
  | _, .inf false => true
  | .fin na ma, .fin nb mb =>
    let x := signed na ma
    let y := signed nb mb
    decide (x < y) || (x == y && na && !nb)
  | _, _ => false

/-- Numeric equality and order, +0 and -0 equal (03 R74, R78). -/
def FV.eqNum (a b : FV) : Bool :=
  match a, b with
  | .inf x, .inf y => x == y
  | .fin na ma, .fin nb mb => signed na ma == signed nb mb
  | _, _ => false

def FV.ltNum (a b : FV) : Bool :=
  match a, b with
  | .nan, _ | _, .nan => false
  | .fin na ma, .fin nb mb => decide (signed na ma < signed nb mb)
  | a, b => FV.below a b

/-! ## Narrow results (03 R80, R81) -/

/-- The shape of a floating target: exponent bits are implied by the largest finite encoding; mantissa bits, the
exponent (negated) of the smallest unit, the largest finite encoding, the width, and whether it has infinities. -/
structure NarrowFmt where
  m : Nat
  emin : Nat
  maxCode : Nat
  width : Nat
  hasInf : Bool
  deriving DecidableEq, Repr

/-- The floating targets by format code (03 R52). -/
def narrowFmt (f : Nat) : NarrowFmt :=
  match f with
  | 0x2 | 0x5 => ⟨3, 9, 0x7E, 8, false⟩
  | 0x3 | 0x6 => ⟨2, 16, 0x7B, 8, true⟩
  | 0x7 => ⟨3, 3, 0x1F, 6, false⟩
  | 0x8 => ⟨2, 4, 0x1F, 6, false⟩
  | 0x9 => ⟨1, 1, 0x7, 4, false⟩
  | 0xA => ⟨10, 24, 0x7BFF, 16, true⟩
  | _ => ⟨7, 133, 0x7F7F, 16, true⟩

/-- A finite magnitude in units of 2^-q rounded to a floating target, clamped to its largest finite value: the encoding
without sign, and whether it was clamped. DEDUCED (assumption log 63): whether it lies beyond the largest finite magnitude
(03 R80) is judged after rounding. -/
def narrowMag (t : NarrowFmt) (q a : Nat) : Nat × Bool :=
  let c := roundMag q t.m t.emin a
  if c > t.maxCode then (t.maxCode, true) else (c, false)

/-- A NaN encoding of a floating target, its sign and payload taken from a free value: the manual names no NaN encoding
for narrow results (assumption log 6). -/
def narrowNaN (f : Nat) (free : Nat) : Nat :=
  match f with
  | 0x2 => 0x7F + 0x80 * (free % 2)
  | 0x3 => 0x7D + free / 2 % 3 + 0x80 * (free % 2)
  | 0xA => 0x7C01 + free / 2 % 1023 + 0x8000 * (free % 2)
  | _ => 0x7F81 + free / 2 % 127 + 0x8000 * (free % 2)

/-- FP32 to a narrow floating format (03 R80): the encoding and the flags. -/
def toNarrow (f : Nat) (sat : Bool) (free : Nat) (v : FV) : Nat × Nat :=
  let t := narrowFmt f
  let sign (neg : Bool) : Nat := if neg then 2 ^ (t.width - 1) else 0
  match v with
  | .nan => (narrowNaN f free, flagNanIn)
  | .inf neg =>
    if sat then (t.maxCode + sign neg, flagCvtSat)
    else if t.hasInf then (t.maxCode + 1 + sign neg, 0)
    else (narrowNaN f free, flagNanGen)
  | .fin neg m =>
    let c := narrowMag t 200 m
    if c.2 = false || sat then (c.1 + sign neg, flagIf c.2 flagCvtSat)
    else if t.hasInf then (t.maxCode + 1 + sign neg, flagCvtSat)
    else (narrowNaN f free, flagOr flagCvtSat flagNanGen)

/-- A finite value in units of 2^-q rounded to an integer, ties to even. -/
def roundInt (q : Nat) (neg : Bool) (a : Nat) : Int := signed neg (roundShift a q)

/-- A clamp to a range, and whether it changed the value. -/
def clampInt (lo hi v : Int) : Int × Bool := if v < lo then (lo, true) else if v > hi then (hi, true) else (v, false)

/-- The encoding of an integer in `w` bits. -/
def ofInt (w : Nat) (v : Int) : Nat := (v % (2 ^ w : Int)).toNat

/-- FP32 to INT8 or INT4 (03 R80): always saturating, NaN to 0. -/
def toNarrowInt (w : Nat) (v : FV) : Nat × Nat :=
  let hi : Int := 2 ^ (w - 1) - 1
  match v with
  | .nan => (0, flagNanIn)
  | .inf neg => (ofInt w (if neg then -hi - 1 else hi), flagCvtSat)
  | .fin neg m =>
    let c := clampInt (-hi - 1) hi (roundInt 200 neg m)
    (ofInt w c.1, flagIf c.2 flagCvtSat)

/-- The formats that `VCVT` takes (03 R80): INT8, INT4, FP8, FP16 and BF16. -/
def vcvtFormat (f : Nat) : Bool := f ≤ 3 || f = 0xA || f = 0xB

/-! ## Register operands of a tile -/

/-- Integer register x[i]; x0 reads zero (04 R88). -/
def Tile.xr (u : Tile) (i : Nat) : Word := if i = 0 then 0 else mapGet 0 u.x i

/-- Writing x[i]; a write to x0 changes nothing (04 R88). -/
def Tile.setX (u : Tile) (i : Nat) (v : Word) : Tile := if i = 0 then u else { u with x := mapSet 0 u.x i v }

/-- The SRAM address x[r] + 32 IMM of a load/store operation (04 R95), as a 32-bit sum. -/
def Tile.sramAddr (u : Tile) (r : BitVec 5) (imm : BitVec 8) : Nat :=
  (u.xr r.toNat + BitVec.ofNat 32 (32 * imm.toNat)).toNat

/-- The package address x[B] + 2^32 x[B+1][15:0] (04 R95). -/
def Tile.pkgAddr (u : Tile) (b : BitVec 5) : Nat :=
  (u.xr b.toNat).toNat + 2 ^ 32 * ((u.xr (b.toNat + 1)).toNat % 65536)

/-- Lane `l` of V[r]. -/
def Tile.vec (u : Tile) (r l : Nat) : Word := mapGet 0 u.v (64 * r + l)

/-- The 64 lanes of V[r]. -/
def Tile.vecAll (u : Tile) (r : Nat) : List Word := (List.range 64).map (u.vec r)

/-- Accumulator q of lane `l`. -/
def Tile.accum (u : Tile) (q l : Nat) : Word := mapGet 0 u.acc (64 * q + l)

/-- Mask register M[i]. -/
def Tile.mask (u : Tile) (i : Nat) : BitVec 64 := mapGet 0 u.masks i

/-- Whether lane `l` is active: `MEN` 0, or the lane's bit of M[MSK] is 1 (04 R100). -/
def Tile.active (u : Tile) (o : VecOp) (l : Nat) : Bool := !o.men || (u.mask o.msk.toNat).getLsbD l

/-- Operand b of lane `l`: V[VB], or x[VB] broadcast with `XB` 1 (04 R100). -/
def Tile.opB (u : Tile) (o : VecOp) (l : Nat) : Word := if o.xb then u.xr o.vb.toNat else u.vec o.vb.toNat l

/-- V[r] with its active lanes written and the others left (04 R100). -/
def Tile.setVec (u : Tile) (o : VecOp) (r : Nat) (l : List Word) : Tile :=
  { u with v := (List.range 64).foldl (fun m i =>
      if u.active o i then mapSet 0 m (64 * r + i) (l.getD i 0) else m) u.v }

/-- Aq of all lanes, the active ones written. -/
def Tile.setAcc (u : Tile) (o : VecOp) (q : Nat) (l : List Word) : Tile :=
  { u with acc := (List.range 64).foldl (fun m i =>
      if u.active o i then mapSet 0 m (64 * q + i) (l.getD i 0) else m) u.acc }

/-- Setting sticky bits of `ASTAT` (03 R69). -/
def Tile.raise (u : Tile) (f : Nat) : Tile := { u with astat := flagOr u.astat f }

/-! ## The slot words of operations, for `mtval` of a trap (04 R103) -/

/-- A load/store slot word (04 R95). -/
def lsWord (lop : Nat) (o : LsOp) : Word :=
  BitVec.ofNat 32 (lop * 2 ^ 28 + o.a.toNat * 2 ^ 23 + o.b.toNat * 2 ^ 18 + o.n.toNat * 2 ^ 8 + o.imm.toNat)

/-- A vector slot word (04 R100). -/
def vecWord (vop : Nat) (o : VecOp) : Word :=
  BitVec.ofNat 32 (vop * 2 ^ 26 + o.vd.toNat * 2 ^ 21 + o.va.toNat * 2 ^ 16 + o.vb.toNat * 2 ^ 11 + o.vc.toNat * 2 ^ 6
    + b2n o.men * 32 + o.msk.toNat * 4 + b2n o.xb * 2 + b2n o.sat)

/-- An `AMAC` or `ADIST` slot word (04 R99). -/
def arrWord (aop : Nat) (o : ArrOp) : Word :=
  BitVec.ofNat 32 (aop * 2 ^ 28 + o.q.toNat * 2 ^ 23 + o.plane.toNat * 2 ^ 22 + o.rs1.toNat * 2 ^ 17
    + (if aop = 1 then o.rs2.toNat * 2 ^ 12 else o.fn.toNat * 2 ^ 14) + o.fmtx.toNat * 2 ^ 8 + o.fmtw.toNat * 2 ^ 4
    + b2n o.selx * 8 + b2n o.selw * 4 + b2n o.ow * 2)

/-- An `APLD` slot word (04 R99). -/
def planeWord (o : PlaneOp) : Word :=
  BitVec.ofNat 32 (3 * 2 ^ 28 + o.plane.toNat * 2 ^ 22 + o.rs1.toNat * 2 ^ 17 + o.rs2.toNat * 2 ^ 12
    + b2n o.src * 2 ^ 11 + b2n o.sc * 2 ^ 10)

end Sys2Proof.Machine
end

