-- ==== Sys2Proof/Machine/TileOps.lean ====
section
/-! DEFINITION. What every operation of a tile shares: when a tile issues, traps (04 R102 to R104), tile SRAM reads as
tile data loads with their zeros and taint (13 R370 to R372), and SRAM writes. -/

namespace Sys2Proof.Machine

/-- The values of `TILE_STAT.RUN` (04 R105). -/
def runIdle : Nat := 0
def runRunning : Nat := 1
def runHalted : Nat := 2
def runDouble : Nat := 3
def runFenced : Nat := 4

def State.tileRun (s : State) (t : Nat) : Nat := s.get (pgTile t) TILE_STAT.RUN

/-- A power domain's state on its page: 0 on, 1 retention, 2 off, 3 in transition (02 R39). -/
def State.pwrState (s : State) (p : PageRef) : Nat := s.get p PAGE_PWR.STATE

/-- Whether the four layer quarters above a tile are on (14 R398): quarter q of layer m of Cn is shown by
`PWR_NMQ_STAT` of its base die, two bits per quarter, number 4 m + q. -/
def State.quartersOn (s : State) (t : Nat) : Bool :=
  let n := t / 144
  let q := t % 144 / 36
  (List.range 4).all (fun m => s.get (pgPwr (n / 3)) ((PWR_NMQ_STAT.Q.at (n % 3)).sub (4 * m + q)) == 0)

/-- Whether a tile may issue: it runs, it and its quarters are on, no taint notice is outstanding (13 R372), no `FENCE.T`
waits (04 R94), no call of the attention kernel is under way (10 R303), neither a halt nor a fence is under way, and no coolant shutdown or
trip has stopped issue (15 R418, R419). Issue-stride gating is timing (assumption log 7). -/
def State.issues (s : State) (t : Nat) : Bool :=
  let u := s.tile t
  s.tileRun t == runRunning && s.pwrState (pgTile t) == 0 && s.quartersOn t && u.taintWait.isEmpty
    && u.fenceWait.isNone && !u.inKernel && !u.halting && u.fenceDue == 0 && s.get pgThrm THRM_STAT.COOL != 3
    && !s.flag pgThrm THRM_STAT.TRIP

/-- Causes of traps (04 R103). -/
def causeInstrMisaligned : Nat := 0
def causeInstrAccess : Nat := 1
def causeIllegal : Nat := 2
def causeBreakpoint : Nat := 3
def causeLoadMisaligned : Nat := 4
def causeLoadAccess : Nat := 5
def causeStoreMisaligned : Nat := 6
def causeStoreAccess : Nat := 7
def causeEcall : Nat := 11
def causeFetchUE : Nat := 24
def causeScratchParity : Nat := 25
def causeTransferFault : Nat := 26

/-- CSR numbers that the trap machinery uses. -/
def csrMstatus : Nat := 0x300
def csrMtvec : Nat := 0x305
def csrMepc : Nat := 0x341
def csrMcause : Nat := 0x342
def csrMtval : Nat := 0x343

def Tile.csrGet (u : Tile) (n : Nat) : Word := mapGet 0 u.csr n
def Tile.csrSet (u : Tile) (n : Nat) (v : Word) : Tile := { u with csr := mapSet 0 u.csr n v }

/-- `mstatus` as a trap leaves it, `MPIE` with the old `MIE` and `MIE` clear, and as `MRET` leaves it, `MIE` with `MPIE` and
`MPIE` set (the standard machine-mode CSRs of 04 R90; assumption log 69). -/
def trapStatus (m : Word) : Word := (m <<< 4) &&& 0x80#32
def mretStatus (m : Word) : Word := ((m >>> 4) &&& 0x8#32) ||| 0x80#32

/-- Taking a trap (04 R102 to R104): outside a handler, `mepc`, `mcause` and `mtval` are written, the mode is saved in
`TMODE.PBM`, `mstatus` is stacked, `INTRAP` is set and the core goes to `mtvec` in scalar mode. Inside one, the tile halts with `RUN` 3; the
causes 24 and 25 then fence it (13 R381, R382). -/
def State.trap (s : State) (t cause : Nat) (mtval : Word) : State :=
  let u := s.tile t
  let s1 := s.put (pgTile t) TILE_STAT.CAUSE cause
  if u.intrap then
    let s2 := ((s1.put (pgTile t) TILE_STAT.RUN runDouble).put (pgTile t) TILE_PC.PC u.pc).report (pgTile t) .u 0x06
      cause 0 0
    if cause = causeFetchUE ∨ cause = causeScratchParity then s2.modTile t (fun u => { u with fenceDue := 1 }) else s2
  else
    let w := ((u.csrSet csrMepc (BitVec.ofNat 32 u.pc)).csrSet csrMcause (BitVec.ofNat 32 cause)).csrSet csrMtval mtval
    s1.setTile t { w.csrSet csrMstatus (trapStatus (u.csrGet csrMstatus)) with
      pbm := u.bmode, intrap := true, bmode := false, pc := (u.csrGet csrMtvec).toNat / 4 * 4 }

/-- Size of tile SRAM (04 R89). -/
def sramSize : Nat := 0x200000

/-- The package address of SRAM offset `o` of a tile; an unassigned position runs no program and has no window (01 R16,
R17). -/
def State.sramAt (s : State) (t o : Nat) : Nat := sramBase ((s.logicalOf t).getD 0) + o

/-- A tile data load delivers zeros (13 R371, R372): ZERO_LOAD is reported and counted on the TILE page; with
`TROPE.VALID` 1 in `tr`, the value at the load's issue, a taint notice goes to the rope logic and the tile waits for it;
otherwise the load counts in `TILE_NOROPE_CNT`. -/
def State.zeroLoad (s : State) (t : Nat) (tr : Word) : State :=
  let valid := bit tr.toNat 31
  let rope := tr.toNat % 4096
  let s1 := (s.report (pgTile t) .u 0x05 (b2n valid * 32768 + rope) 0 0).count (pgTile t) TILE_ZERO_CNT.COUNT 1
  if valid then s1.modTile t (fun u => { u with taintWait := u.taintWait ++ [rope] })
  else s1.count (pgTile t) TILE_NOROPE_CNT.COUNT 1

/-- The sectors a read touches, reported on `page`; the bytes delivered; whether any was damaged and whether any was
uncorrectable. `src` is the reader's kind. -/
def State.readSectors (s : State) (page : Nat → PageRef) (src a n : Nat) : State × List Byte × Bool × Bool :=
  let l := sectorsOf a n
  let ds := l.map (fun x => s.sector x)
  (s.reportAll page src l, slice (ds.flatMap (fun d => if d.1.damaged then List.replicate 32 0 else d.2)) (a % 32) n,
    ds.any (fun d => d.1.damaged), ds.any (fun d => d.1 == .uncorrectable))

/-- The tile data loads of a range that deliver zeros: one for each damaged sector (13 R370, R371). -/
def State.zeroLoads (s : State) (t : Nat) (tr : Word) (a n : Nat) : State :=
  ((sectorsOf a n).filter (fun x => (s.sector x).1.damaged)).foldl (fun s _ => s.zeroLoad t tr) s

/-- A tile data load of `n` bytes at SRAM offset `o` (13 R370 to R372): bytes of damaged sectors come as zeros; corrected
and uncorrectable sectors count on the TILE page; an uncorrectable sector met inside a trap handler calls for a fence (13
R381). -/
def State.tileLoad (s : State) (t o n : Nat) : State × List Byte :=
  let r := s.readSectors (fun _ => pgTile t) 0 (s.sramAt t o) n
  let s1 := r.1.zeroLoads t (s.tile t).trope (s.sramAt t o) n
  let s2 := if r.2.2.2 && (s.tile t).intrap then s1.modTile t (fun u => { u with fenceDue := 2 }) else s1
  (s2, r.2.1)

/-- A store of whole sectors to tile SRAM. -/
def State.tileStore (s : State) (t o : Nat) (d : List Byte) : State := s.putBytes (s.sramAt t o) d

/-- Whether `n` bytes at an offset leave tile SRAM. -/
def leavesSram (o n : Nat) : Bool := o + n > sramSize

/-- A meaning that acts only while the tile issues. -/
def State.whenIssues (s : State) (t : Nat) (f : State → State) : State := if s.issues t then f s else s

end Sys2Proof.Machine
end

