-- ==== Sys2Proof/Machine/Array.lean ====
section
/-! DEFINITION. The tree array: legality of operations (03 R58 to R60, R70 to R72), dot products and distances (03 R65 to
R71), results at the end of the pipeline (03 R61), plane loads (03 R64), the activity ramp (03 R82 to R84). -/

namespace Sys2Proof.Machine

/-! ## Legality -/

/-- K, the element pairs of one operation (03 R58), for two formats of one class. -/
def arrK (fx fw : Nat) : Nat :=
  if fx = fmtBin then 512
  else if fmtWidth fx = 16 ∨ fmtWidth fw = 16 then 32
  else if fmtWidth fx = 4 ∧ fmtWidth fw = 4 then 128
  else 64

/-- Whether `SEL` 1 is allowed for an operand (03 R59). -/
def selAllowed (f k : Nat) : Bool := fmtWidth f == 4 && k == 64

/-- Whether two operands break R59 or R60: a reserved code, different classes, or a `SEL` that must be 0. -/
def arrIllegal (o : ArrOp) : Bool :=
  let fx := o.fmtx.toNat
  let fw := o.fmtw.toNat
  match fmtClass fx, fmtClass fw with
  | some cx, some cw =>
    cx != cw || (o.selx && !selAllowed fx (arrK fx fw)) || (o.selw && !selAllowed fw (arrK fx fw))
  | _, _ => true

/-- Formats that L1, L2SQ, MAXP and MINP accept (03 R71). -/
def distFormat (f : Nat) : Bool := f ≤ 3 || f = 0xA || f = 0xB

/-- Whether a licence feature is installed (17 R461). -/
def State.licensed (s : State) (feature : Nat) : Bool := bit (s.get pgIdnt IDNT_FEATURES.FEAT) feature

def featDist : Nat := 3

/-- Whether an `AMAC` is illegal (03 R60): class B is allowed only with the Hamming distance. -/
def amacIllegal (o : ArrOp) : Bool := arrIllegal o || o.fmtx.toNat == fmtBin

/-- Whether an `ADIST` is illegal (03 R70 to R72). -/
def State.adistIllegal (s : State) (o : ArrOp) : Bool :=
  !s.licensed featDist || 5 ≤ o.fn.toNat || arrIllegal o
    || (if o.fn.toNat = 2 then o.fmtx.toNat != fmtBin
        else !distFormat o.fmtx.toNat || !distFormat o.fmtw.toNat)

/-- The trap of a misaligned or outlying SRAM read: cause 4 before cause 5 (04 R103). -/
def readTrap (a align n : Nat) : Option (Nat × Word) :=
  if a % align ≠ 0 then some (causeLoadMisaligned, BitVec.ofNat 32 a)
  else if leavesSram a n then some (causeLoadAccess, BitVec.ofNat 32 a)
  else none

/-- Bytes of input scales an operand reads: one per block, four where a row holds 128 elements (03 R54, R58). -/
def scaleBytes (f : Nat) : Nat := if fmtWidth f = 4 then 4 else 2

/-- The trap of an `AMAC` at issue (03 R60, 04 R99). DEDUCED (assumption log 10): where the input format has no scales,
x[RS2] is not read, and its alignment traps nothing. -/
def Tile.amacTrap (u : Tile) (o : ArrOp) : Option (Nat × Word) :=
  if amacIllegal o then some (causeIllegal, arrWord 1 o)
  else match readTrap (u.xr o.rs1.toNat).toNat 64 64 with
    | some e => some e
    | none => if fmtScaled o.fmtx.toNat then readTrap (u.xr o.rs2.toNat).toNat 4 (scaleBytes o.fmtx.toNat) else none

/-- The trap of an `ADIST` at issue (03 R72, 04 R99). -/
def State.adistTrap (s : State) (u : Tile) (o : ArrOp) : Option (Nat × Word) :=
  if s.adistIllegal o then some (causeIllegal, arrWord 2 o) else readTrap (u.xr o.rs1.toNat).toNat 64 64

/-! ## Operands -/

/-- Byte `i` of plane P: the image at 0 to 4,095, the scale image from 4,096 on (03 R55). -/
def Tile.planeByte (u : Tile) (p i : Nat) : Byte := mapGet 0 u.planes (4352 * p + i)

/-- Row `l` of plane P as one little-endian number (03 R55). -/
def Tile.planeRow (u : Tile) (p l : Nat) : Nat := leNat ((List.range 64).map (fun i => u.planeByte p (64 * l + i)))

/-- The first element an operand takes: with `SEL` 1, element 64 (03 R59). -/
def selBase (sel : Bool) : Nat := if sel then 64 else 0

/-- The floating elements of an operand held as one number, with its scale bytes (03 R54). -/
def floatElems (f k : Nat) (sel : Bool) (n : Nat) (scales : Nat → Nat) : List FV :=
  (List.range k).map (fun i =>
    let e := selBase sel + i
    let v := elemValue f (unpackAt n (fmtWidth f) e)
    if fmtScaled f then scaleValue v (scales (e / 32)) else v)

/-- The integer elements of an operand (03 R52). -/
def intElems (f k : Nat) (sel : Bool) (n : Nat) : List Int :=
  (List.range k).map (fun i => twos (fmtWidth f) (unpackAt n (fmtWidth f) (selBase sel + i)))

/-! ## Exact sums -/

def sumInt (l : List Int) : Int := l.foldl (· + ·) 0

/-- The sum of R66: with E the exponent of the largest term, every term is truncated toward minus infinity to a multiple
of 2^(E - 47), and the multiples are added exactly. -/
def windowSum (l : List Int) : Int :=
  let big := l.foldl (fun m t => max m t.natAbs) 0
  if big = 0 then 0
  else
    let u : Int := 2 ^ (big.log2 - 47)
    sumInt (l.map (fun t => t / u * u))

/-- The product of two elements in units of 2^-400; NaN for 0 times infinity (03 R67). -/
def mulFV (a b : FV) : Option FV :=
  match a, b with
  | .nan, _ | _, .nan => some .nan
  | .inf x, .inf y => some (.inf (x != y))
  | .inf x, .fin y m | .fin y m, .inf x => if m = 0 then none else some (.inf (x != y))
  | .fin x m, .fin y k => some (.fin (x != y) (m * k))

/-- The sum of two elements, in their own units; none for infinities of opposite signs. DEDUCED (assumption log 61): the
sum of two zeros of one sign keeps it, and any other exact zero is +0; 03 R71 orders -0 below +0 and does not say when a
term of MAXP or MINP is -0, nor that R68's +0 for an exact zero applies to its extreme. -/
def addFV (a b : FV) : Option FV :=
  match a, b with
  | .nan, _ | _, .nan => some .nan
  | .inf x, .inf y => if x = y then some (.inf x) else none
  | .inf x, _ => some (.inf x)
  | _, .inf y => some (.inf y)
  | .fin x m, .fin y k =>
    let v := signed x m + signed y k
    some (.fin (if v = 0 then x && y && m == 0 else decide (v < 0)) v.natAbs)

def negFV : FV → FV
  | .nan => .nan
  | .inf x => .inf (!x)
  | .fin x m => .fin (!x) m

/-- A lane's result from its terms (03 R66, R67): NaN terms, terms that are no number (0 times infinity, or infinities
of opposite signs within one term), infinities, or the window sum. -/
def lanePartial (operandNaN : Bool) (terms : List (Option FV)) : Partial :=
  if operandNaN then .nan true
  else if terms.any (·.isNone) then .nan false
  else
    let pos := terms.any (fun t => t == some (.inf false))
    let neg := terms.any (fun t => t == some (.inf true))
    if pos && neg then .nan false
    else if pos then .inf false
    else if neg then .inf true
    else .real false (windowSum (terms.map (fun t => match t with | some (.fin x m) => signed x m | _ => 0)))

/-- The greatest or least of a list of values without NaN, -0 below +0 (03 R71). -/
def extremeFV (most : Bool) : List FV → FV
  | [] => .fin false 0
  | a :: l => l.foldl (fun r b => if most then (if r.below b then b else r) else (if b.below r then b else r)) a

/-- An extreme as a lane result, in units of 2^-400. -/
def FV.asPartial : FV → Partial
  | .nan => .nan true
  | .inf x => .inf x
  | .fin x m => .real x (signed x m * 2 ^ 200)

/-- The lane result of `AMAC` (03 R65, R66). -/
def dotLane (cls : ArrClass) (xi wi : List Int) (xf wf : List FV) : Partial :=
  match cls with
  | .i => .int (sumInt (xi.zipWith (· * ·) wi))
  | _ => lanePartial (xf.any FV.isNaN || wf.any FV.isNaN) (xf.zipWith mulFV wf)

/-- The lane result of `ADIST` (03 R70, R71). -/
def distLane (fn : Nat) (cls : ArrClass) (xi wi : List Int) (xf wf : List FV) : Partial :=
  match cls with
  | .b => .int (sumInt (xi.zipWith (fun a b => if a = b then 0 else 1) wi))
  | .i =>
    match fn with
    | 0 => .int (sumInt (xi.zipWith (fun a b => ((a - b).natAbs : Int)) wi))
    | 1 => .int (sumInt (xi.zipWith (fun a b => (a - b) * (a - b)) wi))
    | 3 => .int ((xi.zipWith (· + ·) wi).foldl max (-1000))
    | _ => .int ((xi.zipWith (· + ·) wi).foldl min 1000)
  | _ =>
    let bad := xf.any FV.isNaN || wf.any FV.isNaN
    let diffs := xf.zipWith (fun a b => addFV a (negFV b)) wf
    let sums := xf.zipWith addFV wf
    match fn with
    | 0 => lanePartial bad (diffs.map (fun t => match t with
        | some (.fin _ m) => some (.fin false (m * 2 ^ 200))
        | some (.inf _) => some (.inf false)
        | t => t))
    | 1 => lanePartial bad (diffs.map (fun t => match t with
        | some (.fin _ m) => some (.fin false (m * m))
        | some (.inf _) => some (.inf false)
        | t => t))
    | _ =>
      if bad then .nan true
      else if sums.any (·.isNone) then .nan false
      else (extremeFV (fn == 3) (sums.filterMap id)).asPartial

/-- How a function's lane result meets Aq (03 R65, R66, R70). -/
def distCombine (fn : Nat) (cls : ArrClass) : ArrCombine :=
  let int := cls == .i || cls == .b
  if fn = 3 then (if int then .maxInt else .maxFloat)
  else if fn = 4 then (if int then .minInt else .minFloat)
  else if int then .addInt else .addFloat

/-! ## Results (03 R61, R65 to R67, R70) -/

/-- One lane's new Aq and the flags it sets, from its lane result and the old Aq. -/
def combineLane (c : ArrCombine) (ow : Bool) (p : Partial) (aq : Word) : Word × Nat :=
  let base := value32 aq
  match p with
  | .int v =>
    let old := aq.toInt
    match c with
    | .maxInt => ((if ow then BitVec.ofInt 32 v else BitVec.ofInt 32 (max old v)), 0)
    | .minInt => ((if ow then BitVec.ofInt 32 v else BitVec.ofInt 32 (min old v)), 0)
    | _ => let r := saturate32 (if ow then v else old + v); (r.1, flagIf r.2 flagIntSat)
  | .nan fromOperand =>
    (canonNaN, if fromOperand || (!ow && base.isNaN) then flagNanIn else flagNanGen)
  | .inf neg =>
    if !ow && base.isNaN then (canonNaN, flagNanIn)
    else match c with
      | .maxFloat => ((if ow || base.below (.inf neg) then inf32 neg else aq), 0)
      | .minFloat => ((if ow || FV.below (.inf neg) base then inf32 neg else aq), 0)
      | _ => if !ow && base == .inf (!neg) then (canonNaN, flagNanGen) else (inf32 neg, 0)
  | .real z v =>
    if !ow && base.isNaN then (canonNaN, flagNanIn)
    else match c with
      | .maxFloat =>
        let r := round32 400 z v
        ((if ow || base.below (value32 r.1) then r.1 else aq), flagIf r.2 flagFpOvf)
      | .minFloat =>
        let r := round32 400 z v
        ((if ow || (value32 r.1).below base then r.1 else aq), flagIf r.2 flagFpOvf)
      | _ =>
        match (if ow then FV.fin false 0 else base) with
        | .inf n => (inf32 n, 0)
        | .fin n m =>
          let r := round32 400 false (signed n m * 2 ^ 200 + v)
          (r.1, flagIf r.2 flagFpOvf)
        | .nan => (canonNaN, flagNanIn)

/-- Writing the result of an array operation into Aq of every lane (03 R61). -/
def Tile.writeResult (u : Tile) (f : ArrFlight) : Tile :=
  (List.range 64).foldl (fun u l =>
    let r := combineLane f.comb f.ow (f.lanes.getD l (.int 0)) (u.accum f.q l)
    { u with acc := mapSet 0 u.acc (64 * f.q + l) r.1 }.raise r.2) u

/-! ## The activity ramp (03 R82 to R84) -/

def rampOff : Nat := 0
def rampUp : Nat := 1
def rampOn : Nat := 2
def rampDown : Nat := 3

def State.arrState (s : State) (t : Nat) : Nat := s.get (pgTile t) TILE_ARR_STAT.STATE

def State.arrGroups (s : State) (t : Nat) : Nat := s.get (pgTile t) TILE_ARR_STAT.GROUPS

def State.setArr (s : State) (t st groups : Nat) : State :=
  (s.put (pgTile t) TILE_ARR_STAT.STATE st).put (pgTile t) TILE_ARR_STAT.GROUPS groups

/-- The step interval I = L / 8 of a ramp that begins now, L = 16 + 8 RAMP (03 R82, R86). -/
def State.rampInterval (s : State) (t : Nat) : Nat := 2 + s.get (pgTile t) TILE_ARR_CFG.RAMP

/-- A ramp-up begins: group 0 is gated on at once (03 R83). -/
def State.beginUp (s : State) (t : Nat) : State :=
  (s.setArr t rampUp 1).modTile t (fun u => { u with interval := s.rampInterval t, switched := 1 })

/-- A ramp-down begins: group 7 is gated off at once (03 R83). -/
def State.beginDown (s : State) (t : Nat) : State :=
  (s.setArr t rampDown 7).modTile t (fun u => { u with interval := s.rampInterval t, switched := 1, cool := false })

/-- A ramp-down reverses: the group switched off last comes on at once (03 R84). DEDUCED (assumption log 62): a reversal of
a ramp that is itself a reversal goes on until all groups are on, or off. -/
def State.reverseUp (s : State) (t : Nat) : State :=
  (s.setArr t rampUp (min 8 (s.arrGroups t + 1))).modTile t (fun u => { u with switched := 1 })

/-- A ramp-up reverses: the group switched on last goes off at once (03 R84). -/
def State.reverseDown (s : State) (t : Nat) : State :=
  (s.setArr t rampDown (s.arrGroups t - 1)).modTile t (fun u => { u with switched := 1 })

/-- An array operation reaches the array slot while the array is not ON (03 R82): a ramp begins or reverses, and the
operation waits. -/
def State.rampForOp (s : State) (t : Nat) : State :=
  if s.arrState t = rampOff then s.beginUp t
  else if s.arrState t = rampDown then s.reverseUp t
  else s

/-- `AWARM` (03 R82). -/
def State.warm (s : State) (t : Nat) : State :=
  if s.arrState t = rampOff then s.beginUp t
  else if s.arrState t = rampOn then s.modTile t (fun u => { u with idle := 0 })
  else if s.arrState t = rampDown then s.reverseUp t
  else s

/-- `ACOOL` (03 R82): in ON, the ramp-down begins after the last operation in flight has written. -/
def State.coolDown (s : State) (t : Nat) : State :=
  if s.arrState t = rampUp then s.reverseDown t
  else if s.arrState t = rampOn then
    (if (s.tile t).flight.isEmpty then s.beginDown t else s.modTile t (fun u => { u with cool := true }))
  else s

/-- One interval of a ramp ends (03 R83): the next group switches, or the ramp ends at ON or OFF. -/
def State.rampStep (s : State) (t : Nat) : State :=
  let g := s.arrGroups t
  if s.arrState t = rampUp then
    (if g < 8 then (s.setArr t rampUp (g + 1)).modTile t (fun u => { u with switched := u.switched + 1 })
     else (s.setArr t rampOn 8).modTile t (fun u => { u with idle := 0, switched := 0 }))
  else if s.arrState t = rampDown then
    (if 0 < g then (s.setArr t rampDown (g - 1)).modTile t (fun u => { u with switched := u.switched + 1 })
     else (s.setArr t rampOff 0).modTile t (fun u => { u with switched := 0 }))
  else s

/-! ## Issue -/

/-- Whether R63 holds an array operation back: a load of its plane is under way, or an operation of another class that
writes Aq is in flight. -/
def Tile.arrHeld (u : Tile) (o : ArrOp) (cls : ArrClass) : Bool :=
  u.loads.any (fun l => l.plane == o.plane.toNat) || u.flight.any (fun f => f.q == o.q.toNat && f.cls != cls)

/-- The operands of an array operation read and its lane results put in flight (03 R56, R61); the idle count returns to
zero. -/
def State.arrIssue (s : State) (t : Nat) (u : Tile) (o : ArrOp) (comb : ArrCombine)
    (lane : List Int → List Int → List FV → List FV → Partial) : State :=
  let fx := o.fmtx.toNat
  let fw := o.fmtw.toNat
  let k := arrK fx fw
  let cls := (fmtClass fx).getD .i
  let r := s.tileLoad t (u.xr o.rs1.toNat).toNat 64
  let x := leNat r.2
  let rs := if fmtScaled fx then r.1.tileLoad t (u.xr o.rs2.toNat).toNat (scaleBytes fx) else (r.1, [])
  let ints := cls == .i || cls == .b
  let xi := if cls == .b then (List.range k).map (fun i => (unpackAt x 1 i : Int))
    else if ints then intElems fx k o.selx x else []
  let xf := if ints then [] else floatElems fx k o.selx x (fun b => (rs.2.getD b 0).toNat)
  let p := o.plane.toNat
  let lanes := (List.range 64).map (fun l =>
    let w := u.planeRow p l
    let wi := if cls == .b then (List.range k).map (fun i => (unpackAt w 1 i : Int))
      else if ints then intElems fw k o.selw w else []
    let wf := if ints then [] else floatElems fw k o.selw w (fun b => (u.planeByte p (4096 + 4 * l + b)).toNat)
    lane xi wi xf wf)
  rs.1.modTile t (fun u => { u with
    idle := 0, flight := u.flight ++ [{ q := o.q.toNat, cls := cls, comb := comb, ow := o.ow, lanes := lanes }] })

/-- `AMAC` past its traps and holds (03 R65, R66). -/
def State.amacIssue (s : State) (t : Nat) (u : Tile) (o : ArrOp) : State :=
  let cls := (fmtClass o.fmtx.toNat).getD .i
  s.arrIssue t u o (if cls = .i then .addInt else .addFloat) (dotLane cls)

/-- `ADIST` past its traps and holds (03 R70). -/
def State.adistIssue (s : State) (t : Nat) (u : Tile) (o : ArrOp) : State :=
  let cls := (fmtClass o.fmtx.toNat).getD .i
  s.arrIssue t u o (distCombine o.fn.toNat cls) (distLane o.fn.toNat cls)

/-- Size of a slice (04 R96). -/
def sliceSize : Nat := 0x0C000000

/-- The trap of an `APLD` at issue (04 R99). -/
def Tile.apldTrap (u : Tile) (o : PlaneOp) : Option (Nat × Word) :=
  let a := (u.xr o.rs1.toNat).toNat
  let first : Option (Nat × Word) :=
    if a % 4096 ≠ 0 then some (causeLoadMisaligned, BitVec.ofNat 32 a)
    else if (if o.src then 4096 + a > sliceSize else leavesSram a 4096) then some (causeLoadAccess, BitVec.ofNat 32 a)
    else none
  match first with
  | some e => some e
  | none => if o.sc then readTrap (u.xr o.rs2.toNat).toNat 256 256 else none

/-- `APLD` past its traps: the load begins (03 R64). From tile SRAM its data is read at once; from the slice it is read
in the slots that the calendars grant, one 64-byte unit a slot of a bank group (05 R127): 32 slots of both for the plane,
34 with the scale image. The scale image's data comes from SRAM at x[RS2] (04 R99; assumption log 8). -/
def State.apldIssue (s : State) (t : Nat) (u : Tile) (o : PlaneOp) : State :=
  let a := (u.xr o.rs1.toNat).toNat
  let b := (u.xr o.rs2.toNat).toNat
  let r := if o.src then (s, []) else s.tileLoad t a 4096
  let rs := if o.sc then r.1.tileLoad t b 256 else (r.1, [])
  let img := memCells 0 r.2 ++ memCells 4096 rs.2
  rs.1.modTile t (fun w => { w with nextId := w.nextId + 1, loads := w.loads ++
    [{ id := w.nextId, plane := o.plane.toNat, src := o.src, sc := o.sc, base := a, scale := b,
       todo := if o.src then List.range (if o.sc then 68 else 64) else [], data := img, damaged := false, rope := u.trope }] })

/-- A plane takes a finished load: its image, and its scale image when the load carries one. -/
def Tile.takeLoad (u : Tile) (l : PlaneLoad) : Tile :=
  let base := 4352 * l.plane
  let n := if l.sc then 4352 else 4096
  { u with planes := u.planes.filter (fun e => e.1 < base) ++ l.data.map (fun e => (base + e.1, e.2))
      ++ u.planes.filter (fun e => base + n ≤ e.1) }

end Sys2Proof.Machine
end

