-- ==== Sys2Proof/Machine/Vector.lean ====
section
/-! DEFINITION. The vector unit (03 R77 to R81) and the vector slot's operands (04 R100). Each lane function gives the
result word and the flags of `ASTAT` it sets. -/

namespace Sys2Proof.Machine

/-! ## Lane arithmetic (03 R77, R78) -/

/-- Flags of an FP32 result: a NaN operand, a NaN from operands that are none, an infinity from finite operands (03
R69). -/
def resultFlags (operandNaN finite resNaN resInf : Bool) : Nat :=
  if operandNaN then flagNanIn else if resNaN then flagNanGen else flagIf (finite && resInf) flagFpOvf

/-- A value in units of 2^-q as a result word, with its flags. -/
def roundLane (q : Nat) (negZero : Bool) (v : Int) : Word × Nat :=
  let r := round32 q negZero v
  (r.1, flagIf r.2 flagFpOvf)

/-- Addition, correctly rounded (03 R77). -/
def laneAdd (a b : Word) : Word × Nat :=
  match vecValue a, vecValue b with
  | .nan, _ | _, .nan => (canonNaN, flagNanIn)
  | .inf x, .inf y => if x = y then (inf32 x, 0) else (canonNaN, flagNanGen)
  | .inf x, _ => (inf32 x, 0)
  | _, .inf y => (inf32 y, 0)
  | .fin x m, .fin y k => roundLane 200 (x && y && m == 0) (signed x m + signed y k)

/-- The sign of a word turned. -/
def flipSign (a : Word) : Word := a ^^^ 0x80000000#32

def laneSub (a b : Word) : Word × Nat := laneAdd a (flipSign b)

/-- Multiplication, correctly rounded (03 R77). -/
def laneMul (a b : Word) : Word × Nat :=
  match mulFV (vecValue a) (vecValue b) with
  | some .nan => (canonNaN, flagNanIn)
  | none => (canonNaN, flagNanGen)
  | some (.inf x) => (inf32 x, 0)
  | some (.fin x m) => roundLane 400 x (signed x m)

/-- a times b plus c with one rounding (03 R77). -/
def laneFma (a b c : Word) : Word × Nat :=
  let vc := vecValue c
  match mulFV (vecValue a) (vecValue b), vc with
  | some .nan, _ | _, .nan => (canonNaN, flagNanIn)
  | none, _ => (canonNaN, flagNanGen)
  | some (.inf x), .inf y => if x = y then (inf32 x, 0) else (canonNaN, flagNanGen)
  | some (.inf x), _ => (inf32 x, 0)
  | _, .inf y => (inf32 y, 0)
  | some (.fin x m), .fin y k => roundLane 400 (x && y && m == 0) (signed x m + signed y (k * 2 ^ 200))

/-- The word of a value the unit holds exactly: an input after the flush of R78. -/
def flush32 (a : Word) : Word :=
  match vecValue a with
  | .nan => canonNaN
  | .fin n 0 => zero32 n
  | _ => a

/-- Minimum and maximum, -0 below +0 (03 R78). -/
def laneExtreme (most : Bool) (a b : Word) : Word × Nat :=
  let x := vecValue a
  let y := vecValue b
  if x.isNaN || y.isNaN then (canonNaN, flagNanIn)
  else (flush32 (if (if most then x.below y else y.below x) then b else a), 0)

def laneMin (a b : Word) : Word × Nat := laneExtreme false a b
def laneMax (a b : Word) : Word × Nat := laneExtreme true a b

/-- Absolute value and negation: any NaN gives the canonical NaN (03 R78). -/
def laneAbs (a : Word) : Word × Nat :=
  if (vecValue a).isNaN then (canonNaN, flagNanIn) else (flush32 a &&& 0x7FFFFFFF#32, 0)

def laneNeg (a : Word) : Word × Nat :=
  if (vecValue a).isNaN then (canonNaN, flagNanIn) else (flipSign (flush32 a), 0)

/-- The comparisons of 03 R77. -/
inductive Cmp where
  | eq | lt | le
  deriving DecidableEq, Repr

/-- The mask bit of a comparison (03 R78). DESIGN CHOICE (assumption log 59): R78 gives the result of a NaN operand for
values only, so that the mask bit is then the free bit `open_`. -/
def laneCmp (c : Cmp) (open_ : Bool) (a b : Word) : Bool × Nat :=
  let x := vecValue a
  let y := vecValue b
  if x.isNaN || y.isNaN then (open_, flagNanIn)
  else ((match c with
    | .eq => x.eqNum y
    | .lt => x.ltNum y
    | .le => x.ltNum y || x.eqNum y), 0)

/-! ## The approximations (03 R79, R484) -/

/-- ln 2 in units of 2^-224. -/
def ln2Fix : Nat := 18687211020381960287278961438292188228571477255688502128730264377179

/-- e^r for 0 ≤ r < 1, r and the result in units of 2^-224, by 60 terms of the series. -/
def expSeries (r : Nat) : Nat :=
  ((List.range 60).foldl (fun (p : Nat × Nat) i =>
    let t := p.2 * r / 2 ^ 224 / (i + 1)
    (p.1 + t, t)) (2 ^ 224, 2 ^ 224)).1

/-- The lowest encoding within `k` units in the last place of the normal magnitude `m` (03 R77): the unit is that of the
correctly rounded result, and below a power of two two encodings make one unit. -/
def lowestWithin (k m : Nat) : Nat :=
  let f := m % 2 ^ 23
  if k ≤ f then m - k else m - f - 2 * (k - f)

/-- The highest one: past the next power of two one encoding makes two units. -/
def highestWithin (k m : Nat) : Nat :=
  let d := 2 ^ 23 - m % 2 ^ 23
  if k ≤ d then m + k else m + d + (k - d) / 2

/-- The value that the part returns for a correctly rounded normal result `w` (03 R77, R484): any normal number within `k`
units in the last place, chosen by `pick`, the distance in encodings plus 2 k (assumption log 60). -/
def nudge (w : Word) (k pick : Nat) : Word :=
  let m := w.toNat % 2 ^ 31
  let r := max (max 0x00800000 (lowestWithin k m)) (min (min 0x7F7FFFFF (highestWithin k m)) (m + pick - 2 * k))
  BitVec.ofNat 32 (r + if bit w.toNat 31 then 2 ^ 31 else 0)

/-- 2^n times f, f in units of 2^-224 and at least 1, correctly rounded: infinite past the range, +0 below 2^-126. -/
def roundPow (n : Int) (f : Nat) : Word × Bool :=
  if n ≥ 128 then (inf32 false, true)
  else if n < -150 then (0#32, false)
  else round32 (224 + 150) false ((f * 2 ^ (n + 150).toNat : Nat) : Int)

/-- A correctly rounded power brought to the value the part returns, with the overflow flag of R79. -/
def powResult (r : Word × Bool) (k pick : Nat) : Word × Nat :=
  if r.2 then (r.1, flagFpOvf) else if r.1 = 0#32 then (r.1, 0) else (nudge r.1 k pick, 0)

/-- 2^x for a finite x other than zero (03 R79): x = n + f with 0 ≤ f < 1. -/
def pow2Fin (neg : Bool) (m pick : Nat) : Word × Nat :=
  let v := signed neg m
  if v ≥ 128 * 2 ^ 200 then (inf32 false, flagFpOvf)
  else if v < -126 * 2 ^ 200 then (0#32, 0)
  else
    let n := v / 2 ^ 200
    let f := (v % 2 ^ 200).toNat
    powResult (roundPow n (expSeries (f * ln2Fix / 2 ^ 200))) 2 pick

/-- e^x for a finite x other than zero (03 R79): x = n ln 2 + r. -/
def expFin (neg : Bool) (m pick : Nat) : Word × Nat :=
  let v := signed neg m
  if v ≥ 128 * 2 ^ 200 then (inf32 false, flagFpOvf)
  else if v < -128 * 2 ^ 200 then (0#32, 0)
  else
    let w := v * 2 ^ 24
    let n := w / (ln2Fix : Int)
    let r := (w % (ln2Fix : Int)).toNat
    powResult (roundPow n (expSeries r)) 3 pick

/-- `VEXP2` of one lane (03 R79). -/
def laneExp2 (a : Word) : Word × Nat :=
  match vecValue a with
  | .nan => (canonNaN, flagNanIn)
  | .inf neg => (if neg then 0#32 else inf32 false, 0)
  | .fin n m => if m = 0 then (0x3F800000#32, 0) else pow2Fin n m (Config.exp2Pick a).val

/-- `VEXP` of one lane (03 R79). -/
def laneExp (a : Word) : Word × Nat :=
  match vecValue a with
  | .nan => (canonNaN, flagNanIn)
  | .inf neg => (if neg then 0#32 else inf32 false, 0)
  | .fin n m => if m = 0 then (0x3F800000#32, 0) else expFin n m (Config.expPick a).val

/-- `VRCP` of one lane (03 R79). -/
def laneRcp (a : Word) : Word × Nat :=
  match vecValue a with
  | .nan => (canonNaN, flagNanIn)
  | .inf neg => (zero32 neg, 0)
  | .fin neg m =>
    if m = 0 then (inf32 neg, flagFpOvf)
    else
      -- 1/x in units of 2^-400, with a last bit that keeps an inexact quotient off every tie
      let q := 2 ^ 600 / m * 2 + (if 2 ^ 600 % m = 0 then 0 else 1)
      let r := round32 401 neg (signed neg q)
      if r.1 = zero32 neg then (r.1, 0) else (nudge r.1 1 (Config.rcpPick a).val, 0)

/-- `VRSQRT` of one lane (03 R79). -/
def laneRsqrt (a : Word) : Word × Nat :=
  match vecValue a with
  | .nan => (canonNaN, flagNanIn)
  | .inf neg => if neg then (canonNaN, flagNanGen) else (0#32, 0)
  | .fin neg m =>
    if m = 0 then (inf32 neg, flagFpOvf)
    else if neg then (canonNaN, flagNanGen)
    else
      -- 1/sqrt(x) = sqrt(2^1000 / m) in units of 2^-400
      let d := 2 ^ 1000 / m
      let q := Nat.sqrt d
      let r := round32 401 false ((q * 2 + (if q * q = d && 2 ^ 1000 % m = 0 then 0 else 1) : Nat) : Int)
      (nudge r.1 2 (Config.rsqrtPick a).val, 0)

/-! ## Reductions (03 R78) -/

/-- One level of the pairwise tree: neighbours added. -/
def sumPairs : List Word → List Word × Nat
  | a :: b :: l =>
    let r := laneAdd a b
    let t := sumPairs l
    (r.1 :: t.1, flagOr r.2 t.2)
  | l => (l, 0)

/-- The sum of 64 lanes over the six levels of the tree (03 R78). Only the first level meets operands: a NaN that a later
level meets was counted where it came in or was made (03 R69). -/
def sumTree (l : List Word) : Word × Nat :=
  let first := sumPairs l
  let r := (List.range 5).foldl (fun (p : List Word × Nat) _ =>
    let t := sumPairs p.1
    (t.1, flagOr p.2 (t.2 - (t.2 &&& flagNanIn)))) first
  (r.1.headD 0, r.2)

def maxAll (l : List Word) : Word × Nat :=
  match l with
  | [] => (0, 0)
  | a :: l => l.foldl (fun (p : Word × Nat) b =>
      let r := laneMax p.1 b
      (r.1, flagOr p.2 r.2)) (laneMax a a)

/-! ## Conversions (03 R80, R81) -/

/-- An element of a narrow format as FP32 (03 R80). -/
def widen (f raw : Nat) : Word × Nat :=
  if f ≤ 1 then ((round32 200 false (twos (fmtWidth f) raw * 2 ^ 200)).1, 0)
  else match elemValue f raw with
    | .nan => (canonNaN, flagNanIn)
    | .inf neg => (inf32 neg, 0)
    | .fin neg m => ((round32 200 neg (signed neg m)).1, 0)

/-- The bytes of a vector register as one little-endian number. -/
def vecNat (l : List Word) : Nat := l.foldr (fun w r => w.toNat + 2 ^ 32 * r) 0

/-- The words of a byte list, 64 of them. -/
def bytesToWords (l : List Byte) : List Word := (List.range 64).map (fun i => BitVec.ofNat 32 (field l (4 * i) 4))

/-- FP32 lane to one narrow element (03 R80). -/
def narrow (f : Nat) (sat : Bool) (free : Nat) (w : Word) : Nat × Nat :=
  if f ≤ 1 then toNarrowInt (fmtWidth f) (vecValue w) else toNarrow f sat free (vecValue w)

/-- EMAX of R81. -/
def emaxOf (f : Nat) : Int :=
  match f with
  | 0x5 => 8
  | 0x6 => 15
  | 0x7 => 2
  | 0x8 => 4
  | 0x9 => 2
  | _ => 0

/-- One MX block of 32 lanes quantised (03 R81): its scale, its elements, the flags. An infinite lane makes the whole block
NaN from operands that are none (03 R69). A clamp is any clamp of R81 that changes a value, the scale exponent's included
(assumption log 9). -/
def quantBlock (f : Nat) (l : List Word) : Nat × List Nat × Nat :=
  let v := l.map vecValue
  if v.any FV.isNaN then (255, l.map (fun _ => 0), flagNanIn)
  else if v.any FV.isInf then (255, l.map (fun _ => 0), flagNanGen)
  else
    let big : Nat := v.foldl (fun a x => max a (match x with | .fin _ m => m | _ => 0)) 0
    if big = 0 then (0, l.map (fun _ => 0), 0)
    else
      let x := clampInt (-127) 127 ((big.log2 : Int) - 200 - emaxOf f)
      let q := (x.1 + 200).toNat
      let elems := v.map (fun e => match e with
        | .fin neg m =>
          if f = fmtMxInt8 then
            let c := clampInt (-128) 127 (roundInt q neg (64 * m))
            (ofInt 8 c.1, c.2)
          else
            let t := narrowFmt f
            let c := narrowMag t q m
            (c.1 + (if neg then 2 ^ (t.width - 1) else 0), c.2)
        | _ => (0, false))
      ((x.1 + 127).toNat, elems.map Prod.fst, flagIf (x.2 || elems.any Prod.snd) flagCvtSat)

/-! ## Lists of lanes -/

/-- The lanes of a result and the union of the flags of the active ones. -/
def Tile.lanes (u : Tile) (o : VecOp) (f : Nat → Word × Nat) : List Word × Nat :=
  let r := (List.range 64).map f
  (r.map Prod.fst, (List.range 64).foldl (fun a i => if u.active o i then flagOr a (r.getD i (0, 0)).2 else a) 0)

/-- Operands are read from `u`, the tile before its bundle issues (04 R92); results go to `w`. -/
def Tile.vecLanes (w u : Tile) (o : VecOp) (f : Nat → Word × Nat) : Tile :=
  let r := u.lanes o f
  (w.setVec o o.vd.toNat r.1).raise r.2

def Tile.vecUnary (w u : Tile) (o : VecOp) (f : Word → Word × Nat) : Tile :=
  w.vecLanes u o (fun l => f (u.vec o.va.toNat l))

def Tile.vecBinary (w u : Tile) (o : VecOp) (f : Word → Word → Word × Nat) : Tile :=
  w.vecLanes u o (fun l => f (u.vec o.va.toNat l) (u.opB o l))

/-- `VCMP` into M[VD[2:0]]; lanes that `MEN` leaves out keep their bit (04 R100). `fresh` numbers the free bits of NaN
operands. -/
def Tile.vecCompare (w u : Tile) (o : VecOp) (c : Cmp) (fresh : Nat) : Tile :=
  let d := o.vd.toNat % 8
  let r := (List.range 64).map (fun l =>
    laneCmp c ((Config.freeValue (fresh + l)).getLsbD 0) (u.vec o.va.toNat l) (u.opB o l))
  let n := (List.range 64).foldl (fun a l =>
    a + (if (if u.active o l then (r.getD l (false, 0)).1 else (w.mask d).getLsbD l) then 2 ^ l else 0)) 0
  let fl := (List.range 64).foldl (fun a l => if u.active o l then flagOr a (r.getD l (false, 0)).2 else a) 0
  { w with masks := mapSet 0 w.masks d (BitVec.ofNat 64 n) }.raise fl

/-- A reduction: lane 0 takes it, the other lanes 0 (04 R100). -/
def Tile.vecReduce (w u : Tile) (o : VecOp) (f : List Word → Word × Nat) : Tile :=
  let r := f (u.vecAll o.va.toNat)
  (w.setVec o o.vd.toNat (r.1 :: List.replicate 63 0)).raise r.2

/-- `VACC` and `VTOA` (03 R77). -/
def Tile.vecAcc (w u : Tile) (o : VecOp) : Tile :=
  w.setVec o o.vd.toNat ((List.range 64).map (u.accum o.va.toNat))

def Tile.accVec (w u : Tile) (o : VecOp) : Tile := w.setAcc o o.vd.toNat (u.vecAll o.va.toNat)

/-- `VCVT` (03 R80): VC[3:0] format, VC[4] 0 to FP32 and 1 from FP32. `fresh` numbers the free values of
NaN results. -/
def Tile.vecCvt (w u : Tile) (o : VecOp) (fresh : Nat) : Tile :=
  let f := o.vc.toNat % 16
  if o.vc.toNat < 16 then
    let n := vecNat (u.vecAll o.va.toNat)
    w.vecLanes u o (fun l => widen f (unpackAt n (fmtWidth f) l))
  else
    let r := (List.range 64).map (fun l =>
      narrow f o.sat (Config.freeValue (fresh + l)).toNat (u.vec o.va.toNat l))
    let ws := bytesToWords (packElems (fmtWidth f) (r.map Prod.fst) 256)
    (w.setVec o o.vd.toNat ws).raise (r.foldl (fun a e => flagOr a e.2) 0)

/-- `VCVT` with an INT32 source (03 R80). -/
def Tile.vecCvtInt (w u : Tile) (o : VecOp) : Tile :=
  w.vecLanes u o (fun l => ((round32 200 false ((u.vec o.va.toNat l).toInt * 2 ^ 200)).1, 0))

/-- Words whose bytes from byte `n` on are free values from number `fresh` on. -/
def openAfter (n fresh : Nat) (l : List Word) : List Word :=
  (List.range 64).map (fun i =>
    let kept := min 4 (n - 4 * i)
    BitVec.ofNat 32 ((l.getD i 0).toNat % 2 ^ (8 * kept)
      + (Config.freeValue (fresh + i)).toNat / 2 ^ (8 * kept) * 2 ^ (8 * kept)))

/-- `VQMX` (03 R81): elements to the first bytes of V[VD], the two scales to bytes 0 and 1 of V[VB]. DESIGN CHOICE
(assumption log 9): R81 does not say what the other bytes of the two registers become, and they are free. -/
def Tile.vecQmx (w u : Tile) (o : VecOp) (fresh : Nat) : Tile :=
  let f := o.vc.toNat % 16
  let l := u.vecAll o.va.toNat
  let a := quantBlock f (l.take 32)
  let b := quantBlock f (l.drop 32)
  let ws := openAfter (8 * fmtWidth f) fresh (bytesToWords (packElems (fmtWidth f) (a.2.1 ++ b.2.1) 256))
  let sc := openAfter 2 (fresh + 64) (BitVec.ofNat 32 (a.1 + 256 * b.1) :: List.replicate 63 0)
  ((w.setVec o o.vd.toNat ws).setVec o o.vb.toNat sc).raise (flagOr a.2.2 b.2.2)

end Sys2Proof.Machine
end

