-- ==== Sys2Proof/Machine/TopK.lean ====
section
/-! DEFINITION. The top-k unit (03 R73 to R76): offers, list images, and the traps of its operations (04 R100). -/

namespace Sys2Proof.Machine

/-- The index that marks an unused entry (03 R74, R75). -/
def tkNone : Word := 0xFFFFFFFF#32

/-- Whether value `a` is strictly better than `b` under the unit's order and type (03 R74); +0 and -0 are equal. -/
def Tile.tkBetter (u : Tile) (a b : Word) : Bool :=
  if u.tkFloat then (if u.tkMax then (value32 b).ltNum (value32 a) else (value32 a).ltNum (value32 b))
  else (if u.tkMax then decide (b.toInt < a.toInt) else decide (a.toInt < b.toInt))

/-- Whether entry `a` stands before entry `b`: the better value, or of two equal values the lower index (03 R74). -/
def Tile.tkBefore (u : Tile) (a b : TkEntry) : Bool :=
  u.tkBetter a.val b.val || (!u.tkBetter b.val a.val && decide (a.idx.toNat < b.idx.toNat))

/-- A list in order with one entry put in its place. -/
def Tile.tkPlace (u : Tile) (e : TkEntry) : List TkEntry → List TkEntry
  | [] => [e]
  | a :: l => if u.tkBefore e a then e :: a :: l else a :: u.tkPlace e l

/-- One candidate offered (03 R74): discarded with index 0xFFFF_FFFF or a NaN value, which sets `TOPK_NAN`; otherwise the
list keeps the best 64. -/
def Tile.tkOffer (u : Tile) (e : TkEntry) : Tile :=
  if u.tkFloat && (value32 e.val).isNaN then u.raise flagTopkNan
  else if e.idx = tkNone then u
  else { u with tk := (u.tkPlace e u.tk).take 64 }

/-- Candidates offered in turn. -/
def Tile.tkOfferAll (u : Tile) (l : List TkEntry) : Tile := l.foldl Tile.tkOffer u

/-- The value of an unused entry of an image (03 R75). -/
def Tile.tkWorst (u : Tile) : Word :=
  if u.tkFloat then (if u.tkMax then 0xFF800000#32 else 0x7F800000#32)
  else (if u.tkMax then 0x80000000#32 else 0x7FFFFFFF#32)

/-- The list as a 512-byte image (03 R75). -/
def Tile.tkImage (u : Tile) : List Byte :=
  (List.range 64).flatMap (fun i =>
    let e := u.tk.getD i ⟨u.tkWorst, tkNone⟩
    leBytes 4 e.val.toNat ++ leBytes 4 e.idx.toNat)

/-- The entries of a 512-byte image (03 R75). -/
def tkEntries (b : List Byte) : List TkEntry :=
  (List.range 64).map (fun i => ⟨BitVec.ofNat 32 (field b (8 * i) 4), BitVec.ofNat 32 (field b (8 * i + 4) 4)⟩)

/-- `TKCLR` (03 R73): VD[0] order, 0 MIN and 1 MAX; VD[1] type, 0 INT32 and 1 FP32 (04 R100). -/
def Tile.tkClear (w : Tile) (o : VecOp) : Tile :=
  { w with tk := [], tkMax := o.vd.getLsbD 0, tkFloat := o.vd.getLsbD 1 }

/-- `TKINS` (03 R73): lanes 0 to n - 1 of V[VA], lane l with index base + l. -/
def Tile.tkInsert (w u : Tile) (o : VecOp) : Tile :=
  w.tkOfferAll ((List.range (u.xr o.vc.toNat).toNat).map (fun l =>
    ⟨u.vec o.va.toNat l, u.xr o.vb.toNat + BitVec.ofNat 32 l⟩))

/-- `TKMRG` (03 R73). -/
def State.tkMerge (s : State) (t : Nat) (u : Tile) (o : VecOp) : State :=
  let r := s.tileLoad t (u.xr o.vb.toNat).toNat 512
  r.1.modTile t (fun w => w.tkOfferAll (tkEntries r.2))

/-- `TKRD` (03 R73). -/
def State.tkRead (s : State) (t : Nat) (u : Tile) (o : VecOp) : State :=
  s.tileStore t (u.xr o.vb.toNat).toNat (s.tile t).tkImage

/-- `TKSWAP` (03 R73): the image is written first, then the list is loaded under the current order and type. -/
def State.tkSwap (s : State) (t : Nat) (u : Tile) (o : VecOp) : State :=
  let s1 := s.tileStore t (u.xr o.vb.toNat).toNat (s.tile t).tkImage
  let r := s1.tileLoad t (u.xr o.vc.toNat).toNat 512
  r.1.modTile t (fun w => { w with tk := [] }.tkOfferAll (tkEntries r.2))

/-- The trap of an SRAM address that must be a multiple of 32: illegal when it is not (04 R100), an access fault of
cause `c` where the image leaves SRAM. -/
def imageTrap (word : Word) (a c : Nat) : Option (Nat × Word) :=
  if a % 32 ≠ 0 then some (causeIllegal, word)
  else if leavesSram a 512 then some (c, BitVec.ofNat 32 a)
  else none

/-- The opcodes of the vector slot that are operations (04 R100). -/
def vecDefined (vop : Nat) : Bool :=
  vop ≤ 0x0C || (0x10 ≤ vop && vop ≤ 0x15) || vop == 0x18 || vop == 0x19 || (0x1C ≤ vop && vop ≤ 0x1E)
    || (0x20 ≤ vop && vop ≤ 0x24)

/-- The trap of a vector-slot operation at issue (04 R100). -/
def Tile.vecTrap (u : Tile) (vop : Nat) (o : VecOp) : Option (Nat × Word) :=
  let word := vecWord vop o
  let ill : Option (Nat × Word) := some (causeIllegal, word)
  if vop = 0 then none
  else if !vecDefined vop then ill
  else if o.sat && vop != 0x1C && vop != 0x1D then ill
  else if 0x20 ≤ vop && o.men then ill
  else if vop = 0x1C then (if vcvtFormat (o.vc.toNat % 16) then none else ill)
  else if vop = 0x1E then (if fmtScaled (o.vc.toNat % 16) then none else ill)
  else if vop = 0x21 then
    (let n := (u.xr o.vc.toNat).toNat
     if 1 ≤ n ∧ n ≤ 64 then none else ill)
  else if vop = 0x22 then imageTrap word (u.xr o.vb.toNat).toNat causeLoadAccess
  else if vop = 0x23 then imageTrap word (u.xr o.vb.toNat).toNat causeStoreAccess
  else if vop = 0x24 then
    (match imageTrap word (u.xr o.vb.toNat).toNat causeStoreAccess with
     | some e => some e
     | none => imageTrap word (u.xr o.vc.toNat).toNat causeLoadAccess)
  else none

/-- Whether R63 holds a vector-slot operation back: `VACC` and `VTOA` wait for every array operation in flight that
writes their accumulator. -/
def Tile.vecHeld (u : Tile) (vop : Nat) (o : VecOp) : Bool :=
  (vop == 0x18 && u.flight.any (fun f => f.q == o.va.toNat))
    || (vop == 0x19 && u.flight.any (fun f => f.q == o.vd.toNat))

/-- A vector-slot operation past its traps and holds: operands from `u`, effects on the tile in `s` (03 R73, R77, 04
R100). `VSEL` passes the bits of the lane it selects: R77 calls it exact, and neither flush nor canonical NaN of R78
applies (DEDUCED, assumption log 59). -/
def State.vecApply (s : State) (t : Nat) (u : Tile) (vop : Nat) (o : VecOp) : State :=
  let on (f : Tile → Tile) : State := s.modTile t f
  match vop with
  | 0x01 => on (fun w => w.vecBinary u o laneAdd)
  | 0x02 => on (fun w => w.vecBinary u o laneSub)
  | 0x03 => on (fun w => w.vecBinary u o laneMul)
  | 0x04 => on (fun w => w.vecLanes u o (fun l => laneFma (u.vec o.va.toNat l) (u.opB o l) (u.vec o.vc.toNat l)))
  | 0x05 => on (fun w => w.vecBinary u o laneMin)
  | 0x06 => on (fun w => w.vecBinary u o laneMax)
  | 0x07 => on (fun w => w.vecUnary u o laneAbs)
  | 0x08 => on (fun w => w.vecUnary u o laneNeg)
  | 0x09 => { on (fun w => w.vecCompare u o .eq s.fresh) with fresh := s.fresh + 64 }
  | 0x0A => { on (fun w => w.vecCompare u o .lt s.fresh) with fresh := s.fresh + 64 }
  | 0x0B => { on (fun w => w.vecCompare u o .le s.fresh) with fresh := s.fresh + 64 }
  | 0x0C => on (fun w => w.vecLanes u o (fun l =>
      (if (u.mask (o.vc.toNat % 8)).getLsbD l then u.vec o.va.toNat l else u.opB o l, 0)))
  | 0x10 => on (fun w => w.vecUnary u o laneExp2)
  | 0x11 => on (fun w => w.vecUnary u o laneExp)
  | 0x12 => on (fun w => w.vecUnary u o laneRcp)
  | 0x13 => on (fun w => w.vecUnary u o laneRsqrt)
  | 0x14 => on (fun w => w.vecReduce u o sumTree)
  | 0x15 => on (fun w => w.vecReduce u o maxAll)
  | 0x18 => on (fun w => w.vecAcc u o)
  | 0x19 => on (fun w => w.accVec u o)
  | 0x1C => { on (fun w => w.vecCvt u o s.fresh) with fresh := s.fresh + 64 }
  | 0x1D => on (fun w => w.vecCvtInt u o)
  | 0x1E => { on (fun w => w.vecQmx u o s.fresh) with fresh := s.fresh + 128 }
  | 0x20 => on (fun w => w.tkClear o)
  | 0x21 => on (fun w => w.tkInsert u o)
  | 0x22 => s.tkMerge t u o
  | 0x23 => s.tkRead t u o
  | 0x24 => s.tkSwap t u o
  | _ => s

end Sys2Proof.Machine
end

