-- ==== Sys2Proof/Machine/MemMap.lean ====
section
/-! DEFINITION. The package address map (02 R23 to R26), the places within the memories (05 R125, 06 R162), which parts
are in service (16 R446), the statuses of a range, power domains by address (14 R389), and reads of memory with the
errors they count (05 R138, 06 R175). -/

namespace Sys2Proof.Machine

/-! ## Status codes (04 R98, 05 R145, 07 R208, 12 R349) -/

def stOk : Nat := 0
def stNoTarget : Nat := 1
def stNoSlot : Nat := 2
def stDestDown : Nat := 3
def stBadCmd : Nat := 4
def stLost : Nat := 5
def stBadSize : Nat := 6
def stDataUE : Nat := 7
def stWinBusy : Nat := 8
def stHostErr : Nat := 9
def stHalted : Nat := 0x0A
def stDescUE : Nat := 0x0B
def stDisabled : Nat := 0x2B

/-! ## Addresses -/

/-- What a package address names (02 R23): the unit and the offset within it. -/
inductive Target where
  | edge (k o : Nat)
  | near (l o : Nat)
  | summit (b r o : Nat)
  | sram (l o : Nat)
  | reg (o : Nat)
  | reserved
  deriving DecidableEq, Repr

def targetOf (a : Nat) : Target :=
  if a < 0x0100_0000_0000 then .edge (a / 0x0020_0000_0000) (a % 0x0020_0000_0000)
  else if a < 0x0148_0000_0000 then
    .near ((a - 0x0100_0000_0000) / 0x0C00_0000) ((a - 0x0100_0000_0000) % 0x0C00_0000)
  else if a < 0x0180_0000_0000 then .reserved
  else if a < 0x0180_8000_0000 then
    let o := a - 0x0180_0000_0000
    if o % 0x2000_0000 < 0x1400_0000 then
      .summit (o / 0x2000_0000) (o % 0x2000_0000 / 0x0100_0000) (o % 0x0100_0000)
    else .reserved
  else if a < 0x01C0_0000_0000 then .reserved
  else if a < 0x01C0_C000_0000 then .sram ((a - 0x01C0_0000_0000) / 0x0020_0000) (a % 0x0020_0000)
  else if a < 0x01F0_0000_0000 then .reserved
  else if a < 0x01F0_4000_0000 then .reg (a - 0x01F0_0000_0000)
  else .reserved

/-- Parts of a slice offset (05 R125). -/
def nearGroup (o : Nat) : Nat := bits o 11 11
def nearLayer (o : Nat) : Nat := bits o 13 12
def nearBank (o : Nat) : Nat := bits o 16 14
def nearRow (o : Nat) : Nat := bits o 27 17

/-- The slice offset of a row of a bank (05 R125). -/
def nearOffset (row bank layer group : Nat) : Nat := 2 ^ 17 * row + 2 ^ 14 * bank + 2 ^ 12 * layer + 2 ^ 11 * group

/-- Parts of a stack offset (06 R162). -/
def edgePseudo (o : Nat) : Nat := bits o 5 5
def edgeChannel (o : Nat) : Nat := bits o 15 11
def edgeBank (o : Nat) : Nat := bits o 21 16
def edgeRow (o : Nat) : Nat := bits o 36 22

/-- The bank set of a bank (06 R164). -/
def bankSet (b : Nat) : Nat := 11 * b % 16

/-! ## Service (16 R446) -/

/-- Whether a base die receives clocks: B0 always (16 R424). -/
def State.basePresent (s : State) (b : Nat) : Bool := b == 0 || bit s.found.clocked b

/-- A seam die is in service when at least one of its links is UP (16 R446). -/
def State.seamUp (s : State) (n : Nat) : Bool :=
  (List.range 4).any (fun l => s.get (pgSeam n) (SEAM_LINK.STATE.at l) == 3)

/-- A base die other than B0 is in service when it receives clocks and a path of UP seam links joins it to B0 (16
R446). The dies on the path carry the links, so they receive clocks too. -/
def State.baseInService (s : State) (b : Nat) : Bool :=
  let p := s.basePresent
  let m0 := s.seamUp 0 && p 1
  let m2 := s.seamUp 2 && p 2
  match b with
  | 0 => true
  | 1 => p 1 && (m0 || (m2 && s.seamUp 1 && p 3 && s.seamUp 3))
  | 2 => p 2 && (m2 || (m0 && s.seamUp 3 && p 3 && s.seamUp 1))
  | _ => p 3 && ((m0 && s.seamUp 3) || (m2 && s.seamUp 1))

/-- Whether compute die `n` is present: it is on the package and its base die receives clocks (16 R446). -/
def State.diePresent (s : State) (n : Nat) : Bool := bit s.found.dies n && s.basePresent (n / 3)

/-- A compute die is in service when its base die is, and it has an enabled tile and a trained drop (16 R446). -/
def State.dieInService (s : State) (n : Nat) : Bool :=
  s.diePresent n && s.baseInService (n / 3)
    && (0 < s.get (pgTmap n) TMAP_SUMMARY.ENABLED || 0 < s.get (pgTmap n) TMAP_SUMMARY.FENCED)
    && s.get (pgCnet n) CNET_DROP_DOWN.DOWN != 0xFFFFFF

/-- The states of partition reset (07 R214). -/
def prstUp : Nat := 0
def prstDrain : Nat := 1
def prstReset : Nat := 2
def prstReleasing : Nat := 3

def State.prst (s : State) (n : Nat) : Nat := s.get (pgCdie n) CDIE_PRST_STAT.STATE

/-- Whether requests to compute die `n` are answered DEST_DOWN: partition reset (07 R215) or not in service (16
R446). -/
def State.dieDown (s : State) (n : Nat) : Bool := s.prst n != prstUp || !s.dieInService n

/-- A stack is used when all its channels passed initialisation (06 R160, R161): `ESTK_STAT.INIT` 2. -/
def State.stackUsed (s : State) (k : Nat) : Bool := s.get (pgEstk k) ESTK_STAT.INIT == 2

/-- Whether a summit region is scratchpad with no mode change under way (06 R184). -/
def State.isScratch (s : State) (b r : Nat) : Bool :=
  s.get (pgSumt b) (SUMT_REG.MODE.at r) == 0 && s.get (pgSumt b) (SUMT_REG.BUSY.at r) == 0

/-! ## Statuses of a range (02 R24 to R26, 07 R215) -/

/-- The status of one address for a memory access: holes and reserved addresses NO_TARGET, dies in partition reset or
out of service DEST_DOWN. -/
def State.addrStatus (s : State) (a : Nat) : Nat :=
  match targetOf a with
  | .edge k _ => if s.stackUsed k then stOk else stNoTarget
  | .near l _ | .sram l _ => if !s.assigned l then stNoTarget else if s.dieDown (l / 128) then stDestDown else stOk
  | .summit b r _ =>
    if !s.basePresent b || !s.isScratch b r then stNoTarget else if s.baseInService b then stOk else stDestDown
  | .reg _ | .reserved => stNoTarget

/-- The addresses at which a range of `n` bytes can enter a new unit: its start and every multiple of 2 MiB in it. -/
def probes (a n : Nat) : List Nat :=
  a :: ((List.range ((a + n - 1) / 0x20_0000 - a / 0x20_0000)).map (fun i => 0x20_0000 * (a / 0x20_0000 + 1 + i)))

/-- The status of a range for a memory access: NO_TARGET before DEST_DOWN (12 R348). -/
def State.rangeStatus (s : State) (a n : Nat) : Nat :=
  let l := (probes a n).map s.addrStatus
  if a + n > 2 ^ 48 ∨ l.contains stNoTarget then stNoTarget else if l.contains stDestDown then stDestDown else stOk

/-- Whether a range touches the register pages (02 R28). -/
def touchesRegs (a n : Nat) : Bool := a < regBase + 0x4000_0000 && regBase < a + n

/-! ## Power domains by address (14 R389) -/

/-- A power domain as a page and field that show its state: 0 on, 1 retention, 2 off, 3 in transition (14 R389). -/
def stateField : Domain → PageRef × Field
  | .tile t => (pgTile t.val, PAGE_PWR.STATE)
  | .quarter n m q => (pgPwr (n.val / 3), (PWR_NMQ_STAT.Q.at (n.val % 3)).sub (4 * m.val + q.val))
  | .summit b r =>
    (pgPwr b.val, if r.val < 16 then (PWR_SUMT_STAT.R.at 0).sub r.val else (PWR_SUMT_STAT.R.at 1).sub (r.val - 16))
  | .stack k => (pgEstk k.val, PAGE_PWR.STATE)
  | .fport i => (pgFprt i.val, PAGE_PWR.STATE)
  | .hport h => (pgHprt h.val, PAGE_PWR.STATE)

def State.domState (s : State) (d : Domain) : Nat := s.get (stateField d).1 (stateField d).2

def State.setDom (s : State) (d : Domain) (v : Nat) : State := s.put (stateField d).1 (stateField d).2 v

/-- The page that requests a domain's power state, where it has one (14 R389). -/
def reqPage : Domain → Option PageRef
  | .tile t => some (pgTile t.val)
  | .stack k => some (pgEstk k.val)
  | .fport i => some (pgFprt i.val)
  | .hport h => some (pgHprt h.val)
  | _ => none

/-- `PAGE_PWR.REQ` of a domain: AUTO where it has none. -/
def State.pwrReq (s : State) (d : Domain) : Nat :=
  match reqPage d with
  | some p => s.get p PAGE_PWR.REQ
  | none => 0

/-- The domain of an address, by a physical tile position where a tile or slice is meant. -/
def State.domainAt (s : State) (a : Nat) : Option Domain :=
  match targetOf a with
  | .edge k _ => if h : k < 8 then some (.stack ⟨k, h⟩) else none
  | .near l o =>
    match s.physOf l with
    | some t =>
      if h : t / 144 < 12 then
        if g : nearLayer o < 4 then
          if f : t % 144 / 36 < 4 then some (.quarter ⟨t / 144, h⟩ ⟨nearLayer o, g⟩ ⟨t % 144 / 36, f⟩) else none
        else none
      else none
    | none => none
  | .summit b r _ => if h : b < 4 then if g : r < 20 then some (.summit ⟨b, h⟩ ⟨r, g⟩) else none else none
  | .sram l _ =>
    match s.physOf l with
    | some t => if h : t < 1728 then some (.tile ⟨t, h⟩) else none
    | none => none
  | _ => none

/-- The domains that a range touches. A tile's window, a summit region or a stack holds one domain from probe to probe;
the four layers of a slice alternate every 4 KiB, so four pages from each probe on name all of them (05 R125). -/
def State.domainsOf (s : State) (a n : Nat) : List Domain :=
  ((probes a n).flatMap (fun p =>
    (p :: (List.range 3).map (fun i => 4096 * (p / 4096 + 1 + i))).filter (fun x => x < a + max n 1)
      |>.filterMap s.domainAt)).eraseDups

/-- Whether the coolant shutdown holds a domain off (15 R418): every domain but the host ports. -/
def State.shutDown (s : State) (d : Domain) : Bool :=
  s.get pgThrm THRM_STAT.COOL == 3 && match d with
    | .hport _ => false
    | _ => true

/-- Whether a domain is off, or on its way there. -/
def State.offward (s : State) (d : Domain) : Bool :=
  s.domState d == 2 || (s.domState d == 3 && s.moves.any (fun m => m.dom == d && m.target == 2))

/-- Whether a domain refuses requests: its `REQ` is OFF (14 R397), or the shutdown runs (15 R418), and it is off or
entering off. -/
def State.domRefuses (s : State) (d : Domain) : Bool := (s.pwrReq d == 2 || s.shutDown d) && s.offward d

/-- Whether a request to a range must wait for a domain to wake (14 R397). -/
def State.asleep (s : State) (a n : Nat) : Bool := (s.domainsOf a n).any (fun d => s.domState d != 0)

/-- Whether a request to a range is refused by a domain that is off at its host's wish (14 R397). -/
def State.rangeRefused (s : State) (a n : Nat) : Bool := (s.domainsOf a n).any s.domRefuses

/-- The compute dies that a range touches. -/
def State.diesOf (s : State) (a n : Nat) : List Nat :=
  ((probes a n).filterMap (fun x => match targetOf x with
    | .near l _ | .sram l _ => if s.assigned l then some (l / 128) else none
    | _ => none)).eraseDups

/-- A request answered DEST_DOWN counts on every die in partition reset that it touches (07 R215). -/
def State.downDrop (s : State) (a n : Nat) : State :=
  (s.diesOf a n).foldl (fun s d => if s.prst d = prstUp then s else s.count (pgCdie d) CDIE_DD_CNT.COUNT 1) s

/-! ## Readers -/

/-- The page that counts what a reader finds in a sector (05 R138, 06 R175, R183): NMEM of the layer, EMC of the stack,
SUMT of the base die, TILE of the position. -/
def State.errPage (s : State) (a : Nat) : PageRef :=
  match targetOf a with
  | .edge k _ => pgEmc k
  | .near l o => pgNmem (l / 128) (nearLayer o)
  | .summit b _ _ => pgSumt b
  | .sram l _ => pgTile ((s.physOf l).getD 0)
  | _ => pgMgmt

/-- Kinds of readers (05 R140, 06 R187). -/
def srcOwner : Nat := 0
def srcRuntime : Nat := 1
def srcEngine : Nat := 2
def srcScrubber : Nat := 3

/-- A read of `n` bytes at `a`: every sector decoded and counted, the bytes (zeros from damaged sectors), whether any
sector was damaged, and whether any was uncorrectable. -/
def State.readMem (s : State) (src a n : Nat) : State × List Byte × Bool × Bool := s.readSectors s.errPage src a n

/-- The lowest damaged sector of a range, if any. -/
def State.firstDamaged (s : State) (a n : Nat) : Option Nat := (sectorsOf a n).find? (fun x => (s.sector x).1.damaged)

end Sys2Proof.Machine
end

