-- ==== Sys2Proof/Machine/Calendars.lean ====
section
/-! DEFINITION. Calendared resources (04 R106 to R113): resource IDs, reset calendars, runs, the checks of a calendar
image, loading and switching. -/

namespace Sys2Proof.Machine

/-! ## Owner codes and resource IDs (04 R106, R107) -/

def ownROWE : Nat := 0x7F0
def ownREFR : Nat := 0x7F1
def ownIDLE : Nat := 0x7FE
def ownOPEN : Nat := 0x7FF

/-- A resource ID: die slot, kind, number. -/
def resIdOf (slot kind i : Nat) : Nat := 2 ^ 24 * slot + 2 ^ 16 * kind + i

def kindNMBG : Nat := 0x01
def kindNROW : Nat := 0x02
def kindINJ : Nat := 0x03
def kindSUMB : Nat := 0x10
def kindEMCH : Nat := 0x11
def kindEROW : Nat := 0x12

/-- Bank group g of the slice of logical index k on die n (05 R126). -/
def nmbgId (n k g : Nat) : Nat := resIdOf (0x10 + n) kindNMBG (2 * k + g)
/-- Row engine of layer m, quarter q of die n (05 R126). -/
def nrowId (n m q : Nat) : Nat := resIdOf (0x10 + n) kindNROW (4 * m + q)
/-- Drop y of die n (07 R204). -/
def injId (n y : Nat) : Nat := resIdOf (0x10 + n) kindINJ y
/-- Summit region r of base die b (06 R183). -/
def sumbId (b r : Nat) : Nat := resIdOf b kindSUMB r
/-- Channel c of stack k (06 R163). -/
def emchId (k c : Nat) : Nat := resIdOf (k / 2) kindEMCH (32 * (k % 2) + c)
/-- Row engine of channel c of stack k (06 R163). -/
def erowId (k c : Nat) : Nat := resIdOf (k / 2) kindEROW (32 * (k % 2) + c)

def resSlot (id : Nat) : Nat := id / 2 ^ 24
def resKind (id : Nat) : Nat := id / 2 ^ 16 % 256
def resInst (id : Nat) : Nat := id % 2 ^ 16

/-- The arbiter page of a die slot: base die b as b, compute die n as 4 + n (02 R49). -/
def arbOfSlot (slot : Nat) : Nat := if slot < 0x10 then slot else slot - 0x10 + 4

def slotOfArb (a : Nat) : Nat := if a < 4 then a else a - 4 + 0x10

/-- The resources of an arbiter page, in ascending order (04 R106, R113): a slice exists for each assigned logical
tile. -/
def State.resourcesOf (s : State) (a : Nat) : List Nat :=
  let slot := slotOfArb a
  if a < 4 then
    (List.range 20).map (resIdOf slot kindSUMB) ++ (List.range 64).map (resIdOf slot kindEMCH)
      ++ (List.range 64).map (resIdOf slot kindEROW)
  else
    ((List.range 128).filter (fun k => s.assigned (128 * (a - 4) + k))).flatMap
        (fun k => [resIdOf slot kindNMBG (2 * k), resIdOf slot kindNMBG (2 * k + 1)])
      ++ (List.range 16).map (resIdOf slot kindNROW) ++ (List.range 24).map (resIdOf slot kindINJ)

/-! ## Calendars -/

/-- The reset calendar of a kind (04 R113). -/
def resetCalendar (kind : Nat) : Calendar :=
  if kind = kindNMBG then [(ownREFR, 64), (ownOPEN, 4032)]
  else if kind = kindEMCH then [(ownREFR, 32), (ownOPEN, 1913)]
  else [(ownOPEN, 1)]

def State.resAt (s : State) (id : Nat) : Res := mapGet Res.init s.res id

def State.setRes (s : State) (id : Nat) (r : Res) : State := { s with res := mapSet Res.init s.res id r }

/-- The calendar in force on a resource. -/
def State.calOf (s : State) (id : Nat) : Calendar :=
  match (s.resAt id).cal with
  | [] => resetCalendar (resKind id)
  | c => c

/-- Slots of one period. -/
def Calendar.period (c : Calendar) : Nat := (c.map (·.2)).sum

/-- The owner of the slot at entry `i`. -/
def Calendar.owner : Calendar → Nat → Nat
  | [], _ => ownIDLE
  | (o, n) :: c, i => if i < n then o else Calendar.owner c (i - n)

/-- Whether an owner holds a slot. -/
def Calendar.has (c : Calendar) (o : Nat) : Bool := c.any (fun e => e.1 == o && 0 < e.2)

/-- The OPEN slots of a period (04 R120). -/
def Calendar.openCount (c : Calendar) : Nat := ((c.filter (fun e => e.1 == ownOPEN)).map (·.2)).sum

/-- The maximal runs of an owner as start and length, those at both ends of the period joined (05 R147: runs are counted
cyclically). A period of one owner alone is one run without end, given as two periods. -/
def Calendar.runs (c : Calendar) (o : Nat) : List (Nat × Nat) :=
  let p := c.period
  let step (r : List (Nat × Nat) × Nat) (e : Nat × Nat) : List (Nat × Nat) × Nat :=
    if e.1 = o then
      match r.1 with
      | (st, n) :: rest => if st + n = r.2 then ((st, n + e.2) :: rest, r.2 + e.2) else ((r.2, e.2) :: r.1, r.2 + e.2)
      | [] => ([(r.2, e.2)], r.2 + e.2)
    else (r.1, r.2 + e.2)
  let l := (c.foldl step ([], 0)).1.reverse
  match l with
  | (0, n) :: rest =>
    if n = p then [(0, 2 * p)]
    else match rest.getLast? with
      | some (st, m) => if st + m = p then rest.dropLast ++ [(st, m + n)] else l
      | none => l
  | _ => l

/-- Whether an owner has a run of at least `n` consecutive slots. -/
def Calendar.hasRun (c : Calendar) (o n : Nat) : Bool := (c.runs o).any (fun r => n ≤ r.2 || r.2 == 2 * c.period)

/-- The slots of an owner's run that remain from entry `i` on, `i` included. -/
def Calendar.left (c : Calendar) (o i : Nat) : Nat :=
  let p := c.period
  ((c.runs o).map (fun r =>
    if r.2 = 2 * p then 2 * p + 4096
    else
      let d := (i + p - r.1) % p
      if d < r.2 then r.2 - d else 0)).foldl max 0

/-- The longest distance from a slot to the next OPEN one, cyclically; 0 without OPEN slots (04 R120). -/
def Calendar.maxGap (c : Calendar) : Nat :=
  let p := c.period
  let l := c.runs ownOPEN
  if l.any (fun r => r.2 == 2 * p) then 1
  else
    let next := l.drop 1 ++ l.take 1
    let gaps := (l.zip next).map (fun e => (e.2.1 + 2 * p - (e.1.1 + e.1.2 - 1) - 1) % p + 1)
    (gaps ++ (if l.any (fun r => 1 < r.2) then [1] else [])).foldl max 0

/-- The owner codes as a list, entry by entry. -/
def Calendar.codes (c : Calendar) : List Nat := c.flatMap (fun e => List.replicate e.2 e.1)

/-- A list of codes as runs. -/
def codesToCalendar (l : List Nat) : Calendar :=
  l.foldr (fun o c => match c with
    | (q, n) :: r => if q = o then (q, n + 1) :: r else (o, 1) :: c
    | [] => [(o, 1)]) []

/-- Whether an OPEN slot at entry `i` has a further OPEN slot 12 to 44 slots after it (06 R179). -/
def Calendar.openPair (c : Calendar) (i : Nat) : Bool :=
  let p := c.period
  c.owner (i % p) == ownOPEN && (List.range 33).any (fun d => c.owner ((i + 12 + d) % p) == ownOPEN)

/-- W (06 R179): over the 16 bank sets, the longest cyclic distance from a slot to an OPEN slot that is a visit of the
set and has a further OPEN slot in its window; 0 without OPEN slots. -/
def Calendar.openWait (c : Calendar) : Nat :=
  let p := c.period
  if c.openCount = 0 then 0
  else
    let good (set : Nat) : List Nat := (List.range p).filter (fun i => c.openPair (3 * set + 48 * i))
    let gap (l : List Nat) : Nat :=
      match l with
      | [] => 0
      | a :: _ => ((l.zip (l.drop 1)).map (fun e => 48 * (e.2 - e.1))).foldl max (48 * (a + p - l.getLast?.getD a))
    ((List.range 16).map (fun set => gap (good set))).foldl max 0

/-! ## The checks of a block (04 R111, 05 R153, 06 R166, R173, R179, 07 R204) -/

/-- Whether a 12-bit owner code is reserved (04 R107). -/
def codeReserved (o : Nat) : Bool := (0x600 ≤ o && o < 0x7F0) || (0x7F2 ≤ o && o < 0x7FE) || 0x800 ≤ o

/-- Whether an owner is permitted on a resource (04 R106). -/
def State.permitted (s : State) (id o : Nat) : Bool :=
  let kind := resKind id
  let n := resSlot id - 0x10
  if o < 0x600 then
    s.assigned o && (if kind = kindNMBG then o == 128 * n + resInst id / 2
      else if kind = kindNROW ∨ kind = kindINJ then o / 128 == n
      else true)
  else if o = ownROWE ∨ o = ownREFR then kind == kindNMBG || kind == kindEMCH
  else true

/-- One resource block of an image as read (04 R110). -/
structure CalBlock where
  id : Nat
  rsv : List Byte
  entries : List Nat
  pad : List Byte
  deriving DecidableEq, Repr

/-- The tile owners that a block names. -/
def CalBlock.tiles (b : CalBlock) : List Nat := (b.entries.filter (· < 0x600)).eraseDups

/-- The reasons for which a block fails, given the page's resources and the blocks before it. -/
def State.blockErrors (s : State) (served seen : List Nat) (b : CalBlock) : List Nat :=
  let c := codesToCalendar b.entries
  let kind := resKind b.id
  let e2 := b.rsv.any (· != 0) || b.pad.any (· != 0) || b.entries.any codeReserved
  let e3 := b.entries.eraseDups.any (fun o => !codeReserved o && !s.permitted b.id o)
  let starts := ((c.runs ownREFR).filter (fun r => 32 ≤ r.2)).map (·.1)
  let far : Bool := match starts with
    | [] => true
    | a :: _ => (starts.zip (starts.drop 1)).any (fun e => 1950 < e.2 - e.1)
        || 1950 < a + c.period - starts.getLast?.getD a
  let e4 := (kind == kindNMBG && !c.hasRun ownREFR 64) || (kind == kindEMCH && far)
  let e6 := !served.contains b.id || seen.contains b.id
  let e7 := kind == kindEMCH && (c.period % 2 == 0 || c.period % 3 == 0 || 32 < b.tiles.length
    || (0 < c.openCount && !(List.range c.period).any c.openPair))
  let e8 := kind == kindINJ && 8 < b.tiles.length
  (if e2 then [2] else []) ++ (if e3 then [3] else []) ++ (if e4 then [4] else []) ++ (if e6 then [6] else [])
    ++ (if e7 then [7] else []) ++ (if e8 then [8] else [])

/-! ## Reading an image -/

/-- A read by the device itself: the bytes, or none at an address that is a hole or down, or where a sector is damaged.
Sectors are decoded and counted up to the first that stops the read. -/
def State.deviceRead (s : State) (a n : Nat) : State × Option (List Byte) :=
  if s.rangeStatus a n ≠ stOk then (s, none)
  else
    let r := s.readMem srcRuntime a n
    (r.1, if r.2.2.1 then none else some r.2.1)

/-- What reading the blocks gave: the blocks and the bytes read, or the reason it stopped. -/
inductive BlocksRead where
  | blocks (l : List CalBlock) (total : Nat)
  | stop (err : Nat)
  deriving DecidableEq, Repr

/-- The blocks of an image from address `a + off` on (04 R110, R111): reading stops at a sector that cannot be read, and
after a block whose period is outside 1 to 4,096. -/
def State.readBlocks (a : Nat) : Nat → State → Nat → List CalBlock → State × BlocksRead
  | 0, s, off, acc => (s, .blocks acc off)
  | n + 1, s, off, acc =>
    let h := s.deviceRead (a + off) 32
    match h.2 with
    | none => (h.1, .stop 5)
    | some hd =>
      let p := field hd 4 2
      if p = 0 ∨ 4096 < p then (h.1, .stop 1)
      else
        let size := 32 * ((2 * p + 31) / 32)
        let e := h.1.deviceRead (a + off + 32) size
        match e.2 with
        | none => (e.1, .stop 5)
        | some b =>
          State.readBlocks a n e.1 (off + 32 + size)
            (acc ++ [{ id := field hd 0 4, rsv := hd.drop 6, entries := (List.range p).map (fun i => field b (2 * i) 2),
                       pad := b.drop (2 * p) }])

/-- The reasons of a list of blocks. -/
def State.setErrors (s : State) (served : List Nat) : List Nat → List CalBlock → List Nat
  | _, [] => []
  | seen, b :: l => s.blockErrors served seen b ++ s.setErrors served (b.id :: seen) l

/-- A whole image read and checked (04 R111): its reason, 0 when it passes, with its generation and its blocks. -/
def State.readSet (s : State) (arb a : Nat) : State × Nat × Nat × List (Nat × Calendar) :=
  let h := s.deviceRead a 32
  match h.2 with
  | none => (h.1, 5, 0, [])
  | some hd =>
    let r := State.readBlocks a (field hd 8 4) h.1 32 []
    match r.2 with
    | .stop e => (r.1, e, 0, [])
    | .blocks l total =>
      let head := if field hd 0 4 ≠ 1 ∨ field hd 12 4 ≠ total then [1] else []
      let rsv := if (hd.drop 16).any (· != 0) then [2] else []
      let errs := head ++ rsv ++ r.1.setErrors (r.1.resourcesOf arb) [] l
      (r.1, errs.foldl (fun m e => if m = 0 ∨ e < m then e else m) 0, field hd 4 4,
        l.map (fun b => (b.id, codesToCalendar b.entries)))

/-! ## Loading and switching (04 R111, R112) -/

def State.arb (s : State) (a : Nat) : Arb := mapGet Arb.init s.arbs a

def State.setArb (s : State) (a : Nat) (x : Arb) : State := { s with arbs := mapSet Arb.init s.arbs a x }

/-- `ARB_CAL_CTRL.LOAD` (04 R111): the address is taken and reading begins; ignored while `BUSY`. -/
def State.calLoad (s : State) (a : Nat) : State :=
  if s.flag (pgArb a) ARB_CAL_STAT.BUSY then s
  else
    let x := s.getPair (pgArb a) ARB_CAL_ADDR_LO.ADDR ARB_CAL_ADDR_HI.ADDR
    (s.putFlag (pgArb a) ARB_CAL_STAT.BUSY true).setArb a { s.arb a with loading := some x }

/-- The load ends: a checked set is staged, or the staged set is discarded and the reason recorded (04 R111). -/
def State.calLoadDone (s : State) (a : Nat) : State :=
  match (s.arb a).loading with
  | none => s
  | some x =>
    let p := pgArb a
    let r := s.readSet a x
    let s1 := (r.1.putFlag p ARB_CAL_STAT.BUSY false).put p ARB_CAL_STAT.ERR r.2.1
    if r.2.1 = 0 then
      ((s1.putFlag p ARB_CAL_STAT.STAGED true).put p ARB_CAL_GEN.STAGED (r.2.2.1 % 65536)).setArb a
        { s1.arb a with loading := none, staged := some (r.2.2.1, r.2.2.2) }
    else
      (s1.putFlag p ARB_CAL_STAT.STAGED false).setArb a { s1.arb a with loading := none, staged := none }

/-- The update with which a switch ends (04 R112). -/
def State.switchEnd (s : State) (a : Nat) : State :=
  let p := pgArb a
  let gen := match (s.arb a).staged with | some (g, _) => g | none => 0
  (((s.putFlag p ARB_CAL_STAT.BUSY false).putFlag p ARB_CAL_STAT.STAGED false).put p ARB_CAL_GEN.ACTIVE
    (gen % 65536)).setArb a { s.arb a with staged := none, switching := [] }

/-- `ARB_CAL_CTRL.SWITCH` (04 R112): each listed resource takes its new calendar at its next entry 0; the resource index
follows the set from now on. A set that lists no resource has switched at once. -/
def State.calSwitch (s : State) (a : Nat) : State :=
  if s.flag (pgArb a) ARB_CAL_STAT.BUSY then s
  else match (s.arb a).staged with
    | none => s
    | some (_, blocks) =>
      let listed := blocks.map (·.1)
      let s1 := blocks.foldl (fun s b => s.setRes b.1 { s.resAt b.1 with next := some b.2 }) s
      let s2 := (s1.putFlag (pgArb a) ARB_CAL_STAT.BUSY true).setArb a
        { s1.arb a with
          order := listed ++ (s.resourcesOf a).filter (fun id => !listed.contains id), switching := listed }
      if listed.isEmpty then s2.switchEnd a else s2

/-- The resource index order of a page (04 R112, R113). -/
def State.resOrder (s : State) (a : Nat) : List Nat :=
  match (s.arb a).order with
  | [] => s.resourcesOf a
  | l => l

/-! ## What a tile's request waits for -/

/-- The drop that serves row y of die n (07 R201): y, or the nearest working drop of its quarter, the lower first. -/
def State.dropFor (s : State) (n y : Nat) : Nat :=
  let down := s.get (pgCnet n) CNET_DROP_DOWN.DOWN
  let q := y / 6
  let order := (List.range 6).flatMap (fun d => (if q * 6 + d ≤ y then [y - d] else []) ++ (if y + d < q * 6 + 6 then [y + d] else []))
  (order.find? (fun x => !bit down x)).getD y

/-- The INJ resource through which tile `t` sends off its die (07 R201, R204). -/
def State.injOf (s : State) (t : Nat) : Nat := injId (t / 144) (s.dropFor (t / 144) (t % 144 / 6))

/-- The tile whose die an address lies on, for near memory and tile SRAM. -/
def State.tileAt (s : State) (a : Nat) : Option Nat :=
  match targetOf a with
  | .near l _ | .sram l _ => s.physOf l
  | _ => none

/-- The calendared resource that serves the sector at a package address. -/
def resOfSector (a : Nat) : Option Nat :=
  match targetOf a with
  | .edge k o => some (emchId k (edgeChannel o))
  | .near l o => some (nmbgId (l / 128) (l % 128) (nearGroup o))
  | .summit b r _ => some (sumbId b r)
  | _ => none

/-- The command port of the row engine whose domain holds a package address (05 R141, 06 R176). -/
def State.portOf (s : State) (a : Nat) : Option Nat :=
  match targetOf a with
  | .near l o => (s.physOf l).map (fun t => nrowId (l / 128) (nearLayer o) (t % 144 / 36))
  | .edge k o => if s.stackUsed k then some (erowId k (edgeChannel o)) else none
  | _ => none

/-- The resources that a transfer needs once its flits have left the die. -/
def State.xferNeeds (s : State) (x : Xfer) : List Nat :=
  if x.kind = .rowc then (if x.todo.isEmpty then [] else (s.portOf x.target).toList)
  else (x.todo.filterMap resOfSector).eraseDups

/-- The resources at which a transfer of tile `t` has requests queued. -/
def State.xferRes (s : State) (t : Nat) (x : Xfer) : List Nat :=
  if 0 < x.inject then [s.injOf t] else s.xferNeeds x

/-- A transfer that fails before it is done: nothing of it is left to move. -/
def Xfer.fail (x : Xfer) (status : Nat) : Xfer := { x with status := status, todo := [], inject := 0, waits := false }

/-- The units of a plane load that wait for slots of a resource (03 R64, 05 R125): units 0 to 63 are the image, 64 bytes
each; the scale image takes two slots more of either bank group. -/
def PlaneLoad.unitsAt (l : PlaneLoad) (logical id : Nat) : List Nat :=
  l.todo.filter (fun i =>
    if i < 64 then resOfSector (nearBase logical + l.base + 64 * i) == some id
    else nmbgId (logical / 128) (logical % 128) (i % 2) == id)

/-- A plane load ends without its data: the plane keeps its contents and the failure is recorded as a transfer's is
(assumption log 8). -/
def Tile.refuseLoad (u : Tile) (l : PlaneLoad) : Tile :=
  let w := { u with loads := u.loads.filter (fun m => m.id != l.id) }
  if u.fault then w else { w with fault := true, xstatus := stNoSlot }

/-- A resource takes its new calendar. -/
def Res.switchTo (r : Res) (c : Calendar) : Res := { r with cal := c, next := none, idx := 0 }

/-- A listed resource of a page has switched (04 R112): after the last one the switch ends. -/
def State.switchedOne (s : State) (a id : Nat) : State :=
  let left := (s.arb a).switching.filter (· != id)
  let s1 := s.setArb a { s.arb a with switching := left }
  if left.isEmpty then s1.switchEnd a else s1

/-- A resource back on its reset calendar, with no holder and no losses; the slots passed and what is queued stay. -/
def Res.restart (r : Res) : Res :=
  { r with cal := [], next := none, idx := 0, holder := none, holdLen := 0, losses := [], backoff := [], moved := 0,
           gaps := [] }

/-- The resources of an arbiter page as after package reset (04 R113, 07 R217). -/
def State.resetArb (s : State) (a : Nat) : State :=
  { s with
    res := mapUpd Res.init s.res (fun id r => if resSlot id = slotOfArb a then r.restart else r)
    arbs := s.arbs.filter (fun e => e.1 ≠ a) }

end Sys2Proof.Machine
end

