-- ==== Sys2Proof/Machine/Jodar.lean ====
section
/-! DEFINITION. Jodar Link ports, the parts that fabric and host ports share: frames and their CRC-32C, the replay buffer,
credit, and the states of a port (11 R318 to R323, 12 R343, R344). Ports 0 to 11 are the fabric ports, 12 is H0 and 13
is H1. -/

namespace Sys2Proof.Machine

/-! ## CRC-32C (11 R318: as RFC 3720 defines it) -/

/-- One byte taken into the reflected CRC-32C register. -/
def crc32cByte (c : Nat) (b : Byte) : Nat :=
  (List.range 8).foldl (fun c _ => if c % 2 = 1 then (c / 2) ^^^ 0x82F63B78 else c / 2) (c ^^^ b.toNat)

/-- CRC-32C of a byte list. -/
def crc32c (l : List Byte) : Nat := l.foldl crc32cByte 0xFFFFFFFF ^^^ 0xFFFFFFFF

/-! ## Port states and registers -/

def ptDisabled : Nat := 0
def ptPhy : Nat := 1
def ptExchange : Nat := 2
def ptUp : Nat := 3
def ptWait : Nat := 4
def ptLowPower : Nat := 5

/-- Whether a port number names a host port. -/
def isHostPort (i : Nat) : Bool := 12 ≤ i

def portPage (i : Nat) : PageRef := if isHostPort i then pgHprt (i - 12) else pgFprt i

/-- The field of a fabric port's page, or its counterpart of a host port's page. -/
def portField (i : Nat) (f h : Field) : Field := if isHostPort i then h else f

def State.portState (s : State) (i : Nat) : Nat := s.get (portPage i) (portField i FPRT_STAT.STATE HPRT_STAT.STATE)

def State.setPortState (s : State) (i v : Nat) : State :=
  s.put (portPage i) (portField i FPRT_STAT.STATE HPRT_STAT.STATE) v

def State.portVer (s : State) (i : Nat) : Nat := s.get (portPage i) (portField i FPRT_STAT.VER HPRT_STAT.VER)

def State.setPortVer (s : State) (i v : Nat) : State := s.put (portPage i) (portField i FPRT_STAT.VER HPRT_STAT.VER) v

def State.port (s : State) (i : Nat) : Port := mapGet Port.init s.ports i

def State.setPort (s : State) (i : Nat) (p : Port) : State := { s with ports := mapSet Port.init s.ports i p }

/-- A port that carries traffic: UP or LOWPOWER. -/
def State.portOpen (s : State) (i : Nat) : Bool := s.portState i == ptUp || s.portState i == ptLowPower

/-- The depth of the replay buffer (11 R320). -/
def State.replayDepth (s : State) (i : Nat) : Nat := if s.portVer i = 1 then 64 else 128

/-- The largest data length of a host transaction (12 R345). -/
def State.maxData (s : State) (i : Nat) : Nat := if s.portVer i = 1 then 1024 else 4096

/-! ## Frames (11 R318) -/

def ftData : Nat := 0
def ftIdle : Nat := 1
def ftNak : Nat := 2
def ftControl : Nat := 3

/-- A frame's 156 bytes. -/
def jodarFrame (ft seq ack crd : Nat) (words : List (Nat × List Byte)) : List Byte :=
  let kinds := ((List.range 4).map (fun w => (words.getD w (0, [])).1 * 4 ^ w)).sum
  let body := [BitVec.ofNat 8 (ft + 16 * words.length)] ++ leBytes 2 seq ++ leBytes 2 ack ++ leBytes 1 kinds
    ++ leBytes 2 (crd % 4096) ++ slice (words.flatMap (fun w => slice w.2 0 36)) 0 144
  body ++ leBytes 4 (crc32c body)

/-- A frame of a port as it is sent now, with its current `ACK` and `CRD`. -/
def State.portFrame (s : State) (i ft seq : Nat) (words : List (Nat × List Byte)) : List Byte :=
  jodarFrame ft seq (s.port i).last (s.port i).freed words

/-- The kinds of the code words of a packet, coded as `FK` (07 R197). -/
def packetKinds (words : List (List Byte)) : List (Nat × List Byte) :=
  let n := words.length
  (List.range n).map (fun j =>
    (if n = 1 then 3 else if j = 0 then 0 else if j + 1 = n then 2 else 1, words.getD j []))

/-- The power state of a port's domain. -/
def State.portPower (s : State) (i : Nat) : Nat := s.get (portPage i) PAGE_PWR.STATE

/-- A frame leaves a port. At full width a host port's frames alternate between its lane groups, lanes 0 to 7 first; at half
width one group carries them all (12 R343). -/
def State.sendJodar (s : State) (i : Nat) (f : List Byte) : State :=
  let p := s.port i
  let w := s.get (portPage i) HPRT_STAT.WIDTH
  if !isHostPort i then s.emit (.jodar i 0 f)
  else if w = 1 ∨ w = 2 then s.emit (.jodar i (w - 1) f)
  else (s.setPort i { p with lane := 1 - p.lane }).emit (.jodar i p.lane f)

/-- Whether a port can send a frame of `n` code words now: it is UP with its domain on, its replay buffer has room and the
credit allows it (11 R320, R321). The two counts begin again at each end by itself (11 R318), so that their difference may be
negative, and is then no bar (assumption log 67). -/
def State.canSend (s : State) (i n : Nat) : Bool :=
  let p := s.port i
  s.portState i == ptUp && s.portPower i == 0 && p.replay.length < s.replayDepth i
    && (let past := (p.sent + n + 4096 - p.credit % 4096) % 4096
      past ≤ 1024 || 2048 ≤ past)

/-- One data frame sent from the queue, when the port can; up to four code words go in one frame. -/
def State.sendFrame (s : State) (i : Nat) : State :=
  let p := s.port i
  let w := p.queue.take 4
  if w = [] ∨ !s.canSend i w.length then s
  else
    (s.setPort i { p with
      queue := p.queue.drop 4, nextSeq := (p.nextSeq + 1) % 4096, sent := (p.sent + w.length) % 4096,
      replay := p.replay ++ [{ seq := p.nextSeq, words := w }] }).sendJodar i (s.portFrame i ftData p.nextSeq w)

/-- Frames sent until the queue is empty or nothing more may go. -/
def State.pump (s : State) (i : Nat) : State :=
  (List.range ((s.port i).queue.length / 4 + 1)).foldl (fun s _ => s.sendFrame i) s

/-- Every frame of the replay buffer sent again; each resend counts (11 R320). -/
def State.resend (s : State) (i : Nat) : State :=
  let p := s.port i
  let s1 := p.replay.foldl (fun s f => s.sendJodar i (s.portFrame i ftData f.seq f.words)) s
  s1.count (portPage i) (portField i FPRT_REPLAY.COUNT HPRT_REPLAY.COUNT) p.replay.length

/-- Rounds that wait for acknowledgements on a port (11 R338): `n` code words more are acknowledged, or with `lost` the
buffers that held them are gone. -/
def State.leavingWords (s : State) (i n : Nat) (lost : Bool) : State :=
  { s with red := { s.red with rounds := s.red.rounds.map (fun e => match e.2.leaving with
    | some (q, w) => if q = i then (e.1, { e.2 with leaving := if lost then none else some (q, w - n) }) else e
    | none => e) } }

/-- The frames that an `ACK` covers leave the replay buffer (11 R320). -/
def State.ackFrames (s : State) (i ack : Nat) : State :=
  let p := s.port i
  match p.replay.findIdx? (fun f => f.seq == ack) with
  | some j =>
    (s.setPort i { p with replay := p.replay.drop (j + 1), naks := 0 }).leavingWords i
      ((p.replay.take (j + 1)).map (fun f => f.words.length)).sum false
  | none => s

/-- The packets of which no code word has been sent. -/
def wholePackets (q : List (Nat × List Byte)) : Nat := (q.filter (fun w => w.1 == 0 || w.1 == 3)).length

/-- The replay buffer is discarded (11 R322): each frame is reported on the port's page, and on a fabric port counts in
`FPRT_DROP`. The rest of a packet of which a frame is lost goes with it, and so does the packet being received; a packet that
waited whole for a fabric port is dropped and counted as one that finds it closed. -/
def State.discardReplay (s : State) (i : Nat) : State :=
  let p := s.port i
  let n := p.replay.length
  let s1 := (s.setPort i { p with replay := [], queue := [], rx := [] }).leavingWords i 0 true
  let s2 := if isHostPort i then s1 else
    (s1.count (portPage i) FPRT_DROP.COUNT n).count (portPage i) FPRT_PKT_DROP.COUNT (wholePackets p.queue)
  match p.replay with
  | [] => s2
  | f :: _ => (List.range n).foldl (fun s _ => s.report (portPage i) .u 0x21 f.seq 0 0) s2

/-! ## States -/

/-- Leaving UP other than to LOWPOWER counts in `FPRT_DOWN` (11 R323). -/
def State.countDown (s : State) (i : Nat) : State :=
  if s.portState i = ptUp ∧ !isHostPort i then s.count (portPage i) FPRT_DOWN.COUNT 1 else s

/-- A port leaves a state in which it had a version and locks. -/
def State.unlockPort (s : State) (i : Nat) : State :=
  (s.setPort i { s.port i with locked := 0, lpAsked := false, naks := 0 }).setPortVer i 0

/-- UP to PHY (11 R323): data frames stop, the replay buffer stays; the entry counts. -/
def State.retrainPort (s : State) (i : Nat) : State :=
  if s.portState i = ptUp then
    (((s.countDown i).setPortState i ptPhy).unlockPort i).count (portPage i)
      (portField i FPRT_STAT.RETRAINS HPRT_STAT.RETRAINS) 1
  else s

/-- The width of a host port: 0 none, 1 lanes 0 to 7, 2 lanes 8 to 15, 3 full (12 R344); a half width degrades its
page. -/
def State.setWidth (s : State) (i w : Nat) : State :=
  if isHostPort i then
    (s.put (portPage i) HPRT_STAT.WIDTH w).putFlag (portPage i) PAGE_STAT.DEGRADED (w == 1 || w == 2)
  else s

/-- Any state to DISABLED (11 R323). -/
def State.disablePort (s : State) (i : Nat) : State :=
  ((((s.countDown i).discardReplay i).setPortState i ptDisabled).unlockPort i).setWidth i 0

/-- DISABLED to PHY: equalisation training starts (11 R323). -/
def State.enablePort (s : State) (i : Nat) : State :=
  if s.portState i = ptDisabled then s.setPortState i ptPhy else s

/-- LOWPOWER to UP (11 R323, R327): the counts of credit begin again (11 R318), and what waits goes. -/
def State.wakePort (s : State) (i : Nat) : State :=
  if s.portState i = ptLowPower then
    let p := s.port i
    ((s.setPortState i ptUp).setPort i { p with
      freed := 0, credit := 0, sent := (p.replay.map (fun f => f.words.length)).sum % 4096, sensed := false }).pump i
  else s

/-- The receiver of a port whose domain is not on finds something that wakes it (14 R399). -/
def State.portSense (s : State) (i : Nat) : State :=
  if s.portPower i = 0 then s else s.setPort i { s.port i with sensed := true }

/-! ## Sending packets -/

/-- A packet's code words queued and sent as far as the port lets them go; while its domain is not on they wait, and wake it
(14 R397, R399). -/
def State.queuePacket (s : State) (i : Nat) (words : List (List Byte)) : State :=
  (s.setPort i { s.port i with queue := (s.port i).queue ++ packetKinds words }).pump i

/-- A fabric packet routed to a port: dropped and counted where the port is neither UP nor LOWPOWER (11 R322). -/
def State.sendFabric (s : State) (i : Nat) (words : List (List Byte)) : State :=
  if s.portOpen i then s.queuePacket i words else s.count (portPage i) FPRT_PKT_DROP.COUNT 1

end Sys2Proof.Machine
end

