-- ==== Sys2Proof/Machine/Windows.lean ====
section
/-! DEFINITION. Submission windows and completion records, the parts that every writer of memory shares: the rules of a
write into an enabled window (12 R357), guarded writes, transaction heads (12 R346), records (12 R360, R361) and the
completion of a window's command. -/

namespace Sys2Proof.Machine

/-! ## Windows (12 R356, R357) -/

def State.win (s : State) (w : Nat) : Win := mapGet Win.init s.wins w

def State.setWin (s : State) (w : Nat) (x : Win) : State := { s with wins := mapSet Win.init s.wins w x }

def State.winEnabled (s : State) (w : Nat) : Bool := s.flag (pgSubw w) PAGE_CTRL.EN

def State.winBase (s : State) (w : Nat) : Nat := s.getPair (pgSubw w) SUBW_BASE_LO.ADDR SUBW_BASE_HI.ADDR

/-- Slots of a window. -/
def State.winSlots (s : State) (w : Nat) : Nat := 2 ^ s.get (pgSubw w) SUBW_CFG.SIZE

def State.winBytes (s : State) (w : Nat) : Nat := 64 * s.winSlots w

def State.winCons (s : State) (w : Nat) : Nat := s.get (pgSubw w) SUBW_PTR.CONS

def State.winTail (s : State) (w : Nat) : Nat := s.get (pgSubw w) SUBW_PTR.TAIL

/-- The number of pending commands: counts `CONS` to `TAIL` - 1. -/
def State.winPending (s : State) (w : Nat) : Nat := (s.winTail w + 65536 - s.winCons w) % 65536

/-- The enabled windows that a range touches. -/
def State.winsTouched (s : State) (a n : Nat) : List Nat :=
  (List.range 64).filter (fun w => s.winEnabled w && a < s.winBase w + s.winBytes w && s.winBase w < a + n)

/-- The part of a range inside a window, as offsets. -/
def State.winPart (s : State) (w a n : Nat) : Nat × Nat :=
  (max a (s.winBase w) - s.winBase w, min (a + n) (s.winBase w + s.winBytes w) - s.winBase w)

/-- The slots that the part of a range inside a window covers. -/
def State.winCovered (s : State) (w a n : Nat) : List Nat :=
  let p := s.winPart w a n
  (List.range (p.2 / 64 - p.1 / 64)).map (fun i => p.1 / 64 + i)

/-- Whether a slot is free: its flag clear and no pending count naming it. -/
def State.slotFree (s : State) (w i : Nat) : Bool :=
  !(s.win w).flags.contains i && s.winPending w ≤ (i + s.winSlots w - s.winCons w % s.winSlots w) % s.winSlots w

/-- Whether the part inside some window is not whole aligned slots. -/
def State.winPartial (s : State) (a n : Nat) : Bool :=
  (s.winsTouched a n).any (fun w => (s.winPart w a n).1 % 64 != 0 || (s.winPart w a n).2 % 64 != 0)

/-- Whether a slot that a range covers is not free. -/
def State.winBusy (s : State) (a n : Nat) : Bool :=
  (s.winsTouched a n).any (fun w => (s.winCovered w a n).any (fun i => !s.slotFree w i))

/-- `TAIL` passes one flagged slot and clears its flag. -/
def State.winAdvance (s : State) (w : Nat) : State :=
  let i := s.winTail w % s.winSlots w
  if (s.win w).flags.contains i then
    (s.setWin w { s.win w with flags := (s.win w).flags.filter (· != i) }).put (pgSubw w) SUBW_PTR.TAIL
      (s.winTail w + 1)
  else s

/-- An accepted write sets the flags of the slots it covers, and `TAIL` advances to the first clear flag (12 R357). -/
def State.winMark (s : State) (a n : Nat) : State :=
  (s.winsTouched a n).foldl (fun s w =>
    let s1 := s.setWin w { s.win w with flags := (s.win w).flags ++ s.winCovered w a n }
    (List.range (s.winSlots w)).foldl (fun s _ => s.winAdvance w) s1) s

/-- Code words stored one after another from `a` on. -/
def State.storeWords (s : State) (a : Nat) (l : List (List Byte)) : State :=
  (l.foldl (fun (r : State × Nat) w => (r.1.putCodeWord r.2 w, r.2 + 32)) (s, a)).1

/-- A write of whole sectors under the rules of the windows it touches (12 R357): its status, `part` where it covers part
of a slot, WIN_BUSY where a slot is not free; refused whole, or stored. -/
def State.guardedWrite (s : State) (part a : Nat) (l : List (List Byte)) : State × Nat :=
  let n := 32 * l.length
  if s.winPartial a n then (s, part)
  else if s.winBusy a n then (s.count pgHbrg HBRG_WIN_BUSY.COUNT 1, stWinBusy)
  else ((s.storeWords a l).winMark a n, stOk)

/-- A byte list as good code words. -/
def codeWords (d : List Byte) : List (List Byte) :=
  (List.range ((d.length + 31) / 32)).map (fun i => codeWord (slice d (32 * i) 32))

/-! ## Transactions (12 R346, R347) -/

/-- A head code word. -/
def headWord (ht flags status tag addr len eaddr rdata : Nat) : List Byte :=
  codeWord (leBytes 1 ht ++ leBytes 1 flags ++ leBytes 1 status ++ [0] ++ leBytes 4 tag ++ leBytes 8 addr
    ++ leBytes 2 len ++ leBytes 6 eaddr ++ leBytes 4 rdata ++ leBytes 4 0)

/-- The next tag of a device request through a port, noted as outstanding. -/
def State.devTag (s : State) (i : Nat) (use : DevUse) : Nat × State :=
  (s.bridge.nextTag, { s with bridge := { s.bridge with
    nextTag := (s.bridge.nextTag + 1) % 2 ^ 32, devReqs := s.bridge.devReqs ++ [(i, s.bridge.nextTag, use)] } })

/-- The device sends one write of host memory through a port (type 0x12). -/
def State.hostWrite (s : State) (i addr : Nat) (d : List Byte) : State :=
  let t := s.devTag i .record
  t.2.queuePacket i (headWord 0x12 0 0 t.1 addr (d.length - 1) 0 0 :: codeWords d)

/-! ## Completion records (12 R360, R361) -/

def State.cqBase (s : State) (w : Nat) : Nat := s.getPair (pgSubw w) SUBW_CQ_LO.ADDR SUBW_CQ_HI.ADDR

/-- Records of a ring. -/
def State.cqSize (s : State) (w : Nat) : Nat := 2 ^ s.get (pgSubw w) SUBW_CFG.CQSIZE

/-- The port of a window, numbered as ports are. -/
def State.winPort (s : State) (w : Nat) : Nat := 12 + s.get (pgSubw w) SUBW_CFG.PORT

/-- Whether a waiting packet is a record of a window's present ring. -/
def DevPacket.recordOf (d : DevPacket) (w : Nat) : Bool :=
  match d.record with
  | some r => r.win == w && r.live
  | none => false

/-- The records of a window's present ring that wait for the port. -/
def State.cqWaiting (s : State) (w : Nat) : Nat := (s.bridge.devWait.filter (·.recordOf w)).length

/-- Places of the ring that are taken: records the host has not consumed, those that wait for the port, and those that
commands in flight will write. -/
def State.cqTaken (s : State) (w : Nat) : Nat :=
  (s.get (pgSubw w) SUBW_CQ_TAIL.COUNT + 65536 - s.get (pgSubw w) SUBW_CQ_HEAD.COUNT) % 65536
    + ((s.win w).flight.filter (fun f => !f.noRecord && !f.discard)).length + s.cqWaiting w

/-- `SUBW_CQ_TAIL` past one record; `PHASE` flips with each pass. -/
def State.cqAdvance (s : State) (w : Nat) : State :=
  let n := s.get (pgSubw w) SUBW_CQ_TAIL.COUNT + 1
  let s1 := s.put (pgSubw w) SUBW_CQ_TAIL.COUNT n
  if n % s.cqSize w = 0 then s1.put (pgSubw w) SUBW_CQ_TAIL.PHASE (1 - s.get (pgSubw w) SUBW_CQ_TAIL.PHASE) else s1

/-- The bytes of a record with its `PHASE` in byte 5: 1 in the first pass through the ring, flipping with each pass (12
R360). -/
def WaitRecord.phased (r : WaitRecord) : List Byte :=
  r.bytes.set 5 (r.bytes.getD 5 0 ||| BitVec.ofNat 8 (1 - r.place / r.size % 2))

/-- The address of a record's place. -/
def WaitRecord.addr (r : WaitRecord) : Nat := r.base + 32 * (r.place % r.size)

/-- A record of a window at the next place of its ring, behind those that wait. -/
def State.nextRecord (s : State) (w : Nat) (b : List Byte) : WaitRecord :=
  { win := w, live := true, base := s.cqBase w, size := s.cqSize w,
    place := (s.get (pgSubw w) SUBW_CQ_TAIL.COUNT + s.cqWaiting w) % 65536, bytes := b }

/-- A record goes to host memory through a port, to its place in the ring as it stood; `SUBW_CQ_TAIL` follows unless the
window has been enabled afresh. -/
def State.sendRecord (s : State) (i : Nat) (r : WaitRecord) : State :=
  let s1 := s.hostWrite i r.addr r.phased
  if r.live then s1.cqAdvance r.win else s1

/-- A record written to a ring at a package address, or dropped and counted where its address refuses it (12 R361). -/
def State.storeRecord (s : State) (w : Nat) (r : WaitRecord) : State :=
  let a := r.addr
  if s.rangeStatus a 32 ≠ stOk || s.rangeRefused a 32 then s.count pgHbrg HBRG_CPL_DROP.COUNT 1
  else
    let g := s.guardedWrite stBadCmd a [codeWord r.phased]
    if g.2 = stOk then g.1.cqAdvance w else g.1.count pgHbrg HBRG_CPL_DROP.COUNT 1

/-- The bytes of a record, without its `PHASE` (12 R360). -/
def recordBytes (tag status count res0 res1 eaddr : Nat) (taint : Bool) : List Byte :=
  leBytes 4 tag ++ leBytes 1 status ++ leBytes 1 (2 * b2n taint) ++ leBytes 2 count ++ leBytes 4 res0 ++ leBytes 4 res1
    ++ leBytes 6 eaddr ++ List.replicate 10 0

/-- Whether a packet is an error completion (12 R346, R368). -/
def errorCpl (words : List (List Byte)) : Bool :=
  match words with
  | h :: _ => field h 0 1 == 5 && field h 2 1 != 0
  | [] => false

/-- A packet of a host port sent now; an error completion counts in `HPRT_REFUSED` (12 R368). -/
def State.sendHost (s : State) (i : Nat) (words : List (List Byte)) : State :=
  let s1 := s.queuePacket i words
  if errorCpl words then s1.count (portPage i) HPRT_REFUSED.COUNT 1 else s1

/-- The code words of a packet. -/
def DevPacket.size (d : DevPacket) : Nat := if d.record.isSome then 2 else d.words.length

/-- The first packet that waits for a port goes, once the one before has left and its own first frame can. -/
def State.flushOne (s : State) (i : Nat) : State :=
  match s.bridge.devWait.find? (fun d => d.port == i) with
  | none => s
  | some d =>
    if !(s.port i).queue.isEmpty || !s.canSend i (min 4 d.size) then s
    else
      let s1 := { s with bridge := { s.bridge with devWait := s.bridge.devWait.eraseP (fun d => d.port == i) } }
      match d.record with
      | some r => s1.sendRecord i r
      | none => s1.sendHost i d.words

/-- The packets that wait for a port go, in order, as far as the port lets them. -/
def State.flushPort (s : State) (i : Nat) : State :=
  (List.range s.bridge.devWait.length).foldl (fun s _ => s.flushOne i) s

/-- What waits for a port goes as far as the port lets it: its queue, and for a host port the packets behind it. -/
def State.portGo (s : State) (i : Nat) : State :=
  let s1 := s.pump i
  if isHostPort i then s1.flushPort i else s1

/-- A device-originated packet through a host port (12 R353): it waits behind those before it. -/
def State.sendOrWait (s : State) (d : DevPacket) : State :=
  ({ s with bridge := { s.bridge with devWait := s.bridge.devWait ++ [d] } }).flushPort d.port

/-- A record written, or sent through its port where the ring lies in host memory (12 R353, R360). -/
def State.writeRecord (s : State) (w : Nat) (b : List Byte) : State :=
  let r := s.nextRecord w b
  if s.get (pgSubw w) SUBW_CFG.CQLOC ≠ 0 then s.storeRecord w r
  else s.sendOrWait { port := s.winPort w, words := [], record := some r, req := none }

/-- A command of a window completes (12 R358, R360): it leaves the window's list, and its record is written unless
`NOCPL` or a soft reset of the page forbids it. -/
def State.completeCmd (s : State) (w c status res0 res1 eaddr : Nat) (taint : Bool) : State :=
  match (s.win w).flight.find? (fun f => f.count == c) with
  | none => s
  | some f =>
    let rest := (s.win w).flight.filter (fun g => g.count != c)
    let s1 := (s.setWin w { s.win w with flight := rest }).put (pgSubw w) SUBW_STAT.INFLIGHT rest.length
    if f.noRecord || f.discard then s1
    else s1.writeRecord w (recordBytes f.tag status c res0 res1 eaddr taint)

/-- The command in flight that a source names, and its 32-byte body. -/
def State.inFlight (s : State) (w c : Nat) : Option InFlight := (s.win w).flight.find? (fun f => f.count == c)

end Sys2Proof.Machine
end

