-- ==== Sys2Proof/Machine/RowEngine.lean ====
section
/-! DEFINITION. Row engines of near memory and of the edge stacks (05 R141 to R151, R158, R492, 06 R176 to R178): the
command format and its checks, read and write steps, queues, completion. An engine is numbered 16 n + 4 m + q for layer m,
quarter q of Cn, and 192 + 32 k + c for channel c of Ek. -/

namespace Sys2Proof.Machine

/-! ## Engines -/

def nearEngine (n m q : Nat) : Nat := 16 * n + 4 * m + q
def edgeEngine (k c : Nat) : Nat := 192 + 32 * k + c

def engineNumber : EngineRef → Nat
  | .near n m q => nearEngine n m q
  | .edge k c => edgeEngine k c

/-- The engine whose domain holds an address (05 R141, 06 R176); none for a hole or another memory. -/
def State.engineAt (s : State) (a : Nat) : Option Nat :=
  match targetOf a with
  | .near l o => (s.physOf l).map (fun t => nearEngine (l / 128) (nearLayer o) (t % 144 / 36))
  | .edge k o => if s.stackUsed k then some (edgeEngine k (edgeChannel o)) else none
  | _ => none

/-- The page on which an engine counts: NMEM of its layer, EROW of its stack. -/
def enginePage (e : Nat) : PageRef := if e < 192 then pgNmem (e / 16) (e % 16 / 4) else pgErow ((e - 192) / 32)

/-- The fields in which an engine shows itself: BUSY, QUEUED, LAST, the count of completed commands and of poisoned
results. -/
def engineFields (e : Nat) : Field × Field × Field × Field × Field :=
  if e < 192 then
    (NMEM_RE_STAT.BUSY.at (e % 4), NMEM_RE_STAT.QUEUED.at (e % 4), NMEM_RE_STAT.LAST.at (e % 4),
      NMEM_RE_DONE.COUNT.at (e % 4), NMEM_RE_POIS.COUNT.at (e % 4))
  else
    (EROW_STAT.BUSY.at ((e - 192) % 32), EROW_STAT.QUEUED.at ((e - 192) % 32), EROW_STAT.LAST.at ((e - 192) % 32),
      EROW_DONE.COUNT, EROW_POIS.COUNT)

/-- Whether an engine accepts commands (05 R145, R158). -/
def State.engineOn (s : State) (e : Nat) : Bool :=
  s.flag (enginePage e) PAGE_CTRL.EN && !s.flag (enginePage e) PAGE_STAT.SRST_BUSY

def State.engine (s : State) (e : Nat) : Engine := mapGet Engine.init s.engines e

def State.engineQ (s : State) (e : Nat) : List RowCmd := (s.engine e).queue

/-- The slot count from which an engine's next step may start (05 R147). -/
def State.setReady (s : State) (e n : Nat) : State :=
  { s with engines := mapSet Engine.init s.engines e { s.engine e with ready := n } }

/-- The queue of an engine changed, with the fields that show it. -/
def State.setEngineQ (s : State) (e : Nat) (q : List RowCmd) : State :=
  let f := engineFields e
  (({ s with engines := mapSet Engine.init s.engines e { s.engine e with queue := q } }).putFlag (enginePage e) f.1
    (!q.isEmpty)).put (enginePage e) f.2.1 q.length

/-- Commands a queue holds (05 R146, 06 R176). -/
def engineDepth (e : Nat) : Nat := if e < 192 then 16 else 8

/-- The command port of an engine. -/
def enginePort (e : Nat) : Nat :=
  if e < 192 then nrowId (e / 16) (e % 16 / 4) (e % 4) else erowId ((e - 192) / 32) ((e - 192) % 32)

/-- The resource of the bank group or channel in which a row lies. -/
def rowRes (a : Nat) : Nat := (resOfSector a).getD 0

/-! ## The command (05 R143, R144) -/

/-- The number of source rows that an operation reads. -/
def rowSources (op : Nat) (z : Bool) : Nat :=
  if op = 2 then (if z then 0 else 1) else if op = 1 ∨ op = 6 then 1 else 2

/-- A command from its 32 bytes. -/
def rowOfBytes (b : List Byte) (issuer : RowIssuer) : RowCmd :=
  { op := field b 0 1 % 16, z := bit (field b 0 1) 4, dst := field b 8 8, srcA := field b 16 8, srcB := field b 24 8,
    tag := field b 4 4, issuer := issuer, steps := 0, bufs := [] }

/-- Whether the format of a command is broken: reserved operations, reserved or unused bits, alignment. -/
def rowMalformed (b : List Byte) : Bool :=
  let c := rowOfBytes b (.device 0)
  let n := rowSources c.op c.z
  c.op == 0 || 7 ≤ c.op || 32 ≤ field b 0 1 || field b 1 3 != 0 || 2 ^ 48 ≤ c.dst || 2 ^ 48 ≤ c.srcA || 2 ^ 48 ≤ c.srcB
    || (c.z && c.op != 2) || (n == 0 && c.srcA != 0) || (n < 2 && c.srcB != 0) || c.dst % 2048 != 0
    || (0 < n && c.srcA % (if c.op = 2 then 32 else 2048) != 0) || (n == 2 && c.srcB % 2048 != 0)

/-- The rows of the steps in order: the sources, then the destination (05 R144). -/
def RowCmd.rows (c : RowCmd) : List Nat :=
  (([c.srcA, c.srcB].take (rowSources c.op c.z)).map (fun a => 2048 * (a / 2048))) ++ [c.dst]

/-- Whether an address lies in near memory or in edge memory. -/
def isNear (a : Nat) : Bool := match targetOf a with | .near _ _ => true | _ => false
def isEdge (a : Nat) : Bool := match targetOf a with | .edge _ _ => true | _ => false

/-- The engine that takes a command: the one that x[B] of a `ROWC` names, else that of the destination row (05 R142). -/
def State.rowEngine (s : State) (c : RowCmd) (via : Option Nat) : Option Nat := s.engineAt (via.getD c.dst)

/-- The status of a command that its format, targets and engine allow or refuse (05 R145, 06 R177); `via` is x[B] of a
`ROWC`, BAD_CMD where it names memory without row engines and NO_TARGET where it is a hole. The slots of the command port
are judged by who sends it. -/
def State.rowStatus (s : State) (b : List Byte) (via : Option Nat) : Nat :=
  let c := rowOfBytes b (.device 0)
  let rows := c.rows
  let live := rows.filterMap s.engineAt
  let viaEng := via.bind s.engineAt
  let viaBad := match via with
    | some a => !isNear a && !isEdge a && (s.addrStatus a != stNoTarget || touchesRegs a 1)
    | none => false
  let domain := match viaEng with
    | some e => live.any (· != e)
    | none => live.any (fun e => live.any (· != e))
  if rowMalformed b || !(rows.all isNear || rows.all isEdge) || viaBad || domain then stBadCmd
  else if live.length < rows.length || (via.isSome && viaEng.isNone) then stNoTarget
  else
    let e := live.getD 0 0
    let down := if e < 192 then s.dieDown (e / 16) else !s.baseInService ((e - 192) / 64)
    if down then stDestDown
    else if !s.engineOn e then stDisabled
    else if rows.any (fun r => !(s.calOf (rowRes r)).hasRun ownROWE 48) then stNoSlot
    else stOk

/-! ## Steps (05 R147, R148, R151) -/

/-- A read step: the 64 sectors of a row, decoded and counted; a damaged one is `none`. Edge engines count on the EROW
page as well (06 R177). -/
def State.rowRead (s : State) (e row : Nat) : State × List (Option (List Byte)) :=
  let l := (List.range 64).map (fun i => row + 32 * i)
  let s1 := s.reportAll s.errPage srcEngine l
  (if e < 192 then s1 else s1.reportAll (fun _ => enginePage e) srcEngine l,
    l.map (fun a => let d := s.sector a; if d.1.damaged then none else some d.2))

/-- One result sector from the source sectors at its index (05 R144). -/
def rowResult (op : Nat) (a b : Option (List Byte)) : Option (List Byte) :=
  match a with
  | none => none
  | some x =>
    if op = 1 ∨ op = 2 then some x
    else if op = 6 then some (x.map (~~~ ·))
    else match b with
      | none => none
      | some y => some (if op = 3 then x.zipWith (· &&& ·) y else if op = 4 then x.zipWith (· ||| ·) y else xorBytes x y)

/-- The 64 result sectors of a command from its buffered rows. -/
def RowCmd.results (c : RowCmd) : List (Option (List Byte)) :=
  let rowA := c.bufs.getD 0 []
  let rowB := c.bufs.getD 1 []
  (List.range 64).map (fun i =>
    if c.op = 2 then (if c.z then some (List.replicate 32 0) else rowA.getD (c.srcA % 2048 / 32) none)
    else rowResult c.op (rowA.getD i none) (rowB.getD i none))

/-- The lines of a row dropped from every cache set (06 R178). -/
def State.dropLines (s : State) (row : Nat) : State :=
  match targetOf row with
  | .edge _ _ =>
    let empty : CacheSet := { ways := [], tree := 0 }
    { s with cache := mapUpd empty s.cache (fun _ c =>
      { c with ways := c.ways.map (fun w => match w with
        | some x => if 2048 * (x.1 / 2048) = row then none else some x
        | none => none) }) }
  | _ => s

/-- A write step: 64 valid or poisoned code words, unless the destination is a window that refuses them (12 R357);
poisoned results count. -/
def State.rowWrite (s : State) (e : Nat) (c : RowCmd) : State × Nat :=
  let res := c.results
  let g := s.guardedWrite stBadCmd c.dst (res.map (fun d => match d with | some x => codeWord x | none => poisonWord))
  if g.2 ≠ stOk then g
  else ((g.1.dropLines c.dst).count (enginePage e) (engineFields e).2.2.2.2 (res.filter (·.isNone)).length, stOk)

/-- A whole command carried out at once: its read steps, then its write step. -/
def State.rowRun (s : State) (e : Nat) (c : RowCmd) : State × Nat :=
  let r := c.rows.dropLast.foldl (fun (r : State × List (List (Option (List Byte)))) row =>
    let x := r.1.rowRead e row
    (x.1, r.2 ++ [x.2])) (s, [])
  r.1.rowWrite e { c with bufs := r.2 }

/-! ## Completion -/

/-- A status booked on an engine: `LAST` and the wrapping count (05 R158, 06 R187). -/
def State.rowBook (s : State) (e status : Nat) : State :=
  let f := engineFields e
  (s.put (enginePage e) f.2.2.1 status).wrapCount (enginePage e) f.2.2.2.1 1

/-- The transfer with an id of a tile changed. -/
def State.modXfer (s : State) (t id : Nat) (f : Xfer → Xfer) : State :=
  s.modTile t (fun u => { u with xfers := u.xfers.map (fun x => if x.id = id then f x else x) })

/-- A command's completion reaches its issuer (05 R142, R145): the transfer of a `ROWC` may complete, a window's
record is written, or the rope logic learns the status of its work. -/
def State.rowReply (s : State) (c : RowCmd) (status : Nat) : State :=
  match c.issuer with
  | .tile t id => s.modXfer t id (fun x => { x with waits := false, status := if status = stOk then x.status else status })
  | .window w n => s.completeCmd w n status c.tag 0 0 false
  | .device n => { s with kv := { s.kv with jobs := s.kv.jobs.map (fun j =>
      if j.id = n then { j with status := some status } else j) } }

/-- The completion of a window's command sets out from the die of tile `t`: one flit that its drop carries upward (07
R204). -/
def State.replyUp (s : State) (w c status tag t : Nat) : State :=
  let new : MemAccess :=
    { id := s.bridge.nextAcc, who := s.winPort w - 12, use := .row w c status tag, addr := 0, len := 0, words := none,
      todo := [], got := [], up := [(t, 1)], status := stOk }
  { s with bridge := { s.bridge with accs := s.bridge.accs ++ [new], nextAcc := s.bridge.nextAcc + 1 } }

/-- The answer of an engine to its issuer: out of a compute die through the drop that serves the destination's tile. -/
def State.rowAnswer (s : State) (c : RowCmd) (status : Nat) : State :=
  match c.issuer, s.tileAt c.dst with
  | .window w n, some t => s.replyUp w n status c.tag t
  | _, _ => s.rowReply c status

/-- A completed command: booked on its engine, and answered. -/
def State.rowComplete (s : State) (e : Nat) (c : RowCmd) (status : Nat) : State := (s.rowBook e status).rowAnswer c status

/-- A command that its engine refuses: booked on the engine that it goes to, where there is one (05 R142, R158). -/
def State.rowRefuse (s : State) (c : RowCmd) (via : Option Nat) (status : Nat) : State :=
  match s.rowEngine c via with
  | some e => (s.rowBook e status).rowReply c status
  | none => s.rowReply c status

/-- A command accepted into its engine's queue (05 R146). -/
def State.rowAccept (s : State) (e : Nat) (c : RowCmd) : State := s.setEngineQ e (s.engineQ e ++ [c])

/-- Whether an engine's queue is full. -/
def State.rowFull (s : State) (e : Nat) : Bool := engineDepth e ≤ (s.engineQ e).length

/-- The state of what a command needs once it runs: its die may have gone down since (05 R145). -/
def State.engineDown (s : State) (e : Nat) : Bool :=
  if e < 192 then s.dieDown (e / 16) else !s.baseInService ((e - 192) / 64)

/-- Whether a read of a runtime requester that lies within one row has been served in part (05 R150). -/
def State.rowHalfRead (s : State) (row : Nat) : Bool :=
  s.bridge.accs.any (fun x => x.words.isNone && 2048 * (x.addr / 2048) == row && x.addr + x.len ≤ row + 2048
    && !x.got.isEmpty && !x.todo.isEmpty)

/-- The key of a channel's checker. -/
def checkerKey (k c : Nat) : Nat := 32 * k + c

/-- Whether a checker runs on a channel. -/
def State.checking (s : State) (k c : Nat) : Bool := s.checkers.any (fun e => e.1 == checkerKey k c)

/-- Whether engine `e` may start a step on a row now (05 R147, R150, 06 R185): at least 48 ROWE slots of a run remain at the
next slot of the row's resource, the engine's previous step began at least 48 slots ago, no checker owns the channel, and
for a write step no read is half served on the row. All resources of an engine share one clock, and each slot is one cycle
of it, so their slot counts name the same times. -/
def State.stepReady (s : State) (e : Nat) (write : Bool) (row : Nat) : Bool :=
  let id := rowRes row
  let r := s.resAt id
  48 ≤ (s.calOf id).left ownROWE r.idx && (s.engine e).ready ≤ r.slots && !(write && s.rowHalfRead row)
    && !(isEdge row && s.checking (row / 0x0020_0000_0000) (edgeChannel (row % 0x0020_0000_0000)))

/-- One step of the command at the head of an engine's queue (05 R147, R148), where the memory is on (14 R397); after its write step the command
completes. -/
def State.rowStep (s : State) (e : Nat) : State :=
  match s.engineQ e with
  | [] => s
  | c :: rest =>
    let row := c.rows.getD c.steps c.dst
    let last := c.rows.length ≤ c.steps + 1
    if !s.stepReady e last row || s.engineDown e || s.asleep row 2048 then s
    else
      let s0 := s.setReady e ((s.resAt (rowRes row)).slots + 48)
      if last then
        let g := s0.rowWrite e c
        (g.1.setEngineQ e rest).rowComplete e c g.2
      else
        let r := s0.rowRead e row
        r.1.setEngineQ e ({ c with steps := c.steps + 1, bufs := c.bufs ++ [r.2] } :: rest)

/-- A soft reset of an engine's page (05 R492): every command of its queue completes with DISABLED. A step is whole in
this model, so no command is found within its write step. -/
def State.rowCut (s : State) (e status : Nat) : State :=
  (s.engineQ e).foldl (fun s c => s.rowComplete e c status) (s.setEngineQ e [])

/-- Requester ID of the management core (04 R114). -/
def reqMgmt : Nat := 2

/-- A command of a requester of OPEN slots waits at its engine's port (05 R142). -/
def State.portWait (s : State) (port who : Nat) (c : RowCmd) : State :=
  s.setRes port { s.resAt port with openQ := (s.resAt port).openQ ++ [(who, c)] }

/-- A row operation named by its rows (05 R144): refused with its status; or carried out whole by the engine of its
destination, the two or three steps as one; or, where the engine or its port has earlier commands, queued behind them on the
device's path, and then carried out by slots and steps (assumption log 12). -/
def State.rowDirect (s : State) (op : Nat) (a : RowArgs) : State :=
  let z := a.z && op == 2
  let n := rowSources op z
  let b := leBytes 1 (op + 16 * b2n z) ++ List.replicate 7 0 ++ leBytes 8 a.dst.toNat
    ++ leBytes 8 (if 0 < n then a.srcA.toNat else 0) ++ leBytes 8 (if n = 2 then a.srcB.toNat else 0)
  let c := rowOfBytes b (.device 0)
  let st := s.rowStatus b none
  if st ≠ stOk then s.rowRefuse c none st
  else match s.engineAt c.dst with
    | some e =>
      if (s.engineQ e).isEmpty && (s.resAt (enginePort e)).openQ.isEmpty then
        let g := s.rowRun e c
        g.1.rowBook e g.2
      else s.portWait (enginePort e) reqMgmt c
    | none => s

/-! ## The meanings of the commands -/

/-- `COPY` (05 R144). -/
def execRowCopy (c : RowArgs) (s : State) : Host.Outcome State Fault Refusal := .next (s.rowDirect 1 c)

/-- `FILL` (05 R144). -/
def execRowFill (c : RowArgs) (s : State) : Host.Outcome State Fault Refusal := .next (s.rowDirect 2 c)

/-- `AND` (05 R144). -/
def execRowAnd (c : RowArgs) (s : State) : Host.Outcome State Fault Refusal := .next (s.rowDirect 3 c)

/-- `OR` (05 R144). -/
def execRowOr (c : RowArgs) (s : State) : Host.Outcome State Fault Refusal := .next (s.rowDirect 4 c)

/-- `XOR` (05 R144). -/
def execRowXor (c : RowArgs) (s : State) : Host.Outcome State Fault Refusal := .next (s.rowDirect 5 c)

/-- `NOT` (05 R144). -/
def execRowNot (c : RowArgs) (s : State) : Host.Outcome State Fault Refusal := .next (s.rowDirect 6 c)

/-- `ROW_STEP` (05 R147). -/
def execRowStep (e : EngineRef) (s : State) : Host.Outcome State Fault Refusal := .next (s.rowStep (engineNumber e))

end Sys2Proof.Machine
end

