-- ==== Sys2Proof/Machine/Transfers.lean ====
section
/-! DEFINITION. The load/store slot (04 R95 to R98, 07 R194 to R196): traps at issue, what each operation starts, the
movement of single sectors, completion and loss of transfers. -/

namespace Sys2Proof.Machine

/-! ## Operation codes (04 R95) -/

def lopVLD : Nat := 1
def lopVST : Nat := 2
def lopNMRD : Nat := 3
def lopNMWR : Nat := 4
def lopXRD : Nat := 5
def lopXWR : Nat := 6
def lopNSND : Nat := 7
def lopROWC : Nat := 8

/-- Transfer length in sectors. -/
def lsSectors (o : LsOp) : Nat := o.n.toNat + 1

/-! ## Traps at issue (04 R95, R96, R103) -/

/-- The trap of an SRAM range of a load (`st` false) or store: misaligned before leaving SRAM. -/
def sramTrap (st : Bool) (a n : Nat) : Option (Nat × Word) :=
  if a % 32 ≠ 0 then some (if st then causeStoreMisaligned else causeLoadMisaligned, BitVec.ofNat 32 a)
  else if leavesSram a n then some (if st then causeStoreAccess else causeLoadAccess, BitVec.ofNat 32 a)
  else none

/-- The trap of a slice range: its first sector is misaligned, or it leaves the slice. -/
def sliceTrap (st : Bool) (a n : Nat) : Option (Nat × Word) :=
  if a % 32 ≠ 0 then some (if st then causeStoreMisaligned else causeLoadMisaligned, BitVec.ofNat 32 a)
  else if sliceSize < a + n then some (if st then causeStoreAccess else causeLoadAccess, BitVec.ofNat 32 a)
  else none

/-- The trap of a package address: a misaligned address traps, and an odd register pair is illegal (DEDUCED, assumption log
10: 04 R95 says that B must be even and R103 names no such case). -/
def pkgTrap (st : Bool) (lop : Nat) (o : LsOp) (a : Nat) : Option (Nat × Word) :=
  if o.b.toNat % 2 = 1 then some (causeIllegal, lsWord lop o)
  else if a % 32 ≠ 0 then some (if st then causeStoreMisaligned else causeLoadMisaligned, BitVec.ofNat 32 a)
  else none

/-- The first of two traps. -/
def firstTrap (a b : Option (Nat × Word)) : Option (Nat × Word) := match a with | some e => some e | none => b

/-- The trap of a load/store operation at issue. The side that is read traps as a load, the side that is written as a
store (DEDUCED, assumption log 10). -/
def Tile.lsTrap (u : Tile) (lop : Nat) (o : LsOp) : Option (Nat × Word) :=
  let n := 32 * lsSectors o
  let sram := u.sramAddr o.a o.imm
  let xb := (u.xr o.b.toNat).toNat
  if lop = 0 then none
  else if lop = lopVLD then sramTrap false (u.sramAddr o.b o.imm) 256
  else if lop = lopVST then sramTrap true (u.sramAddr o.b o.imm) 256
  else if lop = lopNMRD then firstTrap (sliceTrap false xb n) (sramTrap true sram n)
  else if lop = lopNMWR then firstTrap (sramTrap false sram n) (sliceTrap true xb n)
  else if lop = lopXRD then firstTrap (pkgTrap false lop o (u.pkgAddr o.b)) (sramTrap true sram n)
  else if lop = lopXWR then firstTrap (pkgTrap true lop o (u.pkgAddr o.b)) (sramTrap false sram n)
  else if lop = lopNSND then
    firstTrap (sramTrap false sram n)
      (if xb / 2 ^ 21 < 0x600 then sramTrap true (xb % 2 ^ 21) n else none)
  else if lop = lopROWC then firstTrap (pkgTrap true lop o (u.pkgAddr o.b)) (sramTrap false sram 32)
  else some (causeIllegal, lsWord lop o)

/-- Whether an operation starts a transfer. -/
def lopTransfer (lop : Nat) : Bool := lopNMRD ≤ lop && lop ≤ lopROWC

/-- The transfers that the tile waits for; writes that a reset has left behind are not among them (04 R487). -/
def Tile.live (u : Tile) : List Xfer := u.xfers.filter (fun x => x.sent.isNone)

/-- Whether R97 holds a load/store operation back: 16 transfers are outstanding. -/
def Tile.lsHeld (u : Tile) (lop : Nat) : Bool := lopTransfer lop && 16 ≤ u.live.length

/-! ## What a transfer finds at issue (04 R98, 05 R130, 07 R196) -/

/-- The logical number of a running tile. -/
def State.logical (s : State) (t : Nat) : Nat := (s.logicalOf t).getD 0xFFF

/-- Whether tile `t` owns a slot of a resource. -/
def State.ownsSlot (s : State) (t id : Nat) : Bool := (s.calOf id).has (s.logical t)

/-- The sectors that a transfer's requests occupy: each sector in its range, and on the burst path of edge memory every
sector of each granule touched (06 R170, R171). -/
def State.inSwin (s : State) (a : Nat) : Option Nat :=
  match targetOf a with
  | .edge k o => (List.range 8).find? (fun i =>
      let u := o / 0x20_0000
      bit (s.get (pgEmc k) EMC_CFG.SWIN_EN) i && s.get (pgEmc k) (EMC_SWIN.BASE.at i) ≤ u
        && u ≤ s.get (pgEmc k) (EMC_SWIN.BASE.at i) + s.get (pgEmc k) (EMC_SWIN.SIZE.at i))
  | _ => none

def State.accessSectors (s : State) (a n : Nat) : List Nat :=
  let l := sectorsOf a n
  let extra := l.flatMap (fun x =>
    if isEdge x && (s.inSwin x).isNone then (List.range 8).map (fun i => 256 * (x / 256) + 32 * i) else [x])
  if l.any isEdge then extra.eraseDups else l

/-- The status with which a transfer to a package range fails at issue: a hole, a die that is down, a domain that
refuses, or no slot of a resource it needs. -/
def State.pkgStatus (s : State) (t a n : Nat) : Nat :=
  let st := s.rangeStatus a n
  if st ≠ stOk then st
  else if s.rangeRefused a n then stDestDown
  else
    let l := (sectorsOf a n).map resOfSector
    if l.any (·.isNone) then stNoSlot
    else if (l.filterMap id).eraseDups.any (fun r => !s.ownsSlot t r) then stNoSlot
    else stOk

/-- Whether a package range lies outside tile `t`'s own die, so that its traffic passes the drop. -/
def offDie (t a : Nat) : Bool :=
  match targetOf a with
  | .near l _ | .sram l _ => l / 128 != t / 144
  | _ => true

def State.groupFailed (s : State) (g : Nat) : Bool :=
  bit (s.getPair (pgBnet 0) BNET_RED_FAIL_LO.FAILED BNET_RED_FAIL_HI.FAILED) g

def State.group (s : State) (g : Nat) : Option Group := (s.red.groups.find? (fun e => e.1 == g)).map (·.2)

/-- The status with which an `NSND` fails at issue (07 R196). -/
def State.nsndStatus (s : State) (t dest n : Nat) : Nat :=
  let code := dest / 2 ^ 21
  if code < 0x600 then
    if !s.assigned code then stNoTarget else if s.dieDown (code / 128) then stDestDown else stOk
  else if 0x700 ≤ code ∧ code < 0x740 then
    match s.group (code - 0x700) with
    | none => stNoTarget
    | some g =>
      if s.groupFailed (code - 0x700) then stNoTarget
      else if dest % 2 ^ 21 ≠ 0 ∨ n ≠ g.len + 1 ∨ !g.members.contains (s.logical t) then stBadCmd
      else stOk
  else stNoTarget

/-- A new transfer of tile `t`. Where its traffic leaves the die it needs slots of the tile's drop (07 R204). -/
def State.startXfer (s : State) (t : Nat) (kind : XferKind) (sram target n status : Nat) (todo : List Nat) (waits : Bool)
    (inject body : Nat) (ue : Bool) : State :=
  let st := if status = stOk ∧ 0 < inject ∧ !s.ownsSlot t (s.injOf t) then stNoSlot else status
  let ok := st = stOk
  let new (id : Nat) : Xfer :=
    { id := id, kind := kind, sram := sram, target := target, sectors := n, todo := if ok then todo else [],
      status := st, ue := ue, waits := ok && waits, inject := if ok then inject else 0, body := body,
      sent := none, out := none }
  let s1 :=
    if st ≠ stDestDown then s
    else if kind = .nsnd then s.downDrop (sramBase (target / 2 ^ 21)) 32
    else s.downDrop target (32 * n)
  s1.modTile t (fun u => { u with nextId := u.nextId + 1, xfers := u.xfers ++ [new u.nextId] })

/-- `ROWC` past its traps (05 R142, R145): the command is read from SRAM; a command sector that is damaged sends no
command (DEDUCED, assumption log 12). A command that its engine refuses is booked there; without a slot of the port it
reaches none. -/
def State.rowcIssue (s : State) (t sram target : Nat) : State :=
  let r := s.readSectors (fun _ => pgTile t) srcOwner (s.sramAt t sram) 32
  if r.2.2.1 then r.1.startXfer t .rowc sram target 1 stOk [] false 0 0 true
  else
    let owned := (r.1.portOf target).any (fun p => r.1.ownsSlot t p)
    let rs := r.1.rowStatus r.2.1 (some target)
    let st := if rs = stOk ∧ !owned then stNoSlot else rs
    let id := (r.1.tile t).nextId
    let s1 := r.1.startXfer t .rowc sram target 1 st [target] false (if offDie t target then 2 else 0) (leNat r.2.1) false
    if rs ≠ stOk ∧ owned then s1.rowRefuse (rowOfBytes r.2.1 (.tile t id)) (some target) rs else s1

/-- A load/store operation past its traps and holds, with operands from `u` (04 R95). -/
def State.lsApply (s : State) (t : Nat) (u : Tile) (lop : Nat) (o : LsOp) : State :=
  let n := lsSectors o
  let sram := u.sramAddr o.a o.imm
  let xb := (u.xr o.b.toNat).toNat
  let own := nearBase (s.logical t)
  if lop = lopVLD then
    let r := s.tileLoad t (u.sramAddr o.b o.imm) 256
    r.1.modTile t (fun w => { w with v := (List.range 64).foldl (fun m l =>
      mapSet 0 m (64 * o.a.toNat + l) (BitVec.ofNat 32 (field r.2 (4 * l) 4))) w.v })
  else if lop = lopVST then
    s.tileStore t (u.sramAddr o.b o.imm) ((u.vecAll o.a.toNat).flatMap (fun w => leBytes 4 w.toNat))
  else if lop = lopNMRD then
    s.startXfer t .nmrd sram (own + xb) n (s.pkgStatus t (own + xb) (32 * n)) (sectorsOf (own + xb) (32 * n)) false 0 0 false
  else if lop = lopNMWR then
    s.startXfer t .nmwr sram (own + xb) n (s.pkgStatus t (own + xb) (32 * n)) (sectorsOf (own + xb) (32 * n)) false 0 0 false
  else if lop = lopXRD then
    let a := u.pkgAddr o.b
    s.startXfer t .xrd sram a n (s.pkgStatus t a (32 * n)) (s.accessSectors a (32 * n)) false
      (if offDie t a then 1 else 0) 0 false
  else if lop = lopXWR then
    let a := u.pkgAddr o.b
    s.startXfer t .xwr sram a n (s.pkgStatus t a (32 * n)) (s.accessSectors a (32 * n)) false
      (if offDie t a then 1 + n else 0) 0 false
  else if lop = lopNSND then
    let local_ := xb / 2 ^ 21 < 0x600 && (xb / 2 ^ 21) / 128 == t / 144
    s.startXfer t .nsnd sram xb n (s.nsndStatus t xb n) [] true (if local_ then 0 else 1 + n) 0 false
  else if lop = lopROWC then s.rowcIssue t sram (u.pkgAddr o.b)
  else s

/-! ## Moving sectors (04 R97, 06 R168, 13 R373) -/

/-- A code word read at `a` as a mover passes it on: corrected, or poisoned; with whether it was damaged, and the error
counted on `page`. -/
def State.carryWord (s : State) (page : PageRef) (src a : Nat) (w : List Byte) : State × List Byte × Bool :=
  let d := decodeSector w
  (s.reportSector page d.1 a src, if d.1.damaged then poisonWord else codeWord d.2, d.1.damaged)

/-- The code word stored at `a` as a mover passes it on. -/
def State.carry (s : State) (page : PageRef) (src a : Nat) : State × List Byte × Bool :=
  s.carryWord page src a (s.codeWordAt a)

/-- What a read of edge memory is served from (06 R181): the stack, or a line of the summit with the word that it holds. -/
inductive WordFrom where
  | stack
  | line (w : List Byte)
  deriving DecidableEq, Repr

/-- A sector read for its owner, from its memory or from a line; a line's errors count on the SUMT page (06 R182, R183). -/
def State.carryFrom (s : State) (src a : Nat) : WordFrom → State × List Byte × Bool
  | .stack => s.carry (s.errPage a) src a
  | .line w => s.carryWord (pgSumt (a / 0x0020_0000_0000 / 2)) src a w

/-- Whether a package sector lies in a transfer's range. -/
def Xfer.covers (x : Xfer) (a : Nat) : Bool := x.target ≤ a && a < x.target + 32 * x.sectors

/-- A transfer writes to its package range. -/
def Xfer.stores (x : Xfer) : Bool := x.kind == .nmwr || x.kind == .xwr

/-- Sector `i` of what a write or message carries: from SRAM, or as a write left behind by a reset has sent it. -/
def State.sendWord (s : State) (t : Nat) (x : Xfer) (i : Nat) : State × List Byte × Bool :=
  match x.sent with
  | some l => (s, l.getD i poisonWord, false)
  | none => s.carry (pgTile t) srcOwner (s.sramAt t (x.sram + 32 * i))

/-- All the sectors of a write or message, with whether any was damaged. -/
def State.gather (s : State) (t : Nat) (x : Xfer) : State × List (List Byte) × Bool :=
  (List.range x.sectors).foldl (fun (r : State × List (List Byte) × Bool) i =>
    let c := r.1.sendWord t x i
    (c.1, r.2.1 ++ [c.2.1], r.2.2 || c.2.2)) (s, [], false)

/-- One sector of a transfer moves (04 R98, 13 R373), a read from `w`. A write that touches an enabled window is judged and
takes effect whole when the first sector of its range is served (12 R357; assumption log 13). -/
def State.moveSector (s : State) (t : Nat) (x : Xfer) (a : Nat) (w : WordFrom) : State :=
  let done (s : State) (ue : Bool) : State :=
    s.modXfer t x.id (fun x => { x with todo := x.todo.filter (· != a), ue := x.ue || ue })
  if !x.covers a then done s false
  else if x.stores then
    if (s.winsTouched x.target (32 * x.sectors)).isEmpty then
      let c := s.sendWord t x ((a - x.target) / 32)
      done (c.1.putCodeWord a c.2.1) c.2.2
    else if (x.todo.filter x.covers).length = x.sectors then
      let g := s.gather t x
      let v := g.1.guardedWrite stBadCmd x.target g.2.1
      if v.2 = stOk then done v.1 g.2.2
      else v.1.modXfer t x.id (fun x => { x with todo := [], status := v.2 })
    else done s false
  else
    let c := s.carryFrom srcOwner a w
    done (c.1.putCodeWord (c.1.sramAt t (x.sram + (a - x.target))) c.2.1) c.2.2

/-! ## Completion (04 R97, R98, 07 R208) -/

/-- Whether a transfer has nothing left to do. -/
def Xfer.finished (x : Xfer) : Bool := x.todo.isEmpty && x.inject == 0 && !x.waits

/-- A transfer leaves the list with a status (04 R98): the first failure since `FAULT` was cleared is recorded, and a
damaged sector sets `UE`. Nothing is recorded of one that a reset has left behind; the end of an attention output is told
to the attention sequencer (10 R490). -/
def Tile.retire (u : Tile) (x : Xfer) (status : Nat) : Tile :=
  let w := { u with
    xfers := u.xfers.filter (fun y => y.id != x.id), ue := u.ue || (x.ue && x.sent.isNone)
    outEnded := u.outEnded ++ (x.out.map (fun o => (o, status))).toList }
  if status = stOk ∨ x.sent.isSome then w
  else if u.fault then w
  else { w with fault := true, xstatus := status }

/-- The k-th transfer of a tile: those that it waits for in issue order, then those that a reset has left behind. -/
def Tile.nth (u : Tile) (k : Nat) : Option Xfer := (u.live ++ u.xfers.filter (fun x => x.sent.isSome))[k]?

/-- `TRANSFER_COMPLETE`: the k-th outstanding transfer completes once nothing of it is left. -/
def State.xferComplete (s : State) (t k : Nat) : State :=
  match (s.tile t).nth k with
  | some x => if x.finished then s.modTile t (fun u => u.retire x x.status) else s
  | none => s

/-- A transfer's row-engine command, if it waits in a queue, is answered to nobody (07 R208: a later response is
discarded). -/
def State.xferLost (s : State) (t k : Nat) : State :=
  match (s.tile t).nth k with
  | some x => if x.finished || (x.sent.isSome && x.out.isNone) then s else s.modTile t (fun u => u.retire x stLost)
  | none => s

/-- What a reset of tile `t` leaves of its transfers (04 R487, 07 R216): writes, messages and row commands whose flits have
all left, with what they carry, to take effect at their targets; everything else is dropped. -/
def State.sentOff (s : State) (t : Nat) : List Xfer :=
  (s.tile t).xfers.filterMap (fun x =>
    if x.status != stOk || x.inject != 0 || x.finished then none
    else if x.stores || x.kind == .nsnd then some { x with sent := some (s.gather t x).2.1 }
    else if x.kind == .rowc && !x.todo.isEmpty then some { x with sent := some [] }
    else none)

/-- The value of `XSTAT` (04 R98). -/
def Tile.xstat (u : Tile) : Word :=
  BitVec.ofNat 32 (b2n u.fault * 2 ^ 31 + b2n u.ue * 2 ^ 30 + u.xstatus * 2 ^ 16 + u.live.length)

end Sys2Proof.Machine
end

