-- ==== Sys2Proof/Machine/Scalar.lean ====
section
/-! DEFINITION. The control core (04 R88 to R94, R101 to R104): fetch, RV32IMC with Zicsr and the vendor instructions, and
the CSRs. -/

namespace Sys2Proof.Machine

/-! ## Instruction fields -/

def rdOf (w : Nat) : Nat := bits w 11 7
def rs1Of (w : Nat) : Nat := bits w 19 15
def rs2Of (w : Nat) : Nat := bits w 24 20
def f3Of (w : Nat) : Nat := bits w 14 12
def f7Of (w : Nat) : Nat := bits w 31 25

/-- An unsigned field of `n` bits read as a signed number, as a 32-bit word. -/
def sext (n v : Nat) : Word := if bit v (n - 1) then BitVec.ofNat 32 (v + 2 ^ 32 - 2 ^ n) else BitVec.ofNat 32 v

def immI (w : Nat) : Word := sext 12 (bits w 31 20)
def immS (w : Nat) : Word := sext 12 (bits w 31 25 * 32 + bits w 11 7)
def immB (w : Nat) : Word := sext 13 (bits w 31 31 * 4096 + bits w 7 7 * 2048 + bits w 30 25 * 32 + bits w 11 8 * 2)
def immU (w : Nat) : Word := BitVec.ofNat 32 (w / 4096 * 4096)
def immJ (w : Nat) : Word :=
  sext 21 (bits w 31 31 * 2 ^ 20 + bits w 19 12 * 4096 + bits w 20 20 * 2048 + bits w 30 21 * 2)

/-! ## The compressed forms (RV32C, without floating point), as the 32-bit instructions they stand for -/

def encR (f7 rs2 rs1 f3 rd op : Nat) : Nat :=
  f7 * 2 ^ 25 + rs2 * 2 ^ 20 + rs1 * 2 ^ 15 + f3 * 2 ^ 12 + rd * 2 ^ 7 + op
def encI (imm rs1 f3 rd op : Nat) : Nat := imm % 4096 * 2 ^ 20 + rs1 * 2 ^ 15 + f3 * 2 ^ 12 + rd * 2 ^ 7 + op
def encS (imm rs2 rs1 f3 op : Nat) : Nat :=
  imm / 32 % 128 * 2 ^ 25 + rs2 * 2 ^ 20 + rs1 * 2 ^ 15 + f3 * 2 ^ 12 + imm % 32 * 2 ^ 7 + op
def encB (imm rs2 rs1 f3 : Nat) : Nat :=
  bits imm 12 12 * 2 ^ 31 + bits imm 10 5 * 2 ^ 25 + rs2 * 2 ^ 20 + rs1 * 2 ^ 15 + f3 * 2 ^ 12 + bits imm 4 1 * 2 ^ 8
    + bits imm 11 11 * 2 ^ 7 + 0x63
def encJ (imm rd : Nat) : Nat :=
  bits imm 20 20 * 2 ^ 31 + bits imm 10 1 * 2 ^ 21 + bits imm 11 11 * 2 ^ 20 + bits imm 19 12 * 2 ^ 12 + rd * 2 ^ 7 + 0x6F

/-- A field of `n` bits sign-extended to 32 bits, as a number. -/
def sextN (n v : Nat) : Nat := (sext n v).toNat

/-- The 32-bit instruction of a compressed one; none for a reserved encoding. -/
def expandC (c : Nat) : Option Nat :=
  let rdp := 8 + bits c 4 2
  let rsp := 8 + bits c 9 7
  let rd := bits c 11 7
  let rs2 := bits c 6 2
  let imm6 := sextN 6 (bits c 12 12 * 32 + bits c 6 2)
  match c % 4, bits c 15 13 with
  | 0, 0 =>
    let i := bits c 10 7 * 64 + bits c 12 11 * 16 + bits c 5 5 * 8 + bits c 6 6 * 4
    if i = 0 then none else some (encI i 2 0 rdp 0x13)
  | 0, 2 => some (encI (bits c 5 5 * 64 + bits c 12 10 * 8 + bits c 6 6 * 4) rsp 2 rdp 0x03)
  | 0, 6 => some (encS (bits c 5 5 * 64 + bits c 12 10 * 8 + bits c 6 6 * 4) rdp rsp 2 0x23)
  | 1, 0 => some (encI imm6 rd 0 rd 0x13)
  | 1, 1 | 1, 5 =>
    let j := sextN 12 (bits c 12 12 * 2048 + bits c 8 8 * 1024 + bits c 10 9 * 256 + bits c 6 6 * 128 + bits c 7 7 * 64
      + bits c 2 2 * 32 + bits c 11 11 * 16 + bits c 5 3 * 2)
    some (encJ j (if bits c 15 13 = 1 then 1 else 0))
  | 1, 2 => some (encI imm6 0 0 rd 0x13)
  | 1, 3 =>
    if rd = 2 then
      let i := sextN 10 (bits c 12 12 * 512 + bits c 4 3 * 128 + bits c 5 5 * 64 + bits c 2 2 * 32 + bits c 6 6 * 16)
      if i = 0 then none else some (encI i 2 0 2 0x13)
    else
      let i := imm6
      if i = 0 then none else some (i % 2 ^ 20 * 4096 + rd * 2 ^ 7 + 0x37)
  | 1, 4 =>
    match bits c 11 10 with
    | 0 => if bit c 12 then none else some (encI rs2 rsp 5 rsp 0x13)
    | 1 => if bit c 12 then none else some (encI (0x400 + rs2) rsp 5 rsp 0x13)
    | 2 => some (encI imm6 rsp 7 rsp 0x13)
    | _ =>
      if bit c 12 then none
      else match bits c 6 5 with
        | 0 => some (encR 0x20 rdp rsp 0 rsp 0x33)
        | 1 => some (encR 0 rdp rsp 4 rsp 0x33)
        | 2 => some (encR 0 rdp rsp 6 rsp 0x33)
        | _ => some (encR 0 rdp rsp 7 rsp 0x33)
  | 1, f =>
    let i := sextN 9 (bits c 12 12 * 256 + bits c 6 5 * 64 + bits c 2 2 * 32 + bits c 11 10 * 8 + bits c 4 3 * 2)
    some (encB i 0 rsp (if f = 6 then 0 else 1))
  | 2, 0 => if bit c 12 then none else some (encI rs2 rd 1 rd 0x13)
  | 2, 2 => if rd = 0 then none else some (encI (bits c 3 2 * 64 + bits c 12 12 * 32 + bits c 6 4 * 4) 2 2 rd 0x03)
  | 2, 4 =>
    if bit c 12 then
      (if rs2 = 0 then (if rd = 0 then some 0x00100073 else some (encI 0 rd 0 1 0x67))
       else some (encR 0 rs2 rd 0 rd 0x33))
    else if rs2 = 0 then (if rd = 0 then none else some (encI 0 rd 0 0 0x67))
    else some (encR 0 rs2 0 0 rd 0x33)
  | 2, 6 => some (encS (bits c 8 7 * 64 + bits c 12 9 * 4) rs2 2 2 0x23)
  | _, _ => none

/-! ## CSRs (04 R90) -/

/-- Bits of a CSR that software may set; the others read zero. -/
def csrMask (n : Nat) : Option Nat :=
  if n = 0x300 then some 0x88
  else if n = 0x305 ∨ n = 0x340 ∨ n = 0x342 ∨ n = 0x343 then some 0xFFFFFFFF
  else if n = 0x341 then some 0xFFFFFFFE
  else none

/-- Standard CSRs that read zero and ignore writes: `mie`, `mip`, `mstatush`, `mcountinhibit`, the event selectors and
the unimplemented counters. -/
def csrZero (n : Nat) : Bool :=
  n == 0x304 || n == 0x344 || n == 0x310 || n == 0x320 || (0x323 ≤ n && n ≤ 0x33F) || (0xB03 ≤ n && n ≤ 0xB1F)
    || (0xB83 ≤ n && n ≤ 0xB9F)

/-- CSRs whose value the manual leaves to the part: identification and `misa` (assumption log 14). -/
def csrFixed (n : Nat) : Bool := n == 0x301 || (0xF11 ≤ n && n ≤ 0xF15)

/-- The two halves of `mcycle` and of `minstret`. -/
def csrCycle (n : Nat) : Bool := n == 0xB00 || n == 0xB80
def csrInstret (n : Nat) : Bool := n == 0xB02 || n == 0xB82

def csrCounter (n : Nat) : Bool := csrCycle n || csrInstret n

/-- A half of a counter read, and written. -/
def counterHalf (n : Nat) (c : BitVec 64) : Word := BitVec.ofNat 32 (if n < 0xB80 then c.toNat else c.toNat / 2 ^ 32)
def counterSet (n : Nat) (c : BitVec 64) (v : Word) : BitVec 64 :=
  BitVec.ofNat 64 (if n < 0xB80 then c.toNat / 2 ^ 32 * 2 ^ 32 + v.toNat else v.toNat * 2 ^ 32 + c.toNat % 2 ^ 32)

/-- The cycles since `mcycle` was last brought up to date: at least one, and otherwise free, for the model holds no TCLK
(assumption log 15). -/
def State.cycles (s : State) (t : Nat) : State :=
  let f := s.free
  let g := f.2.free
  g.2.modTile t (fun u => { u with mcycle := u.mcycle + 1 + BitVec.ofNat 64 (f.1.toNat + 2 ^ 32 * g.1.toNat) })

/-- One instruction retires: in bundle mode the bundle counts as one (assumption log 15). -/
def Tile.retired (u : Tile) : Tile := { u with minstret := u.minstret + 1 }

def csrVendor (n : Nat) : Bool := n == 0x7C0 || n == 0x7C1 || n == 0x7C2 || n == 0x7C3 || n == 0xFC0 || n == 0xFC1

def csrExists (n : Nat) : Bool := (csrMask n).isSome || csrZero n || csrFixed n || csrCounter n || csrVendor n

/-- The value of `TILEID` (04 R90). -/
def State.tileIdCsr (s : State) (t : Nat) : Word :=
  BitVec.ofNat 32 (t / 144 * 2 ^ 24 + t % 144 * 2 ^ 16 + (s.logicalOf t).getD 0)

/-- The value that a CSR read gives. -/
def State.csrRead (s : State) (t : Nat) (u : Tile) (n : Nat) : Word :=
  if n = 0x7C0 then BitVec.ofNat 32 u.astat
  else if n = 0x7C1 then BitVec.ofNat 32 (2 * b2n u.intrap + b2n u.pbm)
  else if n = 0x7C2 then u.xstat
  else if n = 0x7C3 then u.trope
  else if n = 0xFC0 then s.tileIdCsr t
  else if n = 0xFC1 then BitVec.ofNat 32 (s.get (pgCdie (t / 144)) CDIE_THROT_STAT.STRIDE)
  else if csrFixed n then Config.csrConstant n
  else if csrCycle n then counterHalf n u.mcycle
  else if csrInstret n then counterHalf n u.minstret
  else if csrZero n then 0
  else if n = 0x300 then u.csrGet n ||| 0x1800#32
  else u.csrGet n

/-- A CSR written. The instruction that writes `minstret` counts no retirement of its own, so that the next one reads what was
written. -/
def Tile.csrWrite (u : Tile) (n : Nat) (v : Word) : Tile :=
  if n = 0x7C0 then { u with astat := v.toNat &&& astatMask }
  else if n = 0x7C1 then { u with intrap := v.getLsbD 1, pbm := v.getLsbD 0 }
  else if n = 0x7C2 then
    { u with fault := v.getLsbD 31, ue := v.getLsbD 30, xstatus := if v.getLsbD 31 then u.xstatus else 0 }
  else if n = 0x7C3 then { u with trope := v &&& 0x80000FFF#32 }
  else if csrCycle n then { u with mcycle := counterSet n u.mcycle v }
  else if csrInstret n then { u with minstret := counterSet n u.minstret v - 1 }
  else match csrMask n with
    | some m => u.csrSet n (v &&& BitVec.ofNat 32 m)
    | none => u

/-! ## Arithmetic -/

def aluOp (f3 : Nat) (alt : Bool) (a b : Word) : Word :=
  match f3 with
  | 0 => if alt then a - b else a + b
  | 1 => a <<< (b.toNat % 32)
  | 2 => if a.toInt < b.toInt then 1 else 0
  | 3 => if a.toNat < b.toNat then 1 else 0
  | 4 => a ^^^ b
  | 5 => if alt then a.sshiftRight (b.toNat % 32) else a >>> (b.toNat % 32)
  | 6 => a ||| b
  | _ => a &&& b

/-- The multiplications and divisions of the M extension. -/
def mulOp (f3 : Nat) (a b : Word) : Word :=
  match f3 with
  | 0 => a * b
  | 1 => BitVec.ofInt 32 (a.toInt * b.toInt / 2 ^ 32)
  | 2 => BitVec.ofInt 32 (a.toInt * (b.toNat : Int) / 2 ^ 32)
  | 3 => BitVec.ofNat 32 (a.toNat * b.toNat / 2 ^ 32)
  | 4 => if b = 0 then BitVec.allOnes 32 else BitVec.ofInt 32 (a.toInt.tdiv b.toInt)
  | 5 => if b = 0 then BitVec.allOnes 32 else a / b
  | 6 => if b = 0 then a else BitVec.ofInt 32 (a.toInt.tmod b.toInt)
  | _ => if b = 0 then a else a % b

def branchTaken (f3 : Nat) (a b : Word) : Option Bool :=
  match f3 with
  | 0 => some (a == b)
  | 1 => some (a != b)
  | 4 => some (a.toInt < b.toInt)
  | 5 => some (b.toInt ≤ a.toInt)
  | 6 => some (a.toNat < b.toNat)
  | 7 => some (b.toNat ≤ a.toNat)
  | _ => none

/-! ## Loads and stores (04 R89) -/

def scratchBase : Nat := 0x200000
def scratchSize : Nat := 0x2000

/-- Width in bytes of a load or store, and whether the code is one. -/
def accessWidth (f3 : Nat) : Option Nat :=
  match f3 with
  | 0 | 4 => some 1
  | 1 | 5 => some 2
  | 2 => some 4
  | _ => none

/-- A loaded value extended to 32 bits. -/
def extendLoad (f3 v : Nat) : Word := if f3 = 0 then sext 8 v else if f3 = 1 then sext 16 v else BitVec.ofNat 32 v

/-- What one control-slot instruction does: a trap, a wait in `FENCE.T`, or the state after it with the core's next
address set. -/
inductive Ctl where
  | trap (cause : Nat) (mtval : Word)
  | wait (n : Nat)
  | go (s : State)

def inScratch (a n : Nat) : Bool := scratchBase ≤ a && a + n ≤ scratchBase + scratchSize

/-- A control-core load of `n` bytes at `a` (04 R89, R103). -/
def State.ctlLoad (s : State) (t : Nat) (u : Tile) (a n : Nat) (k : State → Nat → State) : Ctl :=
  let addr := BitVec.ofNat 32 a
  if a % n ≠ 0 then .trap causeLoadMisaligned addr
  else if a + n ≤ sramSize then
    let r := s.tileLoad t a n
    .go (k r.1 (leNat r.2))
  else if inScratch a n then
    let o := a - scratchBase
    if (List.range n).any (fun i => u.scratchBad.contains (o + i)) then .trap causeScratchParity addr
    else .go (k s (leNat (memRead u.scratch o n)))
  else .trap causeLoadAccess addr

/-- A control-core store (04 R89): only to the scalar scratch. -/
def State.ctlStore (s : State) (t : Nat) (a n : Nat) (v : Word) (k : State → State) : Ctl :=
  let addr := BitVec.ofNat 32 a
  if a % n ≠ 0 then .trap causeStoreMisaligned addr
  else if inScratch a n then
    let o := a - scratchBase
    .go (k (s.modTile t (fun u => { u with
      scratch := memWrite u.scratch o (leBytes n v.toNat)
      scratchBad := u.scratchBad.filter (fun i => i < o || o + n ≤ i) })))
  else .trap causeStoreAccess addr

/-! ## One instruction -/

/-- A write of x[rd] and the next address. -/
def State.ctlNext (s : State) (t pc rd : Nat) (v : Word) : State :=
  s.modTile t (fun u => { u.setX rd v with pc := pc % 2 ^ 32 })

/-- A jump to `target`, in the mode it enters (04 R94, R103): a bundle-mode target is a multiple of 16. -/
def State.ctlJump (s : State) (t : Nat) (target : Word) (bundle : Bool) (rd : Nat) (link : Word) : Ctl :=
  let a := if bundle then target.toNat else target.toNat / 2 * 2
  if bundle && a % 16 != 0 then .trap causeInstrMisaligned (BitVec.ofNat 32 a)
  else .go (s.modTile t (fun u => { u.setX rd link with pc := a, bmode := bundle }))

/-- `FENCE.T` (04 R94, R97). -/
def Tile.ctlFence (u : Tile) (n : Nat) (k : State) : Ctl :=
  if n < u.live.length then .wait n else if u.fault then .trap causeTransferFault u.xstat else .go k

/-- `MRET` (04 R102). -/
def State.ctlMret (s : State) (t : Nat) (u : Tile) : Ctl :=
  let a := (u.csrGet csrMepc).toNat
  if u.pbm && a % 16 != 0 then .trap causeInstrMisaligned (BitVec.ofNat 32 a)
  else .go (s.modTile t (fun w => { w.csrSet csrMstatus (mretStatus (u.csrGet csrMstatus)) with
    pc := a, bmode := u.pbm, intrap := false }))

/-- A CSR instruction (Zicsr): the old value to x[rd], the new one to the CSR. -/
def State.ctlCsr (s : State) (t : Nat) (u : Tile) (w next : Nat) : Ctl :=
  let n := bits w 31 20
  let f3 := f3Of w
  let src : Word := if 4 ≤ f3 then BitVec.ofNat 32 (rs1Of w) else u.xr (rs1Of w)
  let writes := f3 % 4 = 1 ∨ rs1Of w ≠ 0
  if !csrExists n || (n / 1024 == 3 && decide writes) then .trap causeIllegal (BitVec.ofNat 32 w)
  else
    let s1 := if csrCycle n then s.cycles t else s
    let old := s1.csrRead t { u with mcycle := (s1.tile t).mcycle } n
    let v := if f3 % 4 = 1 then src else if f3 % 4 = 2 then old ||| src else old &&& ~~~src
    let s2 := if writes then s1.modTile t (fun u => u.csrWrite n v) else s1
    .go (s2.ctlNext t next (rdOf w) old)

/-- One 32-bit control-slot instruction at the core's address, with operands from `u`: `len` bytes long, 16 in bundle
mode; `word` is what `mtval` shows of an illegal one. -/
def State.ctl (s : State) (t : Nat) (u : Tile) (w len word : Nat) : Ctl :=
  let ill : Ctl := .trap causeIllegal (BitVec.ofNat 32 word)
  let pc := u.pc
  let next := pc + len
  let a := u.xr (rs1Of w)
  let b := u.xr (rs2Of w)
  let f3 := f3Of w
  let f7 := f7Of w
  let put (v : Word) : Ctl := .go (s.ctlNext t next (rdOf w) v)
  match w % 128 with
  | 0x37 => put (immU w)
  | 0x17 => put (BitVec.ofNat 32 pc + immU w)
  | 0x6F => s.ctlJump t (BitVec.ofNat 32 pc + immJ w) u.bmode (rdOf w) (BitVec.ofNat 32 next)
  | 0x67 =>
    if f3 = 0 then s.ctlJump t ((a + immI w) &&& ~~~1#32) u.bmode (rdOf w) (BitVec.ofNat 32 next) else ill
  | 0x63 =>
    match branchTaken f3 a b with
    | none => ill
    | some true => s.ctlJump t (BitVec.ofNat 32 pc + immB w) u.bmode 0 0
    | some false => .go (s.ctlNext t next 0 0)
  | 0x03 =>
    match accessWidth f3 with
    | none => ill
    | some n => s.ctlLoad t u (a + immI w).toNat n (fun s v => s.ctlNext t next (rdOf w) (extendLoad f3 v))
  | 0x23 =>
    if 3 ≤ f3 then ill
    else s.ctlStore t (a + immS w).toNat (2 ^ f3) b (fun s => s.ctlNext t next 0 0)
  | 0x13 =>
    if f3 = 1 ∧ f7 ≠ 0 then ill
    else if f3 = 5 ∧ f7 ≠ 0 ∧ f7 ≠ 0x20 then ill
    else put (aluOp f3 (f3 == 5 && f7 == 0x20) a (if f3 = 1 ∨ f3 = 5 then BitVec.ofNat 32 (rs2Of w) else immI w))
  | 0x33 =>
    if f7 = 1 then put (mulOp f3 a b)
    else if f7 = 0 ∨ (f7 = 0x20 ∧ (f3 = 0 ∨ f3 = 5)) then put (aluOp f3 (f7 == 0x20) a b)
    else ill
  | 0x0F => if f3 = 0 then .go (s.ctlNext t next 0 0) else ill
  | 0x73 =>
    if f3 = 0 then
      (if w = 0x00000073 then .trap causeEcall 0
       else if w = 0x00100073 then .trap causeBreakpoint (BitVec.ofNat 32 pc)
       else if w = 0x30200073 then s.ctlMret t u
       else if w = 0x10500073 then .go (s.ctlNext t next 0 0)
       else ill)
    else if f3 = 4 then ill
    else s.ctlCsr t u w next
  | 0x0B =>
    match f3 with
    | 0 => s.ctlJump t (a + immI w) true (rdOf w) (BitVec.ofNat 32 next)
    | 1 => s.ctlJump t (a + immI w) false (rdOf w) (BitVec.ofNat 32 (pc + 16))
    | 2 => u.ctlFence (bits w 24 20) (s.ctlNext t next 0 0)
    | _ => ill
  | _ => ill

/-! ## Fetch (04 R101) -/

/-- What a fetch gives: bytes, or a trap. Corrected and uncorrectable sectors count on the TILE page (05 R138, 13 R374). -/
def State.fetch (s : State) (t a n : Nat) : State × Option (List Byte) × Nat :=
  if sramSize < a + n then (s, none, causeInstrAccess)
  else
    let secs := sectorsOf (s.sramAt t a) n
    let s1 := s.reportAll (fun _ => pgTile t) srcOwner secs
    if secs.any (fun x => (s.sector x).1.damaged) then (s1, none, causeFetchUE)
    else (s1, some (slice (secs.flatMap (fun x => (s.sector x).2)) (s.sramAt t a % 32) n), 0)

/-- The end of a control instruction: its trap taken, its wait begun, or its state, in which it has retired. -/
def State.endCtl (s : State) (t : Nat) (c : Ctl) : State :=
  match c with
  | .trap cause v =>
    let s1 := if cause = causeScratchParity then
        s.report (pgTile t) .u 0x04 ((v.toNat - scratchBase) % 8192) 0 0
      else s
    s1.trap t cause v
  | .wait n => s.modTile t (fun u => { u with fenceWait := some n })
  | .go s' => s'.modTile t Tile.retired

/-- One instruction in scalar mode (04 R88): two bytes are fetched, and two more for a 32-bit instruction. -/
def State.scalarStep (s : State) (t : Nat) : State :=
  let pc := (s.tile t).pc
  let stop (r : State × Option (List Byte) × Nat) : State := r.1.trap t r.2.2 (BitVec.ofNat 32 pc)
  let h := s.fetch t pc 2
  match h.2.1 with
  | none => stop h
  | some b =>
    let c := leNat b
    if c % 4 ≠ 3 then
      match expandC c with
      | some w => h.1.endCtl t (h.1.ctl t (h.1.tile t) w 2 c)
      | none => h.1.trap t causeIllegal (BitVec.ofNat 32 c)
    else
      let g := s.fetch t pc 4
      match g.2.1 with
      | none => stop g
      | some b => g.1.endCtl t (g.1.ctl t (g.1.tile t) (leNat b) 4 (leNat b))

end Sys2Proof.Machine
end

