-- ==== Sys2Proof/Machine/Issue.lean ====
section
/-! DEFINITION. Issue of the operations of a tile: one operation of a slot with its traps and holds (03 R63, R82, 04 R92,
R97), whole bundles (04 R91, R92, R102), and the life of a tile's program (04 R105, R487). -/

namespace Sys2Proof.Machine

/-- An operation of one of the slots other than the control slot. -/
inductive SlotOp where
  | nop
  | ls (lop : Nat) (o : LsOp)
  | vec (vop : Nat) (o : VecOp)
  | amac (o : ArrOp)
  | adist (o : ArrOp)
  | apld (o : PlaneOp)
  | awarm
  | acool
  | illegal (word : Word)
  deriving DecidableEq, Repr

/-- The trap of an operation at issue. -/
def State.opTrap (s : State) (u : Tile) : SlotOp → Option (Nat × Word)
  | .ls lop o => u.lsTrap lop o
  | .vec vop o => u.vecTrap vop o
  | .amac o => u.amacTrap o
  | .adist o => s.adistTrap u o
  | .apld o => u.apldTrap o
  | .illegal w => some (causeIllegal, w)
  | .nop | .awarm | .acool => none

/-- Whether an operation needs the lanes ON (03 R82). -/
def SlotOp.lanes : SlotOp → Bool
  | .amac _ | .adist _ => true
  | _ => false

/-- Whether R63 or R97 holds an operation back. -/
def Tile.opHeld (u : Tile) : SlotOp → Bool
  | .ls lop _ => u.lsHeld lop
  | .vec vop o => u.vecHeld vop o
  | .amac o | .adist o => u.arrHeld o ((fmtClass o.fmtx.toNat).getD .i)
  | _ => false

/-- Whether tile `t` holds slots of both bank groups of its slice, which a plane load from it needs (03 R64, 04 R113). -/
def State.holdsSlice (s : State) (t : Nat) : Bool :=
  (List.range 2).all (fun g => s.ownsSlot t (nmbgId (s.logical t / 128) (s.logical t % 128) g))

/-- `APLD` past its traps and holds: from a slice without slots it ends with NO_SLOT (04 R113). -/
def State.apldStart (s : State) (t : Nat) (u : Tile) (o : PlaneOp) : State :=
  let s1 := s.apldIssue t u o
  if o.src && !s.holdsSlice t then
    s.modTile t (fun w => match (s1.tile t).loads.getLast? with
      | some l => w.refuseLoad l
      | none => w)
  else s1

/-- An operation past its traps and holds, with operands from `u`. -/
def State.opApply (s : State) (t : Nat) (u : Tile) : SlotOp → State
  | .ls lop o => s.lsApply t u lop o
  | .vec vop o => s.vecApply t u vop o
  | .amac o => s.amacIssue t u o
  | .adist o => s.adistIssue t u o
  | .apld o => s.apldStart t u o
  | .awarm => s.warm t
  | .acool => s.coolDown t
  | .nop | .illegal _ => s

/-- One operation offered to a tile for issue: nothing while the tile does not issue; its trap; the ramp it starts while
the lanes are not ON; nothing while it is held back; its effect. -/
def State.runOp (s : State) (t : Nat) (op : SlotOp) : State :=
  if !s.issues t then s
  else
    let u := s.tile t
    match s.opTrap u op with
    | some (c, v) => s.trap t c v
    | none =>
      if op.lanes && s.arrState t != rampOn then s.rampForOp t
      else if u.opHeld op then s
      else s.opApply t u op

/-- A control-slot instruction offered for issue outside a bundle or stream, which then goes where it jumps. -/
def State.runCtl (s : State) (t : Nat) (f : Tile → Ctl) : State :=
  if s.issues t then s.endCtl t (f (s.tile t)) else s

/-! ## Bundles (04 R91, R92, R94, R95, R99, R100) -/

def lsOfWord (w : Nat) : SlotOp :=
  let lop := bits w 31 28
  if lop = 0 then .nop
  else .ls lop ⟨BitVec.ofNat 5 (bits w 27 23), BitVec.ofNat 5 (bits w 22 18), BitVec.ofNat 10 (bits w 17 8),
    BitVec.ofNat 8 (bits w 7 0)⟩

def vecOfWord (w : Nat) : SlotOp :=
  let vop := bits w 31 26
  if vop = 0 then .nop
  else .vec vop ⟨BitVec.ofNat 5 (bits w 25 21), BitVec.ofNat 5 (bits w 20 16), BitVec.ofNat 5 (bits w 15 11),
    BitVec.ofNat 5 (bits w 10 6), bit w 5, BitVec.ofNat 3 (bits w 4 2), bit w 1, bit w 0⟩

/-- The array slot; a reserved code or a reserved bit that is not 0 is illegal (04 R103: any reserved encoding). -/
def arrOfWord (w : Nat) : SlotOp :=
  let op : ArrOp := ⟨BitVec.ofNat 5 (bits w 27 23), BitVec.ofNat 1 (bits w 22 22), BitVec.ofNat 5 (bits w 21 17),
    BitVec.ofNat 5 (bits w 16 12), BitVec.ofNat 3 (bits w 16 14), BitVec.ofNat 4 (bits w 11 8),
    BitVec.ofNat 4 (bits w 7 4), bit w 3, bit w 2, bit w 1⟩
  let bad : SlotOp := .illegal (BitVec.ofNat 32 w)
  match bits w 31 28 with
  | 0 => .nop
  | 1 => if bit w 0 then bad else .amac op
  | 2 => if bit w 0 || bits w 13 12 != 0 then bad else .adist op
  | 3 =>
    if bits w 27 23 ≠ 0 ∨ bits w 9 0 ≠ 0 then bad
    else .apld ⟨BitVec.ofNat 1 (bits w 22 22), BitVec.ofNat 5 (bits w 21 17), BitVec.ofNat 5 (bits w 16 12), bit w 11,
      bit w 10⟩
  | 4 => if bits w 27 0 = 0 then .awarm else bad
  | 5 => if bits w 27 0 = 0 then .acool else bad
  | _ => bad

/-- Vector operations whose result is written before a load of the same bundle comes back (03 R77: latency 2; 04 R95:
a load is readable after 3 TCLK). -/
def vecEarly (op : SlotOp) : Bool :=
  match op with
  | .vec vop _ => (0x05 ≤ vop && vop ≤ 0x0C) || vop == 0x18 || vop == 0x19
  | _ => false

/-- The traps of a bundle's slots in slot order, the control slot first. -/
def bundleTraps (s : State) (u : Tile) (c : Ctl) (ops : List SlotOp) : List (Nat × Word) :=
  (match c with | .trap a v => [(a, v)] | _ => []) ++ ops.filterMap (s.opTrap u)

/-- One bundle (04 R92, R101, R102): fetched; a trap of any slot lets none take effect, and of several the one recorded
is left open; a wait or a hold stalls it whole; otherwise every slot acts on the operands from before. -/
def State.bundleStep (s : State) (t : Nat) : State :=
  let u := s.tile t
  let pc := u.pc
  let f := s.fetch t pc 16
  match f.2.1 with
  | none => f.1.trap t f.2.2 (BitVec.ofNat 32 pc)
  | some b =>
    let s0 := f.1
    let w := field b 0 4
    let ls := lsOfWord (field b 4 4)
    let arr := arrOfWord (field b 8 4)
    let vec := vecOfWord (field b 12 4)
    let ctl (s : State) : Ctl :=
      if w % 4 ≠ 3 then .trap causeIllegal (BitVec.ofNat 32 w) else s.ctl t u w 16 w
    let c0 := ctl s0
    match bundleTraps s0 u c0 [ls, arr, vec] with
    | x :: l =>
      let all := x :: l
      let e := if l.isEmpty then x else all.getD ((Config.freeValue s0.fresh).toNat % all.length) x
      let s1 := if l.isEmpty then s0 else { s0 with fresh := s0.fresh + 1 }
      s1.endCtl t (.trap e.1 e.2)
    | [] =>
      match c0 with
      | .wait _ => s0.endCtl t c0
      | _ =>
        if arr.lanes && s0.arrState t != rampOn then s0.rampForOp t
        else if u.opHeld ls || u.opHeld arr || u.opHeld vec then s0
        else
          let s1 := s0.opApply t u arr
          let s2 := if vecEarly vec then (s1.opApply t u vec).opApply t u ls else (s1.opApply t u ls).opApply t u vec
          s2.endCtl t (ctl s2)

/-! ## Starting and stopping (04 R105, R487) -/

/-- `TILE_CTL.START` (04 R105): ignored while the tile is not on (14 R398). The core starts with nothing of an earlier
run pending. -/
def State.tileStart (s : State) (t : Nat) : State :=
  if s.get (pgTile t) PAGE_PWR.STATE = 0 ∧ (s.tileRun t = runIdle ∨ s.tileRun t = runHalted) then
    (s.put (pgTile t) TILE_STAT.RUN runRunning).modTile t (fun u => { u with
      pc := 16 * s.get (pgTile t) TILE_ENTRY.ADDR, bmode := s.flag (pgTile t) TILE_ENTRY.BMODE, fenceWait := none,
      halting := false })
  else s

/-- `TILE_CTL.HALT` (04 R105): issue stops at the next bundle boundary. -/
def State.tileHalt (s : State) (t : Nat) : State :=
  if s.tileRun t = runRunning then s.modTile t (fun u => { u with halting := true }) else s

/-- Whether a tile has nothing in flight. -/
def Tile.quiet (u : Tile) : Bool := u.live.isEmpty && u.flight.isEmpty && u.loads.isEmpty

/-- A halting tile with nothing left in flight records its next bundle and stands halted (04 R105). -/
def State.tileHaltDone (s : State) (t : Nat) : State :=
  let u := s.tile t
  if u.halting && u.quiet then
    ((s.put (pgTile t) TILE_PC.PC u.pc).put (pgTile t) TILE_STAT.RUN runHalted).modTile t
      (fun u => { u with halting := false, fenceWait := none })
  else s

/-- Array operations already issued write their results (03 R61, 04 R487). -/
def Tile.settle (u : Tile) : Tile :=
  { u.flight.foldl Tile.writeResult u with flight := [] }

/-- Registers and units of a tile as after package reset; its scratch stays. A counter of identifiers goes on, and so do
the writes `sent` that take effect all the same, and the taint notices on their way (13 R372). -/
def Tile.fresh (u : Tile) (sent : List Xfer) : Tile :=
  { Tile.init with scratch := u.scratch, scratchBad := u.scratchBad, nextId := u.nextId, xfers := sent,
                   taintWait := u.taintWait, outEnded := u.outEnded }

/-- Whether a tile's map state gives its page a soft reset: `STATE` 0 or 5 (04 R487). -/
def State.tileServes (s : State) (t : Nat) : Bool := s.tmapState t == 0 || s.tmapState t == 5

/-- A soft reset of a TILE page (04 R487): transfers are abandoned but for the writes already sent, the tile's units return to their reset values, SRAM,
scratch, boot state and the fence stay. The configuration registers follow 02 R43. -/
def State.tileSoftReset (s : State) (t : Nat) : State :=
  if !s.tileServes t then s
  else
    let p := pgTile t
    let fenced := s.tileRun t = runFenced
    let s1 := ((s.modTile t (fun u => u.fresh (s.sentOff t))).put p TILE_PC.PC 0).put p TILE_STAT.CAUSE 0
    let s2 := (s1.put p TILE_STAT.RUN (if fenced then runFenced else runIdle)).setArr t rampOff 0
    (s2.put p TILE_ZERO_CNT.COUNT 0).put p TILE_NOROPE_CNT.COUNT 0

end Sys2Proof.Machine
end

