-- ==== Sys2Proof/Machine/Tiles.lean ====
section
/-! DEFINITION. The meanings of the commands that run a tile (03, 04): its operations one by one, bundles and scalar
instructions, the array's events, transfers, starting and stopping. -/

namespace Sys2Proof.Machine

/-! ## The vector slot (03 R73 to R81, 04 R100) -/

/-- `VADD` (04 R100, opcode 0x01). -/
def execVadd (t : TileId) (o : VecOp) (s : State) : Host.Outcome State Fault Refusal :=
  .next (s.runOp t (.vec 0x01 o))

/-- `VSUB` (04 R100, opcode 0x02). -/
def execVsub (t : TileId) (o : VecOp) (s : State) : Host.Outcome State Fault Refusal :=
  .next (s.runOp t (.vec 0x02 o))

/-- `VMUL` (04 R100, opcode 0x03). -/
def execVmul (t : TileId) (o : VecOp) (s : State) : Host.Outcome State Fault Refusal :=
  .next (s.runOp t (.vec 0x03 o))

/-- `VFMA` (04 R100, opcode 0x04). -/
def execVfma (t : TileId) (o : VecOp) (s : State) : Host.Outcome State Fault Refusal :=
  .next (s.runOp t (.vec 0x04 o))

/-- `VMIN` (04 R100, opcode 0x05). -/
def execVmin (t : TileId) (o : VecOp) (s : State) : Host.Outcome State Fault Refusal :=
  .next (s.runOp t (.vec 0x05 o))

/-- `VMAX` (04 R100, opcode 0x06). -/
def execVmax (t : TileId) (o : VecOp) (s : State) : Host.Outcome State Fault Refusal :=
  .next (s.runOp t (.vec 0x06 o))

/-- `VABS` (04 R100, opcode 0x07). -/
def execVabs (t : TileId) (o : VecOp) (s : State) : Host.Outcome State Fault Refusal :=
  .next (s.runOp t (.vec 0x07 o))

/-- `VNEG` (04 R100, opcode 0x08). -/
def execVneg (t : TileId) (o : VecOp) (s : State) : Host.Outcome State Fault Refusal :=
  .next (s.runOp t (.vec 0x08 o))

/-- `VCMP.EQ` (04 R100, opcode 0x09). -/
def execVcmpEq (t : TileId) (o : VecOp) (s : State) : Host.Outcome State Fault Refusal :=
  .next (s.runOp t (.vec 0x09 o))

/-- `VCMP.LT` (04 R100, opcode 0x0A). -/
def execVcmpLt (t : TileId) (o : VecOp) (s : State) : Host.Outcome State Fault Refusal :=
  .next (s.runOp t (.vec 0x0A o))

/-- `VCMP.LE` (04 R100, opcode 0x0B). -/
def execVcmpLe (t : TileId) (o : VecOp) (s : State) : Host.Outcome State Fault Refusal :=
  .next (s.runOp t (.vec 0x0B o))

/-- `VSEL` (04 R100, opcode 0x0C). -/
def execVsel (t : TileId) (o : VecOp) (s : State) : Host.Outcome State Fault Refusal :=
  .next (s.runOp t (.vec 0x0C o))

/-- `VEXP2` (04 R100, opcode 0x10). -/
def execVexp2 (t : TileId) (o : VecOp) (s : State) : Host.Outcome State Fault Refusal :=
  .next (s.runOp t (.vec 0x10 o))

/-- `VEXP` (04 R100, opcode 0x11). -/
def execVexp (t : TileId) (o : VecOp) (s : State) : Host.Outcome State Fault Refusal :=
  .next (s.runOp t (.vec 0x11 o))

/-- `VRCP` (04 R100, opcode 0x12). -/
def execVrcp (t : TileId) (o : VecOp) (s : State) : Host.Outcome State Fault Refusal :=
  .next (s.runOp t (.vec 0x12 o))

/-- `VRSQRT` (04 R100, opcode 0x13). -/
def execVrsqrt (t : TileId) (o : VecOp) (s : State) : Host.Outcome State Fault Refusal :=
  .next (s.runOp t (.vec 0x13 o))

/-- `VRSUM` (04 R100, opcode 0x14). -/
def execVrsum (t : TileId) (o : VecOp) (s : State) : Host.Outcome State Fault Refusal :=
  .next (s.runOp t (.vec 0x14 o))

/-- `VRMAX` (04 R100, opcode 0x15). -/
def execVrmax (t : TileId) (o : VecOp) (s : State) : Host.Outcome State Fault Refusal :=
  .next (s.runOp t (.vec 0x15 o))

/-- `VACC` (04 R100, opcode 0x18). -/
def execVacc (t : TileId) (o : VecOp) (s : State) : Host.Outcome State Fault Refusal :=
  .next (s.runOp t (.vec 0x18 o))

/-- `VTOA` (04 R100, opcode 0x19). -/
def execVtoa (t : TileId) (o : VecOp) (s : State) : Host.Outcome State Fault Refusal :=
  .next (s.runOp t (.vec 0x19 o))

/-- `VCVT` (04 R100, opcode 0x1C). -/
def execVcvt (t : TileId) (o : VecOp) (s : State) : Host.Outcome State Fault Refusal :=
  .next (s.runOp t (.vec 0x1C o))

/-- `VCVT with an INT32 source` (04 R100, opcode 0x1D). -/
def execVcvtInt32 (t : TileId) (o : VecOp) (s : State) : Host.Outcome State Fault Refusal :=
  .next (s.runOp t (.vec 0x1D o))

/-- `VQMX` (04 R100, opcode 0x1E). -/
def execVqmx (t : TileId) (o : VecOp) (s : State) : Host.Outcome State Fault Refusal :=
  .next (s.runOp t (.vec 0x1E o))

/-- `TKCLR` (04 R100, opcode 0x20). -/
def execTkclr (t : TileId) (o : VecOp) (s : State) : Host.Outcome State Fault Refusal :=
  .next (s.runOp t (.vec 0x20 o))

/-- `TKINS` (04 R100, opcode 0x21). -/
def execTkins (t : TileId) (o : VecOp) (s : State) : Host.Outcome State Fault Refusal :=
  .next (s.runOp t (.vec 0x21 o))

/-- `TKMRG` (04 R100, opcode 0x22). -/
def execTkmrg (t : TileId) (o : VecOp) (s : State) : Host.Outcome State Fault Refusal :=
  .next (s.runOp t (.vec 0x22 o))

/-- `TKRD` (04 R100, opcode 0x23). -/
def execTkrd (t : TileId) (o : VecOp) (s : State) : Host.Outcome State Fault Refusal :=
  .next (s.runOp t (.vec 0x23 o))

/-- `TKSWAP` (04 R100, opcode 0x24). -/
def execTkswap (t : TileId) (o : VecOp) (s : State) : Host.Outcome State Fault Refusal :=
  .next (s.runOp t (.vec 0x24 o))

/-! ## The load/store slot (04 R95) -/

/-- `VLD` (04 R95). -/
def execVld (t : TileId) (o : LsOp) (s : State) : Host.Outcome State Fault Refusal :=
  .next (s.runOp t (.ls lopVLD o))

/-- `VST` (04 R95). -/
def execVst (t : TileId) (o : LsOp) (s : State) : Host.Outcome State Fault Refusal :=
  .next (s.runOp t (.ls lopVST o))

/-- `NMRD` (04 R95). -/
def execNmrd (t : TileId) (o : LsOp) (s : State) : Host.Outcome State Fault Refusal :=
  .next (s.runOp t (.ls lopNMRD o))

/-- `NMWR` (04 R95). -/
def execNmwr (t : TileId) (o : LsOp) (s : State) : Host.Outcome State Fault Refusal :=
  .next (s.runOp t (.ls lopNMWR o))

/-- `XRD` (04 R95). -/
def execXrd (t : TileId) (o : LsOp) (s : State) : Host.Outcome State Fault Refusal :=
  .next (s.runOp t (.ls lopXRD o))

/-- `XWR` (04 R95). -/
def execXwr (t : TileId) (o : LsOp) (s : State) : Host.Outcome State Fault Refusal :=
  .next (s.runOp t (.ls lopXWR o))

/-- `NSND` (04 R95). -/
def execNsnd (t : TileId) (o : LsOp) (s : State) : Host.Outcome State Fault Refusal :=
  .next (s.runOp t (.ls lopNSND o))

/-- `ROWC` (04 R95). -/
def execRowc (t : TileId) (o : LsOp) (s : State) : Host.Outcome State Fault Refusal :=
  .next (s.runOp t (.ls lopROWC o))

/-- `TRANSFER_COMPLETE` (04 R98). -/
def execTransferComplete (t : TileId) (k : Fin 16) (s : State) : Host.Outcome State Fault Refusal :=
  .next (s.xferComplete t k)

/-- `TRANSFER_LOST` (07 R208): 2 ms have passed since issue. -/
def execTransferLost (t : TileId) (k : Fin 16) (s : State) : Host.Outcome State Fault Refusal :=
  .next (s.xferLost t k)

/-! ## The array slot (03 R56 to R72, R82 to R84, 04 R99) -/

/-- `AMAC` (03 R65, R66). -/
def execAmac (t : TileId) (o : ArrOp) (s : State) : Host.Outcome State Fault Refusal := .next (s.runOp t (.amac o))

/-- `ADIST` (03 R70). -/
def execAdist (t : TileId) (o : ArrOp) (s : State) : Host.Outcome State Fault Refusal := .next (s.runOp t (.adist o))

/-- `APLD` (03 R64). -/
def execApld (t : TileId) (o : PlaneOp) (s : State) : Host.Outcome State Fault Refusal := .next (s.runOp t (.apld o))

/-- The oldest load of a plane that has all its data completes (03 R64). No rule holds a second `APLD` to the same plane
back while one is under way, nor says which of the two the plane keeps: both run, and each takes the plane when it completes
(DESIGN CHOICE, assumption log 8). -/
def State.loadDone (s : State) (t p : Nat) : State :=
  match (s.tile t).loads.find? (fun l => l.plane == p && l.todo.isEmpty) with
  | some l => s.modTile t (fun u => { u.takeLoad l with loads := u.loads.filter (fun m => m.id != l.id) })
  | none => s

/-- `APLD_COMPLETE` (03 R64). -/
def execApldComplete (t : TileId) (plane : Fin 2) (s : State) : Host.Outcome State Fault Refusal :=
  .next (s.loadDone t plane)

/-- `AWARM` (03 R82). -/
def execAwarm (t : TileId) (s : State) : Host.Outcome State Fault Refusal := .next (s.runOp t .awarm)

/-- `ACOOL` (03 R82). -/
def execAcool (t : TileId) (s : State) : Host.Outcome State Fault Refusal := .next (s.runOp t .acool)

/-- `RAMP_STEP` (03 R83). -/
def execRampStep (t : TileId) (s : State) : Host.Outcome State Fault Refusal := .next (s.rampStep t)

/-- The idle count of an array that is ON reaches 8 times a nonzero `IDLE` with nothing in flight (03 R82). -/
def State.arrayIdle (s : State) (t : Nat) : State :=
  let n := s.get (pgTile t) TILE_ARR_CFG.IDLE
  if s.arrState t = rampOn ∧ n ≠ 0 ∧ (s.tile t).flight.isEmpty then
    (s.modTile t (fun u => { u with idle := 8 * n })).beginDown t
  else s

/-- `ARRAY_IDLE_TIMEOUT` (03 R82). -/
def execArrayIdleTimeout (t : TileId) (s : State) : Host.Outcome State Fault Refusal := .next (s.arrayIdle t)

/-- The oldest array operation in flight writes its result (03 R61); an `ACOOL` that waited for the last one begins its
ramp-down (03 R82). -/
def State.arrayResult (s : State) (t : Nat) : State :=
  match (s.tile t).flight with
  | [] => s
  | f :: rest =>
    let s1 := s.modTile t (fun u => { u.writeResult f with flight := rest })
    if rest.isEmpty && (s1.tile t).cool && s1.arrState t == rampOn then s1.beginDown t else s1

/-- `ARRAY_RESULT_WRITE` (03 R61). -/
def execArrayResultWrite (t : TileId) (s : State) : Host.Outcome State Fault Refusal := .next (s.arrayResult t)

/-! ## Bundles and the control core (04 R88 to R94, R102) -/

/-- `BUNDLE_ISSUE` (04 R92): in bundle mode. -/
def execBundleIssue (t : TileId) (s : State) : Host.Outcome State Fault Refusal :=
  .next (if s.issues t && (s.tile t).bmode then s.bundleStep t else s)

/-- `SCALAR_INSTRUCTION` (04 R88): in scalar mode. -/
def execScalarInstruction (t : TileId) (s : State) : Host.Outcome State Fault Refusal :=
  .next (if s.issues t && !(s.tile t).bmode then s.scalarStep t else s)

/-- `MRET` (04 R102). -/
def execMret (t : TileId) (s : State) : Host.Outcome State Fault Refusal :=
  .next (s.runCtl t (fun u => s.ctlMret t u))

/-- `BNDL` (04 R94). -/
def execBndl (t : TileId) (rd rs1 : BitVec 5) (imm : BitVec 12) (s : State) : Host.Outcome State Fault Refusal :=
  .next (s.runCtl t (fun u => s.ctlJump t (u.xr rs1.toNat + imm.signExtend 32) true rd.toNat
    (BitVec.ofNat 32 (u.pc + if u.bmode then 16 else 4))))

/-- `SCLR` (04 R94). -/
def execSclr (t : TileId) (rd rs1 : BitVec 5) (imm : BitVec 12) (s : State) : Host.Outcome State Fault Refusal :=
  .next (s.runCtl t (fun u => s.ctlJump t (u.xr rs1.toNat + imm.signExtend 32) false rd.toNat
    (BitVec.ofNat 32 (u.pc + 16))))

/-- `FENCE_T` (04 R94, R97). -/
def execFenceT (t : TileId) (imm : BitVec 5) (s : State) : Host.Outcome State Fault Refusal :=
  .next (s.runCtl t (fun u => u.ctlFence imm.toNat s))

/-- A waiting `FENCE.T` ends once few enough transfers are outstanding, and traps if `FAULT` is set (04 R94, R97). -/
def State.fenceRelease (s : State) (t : Nat) : State :=
  let u := s.tile t
  match u.fenceWait with
  | none => s
  | some n =>
    if n < u.live.length then s
    else
      let s1 := s.modTile t (fun u => { u with fenceWait := none })
      if u.fault then s1.trap t causeTransferFault u.xstat else s1

/-- `FENCE_T_RELEASE` (04 R97). -/
def execFenceTRelease (t : TileId) (s : State) : Host.Outcome State Fault Refusal := .next (s.fenceRelease t)

/-! ## Starting and stopping (04 R105) -/

/-- `TILE_START` (04 R105). -/
def execTileStart (t : TileId) (s : State) : Host.Outcome State Fault Refusal := .next (s.tileStart t)

/-- `TILE_HALT` (04 R105). -/
def execTileHalt (t : TileId) (s : State) : Host.Outcome State Fault Refusal := .next (s.tileHalt t)

/-- `TILE_HALT_DONE` (04 R105). -/
def execTileHaltDone (t : TileId) (s : State) : Host.Outcome State Fault Refusal := .next (s.tileHaltDone t)

end Sys2Proof.Machine
end

