-- ==== Sys2Proof/Machine/Runtime.lean ====
section
/-! DEFINITION. Accesses of runtime requesters to memory (04 R114, R115, 07 R204): where they need OPEN slots, what refuses
them at once, how they start, and how one sector of them moves. The slots that serve them are in `Edge.lean` and
`Slots.lean`. -/

namespace Sys2Proof.Machine

/-! ## What an access needs (04 R114) -/

/-- The addresses at which a range can enter a new calendared resource: every 2 KiB (05 R125, 06 R162). -/
def rowProbes (a n : Nat) : List Nat :=
  (List.range ((a + n - 1) / 2048 + 1 - a / 2048)).map (fun k => max a (2048 * (a / 2048 + k)))

/-- Whether the drop of a tile's die carries runtime traffic of an address upward (07 R204). -/
def State.dropOpen (s : State) (a : Nat) : Bool :=
  match targetOf a with
  | .near l _ | .sram l _ =>
    match s.physOf l with
    | some t => (s.calOf (s.injOf t)).has ownOPEN
    | none => true
  | _ => true

/-- Whether every resource that a runtime access to a range needs has an OPEN slot (04 R114, assumption log 20). -/
def State.rangeOpen (s : State) (a n : Nat) : Bool :=
  (rowProbes a n).all (fun x =>
    (match resOfSector x with
      | some r => (s.calOf r).has ownOPEN
      | none => true) && s.dropOpen x)

/-- The status with which the target of a runtime access answers before it moves data: holes, dies that are down,
domains off at the host's wish (14 R397), resources without OPEN slots. -/
def State.runtimeStatus (s : State) (a n : Nat) : Nat :=
  let st := s.rangeStatus a n
  if st ≠ stOk then st
  else if s.rangeRefused a n then stDestDown
  else if !s.rangeOpen a n then stNoSlot
  else stOk

/-- A status of the target counted where a partition reset dropped the request (07 R215). -/
def State.noteDown (s : State) (status a n : Nat) : State := if status = stDestDown then s.downDrop a n else s

/-! ## Starting an access -/

/-- The flits that an access sends up the drops of compute dies (07 R197, R204): for each tile that its range touches a
head, and a flit for each sector read. -/
def State.accFlits (s : State) (a n : Nat) (store : Bool) : List (Nat × Nat) :=
  let l := (sectorsOf a n).filterMap s.tileAt
  l.eraseDups.map (fun t => (t, 1 + if store then 0 else l.count t))

/-- A runtime access begins, behind those under way. -/
def State.startAcc (s : State) (who : Nat) (use : AccessFor) (a n : Nat) (words : Option (List (List Byte))) : State :=
  let new : MemAccess :=
    { id := s.bridge.nextAcc, who := who, use := use, addr := a, len := n, words := words, todo := s.accessSectors a n,
      got := [], up := s.accFlits a n words.isSome, status := stOk }
  { s with bridge := { s.bridge with accs := s.bridge.accs ++ [new], nextAcc := s.bridge.nextAcc + 1 } }

/-! ## Moving -/

/-- The access with a number changed. -/
def State.modAcc (s : State) (id : Nat) (f : MemAccess → MemAccess) : State :=
  { s with bridge := { s.bridge with accs := s.bridge.accs.map (fun x => if x.id = id then f x else x) } }

/-- Whether a sector lies in an access's range. -/
def MemAccess.covers (x : MemAccess) (a : Nat) : Bool := 32 * (x.addr / 32) ≤ a && a < x.addr + x.len

/-- The status of an access that covers part of a slot of a window (12 R351, R357, R364). -/
def MemAccess.partStatus (x : MemAccess) : Nat :=
  match x.use with
  | .dma _ => stBadCmd
  | _ => stBadSize

/-- An access that fails: nothing of it is left to move. -/
def MemAccess.fail (x : MemAccess) (status : Nat) : MemAccess := { x with status := status, todo := [], up := [] }

/-- One sector of an access moves, a read from `w`. A write takes effect whole when the last sector of its range is served,
so that one that fails changes nothing, and is then judged by the windows it touches (12 R348, R357, R364; assumption
log 13). -/
def State.moveAcc (s : State) (x : MemAccess) (a : Nat) (w : WordFrom) : State :=
  let done (s : State) (got : List (Nat × List Byte)) : State :=
    s.modAcc x.id (fun x => { x with todo := x.todo.filter (· != a), got := x.got ++ got })
  if !x.covers a then done s []
  else match x.words with
    | none =>
      let c := s.carryFrom srcRuntime a w
      done c.1 [(a, c.2.1)]
    | some l =>
      if x.todo.any (fun y => x.covers y && y != a) then done s []
      else
        let g := s.guardedWrite x.partStatus x.addr l
        if g.2 = stOk then done g.1 [] else g.1.modAcc x.id (·.fail g.2)

/-- The accesses that still move data, in order of arrival. -/
def State.accsMoving (s : State) : List MemAccess := s.bridge.accs.filter (fun x => x.status == stOk)

/-- The sectors that an access waits to move at a resource: those in a domain that is not on wait for it first (14
R397). -/
def State.accTodo (s : State) (x : MemAccess) (id : Nat) : List Nat :=
  x.todo.filter (fun a => resOfSector a == some id && !s.asleep a 32)

/-- The tiles of an INJ resource's drop through which an access has flits to send, now that its data there has moved. -/
def State.accUp (s : State) (x : MemAccess) (id : Nat) : List Nat :=
  (x.up.filter (fun e => 0 < e.2 && s.injOf e.1 == id && !x.todo.any (fun a => s.tileAt a == some e.1))).map (·.1)

/-- Whether an access has a request pending at a resource. -/
def State.accPends (s : State) (id : Nat) (x : MemAccess) : Bool :=
  if resKind id = kindINJ then !(s.accUp x id).isEmpty else !(s.accTodo x id).isEmpty

/-- One flit of an access passes a drop upward. -/
def State.accFlit (s : State) (x : MemAccess) (id : Nat) : State :=
  match s.accUp x id with
  | t :: _ =>
    let left (l : List (Nat × Nat)) : List (Nat × Nat) :=
      (l.map (fun e => if e.1 = t then (t, e.2 - 1) else e)).filter (fun e => 0 < e.2)
    s.modAcc x.id (fun x => { x with up := left x.up })
  | [] => s

/-! ## The arbiter of a resource's OPEN slots (04 R114 to R119, 12 R366) -/

def reqH0 : Nat := 0
def reqH1 : Nat := 1
def reqCairn : Nat := 3
def reqDma : Nat := 0x20

/-- The priority of a requester on an arbiter page (04 R120). -/
def State.prioOf (s : State) (a r : Nat) : Nat :=
  let p := pgArb a
  if r = reqH0 then s.get p ARB_PRIO_A.H0
  else if r = reqH1 then s.get p ARB_PRIO_A.H1
  else if r = reqMgmt then s.get p ARB_PRIO_A.MGMT
  else if r = reqCairn then s.get p ARB_PRIO_A.CAIRN
  else s.get p ((ARB_PRIO_DMA.CH.at ((r - reqDma) / 8)).sub ((r - reqDma) % 8))

/-- The better of two pending requesters: the higher priority, then the lower ID. -/
def State.prioBest (s : State) (a : Nat) (l : List Nat) : Option Nat :=
  l.foldl (fun m r => match m with
    | some b => if s.prioOf a b < s.prioOf a r ∨ (s.prioOf a b = s.prioOf a r ∧ r < b) then some r else m
    | none => some r) none

/-- The requesters that the arbiter knows (04 R114). -/
def requesters : List Nat := [0, 1, 2, 3] ++ (List.range 32).map (· + 0x20)

/-- The requesters with a request pending at a resource: a row-engine command or an access, unless a paced channel sits the
slot out (12 R366). -/
def State.pendingAt (s : State) (id : Nat) : List Nat :=
  let r := s.resAt id
  (r.openQ.map (·.1) ++ (s.accsMoving.filter (s.accPends id)).map (·.who)).eraseDups.filter (fun w => mapGet 0 r.gaps w == 0)

/-- The five steps of an OPEN slot (04 R115): the arbiter's new state and the requester served. -/
def State.arbitrate (s : State) (id : Nat) : Res × Option Nat :=
  let a := arbOfSlot (resSlot id)
  let r := s.resAt id
  let pending := s.pendingAt id
  let b (i : Nat) : Nat := mapGet 0 r.backoff i
  let k (i : Nat) : Nat := mapGet 0 r.losses i
  let ready := pending.filter (fun i => b i == 0)
  let kept := r.holder.filter (fun h => pending.contains h)
  let winner := match kept with
    | some h => some h
    | none => s.prioBest a ready
  let losers := ready.filter (fun i => winner != some i)
  let step (m : List (Nat × Nat) × List (Nat × Nat)) (i : Nat) : List (Nat × Nat) × List (Nat × Nat) :=
    if 0 < b i then (m.1, mapSet 0 m.2 i (b i - 1))
    else if losers.contains i then
      let k1 := min 15 (k i + 1)
      (mapSet 0 m.1 i k1, mapSet 0 m.2 i (min (2 ^ (k1 - 1)) 1024))
    else if !pending.contains i ∨ (winner = some i ∧ kept = none) then (mapSet 0 m.1 i 0, m.2)
    else m
  let kb := requesters.foldl step (r.losses, r.backoff)
  let len := match winner with
    | some _ => if kept.isSome then min (r.holdLen + 1) 0xFFFFFF else 1
    | none => 0
  ({ r with losses := kb.1, backoff := kb.2, holder := winner, holdLen := len,
            moved := if kept.isSome then r.moved else 0,
            gaps := mapUpd 0 r.gaps (fun _ n => n - 1) }, winner)

/-- Whether a grant comes to the length that its page warns of in this slot, and not before (04 R119). -/
def State.holdWarns (s : State) (id : Nat) (old new : Res) : Bool :=
  let limit := s.get (pgArb (arbOfSlot (resSlot id))) ARB_HOLD_WARN.LIMIT
  limit != 0 && new.holdLen == limit && !(old.holder == new.holder && old.holdLen == limit)

/-- A channel's pacing (12 R366): the sectors moved in this slot count in its grant; once they reach `PACE_SECT` it
withdraws, its grant ends, and it sits out `PACE_GAP` OPEN slots. -/
def State.pace (s : State) (id w n : Nat) : State :=
  let d := w - reqDma
  let r := s.resAt id
  let lim := s.get (pgDma d) DMA_CFG.PACE_SECT
  if w < reqDma then s
  else if lim = 0 ∨ r.moved + n < lim then s.setRes id { r with moved := r.moved + n }
  else s.setRes id { r with moved := 0, holder := none, holdLen := 0,
                            gaps := mapSet 0 r.gaps w (s.get (pgDma d) DMA_CFG.PACE_GAP) }

end Sys2Proof.Machine
end

