-- ==== Sys2Proof/Machine/Edge.lean ====
section
/-! DEFINITION. Edge channels (06 R164 to R172, R185, R186): the summit cache (06 R180 to R182), the queues of tiles, runtime
requesters and checkers, bank visits, slots, and what a checker writes and compares. -/

namespace Sys2Proof.Machine

/-! ## The summit cache (06 R180 to R182) -/

/-- The cache regions of stack k, ascending. -/
def State.cacheRegions (s : State) (k : Nat) : List Nat :=
  (List.range 20).filter (fun r => s.get (pgSumt (k / 2)) (SUMT_REG.MODE.at r) == 1
    && s.get (pgSumt (k / 2)) (SUMT_REG.STACK.at r) == k % 2)

/-- The region that may hold the sectors of a channel. -/
def State.cacheRegion (s : State) (k c : Nat) : Option Nat :=
  let l := s.cacheRegions k
  if l.isEmpty then none else l[c % l.length]?

/-- The key of the set of a region that may hold a sector, by package address. -/
def cacheKey (b r a : Nat) : Nat := 32768 * (20 * b + r) + (Config.cacheSet (a / 32)).val

def CacheSet.init : CacheSet := { ways := [], tree := 0 }

def State.cacheSetAt (s : State) (key : Nat) : CacheSet := mapGet CacheSet.init s.cache key

/-- The way of a set that the replacement tree names: at each node, bit 0 leads to the lower half. -/
def plruVictim (tree : BitVec 15) : Nat :=
  ((List.range 4).foldl (fun (r : Nat × Nat) _ =>
    let b := b2n (tree.getLsbD r.1)
    (2 * r.1 + 1 + b, 2 * r.2 + b)) (0, 0)).2

/-- The tree after a way is used: every node on its path leads away from it. -/
def plruTouch (tree : BitVec 15) (way : Nat) : BitVec 15 :=
  ((List.range 4).foldl (fun (r : BitVec 15 × Nat) i =>
    let b := way / 2 ^ (3 - i) % 2
    let mask := (1#15) <<< r.2
    (if b = 0 then r.1 ||| mask else r.1 &&& ~~~mask, 2 * r.2 + 1 + b)) (tree, 0)).1

/-- The code word that a line of a sector holds. -/
def State.lineOf (s : State) (key a : Nat) : Option (List Byte) :=
  ((s.cacheSetAt key).ways.findSome? (fun w => w.filter (fun x => x.1 == a))).map (·.2)

/-- Whether a way holds a sector. -/
def holdsLine (a : Nat) (w : Option (Nat × List Byte)) : Bool :=
  match w with
  | some x => x.1 == a
  | none => false

/-- A cached sector is used. -/
def State.cacheTouch (s : State) (key a : Nat) : State :=
  let c := s.cacheSetAt key
  match c.ways.findIdx? (holdsLine a) with
  | some w => { s with cache := mapSet CacheSet.init s.cache key { c with tree := plruTouch c.tree w } }
  | none => s

/-- A sector is allocated with its code word: an empty way, else the one the tree names. -/
def State.cacheAlloc (s : State) (key a : Nat) (w : List Byte) : State :=
  let c := s.cacheSetAt key
  let ways := c.ways ++ List.replicate (16 - c.ways.length) none
  let i := (ways.findIdx? (·.isNone)).getD (plruVictim c.tree)
  let c' : CacheSet := { ways := ways.set i (some (a, w)), tree := plruTouch c.tree i }
  { s with cache := mapSet CacheSet.init s.cache key c' }

/-- A sector is dropped. -/
def State.cacheDrop (s : State) (key a : Nat) : State :=
  let c := s.cacheSetAt key
  let c' : CacheSet := { c with ways := c.ways.map (fun w => if holdsLine a w then none else w) }
  { s with cache := mapSet CacheSet.init s.cache key c' }

/-- Hits that a region has served in the EMCLK `e`. -/
def State.hitsAt (s : State) (b r e : Nat) : Nat :=
  let h := mapGet (0, 0) s.cacheHits (20 * b + r)
  if h.1 = e + 1 then h.2 else 0

def State.countHit (s : State) (b r e : Nat) : State :=
  { s with cacheHits := mapSet (0, 0) s.cacheHits (20 * b + r) (e + 1, s.hitsAt b r e + 1) }

/-- What the summit cache does for a sector-engine read in the EMCLK `e` (06 R181, R182): it takes no part; its region's
domain is not on, so that the read waits (14 R397); a miss, which may allocate unless the region changes its mode; a hit,
with the line's word; a hit beyond the fourth, or one on a damaged line, each served as a miss. -/
inductive CacheLook where
  | none
  | waits
  | miss (key : Nat) (fill : Bool)
  | hit (key r : Nat) (w : List Byte)
  | over
  | bad (key r : Nat)
  deriving DecidableEq, Repr

def State.cacheLook (s : State) (k c a e : Nat) : CacheLook :=
  match s.cacheRegion k c with
  | Option.none => .none
  | some r =>
    let b := k / 2
    let key := cacheKey b r a
    if s.asleep (summitBase b r) 32 then .waits
    else if s.get (pgSumt b) (SUMT_REG.BUSY.at r) = 1 then .miss key false
    else match s.lineOf key a with
      | Option.none => .miss key true
      | some w =>
        if (decodeSector w).1.damaged then .bad key r
        else if 4 ≤ s.hitsAt b r e then .over
        else .hit key r w

/-- Whether reads of a sector allocate: an enabled window that holds it says so (06 R187). -/
def State.swinAlloc (s : State) (a : Nat) : Bool :=
  let k := a / 0x0020_0000_0000
  let u := a % 0x0020_0000_0000 / 0x20_0000
  (List.range 8).any (fun i => bit (s.get (pgEmc k) EMC_CFG.SWIN_ALLOC) i && bit (s.get (pgEmc k) EMC_CFG.SWIN_EN) i
    && s.get (pgEmc k) (EMC_SWIN.BASE.at i) ≤ u
    && u ≤ s.get (pgEmc k) (EMC_SWIN.BASE.at i) + s.get (pgEmc k) (EMC_SWIN.SIZE.at i))

/-- What becomes of the cache when a sector-engine read of stack k is served in the EMCLK `e` (06 R181, R182): a hit counts
and is used; a miss counts and may allocate the stack's word; a hit served as a miss counts in `SUMT_OVF`, and a damaged
line goes. -/
def State.cacheServed (s : State) (k a e : Nat) : CacheLook → State
  | .hit key r _ => ((s.cacheTouch key a).countHit (k / 2) r e).count (pgSumt (k / 2)) (SUMT_HIT.COUNT.at (k % 2)) 1
  | .miss key fill =>
    let s1 := s.count (pgSumt (k / 2)) (SUMT_MISS.COUNT.at (k % 2)) 1
    if fill && s.swinAlloc a then s1.cacheAlloc key a (s.codeWordAt a) else s1
  | .over => s.count (pgSumt (k / 2)) (SUMT_OVF.COUNT.at (k % 2)) 1
  | .bad key r =>
    let s1 := ((s.cacheDrop key a).report (pgSumt (k / 2)) .c 0x0A r 0 0).count (pgSumt (k / 2))
      (SUMT_OVF.COUNT.at (k % 2)) 1
    if s.swinAlloc a then s1.cacheAlloc key a (s.codeWordAt a) else s1
  | .none | .waits => s

/-! ## Channel checkers: patterns and accesses (06 R186) -/

/-- The stack offset of an edge address. -/
def edgeOffset (a : Nat) : Nat := a % 0x0020_0000_0000

/-- The stack of an edge address. -/
def edgeStack (a : Nat) : Nat := a / 0x0020_0000_0000

/-- One step of the PRBS31 register, x^31 + x^28 + 1. -/
def prbsStep (r : Nat) : Nat := r % 2 ^ 30 * 2 + (b2n (bit r 30) + b2n (bit r 27)) % 2

/-- The next 256 bits of the sequence, first bit lowest, and the register after them. -/
def prbsBits (r : Nat) : Nat × Nat :=
  (List.range 256).foldl (fun (m : Nat × Nat) i => (m.1 + 2 ^ i * (prbsStep m.2 % 2), prbsStep m.2)) (0, r)

/-- A sector of 256 bits of the sequence, each bit in the place that the part gives it (assumption log 66). -/
def prbsSector (v : Nat) : List Byte :=
  leBytes 32 ((List.range 256).foldl (fun n i => n + 2 ^ i * b2n (bit v (Config.prbsPlace i).val)) 0)

/-- The pattern of sector number `n` of the accesses, at stack offset `o`, where it is not PRBS31. -/
def State.checkPattern (s : State) (k c n o : Nat) : List Byte :=
  let p := pgEchk k c
  let own := (List.range 8).flatMap (fun i => leBytes 4 (s.get p (ECHK_PAT.BYTES.at i)))
  let odd := o / 32 % 2 = 1
  match s.get p ECHK_CFG.PATTERN with
  | 1 => List.replicate 32 0
  | 2 => List.replicate 32 0xFF
  | 3 => List.replicate 32 (if odd then 0xAA else 0x55)
  | 4 => leBytes 32 (2 ^ (n % 256))
  | 5 => (List.range 8).flatMap (fun _ => leBytes 4 (o / 32 % 2 ^ 32))
  | 6 => own
  | _ => if odd then own.map (~~~ ·) else own

/-- The pattern of the next sector of a checker, and the checker after it: PRBS31 goes on in the sector's
pseudo-channel. -/
def State.nextPattern (s : State) (k c n o : Nat) (x : Checker) : List Byte × Checker :=
  if s.get (pgEchk k c) ECHK_CFG.PATTERN ≠ 0 then (s.checkPattern k c n o, x)
  else if edgePseudo o = 0 then (prbsSector (prbsBits x.prbs0).1, { x with prbs0 := (prbsBits x.prbs0).2 })
  else (prbsSector (prbsBits x.prbs1).1, { x with prbs1 := (prbsBits x.prbs1).2 })

/-- The stack offset of access `n` of a checker (06 R186): in address order over every bank of the rows in range, or by
the part's random choice. A granule has 8 sectors. -/
def State.checkAddress (s : State) (k c n : Nat) : Nat :=
  let p := pgEchk k c
  let first := s.get p ECHK_RANGE.FIRST
  let rows := s.get p ECHK_RANGE.ROWS + 1
  let unit := if s.get p ECHK_CFG.PATH = 0 then 256 else 32
  let per := 2048 / unit
  let total := rows * 64 * per
  let i := if s.get p ECHK_CFG.RAND = 0 then n % total
    else Config.checkerAddress (max 1 (s.get p ECHK_CFG.SEED)) n % total
  let row := (first + i / (64 * per)) % 32768
  2 ^ 22 * row + 2 ^ 16 * (i / per % 64) + 2 ^ 11 * c + i % per * unit

/-- A checker with its next access queued: its sectors written, read, or written and then read. -/
def State.checkQueue (s : State) (k c : Nat) (x : Checker) : Checker :=
  let m := if s.get (pgEchk k c) ECHK_CFG.PATH = 0 then 8 else 1
  let op := s.get (pgEchk k c) ECHK_CFG.OP
  let o := s.checkAddress k c x.next
  let r := (List.range m).foldl (fun (r : List CheckEntry × Checker) i =>
    let g := s.nextPattern k c (m * x.next + i) (o + 32 * i) r.2
    (r.1 ++ [{ n := x.next, off := o + 32 * i, write := true, pat := g.1 }], g.2)) ([], x)
  let w := if op = 0 ∨ op = 2 then r.1 else []
  let v := if op = 1 ∨ op = 2 then r.1.map (fun e => { e with write := false }) else []
  { r.2 with next := x.next + 1, queue := x.queue ++ w ++ v }

/-- Whether a checker begins further accesses. -/
def State.checkGoes (s : State) (k c : Nat) (x : Checker) : Bool :=
  let n := s.get (pgEchk k c) ECHK_COUNT.COUNT
  !x.stop && (n == 0 || x.next < n)

/-- The queue of a running checker filled to 64 accesses (06 R167). -/
def State.checkFill (s : State) (k c : Nat) : State :=
  let fill (x : Checker) : Checker := (List.range 64).foldl (fun x _ =>
    if s.checkGoes k c x && (x.queue.map (·.n)).eraseDups.length < 64 then s.checkQueue k c x else x) x
  { s with checkers := s.checkers.map (fun e => if e.1 = checkerKey k c then (e.1, fill e.2) else e) }

/-- The number of bits that differ in two byte lists. -/
def bitsDiffer (a b : List Byte) : Nat :=
  ((xorBytes a b).map (fun x => ((List.range 8).filter x.getLsbD).length)).sum

/-- One sector read and compared (06 R186): mismatches count on the ECHK page, and the first one's place is kept. A comparison
of corrected data decodes the sector as every reader does (06 R175; assumption log 66). -/
def State.checkRead (s : State) (k c o : Nat) (pat : List Byte) : State :=
  let p := pgEchk k c
  let a := edgeBase k + o
  let d := s.sector a
  let raw := s.get p ECHK_CFG.RAW = 1
  let data := if raw then (s.codeWordAt a).take 32 else d.2
  let diff := bitsDiffer data pat
  let s1 := if raw then s else s.reportSector (pgEmc k) d.1 a srcRuntime
  if diff = 0 then s1
  else
    let s2 := (s1.count p ECHK_MIS_SECT.COUNT 1).count p ECHK_MIS_BITS.COUNT diff
    let s3 := if s2.get p ECHK_FIRST.VALID = 0 then
        (s2.put p ECHK_FIRST.VALID 1).put p ECHK_FIRST.SECT (o / 32)
      else s2
    s3.report p .u 0x09 (min diff 0xFFFF) 0 0

/-- A queued sector of a checker moves. -/
def State.checkMove (s : State) (k c : Nat) (e : CheckEntry) : State :=
  let s1 := if e.write then (s.guardedWrite stBadCmd (edgeBase k + e.off) [codeWord e.pat]).1 else s.checkRead k c e.off e.pat
  { s1 with checkers := s1.checkers.map (fun x =>
      if x.1 = checkerKey k c then (x.1, { x.2 with queue := x.2.queue.erase e }) else x) }

/-- A checker ends (06 R186), with `ABORT` when the EMC was enabled (06 R185). -/
def State.checkEnd (s : State) (k c : Nat) (abort : Bool) : State :=
  if s.checking k c then
    let p := pgEchk k c
    let s1 := ((s.put p ECHK_STAT.RUN 0).put p ECHK_STAT.DONE 1).putFlag p ECHK_STAT.ABORT abort
    { s1 with checkers := s1.checkers.filter (fun e => e.1 != checkerKey k c) }
  else s

/-! ## Queues of a channel (06 R167, R168) -/

/-- The transfers of a tile that still move data, in issue order. -/
def Tile.moving (u : Tile) : List Xfer := u.xfers.filter (fun x => x.status == stOk && x.inject == 0 && x.kind != .rowc)

/-- The sectors that a transfer waits to move at a resource. -/
def Xfer.todoAt (x : Xfer) (id : Nat) : List Nat := x.todo.filter (fun a => resOfSector a == some id)

/-- Who has accesses queued at an edge channel: a tile, a runtime requester, or the channel's own checker. -/
inductive EdgeClient where
  | tile (t : Nat)
  | run (w : Nat)
  | check
  deriving DecidableEq, Repr

/-- What a queued sector belongs to. -/
inductive EdgeWork where
  | xfer (t : Nat) (x : Xfer)
  | acc (x : MemAccess)
  | check (e : CheckEntry)
  deriving DecidableEq, Repr

/-- A sector queued at a channel: its work, its package address, and whether it is of a granule on the burst path. -/
structure EdgeEntry where
  work : EdgeWork
  a : Nat
  whole : Bool
  deriving DecidableEq, Repr

/-- The number under which a client's rows are open. -/
def State.clientNumber (s : State) : EdgeClient → Nat
  | .tile t => s.logical t
  | .run w => 0x1000 + w
  | .check => 0x2000

/-- A queued sector writes. -/
def EdgeEntry.stores (e : EdgeEntry) : Bool :=
  match e.work with
  | .xfer _ x => x.stores
  | .acc x => x.words.isSome
  | .check c => c.write

/-- The access of a queued sector (06 R167): its request, and its granule or the sector itself. -/
def EdgeEntry.access (e : EdgeEntry) : Nat × Nat :=
  let n := match e.work with
    | .xfer _ x => x.id
    | .acc x => x.id
    | .check c => c.n
  (n, if e.whole then 256 * (e.a / 256) else e.a)

/-- The stack and channel of an EMCH resource. -/
def chanStack (id : Nat) : Nat := 2 * resSlot id + resInst id / 32
def chanNumber (id : Nat) : Nat := resInst id % 32

/-- Every sector that a client waits to move at a channel, in issue order. -/
def State.edgeAll (s : State) (cl : EdgeClient) (id : Nat) : List EdgeEntry :=
  let entry (w : EdgeWork) (a : Nat) : EdgeEntry := { work := w, a := a, whole := (s.inSwin a).isNone }
  match cl with
  | .tile t => (s.tile t).moving.flatMap (fun x => (x.todoAt id).map (entry (.xfer t x)))
  | .run w => (s.accsMoving.filter (·.who == w)).flatMap (fun x => (s.accTodo x id).map (entry (.acc x)))
  | .check =>
    let k := chanStack id
    let burst := s.get (pgEchk k (chanNumber id)) ECHK_CFG.PATH = 0
    match s.checkers.find? (fun e => e.1 == checkerKey k (chanNumber id)) with
    | some (_, x) => x.queue.map (fun e => { work := .check e, a := edgeBase k + e.off, whole := burst })
    | none => []

/-- A client's queue at a channel: the sectors of its first 64 accesses. -/
def State.edgeQueue (s : State) (cl : EdgeClient) (id : Nat) : List EdgeEntry :=
  let all := s.edgeAll cl id
  let first := (all.map (·.access)).eraseDups.take 64
  all.filter (fun e => first.contains e.access)

/-- A queued sector moves, a read from `w`. -/
def State.edgeMove (s : State) (e : EdgeEntry) (w : WordFrom) : State :=
  match e.work with
  | .xfer t x => s.moveSector t x e.a w
  | .acc x => s.moveAcc x e.a w
  | .check c => s.checkMove (edgeStack e.a) (edgeChannel (edgeOffset e.a)) c

/-! ## Slots of a channel (06 R165 to R168, R181, R182) -/

/-- The key of an open row: pseudo-channel and bank. -/
def edgeKey (x bank : Nat) : Nat := 64 * x + bank

def Res.setRow (r : Res) (key row ready who : Nat) : Res :=
  { r with rows := r.rows.filter (fun e => e.1 != key) ++ [(key, row, ready, who)] }

/-- Whether a row is open for an owner in slot `e` (06 R165). -/
def Res.edgeOpen (r : Res) (who x bank row : Nat) : Bool :=
  r.rows.any (fun e => e.1 == edgeKey x bank && e.2.1 == row && e.2.2.2 == who && e.2.2.1 + 12 ≤ r.slots
    && r.slots ≤ e.2.2.1 + 44)

/-- What the cache does for a queued sector: it takes part in sector-engine reads of tiles and runtime requesters; a checker
reads the stack (assumption log 66). -/
def State.entryLook (s : State) (e : EdgeEntry) (n : Nat) : CacheLook :=
  match e.work with
  | .check _ => .none
  | _ => if e.whole || e.stores then .none else s.cacheLook (edgeStack e.a) (edgeChannel (edgeOffset e.a)) e.a n

/-- Whether a queued sector can move in slot `n`: the cache holds it, or its row is open for its owner. -/
def State.entryGoes (s : State) (who : Nat) (r : Res) (e : EdgeEntry) : Bool :=
  let o := edgeOffset e.a
  match s.entryLook e r.slots with
  | .hit _ _ _ => true
  | .waits => false
  | _ => r.edgeOpen who (edgePseudo o) (edgeBank o) (edgeRow o)

/-- One pseudo-channel moves its owner's oldest sector that can move and has no earlier access to the same sector before
it. -/
def State.serveEdgeHalf (s : State) (cl : EdgeClient) (id x : Nat) : State :=
  let r := s.resAt id
  let q := (s.edgeQueue cl id).filter (fun e => edgePseudo (edgeOffset e.a) == x)
  let pick := q.foldl (fun (m : List Nat × Option EdgeEntry) e =>
    match m.2 with
    | some _ => m
    | none => (e.a :: m.1, if !m.1.contains e.a && s.entryGoes (s.clientNumber cl) r e then some e else none)) ([], none)
  match pick.2 with
  | none => s
  | some e =>
    let l := s.entryLook e r.slots
    let w : WordFrom := match l with | .hit _ _ w => .line w | _ => .stack
    (s.edgeMove e w).cacheServed (edgeStack e.a) e.a r.slots l

/-- A client's slot of an edge channel: both pseudo-channels. -/
def State.serveEdge (s : State) (cl : EdgeClient) (id : Nat) : State :=
  if s.asleep (edgeBase (chanStack id)) 32 then s else (s.serveEdgeHalf cl id 0).serveEdgeHalf cl id 1

/-! ## Visits (06 R164, R165) -/

/-- The owner of the slot `d` slots on: past the end of the period, of the calendar that takes over there. -/
def State.ownerAhead (s : State) (id d : Nat) : Nat :=
  let r := s.resAt id
  let c := s.calOf id
  let i := r.idx + d
  if i < c.period then c.owner i
  else match r.next with
    | some n => n.owner ((i - c.period) % n.period)
    | none => c.owner (i % c.period)

/-- Whether no row may open now: a REFR or ROWE slot falls within 45 slots (06 R165); under a checker, which owns the ROWE
slots too (06 R185), a REFR slot. -/
def State.visitBlocked (s : State) (id : Nat) : Bool :=
  let check := s.checking (chanStack id) (chanNumber id)
  (List.range 45).any (fun d =>
    let o := s.ownerAhead id d
    o == ownREFR || (o == ownROWE && !check))

/-- Whose accesses the present slot of a channel serves (06 R185, 04 R108, R115). -/
def State.slotClient (s : State) (id : Nat) : Option EdgeClient :=
  let o := (s.calOf id).owner (s.resAt id).idx
  if s.checking (chanStack id) (chanNumber id) then (if o = ownREFR then none else some .check)
  else if o = ownOPEN then (s.arbitrate id).2.map .run
  else (s.physOf o).map .tile

/-- The rows that open for a client at a visit of a set: each pseudo-channel opens the row of the oldest access whose bank
lies in the set and whose row is not open for it; a granule opens both. -/
def visitRows (set e who : Nat) (q : List EdgeEntry) (r : Res) : Res :=
  let row (r : Res) (o x : Nat) : Res := r.setRow (edgeKey x (edgeBank o)) (edgeRow o) e who
  let isOpen (r : Res) (o x : Nat) : Bool :=
    r.rows.any (fun z => z.1 == edgeKey x (edgeBank o) && z.2.1 == edgeRow o && z.2.2.2 == who && e ≤ z.2.2.1 + 44)
  (q.foldl (fun (m : Bool × Bool × Res) a =>
    let o := edgeOffset a.a
    if bankSet (edgeBank o) != set then m
    else if a.whole then
      (if m.1 || m.2.1 || isOpen m.2.2 o 0 || isOpen m.2.2 o 1 then m else (true, true, row (row m.2.2 o 0) o 1))
    else if isOpen m.2.2 o (edgePseudo o) then m
    else if edgePseudo o = 0 then (if m.1 then m else (true, m.2.1, row m.2.2 o 0))
    else if m.2.1 then m else (m.1, true, row m.2.2 o 1)) (false, false, r)).2.2

/-- `BANK_SET_VISIT` (06 R164, R165, R167): at a slot with e mod 3 = 0, rows of the visited set open for the slot's owner. A
slot has one visit. -/
def State.bankVisit (s : State) (k c : Nat) : State :=
  let id := emchId k c
  let r := s.resAt id
  let e := r.slots
  if e % 3 ≠ 0 ∨ r.visited = e + 1 ∨ s.visitBlocked id then s
  else match s.slotClient id with
    | none => s
    | some cl =>
      s.setRes id { visitRows (e / 3 % 16) e (s.clientNumber cl) (s.edgeQueue cl id) r with visited := e + 1 }

/-- `EDGE_ROW_CLOSE` (06 R165): a row opened at visit e closes at e + 45. -/
def State.edgeClose (s : State) (k c x bank : Nat) : State :=
  let id := emchId k c
  let r := s.resAt id
  s.setRes id { r with rows := r.rows.filter (fun e => e.1 != edgeKey x bank || r.slots < e.2.2.1 + 45) }

end Sys2Proof.Machine
end

