-- ==== Sys2Proof/Machine/Slots.lean ====
section
/-! DEFINITION. The slots of calendared resources (04 R108, R112, R115 to R119): near-memory bank groups with their open
rows, refresh and scrubbing (05 R127 to R129, R139, R154 to R156), summit regions (06 R183), edge channels and the EMCLK
count of their die (06 R164), channel checkers (06 R185, R186), injection ports (07 R204), command ports of row engines (05
R146), OPEN slots, and what a switch of calendars refuses. -/

namespace Sys2Proof.Machine

/-! ## Near memory: rows and accesses (05 R127 to R129) -/

/-- The bank of a slice offset within its bank group, over the four layers. -/
def nearKey (o : Nat) : Nat := 8 * nearLayer o + nearBank o

/-- The open row of a bank and the first slot in which it serves. -/
def Res.openRow (r : Res) (key : Nat) : Option (Nat × Nat) :=
  (r.rows.find? (fun e => e.1 == key)).map (fun e => (e.2.1, e.2.2.1))

/-- Whether an access at a slice offset can be served in this slot. -/
def Res.rowServes (r : Res) (o : Nat) : Bool :=
  match r.openRow (nearKey o) with
  | some (row, ready) => row == nearRow o && ready ≤ r.slots
  | none => false

/-- A bank opens the row of a slice offset, unless it is open or opening: 16 slots from a closed bank, 32 from another
row (05 R128). -/
def Res.openFor (r : Res) (o : Nat) : Res :=
  match r.openRow (nearKey o) with
  | some (row, _) => if row = nearRow o then r else r.setRow (nearKey o) (nearRow o) (r.slots + 32) 0
  | none => r.setRow (nearKey o) (nearRow o) (r.slots + 16) 0

def State.modRes (s : State) (id : Nat) (f : Res → Res) : State := s.setRes id (f (s.resAt id))

/-- One unit of a plane load arrives (03 R64, 13 R370 to R372): 64 bytes of the image; the two slots of each bank group for
a scale image bring no more data of the slice. -/
def State.loadUnit (s : State) (t : Nat) (l : PlaneLoad) (unit : Nat) : State :=
  let took (s : State) (f : PlaneLoad → PlaneLoad) : State :=
    s.modTile t (fun u => { u with loads := u.loads.map (fun m => if m.id = l.id then f m else m) })
  if 64 ≤ unit then took s (fun m => { m with todo := m.todo.filter (· != unit) })
  else
    let r := s.readMem srcOwner (nearBase (s.logical t) + l.base + 64 * unit) 64
    let s1 := r.1.zeroLoads t l.rope (nearBase (s.logical t) + l.base + 64 * unit) 64
    took s1 (fun m => { m with todo := m.todo.filter (· != unit), data := memWrite m.data (64 * unit) r.2.1,
                               damaged := m.damaged || r.2.2.1 })

/-- The oldest request of a client at a bank group or summit region: a plane load's next unit, or the next sector of a
transfer or of a runtime access. -/
inductive UnitReq where
  | unit (t : Nat) (l : PlaneLoad) (i : Nat)
  | xfer (t : Nat) (x : Xfer) (a : Nat)
  | acc (x : MemAccess) (a : Nat)

/-- A tile's oldest request. -/
def State.tileReq (s : State) (t id : Nat) : Option UnitReq :=
  let u := s.tile t
  let loads := u.loads.filterMap (fun l =>
    (l.unitsAt (s.logical t) id).head?.map (fun i => (l.id, UnitReq.unit t l i)))
  let xfers := u.moving.filterMap (fun x => (x.todoAt id).head?.map (fun a => (x.id, UnitReq.xfer t x a)))
  (loads ++ xfers).foldl (fun (m : Option (Nat × UnitReq)) e => match m with
    | some b => if e.1 < b.1 then some e else m
    | none => some e) none |>.map (·.2)

/-- A runtime requester's oldest request. -/
def State.runReq (s : State) (w id : Nat) : Option UnitReq :=
  (s.accsMoving.filter (·.who == w)).findSome? (fun x => (s.accTodo x id).head?.map (UnitReq.acc x))

/-- Where a request's next unit lies, and where its range ends. -/
def State.reqAddr (s : State) : UnitReq → Nat
  | .unit t l i => nearBase (s.logical t) + l.base + 64 * i
  | .xfer _ _ a | .acc _ a => a

def State.reqEnd (s : State) : UnitReq → Nat
  | .unit t l _ => nearBase (s.logical t) + l.base + 4096
  | .xfer _ x _ => x.target + 32 * x.sectors
  | .acc x _ => x.addr + x.len

/-- The one or two sectors of a 64-byte unit that a read moves together (05 R127, 06 R183), damaged ones first in the order
of 13 R375. -/
def State.unitOf (s : State) (l : List Nat) (a : Nat) : List Nat :=
  let u := l.filter (fun b => b / 64 == a / 64)
  (s.errOrder u ++ u).eraseDups

/-- A request's next unit moves: the one or two sectors of a read, or one sector written. -/
def State.reqMove (s : State) (id : Nat) : UnitReq → State
  | .unit t l i => s.loadUnit t l i
  | .xfer t x a =>
    if x.stores then s.moveSector t x a .stack
    else (s.unitOf (x.todoAt id) a).foldl (fun s b => s.moveSector t x b .stack) s
  | .acc x a =>
    if x.words.isSome then s.moveAcc x a .stack
    else (s.unitOf (s.accTodo x id) a).foldl (fun s b => s.moveAcc x b .stack) s

/-- The base of the slice that holds an address. -/
def sliceBase (a : Nat) : Nat :=
  match targetOf a with
  | .near l _ => nearBase l
  | _ => 0

/-- A slot of a bank group for a request (05 R127 to R129): it opens the row, or it moves a unit and opens the row of the
next 2 KiB in this bank group. The slots of a scale image need no row. -/
def State.serveNear (s : State) (id : Nat) (q : UnitReq) : State :=
  let scale : Bool := match q with | .unit _ _ i => 64 ≤ i | _ => false
  let a := s.reqAddr q
  let o := a - sliceBase a
  if scale then s.reqMove id q
  else if s.asleep a 32 then s
  else if !(s.resAt id).rowServes o then s.modRes id (·.openFor o)
  else
    let s1 := s.reqMove id q
    let next := 4096 + 2048 * (o / 2048)
    if next < sliceSize && sliceBase a + next < s.reqEnd q then s1.modRes id (·.openFor next) else s1

/-! ## Refresh and scrubbing (05 R139, R154 to R156) -/

/-- The key of one layer of a bank group. -/
def refreshKey (id m : Nat) : Nat := 4 * id + m

def State.refr (s : State) (id m : Nat) : Refresh := mapGet Refresh.init s.refresh (refreshKey id m)

def State.setRefr (s : State) (id m : Nat) (x : Refresh) : State :=
  { s with refresh := mapSet Refresh.init s.refresh (refreshKey id m) x }

/-- The layer quarter of one layer of a bank group, when its slice exists. -/
def State.quarterOf (s : State) (id m : Nat) : Option Domain :=
  s.domainAt (nearBase (128 * (resSlot id - 0x10) + resInst id / 2) + 4096 * m)

/-- Whether that layer quarter exists and is on. -/
def State.quarterOn (s : State) (id m : Nat) : Bool :=
  match s.quarterOf id m with
  | none => false
  | some d => s.domState d == 0

/-- The bank groups of a die whose slices exist. -/
def State.bankGroups (s : State) (n : Nat) : List Nat :=
  (s.resourcesOf (4 + n)).filter (fun id => resKind id == kindNMBG)

/-- `NMEM_SCRUB_STAT` of a layer brought up to date: passes that every bank group has completed, and the lowest next
row (05 R158). -/
def State.scrubStat (s : State) (n m : Nat) : State :=
  match (s.bankGroups n).map (fun id => s.refr id m) with
  | [] => s
  | x :: l =>
    (s.put (pgNmem n m) NMEM_SCRUB_STAT.PASSES (min 65535 (l.foldl (fun a y => min a y.passes) x.passes))).put
      (pgNmem n m) NMEM_SCRUB_STAT.ROW (l.foldl (fun a y => min a y.scrubRow) x.scrubRow)

/-- One scrub of a layer of a bank group: 64 sectors of the next row in each of its 8 banks, checked and counted, never
written (05 R139). -/
def State.scrub (s : State) (id m : Nat) : State :=
  let n := resSlot id - 0x10
  let base := nearBase (128 * n + resInst id / 2)
  let p := pgNmem n m
  let x := s.refr id m
  let l := (List.range 512).map (fun i => base + nearOffset x.scrubRow (i / 64) m (resInst id % 2) + 32 * (i % 64))
  let s0 := l.foldl (fun s a => match (s.sector a).1 with
    | .corrected _ _ => s.count p NMEM_SCRUB_C.COUNT 1
    | .uncorrectable => s.count p NMEM_SCRUB_U.COUNT 1
    | .poisoned => s.count p NMEM_SCRUB_P.COUNT 1
    | .good => s) s
  let s1 := s0.reportAll (fun _ => p) srcScrubber l
  let last := x.scrubRow + 1 = 1536
  (s1.setRefr id m { x with scrubRow := if last then 0 else x.scrubRow + 1,
                            passes := if last then x.passes + 1 else x.passes, scrubbed := s.mg }).scrubStat n m

/-- Whether a layer of a bank group scrubs in a run in which no refresh is due (05 R156, R158). -/
def State.scrubDue (s : State) (id m : Nat) : Bool :=
  let p := pgNmem (resSlot id - 0x10) m
  let i := s.get p NMEM_CFG.SCRUB_INT
  s.flag p PAGE_CTRL.EN && i != 0 && i * 64 * 500 ≤ s.mg - (s.refr id m).scrubbed

/-- A REFR run of a bank group begins (05 R154, R156): each layer that is on refreshes one row where a refresh is due,
and may scrub otherwise. -/
def State.refreshRun (s : State) (id : Nat) : State :=
  (List.range 4).foldl (fun s m =>
    let x := s.refr id m
    if !s.quarterOn id m then s
    else if 0 < x.debt then s.setRefr id m { x with debt := x.debt - 1, row := (x.row + 1) % 1536 }
    else if s.scrubDue id m then s.scrub id m
    else s) s

/-- `REFRESH_DEBT_TICK` (05 R154): a refresh interval of a layer of a bank group has passed. -/
def State.debtTick (s : State) (n k g m : Nat) : State :=
  let id := nmbgId n k g
  let x := s.refr id m
  let s1 := s.setRefr id m { x with debt := x.debt + 1 }
  if !s.quarterOn id m then s
  else if x.debt + 1 = 4 then
    (s1.count (pgNmem n m) NMEM_REFR_LATE.COUNT 1).report (pgNmem n m) .u 0x08 (2 * k + g) 0 0
  else s1

/-! ## Summit scratchpad (06 R183, R184) -/

/-- A request that finds its region changing its mode, or set as cache, fails with NO_TARGET. -/
def State.reqNoTarget (s : State) : UnitReq → State
  | .unit _ _ _ => s
  | .xfer t x _ => s.modXfer t x.id (·.fail stNoTarget)
  | .acc x _ => s.modAcc x.id (·.fail stNoTarget)

/-- A slot of a summit region for a request. -/
def State.serveSummit (s : State) (id : Nat) (q : UnitReq) : State :=
  if !s.isScratch (resSlot id) (resInst id) then s.reqNoTarget q
  else if s.asleep (s.reqAddr q) 32 then s
  else s.reqMove id q

/-- A slot of a bank group or a summit region for the oldest request of a client. -/
def State.serveUnit (s : State) (id : Nat) (q : Option UnitReq) : State :=
  match q with
  | none => s
  | some r => if resKind id = kindNMBG then s.serveNear id r else s.serveSummit id r

/-! ## Injection ports (07 R204) -/

/-- A tile's slot of its drop carries one flit upward. A request that finds, with its last flit, that its tile has lost its
slots of a resource it needs fails with NO_SLOT (04 R98). -/
def State.serveInject (s : State) (t id : Nat) : State :=
  if s.injOf t ≠ id then s
  else match (s.tile t).xfers.find? (fun x => 0 < x.inject) with
    | some x =>
      let slots := (s.xferNeeds x).all (s.ownsSlot t)
      s.modXfer t x.id (fun x => if x.inject = 1 ∧ !slots then x.fail stNoSlot else { x with inject := x.inject - 1 })
    | none => s

/-! ## Command ports of row engines (05 R146, 06 R176) -/

/-- The engine behind a command port. -/
def portEngine (id : Nat) : Nat :=
  if resKind id = kindNROW then nearEngine (resSlot id - 0x10) (resInst id / 4) (resInst id % 4)
  else edgeEngine (2 * resSlot id + resInst id / 32) (resInst id % 32)

/-- A command reaches its engine: into the queue, or DISABLED where the engine has stopped (05 R158). -/
def State.portTake (s : State) (e : Nat) (c : RowCmd) : State :=
  if s.engineOn e then s.rowAccept e c else s.rowComplete e c stDisabled

/-- A tile's slot of a command port accepts its oldest waiting command, unless the queue is full. -/
def State.servePort (s : State) (t id : Nat) : State :=
  let e := portEngine id
  if s.rowFull e then s
  else
    match (s.tile t).xfers.find? (fun x =>
      x.kind == .rowc && x.inject == 0 && !x.todo.isEmpty && s.portOf x.target == some id) with
    | none => s
    | some x =>
      (s.modXfer t x.id (fun x => { x with todo := [], waits := true })).portTake e
        (rowOfBytes (leBytes 32 x.body) (.tile t x.id))

/-! ## OPEN slots (04 R114 to R119) -/

/-- The sectors that a requester's accesses have still to move. -/
def State.accLeft (s : State) (w : Nat) : Nat := ((s.accsMoving.filter (·.who == w)).map (·.todo.length)).sum

/-- The request of the requester that an OPEN slot serves, by the kind of the resource. -/
def State.serveWinner (s : State) (w id : Nat) : State :=
  let kind := resKind id
  if kind = kindNROW ∨ kind = kindEROW then
    let q := (s.resAt id).openQ
    let s1 := s.modRes id (fun r => { r with openQ := r.openQ.eraseP (fun e => e.1 == w) })
    match q.find? (fun e => e.1 == w) with
    | some (_, c) => s1.portTake (portEngine id) c
    | none => s1
  else if kind = kindINJ then
    match (s.accsMoving.filter (·.who == w)).find? (s.accPends id) with
    | some x => s.accFlit x id
    | none => s
  else if kind = kindEMCH then s.serveEdge (.run w) id
  else s.serveUnit id (s.runReq w id)

/-- An OPEN slot of a resource (04 R115 to R119, 12 R366); a command port whose engine's queue is full takes nothing (05
R146). The requests that wait for OPEN slots in this model are row-engine commands and the accesses of the host and of DMA
channels; those of the management core and the cairn engine are served within the commands that cause them (assumption log
16). -/
def State.openSlot (s : State) (id : Nat) : State :=
  let a := arbOfSlot (resSlot id)
  let port := resKind id == kindNROW || resKind id == kindEROW
  if port && s.rowFull (portEngine id) then s
  else
    let g := s.arbitrate id
    let s1 := s.setRes id g.1
    match g.2 with
    | none => s1
    | some w =>
      let s2 := s1.serveWinner w id
      let s3 := s2.pace id w (s1.accLeft w - s2.accLeft w)
      if s.holdWarns id (s.resAt id) g.1 then
        s3.report (pgArb a) .u 0x18 (((s.resOrder a).findIdx (· == id)) % 1024 * 64 + w) 0 0
      else s3

/-! ## One slot (04 R108) -/

/-- A resource moves on to its next slot. -/
def State.slotPass (s : State) (id : Nat) : State :=
  let p := (s.calOf id).period
  s.modRes id (fun r => { r with idx := if r.idx + 1 < p then r.idx + 1 else 0, slots := r.slots + 1 })

/-- A slot of a tile, by the kind of its resource. -/
def State.serveTile (s : State) (l id : Nat) : State :=
  match s.physOf l with
  | none => s
  | some t =>
    let kind := resKind id
    if kind = kindNMBG ∨ kind = kindSUMB then s.serveUnit id (s.tileReq t id)
    else if kind = kindINJ then s.serveInject t id
    else s.servePort t id

/-- The first slot of a REFR or ROWE run closes every row of a bank group; a REFR run refreshes (05 R128, R154). -/
def State.serveRun (s : State) (o id : Nat) : State :=
  if resKind id ≠ kindNMBG then s
  else
    let r := s.resAt id
    let c := s.calOf id
    let first := r.idx = 0 ∨ c.owner (r.idx - 1) ≠ o
    let wrapped := r.idx = 0 ∧ 1 < c.length ∧ c.owner (c.period - 1) = o
    let s1 := s.modRes id (fun r => { r with rows := [] })
    if o = ownREFR ∧ first ∧ ¬wrapped then s1.refreshRun id else s1

/-- Whether a resource's calendar runs: not while its compute die is in RESET (07 R217) or its base die has no clocks. -/
def State.slotRuns (s : State) (id : Nat) : Bool :=
  let slot := resSlot id
  if slot < 0x10 then s.basePresent slot else s.prst (slot - 0x10) != prstReset && s.basePresent ((slot - 0x10) / 3)

/-- A slot by its owner: at most one request is served. -/
def State.ownerSlot (s : State) (id : Nat) : State :=
  let o := (s.calOf id).owner (s.resAt id).idx
  if o = ownROWE ∨ o = ownREFR then s.serveRun o id
  else if o = ownOPEN then s.openSlot id
  else if o = ownIDLE then s
  else s.serveTile o id

/-- A slot of an edge channel: the visit that falls in it, then its owner's sectors. A checker that runs owns every slot but
the REFR ones; its queue is filled, and the slot counts as one EMCLK of its run (06 R185, R186). -/
def State.edgeSlot (s : State) (id : Nat) : State :=
  let k := chanStack id
  let c := chanNumber id
  if s.checking k c then
    let s1 := (s.count (pgEchk k c) ECHK_CYCLES.COUNT 1).checkFill k c
    let s2 := s1.bankVisit k c
    match s2.slotClient id with
    | some cl => s2.serveEdge cl id
    | none => s2
  else
    let s1 := s.bankVisit k c
    if (s1.calOf id).owner (s1.resAt id).idx = ownOPEN then s1.openSlot id
    else match s1.slotClient id with
      | some cl => s1.serveEdge cl id
      | none => s1

/-- One slot of a resource passes. -/
def State.oneSlot (s : State) (id : Nat) : State :=
  (if resKind id = kindEMCH then s.edgeSlot id else s.ownerSlot id).slotPass id

def State.emclkOf (s : State) (b : Nat) : Nat := mapGet 0 s.emclk b

/-- The channels of a base die that have not had the slot of the EMCLK count `e` take it, in ascending order, those below
`n`. -/
def State.catchUp (s : State) (b e n : Nat) : State :=
  (List.range n).foldl (fun s i =>
    let id := resIdOf b kindEMCH i
    if (s.resAt id).slots ≤ e then s.oneSlot id else s) s

/-- A slot of an edge channel (06 R164, R182): the channels of a die share one EMCLK count, and within one EMCLK the lower
channels come first. A channel that has had its slot of this EMCLK moves the count on, after every other channel has had
its own (assumption log 65). -/
def State.channelSlot (s : State) (id : Nat) : State :=
  let b := resSlot id
  let e := s.emclkOf b
  let s1 :=
    if (s.resAt id).slots ≤ e then s
    else
      let s1 := s.catchUp b e 64
      { s1 with emclk := mapSet 0 s1.emclk b (e + 1) }
  (s1.catchUp b (s1.emclkOf b) (resInst id)).oneSlot id

/-- `CALENDAR_SLOT` (04 R108): one slot of a calendared resource. -/
def State.calendarSlot (s : State) (id : Nat) : State :=
  if !(s.resourcesOf (arbOfSlot (resSlot id))).contains id ∨ !s.slotRuns id then s
  else if resKind id = kindEMCH then s.channelSlot id
  else s.oneSlot id

/-! ## Switching (04 R112, R113) -/

/-- What is queued at a resource whose new calendar holds no slot of its owner completes with NO_SLOT: transfers, plane
loads, row-engine commands and runtime accesses. -/
def State.refuseQueued (s : State) (id : Nat) (c : Calendar) : State :=
  let tile (t : Nat) (u : Tile) : Tile :=
    if c.has (s.logical t) then u
    else
      let at_ (x : Xfer) : Bool := x.status == stOk && (s.xferRes t x).contains id
      (u.loads.filter (fun l => !(l.unitsAt (s.logical t) id).isEmpty)).foldl Tile.refuseLoad
        { u with xfers := u.xfers.map (fun x => if at_ x then x.fail stNoSlot else x) }
  let s1 := { s with tiles := mapUpd Tile.init s.tiles tile }
  if c.has ownOPEN then s1
  else
    let q := (s1.resAt id).openQ
    let waits (x : MemAccess) : Bool :=
      x.todo.any (fun a => resOfSector a == some id) || x.up.any (fun e => s.injOf e.1 == id)
    let s2 := s1.modRes id (fun r => { r with openQ := [] })
    let s3 := { s2 with bridge := { s2.bridge with accs := s2.bridge.accs.map (fun x =>
      if x.status == stOk && waits x then x.fail stNoSlot else x) } }
    q.foldl (fun s e => s.rowReply e.2 stNoSlot) s3

/-- A resource takes its new calendar at its entry 0 (04 R112): what is queued is served under it, or refused; after the
last resource of the set the switch ends. -/
def State.resSwitch (s : State) (id : Nat) : State :=
  let r := s.resAt id
  match r.next with
  | none => s
  | some c =>
    if r.idx ≠ 0 then s
    else
      let s1 := s.setRes id (r.switchTo c)
      (s1.refuseQueued id (s1.calOf id)).switchedOne (arbOfSlot (resSlot id)) id

/-! ## The meanings of the commands -/

/-- `ARB_CAL_LOAD` (04 R111). -/
def execArbCalLoad (a : ArbId) (s : State) : Host.Outcome State Fault Refusal := .next (s.calLoad a)

/-- `ARB_CAL_LOAD_DONE` (04 R111). -/
def execArbCalLoadDone (a : ArbId) (s : State) : Host.Outcome State Fault Refusal := .next (s.calLoadDone a)

/-- `ARB_CAL_SWITCH` (04 R112). -/
def execArbCalSwitch (a : ArbId) (s : State) : Host.Outcome State Fault Refusal := .next (s.calSwitch a)

/-- `REFRESH_DEBT_TICK` (05 R154). -/
def execRefreshDebtTick (n : Die) (k : Fin 128) (g : Fin 2) (m : Fin 4) (s : State) :
    Host.Outcome State Fault Refusal := .next (s.debtTick n k g m)

/-- `NMEM_CTRL.CLR_LATE` (05 R158). -/
def State.clrLate (s : State) (n m : Nat) : State := s.put (pgNmem n m) NMEM_REFR_LATE.COUNT 0

/-- `NMEM_CLR_LATE` (05 R158). -/
def execNmemClrLate (n : Die) (m : Fin 4) (s : State) : Host.Outcome State Fault Refusal := .next (s.clrLate n m)

/-- `NMEM_CTRL.CLR_SCRUB` (05 R158): the counters and `PASSES` clear. -/
def State.clrScrub (s : State) (n m : Nat) : State :=
  let p := pgNmem n m
  let s1 := (((s.put p NMEM_SCRUB_C.COUNT 0).put p NMEM_SCRUB_U.COUNT 0).put p NMEM_SCRUB_P.COUNT 0).put p
    NMEM_SCRUB_STAT.PASSES 0
  { s1 with refresh := mapUpd Refresh.init s1.refresh (fun key x =>
      if key % 4 = m ∧ resSlot (key / 4) = 0x10 + n then { x with passes := 0 } else x) }

/-- `NMEM_CLR_SCRUB` (05 R158). -/
def execNmemClrScrub (n : Die) (m : Fin 4) (s : State) : Host.Outcome State Fault Refusal := .next (s.clrScrub n m)

/-- `BANK_SET_VISIT` (06 R165). -/
def execBankSetVisit (k : Stack) (c : Fin 32) (s : State) : Host.Outcome State Fault Refusal := .next (s.bankVisit k c)

/-- `EDGE_ROW_CLOSE` (06 R165). -/
def execEdgeRowClose (k : Stack) (c : Fin 32) (x : Fin 2) (bank : Fin 64) (s : State) :
    Host.Outcome State Fault Refusal := .next (s.edgeClose k c x bank)

/-- `SUMT_REG[r]` written (06 R184, R187): ignored while `BUSY`, or with a reserved mode; a change of `MODE` starts with
every line invalid, or with the lines dropped and the region zero-filled. -/
def State.summitMode (s : State) (b r v : Nat) : State :=
  let p := pgSumt b
  let mode := v % 4
  if s.get p (SUMT_REG.BUSY.at r) = 1 ∨ 2 ≤ mode then s
  else
    let old := s.get p (SUMT_REG.MODE.at r)
    let s1 := (s.put p (SUMT_REG.MODE.at r) mode).put p (SUMT_REG.STACK.at r) (v / 4 % 2)
    let lines (s : State) : State :=
      { s with cache := s.cache.filter (fun e => e.1 / 32768 != 20 * b + r) }
    if mode = old then (if v / 4 % 2 = s.get p (SUMT_REG.STACK.at r) then s1 else lines s1)
    else (lines (s1.zeroRange (summitBase b r) 0x0100_0000)).put p (SUMT_REG.BUSY.at r) 1

/-- `SUMT_MODE_WRITE` (06 R184). -/
def execSumtModeWrite (b : Base) (r : Fin 20) (v : Word) (s : State) : Host.Outcome State Fault Refusal :=
  .next (s.summitMode b r v.toNat)

/-- `SUMT_MODE_DONE` (06 R184): the change completes. -/
def execSumtModeDone (b : Base) (r : Fin 20) (s : State) : Host.Outcome State Fault Refusal :=
  .next (s.put (pgSumt b) (SUMT_REG.BUSY.at r) 0)

/-- `EN` of an EMC page becomes 1: every checker of the stack stops with `ABORT` (06 R185); ignored without the licence (02
R41). -/
def State.emcEnabled (s : State) (k : Nat) : State :=
  if s.flag (pgEmc k) PAGE_CAPS.LIC_OFF then s
  else (List.range 32).foldl (fun s c => s.checkEnd k c true) (s.putFlag (pgEmc k) PAGE_CTRL.EN true)

/-- `EMC_ENABLE` (06 R185). -/
def execEmcEnable (k : Stack) (s : State) : Host.Outcome State Fault Refusal := .next (s.emcEnabled k)

/-- `ECHK_CTRL.START` (06 R185, R187): ignored while the EMC is enabled or the checker runs; the results clear. A PRBS31
register of 0 would stand still and starts as 1. -/
def State.checkStart (s : State) (k c : Nat) : State :=
  if s.flag (pgEmc k) PAGE_CTRL.EN || s.checking k c || !s.stackUsed k then s
  else
    let p := pgEchk k c
    let s1 := [ECHK_STAT.ABORT, ECHK_STAT.DONE, ECHK_MIS_SECT.COUNT, ECHK_MIS_BITS.COUNT, ECHK_FIRST.VALID,
      ECHK_FIRST.SECT, ECHK_CYCLES.COUNT].foldl (fun s f => s.put p f 0) (s.put p ECHK_STAT.RUN 1)
    let start (x : Nat) : Nat := max 1 (Config.prbsStart (max 1 (s.get p ECHK_CFG.SEED)) x).toNat
    { s1 with checkers := s1.checkers ++
      [(checkerKey k c, { next := 0, queue := [], prbs0 := start 0, prbs1 := start 1, stop := false })] }

/-- `ECHK_START` (06 R185). -/
def execEchkStart (k : Stack) (c : Fin 32) (s : State) : Host.Outcome State Fault Refusal := .next (s.checkStart k c)

/-- `ECHK_CTRL.STOP` (06 R186, R187): accesses of which nothing has moved are dropped; the checker stops after the one in
flight, at once where there is none. -/
def State.checkStop (s : State) (k c : Nat) : State :=
  match s.checkers.find? (fun e => e.1 == checkerKey k c) with
  | none => s
  | some (_, x) =>
    let m := if s.get (pgEchk k c) ECHK_CFG.PATH = 0 then 8 else 1
    let whole := if s.get (pgEchk k c) ECHK_CFG.OP = 2 then 2 * m else m
    let begun := x.queue.filter (fun e => (x.queue.filter (fun f => f.n == e.n)).length < whole)
    if begun.isEmpty then s.checkEnd k c false
    else { s with checkers := s.checkers.map (fun e =>
      if e.1 = checkerKey k c then (e.1, { x with queue := begun, stop := true }) else e) }

/-- `ECHK_STOP` (06 R186). -/
def execEchkStop (k : Stack) (c : Fin 32) (s : State) : Host.Outcome State Fault Refusal := .next (s.checkStop k c)

/-- A checker whose count is reached, or that has been stopped, ends once its accesses have moved (06 R186). -/
def State.checkDone (s : State) (k c : Nat) : State :=
  match s.checkers.find? (fun e => e.1 == checkerKey k c) with
  | some (_, x) => if x.queue.isEmpty && !s.checkGoes k c x then s.checkEnd k c false else s
  | none => s

/-- `ECHK_DONE` (06 R186). -/
def execEchkDone (k : Stack) (c : Fin 32) (s : State) : Host.Outcome State Fault Refusal := .next (s.checkDone k c)

end Sys2Proof.Machine
end

