-- ==== Sys2Proof/WellFormed.lean ====
section
/-! DEFINITION. Which commands are well formed: the byte lists they carry have the lengths the wires give them (07 R197,
R205, 11 R318, R336, 12 R346). Every other operand is bounded by its type. -/

namespace Sys2Proof

/-- `FK` of a flit (07 R197): its kind and its class. -/
def kindOf (f : List Byte) : Nat := (f.getD 36 0).toNat % 4
def classOf (f : List Byte) : Nat := (f.getD 36 0).toNat / 4 % 4

/-- A packet as its flits delimit it (07 R197): a head and at most 1,024 data flits of its class, the last one the tail. -/
def packetShape (head : List Byte) (body : List (List Byte)) : Bool :=
  head.length == 37 && body.all (fun f => f.length == 37 && classOf f == classOf head) && body.length ≤ 1024
    && (match body.reverse with
      | [] => kindOf head == 3
      | t :: rest => kindOf head == 0 && kindOf t == 2 && rest.all (fun f => kindOf f == 1))

/-- A host completion carries whole code words (12 R346). -/
def replyShape (q : HostReply) : Bool := q.data.all (fun w => w.length == 36)

/-- Whether a command's operands have a shape that its sender can form. -/
def Instr.wellFormed : Instr → Bool
  | .registerWrite _ _ _ => true
  | .pairLoRead _ _ => true
  | .pageLock _ => true
  | .softReset _ => true
  | .softResetDone _ => true
  | .errAckFirst _ => true
  | .errAckClrC _ => true
  | .errAckClrU _ => true
  | .dieLogFlush _ => true
  | .bundleIssue _ => true
  | .scalarInstruction _ => true
  | .mret _ => true
  | .bndl _ _ _ _ => true
  | .sclr _ _ _ _ => true
  | .fenceT _ _ => true
  | .fenceTRelease _ => true
  | .vld _ _ => true
  | .vst _ _ => true
  | .nmrd _ _ => true
  | .nmwr _ _ => true
  | .xrd _ _ => true
  | .xwr _ _ => true
  | .nsnd _ _ => true
  | .rowc _ _ => true
  | .transferComplete _ _ => true
  | .transferLost _ _ => true
  | .amac _ _ => true
  | .adist _ _ => true
  | .apld _ _ => true
  | .apldComplete _ _ => true
  | .awarm _ => true
  | .acool _ => true
  | .rampStep _ => true
  | .arrayIdleTimeout _ => true
  | .arrayResultWrite _ => true
  | .vadd _ _ => true
  | .vsub _ _ => true
  | .vmul _ _ => true
  | .vfma _ _ => true
  | .vmin _ _ => true
  | .vmax _ _ => true
  | .vabs _ _ => true
  | .vneg _ _ => true
  | .vcmpEq _ _ => true
  | .vcmpLt _ _ => true
  | .vcmpLe _ _ => true
  | .vsel _ _ => true
  | .vexp2 _ _ => true
  | .vexp _ _ => true
  | .vrcp _ _ => true
  | .vrsqrt _ _ => true
  | .vrsum _ _ => true
  | .vrmax _ _ => true
  | .vacc _ _ => true
  | .vtoa _ _ => true
  | .vcvt _ _ => true
  | .vcvtInt32 _ _ => true
  | .vqmx _ _ => true
  | .tkclr _ _ => true
  | .tkins _ _ => true
  | .tkmrg _ _ => true
  | .tkrd _ _ => true
  | .tkswap _ _ => true
  | .tileStart _ => true
  | .tileHalt _ => true
  | .tileHaltDone _ => true
  | .tileSoftReset _ => true
  | .calendarSlot _ => true
  | .arbCalLoad _ => true
  | .arbCalLoadDone _ => true
  | .arbCalSwitch _ => true
  | .calResourceSwitch _ => true
  | .refreshDebtTick _ _ _ _ => true
  | .nmemClrLate _ _ => true
  | .nmemClrScrub _ _ => true
  | .rowCopy _ => true
  | .rowFill _ => true
  | .rowAnd _ => true
  | .rowOr _ => true
  | .rowXor _ => true
  | .rowNot _ => true
  | .rowStep _ => true
  | .nmemSoftReset _ _ => true
  | .erowSoftReset _ => true
  | .bankSetVisit _ _ => true
  | .edgeRowClose _ _ _ _ => true
  | .sumtModeWrite _ _ _ => true
  | .sumtModeDone _ _ => true
  | .emcEnable _ => true
  | .echkStart _ _ => true
  | .echkStop _ _ => true
  | .echkDone _ _ => true
  | .flitHeadRoute _ head body => packetShape head body
  | .nsndDeliver _ _ => true
  | .d2dFrameReceive _ frame => frame.bytes.length == 42
  | .d2dNakReceive _ _ => true
  | .d2dNakRepeat _ => true
  | .seamRetrain _ _ => true
  | .trainingFrameReceive _ _ => true
  | .seamProposalsKnown _ _ _ _ => true
  | .seamTestDone _ _ => true
  | .seamAttemptTimeout _ _ => true
  | .routeTableRewrite _ => true
  | .stallDrop _ => true
  | .prstReq _ => true
  | .prstDrainEnd _ => true
  | .prstRelease _ => true
  | .prstReleasingDone _ _ => true
  | .bnetRgLoad => true
  | .bnetRgLoadDone => true
  | .reductionContribution _ _ => true
  | .reductionRoundTimeout _ => true
  | .ropeOn _ => true
  | .ropeOff _ => true
  | .ropeSoftReset => true
  | .layoutValidWrite _ _ => true
  | .ropeSelWrite _ _ => true
  | .ropeOpen _ => true
  | .ropeClose _ => true
  | .ropeFork _ => true
  | .ropeTrunc _ => true
  | .ropeSet _ => true
  | .frameZeroDone _ => true
  | .agingWalk => true
  | .ropeEpochEnd => true
  | .demotionSweep _ => true
  | .pageMoveStart _ _ => true
  | .pageMoveComplete _ => true
  | .taintNotice _ => true
  | .cairnOn _ => true
  | .cairnOff _ => true
  | .cairnEmptyDone => true
  | .cairnMatch _ => true
  | .cairnPublish _ => true
  | .cairnPin _ => true
  | .cairnUnpin _ => true
  | .cairnFlush _ => true
  | .cairnSweep _ => true
  | .attn _ => true
  | .attnRowCheck _ _ => true
  | .attnKernelCall _ _ => true
  | .attnKernelTimeout _ _ => true
  | .attnRowTimeout _ _ => true
  | .attnComplete _ => true
  | .accept _ => true
  | .fprtEnable _ => true
  | .fprtDisable _ => true
  | .fecLock _ _ => true
  | .phyTimeout _ => true
  | .halfLockTimeout _ _ => true
  | .waitTimeout _ => true
  | .exchangeSendTimer _ => true
  | .exchangeReceive _ _ => true
  | .fecLockLoss _ => true
  | .fprtRetrain _ => true
  | .fprtClr _ => true
  | .fabricFrameReceive _ frame _ => frame.length == 156
  | .fabricNakReceive _ _ => true
  | .fabricNakRepeat _ => true
  | .lpReq _ => true
  | .lpAck _ => true
  | .lpNak _ => true
  | .lpExit _ => true
  | .ringUpdate _ _ => true
  | .ringUpdateTimer _ => true
  | .fprtRingWrite _ _ _ => true
  | .fabricPacketReceive _ head body => head.length == 36 && body.all (fun f => f.length == 36)
  | .hostMemoryRead _ _ => true
  | .hostMemoryWrite _ _ data => data.all (fun w => w.length == 36)
  | .hostRegisterRead _ _ => true
  | .hostRegisterWrite _ _ => true
  | .hostCompletionReceive _ q => replyShape q
  | .hostRequestTimeout _ _ => true
  | .deviceRequestTimeout _ _ => true
  | .devicePacketPortTimeout _ => true
  | .hprtSoftReset _ => true
  | .hbrgSoftReset => true
  | .subwEnable _ => true
  | .subwDisable _ => true
  | .subwSoftReset _ => true
  | .commandAccept => true
  | .nopCommand _ _ => true
  | .subwCqHeadWrite _ _ => true
  | .dmaDescriptor _ replies => replies.all replyShape
  | .dmaResume _ => true
  | .dmaFlush _ => true
  | .dmaSoftReset _ => true
  | .tileFence _ _ => true
  | .tileErrClr _ => true
  | .mgmtLogSelWrite _ _ => true
  | .mgmtLogTailWrite _ => true
  | .mgmtClrTaint => true
  | .mgmtClrLost => true
  | .mgmtRestart _ _ => true
  | .mgmtRestartDone => true
  | .domainEntry _ _ => true
  | .wakeComparatorTrip _ _ => true
  | .domainExitComplete _ => true
  | .pwrReqHoldOn _ => true
  | .pwrReqOff _ => true
  | .pwrReqAuto _ => true
  | .lattolWrite _ _ => true
  | .sensorSample _ _ => true
  | .thrmClrFault => true
  | .forecastDecision => true
  | .flowTachPulse => true
  | .flowInputCheck _ _ => true
  | .flowUpdate => true
  | .stopCleared => true
  | .lowCleared => true
  | .shutdown => true
  | .shutdownComplete => true
  | .thermTrip _ => true
  | .clkSnap => true
  | .clockFailure _ => true
  | .pkgReset => true
  | .packageReset => true
  | .resetNAssert => true
  | .pwrOkChange _ => true
  | .powerOnResetRelease => true
  | .resetRelease _ => true
  | .b0Clocks _ _ _ => true
  | .dieDiscovery _ => true
  | .linkTraining _ => true
  | .edgeInit _ => true
  | .mgmtFw _ => true
  | .tileFw => true
  | .topology => true
  | .ready => true
  | .bootChunkReceive _ _ flits _ => flits.length == 128 && flits.all (fun f => f.length == 37)
  | .bootEndMarker => true
  | .bootBitmapTimeout => true
  | .bootPassDone => true
  | .tileStartupCheck _ _ => true
  | .bootReload => true
  | .bootReloadDone => true
  | .bootAccept => true
  | .nbrWaitTimeout => true
  | .flashErase => true
  | .flashProgram => true
  | .flashCheck => true
  | .flashRead => true
  | .flashCommandDone _ => true
  | .attGo => true
  | .attReportDone => true
  | .smbRegisterRead _ _ => true
  | .smbRegisterWrite _ _ _ => true
  | .smbStatusRead _ => true
  | .smbClockTimeout => true
  | .pmbGo _ => true
  | .pmbDone _ _ => true
  | .jtagBypass => true
  | .jtagIdcode => true
  | .jtagSamplePreload _ _ => true
  | .jtagExtest => true
  | .jtagClamp => true
  | .jtagHighz => true
  | .trstNAssert => true
  | .domainEntryComplete _ => true
  | .vddAonOrVio18Low => true
  | .hprtRetrain _ => true
  | .hprtClr _ => true

end Sys2Proof
end

