-- ==== Sys2Proof/Machine/Network.lean ====
section
/-! DEFINITION. The on-package network (07): node IDs and heads (R193, R197, R198), the route of a packet at one router
(R188 to R192, R200, R201, R212, R215), die-to-die links (R205 to R208), seam training (R209 to R211), partition reset
(R214 to R217) and the delivery of messages (R195). A tile router is numbered by its package-wide physical index, the base
router at (X, Y) 2048 + 8 Y + X. -/

namespace Sys2Proof.Machine

/-! ## Nodes (07 R190, R192, R193) -/

/-- What a node ID names; `bad` where a field is reserved. -/
inductive Node where
  | tile (n p : Nat)
  | base (x y port : Nat)
  | group (g : Nat)
  | bad
  deriving DecidableEq, Repr

def nodeOf (w : Nat) : Node :=
  let k := bits w 15 14
  if k = 0 then
    if bits w 9 8 = 0 ∧ bits w 13 10 < 12 ∧ bits w 7 0 < 144 then .tile (bits w 13 10) (bits w 7 0) else .bad
  else if k = 1 then
    if bits w 7 4 = 0 then .base (bits w 13 11) (bits w 10 8) (bits w 3 0) else .bad
  else if k = 2 then (if bits w 13 6 = 0 then .group (bits w 5 0) else .bad)
  else .bad

def tileNode (t : Nat) : Nat := 1024 * (t / 144) + t % 144

def baseNode (x y port : Nat) : Nat := 0x4000 + 2048 * x + 256 * y + port

/-- The node of the bring-up logic (16 R437): base router (3, 7), port 2. -/
def bringUpNode : Nat := baseNode 3 7 2

/-- The base die of a base router. -/
def dieOfXY (x y : Nat) : Nat := if 4 ≤ y then (if x < 4 then 0 else 1) else (if x < 4 then 2 else 3)

/-- The design position of a base router, and the package position of a design position (07 R190). -/
def designOf (x y : Nat) : Nat × Nat :=
  match dieOfXY x y with
  | 0 => (x, y - 4)
  | 1 => (7 - x, 7 - y)
  | 2 => (x, y)
  | _ => (7 - x, 3 - y)

def packageOf (b u v : Nat) : Nat × Nat :=
  match b with
  | 0 => (u, 4 + v)
  | 1 => (7 - u, 7 - v)
  | 2 => (u, v)
  | _ => (7 - u, 3 - v)

/-- The base router on which drop y of Cn lands. -/
def dropRouter (n y : Nat) : Nat × Nat := packageOf (n / 3) (n % 3) (y / 6)

/-- What is attached to a port of a base router (07 R192). -/
inductive Attachment where
  | drop (n y : Nat)
  | emc (k half : Nat)
  | summit (b r : Nat)
  | fabric (i : Nat)
  | host (h : Nat)
  | management
  | bringUp
  | ropeLogic
  | cairnEngine
  deriving DecidableEq, Repr

/-- The attachment of port `port` of the base router at (x, y); `emc k h` serves channels 16 h to 16 h + 15 of stack k. -/
def attachedAt (x y port : Nat) : Option Attachment :=
  let u := (designOf x y).1
  let v := (designOf x y).2
  let b := dieOfXY x y
  if u < 3 ∧ port < 6 then some (.drop (3 * b + u) (6 * v + port))
  else if u = 0 ∧ port = 6 then some (.emc (2 * b + v / 2) (v % 2))
  else if port = 7 then some (.summit b (4 * v + u))
  else if port = 8 ∧ v = 0 then some (.summit b (16 + u))
  else if u ≠ 3 then none
  else if v < 3 then (if port = 0 then some (.fabric (3 * b + v)) else none)
  else match b, port with
    | 0, 0 => some (.host 0)
    | 3, 0 => some (.host 1)
    | 0, 1 => some .management
    | 0, 2 => some .bringUp
    | 0, 3 => some .ropeLogic
    | 0, 4 => some .cairnEngine
    | _, _ => none

/-- Whether an endpoint other than a drop is attached to a port of a base router. -/
def portUsed (x y port : Nat) : Bool :=
  match attachedAt x y port with
  | none | some (.drop _ _) => false
  | some _ => true

/-- Whether a node is present. -/
def State.nodePresent (s : State) : Node → Bool
  | .tile n _ => s.diePresent n
  | .base x y port => s.basePresent (dieOfXY x y) && portUsed x y port
  | .group _ => true
  | .bad => false

/-! ## Heads (07 R197, R198) -/

def flitWord (f : List Byte) : List Byte := f.take 36

/-- `FK` of a flit: its kind and its class. -/
abbrev flitKind (f : List Byte) : Nat := kindOf f
abbrev flitClass (f : List Byte) : Nat := classOf f

/-- A flit in a class. -/
def inClass (c : Nat) (f : List Byte) : List Byte := slice f 0 36 ++ [BitVec.ofNat 8 (field f 36 1 % 4 + 4 * c)]

def clsRequest : Nat := 0
def clsResponse : Nat := 1
def clsReduction : Nat := 2
def clsDetour : Nat := 3

/-- The class of a packet type; none for a reserved one. Chunks and end markers travel as requests while a load runs (16
R437). -/
def typeClass (loading : Bool) (ty : Nat) : Option Nat :=
  if ty = 1 ∨ ty = 2 ∨ ty = 5 ∨ ty = 7 ∨ ty = 9 ∨ ty = 0x0A then some clsRequest
  else if ty = 3 ∨ ty = 4 ∨ ty = 6 ∨ ty = 8 ∨ ty = 0x0B ∨ ty = 0x1F then some clsResponse
  else if 0x10 ≤ ty ∧ ty ≤ 0x12 then some clsReduction
  else if loading ∧ (ty = 0x18 ∨ ty = 0x19) then some clsRequest
  else none

def hdDst (d : List Byte) : Nat := field d 0 2
def hdSrc (d : List Byte) : Nat := field d 2 2
def hdType (d : List Byte) : Nat := field d 4 1
def hdLen (d : List Byte) : Nat := field d 6 2 % 2048
def hdAddr (d : List Byte) : Nat := field d 8 6
def hdTag (d : List Byte) : Nat := field d 16 4
def hdStatus (d : List Byte) : Nat := field d 20 1
def hdDies (d : List Byte) : Nat := field d 28 2 % 4096

/-- A head-only packet. -/
def headFlit (cls dst src ty addr tag status : Nat) : List Byte :=
  codeWord (leBytes 2 dst ++ leBytes 2 src ++ leBytes 1 ty ++ [0, 0, 0] ++ leBytes 6 addr ++ [0, 0] ++ leBytes 4 tag
    ++ leBytes 1 status ++ List.replicate 11 0) ++ [BitVec.ofNat 8 (3 + 4 * cls)]

/-! ## Routes (07 R201, R212) -/

def dirWest : Nat := 0
def dirEast : Nat := 1
def dirSouth : Nat := 2
def dirNorth : Nat := 3
def dirDown : Nat := 4
def dirTile : Nat := 5
/-- The port p of a base router. -/
def dirPort (p : Nat) : Nat := 8 + p

def toward (a b lo hi : Nat) : Nat := if b < a then lo else hi

/-- Out of a die: along x to column 3, then to the drop of the source's row. -/
def State.outRoute (s : State) (n x y src : Nat) : Nat × Bool :=
  if x ≠ 3 then (toward x 3 dirWest dirEast, false)
  else
    let row := match nodeOf src with | .tile k p => if k = n then p / 6 else y | _ => y
    let d := s.dropFor n row
    if y = d then (dirDown, false) else (toward y d dirSouth dirNorth, true)

/-- The way a packet takes out of a tile router of die n at (x, y): its direction, and whether it goes in the detour
class. -/
def State.tileRoute (s : State) (n x y src dst : Nat) : Nat × Bool :=
  match nodeOf dst with
  | .tile m p =>
    if m = n then
      let inside := match nodeOf src with | .tile k _ => k == n | _ => false
      if inside then
        if x ≠ p % 6 then (toward x (p % 6) dirWest dirEast, false)
        else if y ≠ p / 6 then (toward y (p / 6) dirSouth dirNorth, false)
        else (dirTile, false)
      else if y ≠ p / 6 then (toward y (p / 6) dirSouth dirNorth, true)
      else if x ≠ p % 6 then (toward x (p % 6) dirWest dirEast, false)
      else (dirTile, false)
    else s.outRoute n x y src
  | _ => s.outRoute n x y src

/-- The seam die that joins the halves of the package at a row (0, 1) or at a column (2, 3). -/
def seamOfRow (y : Nat) : Nat := if 4 ≤ y then 0 else 1
def seamOfCol (x : Nat) : Nat := if x < 4 then 2 else 3

/-- Whether a base die's route tables avoid a seam link. -/
def State.avoided (s : State) (b sm l : Nat) : Bool := bit (mapGet 0 s.net.known b) (4 * sm + l)

/-- Whether a base die's route tables avoid every link of a seam die. -/
def State.seamCut (s : State) (b sm : Nat) : Bool := (List.range 4).all (s.avoided b sm)

/-- The link of a seam nearest to link l that the route tables use, the lower first (07 R212). -/
def State.seamLinkFor (s : State) (b sm l : Nat) : Option Nat :=
  let order := (List.range 4).flatMap (fun d => (if d ≤ l then [l - d] else []) ++ (if l + d < 4 then [l + d] else []))
  order.find? (fun x => !s.avoided b sm x)

/-- The way out of a base router: a direction and whether it is the detour class, or a seam link to cross (seam, link,
direction), or nowhere to go. -/
inductive Way where
  | go (dir : Nat) (detour : Bool)
  | cross (sm l dir : Nat)
  | stuck
  deriving DecidableEq, Repr

/-- Towards the other half along X, in row y; at the joint, along it to the link in use. -/
def State.crossX (s : State) (x y : Nat) : Way :=
  let east := x < 4
  let edge := if east then 3 else 4
  let sm := seamOfRow y
  if x ≠ edge then .go (if east then dirEast else dirWest) false
  else match s.seamLinkFor (dieOfXY x y) sm (y % 4) with
    | none => .stuck
    | some l => if l = y % 4 then .cross sm l (if east then dirEast else dirWest) else .go (toward (y % 4) l dirSouth dirNorth) true

/-- Towards the other half along Y, in column `c` of this half; at the joint, along it to the link in use, in the detour class
where that is not the one of the column. -/
def State.crossY (s : State) (x y c : Nat) : Way :=
  let north := y < 4
  let edge := if north then 3 else 4
  let sm := seamOfCol x
  if y ≠ edge then
    (if x ≠ c then .go (toward x c dirWest dirEast) false else .go (if north then dirNorth else dirSouth) false)
  else match s.seamLinkFor (dieOfXY x y) sm (c % 4) with
    | none => .stuck
    | some l =>
      if l = x % 4 then .cross sm l (if north then dirNorth else dirSouth)
      else .go (toward (x % 4) l dirWest dirEast) (l != c % 4)

/-- The way from a base router to port `port` of the base router at (tx, ty) (07 R201, R212): along X, then along Y;
round through the other two base dies where a seam is cut. -/
def State.baseRoute (s : State) (x y tx ty port : Nat) : Way :=
  let b := dieOfXY x y
  let sameX := decide (x < 4) == decide (tx < 4)
  let sameY := decide (y < 4) == decide (ty < 4)
  let rowCut := s.seamCut b (seamOfRow y)
  if sameX && sameY then
    if x ≠ tx then .go (toward x tx dirWest dirEast) false
    else if y ≠ ty then .go (toward y ty dirSouth dirNorth) false
    else .go (dirPort port) false
  else if sameY then (if rowCut then s.crossY x y x else s.crossX x y)
  else if sameX then (if s.seamCut b (seamOfCol x) then s.crossX x y else s.crossY x y tx)
  else if rowCut || s.seamCut b (seamOfCol tx) then s.crossY x y x
  else s.crossX x y

/-! ## Die-to-die links (07 R205 to R208) -/

/-- The number of a link end: drops first, then seam tracks; the ends of one link differ in the lowest bit. -/
def dropLink (n y e : Nat) : Nat := 2 * (24 * n + y) + e
def seamLink (sm l track e : Nat) : Nat := 576 + 2 * (32 * sm + 8 * l + track) + e

def linkNumber : LinkEnd → Nat
  | .drop n y e => dropLink n y e
  | .seam sm l track e => seamLink sm l track e

/-- Whether a link end belongs to a drop; and its die and row, or its seam, link and track. -/
def isDrop (i : Nat) : Bool := i < 576
def dropDie (i : Nat) : Nat := i / 48
def dropRow (i : Nat) : Nat := i / 2 % 24
def seamDie (i : Nat) : Nat := (i - 576) / 64
def seamNo (i : Nat) : Nat := (i - 576) / 16 % 4
def seamTrack (i : Nat) : Nat := (i - 576) / 2 % 8

/-- The page of a link, and its syndrome (13 R374). -/
def linkPage (i : Nat) : PageRef := if isDrop i then pgCnet (dropDie i) else pgSeam (seamDie i)
def linkSyndrome (i : Nat) : Nat := if isDrop i then dropRow i else seamNo i * 256 + seamTrack i

def State.link (s : State) (i : Nat) : Link := mapGet Link.init s.links i

def State.setLink (s : State) (i : Nat) (x : Link) : State := { s with links := mapSet Link.init s.links i x }

/-- The states of a seam link (07 R210). -/
def smDown : Nat := 0
def smExchange : Nat := 1
def smTest : Nat := 2
def smUp : Nat := 3
def smHeld : Nat := 4

def State.seamState (s : State) (sm l : Nat) : Nat := s.get (pgSeam sm) (SEAM_LINK.STATE.at l)

def State.dropHeld (s : State) (n y : Nat) : Bool := bit (s.get (pgCnet n) CNET_DROP_DOWN.DOWN) y

/-- Whether a link end may send flit frames: a seam link that is UP; a drop that is not held down and not closed (07
R214). -/
def State.linkOpen (s : State) (i : Nat) : Bool :=
  if isDrop i then
    !s.dropHeld (dropDie i) (dropRow i)
      && (s.prst (dropDie i) == prstUp || (i % 2 == 1 && s.prst (dropDie i) == prstDrain))
  else s.seamState (seamDie i) (seamNo i) == smUp

/-- One byte taken into the CRC-16 with polynomial 0x8BB7, most significant bit first (07 R205). -/
def crc16Byte (c : Nat) (b : Byte) : Nat :=
  (List.range 8).foldl (fun c _ =>
    if 0x8000 ≤ c then (c * 2 % 65536) ^^^ 0x8BB7 else c * 2) (c ^^^ (b.toNat * 256))

def crc16 (l : List Byte) : Nat := l.foldl crc16Byte 0xFFFF

def ltFlit : Nat := 0
def ltIdle : Nat := 1
def ltNak : Nat := 2
def ltTraining : Nat := 3

/-- A link frame's 42 bytes. -/
def d2dFrame (ty seq ack : Nat) (flit : List Byte) : List Byte :=
  let body := slice flit 0 37 ++ leBytes 1 seq ++ leBytes 1 ack ++ leBytes 1 ty
  body ++ leBytes 2 (crc16 body)

/-- The classes in the order in which a link looks for its next flit: after the one served last, so that none blocks
another (07 R203). -/
def Link.order (k : Link) : List Nat := (List.range 4).map (fun i => (k.lastCls + 1 + i) % 4)

/-- The waiting packet of a class that is next (07 R203): the first of the input that follows, round-robin, the one served
last. -/
def Link.nextPacket (k : Link) (c : Nat) : Option (Nat × List (List Byte)) :=
  let mine := k.queue.filter (fun e => flitClass (e.2.headD []) == c)
  let last := mapGet 0 k.turns c
  ((List.range 16).map (fun i => (last + 1 + i) % 16)).findSome? (fun i => mine.find? (fun e => e.1 == i))

/-- A link with its next flit taken out, by class. -/
def Link.takeFlit (k : Link) (c : Nat) : Option (List Byte × Link) :=
  match mapGet [] k.active c with
  | f :: rest => some (f, { k with active := mapSet [] k.active c rest, lastCls := c })
  | [] =>
    match k.nextPacket c with
    | some (i, f :: rest) =>
      some (f, { k with queue := k.queue.erase (i, f :: rest), active := mapSet [] k.active c rest,
                        turns := mapSet 0 k.turns c i, lastCls := c })
    | _ => none

/-- One flit sent, where the link is open and fewer than 64 frames are unacknowledged. -/
def State.linkSend (s : State) (i : Nat) : State :=
  let k := s.link i
  if !s.linkOpen i || 64 ≤ k.replay.length then s
  else match k.order.findSome? k.takeFlit with
    | none => s
    | some (f, k1) =>
      (s.setLink i { k1 with nextSeq := (k.nextSeq + 1) % 256, replay := k.replay ++ [(k.nextSeq, f)] }).emit
        (.d2d i (d2dFrame ltFlit k.nextSeq k.last f))

def State.linkPump (s : State) (i : Nat) : State := (List.range 64).foldl (fun s _ => s.linkSend i) s

/-- A packet handed to a link by an input of its router, in a class. -/
def State.linkPacket (s : State) (i inp cls : Nat) (flits : List (List Byte)) : State :=
  (s.setLink i { s.link i with queue := (s.link i).queue ++ [(inp, flits.map (inClass cls))] }).linkPump i

/-- The field in which a link's replays count. -/
def replayField (i : Nat) : Field := if isDrop i then CNET_REPLAY.COUNT else SEAM_REPLAY.COUNT.at (seamNo i)

/-- Every unacknowledged frame sent again, on a link that may send flit frames; the replay counts (07 R206). -/
def State.linkResend (s : State) (i : Nat) : State :=
  let k := s.link i
  if k.replay.isEmpty || !s.linkOpen i then s
  else (k.replay.foldl (fun s f => s.emit (.d2d i (d2dFrame ltFlit f.1 k.last f.2))) s).count (linkPage i) (replayField i) 1

/-- The packets of which flits lie in a list, class by class: one for each head, and one for a rest at the start. -/
def packetsIn (l : List (List Byte)) : Nat :=
  ((List.range 4).map (fun c =>
    let m := l.filter (fun f => flitClass f == c)
    let heads := (m.filter (fun f => flitKind f == 0 || flitKind f == 3)).length
    match m with
    | f :: _ => if flitKind f = 1 ∨ flitKind f = 2 then heads + 1 else heads
    | [] => 0)).sum

/-- The router at a link end. -/
def linkRouter (i : Nat) : Nat :=
  if isDrop i then
    if i % 2 = 1 then 144 * dropDie i + 6 * dropRow i + 3
    else
      let xy := dropRouter (dropDie i) (dropRow i)
      2048 + 8 * xy.2 + xy.1
  else
    let l := seamNo i
    let e := i % 2
    let xy := match seamDie i with
      | 0 => (3 + e, 4 + l)
      | 1 => (3 + e, l)
      | 2 => (l, 3 + e)
      | _ => (4 + l, 3 + e)
    2048 + 8 * xy.2 + xy.1

/-- The input of its router at which a link end delivers: the direction or port it lies in. -/
def linkInput (i : Nat) : Nat :=
  if isDrop i then (if i % 2 = 1 then dirDown else dirPort (dropRow i % 6))
  else match seamDie i with
    | 0 | 1 => if i % 2 = 0 then dirEast else dirWest
    | _ => if i % 2 = 0 then dirNorth else dirSouth

/-- A link end held down discards its replay buffer; each packet that has lost a flit, the rest of one under way included, is
dropped, counted and reported, with what its receiver holds of it (07 R208). Packets that wait whole are not lost: they wait at
the link (07 R212). -/
def State.linkLost (s : State) (i : Nat) : State :=
  let k := s.link i
  let n := packetsIn (k.replay.map (·.2) ++ k.active.flatMap (·.2))
  let s1 := (List.range n).foldl (fun s _ => s.report (linkPage i) .u 0x11 (linkSyndrome i) 0 0)
    (s.setLink i { k with replay := [], naks := 0, waiting := false, queue := [], active := [], rx := [] })
  { s1 with net := { s1.net with stalled := s1.net.stalled ++ k.queue.map (fun e => (linkRouter i, e.2)) } }

/-- `PAGE_STAT.DEGRADED` of a SEAM page: a link at half width or held down (07 R211). -/
def State.seamDegraded (s : State) (sm : Nat) : State :=
  s.putFlag (pgSeam sm) PAGE_STAT.DEGRADED ((List.range 4).any (fun l =>
    s.seamState sm l == smHeld || s.get (pgSeam sm) (SEAM_LINK.WIDTH.at l) == 1
      || s.get (pgSeam sm) (SEAM_LINK.WIDTH.at l) == 2))

/-- A drop is held down (07 R207, R208, R217). -/
def State.holdDrop (s : State) (n y : Nat) : State :=
  let p := pgCnet n
  let s1 := (s.put p CNET_DROP_DOWN.DOWN (s.get p CNET_DROP_DOWN.DOWN ||| 2 ^ y)).putFlag p PAGE_STAT.DEGRADED true
  (s1.linkLost (dropLink n y 0)).linkLost (dropLink n y 1)

/-- Both ends of the eight tracks of a seam link. -/
def seamEnds (sm l : Nat) : List Nat :=
  (List.range 8).flatMap (fun k => [seamLink sm l k 0, seamLink sm l k 1])

/-- Training frames go out on every track of a seam link, both ends (07 R210). -/
def State.sendTraining (s : State) (sm l : Nat) : State :=
  (seamEnds sm l).foldl (fun s i => s.emit (.d2d i (d2dFrame ltTraining 0 (s.link i).last []))) s

/-- A seam link goes to EXCHANGE (07 R210): flit frames stop, the replay buffers stay, training frames go out. -/
def State.seamTrain (s : State) (sm l : Nat) : State :=
  ((((s.put (pgSeam sm) (SEAM_LINK.STATE.at l) smExchange).put (pgSeam sm) (SEAM_LINK.ATTEMPTS.at l) 0).count (pgSeam sm)
    (SEAM_LINK.RETRAINS.at l) 1).seamDegraded sm).sendTraining sm l

/-- A retrain event that a link itself finds (07 R210): it acts on a link that is UP. -/
def State.seamRetrain (s : State) (sm l : Nat) : State := if s.seamState sm l = smUp then s.seamTrain sm l else s

/-- An attempt of a seam link fails; the third holds it down (07 R208, R210). -/
def State.seamFail (s : State) (sm l : Nat) : State :=
  let p := pgSeam sm
  let n := s.get p (SEAM_LINK.ATTEMPTS.at l) + 1
  let s1 := s.put p (SEAM_LINK.ATTEMPTS.at l) n
  if n < 3 then (s1.put p (SEAM_LINK.STATE.at l) smExchange).sendTraining sm l
  else ((seamEnds sm l).foldl (fun s i => s.linkLost i) (s1.put p (SEAM_LINK.STATE.at l) smHeld)).seamDegraded sm

/-- A link retrains after 8 NAKs of one number. How a drop comes out of its training in service is not stated: a free
value decides between the two outcomes the manual gives, resending or being held down (assumption log 17). -/
def State.linkRetrain (s : State) (i : Nat) : State :=
  if isDrop i then
    let f := s.free
    if f.1.getLsbD 0 then f.2.linkResend i else f.2.holdDrop (dropDie i) (dropRow i)
  else s.seamRetrain (seamDie i) (seamNo i)

/-- The frames that an `ACK` covers leave the replay buffer. -/
def State.linkAck (s : State) (i ack : Nat) : State :=
  let k := s.link i
  match k.replay.findIdx? (fun f => f.1 == ack) with
  | some j => (s.setLink i { k with replay := k.replay.drop (j + 1), naks := 0 }).linkPump i
  | none => s

/-- A NAK received (07 R206). -/
def State.linkNak (s : State) (i ack : Nat) : State :=
  let s1 := s.linkAck i ack
  let k := s1.link i
  let seq := (ack + 1) % 256
  let n := if 0 < k.naks ∧ k.nakSeq = seq then k.naks + 1 else 1
  if 8 ≤ n then (s1.setLink i { k with nakSeq := seq, naks := 0 }).linkRetrain i
  else (s1.setLink i { k with nakSeq := seq, naks := n }).linkResend i

/-- A NAK sent. -/
def State.sendNak (s : State) (i : Nat) : State := s.emit (.d2d i (d2dFrame ltNak 0 (s.link i).last []))

/-! ## Routing a packet (07 R200, R215) -/

/-- The packet with which a router answers a dropped request (07 R215, 14 R397). -/
def statusPacket (d : List Byte) : List (List Byte) :=
  [headFlit clsResponse (hdSrc d) (hdDst d) 0x1F 0 (hdTag d) stDestDown]

/-- The position of a base router. -/
def routerXY (r : Nat) : Nat × Nat := ((r - 2048) % 8, (r - 2048) / 8)

/-- The input that stands for a router itself. -/
def inpSelf : Nat := 15

/-- Flits leave a router in a direction and a class; on a base link they use the track of their source (07 R191). -/
def State.hop (s : State) (r dir cls src : Nat) (flits : List (List Byte)) : State :=
  s.emit (.hop r dir cls (if 2048 ≤ r ∧ dir < 4 then src % 8 else 0) (flits.map (inClass cls)))

/-- A packet waits at a router. -/
def State.stall (s : State) (r : Nat) (flits : List (List Byte)) : State :=
  { s with net := { s.net with stalled := s.net.stalled ++ [(r, flits)] } }

/-- The domain that the delivery of a packet to a tile needs (14 R397, R399): the rows of a slice, or the tile; register
packets need none (02 R32). -/
def State.tileDomain (s : State) (t : Nat) (d : List Byte) : Option Domain :=
  let ty := hdType d
  if ty = 9 ∨ ty = 0x0A ∨ ty = 0x0B then none
  else if (ty = 1 ∨ ty = 2 ∨ ty = 7) ∧ isNear (hdAddr d) then s.domainAt (hdAddr d)
  else if h : t < 1728 then some (.tile ⟨t, h⟩) else none

/-- Directions in which a tile router of Cn at (x, y) sends a broadcast on (16 R437): at the foot of a drop, to every row
that the drop serves. -/
def State.castTile (s : State) (n x y : Nat) : List Nat :=
  if x < 3 then (if x = 0 then [dirTile] else [dirWest, dirTile])
  else if 3 < x then (if x = 5 then [dirTile] else [dirEast, dirTile])
  else
    let rows := (List.range 24).filter (fun w => decide (min w (s.dropFor n w) ≤ y) && decide (y ≤ max w (s.dropFor n w)))
    (rows.flatMap (fun w =>
      if w = y then [dirWest, dirEast, dirTile]
      else if y < w ∧ s.dropFor n w ≤ y then [dirNorth]
      else if w < y ∧ y ≤ s.dropFor n w then [dirSouth]
      else [])).eraseDups

/-- The base routers that a route from (x, y) visits, with the direction taken at each. -/
def State.basePath (s : State) : Nat → Nat → Nat → Nat → Nat → Nat → List (Nat × Nat × Nat)
  | 0, _, _, _, _, _ => []
  | k + 1, x, y, tx, ty, port =>
    match s.baseRoute x y tx ty port with
    | .stuck => []
    | .go dir _ | .cross _ _ dir =>
      let next := if dir = dirWest then (x - 1, y) else if dir = dirEast then (x + 1, y)
        else if dir = dirSouth then (x, y - 1) else (x, y + 1)
      (x, y, dir) :: (if 8 ≤ dir then [] else State.basePath s k next.1 next.2 tx ty port)

/-- Directions in which a base router sends a broadcast on (16 R437): those that some route from the bring-up logic to a
drop of a named die takes there. -/
def State.castBase (s : State) (x y dies : Nat) : List Nat :=
  let drops := (List.range 12).filter (bit dies) |>.flatMap (fun n =>
    ((List.range 24).map (s.dropFor n)).eraseDups.map (fun w => (dropRouter n w, w % 6)))
  (drops.flatMap (fun e => (s.basePath 32 3 7 e.1.1 e.1.2 e.2).filterMap (fun p =>
    if p.1 = x ∧ p.2.1 = y then some p.2.2 else none))).eraseDups

/-- A packet dropped at a router for its head (07 R200). -/
def State.dropHead (s : State) (r reason : Nat) : State :=
  if r < 2048 then (s.report (pgCnet (r / 144)) .u 0x12 reason 0 0).count (pgCnet (r / 144)) CNET_HDR_DROP.COUNT 1
  else
    let p := pgBnet (dieOfXY (routerXY r).1 (routerXY r).2)
    (s.report p .u 0x12 reason 0 0).count p BNET_HDR_DROP.COUNT 1

/-- The destination of a head: its node, or the one that the broadcast stands for. -/
def broadcast (loading : Bool) (d : List Byte) : Bool :=
  loading && hdDst d == 0xFFFF && (hdType d == 0x18 || hdType d == 0x19)

/-- A packet goes on from a tile router; down a drop it crosses a link. -/
def State.leaveTile (s : State) (r inp src : Nat) (flits : List (List Byte)) (cls dir : Nat) (detour : Bool) : State :=
  let c := if detour then clsDetour else cls
  let s1 := s.hop r dir c src flits
  if dir = dirDown then s1.linkPacket (dropLink (r / 144) (r % 144 / 6) 1) inp c flits else s1

/-- A packet leaves a tile router. One for a domain that refuses is answered, if it is a request, on the way of R201; one for
a domain that is not on is held (14 R397, R399). -/
def State.routeTile (s : State) (r inp : Nat) (d : List Byte) (flits : List (List Byte)) (cls dir : Nat) (detour : Bool) :
    State :=
  match (if dir = dirTile then s.tileDomain r d else none) with
  | none => s.leaveTile r inp (hdSrc d) flits cls dir detour
  | some dom =>
    if s.domRefuses dom then
      if cls = clsRequest then
        let o := s.tileRoute (r / 144) (r % 6) (r % 144 / 6) (tileNode r) (hdSrc d)
        s.leaveTile r inpSelf (tileNode r) (statusPacket d) clsResponse o.1 o.2
      else s
    else if s.domState dom ≠ 0 then { s with net := { s.net with parked := s.net.parked ++ [(dom, r, flits)] } }
    else s.leaveTile r inp (hdSrc d) flits cls dir detour

/-- The way out of a base router for a destination. -/
def State.wayTo (s : State) (x y dst : Nat) : Way :=
  match nodeOf dst with
  | .tile n p =>
    let w := s.dropFor n (p / 6)
    let t := dropRouter n w
    s.baseRoute x y t.1 t.2 (w % 6)
  | .base tx ty port => s.baseRoute x y tx ty port
  | .group _ => .go dirTile false
  | .bad => .stuck

/-- The drop at a port of a base router. -/
def dropAt (r port : Nat) : Option (Nat × Nat) :=
  match attachedAt (routerXY r).1 (routerXY r).2 port with
  | some (.drop n y) => some (n, y)
  | _ => none

/-- A packet that may not go down a drop of Cn counts there while the die is in partition reset (07 R215). -/
def State.countDownDrop (s : State) (n : Nat) : State :=
  if s.prst n = prstUp then s else s.count (pgCdie n) CDIE_DD_CNT.COUNT 1

/-- A packet leaves a base router by one of its ports: a drop, closed while its die is in partition reset (07 R215) or
held down; a fabric port (11 R322); another endpoint. -/
def State.leavePort (s : State) (r inp src : Nat) (flits : List (List Byte)) (cls port : Nat) : State :=
  let s1 := s.hop r (dirPort port) cls src flits
  match attachedAt (routerXY r).1 (routerXY r).2 port with
  | some (.drop n y) =>
    if s.dieDown n then s.countDownDrop n
    else if s.dropHeld n y then s.stall r flits
    else s1.linkPacket (dropLink n y 0) inp cls flits
  | some (.fabric i) => s1.sendFabric i (flits.map flitWord)
  | _ => s1

/-- A packet leaves a base router. A link held down that the route tables still use makes it wait there (07 R212). -/
def State.leaveBase (s : State) (r inp src : Nat) (flits : List (List Byte)) (cls : Nat) (w : Way) : State :=
  match w with
  | .stuck => s.stall r flits
  | .go dir detour =>
    if 8 ≤ dir then s.leavePort r inp src flits cls (dir - 8)
    else s.hop r dir (if detour then clsDetour else cls) src flits
  | .cross sm l dir =>
    if s.seamState sm l = smHeld then s.stall r flits
    else (s.hop r dir cls src flits).linkPacket
      (seamLink sm l (src % 8) (if dir = dirEast ∨ dir = dirNorth then 0 else 1)) inp cls flits

/-- The packet that answers a request which a drop has turned away sets out from the base router (07 R215). -/
def State.answerDown (s : State) (r : Nat) (d : List Byte) : State :=
  s.leaveBase r inpSelf (hdDst d) (statusPacket d) clsResponse (s.wayTo (routerXY r).1 (routerXY r).2 (hdSrc d))

/-- A packet routed at a base router: a request for a die that is down is counted and answered. -/
def State.routeBase (s : State) (r inp : Nat) (d : List Byte) (flits : List (List Byte)) (cls : Nat) (w : Way) : State :=
  let down : Option Nat := match w with
    | .go dir _ => if 8 ≤ dir then (dropAt r (dir - 8)).bind (fun e => if s.dieDown e.1 then some e.1 else none) else none
    | _ => none
  match down with
  | some n => if cls = clsRequest then (s.countDownDrop n).answerDown r d else s.countDownDrop n
  | none => s.leaveBase r inp (hdSrc d) flits cls w

/-- Whether a load of the tile image runs. -/
def State.loading (s : State) : Bool := s.boot.load.isSome

/-- A router decodes a head flit and forwards the packet that came by an input, or drops it (07 R200). The head goes on
corrected; data flits go on unchanged. -/
def State.routePacket (s : State) (r inp : Nat) (head : List Byte) (body : List (List Byte)) : State :=
  let e := decodeSector (flitWord head)
  let d := e.2
  if e.1.damaged then s.dropHead r 0
  else match typeClass s.loading (hdType d) with
    | none => s.dropHead r 1
    | some cls =>
      let flits := (codeWord d ++ head.drop 36) :: body
      if broadcast s.loading d then
        let dirs := if r < 2048 then (if bit (hdDies d) (r / 144) then s.castTile (r / 144) (r % 6) (r % 144 / 6) else [])
          else s.castBase (routerXY r).1 (routerXY r).2 (hdDies d)
        dirs.foldl (fun s dir =>
          if r < 2048 then s.routeTile r inp d flits cls dir false
          else
            let xy := routerXY r
            let w := if dir = dirEast ∧ xy.1 = 3 ∨ dir = dirWest ∧ xy.1 = 4 then Way.cross (seamOfRow xy.2) (xy.2 % 4) dir
              else if dir = dirNorth ∧ xy.2 = 3 ∨ dir = dirSouth ∧ xy.2 = 4 then .cross (seamOfCol xy.1) (xy.1 % 4) dir
              else .go dir false
            s.routeBase r inp d flits cls w) s
      else if !s.nodePresent (nodeOf (hdDst d)) || !s.nodePresent (nodeOf (hdSrc d)) then s.dropHead r 2
      else if r < 2048 then
        let o := s.tileRoute (r / 144) (r % 6) (r % 144 / 6) (hdSrc d) (hdDst d)
        s.routeTile r inp d flits cls o.1 o.2
      else s.routeBase r inp d flits cls (s.wayTo (routerXY r).1 (routerXY r).2 (hdDst d))

/-- Whether a packet ends where its head says (07 R198): it has `LEN` data flits. A head that cannot be read says nothing. -/
def lenFits (head : List Byte) (body : List (List Byte)) : Bool :=
  let e := decodeSector (flitWord head)
  e.1.damaged || hdLen e.2 == body.length

def routerNumber : RouterRef → Nat
  | .tile n x y => 144 * n.val + 6 * y.val + x.val
  | .base x y => 2048 + 8 * y.val + x.val

/-- Packets that were held go through their router again. -/
def State.rerun (s : State) (l : List (Nat × List (List Byte))) : State :=
  l.foldl (fun s e => s.routePacket e.1 inpSelf (e.2.headD []) e.2.tail) s

/-- Every packet that waits at a held-down link tries again, in order: a link has come up. -/
def State.rerunStalled (s : State) : State :=
  { s with net := { s.net with stalled := [] } }.rerun s.net.stalled

/-- The base die of a router: that under its compute die for a tile router. -/
def routerBase (r : Nat) : Nat := if r < 2048 then r / 144 / 3 else dieOfXY (routerXY r).1 (routerXY r).2

/-! ## Frames received (07 R204, R206) -/

/-- A flit accepted at a link end joins the packet that it belongs to; with its tail the packet goes on through the router
there (07 R204). A flit without a head is the rest of a packet that was dropped. -/
def State.linkTake (s : State) (i owner : Nat) (f : List Byte) : State :=
  let k := s.link i
  let key := if isDrop i && i % 2 == 0 then owner else flitClass f
  let begins := flitKind f = 0 ∨ flitKind f = 3
  let got := if begins then [f] else mapGet [] k.rx key ++ [f]
  if !begins && (mapGet [] k.rx key).isEmpty then s
  else if flitKind f = 2 ∨ flitKind f = 3 then
    (s.setLink i { k with rx := mapSet [] k.rx key [] }).routePacket (linkRouter i) (linkInput i) (got.headD []) got.tail
  else s.setLink i { k with rx := mapSet [] k.rx key got }

/-- A link frame received (07 R206): a bad CRC counts and draws a NAK; `ACK` is taken; a flit frame with the expected
number is accepted while the other end may send flits, any other is discarded; a training frame on a seam link that is UP
retrains it (07 R211). `owner` owns the slot of an upward frame of a drop. -/
def State.linkFrame (s : State) (i owner : Nat) (f : List Byte) : State :=
  if leBytes 2 (crc16 (f.take 40)) ≠ slice f 40 2 then
    let s1 := s.report (linkPage i) .c 0x10 (linkSyndrome i) 0 0
    (s1.setLink i { s1.link i with waiting := true }).sendNak i
  else
    let ty := field f 39 1 % 16
    let ack := field f 38 1
    if ty = ltNak then s.linkNak i ack
    else if ty = ltTraining then (if isDrop i then s else s.seamRetrain (seamDie i) (seamNo i))
    else if ty = ltFlit then
      let s1 := s.linkAck i ack
      let k := s1.link i
      let seq := field f 37 1
      if seq = (k.last + 1) % 256 && s.linkOpen (i + 1 - 2 * (i % 2)) then
        (s1.setLink i { k with last := seq, waiting := false }).linkTake i owner (f.take 37)
      else s1
    else if ty = ltIdle then s.linkAck i ack
    else s

/-- The seam links held down, as a mask. -/
def State.heldMask (s : State) : Nat :=
  ((List.range 16).filter (fun i => s.seamState (i / 4) (i % 4) == smHeld)).foldl (fun m i => m + 2 ^ i) 0

/-- Management firmware rewrites the route tables of a base die (07 R212). -/
def State.rewriteRoutes (s : State) (b : Nat) : State :=
  if s.boot.fw ≠ 2 then s
  else
    let mask := s.heldMask
    let drops := (List.range 3).any (fun u => s.get (pgCnet (3 * b + u)) CNET_DROP_DOWN.DOWN != 0)
    let s1 := ((s.wrapCount (pgBnet b) BNET_RT_STAT.GEN 1).putFlag (pgBnet b) BNET_RT_STAT.DETOUR (mask != 0 || drops))
    let here (e : Nat × List (List Byte)) : Bool := routerBase e.1 == b
    let s2 := { s1 with net := { s1.net with
      known := mapSet 0 s1.net.known b mask, stalled := s1.net.stalled.filter (fun e => !here e) } }
    s2.rerun (s1.net.stalled.filter here)

/-- A packet that waited too long at a held-down link of a base die is dropped (07 R212). -/
def State.dropStalled (s : State) (b : Nat) : State :=
  let here (e : Nat × List (List Byte)) : Bool := routerBase e.1 == b
  if s.net.stalled.any here then
    ({ s with net := { s.net with stalled := s.net.stalled.eraseP here } }.report (pgBnet b) .u 0x14 0 0 0).count (pgBnet b)
      BNET_STALL_DROP.COUNT 1
  else s

/-! ## Seam training (07 R209 to R211) -/

/-- The narrower of two proposals, coded as widths are: 0 NONE. -/
def narrower (p0 p1 : Nat) : Nat := if p0 = 3 then p1 else if p1 = 3 ∨ p0 = p1 then p0 else 0

/-- Whether READY has been declared. -/
def State.isReady (s : State) : Bool := s.flag pgBoot BOOT_STAT.READY

def State.seamProposals (s : State) (sm l p0 p1 : Nat) : State :=
  let p := pgSeam sm
  if s.seamState sm l ≠ smExchange then s
  else
    let s1 := (s.put p (SEAM_LINK.P0.at l) p0).put p (SEAM_LINK.P1.at l) p1
    let w := narrower p0 p1
    if w = 0 then s1.seamFail sm l
    else
      let s2 := ((s1.put p (SEAM_LINK.WIDTH.at l) w).put p (SEAM_LINK.STATE.at l) smTest).seamDegraded sm
      if w ≠ s.get p (SEAM_LINK.WIDTH.at l) ∧ s.isReady then s2.report p .u 0x13 (l * 256 + w * 16) 0 0 else s2

def State.seamTested (s : State) (sm l : Nat) : State :=
  let p := pgSeam sm
  if s.seamState sm l ≠ smTest then s
  else
    let s1 := (s.put p (SEAM_LINK.STATE.at l) smUp).put p (SEAM_LINK.ATTEMPTS.at l) 0
    ((seamEnds sm l).foldl (fun s i => s.linkResend i) s1).rerunStalled

def State.seamTimeout (s : State) (sm l : Nat) : State :=
  if s.seamState sm l = smExchange ∨ s.seamState sm l = smTest then s.seamFail sm l else s

def State.seamRetrains (s : State) (sm mask : Nat) : State :=
  (List.range 4).foldl (fun s l =>
    if bit mask l && (s.seamState sm l == smUp || s.seamState sm l == smHeld) then s.seamTrain sm l else s) s

/-! ## Partition reset (07 R214 to R217) -/

/-- What a tile loses with its supply (14 R392): everything in its domain; SRAM comes back zero-filled. A fence stays (07
R217), `TILE_BOOT_STAT.DONE` does not (16 R441); writes and messages that a reset has left behind go on (07 R216), and so do
taint notices on their way (13 R372). -/
def State.tileLost (s : State) (t : Nat) : State :=
  let p := pgTile t
  let run := if s.tileRun t = runFenced then runFenced else runIdle
  let u := s.tile t
  let s1 := s.setTile t { Tile.init with nextId := u.nextId,
                                         xfers := u.xfers.filter (fun x => x.sent.isSome && x.inject == 0),
                                         outEnded := u.outEnded,
                                           taintWait := u.taintWait }
  let s2 := match s.logicalOf t with
    | some l => s1.zeroRange (sramBase l) sramSize
    | none => s1
  ((((s2.put p TILE_STAT.RUN run).put p TILE_STAT.CAUSE 0).put p TILE_PC.PC 0).setArr t rampOff 0).put p
    TILE_BOOT_STAT.DONE 0

/-- Whether a tile position may ever be on (14 R391). -/
def State.tilePowered (s : State) (t : Nat) : Bool := s.tileServes t

/-- The field of a layer quarter. -/
def quarterField (n m q : Nat) : Field := (PWR_NMQ_STAT.Q.at (n % 3)).sub (4 * m + q)

def State.setQuarters (s : State) (n v : Nat) : State :=
  (List.range 16).foldl (fun s i => s.put (pgPwr (n / 3)) (quarterField n (i / 4) (i % 4)) v) s

/-- Whether a domain belongs to compute die n. -/
def domOnDie (n : Nat) : Domain → Bool
  | .tile t => t.val / 144 == n
  | .quarter k _ _ => k.val == n
  | _ => false

/-- The packets in a list of flits that end there, as lists of flits. -/
def gatherPackets (l : List (List Byte)) : List (List (List Byte)) :=
  (l.foldl (fun (m : List (List (List Byte)) × List (List Byte)) f =>
    let p := if flitKind f = 0 ∨ flitKind f = 3 then [f] else m.2 ++ [f]
    if flitKind f = 2 ∨ flitKind f = 3 then (m.1 ++ [p], []) else (m.1, p)) ([], [])).1

/-- A packet that waits at the base end of a drop as it closes downward, or that lies unacknowledged there as the die stops:
counted, and a request answered (07 R215). -/
def State.turnBack (s : State) (n r : Nat) (flits : List (List Byte)) : State :=
  let d := (decodeSector (flitWord (flits.headD []))).2
  if flitClass (flits.headD []) = clsRequest then (s.countDownDrop n).answerDown r d else s.countDownDrop n

/-- The drops close downward (07 R214); ignored before READY or halt (16 R448). What waits to go down arrives too late (07
R215). -/
def State.prstBegin (s : State) (n : Nat) : State :=
  if s.prst n = prstUp ∧ (s.isReady || s.flag pgBoot BOOT_STAT.HALT) then
    (List.range 24).foldl (fun s y =>
      let i := dropLink n y 0
      let q := (s.link i).queue
      q.foldl (fun s e => s.turnBack n (linkRouter i) e.2) (s.setLink i { s.link i with queue := [] }))
      (s.put (pgCdie n) CDIE_PRST_STAT.STATE prstDrain)
  else s

/-- Writes and messages of a tile of Cn that have left the die, for targets outside it (07 R216). -/
def State.leftDie (s : State) (t : Nat) : List Xfer :=
  (s.sentOff t).filter (fun x =>
    if x.kind = .nsnd then !(x.target / 2 ^ 21 < 0x600 && x.target / 2 ^ 21 / 128 == t / 144) else offDie t x.target)

/-- The runtime accesses that the die of Cn has not answered fail with it (07 R215). -/
def State.accsDown (s : State) (n : Nat) : State :=
  let here (a : Nat) : Bool := (s.tileAt a).any (fun t => t / 144 == n)
  { s with bridge := { s.bridge with accs := s.bridge.accs.map (fun x =>
    if x.status == stOk && (x.todo.any here || x.up.any (fun e => e.1 / 144 == n)) then x.fail stDestDown else x) } }

/-- The die end of a drop as the die stops, and what of its base end it leaves: partly assembled upward packets go, and
downward packets that the die has not acknowledged are turned back (07 R214, R215). -/
def State.cutDrop (s : State) (n y : Nat) : State :=
  let i := dropLink n y 0
  let k := s.link i
  let lost := (List.range 4).flatMap (fun c =>
    gatherPackets ((k.replay.map (·.2) ++ mapGet [] k.active c).filter (fun f => flitClass f == c)))
  let s1 := (s.setLink i { k with replay := [], active := [], rx := [], waiting := false }).setLink (dropLink n y 1) Link.init
  lost.foldl (fun s f => s.turnBack n (linkRouter i) f) s1

/-- The die enters RESET (07 R214, R217, 14 R403): tiles and engine queues lose their state, every tile is off and every
layer quarter in retention. Commands that a row engine of the die still held complete with DEST_DOWN (05 R145); requests
that have left the die are carried to completion (07 R216). -/
def State.prstDrained (s : State) (n : Nat) : State :=
  if s.prst n ≠ prstDrain then s
  else
    let s0 := s.put (pgCdie n) CDIE_PRST_STAT.STATE prstReset
    let s1 := (List.range 16).foldl (fun s i =>
      let e := 16 * n + i
      let id := enginePort e
      let waiting := ((s.resAt id).openQ.map (·.2))
      let s := s.setRes id { s.resAt id with openQ := [] }
      waiting.foldl (fun s c => s.rowReply c stDestDown) (s.rowCut e stDestDown)) s0
    let s2 := (List.range 144).foldl (fun s p =>
      let t := 144 * n + p
      let gone := s.leftDie t
      ((s.modTile t (fun u => { u with xfers := gone })).tileLost t).put (pgTile t) PAGE_PWR.STATE 2) s1
    let s3 := s2.setQuarters n 1
    let s4 := ((List.range 24).foldl (fun s y => s.cutDrop n y) s3).accsDown n
    { s4 with
      moves := s4.moves.filter (fun m => !domOnDie n m.dom)
      net := { s4.net with parked := s4.net.parked.filter (fun e => e.2.1 / 144 != n),
                           stalled := s4.net.stalled.filter (fun e => e.1 / 144 != n) }
      res := mapUpd Res.init s4.res (fun id r =>
        if resSlot id = 0x10 + n ∧ resKind id = kindNMBG then { r with rows := [] } else r) }

/-- A page back at its package-reset state, except what only a package reset clears: the lock and READY (02 R41, R42). -/
def State.pageReset (s : State) (p : PageRef) : State :=
  ((s.clearPage p).put p PAGE_CTRL.LOCK (s.get p PAGE_CTRL.LOCK)).put p PAGE_STAT.READY (s.get p PAGE_STAT.READY)

/-- `RELEASE` (07 R214, R217, 14 R403): the drops train, and number their frames afresh. -/
def State.prstFree (s : State) (n : Nat) : State :=
  if s.prst n ≠ prstReset ∨ !(s.isReady || s.flag pgBoot BOOT_STAT.HALT) then s
  else
    let s1 := (List.range 144).foldl (fun s p =>
      let t := 144 * n + p
      if s.tilePowered t && s.get (pgTile t) PAGE_PWR.REQ != 2 then s.put (pgTile t) PAGE_PWR.STATE 0 else s)
      (s.put (pgCdie n) CDIE_PRST_STAT.STATE prstReleasing)
    let s2 := ((s1.setQuarters n 0).pageReset (pgArb (4 + n))).resetArb (4 + n)
    (List.range 24).foldl (fun s y => s.setLink (dropLink n y 0) Link.init) s2

/-- Fill and training complete (07 R214, R217). -/
def State.prstFreed (s : State) (n failed : Nat) : State :=
  if s.prst n ≠ prstReleasing then s
  else
    let s1 := (s.put (pgCnet n) CNET_DROP_DOWN.DOWN failed).putFlag (pgCnet n) PAGE_STAT.DEGRADED (failed != 0)
    ((s1.put (pgCdie n) CDIE_PRST_STAT.STATE prstUp).count (pgCdie n) CDIE_PRST_STAT.COUNT 1).rerunStalled

/-! ## Messages (07 R195, R215) -/

/-- Whether no earlier message of a tile to the same destination is still on its way (07 R202). -/
def Tile.firstFor (u : Tile) (x : Xfer) : Bool :=
  u.xfers.all (fun y => y.kind != .nsnd || !y.waits || y.target / 2 ^ 21 != x.target / 2 ^ 21 || x.id ≤ y.id)

/-- `NSND_DELIVER`: the message is written to the destination's SRAM and the transfer completes; a die that has gone into
partition reset answers DEST_DOWN, as does a tile that its host holds off (14 R397). -/
def State.deliver (s : State) (t k : Nat) : State :=
  match (s.tile t).nth k with
  | none => s
  | some x =>
    let code := x.target / 2 ^ 21
    if x.kind ≠ .nsnd ∨ !x.waits ∨ 0 < x.inject ∨ 0x600 ≤ code ∨ !(s.tile t).firstFor x then s
    else
      let a := sramBase code + x.target % 2 ^ 21
      let n := 32 * x.sectors
      if s.dieDown (code / 128) || s.rangeRefused a n then (s.downDrop a n).modTile t (fun u => u.retire x stDestDown)
      else if s.asleep a n then s
      else
        let g := s.gather t x
        (g.1.storeWords a g.2.1).modTile t (fun u => u.retire { x with ue := x.ue || g.2.2 } stOk)

/-! ## The meanings of the commands -/

/-- `FLIT_HEAD_ROUTE` (07 R200). -/
def execFlitHeadRoute (r : RouterInput) (head : List Byte) (body : List (List Byte)) (s : State) :
    Host.Outcome State Fault Refusal :=
  if (Instr.flitHeadRoute r head body).wellFormed && lenFits head body then
    .next (s.routePacket (routerNumber r.router) r.input head body)
  else .fault .illFormed

/-- `NSND_DELIVER` (07 R195). -/
def execNsndDeliver (t : TileId) (k : Fin 16) (s : State) : Host.Outcome State Fault Refusal := .next (s.deliver t k)

/-- `D2D_FRAME_RECEIVE` (07 R206). -/
def execD2dFrameReceive (l : LinkEnd) (frame : LinkFrame) (s : State) : Host.Outcome State Fault Refusal :=
  if (Instr.d2dFrameReceive l frame).wellFormed then .next (s.linkFrame (linkNumber l) frame.owner.toNat frame.bytes)
  else .fault .illFormed

/-- `D2D_NAK_RECEIVE` (07 R206). -/
def execD2dNakReceive (l : LinkEnd) (ack : Byte) (s : State) : Host.Outcome State Fault Refusal :=
  .next (s.linkNak (linkNumber l) ack.toNat)

/-- `D2D_NAK_REPEAT` (07 R206). -/
def execD2dNakRepeat (l : LinkEnd) (s : State) : Host.Outcome State Fault Refusal :=
  .next (if (s.link (linkNumber l)).waiting then s.sendNak (linkNumber l) else s)

/-- `SEAM_RETRAIN` (07 R210). -/
def execSeamRetrain (sm : Seam) (mask : BitVec 4) (s : State) : Host.Outcome State Fault Refusal :=
  .next (s.seamRetrains sm mask.toNat)

/-- `TRAINING_FRAME_RECEIVE` (07 R211). -/
def execTrainingFrameReceive (sm : Seam) (l : Fin 4) (s : State) : Host.Outcome State Fault Refusal :=
  .next (s.seamRetrain sm l)

/-- `SEAM_PROPOSALS_KNOWN` (07 R209). -/
def execSeamProposalsKnown (sm : Seam) (l : Fin 4) (p0 p1 : BitVec 2) (s : State) : Host.Outcome State Fault Refusal :=
  .next (s.seamProposals sm l p0.toNat p1.toNat)

/-- `SEAM_TEST_DONE` (07 R210). -/
def execSeamTestDone (sm : Seam) (l : Fin 4) (s : State) : Host.Outcome State Fault Refusal := .next (s.seamTested sm l)

/-- `SEAM_ATTEMPT_TIMEOUT` (07 R210). -/
def execSeamAttemptTimeout (sm : Seam) (l : Fin 4) (s : State) : Host.Outcome State Fault Refusal :=
  .next (s.seamTimeout sm l)

/-- `ROUTE_TABLE_REWRITE` (07 R212). -/
def execRouteTableRewrite (b : Base) (s : State) : Host.Outcome State Fault Refusal := .next (s.rewriteRoutes b)

/-- `STALL_DROP` (07 R212). -/
def execStallDrop (b : Base) (s : State) : Host.Outcome State Fault Refusal := .next (s.dropStalled b)

/-- `PRST_RELEASE` (07 R214). -/
def execPrstRelease (n : Die) (s : State) : Host.Outcome State Fault Refusal := .next (s.prstFree n)

/-- `PRST_RELEASING_DONE` (07 R214). -/
def execPrstReleasingDone (n : Die) (failedDrops : BitVec 24) (s : State) : Host.Outcome State Fault Refusal :=
  .next (s.prstFreed n failedDrops.toNat)

end Sys2Proof.Machine
end

