-- ==== Sys2Proof/Machine/Reductions.lean ====
section
/-! DEFINITION. In-network reduction: group tables (07 R218, R219, 11 R331, R332), the fold (07 R221), rounds (07 R220,
R222) and the stages of rounds that span packages (11 R328, R329, R333 to R338). -/

namespace Sys2Proof.Machine

/-! ## Rings (11 R328, R329) -/

/-- A ring word that names a ring: ring, N - 1, position. -/
def ringOfWord (w : Nat) : Option (Nat × Nat × Nat) :=
  let nm1 := bits w 15 8
  let pos := bits w 7 0
  if bit w 31 && nm1 != 0 && pos ≤ nm1 then some (bits w 18 16, nm1, pos) else none

/-- A fabric port's `FPRT_RING_N` (`prev` false) or `FPRT_RING_P` as a word. -/
def State.ringWord (s : State) (i : Nat) (prev : Bool) : Nat :=
  let p := pgFprt i
  if prev then
    2 ^ 31 * s.get p FPRT_RING_P.VALID + 2 ^ 16 * s.get p FPRT_RING_P.RING + 2 ^ 8 * s.get p FPRT_RING_P.NM1
      + s.get p FPRT_RING_P.POS
  else
    2 ^ 31 * s.get p FPRT_RING_N.VALID + 2 ^ 16 * s.get p FPRT_RING_N.RING + 2 ^ 8 * s.get p FPRT_RING_N.NM1
      + s.get p FPRT_RING_N.POS

/-- The licensed ports that name a ring. -/
def State.ringPorts (s : State) (prev : Bool) (r : Nat) : List Nat :=
  (List.range 12).filter (fun i => !s.flag (pgFprt i) PAGE_CAPS.LIC_OFF
    && (match ringOfWord (s.ringWord i prev) with | some (q, _, _) => q == r | none => false))

/-- A configured ring: its NEXT port, its PREV port, N - 1 and this package's position. -/
structure RingAt where
  next : Nat
  prev : Nat
  nm1 : Nat
  pos : Nat
  deriving DecidableEq, Repr

def State.ring (s : State) (r : Nat) : Option RingAt :=
  match s.ringPorts false r, s.ringPorts true r with
  | [i], [j] =>
    match ringOfWord (s.ringWord i false), ringOfWord (s.ringWord j true) with
    | some (_, n, p), some (_, m, q) => if n = m ∧ p = q then some { next := i, prev := j, nm1 := n, pos := p } else none
    | _, _ => none
  | _, _ => none

/-- Whether a ring is usable. -/
def State.ringUsable (s : State) (r : Nat) : Bool :=
  match s.ring r with
  | none => false
  | some a =>
    let n := a.nm1 + 1
    s.portOpen a.next && s.portOpen a.prev
      && ringOfWord (s.get (pgFprt a.next) FPRT_NBR_RING_P.RING) == some (r, a.nm1, (a.pos + 1) % n)
      && ringOfWord (s.get (pgFprt a.prev) FPRT_NBR_RING_N.RING) == some (r, a.nm1, (a.pos + n - 1) % n)

/-- `FPRT_STAT.R_OK_N` and `R_OK_P`. -/
def State.ringOk (s : State) (i : Nat) (prev : Bool) : Bool :=
  match ringOfWord (s.ringWord i prev) with
  | some (r, _, _) => s.ringUsable r
  | none => false

/-! ## Group tables (07 R218, R219, 11 R331, R332) -/

/-- Stages of a group that spans packages, and the ring of a stage. -/
def Group.stages (g : Group) : Nat := bits g.xpkg 14 13 + 1
def Group.ringOf (g : Group) (st : Nat) : Nat := g.xpkg / 8 ^ st % 8

/-- A descriptor from its 256 bytes. -/
def groupOfBytes (d : List Byte) : Group :=
  { kind := bits (field d 0 1) 5 4, op := field d 0 1 % 16, xpkg := field d 2 2, root := field d 4 2,
    len := field d 6 2 % 1024, addr := field d 8 4 % 2 ^ 21,
    members := (List.range 1536).filter (fun t => bit (field d (64 + t / 8) 1) (t % 8)) }

/-- The reasons for which a valid descriptor fails the load. -/
def State.groupErrors (s : State) (d : List Byte) : List Nat :=
  let g := groupOfBytes d
  let e2 := 6 ≤ g.op || 2 ≤ g.kind || bit (field d 0 1) 6 || field d 1 1 != 0 || 1024 ≤ field d 6 2
    || 2 ^ 21 ≤ field d 8 4 || field d 8 4 % 32 != 0 || (slice d 12 52).any (· != 0) || (g.kind == 1 && g.root != 0)
  let e3 := g.members.any (fun t => !s.assigned t)
    || (g.kind == 0 && (!s.assigned g.root || !g.members.contains g.root))
  let rings := (List.range g.stages).map g.ringOf
  let e6 := g.xpkg != 0 && (!bit g.xpkg 15 || bits g.xpkg 14 13 == 3 || bits g.xpkg 12 9 != 0
    || (List.range 3).any (fun i => g.stages ≤ i && g.ringOf i != 0) || rings.any (fun r => (s.ring r).isNone)
    || rings.eraseDups.length != rings.length || g.members.isEmpty)
  (if e2 then [2] else []) ++ (if e3 then [3] else []) ++ (if e6 then [6] else [])

def State.round (s : State) (g : Nat) : Round := mapGet Round.init s.red.rounds g

def State.setRound (s : State) (g : Nat) (r : Round) : State :=
  { s with red := { s.red with rounds := mapSet Round.init s.red.rounds g r } }

/-- Whether a round is in progress. -/
def Round.running (r : Round) : Bool := !r.got.isEmpty || r.value.isSome || !r.taken.isEmpty

/-- `BNET_RG_CTRL.LOAD` (07 R219). -/
def State.groupLoad (s : State) : State :=
  let p := pgBnet 0
  if s.flag p BNET_RG_STAT.BUSY then s
  else
    { (s.putFlag p BNET_RG_STAT.BUSY true) with
      red := { s.red with loading := some (s.getPair p BNET_RG_ADDR_LO.ADDR BNET_RG_ADDR_HI.ADDR) } }

/-- A table image examined (07 R219): the least error code of it, or the groups it loads, every round afresh. -/
def State.groupTake (s : State) (img : List Byte) : State :=
  let p := pgBnet 0
  let ds := ((List.range 64).map (fun g => (g, slice img (256 * g) 256))).filter (fun e => bit (field e.2 0 1) 7)
  let errs := (if 16 < ds.length then [1] else []) ++ ds.flatMap (fun e => s.groupErrors e.2)
    ++ (if s.red.rounds.any (fun e => e.2.running) then [5] else [])
  let e : Nat := errs.foldl (fun m e => if m = 0 ∨ e < m then e else m) 0
  let s1 := (((s.put p BNET_RG_STAT.ERR 0).put p BNET_RG_STAT.VALID ds.length).put p BNET_RED_FAIL_LO.FAILED 0).put p
    BNET_RED_FAIL_HI.FAILED 0
  if e ≠ 0 then s.put p BNET_RG_STAT.ERR e
  else { s1 with red := { s1.red with groups := ds.map (fun e => (e.1, groupOfBytes e.2)), rounds := [] } }

/-- The end of a load: the new table, or the lowest reason that applies (07 R219). -/
def State.groupLoaded (s : State) : State :=
  match s.red.loading with
  | none => s
  | some a =>
    let r := s.deviceRead a 16384
    let s1 := r.1.putFlag (pgBnet 0) BNET_RG_STAT.BUSY false
    let s2 := { s1 with red := { s1.red with loading := none } }
    match r.2 with
    | none => s2.put (pgBnet 0) BNET_RG_STAT.ERR 4
    | some img => s2.groupTake img

/-! ## The fold (07 R221, 11 R335) -/

/-- One element of the fold, as a 32-bit word. -/
def foldWord (op : Nat) (a b : Word) : Word :=
  if op ≤ 1 then (laneAdd a b).1
  else if op = 2 then (saturate32 (a.toInt + b.toInt)).1
  else if op = 3 then (laneMax a b).1
  else if op = 4 then (if a.toInt < b.toInt then b else a)
  else a ||| b

/-- A sector's eight words. -/
def sectorWords (d : List Byte) : List Word := (List.range 8).map (fun i => BitVec.ofNat 32 (field d (4 * i) 4))

def wordsSector (l : List Word) : List Byte := l.flatMap (fun w => leBytes 4 w.toNat)

/-- Two values folded, sector by sector. -/
def foldSectors (op : Nat) (a b : List (List Byte)) : List (List Byte) :=
  a.zipWith (fun x y => wordsSector ((sectorWords x).zipWith (foldWord op) (sectorWords y))) b

/-- A floating-point element as the fold takes it: any NaN canonical, a subnormal the zero of its sign (03 R78). -/
def foldElement (w : Word) : Word := (laneMax w w).1

/-- A contribution as the fold takes it: BF16 elements widened exactly to FP32, two sectors for one; floating-point elements
cleaned, so that a value that meets no other obeys the rules of the fold too. -/
def foldInput (op : Nat) (l : List (List Byte)) : List (List Byte) :=
  let clean (d : List Byte) : List Byte := wordsSector ((sectorWords d).map foldElement)
  if op = 1 then l.flatMap (fun d =>
    let w (j : Nat) : List Byte := (List.range 8).flatMap (fun i => leBytes 4 (field d (16 * j + 2 * i) 2 * 65536))
    [clean (w 0), clean (w 1)])
  else if op = 0 ∨ op = 3 then l.map clean
  else l

/-- FP32 rounded once to BF16, ties to even: past the range to an infinity, any NaN to 0x7FC0. -/
def roundBf16 (w : Word) : Nat :=
  let n := w.toNat
  if (value32 w).isNaN then 0x7FC0
  else (n + 0x7FFF + n / 65536 % 2) / 65536

/-- A result as it is delivered. -/
def foldOutput (op : Nat) (l : List (List Byte)) : List (List Byte) :=
  if op = 1 then (List.range (l.length / 2)).map (fun i =>
    (sectorWords (l.getD (2 * i) []) ++ sectorWords (l.getD (2 * i + 1) [])).flatMap (fun w => leBytes 2 (roundBf16 w)))
  else l

/-- The next router on the route of 07 R201 to a root: along X, then along Y. -/
def parentOf (root r : Nat × Nat) : Nat × Nat :=
  if r.1 < root.1 then (r.1 + 1, r.2) else if root.1 < r.1 then (r.1 - 1, r.2)
  else if r.2 < root.2 then (r.1, r.2 + 1) else if root.2 < r.2 then (r.1, r.2 - 1) else r

/-- The routers whose parent is `r`, in ascending order of 8 Y + X. -/
def childrenOf (root r : Nat × Nat) : List (Nat × Nat) :=
  let near : List (Nat × Nat) := (if 0 < r.2 then [(r.1, r.2 - 1)] else []) ++ (if 0 < r.1 then [(r.1 - 1, r.2)] else [])
    ++ (if r.1 < 7 then [(r.1 + 1, r.2)] else []) ++ (if r.2 < 7 then [(r.1, r.2 + 1)] else [])
  near.filter (fun c => parentOf root c == r)

/-- The router at which a logical tile's drop lands. -/
def State.memberRouter (s : State) (l : Nat) : Nat × Nat :=
  let t := (s.physOf l).getD 0
  dropRouter (t / 144) (s.dropFor (t / 144) (t % 144 / 6))

/-- The fold of a router: its own drops' contributions by logical tile, then its children's partials. -/
def State.foldAt (s : State) (op : Nat) (root : Nat × Nat) (got : List (Nat × List (List Byte))) :
    Nat → Nat × Nat → Option (List (List Byte))
  | 0, _ => none
  | k + 1, r =>
    let own := (got.filter (fun e => s.memberRouter e.1 == r)).map (fun e => foldInput op e.2)
    let kids := (childrenOf root r).filterMap (State.foldAt s op root got k)
    match own ++ kids with
    | [] => none
    | v :: rest => some (rest.foldl (foldSectors op) v)

/-- The value of a whole round of a package: contributions in ascending order of logical tile, folded up the tree. -/
def State.foldRound (s : State) (g : Group) (got : List (Nat × List (List Byte))) : Option (List (List Byte)) :=
  let root := s.memberRouter (if g.kind = 0 then g.root else g.members.headD 0)
  let sorted := g.members.filterMap (fun l => got.find? (fun e => e.1 == l))
  s.foldAt g.op root sorted 16 root

/-! ## Delivery (07 R195, R221, R222) -/

/-- Code words written to a logical tile's SRAM: dropped where its die is in partition reset or its host holds it off,
kept for it while it sleeps. Sectors past the end of SRAM are not written (assumption log 18). -/
def State.deliverTo (s : State) (l addr : Nat) (words : List (List Byte)) : State :=
  let a := sramBase l + addr
  let w := words.take ((sramSize - addr) / 32)
  if !s.assigned l then s
  else if s.prst (l / 128) ≠ prstUp then s.count (pgCdie (l / 128)) CDIE_DD_CNT.COUNT 1
  else if s.rangeRefused a 32 then s
  else if s.asleep a 32 then { s with red := { s.red with late := s.red.late ++ [(l, addr, w)] } }
  else s.storeWords a w

/-- The local destinations of a group's result (07 R221, 11 R334): a `REDUCE` that spans packages delivers only in the
package at position 0 of every stage. -/
def State.destinations (s : State) (g : Group) : List Nat :=
  if g.kind = 1 then g.members
  else if g.xpkg = 0 ∨ (List.range g.stages).all (fun st => match s.ring (g.ringOf st) with
    | some a => a.pos == 0
    | none => false) then [g.root]
  else []

def State.deliverResult (s : State) (g : Group) (words : List (List Byte)) : State :=
  (s.destinations g).foldl (fun s l => s.deliverTo l g.addr words) s

/-- A round fails (07 R222, 11 R338): poisoned sectors to the local destinations, the group marked and reported. -/
def State.failRound (s : State) (g : Nat) : State :=
  match s.group g with
  | none => s
  | some d =>
    let p := pgBnet 0
    let s1 := s.deliverResult d (List.replicate (d.len + 1) poisonWord)
    let f := if g < 32 then BNET_RED_FAIL_LO.FAILED else BNET_RED_FAIL_HI.FAILED
    ((s1.put p f (s1.get p f ||| 2 ^ (g % 32))).report p .u 0x15 g 0 0).setRound g { Round.init with num := (s.round g).num }

/-- Whether a packet taken into a round carries a damaged sector (13 R369). -/
def Round.damaged (r : Round) : Bool := r.taken.any (fun e => e.2.2.any (fun w => (decodeSector w).1.damaged))

/-- A round ends: the next one begins with the packets held for it, and fails at once where one of them is damaged. -/
def State.endRound (s : State) (g : Nat) : State :=
  let r := s.round g
  let s1 := (s.setRound g { Round.init with num := r.num + 1, taken := r.held }).count (pgBnet 0) BNET_RED_DONE.COUNT 1
  if (s1.round g).damaged then s1.failRound g else s1

/-! ## Stages (11 R333 to R336) -/

/-- The head of a fabric packet. -/
def fabricHead (result : Bool) (g rnd st ring : Nat) (d : Group) (n : Nat) (a : RingAt) : List Byte :=
  codeWord (leBytes 1 (if result then 0x12 else 0x11) ++ leBytes 1 g ++ leBytes 1 rnd
    ++ leBytes 1 (st + 4 * ring + 32 * d.kind) ++ leBytes 1 d.op ++ [0] ++ leBytes 2 (n - 1) ++ leBytes 1 a.pos
    ++ leBytes 1 a.nm1 ++ List.replicate 22 0)

/-- A partial or a result leaves on the NEXT port. -/
def State.sendStage (s : State) (result : Bool) (g : Nat) (d : Group) (a : RingAt) (v : List (List Byte)) : State :=
  let r := s.round g
  s.sendFabric a.next (fabricHead result g r.num r.stage (d.ringOf r.stage) d v.length a :: v.map codeWord)

/-- Code words that a port has not had acknowledged. -/
def State.wordsOut (s : State) (i : Nat) : Nat :=
  (s.port i).queue.length + ((s.port i).replay.map (fun f => f.words.length)).sum

/-- The output of a stage: the next stage's input, or the result delivered and the round at its end. -/
def State.stageOut (s : State) (g : Nat) (d : Group) (v : List (List Byte)) : State :=
  let r := s.round g
  if r.stage + 1 < d.stages then s.setRound g { r with stage := r.stage + 1, value := some v, sent := false }
  else (s.deliverResult d ((foldOutput d.op v).map codeWord)).endRound g

/-- One move of a stage: a partial sent, or the stage's output made. -/
def State.stageMove (s : State) (g : Nat) (d : Group) : State :=
  let r := s.round g
  match r.value, s.ring (d.ringOf r.stage) with
  | some v, some a =>
    let got (res : Bool) : Option (List (List Byte)) :=
      (r.taken.find? (fun e => e.1 == res && e.2.1 == r.stage)).map (fun e => e.2.2.map (fun w => (decodeSector w).2))
    if a.pos ≠ 0 then
      if r.sent then
        if d.kind = 1 then
          match got true with
          | some o => (if a.pos ≠ a.nm1 then s.sendStage true g d a o else s).stageOut g d o
          | none => s
        else s
      else
        match (if a.pos = 1 then some v else (got false).map (fun w => foldSectors d.op w v)) with
        | some part =>
          let s1 := s.sendStage false g d a part
          s1.setRound g { s1.round g with
            sent := true, leaving := if d.kind = 0 ∧ s.portOpen a.next then some (a.next, s1.wordsOut a.next) else none }
        | none => s
    else match got false with
      | some w =>
        let o := foldSectors d.op w v
        (if d.kind = 1 then s.sendStage true g d a o else s).stageOut g d o
      | none => s
  | _, _ => s

/-- A round moves as far as it can; a damaged sector of another package's value fails it. -/
def State.roundMoves (s : State) (g : Nat) : State :=
  match s.group g with
  | none => s
  | some d => if (s.round g).damaged then s.failRound g else (List.range 6).foldl (fun s _ => s.stageMove g d) s

/-- Rounds whose last partial has been acknowledged end (11 R338). -/
def State.endLeft (s : State) : State :=
  s.red.rounds.foldl (fun s e => match e.2.leaving with
    | some (_, 0) => s.endRound e.1
    | _ => s) s

/-! ## Contributions (07 R196, R220) -/

/-- `REDUCTION_CONTRIBUTION`: the base router accepts the member's oldest contribution, unless the member has already given
one to the round under way (07 R220); the round's value is folded once the last has come. A damaged sector fails the round
(13 R369). -/
def State.contribute (s : State) (t k : Nat) : State :=
  match (s.tile t).nth k with
  | none => s
  | some x =>
    let code := x.target / 2 ^ 21
    if x.kind ≠ .nsnd ∨ !x.waits ∨ 0 < x.inject ∨ code < 0x700 ∨ !(s.tile t).firstFor x then s
    else
      let g := code - 0x700
      let l := s.logical t
      match s.group g with
      | none => s.modTile t (fun u => u.retire x stNoTarget)
      | some d =>
        if s.groupFailed g then s.modTile t (fun u => u.retire x stNoTarget)
        else if x.sectors ≠ d.len + 1 ∨ !d.members.contains l then s.modTile t (fun u => u.retire x stBadCmd)
        else if (s.round g).got.any (fun e => e.1 == l) then s
        else
          let a := s.gather t x
          let s1 := a.1.modTile t (fun u => u.retire { x with ue := x.ue || a.2.2 } stOk)
          if a.2.2 then s1.failRound g
          else
            let r := s1.round g
            let got := r.got ++ [(l, a.2.1.map (·.take 32))]
            let s2 := s1.setRound g { r with got := got }
            if got.length < d.members.length then s2
            else match s2.foldRound d got with
              | none => s2
              | some v =>
                if d.xpkg = 0 then (s2.deliverResult d ((foldOutput d.op v).map codeWord)).endRound g
                else (s2.setRound g { r with got := got, value := some v }).roundMoves g

/-- `REDUCTION_ROUND_TIMEOUT`: a round with a local contribution that has not ended fails (07 R222, 11 R338). -/
def State.roundTimeout (s : State) (g : Nat) : State :=
  if (s.round g).got.isEmpty || s.groupFailed g then s else s.failRound g

/-! ## Fabric packets (11 R337) -/

/-- The first condition of 11 R337 that a packet fails, 1 to 6; none where it is accepted. -/
def State.fabricRefusal (s : State) (i : Nat) (e : SectorState × List Byte) (n : Nat) : Option Nat :=
  let h := e.2
  let g := field h 1 1 % 64
  let st := field h 3 1 % 4
  let ring := bits (field h 3 1) 4 2
  let pt := field h 0 1
  let rsv := (pt != 0x11 && pt != 0x12) || 64 ≤ field h 1 1 || 128 ≤ field h 3 1 || 16 ≤ field h 4 1 || field h 5 1 != 0
    || 2048 ≤ field h 6 2 || (slice h 10 22).any (· != 0)
  if e.1.damaged || rsv then some 1
  else match s.ring ring with
    | none => some 2
    | some a =>
      if a.prev ≠ i ∨ !s.ringUsable ring then some 2
      else match s.group g with
        | none => some 3
        | some d =>
          let len := if d.op = 1 then 2 * (d.len + 1) else d.len + 1
          let r := s.round g
          if s.groupFailed g ∨ d.xpkg = 0 ∨ d.stages ≤ st ∨ d.ringOf st ≠ ring then some 3
          else if bits (field h 3 1) 6 5 ≠ d.kind ∨ field h 4 1 ≠ d.op ∨ field h 6 2 + 1 ≠ len ∨ n ≠ len then some 4
          else if field h 8 1 ≠ (a.pos + a.nm1) % (a.nm1 + 1) ∨ field h 9 1 ≠ a.nm1 then some 5
          else if field h 2 1 ≠ r.num % 256 ∧ field h 2 1 ≠ (r.num + 1) % 256 then some 6
          else none

/-- A fabric packet that a port has received: taken into its round, held for the next one, or dropped. -/
def State.fabricPacket (s : State) (i : Nat) (head : List Byte) (body : List (List Byte)) : State :=
  let e := decodeSector (slice head 0 36)
  let h := e.2
  let g := field h 1 1 % 64
  match s.fabricRefusal i e body.length with
  | some c =>
    (s.count (pgFprt i) FPRT_PKT_DROP.COUNT 1).report (pgFprt i) .u 0x22 ((if e.1.damaged then 0 else g) * 256 + c) 0 0
  | none =>
    let r := s.round g
    let item := (field h 0 1 == 0x12, field h 3 1 % 4, body)
    if field h 2 1 = r.num % 256 then (s.setRound g { r with taken := r.taken ++ [item] }).roundMoves g
    else s.setRound g { r with held := r.held ++ [item] }

/-! ## The meanings of the commands -/

/-- `BNET_RG_LOAD` (07 R219). -/
def execBnetRgLoad (s : State) : Host.Outcome State Fault Refusal := .next s.groupLoad

/-- `BNET_RG_LOAD_DONE` (07 R219). -/
def execBnetRgLoadDone (s : State) : Host.Outcome State Fault Refusal := .next s.groupLoaded

/-- `REDUCTION_CONTRIBUTION` (07 R221). -/
def execReductionContribution (t : TileId) (k : Fin 16) (s : State) : Host.Outcome State Fault Refusal :=
  .next (s.contribute t k)

/-- `REDUCTION_ROUND_TIMEOUT` (07 R222). -/
def execReductionRoundTimeout (g : BitVec 6) (s : State) : Host.Outcome State Fault Refusal :=
  .next (s.roundTimeout g.toNat)

/-- `FABRIC_PACKET_RECEIVE` (11 R337). -/
def execFabricPacketReceive (i : FPort) (head : List Byte) (body : List (List Byte)) (s : State) :
    Host.Outcome State Fault Refusal :=
  if (Instr.fabricPacketReceive i head body).wellFormed then .next (s.fabricPacket i head body) else .fault .illFormed

end Sys2Proof.Machine
end

