-- ==== Sys2Proof/Machine/Fabric.lean ====
section
/-! DEFINITION. What happens at the Jodar Link ports: training and versions (11 R323, R325, R326, 12 R344, R345), frames,
NAKs and control frames (11 R319, R320, R324, R327), and the control bits of their pages (11 R330, R342, 12 R368). -/

namespace Sys2Proof.Machine

/-- A port by its number: 0 to 11 fabric, 12 H0, 13 H1. -/
def portNumber : PortRef → Nat
  | .fabric i => i
  | .host h => 12 + h

/-- The power domain of a port. -/
def portDomain (i : Nat) : Domain :=
  if h : i < 12 then .fport ⟨i, h⟩ else if i = 12 then .hport 0 else .hport 1

/-! ## Training (11 R323, 12 R344) -/

/-- `EN` becomes 1: training starts, unless the port is unlicensed (11 R317) or its domain is off. -/
def State.portOn (s : State) (i : Nat) : State :=
  let p := portPage i
  if s.flag p PAGE_CAPS.LIC_OFF then s
  else
    let s1 := s.putFlag p PAGE_CTRL.EN true
    if s.portPower i = 2 then s1 else s1.enablePort i

/-- `EN` becomes 0. -/
def State.portOff (s : State) (i : Nat) : State := (s.putFlag (portPage i) PAGE_CTRL.EN false).disablePort i

/-- FEC locks on lane groups, bit 0 for lanes 0 to 7 and bit 1 for lanes 8 to 15 of a host port; a fabric port locks on all
its lanes at once. At a port that is off it is a signal on its lanes (14 R399). -/
def State.portLock (s : State) (i groups : Nat) : State :=
  if s.portState i ≠ ptPhy then s.portSense i
  else if groups = 3 then
    ((s.setPort i { s.port i with locked := 3 }).setPortState i ptExchange).setWidth i 3
  else if isHostPort i then s.setPort i { s.port i with locked := groups }
  else s

/-- 500 ms in PHY without lock. -/
def State.phyExpired (s : State) (i : Nat) : State :=
  if s.portState i = ptPhy ∧ (s.port i).locked = 0 then ((s.discardReplay i).setPortState i ptWait).setWidth i 0 else s

/-- A host port has been locked on exactly one lane group for 500 ms (12 R344). -/
def State.halfLocked (s : State) (h g : Nat) : State :=
  let i := 12 + h
  if s.portState i ≠ ptPhy ∨ (s.port i).locked ≠ 2 ^ g then s
  else if s.flag (pgHprt h) HPRT_CFG.HALF then (s.setPortState i ptExchange).setWidth i (1 + g)
  else (((s.discardReplay i).setPort i { (s.discardReplay i).port i with locked := 0 }).setPortState i ptWait).setWidth i 0

/-- 100 ms in WAIT. -/
def State.waitExpired (s : State) (i : Nat) : State :=
  if s.portState i = ptWait then s.setPortState i ptPhy else s

/-! ## Control frames (11 R324) -/

def ctExchange : Nat := 1
def ctRingUpdate : Nat := 2
def ctLpReq : Nat := 3
def ctLpAck : Nat := 4
def ctLpNak : Nat := 5
def ctLpExit : Nat := 6

/-- The versions a port advertises. -/
def State.portVers (s : State) (i : Nat) : Nat := s.get (portPage i) (portField i FPRT_CFG.VERS HPRT_CFG.VERS)

/-- The code word of a control frame: ring fields of a host port are zero (12 R344). -/
def State.controlWord (s : State) (i ctype : Nat) : List Byte :=
  let ring (prev : Bool) : Nat := if isHostPort i then 0 else s.ringWord i prev
  codeWord (leBytes 1 ctype ++ leBytes 1 (s.portVers i) ++ leBytes 1 i ++ [0] ++ leBytes 8 Config.devNum.toNat
    ++ leBytes 4 (ring false) ++ leBytes 4 (ring true) ++ List.replicate 12 0)

/-- A control frame sent. -/
def State.sendControl (s : State) (i ctype : Nat) : State :=
  s.sendJodar i (s.portFrame i ftControl 0 [(3, s.controlWord i ctype)])

/-- The identity of the neighbour recorded on a port: its device number, and its port for a fabric port. -/
def State.neighbour (s : State) (i : Nat) : Nat × Nat :=
  let p := portPage i
  if isHostPort i then (s.getPair p HPRT_PEER_LO.DEVNUM HPRT_PEER_HI.DEVNUM, 0)
  else (s.getPair p FPRT_NBR_ID_LO.DEVNUM FPRT_NBR_ID_HI.DEVNUM, s.get p FPRT_NBR.PORT)

/-- The neighbour's identity and ring registers copied. -/
def State.recordNeighbour (s : State) (i : Nat) (c : Control) : State :=
  let p := portPage i
  let id := c.devnum.toNat
  if isHostPort i then (s.put p HPRT_PEER_LO.DEVNUM id).put p HPRT_PEER_HI.DEVNUM (id / 2 ^ 32)
  else
    let s1 := ((s.put p FPRT_NBR_ID_LO.DEVNUM id).put p FPRT_NBR_ID_HI.DEVNUM (id / 2 ^ 32)).put p FPRT_NBR.PORT c.port.toNat
    (s1.put p FPRT_NBR_RING_N.RING c.ringN.toNat).put p FPRT_NBR_RING_P.RING c.ringP.toNat

/-- The identity that an EXCHANGE names: a device number, and a port for a fabric port (11 R326, 12 R344). -/
def exchangeId (i : Nat) (c : Control) : Nat × Nat := (c.devnum.toNat, if isHostPort i then 0 else c.port.toNat)

/-- The replay buffer goes when the neighbour is another one than at the previous UP (11 R326); numbering then begins
again (assumption log 19). -/
def State.checkNeighbour (s : State) (i : Nat) (c : Control) : State :=
  if (s.port i).beenUp ∧ (s.port i).peer ≠ exchangeId i c then
    let s1 := s.discardReplay i
    s1.setPort i { s1.port i with nextSeq := 0, last := 4095 }
  else s

/-- EXCHANGE to UP: the counts of credit begin again, the frames that are held are sent again, and what waited goes. -/
def State.portUp (s : State) (i v : Nat) (peer : Nat × Nat) : State :=
  let s1 := (s.setPortVer i v).setPortState i ptUp
  let p := s1.port i
  let p1 : Port := { p with
    beenUp := true, peer := peer, freed := 0, credit := 0, sent := (p.replay.map (fun f => f.words.length)).sum % 4096,
    waiting := false, naks := 0, lane := 0 }
  ((s1.setPort i p1).resend i).portGo i

/-- An EXCHANGE received with its `ACK` (11 R323, R325, R326): on a port in EXCHANGE it settles the version, and the frames
after `ACK` are sent again; on a port that is UP it retrains it. -/
def State.exchanged (s : State) (i : Nat) (c : Control) (ack : Nat) : State :=
  let p := portPage i
  if s.portState i = ptUp then s.retrainPort i
  else if s.portState i ≠ ptExchange then s
  else
    let s0 := if isHostPort i then s else s.putFlag p FPRT_NBR.VALID true
    let common := s.portVers i &&& c.vers.toNat
    let v := if bit common 1 then 2 else if bit common 0 then 1 else 0
    let nover := portField i FPRT_STAT.NO_VER HPRT_STAT.NO_VER
    if v = 0 then
      (((((s0.recordNeighbour i c).putFlag p nover true).discardReplay i).setPortState i ptWait).unlockPort i).setWidth i 0
    else
      (((((s0.checkNeighbour i c).ackFrames i ack).endLeft).recordNeighbour i c).putFlag p nover false).portUp i v
        (exchangeId i c)

/-! ## Retention of a port (11 R327) -/

/-- Whether a port is idle (14 R393): no packet waits for it, no frame is unacknowledged, and a host port has no transaction
outstanding in either direction. -/
def State.portIdle (s : State) (i : Nat) : Bool :=
  (s.port i).queue.isEmpty && (s.port i).replay.isEmpty && !s.bridge.hostReqs.any (fun r => r.port == i)
    && !s.bridge.devReqs.any (fun r => r.1 == i) && !s.bridge.devWait.any (fun p => p.port == i)
    && !s.bridge.accs.any (fun x => match x.use with
      | .host j _ => j == i
      | _ => false)

/-- The time to leave retention, in ns (14 R392). -/
def portExitNs : Nat := 5000

/-- Whether the tolerance of a port allows retention. -/
def State.portTolerates (s : State) (i : Nat) : Bool := portExitNs ≤ s.get (portPage i) PAGE_LATTOL.TOL_NS

/-- The port goes to LOWPOWER, its domain on the way to retention (14 R401). -/
def State.portSleep (s : State) (i : Nat) : State :=
  let s1 := (s.setPortState i ptLowPower).setDom (portDomain i) 3
  { s1 with moves := s1.moves.filter (fun m => m.dom ≠ portDomain i)
      ++ [{ dom := portDomain i, target := 1, woken := false }] }

/-- `LP_REQ` received: agreed to unless the port's own tolerance forbids retention. The answer moves this port nowhere: its
own retention takes a request of its own. -/
def State.lpAsked (s : State) (i : Nat) : State :=
  if s.portState i ≠ ptUp then s else s.sendControl i (if s.portTolerates i then ctLpAck else ctLpNak)

/-- `LP_ACK` received: the port that asked sleeps, where it is still idle and its request and tolerance still let it (14
R394 to R396). -/
def State.lpAgreed (s : State) (i : Nat) : State :=
  if (s.port i).lpAsked then
    let s1 := s.setPort i { s.port i with lpAsked := false }
    if s.portState i = ptUp ∧ s.portPower i = 0 ∧ s.get (portPage i) PAGE_PWR.REQ = 0 ∧ s.portTolerates i
      ∧ s.portIdle i ∧ !s.shutDown (portDomain i) then s1.portSleep i
    else s1
  else s

/-- `LP_NAK` received: both ends stay UP. -/
def State.lpRefused (s : State) (i : Nat) : State := s.setPort i { s.port i with lpAsked := false }

/-! ## Frames (11 R319 to R321) -/

/-- The code words of a frame with their kinds. -/
def frameWords (f : List Byte) : List (Nat × List Byte) :=
  (List.range (bits (field f 0 1) 6 4)).map (fun w => (field f 5 1 / 4 ^ w % 4, slice f (8 + 36 * w) 36))

/-- A NAK sent, or repeated. -/
def State.portNak (s : State) (i : Nat) : State := s.sendJodar i (s.portFrame i ftNak 0 [])

/-- An idle frame sent, with the current `ACK` and `CRD`. -/
def State.portIdleFrame (s : State) (i : Nat) : State := s.sendJodar i (s.portFrame i ftIdle 0 [])

/-- Code words of a frame in order: the packet being received grows, and a packet that is whole leaves the buffer; every
code word is freed as it is taken. -/
def State.takeWords (s : State) (i : Nat) (words : List (Nat × List Byte)) : State :=
  let p := s.port i
  let rx := words.foldl (fun rx w =>
    if w.1 = 2 ∨ w.1 = 3 then [] else if w.1 = 0 then [w.2] else rx ++ [w.2]) p.rx
  s.setPort i { p with rx := rx, freed := (p.freed + words.length) % 4096 }

/-- What a good frame reports of the other direction: its `ACK` and its `CRD`. -/
def State.takeAck (s : State) (i ack crd : Nat) : State :=
  let s1 := s.ackFrames i ack
  ((s1.setPort i { s1.port i with credit := crd }).endLeft).portGo i

/-- A NAK received (11 R320): the frames it covers go, the others are sent again; the eighth NAK of one number in a row
retrains the port. -/
def State.portNaked (s : State) (i ack : Nat) : State :=
  if s.portState i ≠ ptUp then s
  else
    let s1 := (s.ackFrames i ack).endLeft
    let p := s1.port i
    let seq := (ack + 1) % 4096
    let n := if 0 < p.naks ∧ p.nakSeq = seq then p.naks + 1 else 1
    if 8 ≤ n then (s1.setPort i { p with nakSeq := seq, naks := 0 }).retrainPort i
    else (s1.setPort i { p with nakSeq := seq, naks := n }).resend i

/-- Whether the receiver of a port takes frames: in EXCHANGE, UP and LOWPOWER. -/
def State.portHears (s : State) (i : Nat) : Bool := s.portOpen i || s.portState i == ptExchange

/-- A ring update received: identity and ring registers are copied; a host port ignores ring fields (12 R344). -/
def State.ringUpdated (s : State) (i : Nat) (c : Control) : State := if s.portHears i then s.recordNeighbour i c else s

/-- LP_EXIT received: the receiver of a sleeping port notes it, and the comparator of its group wakes the port (14 R399). -/
def State.lpExited (s : State) (i : Nat) : State := s.portSense i

/-- A control code word. -/
def controlOf (d : List Byte) : Nat × Control :=
  (field d 0 1,
    { vers := BitVec.ofNat 8 (field d 1 1), port := BitVec.ofNat 4 (field d 2 1), devnum := BitVec.ofNat 64 (field d 4 8),
      ringN := BitVec.ofNat 32 (field d 12 4), ringP := BitVec.ofNat 32 (field d 16 4) })

/-- A control frame acts by its type; reserved types do nothing. -/
def State.controlled (s : State) (i : Nat) (d : List Byte) (ack : Nat) : State :=
  let c := controlOf d
  if c.1 = ctExchange then s.exchanged i c.2 ack
  else if c.1 = ctRingUpdate then s.ringUpdated i c.2
  else if c.1 = ctLpReq then s.lpAsked i
  else if c.1 = ctLpAck then s.lpAgreed i
  else if c.1 = ctLpNak then s.lpRefused i
  else if c.1 = ctLpExit then s.lpExited i
  else s

/-- A bad frame (11 R319): discarded; it counts where it is a data frame or a data frame is awaited, and an UP port sends
a NAK. -/
def State.badFrame (s : State) (i ft : Nat) : State :=
  let counts := ft = ftData ∨ (s.port i).waiting
  let s1 := if counts then s.report (portPage i) .c 0x20 0 0 0 else s
  if s.portState i = ptUp then (s1.setPort i { s1.port i with waiting := true }).portNak i else s1

/-- What the FEC decoder found in the RS code words that end with a frame (11 R319): those corrected, those that are not. -/
def State.countFec (s : State) (i fixed lost : Nat) : State :=
  let p := portPage i
  (s.count p (portField i FPRT_FEC_C.COUNT HPRT_FEC_C.COUNT) fixed).count p (portField i FPRT_FEC_U.COUNT HPRT_FEC_U.COUNT)
    lost

/-- A good data frame (11 R320): in order, its code words are taken, out of order it is discarded. An idle frame answers it
where no other frame did, so that `ACK` and `CRD` reach the neighbour (11 R318, assumption log 67). It wakes a port in
LOWPOWER (14 R399). -/
def State.dataFrame (s : State) (i seq ack crd : Nat) (words : List (Nat × List Byte)) : State :=
  let s1 := s.portSense i
  let p := s1.port i
  let s2 := if seq = (p.last + 1) % 4096 then
      (s1.setPort i { p with last := seq, waiting := false }).takeWords i words
    else s1
  let s3 := s2.takeAck i ack crd
  if (s3.port i).nextSeq = (s2.port i).nextSeq ∧ s3.portState i = ptUp ∧ s3.portPower i = 0 then s3.portIdleFrame i else s3

/-- A frame of a link is received on a port whose receiver runs; at a port that is off it is a signal on its lanes (14
R399). `bad` says that an RS code word it overlaps is uncorrectable; `fixed` and `lost` count the code words that end with
it. -/
def State.portFrameIn (s0 : State) (i : Nat) (f : List Byte) (bad : Bool) (fixed lost : Nat) : State :=
  if !s0.portHears i then s0.portSense i
  else
    let s := s0.countFec i fixed lost
    let ft := field f 0 1 % 16
    let ack := field f 3 2 % 4096
    let crd := field f 6 2 % 4096
    if bad || 0 < lost || crc32c (f.take 152) ≠ field f 152 4 then s.badFrame i ft
    else if ft = ftControl then
      let s1 := if s.portOpen i then s.takeAck i ack crd else s
      match frameWords f with
      | w :: _ =>
        let d := decodeSector w.2
        if d.1.damaged then s1 else s1.controlled i d.2 ack
      | [] => s1
    else if !s.portOpen i then s
    else if ft = ftNak then ((s.setPort i { s.port i with credit := crd }).portNaked i ack).portGo i
    else if ft = ftIdle then s.takeAck i ack crd
    else if ft = ftData then s.dataFrame i (field f 1 2 % 4096) ack crd (frameWords f)
    else s

/-! ## Register commands -/

/-- A field of access RWL written: a locked field that would change keeps its value, and `LOCK_HIT` is set (02 R35). -/
def State.putRwl (s : State) (p : PageRef) (f : Field) (v : Nat) : State :=
  let w := v % 2 ^ (f.hi + 1 - f.lo)
  if s.flag p PAGE_CTRL.LOCK then (if s.get p f = w then s else s.putFlag p PAGE_STAT.LOCK_HIT true) else s.put p f w

/-- A write of a field that the block's state holds fast (08 R232, 09 R264): ignored, and where an RWL field would have
changed, `LOCK_HIT` shows it (02 R35). -/
def State.heldField (s : State) (p : PageRef) (f : Field) (v : Nat) : State :=
  if f.acc = .rwl ∧ s.get p f ≠ v % 2 ^ (f.hi + 1 - f.lo) then s.putFlag p PAGE_STAT.LOCK_HIT true else s

/-- `FPRT_RING_N` or `FPRT_RING_P` written: it takes effect at once, and an UP port sends RING_UPDATE (11 R324, R330). -/
def State.writeRing (s : State) (i : Nat) (prev : Bool) (v : Nat) : State :=
  let p := pgFprt i
  let s1 :=
    if prev then
      (((s.putRwl p FPRT_RING_P.VALID (v / 2 ^ 31)).putRwl p FPRT_RING_P.RING (v / 2 ^ 16)).putRwl p FPRT_RING_P.NM1
        (v / 2 ^ 8)).putRwl p FPRT_RING_P.POS v
    else
      (((s.putRwl p FPRT_RING_N.VALID (v / 2 ^ 31)).putRwl p FPRT_RING_N.RING (v / 2 ^ 16)).putRwl p FPRT_RING_N.NM1
        (v / 2 ^ 8)).putRwl p FPRT_RING_N.POS v
  if s.portState i = ptUp then s1.sendControl i ctRingUpdate else s1

/-- The counters of a port at 0x080 to 0x094 cleared (11 R342, 12 R368). -/
def State.clearPortCounters (s : State) (i : Nat) : State :=
  let fs := if isHostPort i then
      [HPRT_FEC_C.COUNT, HPRT_FEC_U.COUNT, HPRT_REPLAY.COUNT, HPRT_DROP.COUNT, HPRT_REFUSED.COUNT, HPRT_LOST.COUNT]
    else [FPRT_FEC_C.COUNT, FPRT_FEC_U.COUNT, FPRT_REPLAY.COUNT, FPRT_DROP.COUNT, FPRT_PKT_DROP.COUNT, FPRT_DOWN.COUNT]
  fs.foldl (fun s f => s.put (portPage i) f 0) s

/-! ## The meanings of the commands -/

/-- `FPRT_ENABLE` (11 R323). -/
def execFprtEnable (i : FPort) (s : State) : Host.Outcome State Fault Refusal := .next (s.portOn i)

/-- `FPRT_DISABLE` (11 R323). -/
def execFprtDisable (i : FPort) (s : State) : Host.Outcome State Fault Refusal := .next (s.portOff i)

/-- `FEC_LOCK` (11 R323, 12 R344). -/
def execFecLock (p : PortRef) (groups : BitVec 2) (s : State) : Host.Outcome State Fault Refusal :=
  .next (s.portLock (portNumber p) groups.toNat)

/-- `PHY_TIMEOUT` (11 R323). -/
def execPhyTimeout (p : PortRef) (s : State) : Host.Outcome State Fault Refusal := .next (s.phyExpired (portNumber p))

/-- `HALF_LOCK_TIMEOUT` (12 R344). -/
def execHalfLockTimeout (h : HPort) (group : Fin 2) (s : State) : Host.Outcome State Fault Refusal :=
  .next (s.halfLocked h group)

/-- `WAIT_TIMEOUT` (11 R323). -/
def execWaitTimeout (p : PortRef) (s : State) : Host.Outcome State Fault Refusal := .next (s.waitExpired (portNumber p))

/-- `EXCHANGE_SEND_TIMER` (11 R323). -/
def execExchangeSendTimer (p : PortRef) (s : State) : Host.Outcome State Fault Refusal :=
  .next (if s.portState (portNumber p) = ptExchange then s.sendControl (portNumber p) ctExchange else s)

/-- `EXCHANGE_RECEIVE` (11 R326). -/
def execExchangeReceive (p : PortRef) (c : Exchange) (s : State) : Host.Outcome State Fault Refusal :=
  .next (s.exchanged (portNumber p) c.control c.ack.toNat)

/-- `FEC_LOCK_LOSS` (11 R323). -/
def execFecLockLoss (p : PortRef) (s : State) : Host.Outcome State Fault Refusal := .next (s.retrainPort (portNumber p))

/-- `FPRT_RETRAIN` (11 R323, R342). -/
def execFprtRetrain (i : FPort) (s : State) : Host.Outcome State Fault Refusal := .next (s.retrainPort i)

/-- `FPRT_CLR` (11 R342). -/
def execFprtClr (i : FPort) (s : State) : Host.Outcome State Fault Refusal := .next (s.clearPortCounters i)

/-- `FABRIC_FRAME_RECEIVE` (11 R319). -/
def execFabricFrameReceive (p : PortRef) (frame : List Byte) (fec : FecResult) (s : State) :
    Host.Outcome State Fault Refusal :=
  if (Instr.fabricFrameReceive p frame fec).wellFormed then
    .next (s.portFrameIn (portNumber p) frame fec.bad fec.fixed.toNat fec.lost.toNat)
  else .fault .illFormed

/-- `FABRIC_NAK_RECEIVE` (11 R320). -/
def execFabricNakReceive (p : PortRef) (ack : BitVec 12) (s : State) : Host.Outcome State Fault Refusal :=
  .next (s.portNaked (portNumber p) ack.toNat)

/-- `FABRIC_NAK_REPEAT` (11 R320). -/
def execFabricNakRepeat (p : PortRef) (s : State) : Host.Outcome State Fault Refusal :=
  .next (if s.portState (portNumber p) = ptUp ∧ (s.port (portNumber p)).waiting then s.portNak (portNumber p) else s)

/-- `LP_REQ` (11 R327). -/
def execLpReq (p : PortRef) (s : State) : Host.Outcome State Fault Refusal := .next (s.lpAsked (portNumber p))

/-- `LP_ACK` (11 R327). -/
def execLpAck (p : PortRef) (s : State) : Host.Outcome State Fault Refusal := .next (s.lpAgreed (portNumber p))

/-- `LP_NAK` (11 R327). -/
def execLpNak (p : PortRef) (s : State) : Host.Outcome State Fault Refusal := .next (s.lpRefused (portNumber p))

/-- `LP_EXIT` (11 R327). -/
def execLpExit (p : PortRef) (s : State) : Host.Outcome State Fault Refusal := .next (s.lpExited (portNumber p))

/-- `RING_UPDATE` (11 R324). -/
def execRingUpdate (i : FPort) (c : Control) (s : State) : Host.Outcome State Fault Refusal := .next (s.ringUpdated i c)

/-- `RING_UPDATE_TIMER` (11 R324). -/
def execRingUpdateTimer (i : FPort) (s : State) : Host.Outcome State Fault Refusal :=
  .next (if s.portState i = ptUp then s.sendControl i ctRingUpdate else s)

/-- `FPRT_RING_WRITE` (11 R330). -/
def execFprtRingWrite (i : FPort) (prev : Bool) (v : Word) (s : State) : Host.Outcome State Fault Refusal :=
  .next (s.writeRing i prev v.toNat)

/-- `HPRT_RETRAIN` (12 R368). -/
def execHprtRetrain (h : HPort) (s : State) : Host.Outcome State Fault Refusal := .next (s.retrainPort (12 + h))

/-- `HPRT_CLR` (12 R368). -/
def execHprtClr (h : HPort) (s : State) : Host.Outcome State Fault Refusal := .next (s.clearPortCounters (12 + h))

end Sys2Proof.Machine
end

