-- ==== Sys2Proof/Machine/Pages.lean ====
section
/-! DEFINITION. What a soft reset does to the registers of any page (02 R43 to R45). -/

namespace Sys2Proof.Machine

/-- Every register of an array of registers, and every repetition within one, as a field of its own. -/
def Field.each (f : Field) : List Field :=
  (List.range (max 1 f.count)).flatMap (fun i =>
    let g := if f.stride = 0 then f else f.at i
    if g.subCount ≤ 1 then [g] else (List.range g.subCount).map g.sub)

/-- The header fields that a soft reset leaves: the lock and its hit, the four error registers, the capabilities, `READY`
(02 R486), what is fenced or degraded, the power state, and the sign that the reset runs. -/
def keptHeader : List Field :=
  [PAGE_CTRL.LOCK, PAGE_STAT.LOCK_HIT, PAGE_STAT.READY, PAGE_STAT.FENCED, PAGE_STAT.DEGRADED, PAGE_STAT.SRST_BUSY,
    PAGE_PWR.STATE, PAGE_CAPS.LOCKABLE, PAGE_CAPS.PWR, PAGE_CAPS.LATTOL, PAGE_CAPS.LIC_OFF, PAGE_CAPS.BLOCK,
    PAGE_ERR_CNT_C.COUNT, PAGE_ERR_CNT_U.COUNT, PAGE_ERR_FIRST.VALID, PAGE_ERR_FIRST.CODE, PAGE_ERR_FIRST.SYNDROME,
    PAGE_ERR_NEXT.COUNT]

/-- The fields of a page that a soft reset leaves: the header's, the address captured with the first error, and every RWL
field while the page is locked. -/
def State.keptFields (s : State) (p : PageRef) : List Field :=
  match pageAt p with
  | none => []
  | some (t, _) =>
    let addr := match errAddrFields t with
      | some (lo, hi, src) => [lo, hi, src]
      | none => []
    let locked := if s.flag p PAGE_CTRL.LOCK then ((fieldsOf t).filter (fun f => f.acc == .rwl)).flatMap Field.each else []
    keptHeader ++ addr ++ locked

/-- The registers of a page as a soft reset leaves them (02 R43). -/
def State.softPage (s : State) (p : PageRef) : State :=
  let kept := (s.keptFields p).map (fun f => (f, s.get p f))
  let inPage (k : Nat) : Bool := 32 * pageKey p ≤ k && k < 32 * (4096 + pageKey p)
  let s1 := s.clearPage p
  let s2 := { s1 with staged := s1.staged.filter (fun e => !inPage (e.1 / 4)),
                      latched := s1.latched.filter (fun e => !inPage (e.1 / 4)) }
  kept.foldl (fun s e => s.put p e.1 e.2) s2

/-- A soft reset starts: `SRST_BUSY` reads 1 until it completes (02 R44). Its effects take place at its start. -/
def State.softStart (s : State) (p : PageRef) : State := s.putFlag p PAGE_STAT.SRST_BUSY true

end Sys2Proof.Machine
end

