-- ==== Sys2Proof/Machine/HostLink.lean ====
section
/-! DEFINITION. The host link without its register accesses: completions, memory requests of the host and their checks
(12 R346 to R352), submission windows and the acceptance of their commands (12 R354 to R361), DMA channels (12 R362 to
R367), and the end of the accesses of both. -/

namespace Sys2Proof.Machine

/-! ## Completions (12 R346 to R348, R353, R488) -/

/-- The completion of a host request (12 R346, R348); `n` is the length of the data it carries. -/
def State.complete (s : State) (i : Nat) (q : HostHead) (status : Nat) (pois : Bool) (n eaddr rdata : Nat)
    (data : List (List Byte)) : State :=
  s.sendOrWait { port := i, words := headWord 0x05 (2 * b2n pois) status q.tag.toNat 0 (n - 1) eaddr rdata :: data,
                 record := none, req := none }

/-- An error completion without data (12 R348). -/
def State.refuseHost (s : State) (i : Nat) (q : HostHead) (status : Nat) : State :=
  s.complete i q status false 0 0 0 []

/-! ## Host requests (12 R346 to R352) -/

/-- The bytes that a request names. -/
def hostLen (q : HostHead) : Nat := q.len.toNat % 8192 + 1

/-- Whether a range lies in the register range (02 R23). -/
def inRegs (a n : Nat) : Bool := regBase ≤ a && a + n ≤ regBase + 0x4000_0000

/-- Whether a host request breaks a rule of form: a reserved or device type, a reserved field, a length, alignment or
boundary, a transaction that does not match its range (12 R347, R348, 02 R28, 05 R136). -/
def State.hostBad (s : State) (i : Nat) (q : HostHead) (data : List (List Byte)) : Bool :=
  let a := q.addr.toNat
  let n := hostLen q
  let ht := q.ht.toNat
  let big := s.maxData i < n || 4096 < a % 4096 + n || touchesRegs a n
  4 ≤ q.flags.toNat || q.rsv3 != 0 || q.rsv28 != 0 || 8192 ≤ q.len.toNat || 2 ^ 48 ≤ a
    || (if ht = 1 then big || !data.isEmpty
        else if ht = 2 then big || a % 32 != 0 || n % 32 != 0 || data.length * 32 != n
        else if ht = 3 ∨ ht = 4 then n != 4 || a % 4 != 0 || !inRegs a n || !data.isEmpty
        else true)

/-- What the device stores for a data code word of a host write (12 R351): nothing where it is uncorrectable. -/
def writtenWord (w : List Byte) : Option (List Byte) :=
  match decodeSector w with
  | (.uncorrectable, _) => none
  | (.poisoned, _) => some poisonWord
  | (_, d) => some (codeWord d)

/-- A memory request of the host (12 R348): refused with the first status that applies, or begun as an access that OPEN slots
serve (04 R114). -/
def State.hostAccess (s : State) (i : Nat) (q : HostHead) (data : List (List Byte)) : State :=
  let a := q.addr.toNat
  let n := hostLen q
  let store := q.ht.toNat == 2
  let words := data.filterMap writtenWord
  let st := s.runtimeStatus a n
  if st = stNoTarget then s.refuseHost i q st
  else if store && words.length < data.length then s.refuseHost i q stDataUE
  else if st ≠ stOk then (s.noteDown st a n).refuseHost i q st
  else s.startAcc (i - 12) (.host i q) a n (if store then some words else none)

/-- The sectors that a read has found damaged. -/
def MemAccess.bad (x : MemAccess) : List Nat := (x.got.filter (fun e => (decodeSector e.2).1.damaged)).map (·.1)

/-- The lowest of them. -/
def MemAccess.firstBad (x : MemAccess) : Option Nat :=
  (sectorsOf x.addr x.len).find? (fun a => x.bad.contains a)

/-- The bytes that a read has found. -/
def MemAccess.bytes (x : MemAccess) : List Byte :=
  slice ((sectorsOf x.addr x.len).flatMap (fun a => (decodeSector (mapGet poisonWord x.got a)).2)) (x.addr % 32) x.len

/-- The data code words of a read: packed from byte 0, the last padded; one that holds a byte of a damaged sector is
poisoned (12 R347, R350). -/
def MemAccess.readWords (x : MemAccess) : List (List Byte) :=
  (List.range ((x.len + 31) / 32)).map (fun j =>
    if (sectorsOf (x.addr + 32 * j) (min 32 (x.len - 32 * j))).any (fun a => x.bad.contains a) then poisonWord
    else codeWord (slice x.bytes (32 * j) 32))

/-- The completion of a host's access (12 R350, R351). -/
def State.hostDone (s : State) (x : MemAccess) (i : Nat) (q : HostHead) : State :=
  if x.status ≠ stOk then (s.noteDown x.status x.addr x.len).refuseHost i q x.status
  else match x.words, x.firstBad with
    | none, none => s.complete i q stOk false x.len 0 0 x.readWords
    | none, some e => s.complete i q stDataUE true x.len e 0 x.readWords
    | some _, _ => s.complete i q stOk false 0 0 0 []

/-! ## Soft resets of the FPRT, HPRT and HBRG pages (02 R43, 12 R489) -/

/-- A soft reset of the page of a port: the port goes down, its registers return, its next exchange counts as its first;
a port that is then enabled and on trains again. -/
def State.portSoft (s : State) (i : Nat) : State :=
  let s1 := ((s.disablePort i).setPort i Port.init).softPage (portPage i)
  if s1.flag (portPage i) PAGE_CTRL.EN && s1.portPower i == 0 then s1.enablePort i else s1

/-- A soft reset of the HBRG page clears its counters and nothing else of the bridge. -/
def State.hbrgSoft (s : State) : State := s.softPage pgHbrg

/-! ## Enabling a window (12 R356) -/

/-- Whether a range is memory that is not a hole, asleep or not. -/
def State.isMemory (s : State) (a n : Nat) : Bool := s.rangeStatus a n != stNoTarget

/-- Whether a range lies in one summit region or one stack. -/
def oneUnit (a n : Nat) : Bool :=
  match targetOf a, targetOf (a + n - 1) with
  | .edge k _, .edge j _ => k == j
  | .summit b r _, .summit c q _ => b == c && r == q
  | _, _ => false

/-- The first condition that an enable of window `w` fails, 0 where all hold. -/
def State.winCheck (s : State) (w : Nat) : Nat :=
  let p := pgSubw w
  let size := s.get p SUBW_CFG.SIZE
  let cq := s.get p SUBW_CFG.CQSIZE
  let a := s.winBase w
  let n := s.winBytes w
  let loc := s.get p SUBW_CFG.CQLOC
  let busy := s.winPending w != 0 || !(s.win w).flight.isEmpty
  if size < 4 ∨ 10 < size ∨ cq < 4 ∨ 12 < cq then 1
  else if !oneUnit a n || !s.isMemory a n || a % n != 0 then 2
  else if (s.winsTouched a n).any (· != w) then 3
  else if s.cqBase w % 4096 ≠ 0 ∨ (loc = 1 ∧ !s.isMemory (s.cqBase w) (32 * s.cqSize w)) then 4
  else if !s.flag (portPage (s.winPort w)) PAGE_CTRL.EN then 5
  else if busy then 6
  else 0

/-- The written flags and counts of a window at zero, the ring empty with `PHASE` 1. -/
def State.winClear (s : State) (w : Nat) : State :=
  let p := pgSubw w
  (((((s.setWin w { s.win w with flags := [] }).put p SUBW_PTR.TAIL 0).put p SUBW_PTR.CONS 0).put p
    SUBW_CQ_HEAD.COUNT 0).put p SUBW_CQ_TAIL.COUNT 0).put p SUBW_CQ_TAIL.PHASE 1

/-- The records of a window that wait for the port belong to the ring as it stood (12 R356). -/
def State.winDetach (s : State) (w : Nat) : State :=
  { s with bridge := { s.bridge with devWait := s.bridge.devWait.map (fun d =>
      { d with record := d.record.map (fun r => if r.win = w then { r with live := false } else r) }) } }

/-- A write of 1 to `PAGE_CTRL.EN` of a SUBW page. -/
def State.winEnable (s : State) (w : Nat) : State :=
  if s.winEnabled w then s
  else
    let e := s.winCheck w
    let s1 := s.put (pgSubw w) SUBW_STAT.CFG_ERR e
    if e ≠ 0 then s1 else ((s1.winDetach w).winClear w).putFlag (pgSubw w) PAGE_CTRL.EN true

/-- A write of 0: the range is ordinary memory; what is pending still runs (12 R357). -/
def State.winDisable (s : State) (w : Nat) : State := s.putFlag (pgSubw w) PAGE_CTRL.EN false

/-- Whether the configuration of a window may be written (12 R356). -/
def State.winWritable (s : State) (w : Nat) : Bool :=
  !s.winEnabled w && s.winPending w == 0 && (s.win w).flight.isEmpty

/-- A soft reset of a SUBW page: pending commands are discarded, accepted ones run on without records (12 R361). -/
def State.winSoft (s : State) (w : Nat) : State :=
  let flight := (s.win w).flight.map (fun f => { f with discard := true })
  let s1 := s.setWin w { flags := [], flight := flight }
  let s2 := { s1 with bridge := { s1.bridge with devWait := s1.bridge.devWait.filter (fun d =>
    match d.record with
    | some r => r.win != w
    | none => true) } }
  ((s2.softPage (pgSubw w)).winClear w).put (pgSubw w) SUBW_STAT.INFLIGHT flight.length

/-- A write of `SUBW_CQ_HEAD`: ignored where it goes backwards or past the tail (12 R360). -/
def State.cqHead (s : State) (w v : Nat) : State :=
  let p := pgSubw w
  let head := s.get p SUBW_CQ_HEAD.COUNT
  let tail := s.get p SUBW_CQ_TAIL.COUNT
  if (v + 65536 - head) % 65536 ≤ (tail + 65536 - head) % 65536 then s.put p SUBW_CQ_HEAD.COUNT v else s

/-! ## DMA channels: queues and completions (12 R362, R365, R367) -/

def State.dma (s : State) (d : Nat) : Dma := mapGet Dma.init s.dmas d

def State.setDma (s : State) (d : Nat) (x : Dma) : State :=
  (({ s with dmas := mapSet Dma.init s.dmas d x }).put (pgDma d) DMA_STAT.QUEUED x.queue.length).putFlag (pgDma d)
    DMA_STAT.BUSY x.run.isSome

/-- Whether a channel takes descriptors (12 R358). -/
def State.dmaOn (s : State) (d : Nat) : Bool :=
  s.flag (pgDma d) PAGE_CTRL.EN && !s.flag (pgDma d) PAGE_STAT.SRST_BUSY

/-- A descriptor of a channel completes: `LAST`, the count, and the record. -/
def State.dmaComplete (s : State) (d : Nat) (j : DmaJob) (status bytes eaddr : Nat) : State :=
  ((s.put (pgDma d) DMA_STAT.LAST status).count (pgDma d) DMA_DONE.COUNT 1).completeCmd j.win j.count status bytes 0
    eaddr false

/-- Every descriptor that waits in the queue completes HALTED (12 R365, R367). -/
def State.dmaFlush (s : State) (d : Nat) : State :=
  let x := s.dma d
  let n := if x.run.isSome then 1 else 0
  (x.queue.drop n).foldl (fun s j => s.dmaComplete d j stHalted 0 0) (s.setDma d { x with queue := x.queue.take n })

/-- `DMA_CTL.RESUME` (12 R365). -/
def State.dmaResume (s : State) (d : Nat) : State := s.put (pgDma d) DMA_STAT.HALT 0

/-- What a soft reset does once no piece is under way (12 R367). -/
def State.dmaClear (s : State) (d : Nat) : State :=
  let s1 := s.dmaFlush d
  let last := s1.get (pgDma d) DMA_STAT.LAST
  ((s1.softPage (pgDma d)).put (pgDma d) DMA_STAT.LAST last).setDma d Dma.init

/-- A soft reset of a DMA page: the channel stops at the boundary of the piece under way. -/
def State.dmaSoft (s : State) (d : Nat) : State :=
  if (s.dma d).run.isSome then s.setDma d { s.dma d with stop := true } else s.dmaClear d

/-- The executing descriptor ends, and with it a soft reset that waits for it. -/
def State.dmaEnd (s : State) (d status eaddr : Nat) : State :=
  let x := s.dma d
  match x.queue, x.run with
  | j :: rest, some r =>
    let s1 := (s.setDma d { x with queue := rest, run := none }).dmaComplete d j status r.moved eaddr
    if x.stop then (s1.dmaClear d).putFlag (pgDma d) PAGE_STAT.SRST_BUSY false else s1
  | _, _ => s

/-- A damaged source halts the channel (12 R365). -/
def State.dmaHalted (s : State) (d eaddr : Nat) : State :=
  ((((s.put (pgDma d) DMA_STAT.HALT 1).put (pgDma d) DMA_ERR_ADDR_LO.ADDR (eaddr / 32)).put (pgDma d)
    DMA_ERR_ADDR_HI.ADDR (eaddr / 2 ^ 32)).report (pgDma d) .u 0x03 stDataUE 0 0).dmaEnd d stDataUE eaddr

/-- The port that a channel names. -/
def State.dmaPort (s : State) (d : Nat) : Nat := 12 + s.get (pgDma d) DMA_CFG.PORT

/-- The fields of a DMA body: `DOP`, `LEN`, `SRC`, `DST`. -/
def dmaOp (b : List Byte) : Nat := field b 0 1
def dmaLen (b : List Byte) : Nat := field b 4 4
def dmaSrc (b : List Byte) : Nat := field b 8 8
def dmaDst (b : List Byte) : Nat := field b 16 8

def devSource (b : List Byte) : Bool := dmaOp b == 1 || dmaOp b == 3
def devDest (b : List Byte) : Bool := dmaOp b == 1 || dmaOp b == 2

/-- The checks before a descriptor moves data (12 R363): the first that fails gives its status. -/
def State.dmaCheck (s : State) (d : Nat) (b : List Byte) : Nat :=
  let n := dmaLen b
  if dmaOp b = 0 ∨ 3 < dmaOp b ∨ 32 ≤ field b 1 1 ∨ field b 2 2 ≠ 0 ∨ field b 24 8 ≠ 0 ∨ n = 0
      ∨ (devSource b ∧ 2 ^ 48 ≤ dmaSrc b) ∨ (devDest b ∧ 2 ^ 48 ≤ dmaDst b) then stBadCmd
  else if devDest b ∧ (dmaDst b % 32 ≠ 0 ∨ n % 32 ≠ 0) then stBadSize
  else if (devSource b ∧ s.rangeStatus (dmaSrc b) n = stNoTarget) ∨ (devDest b ∧ s.rangeStatus (dmaDst b) n = stNoTarget)
    then stNoTarget
  else if dmaOp b ≠ 1 ∧ !s.flag (portPage (s.dmaPort d)) PAGE_CTRL.EN then stHostErr
  else stOk

/-- The body of the executing descriptor. -/
def Dma.body (x : Dma) : List Byte := leBytes 32 ((x.queue.head?.map (·.body)).getD 0)

/-- A request of a channel to host memory (12 R353, R364): it waits for its port, behind what waits there. -/
def State.dmaAsk (s : State) (d ht addr n : Nat) (data : List Byte) : State :=
  let i := s.dmaPort d
  let t := s.devTag i (.dma d)
  t.2.sendOrWait { port := i, words := headWord ht 0 0 t.1 addr (n - 1) 0 0 :: codeWords data, record := none,
                   req := some (t.1, .dma d) }

/-- A piece goes to device memory as an access of the channel, unless its target refuses it. -/
def State.dmaAccess (s : State) (d a n : Nat) (words : Option (List (List Byte))) : State :=
  let st := s.runtimeStatus a n
  if st ≠ stOk then (s.noteDown st a n).dmaEnd d st 0 else s.startAcc (reqDma + d) (.dma d) a n words

/-- The next request of the piece under way (12 R364): its source while bytes are missing, a host source with one request on
each side of a 4 KiB boundary; then its destination. -/
def State.dmaGo (s : State) (d : Nat) : State :=
  let x := s.dma d
  match x.run with
  | none => s
  | some r =>
    let b := x.body
    let src := dmaSrc b + r.moved + r.data.length
    let dst := dmaDst b + r.moved
    if r.data.length < r.piece then
      if devSource b then s.dmaAccess d src r.piece none
      else
        let n := min (r.piece - r.data.length) (4096 - src % 4096)
        s.dmaAsk d 0x11 src n []
    else
      let s1 := s.setDma d { x with run := some { r with storing := true } }
      if devDest b then s1.dmaAccess d dst r.piece (some (codeWords r.data)) else s1.dmaAsk d 0x12 dst r.piece r.data

/-- The length of the piece at a count of bytes moved: up to a 4 KiB boundary of the destination, and to the data length of
the channel's port (12 R364). -/
def State.dmaPiece (s : State) (d : Nat) (b : List Byte) (moved : Nat) : Nat :=
  let big := if dmaOp b = 1 then 4096 else s.maxData (s.dmaPort d)
  min (dmaLen b - moved) (min big (4096 - (dmaDst b + moved) % 4096))

/-- The executing descriptor at a piece boundary: done, stopped by a soft reset, or its next piece. -/
def State.dmaNext (s : State) (d moved : Nat) : State :=
  let x := s.dma d
  let n := s.dmaPiece d x.body moved
  let s1 := s.setDma d { x with run := some { moved := moved, piece := n, data := [], storing := false } }
  if dmaLen x.body ≤ moved then s1.dmaEnd d stOk 0
  else if x.stop then s1.dmaEnd d stHalted 0
  else s1.dmaGo d

/-- Source bytes of the piece under way have come. -/
def State.dmaGot (s : State) (d : Nat) (data : List Byte) : State :=
  match (s.dma d).run with
  | some r => (s.setDma d { s.dma d with run := some { r with data := r.data ++ data } }).dmaGo d
  | none => s

/-- The piece under way is written. -/
def State.dmaPut (s : State) (d : Nat) : State :=
  match (s.dma d).run with
  | some r => s.dmaNext d (r.moved + r.piece)
  | none => s

/-- The end of an access of a channel. -/
def State.dmaDone (s : State) (x : MemAccess) (d : Nat) : State :=
  if x.status ≠ stOk then (s.noteDown x.status x.addr x.len).dmaEnd d x.status 0
  else match x.words, x.firstBad with
    | none, none => s.dmaGot d x.bytes
    | none, some e => s.dmaHalted d e
    | some _, _ => s.dmaPut d

/-- The host's answer to a request of a channel (12 R353, R365): HOST_ERR with a status that is not zero; a poisoned or
damaged answer to a read halts the channel, with no address. Bytes that an answer lacks are free. -/
def State.dmaAnswer (s : State) (d : Nat) (q : HostHead) (data : List (List Byte)) : State :=
  match (s.dma d).run with
  | none => s
  | some r =>
    if q.status ≠ 0 then s.dmaEnd d stHostErr 0
    else if r.storing then s.dmaPut d
    else if bit q.flags.toNat 1 || data.any (fun w => (decodeSector w).1.damaged) then s.dmaHalted d 0
    else
      let b := (s.dma d).body
      let src := dmaSrc b + r.moved + r.data.length
      let n := min (r.piece - r.data.length) (4096 - src % 4096)
      let l := (data.flatMap (fun w => (decodeSector w).2)).take n
      let f := s.freeBytes (n - l.length)
      f.2.dmaGot d (l ++ f.1)

/-- `DMA_DESCRIPTOR`: the channel starts the descriptor at the head of its queue, unless one executes, or the channel is
halted or in soft reset. -/
def State.dmaDescriptor (s : State) (d : Nat) : State :=
  let x := s.dma d
  match x.queue with
  | [] => s
  | _ :: _ =>
    if x.run.isSome || s.flag (pgDma d) DMA_STAT.HALT || s.flag (pgDma d) PAGE_STAT.SRST_BUSY then s
    else
      let st := s.dmaCheck d x.body
      if st ≠ stOk then
        (s.setDma d { x with run := some { moved := 0, piece := 0, data := [], storing := false } }).dmaEnd d st 0
      else s.dmaNext d 0

/-! ## Device requests and packets (12 R348, R353) -/

/-- A device request ends without an answer of the host; a packet of it that still waits goes with it. -/
def State.dropRequest (s : State) (i tag : Nat) : State :=
  { s with bridge := { s.bridge with
      devReqs := s.bridge.devReqs.filter (fun e => !(e.1 == i && e.2.1 == tag)),
      devWait := s.bridge.devWait.filter (fun d => !(d.port == i && d.req.any (fun r => r.1 == tag))) } }

/-- What a device request was for, if it is outstanding. -/
def State.requestOf (s : State) (i tag : Nat) : Option DevUse :=
  (s.bridge.devReqs.find? (fun e => e.1 == i && e.2.1 == tag)).map (·.2.2)

/-- A completion from the host: the device request it names ends; one that names none is dropped and counted. -/
def State.hostCompletion (s : State) (i : Nat) (q : HostHead) (data : List (List Byte)) : State :=
  match s.requestOf i q.tag.toNat with
  | none => s.count (portPage i) HPRT_DROP.COUNT 1
  | some use =>
    let s1 := s.dropRequest i q.tag.toNat
    match use with
    | .record => s1
    | .dma d => s1.dmaAnswer d q data

/-- A device request that ends as HOST_ERR (12 R353): with a channel's request its descriptor, with a record's write only
itself. -/
def State.requestLost (s : State) (i tag : Nat) : State :=
  match s.requestOf i tag with
  | some (.dma d) => (s.dropRequest i tag).dmaEnd d stHostErr 0
  | _ => s.dropRequest i tag

/-- Whether an access or a waiting request is the host's with a tag on a port. -/
def MemAccess.isHost (x : MemAccess) (i tag : Nat) : Bool :=
  match x.use with
  | .host j q => j == i && q.tag.toNat == tag
  | _ => false

/-- A host request that has waited 2 ms completes LOST (12 R353): one that waits is not served, and of an access under way
the later answer is discarded. -/
def State.hostTimeout (s : State) (i tag : Nat) : State :=
  let lost (s : State) (q : HostHead) : State := (s.count (portPage i) HPRT_LOST.COUNT 1).refuseHost i q stLost
  match s.bridge.accs.find? (fun x => x.isHost i tag) with
  | some x =>
    let s1 := s.modAcc x.id (fun x => { x with use := .nobody })
    match x.use with
    | .host _ q => lost s1 q
    | _ => s1
  | none =>
    match s.bridge.hostReqs.find? (fun r => r.port == i && r.head.tag.toNat == tag) with
    | none => s
    | some r =>
      lost { s with bridge := { s.bridge with
        hostReqs := s.bridge.hostReqs.eraseP (fun r => r.port == i && r.head.tag.toNat == tag) } } r.head

/-- The oldest packet that waits for a port outside UP and LOWPOWER is dropped after 2 ms (12 R353, R488): a record's
reserved place goes with it (12 R361), and a device request ends as HOST_ERR. -/
def State.packetTimeout (s : State) (i : Nat) : State :=
  if s.portOpen i then s
  else match s.bridge.devWait.find? (fun d => d.port == i) with
    | none => s
    | some d =>
      let s1 := { s with bridge := { s.bridge with devWait := s.bridge.devWait.eraseP (fun d => d.port == i) } }
      let s2 := s1.count (portPage i) HPRT_DROP.COUNT 1
      let s3 := if d.record.isSome then s2.count pgHbrg HBRG_CPL_DROP.COUNT 1 else s2
      match d.req with
      | some r => s3.requestLost i r.1
      | none => s3

/-! ## The end of accesses (04 R114, 14 R397) -/

/-- The status with which a target ends an access under way: a sector still to move may have become a hole, or part of a die
or a domain that refuses it. -/
def State.accStatus (s : State) (x : MemAccess) : Nat :=
  match x.todo.find? (fun a => x.covers a && (s.rangeStatus a 32 != stOk || s.rangeRefused a 32)) with
  | some a => if s.rangeStatus a 32 ≠ stOk then s.rangeStatus a 32 else stDestDown
  | none => stOk

/-- The sectors of an access that lie in no calendared resource, tile SRAM, move once their tile is on. -/
def State.moveSram (s : State) (x : MemAccess) : State :=
  let st := s.accStatus x
  if st ≠ stOk then s.modAcc x.id (·.fail st)
  else (x.todo.filter (fun a => (resOfSector a).isNone && !s.asleep a 32)).foldl (fun s a =>
    match s.bridge.accs.find? (fun y => y.id == x.id) with
    | some y => s.moveAcc y a .stack
    | none => s) s

/-- An access of which nothing is left ends. -/
def State.accDone (s : State) (x : MemAccess) : State :=
  match x.use with
  | .host i q => s.hostDone x i q
  | .dma d => s.dmaDone x d
  | .row w c status tag => s.completeCmd w c (if x.status ≠ stOk then x.status else status) tag 0 0 false
  | .nobody => s

/-- Every access as far as it goes without a slot: SRAM moves, and those with nothing left end, in order. -/
def State.settleAccs (s : State) : State :=
  let s1 := s.accsMoving.foldl State.moveSram s
  let isOver (x : MemAccess) : Bool := x.todo.isEmpty && x.up.isEmpty
  let ended := s1.bridge.accs.filter isOver
  ended.foldl State.accDone { s1 with bridge := { s1.bridge with accs := s1.bridge.accs.filter (fun x => !isOver x) } }

/-! ## Accepting commands (12 R354, R358, R359) -/

/-- Whether the bridge accepts commands: from READY on (16), and not while a package reset is requested (13 R387) or the
coolant has stopped (15). -/
def State.bridgeOpen (s : State) : Bool :=
  s.get pgBoot BOOT_STAT.READY == 1 && s.get pgMgmt MGMT_RSTREQ.REQ == 0 && s.get pgThrm THRM_STAT.COOL != 3

/-- A window takes the command at `CONS` (12 R358): it is in flight, `CONS` passes it, and it counts as accepted. -/
def State.takeCommand (s : State) (w : Nat) (g : InFlight) : State :=
  let s1 := (s.setWin w { s.win w with flight := (s.win w).flight ++ [g] }).put (pgSubw w) SUBW_PTR.CONS (s.winCons w + 1)
  let s2 := (s1.put (pgSubw w) SUBW_STAT.INFLIGHT (s1.win w).flight.length).count pgHbrg HBRG_ACCEPTED.COUNT 1
  { s2 with bridge := { s2.bridge with lastWin := w, accepted := s2.bridge.accepted + 1 } }

/-- The command of a slot with the head `b` as the list of commands in flight holds it. -/
def State.slotCommand (s : State) (w : Nat) (b : List Byte) : InFlight :=
  { count := s.winCons w, order := s.bridge.accepted, cls := field b 0 1, tag := field b 4 4,
    body := leNat (slice b 32 32), noRecord := bit (field b 1 1) 1, discard := false }

/-- A DMA descriptor accepted (12 R358, R362): none while the channel's queue is full. -/
def State.acceptDma (s : State) (w d : Nat) (f : InFlight) : Option State :=
  if !s.dmaOn d then some ((s.takeCommand w f).completeCmd w f.count stDisabled 0 0 0 false)
  else if 32 ≤ (s.dma d).queue.length then none
  else some ((s.takeCommand w f).setDma d { s.dma d with
    queue := (s.dma d).queue ++ [{ win := w, count := f.count, body := f.body }] })

/-- A row-engine command accepted (05 R142, 12 R358): none while the engine's queue is full. -/
def State.acceptRow (s : State) (w : Nat) (body : List Byte) (f : InFlight) : Option State :=
  let c := rowOfBytes body (.window w (s.winCons w))
  let rs := s.rowStatus body none
  if rs ≠ stOk then some ((s.takeCommand w f).rowRefuse c none rs)
  else match s.engineAt c.dst with
    | none => some ((s.takeCommand w f).rowRefuse c none stNoTarget)
    | some e =>
      let port := enginePort e
      let s1 := s.takeCommand w f
      if !(s.calOf port).has ownOPEN || !s.dropOpen c.dst then some (s1.rowReply c stNoSlot)
      else if engineDepth e ≤ (s.engineQ e).length + (s.resAt port).openQ.length then none
      else some (s1.portWait port (s.winPort w - 12) c)

/-- What the acceptance of the slot `b` of a window does, or `none` where it cannot be accepted now (12 R358, R359). -/
def State.acceptSlot (s : State) (w : Nat) (damaged : Bool) (b : List Byte) : Option State :=
  let room := s.cqTaken w < s.cqSize w
  let f := s.slotCommand w b
  if damaged then
    if room then
      some ((s.takeCommand w { f with tag := 0, noRecord := false }).completeCmd w f.count stDescUE 0 0 0 false)
    else none
  else if (!f.noRecord && !room) || (bit (field b 1 1) 0 && !(s.win w).flight.isEmpty) then none
  else if 5 < f.cls || 4 ≤ field b 1 1 || field b 2 2 != 0 || field b 8 24 != 0 then
    some ((s.takeCommand w f).completeCmd w f.count stBadCmd 0 0 0 false)
  else if f.cls = 1 then s.acceptDma w (field b 33 1 % 32) f
  else if f.cls = 2 then s.acceptRow w (slice b 32 32) f
  else some (s.takeCommand w f)

/-- The command at `CONS` of a window: what the acceptance of it does, or `none` where it cannot be accepted now. -/
def State.tryAccept (s : State) (w : Nat) : Option State :=
  let a := s.winBase w + 64 * (s.winCons w % s.winSlots w)
  if s.winPending w = 0 ∨ s.asleep a 64 then none
  else
    let r := s.readMem srcRuntime a 64
    r.1.acceptSlot w r.2.2.1 r.2.1

/-- `COMMAND_ACCEPT`: the windows in ascending order after the last one served; the first that can be accepted is. A
window disabled with commands pending is visited as well (12 R357). -/
def State.commandAccept (s : State) : State :=
  if !s.bridgeOpen then s
  else ((List.range 64).findSome? (fun k => s.tryAccept ((s.bridge.lastWin + 1 + k) % 64))).getD s

/-- `NOP_COMMAND` (12 R355): a NOP with a body that is not zero is BAD_CMD. -/
def State.nopRun (s : State) (w c : Nat) : State :=
  match s.inFlight w c with
  | none => s
  | some f => if f.cls ≠ 0 then s else s.completeCmd w c (if f.body = 0 then stOk else stBadCmd) 0 0 0 false

/-! ## The meanings of the commands -/

/-- `DEVICE_REQUEST_TIMEOUT` (12 R353). -/
def execDeviceRequestTimeout (h : HPort) (tag : Word) (s : State) : Host.Outcome State Fault Refusal :=
  .next (s.requestLost (12 + h) tag.toNat)

/-- `DEVICE_PACKET_PORT_TIMEOUT` (12 R353, R488). -/
def execDevicePacketPortTimeout (h : HPort) (s : State) : Host.Outcome State Fault Refusal :=
  .next (s.packetTimeout (12 + h))

/-- `SUBW_ENABLE` (12 R356). -/
def execSubwEnable (w : Sys2Proof.Win) (s : State) : Host.Outcome State Fault Refusal := .next (s.winEnable w)

/-- `SUBW_DISABLE` (12 R357). -/
def execSubwDisable (w : Sys2Proof.Win) (s : State) : Host.Outcome State Fault Refusal := .next (s.winDisable w)

/-- `SUBW_CQ_HEAD_WRITE` (12 R360). -/
def execSubwCqHeadWrite (w : Sys2Proof.Win) (v : Word) (s : State) : Host.Outcome State Fault Refusal :=
  .next (s.cqHead w (v.toNat % 65536))

/-- `COMMAND_ACCEPT` (12 R358); it reads the windows and the bridge queues of B0 (13 R385). -/
def execCommandAccept (s : State) : Host.Outcome State Fault Refusal :=
  .next (s.meetCopies (fun e => e != .ropes && e != .bringUp)).commandAccept

/-- `NOP_COMMAND` (12 R355). -/
def execNopCommand (w : Sys2Proof.Win) (c : BitVec 16) (s : State) : Host.Outcome State Fault Refusal := .next (s.nopRun w c.toNat)

/-- `DMA_RESUME` (12 R365). -/
def execDmaResume (d : Chan) (s : State) : Host.Outcome State Fault Refusal := .next (s.dmaResume d)

/-- `DMA_FLUSH` (12 R365). -/
def execDmaFlush (d : Chan) (s : State) : Host.Outcome State Fault Refusal := .next (s.dmaFlush d)

end Sys2Proof.Machine
end

