-- ==== Sys2Proof/Machine/Ropes.lean ====
section
/-! DEFINITION. Ropes and KV pages (08): layouts, pools and frames, the page table and page lists, rope commands, KV
writes, tiering, and taint notices (13 R372). -/

namespace Sys2Proof.Machine

/-! ## The device's own tables in edge memory -/

/-- `n` bytes at `a` as the device reads its own tables: bytes of a damaged sector are free (assumption log 3). -/
def State.metaBytes (s : State) (a n : Nat) : List Byte :=
  slice ((sectorsOf a n).flatMap (fun x =>
    let d := s.sector x
    if d.1.damaged then (List.range 32).map (fun i => Config.damagedByte (x + i) s.fresh) else slice d.2 0 32)) (a % 32) n

/-- The device looks at sectors of its own tables: their errors count (06 R175). -/
def State.meetTable (s : State) (l : List Nat) : State := s.reportAll s.errPage srcRuntime l

/-- Whole sectors written by the device itself, under the rules of the windows they touch (12 R357): refused whole, or
stored. -/
def State.deviceWrite (s : State) (a : Nat) (l : List (List Byte)) : State := (s.guardedWrite stBadCmd a l).1

/-- The same for bytes, a whole number of sectors. -/
def State.deviceBytes (s : State) (a : Nat) (d : List Byte) : State := s.deviceWrite a (codeWords d)

/-- The same for zeros. -/
def State.deviceZero (s : State) (a n : Nat) : State :=
  if (s.winsTouched a n).isEmpty then s.zeroRange a n
  else s.deviceWrite a (List.replicate (n / 32) (codeWord (List.replicate 32 0)))

/-- Bytes written into the device's own tables: each sector touched in part is read, counted and rewritten whole. -/
def State.metaWrite (s : State) (a : Nat) (d : List Byte) : State :=
  let l := sectorsOf a d.length
  let inside (x i : Nat) : Bool := a ≤ x + i && x + i < a + d.length
  let new (x : Nat) : List Byte :=
    let old := s.metaBytes x 32
    (List.range 32).map (fun i => if inside x i then d.getD (x + i - a) 0 else old.getD i 0)
  (s.meetTable (l.filter (fun x => !(List.range 32).all (inside x)))).deviceWrite (32 * (a / 32))
    (l.map (fun x => codeWord (new x)))

/-! ## Layouts (08 R224 to R227) -/

/-- A KV layout: layers L, KV heads H, heads per page, whether elements are MXFP4, and the dies as a mask. -/
structure Lay where
  layers : Nat
  heads : Nat
  hpg : Nat
  fp4 : Bool
  dies : Nat
  deriving DecidableEq, Repr

/-- A layout from the value of its `ROPE_LAY_CFG` (08 R258). -/
def layOf (v : Nat) : Lay :=
  { layers := bits v 7 0 + 1, heads := bits v 13 8 + 1, hpg := 2 ^ bits v 15 14, fp4 := bit v 28, dies := bits v 27 16 }

/-- The layout in model slot `m`. -/
def State.lay (s : State) (m : Nat) : Lay :=
  { layers := s.get pgRope (ROPE_LAY_CFG.LAYERS.at m) + 1, heads := s.get pgRope (ROPE_LAY_CFG.HEADS.at m) + 1,
    hpg := 2 ^ s.get pgRope (ROPE_LAY_CFG.HPG.at m), fp4 := s.flag pgRope (ROPE_LAY_CFG.FMT.at m),
    dies := s.get pgRope (ROPE_LAY_CFG.DIES.at m) }

def State.layValid (s : State) (m : Nat) : Bool := s.flag pgRope (ROPE_LAY_CFG.VALID.at m)

/-- G, the groups of a layer. -/
def Lay.groups (l : Lay) : Nat := l.heads / l.hpg

/-- P, the pairs of a block. -/
def Lay.pairs (l : Lay) : Nat := l.layers * l.groups

/-- E, the bytes of one head vector. -/
def Lay.elem (l : Lay) : Nat := if l.fp4 then 64 else 128

/-- S, the bytes of a scale record. -/
def Lay.scaleRec (l : Lay) : Nat := max 32 (8 * l.hpg)

/-- The offset in a page of the scale record of a slot, the head vectors before it (08 R226). -/
def Lay.scaleAt (l : Lay) (tau : Nat) : Nat := 2 * l.hpg * 64 * l.elem + tau * l.scaleRec
def Lay.keyAt (l : Lay) (j tau : Nat) : Nat := (64 * j + tau) * l.elem
def Lay.valueAt (l : Lay) (j tau : Nat) : Nat := l.hpg * 64 * l.elem + (64 * j + tau) * l.elem

/-- Rows of a page (08 R227). -/
def Lay.rows (l : Lay) : Nat := (l.scaleAt 64 + 2047) / 2048

/-- The dies of a layout in ascending order, and the die of a pair (08 R224). -/
def Lay.dieList (l : Lay) : List Nat := (List.range 12).filter (bit l.dies)
def Lay.dieOf (l : Lay) (i : Nat) : Nat := l.dieList.getD (i % l.dieList.length) 0

/-- Feature bits (17 R461). -/
def featKvFp4 : Nat := 1
def featCairn : Nat := 2

/-! ## The rope table (08 R239, R240) -/

def State.rope (s : State) (r : Nat) : Rope := mapGet Rope.init s.ropes r
def State.setRope (s : State) (r : Nat) (x : Rope) : State := { s with ropes := mapSet Rope.init s.ropes r x }
def State.modRope (s : State) (r : Nat) (f : Rope → Rope) : State := s.setRope r (f (s.rope r))

def ropeFree : Nat := 0
def ropeIsOpen : Nat := 1

def State.ropeOpenAt (s : State) (r : Nat) : Bool := (s.rope r).state == ropeIsOpen

/-- Whether every rope is FREE. -/
def State.allRopesFree (s : State) : Bool := s.ropes.all (fun e => e.2.state == ropeFree)

/-- Whether a rope that is not FREE names a model slot (08 R225). -/
def State.slotNamed (s : State) (m : Nat) : Bool := s.ropes.any (fun e => e.2.state != ropeFree && e.2.mslot == m)

/-- `ROPE_CFG.ON`, and the value of `ROPE_EPOCH`. -/
def State.ropesOn (s : State) : Bool := s.flag pgRope ROPE_CFG.ON
def State.epoch (s : State) : Nat := s.get pgRope ROPE_EPOCH.COUNT

/-! ## Layout writes (08 R225) -/

/-- The first condition that a layout with `VALID` 1 fails, 0 where all hold. -/
def State.layCheck (s : State) (l : Lay) : Nat :=
  if l.heads % l.hpg ≠ 0 ∨ 512 < l.pairs then 1
  else if s.get pgRope ROPE_CFG.FRAME_ROWS < l.rows then 2
  else if l.fp4 && !s.licensed featKvFp4 then 3
  else if l.dies = 0 ∨ l.dieList.any (fun n => !s.dieInService n || !(List.range 128).any (fun k => s.assigned (128 * n + k)))
    then 5
  else 0

/-- A write of `ROPE_LAY_CFG[m]`: ignored while a rope names the slot, or where `VALID` 1 finds a condition that fails. -/
def State.writeLayout (s : State) (m v : Nat) : State :=
  let refuse (e : Nat) : State := s.put pgRope ROPE_STAT.LAY_ERR e
  if s.slotNamed m then refuse 4
  else
    let e := if bit v 31 then s.layCheck (layOf v) else 0
    if e ≠ 0 then refuse e
    else
      (((((s.put pgRope (ROPE_LAY_CFG.VALID.at m) (bits v 31 31)).put pgRope (ROPE_LAY_CFG.FMT.at m) (bits v 28 28)).put
        pgRope (ROPE_LAY_CFG.DIES.at m) (bits v 27 16)).put pgRope (ROPE_LAY_CFG.HPG.at m) (bits v 15 14)).put pgRope
        (ROPE_LAY_CFG.HEADS.at m) (bits v 13 8)).put pgRope (ROPE_LAY_CFG.LAYERS.at m) (bits v 7 0)

/-- A write of `ROPE_LAY_TAG[m]`: ignored while a rope names the slot (08 R225). -/
def State.writeLayTag (s : State) (m v : Nat) : State :=
  if s.slotNamed m then s.put pgRope ROPE_STAT.LAY_ERR 4 else s.put pgRope (ROPE_LAY_TAG.TAG.at m) v

/-! ## Pools and frames (08 R229 to R233) -/

/-- F, and the frames of a slice and of a stack. -/
def State.frameRows (s : State) : Nat := s.get pgRope ROPE_CFG.FRAME_ROWS
def State.nearPer (s : State) : Nat := s.get pgRope ROPE_NPOOL_ROWS.ROWS / s.frameRows
def State.edgePer (s : State) : Nat := 1024 * (s.get pgRope ROPE_EPOOL.LEN + 1) / s.frameRows

/-- Handles (08 R230). -/
def nearHandle (l i : Nat) : Nat := 2 ^ 31 + 2 ^ 27 * (l / 128) + 2 ^ 20 * (l % 128) + i
def edgeHandle (k i : Nat) : Nat := 2 ^ 28 * k + i
def handleNear (h : Nat) : Bool := bit h 31
/-- The logical tile of a near handle, the stack of an edge handle, and the frame number. -/
def handleTile (h : Nat) : Nat := 128 * bits h 30 27 + bits h 26 20
def handleStack (h : Nat) : Nat := bits h 30 28
def handleIdx (h : Nat) : Nat := if handleNear h then bits h 19 0 else bits h 27 0

/-- The first row index of a frame within its slice or stack (08 R229). -/
def State.frameRow (s : State) (h : Nat) : Nat :=
  if handleNear h then s.get pgRope ROPE_NPOOL_OFF.ROWS + handleIdx h * s.frameRows
  else 1024 * s.get pgRope ROPE_EPOOL.OFF + handleIdx h * s.frameRows

/-- The package address of a frame. -/
def State.frameAddr (s : State) (h : Nat) : Nat :=
  (if handleNear h then nearBase (handleTile h) else edgeBase (handleStack h)) + 2048 * s.frameRow h

/-- The class of a frame (08 R248): a die and quarter or a stack, and the row index modulo 8 or 32. -/
def State.frameClass (s : State) (h : Nat) : Nat × Nat × Nat :=
  if handleNear h then (handleTile h / 128, (s.physOf (handleTile h)).getD 0 % 144 / 36, s.frameRow h % 8)
  else (16 + handleStack h, 0, s.frameRow h % 32)

/-- Whether a logical tile is fenced (01 R20). -/
def State.fencedTile (s : State) (l : Nat) : Bool :=
  match s.physOf l with
  | some t => s.tmapState t == 5
  | none => false

/-- Whether a logical tile may take part in attention (10 R296): assigned, not fenced, `REQ` not OFF, the kernel
resident. -/
def State.canTakePart (s : State) (l : Nat) : Bool :=
  match s.physOf l with
  | some t => s.tmapState t != 5 && s.get (pgTile t) PAGE_PWR.REQ != 2 && s.flag (pgTile t) TILE_BOOT_STAT.DONE
  | none => false

/-- Frames that are not free: they hold a page, wait to be zeroed, or wait for attention commands. -/
def State.busyFrames (s : State) : List Nat := s.kv.held.map (·.1) ++ s.kv.zeroing ++ s.kv.late.map (·.1)

def State.tileBusy (s : State) (l : Nat) : List Nat :=
  (s.busyFrames.filter (fun h => handleNear h && handleTile h == l)).map handleIdx
def State.stackBusy (s : State) (k : Nat) : List Nat :=
  (s.busyFrames.filter (fun h => !handleNear h && handleStack h == k)).map handleIdx

/-- The pool's tiles of a die; a fenced tile's frames have left the pool (08 R255). -/
def State.poolTiles (s : State) (n : Nat) : List Nat :=
  s.kv.nearTiles.filter (fun l => l / 128 == n && !s.fencedTile l)

def State.tileFree (s : State) (l : Nat) : Nat := s.nearPer - (s.tileBusy l).length
def State.stackFree (s : State) (k : Nat) : Nat := s.edgePer - (s.stackBusy k).length

/-- `ROPE_NFREE[n]`, `ROPE_EFREE[b]` and F_n (08 R233, R252). -/
def State.nfree (s : State) (n : Nat) : Nat := ((s.poolTiles n).map s.tileFree).sum
def State.efree (s : State) (b : Nat) : Nat := ((s.kv.edgeStacks.filter (fun k => k / 2 == b)).map s.stackFree).sum
def State.nearTotal (s : State) (n : Nat) : Nat := (s.poolTiles n).length * s.nearPer

/-- LOW[n] and HIGH[n]. -/
def State.lowMark (s : State) (n : Nat) : Nat := (s.nearTotal n + 63) / 64
def State.highMark (s : State) (n : Nat) : Nat := (s.nearTotal n + 31) / 32

/-- N, the frames of both pools, and the bytes of the page table (08 R235). -/
def State.pageCount (s : State) : Nat := s.kv.nearTiles.length * s.nearPer + s.kv.edgeStacks.length * s.edgePer
def tableBytes (n : Nat) : Nat := 2048 * ((16 * n + 2047) / 2048)

def State.metaBase (s : State) : Nat := s.getPair pgRope ROPE_META_LO.ADDR ROPE_META_HI.ADDR
def State.metaLen (s : State) : Nat := 2 ^ 20 * s.get pgRope ROPE_META_LEN.MIB

/-- The first free number below `cap` from `start` on, cyclically. -/
def firstFree (start cap : Nat) (busy : List Nat) : Option Nat :=
  if cap = 0 then none
  else ((List.range (busy.length + 1)).map (fun i => (start + i) % cap)).find? (fun x => !busy.contains x)

/-- A free number below `cap` whose residue modulo `period` satisfies `ok`; which one is free (08 R233). -/
def State.pickFree (s : State) (cap period : Nat) (ok : Nat → Bool) (busy : List Nat) : Option Nat :=
  (List.range period).findSome? (fun r =>
    if ok r then
      (firstFree (Config.allocStart s.fresh) ((cap + period - 1 - r) / period)
        ((busy.filter (fun x => x % period == r)).map (· / period))).map (fun m => r + period * m)
    else none)

/-- A free frame of a tile, or of a stack; of a given row residue where one is asked for. -/
def State.pickNear (s : State) (l : Nat) (cls : Option Nat) : Option Nat :=
  (match cls with
    | none => s.pickFree s.nearPer 1 (fun _ => true) (s.tileBusy l)
    | some c => s.pickFree s.nearPer 8 (fun r => s.frameRow (nearHandle l r) % 8 == c) (s.tileBusy l)).map (nearHandle l)

def State.pickEdge (s : State) (k : Nat) (cls : Option Nat) : Option Nat :=
  (match cls with
    | none => s.pickFree s.edgePer 1 (fun _ => true) (s.stackBusy k)
    | some c => s.pickFree s.edgePer 32 (fun r => s.frameRow (edgeHandle k r) % 32 == c) (s.stackBusy k)).map (edgeHandle k)

/-- A near frame for a new page of die `n`: from the tile with the most free frames that 10 R299 does not exclude, the
lowest on a tie (08 R246). -/
def State.newNear (s : State) (n : Nat) : Option Nat :=
  let l := (s.poolTiles n).filter (fun l => s.canTakePart l && 0 < s.tileFree l)
  let best := l.foldl (fun (m : Option Nat) x => match m with
    | some y => if s.tileFree y < s.tileFree x then some x else some y
    | none => some x) none
  best.bind (fun x => s.pickNear x none)

/-- The stacks in the order in which a page of die `n` may use them (08 R231): the two of its base die, whose order is free,
then the others ascending. -/
def State.edgeOrder (s : State) (n : Nat) : List Nat :=
  let own := s.kv.edgeStacks.filter (fun k => k / 2 == n / 3)
  let own := if Config.allocStart s.fresh % 2 = 0 then own else own.reverse
  own ++ s.kv.edgeStacks.filter (fun k => k / 2 != n / 3)

/-- An edge frame for a page of die `n`. -/
def State.anyEdge (s : State) (n : Nat) : Option Nat := (s.edgeOrder n).findSome? (fun k => s.pickEdge k none)

/-! ## The device's row commands (05 R142, 08 R247, R250) -/

/-- Row-engine command of the device for one row, a copy or a fill with zeros: refused, or waiting for an OPEN slot of its
engine's port under the requester ID of the management core (08 R253). -/
def State.issueRow (s : State) (use : JobUse) (dst : Nat) (src : Option Nat) : State :=
  let id := s.kv.nextJob
  let b := leBytes 1 (if src.isSome then 1 else 18) ++ List.replicate 7 0 ++ leBytes 8 dst ++ leBytes 8 (src.getD 0)
    ++ leBytes 8 0
  let c := rowOfBytes b (.device id)
  let job : KvJob := { id := id, use := use, dst := dst, src := src, status := none }
  let s1 := { s with kv := { s.kv with nextJob := id + 1, jobs := s.kv.jobs ++ [job] } }
  let st := s1.rowStatus b none
  match s1.engineAt dst with
  | none => s1.rowReply c stNoTarget
  | some e =>
    if st ≠ stOk then s1.rowRefuse c none st
    else if !(s1.calOf (enginePort e)).has ownOPEN || !s1.dropOpen dst then s1.rowReply c stNoSlot
    else s1.portWait (enginePort e) reqMgmt c

/-- The row commands issued for one purpose, and whether each has completed. -/
def State.jobsFor (s : State) (use : JobUse) : List KvJob := s.kv.jobs.filter (fun j => j.use == use)
def State.jobsOver (s : State) (use : JobUse) : Bool := (s.jobsFor use).all (fun j => j.status.isSome)

/-- Whether a row was served by its row engine. -/
def State.rowServed (s : State) (use : JobUse) (dst : Nat) : Bool :=
  (s.jobsFor use).any (fun j => j.dst == dst && j.status == some stOk)

/-- The commands of a purpose forgotten once it is over. -/
def State.dropJobs (s : State) (use : JobUse) : State :=
  { s with kv := { s.kv with jobs := s.kv.jobs.filter (fun j => j.use != use) } }

/-- The rows of a frame. -/
def State.frameRowsAt (s : State) (h : Nat) : List Nat := (List.range s.frameRows).map (fun i => s.frameAddr h + 2048 * i)

/-- A frame is freed: row engines fill its rows with zeros before it returns to its pool (08 R250). -/
def State.freeFrame (s : State) (h : Nat) : State :=
  let s1 := { s with kv := { s.kv with zeroing := s.kv.zeroing ++ [h] } }
  (s.frameRowsAt h).foldl (fun s a => s.issueRow (.zero h) a none) s1

/-- A frame taken for page `x`; one not zeroed since `ON` was set is zeroed first (08 R233), by the page mover and at once
(assumption log 49). -/
def State.takeFrame (s : State) (h x : Nat) : State :=
  let s1 := if s.kv.seen.contains h then s
    else (s.deviceZero (s.frameAddr h) (2048 * s.frameRows)).count pgRope ROPE_ZEROED.COUNT 1
  { s1 with
    fresh := s1.fresh + 1
    kv := { s1.kv with held := s1.kv.held ++ [(h, x)]
                       seen := if s1.kv.seen.contains h then s1.kv.seen else h :: s1.kv.seen } }

/-- A page mover's copy of `n` sectors: corrected sectors written good, damaged ones poisoned (08 R253, 05 R148). -/
def State.moveSectors (s : State) (src dst n : Nat) : State :=
  let l := (List.range n).map (fun i => src + 32 * i)
  (s.reportAll s.errPage srcRuntime l).deviceWrite dst (l.map (fun a =>
    let d := s.sector a
    if d.1.damaged then poisonWord else codeWord d.2))

/-- The same for a row of 2 KiB. -/
def State.moveRow (s : State) (src dst : Nat) : State := s.moveSectors src dst 64

/-! ## The page table (08 R235) -/

/-- An entry of the page table; `state` is 0 FREE, 1 LIVE, 2 MOVING. -/
structure PageEntry where
  loc : Nat
  refs : Nat
  score : Nat
  stamp : Nat
  state : Nat
  mslot : Nat
  full : Bool
  cairn : Bool
  layer : Nat
  group : Nat
  deriving DecidableEq, Repr

def pageLive : Nat := 1
def pageMoving : Nat := 2
def noPage : Nat := 0xFFFF_FFFF

def entryOf (b : List Byte) : PageEntry :=
  { loc := field b 0 4, refs := field b 4 2, score := field b 6 1, stamp := field b 8 2, state := field b 10 1 % 16,
    mslot := field b 10 1 / 16, full := bit (field b 11 1) 0, cairn := bit (field b 11 1) 1, layer := field b 12 1,
    group := field b 13 1 % 64 }

def PageEntry.bytes (e : PageEntry) : List Byte :=
  leBytes 4 e.loc ++ leBytes 2 e.refs ++ leBytes 1 e.score ++ [0] ++ leBytes 2 e.stamp
    ++ leBytes 1 (e.state % 16 + 16 * e.mslot) ++ leBytes 1 (b2n e.full + 2 * b2n e.cairn) ++ leBytes 1 e.layer
    ++ leBytes 1 (e.group % 64) ++ [0, 0]

/-- Entry `x` of the page table. -/
def State.page (s : State) (x : Nat) : PageEntry := entryOf (s.metaBytes (s.metaBase + 16 * x) 16)
def State.setPage (s : State) (x : Nat) (e : PageEntry) : State := s.metaWrite (s.metaBase + 16 * x) e.bytes
def State.modPage (s : State) (x : Nat) (f : PageEntry → PageEntry) : State := s.setPage x (f (s.page x))

/-- The die of a page's pair, by the layout of its model slot. -/
def State.pageDie (s : State) (e : PageEntry) : Nat :=
  let l := s.lay e.mslot
  l.dieOf (l.groups * e.layer + e.group)

/-- The pages in use, and a page ID that is not (08 R233). -/
def State.livePages (s : State) : List Nat := (s.kv.held.map (·.2)).eraseDups
def State.pickId (s : State) : Option Nat := firstFree (Config.allocStart s.fresh) s.pageCount s.livePages

/-- The frames a page holds go to be zeroed, and what was planned for it is dropped (08 R250, R253). -/
def State.dropPage (s : State) (x : Nat) : State :=
  let s1 := { s with kv := { s.kv with
    held := s.kv.held.filter (fun e => e.2 != x), queue := s.kv.queue.filter (· != x),
    demote := s.kv.demote.filter (· != x), moves := s.kv.moves.filter (fun e => e.1 != x) } }
  ((s.kv.held.filter (fun e => e.2 == x)).map (·.1)).foldl State.freeFrame s1

/-- One reference to page `x` released (08 R250); `cairn` where a cairn entry held it (09 R278). -/
def State.releaseRef (s : State) (x : Nat) (cairn : Bool) : State :=
  if s.pageCount ≤ x then s
  else
    let e := s.page x
    let e1 := { e with refs := e.refs - 1, cairn := e.cairn && !cairn }
    if e1.refs = 0 then (s.setPage x { e1 with state := 0 }).dropPage x else s.setPage x e1

/-- One more reference to page `x`. -/
def State.addRef (s : State) (x : Nat) (cairn : Bool) : State :=
  if s.pageCount ≤ x then s else s.modPage x (fun e => { e with refs := e.refs + 1, cairn := e.cairn || cairn })

/-! ## Page lists (08 R236, R237) -/

/-- The node pool: its start and its nodes. -/
def State.nodeBase (s : State) : Nat := s.metaBase + tableBytes s.pageCount
def State.nodeCount (s : State) : Nat := (s.metaLen - tableBytes s.pageCount) / 2048
def State.nodeAddr (s : State) (i : Nat) : Nat := s.nodeBase + 2048 * i

/-- A free node taken, written with `fill` in every byte: 0 for a node of the tree, 0xFF for a block record. -/
def State.newNode (s : State) (u : NodeUse) : Option (State × Nat) :=
  (firstFree (Config.allocStart s.fresh) s.nodeCount (s.kv.nodes.map (·.1))).map (fun i =>
    let s1 := { s with fresh := s.fresh + 1, kv := { s.kv with nodes := s.kv.nodes ++ [(i, u)] } }
    (s1.deviceBytes (s1.nodeAddr i) (List.replicate 2048 (if u.level = 0 then 0xFF else 0)), s1.nodeAddr i))

/-- The address in entry `e` of a node, where its `V` is 1. -/
def State.childOf (s : State) (a e : Nat) : Option Nat :=
  let w := leNat (s.metaBytes (a + 8 * e) 8)
  if bit w 63 then some (w % 2 ^ 48) else none

/-- The entry of a node at level `m` under which block `b` lies. -/
def digit (b m : Nat) : Nat := b / 256 ^ (m - 1) % 256

/-- From a node at level `m` down to the block record of `b`. -/
def State.walkList (s : State) (b : Nat) : Nat → Nat → Option Nat
  | 0, a => some a
  | m + 1, a =>
    match s.childOf a (digit b (m + 1)) with
    | some c => s.walkList b m c
    | none => none

/-- The block record of block `b` of rope `r`, if there is one. -/
def State.blockRecord (s : State) (r b : Nat) : Option Nat :=
  let x := s.rope r
  if x.depth = 0 ∨ 256 ^ x.depth ≤ b then none else s.walkList b x.depth x.root

/-- The entries that a walk down to block `b` reads, from a node at level `m`. -/
def State.walkEntries (s : State) (b : Nat) : Nat → Nat → List Nat
  | 0, _ => []
  | m + 1, a =>
    (a + 8 * digit b (m + 1)) :: (match s.childOf a (digit b (m + 1)) with
      | some c => s.walkEntries b m c
      | none => [])

/-- The sectors of the tables that a look at a rope's blocks and pages reads: entries of its nodes, each block's record in
the sectors given, without repeats. -/
def State.tableSectors (s : State) (r : Nat) (blocks : List Nat) (inRecord : List Nat) : List Nat :=
  let x := s.rope r
  (blocks.flatMap (fun b =>
    if x.depth = 0 ∨ 256 ^ x.depth ≤ b then []
    else (s.walkEntries b x.depth x.root).map (fun a => 32 * (a / 32))
      ++ (match s.blockRecord r b with
        | some rec => inRecord.map (fun o => 32 * ((rec + o) / 32))
        | none => []))).eraseDups

/-- The tree of rope `r` grown until it reaches block `b` (08 R236). -/
def State.growTree (r b : Nat) : Nat → State → Option State
  | 0, s => some s
  | fuel + 1, s =>
    let x := s.rope r
    if x.depth ≠ 0 ∧ b < 256 ^ x.depth then some s
    else (s.newNode { rope := r, level := x.depth + 1, block := 0 }).bind (fun e =>
      let s1 := if x.depth = 0 then e.1 else e.1.metaWrite e.2 (leBytes 8 (2 ^ 63 + x.root))
      State.growTree r b fuel (s1.setRope r { x with depth := x.depth + 1, root := e.2 }))

/-- From a node at level `m` down to the block record of `b`, with the nodes that are missing. -/
def State.makePath (r b : Nat) : Nat → State → Nat → Option (State × Nat)
  | 0, s, a => some (s, a)
  | m + 1, s, a =>
    (s.childOf a (digit b (m + 1))).elim
      ((s.newNode { rope := r, level := m, block := b / 256 ^ m * 256 ^ m }).bind (fun e =>
        State.makePath r b m (e.1.metaWrite (a + 8 * digit b (m + 1)) (leBytes 8 (2 ^ 63 + e.2))) e.2))
      (fun c => State.makePath r b m s c)

/-- The block record of block `b` of rope `r`, allocated where it is missing; none without a free node. -/
def State.makeRecord (s : State) (r b : Nat) : Option (State × Nat) :=
  (State.growTree r b 5 s).bind (fun s1 => State.makePath r b (s1.rope r).depth s1 (s1.rope r).root)

/-- The page ID of pair `i` in a block record. -/
def State.recId (s : State) (rec i : Nat) : Nat := leNat (s.metaBytes (rec + 4 * i) 4)

/-- The device resolves pairs of blocks of a rope: the errors of the sectors it reads count (06 R175). -/
def State.meetPages (s : State) (r : Nat) (blocks pairs : List Nat) : State :=
  let ids := blocks.flatMap (fun b => match s.blockRecord r b with
    | some rec => (pairs.map (s.recId rec)).filter (· < s.pageCount)
    | none => [])
  s.meetTable (s.tableSectors r blocks (pairs.map (4 * ·)) ++ (ids.map (fun x =>
    32 * ((s.metaBase + 16 * x) / 32))).eraseDups)

/-- It reads whole block records. -/
def State.meetRecords (s : State) (r : Nat) (blocks : List Nat) : State :=
  s.meetTable (s.tableSectors r blocks ((List.range 64).map (32 * ·)))
def State.setRecId (s : State) (rec i x : Nat) : State := s.metaWrite (rec + 4 * i) (leBytes 4 x)

/-- The page IDs of a block record that name pages. -/
def State.recIds (s : State) (rec : Nat) : List Nat :=
  let b := s.metaBytes rec 2048
  ((List.range 512).map (fun i => field b (4 * i) 4)).filter (· != noPage)

/-- The block records of a rope: block and address. -/
def State.recordsOf (s : State) (r : Nat) : List (Nat × Nat) :=
  (s.kv.nodes.filter (fun e => e.2.rope == r && e.2.level == 0)).map (fun e => (e.2.block, s.nodeAddr e.1))

/-- `PAGES` and `NEAR` of a rope (08 R239). -/
def State.ropePages (s : State) (r : Nat) : List Nat := (s.recordsOf r).flatMap (fun e => s.recIds e.2)
def State.ropeNear (s : State) (r : Nat) : Nat := ((s.ropePages r).filter (fun x => handleNear (s.page x).loc)).length

/-- Every reference of rope `r` to blocks `from` and later is released, and their records are freed. -/
def State.releaseBlocks (s : State) (r start : Nat) : State :=
  let gone := (s.recordsOf r).filter (fun e => start ≤ e.1)
  let s1 := gone.foldl (fun s e => (s.recIds e.2).foldl (fun s x => s.releaseRef x false) s)
    (s.meetRecords r (gone.map (·.1)))
  let x := s.rope r
  let s2 := gone.foldl (fun s e =>
    match (List.range (x.depth - 1)).foldl (fun (a : Option Nat) j =>
        a.bind (fun n => s.childOf n (digit e.1 (x.depth - j)))) (some x.root) with
    | some n => if s.childOf n (digit e.1 1) = some e.2 then s.metaWrite (n + 8 * digit e.1 1) (leBytes 8 0) else s
    | none => s) s1
  { s2 with kv := { s2.kv with
    nodes := s2.kv.nodes.filter (fun e => !(e.2.rope == r && e.2.level == 0 && start ≤ e.2.block)) } }

/-! ## The entry a requester captures (08 R239, R240) -/

/-- The 16 words of a rope's entry. -/
def State.ropeWords (s : State) (r : Nat) : List Nat :=
  let x := s.rope r
  [x.state + 8 * b2n x.taint + 16 * x.prio + 2 ^ 8 * x.tier + 2 ^ 12 * x.mslot + 2 ^ 16 * x.depth, x.len % 2 ^ 32,
    x.adapter, x.anchor + 2 ^ 16 * x.xlen + 2 ^ 31 * b2n x.av, x.ablk, x.root % 2 ^ 32, x.root / 2 ^ 32 % 2 ^ 16, x.shared,
    (s.ropePages r).length, s.ropeNear r, x.gen, 0, 0, 0, 0, 0]

/-- A write of `ROPE_SEL`. -/
def State.ropeSelect (s : State) (who v : Nat) : State :=
  let s1 := s.put pgRope ROPE_SEL.ROPE v
  { s1 with kv := { s1.kv with captured := mapSet [] s1.kv.captured who (s.ropeWords (v % 4096)) } }

/-! ## Starting and stopping (08 R232, R234) -/

/-- The tiles and stacks that would hold frames (08 R229). -/
def State.newNearTiles (s : State) : List Nat :=
  (List.range 1536).filter (fun l => s.assigned l && !s.fencedTile l && s.dieInService (l / 128))
def State.newEdgeStacks (s : State) : List Nat := (List.range 8).filter s.stackUsed

/-- Whether a range lies in one used stack. -/
def State.inOneStack (s : State) (a n : Nat) : Bool :=
  match targetOf a with
  | .edge k o => s.stackUsed k && o + n ≤ 0x0020_0000_0000
  | _ => false

/-- Whether the edge pool meets a range of a stack (08 R232, 09 R264). -/
def State.meetsEdgePool (s : State) (a n : Nat) : Bool :=
  match targetOf a with
  | .edge _ o =>
    let p := 0x20_0000 * s.get pgRope ROPE_EPOOL.OFF
    o < p + 0x20_0000 * (s.get pgRope ROPE_EPOOL.LEN + 1) && p < o + n
  | _ => false

/-- The first condition of 08 R232 that fails, 0 where all hold. -/
def State.ropeCheck (s : State) : Nat :=
  let a := s.metaBase
  let n := s.metaLen
  let f := s.frameRows
  let count := s.newNearTiles.length * s.nearPer + s.newEdgeStacks.length * s.edgePer
  if n ≠ 0 ∧ (!s.inOneStack a n || (List.range ((0x1F_FFFF + n) / 0x20_0000)).any (fun i =>
      (s.inSwin (a + 0x20_0000 * i)).isNone)) then 1
  else if n < 64 * 2 ^ 20 + tableBytes count then 2
  else if 98304 < s.get pgRope ROPE_NPOOL_OFF.ROWS + s.get pgRope ROPE_NPOOL_ROWS.ROWS then 3
  else if 65536 < s.get pgRope ROPE_EPOOL.OFF + s.get pgRope ROPE_EPOOL.LEN + 1 ∨ (n ≠ 0 ∧ s.meetsEdgePool a n) then 4
  else if f = 0 ∨ 66 < f then 5
  else if count = 0 then 6
  else 0

/-- Both thresholds of a die (08 R252). -/
def State.setThresholds (s : State) (n up : Nat) : State :=
  (s.put pgRope (ROPE_THR.T_UP.at n) up).put pgRope (ROPE_THR.T_DOWN.at n) (up / 2)

/-- A write of 1 to `ROPE_CFG.ON` while it is 0. -/
def State.ropesStart (s : State) : State :=
  let e := s.ropeCheck
  let s1 := s.put pgRope ROPE_STAT.CFG_ERR e
  if e ≠ 0 then s1
  else
    let kv : Kv := { Kv.init with
      nearTiles := s.newNearTiles, edgeStacks := s.newEdgeStacks, captured := s.kv.captured, nextJob := s.kv.nextJob }
    let s2 := ({ s1 with kv := kv }.putFlag pgRope ROPE_CFG.ON true).putFlag pgRope ROPE_STAT.ACTIVE true
    let s3 := (s2.deviceZero s2.metaBase (tableBytes s2.pageCount)).put pgRope ROPE_EPOCH.COUNT 0
    (List.range 12).foldl (fun s n => s.setThresholds n 4) (s3.put pgCairn CAIRN_PAGES.COUNT 0)

/-- A write of 0 to `ROPE_CFG.ON` while it is 1: ignored while a rope is not FREE, or the cairn store is active (09
R265). -/
def State.ropesStop (s : State) : State :=
  if !s.allRopesFree || s.flag pgCairn CAIRN_STAT.ACTIVE then s
  else ({ s with kv := { Kv.init with captured := s.kv.captured, nextJob := s.kv.nextJob } }.putFlag pgRope ROPE_CFG.ON false).putFlag pgRope
    ROPE_STAT.ACTIVE false

/-- A write of `ROPE_CFG` (08 R232, R254, R258): while `ON` is 0 `FRAME_ROWS` takes its value; `FREEZE` drops the
promotions queued; then `ON` acts. -/
def State.writeRopeCfg (s : State) (v : Nat) : State :=
  let on := s.ropesOn
  let rows := bits v 6 0
  let s1 := if on then s.heldField pgRope ROPE_CFG.FRAME_ROWS rows else s.putRwl pgRope ROPE_CFG.FRAME_ROWS rows
  let s2 := s1.put pgRope ROPE_CFG.FREEZE (bits v 8 8)
  let s3 := if bit v 8 then { s2 with kv := { s2.kv with queue := [] } } else s2
  if bit v 31 then (if on then s3 else s3.ropesStart) else (if on then s3.ropesStop else s3)

/-- What a reset under 08 R234 does to ropes and to the cairn table, registers of the ROPE page apart. -/
def State.clearRopes (s : State) : State :=
  let s1 := { s with
    ropes := [], kv := { Kv.init with nextJob := s.kv.nextJob },
    attn := { s.attn with cmds := [], owed := [], accepts := [] } }
  let s2 := (s1.putFlag pgCairn CAIRN_CFG.ON false).putFlag pgCairn CAIRN_STAT.ACTIVE false
  let s3 := (s2.putFlag pgCairn CAIRN_STAT.SWEEP false).put pgCairn CAIRN_ENTRIES.COUNT 0
  (s3.put pgCairn CAIRN_PAGES.COUNT 0).put pgCairn CAIRN_PINNED.COUNT 0

/-- A soft reset of the ROPE page (08 R234). -/
def State.ropeSoft (s : State) : State := s.clearRopes.softPage pgRope

/-! ## Commands: their source, order and completion (08 R244, 12 R358) -/

/-- The 32 bytes of the command that a source names, of a class. -/
def State.cmdBytes (s : State) (c : CmdSrc) (cls : Nat) : Option (List Byte) :=
  match c with
  | .body b => some (leBytes 32 b.toNat)
  | .window w k =>
    match s.inFlight w.val k.toNat with
    | some f => if f.cls = cls then some (leBytes 32 f.body) else none
    | none => none

/-- The place of a command in the acceptance order; one given outright comes after every accepted command. -/
def State.cmdOrder (s : State) (c : CmdSrc) : Nat :=
  match c with
  | .body _ => s.bridge.accepted
  | .window w k => ((s.inFlight w.val k.toNat).map (·.order)).getD s.bridge.accepted

/-- A command completes: the record of a window's command is written. -/
def State.finish (s : State) (c : CmdSrc) (status res0 res1 : Nat) (taint : Bool) : State :=
  match c with
  | .body _ => s
  | .window w k => s.completeCmd w.val k.toNat status res0 res1 0 taint

/-- The fields of an ATTN body (10 R282). -/
def attnTable (b : List Byte) : Nat := field b 16 6
def attnRows (b : List Byte) : Nat := field b 2 2 % 2048

/-- The rope of a row of a length table. -/
def rowRope (row : List Byte) : Nat := field row 0 2 % 4096

/-- The ropes that an accepted command names. -/
def State.namedBy (s : State) (f : InFlight) : List Nat :=
  let b := leBytes 32 f.body
  let op := field b 0 1 % 16
  let r := field b 2 2 % 4096
  match f.cls with
  | 3 => if op = 3 then [r, field b 4 2 % 4096] else [r]
  | 4 => if op = 1 ∨ op = 2 ∨ ((op = 3 ∨ op = 4) ∧ !bit (field b 1 1) 0) then [r] else []
  | 5 =>
    if op = 2 then [r]
    else match s.attn.cmds.find? (fun a => a.order == f.order && (match a.src with | .window _ _ => true | .body _ => false)) with
      | some a => a.rows.map (fun x => rowRope x.bytes)
      | none => (List.range (attnRows b)).map (fun i => rowRope (s.metaBytes (attnTable b + 64 * i) 2))
  | _ => []

/-- Every command that the windows hold in flight. -/
def State.allFlight (s : State) : List InFlight := s.wins.flatMap (fun e => e.2.flight)

/-- Whether a command at `order` may act on `ropes`: no earlier command that names one of them is still under way (08
R244). `self` is the number of an attention command that asks for itself. -/
def State.turn (s : State) (order : Nat) (self : Option Nat) (ropes : List Nat) : Bool :=
  !s.allFlight.any (fun f => f.order < order && (s.namedBy f).any ropes.contains)
    && !s.attn.accepts.any (fun a => a.order ≤ order && ropes.contains a.rope)
    && !s.attn.cmds.any (fun a =>
      (a.order < order || (a.order == order && (match self with | some i => a.id < i | none => true)))
        && a.rows.any (fun x => ropes.contains (rowRope x.bytes)))

/-! ## Rope commands (08 R241 to R243) -/

/-- Fields of a rope command. -/
def ropeOp (b : List Byte) : Nat := field b 0 1 % 16
def ropeR (b : List Byte) : Nat := field b 2 2 % 4096
def ropeSrc (b : List Byte) : Nat := field b 4 2 % 4096
def ropePos (b : List Byte) : Nat := field b 8 4

/-- Whether a rope command breaks its format: reserved operation or bits, unused fields not zero, a reserved `TIER` in a
field that it uses (08 R241, R243). -/
def ropeMalformed (b : List Byte) : Bool :=
  let op := ropeOp b
  let flags := field b 1 1
  let prio := field b 17 1 % 16
  let tier := field b 17 1 / 16 % 4
  op == 0 || 5 < op || 16 ≤ field b 0 1 || 8 ≤ flags || (op != 5 && flags != 0) || 4096 ≤ field b 2 2 || 4096 ≤ field b 4 2
    || (op != 3 && field b 4 2 != 0) || field b 6 2 != 0 || (op != 3 && op != 4 && ropePos b != 0)
    || (op != 1 && field b 12 4 != 0) || 16 ≤ field b 16 1 || (op != 1 && field b 16 1 != 0) || 64 ≤ field b 17 1
    || (op != 1 && !(op == 5 && bit flags 0) && prio != 0) || (op != 1 && !(op == 5 && bit flags 1) && tier != 0)
    || ((op == 1 || (op == 5 && bit flags 1)) && 2 ≤ tier) || field b 18 14 != 0

/-- Status codes of ropes, cairns and attention (08 R243, 09 R267, 10 R291, R292). -/
def stRopeState : Nat := 0x20
def stNoFrame : Nat := 0x21
def stBadLayout : Nat := 0x22
def stNotFound : Nat := 0x23
def stTainted : Nat := 0x24
def stTokenUE : Nat := 0x25
def stLenMismatch : Nat := 0x26
def stBadTree : Nat := 0x27
def stTableUE : Nat := 0x28

/-- Whether the states and lengths of the ropes named fail a command's precondition (08 R242). -/
def State.ropeStateBad (s : State) (b : List Byte) : Bool :=
  let x := s.rope (ropeR b)
  match ropeOp b with
  | 1 => x.state != ropeFree
  | 3 =>
    let y := s.rope (ropeSrc b)
    x.state != ropeFree || y.state != ropeIsOpen || ropeR b == ropeSrc b || y.len < ropePos b
  | 4 => x.state != ropeIsOpen || x.len < ropePos b
  | _ => x.state != ropeIsOpen

/-- The status that the checks give a rope command, NO_FRAME apart. -/
def State.ropeStatus (s : State) (b : List Byte) : Nat :=
  if ropeMalformed b || !s.ropesOn then stBadCmd
  else if s.ropeStateBad b then stRopeState
  else if ropeOp b = 1 ∧ !s.layValid (field b 16 1) then stBadLayout
  else stOk

/-- OPEN. -/
def State.doOpen (s : State) (b : List Byte) : State :=
  s.modRope (ropeR b) (fun x => { Rope.init with
    state := ropeIsOpen, mslot := field b 16 1, adapter := field b 12 4, prio := field b 17 1 % 16,
    tier := field b 17 1 / 16 % 4, gen := (x.gen + 1) % 2 ^ 32 })

/-- CLOSE. -/
def State.doClose (s : State) (r : Nat) : State :=
  let s1 := s.releaseBlocks r 0
  let s2 := { s1 with kv := { s1.kv with nodes := s1.kv.nodes.filter (fun e => e.2.rope != r) } }
  s2.modRope r (fun x => { Rope.init with gen := x.gen })

/-- The block records of a fork: each a copy of the source's, its pages referenced once more; none without a free node. -/
def State.forkBlocks (r src : Nat) : List Nat → State → Option State
  | [], s => some s
  | b :: l, s =>
    (s.blockRecord src b).elim (State.forkBlocks r src l s) (fun a =>
      (s.makeRecord r b).bind (fun e =>
        let s1 := (e.1.meetRecords src [b]).deviceBytes e.2 (s.metaBytes a 2048)
        State.forkBlocks r src l ((s1.recIds e.2).foldl (fun s x => s.addRef x false) s1)))

/-- FORK; none where it finds no free node. -/
def State.doFork (s : State) (b : List Byte) : Option State :=
  let r := ropeR b
  let p := ropePos b
  let y := s.rope (ropeSrc b)
  let keep := decide (64 * (y.ablk + 1) ≤ p)
  let s1 := s.modRope r (fun x => { Rope.init with
    state := ropeIsOpen, len := p, mslot := y.mslot, adapter := y.adapter, prio := y.prio, tier := y.tier, taint := y.taint,
    shared := min y.shared (p / 64), anchor := if keep then y.anchor else 0, ablk := if keep then y.ablk else 0,
    av := keep && y.av, gen := (x.gen + 1) % 2 ^ 32 })
  State.forkBlocks r (ropeSrc b) (List.range ((p + 63) / 64)) s1

/-- TRUNC. The record of positions written beyond `LEN` ends with it (assumption log 22). -/
def State.doTrunc (s : State) (b : List Byte) : State :=
  let r := ropeR b
  let p := ropePos b
  let s1 := s.releaseBlocks r ((p + 63) / 64)
  let s2 := s1.modRope r (fun x => { x with
    len := p, xlen := 0, shared := min x.shared (p / 64), av := x.av && 64 * (x.ablk + 1) ≤ p, written := [], draft := [] })
  if p % 64 = 0 then s2
  else match s2.blockRecord r (p / 64) with
    | none => s2
    | some a => (s2.recIds a).foldl (fun s x =>
        if (s.page x).refs = 1 then s.modPage x (fun e => { e with full := false }) else s) s2

/-- SET. -/
def State.doSet (s : State) (b : List Byte) : State :=
  let flags := field b 1 1
  s.modRope (ropeR b) (fun x => { x with
    prio := if bit flags 0 then field b 17 1 % 16 else x.prio, tier := if bit flags 1 then field b 17 1 / 16 % 4 else x.tier,
    taint := x.taint && !bit flags 2 })

/-- A rope command runs: it waits for its turn, and completes with its status, the new `GEN` of OPEN and FORK, and the
taint of the rope (08 R242 to R244, 12 R355, R360). -/
def State.ropeCommand (s : State) (c : CmdSrc) (op : Nat) : State :=
  match s.cmdBytes c 3 with
  | none => s
  | some b =>
    let mine := ropeOp b == op || (op == 1 && (ropeOp b == 0 || 5 < ropeOp b))
    let r := ropeR b
    let ropes := if ropeOp b = 3 then [r, ropeSrc b] else [r]
    if !mine || !s.turn (s.cmdOrder c) none ropes then s
    else
      let st := s.ropeStatus b
      let done (s : State) : State := s.finish c stOk (if op = 1 ∨ op = 3 then (s.rope r).gen else 0) 0 (s.rope r).taint
      if st ≠ stOk then s.finish c st 0 0 (s.rope r).taint
      else match op with
        | 1 => done (s.doOpen b)
        | 2 => done (s.doClose r)
        | 3 =>
          match s.doFork b with
          | some t => done t
          | none => s.finish c stNoFrame 0 0 (s.rope r).taint
        | 4 => done (s.doTrunc b)
        | _ => done (s.doSet b)

/-! ## New pages, copies and KV writes (08 R245 to R249) -/

/-- Pages in frames of fenced tiles whose die is UP and that wait to be demoted: each has a claim to an edge frame before
any new page (08 R255). -/
def State.fencedWaiting (s : State) : Nat :=
  (s.kv.held.filter (fun e => handleNear e.1 && s.fencedTile (handleTile e.1) && s.prst (handleTile e.1 / 128) == prstUp
    && !s.kv.moves.any (fun m => m.1 == e.2))).length

/-- An edge frame for a new page of die `n`. -/
def State.newEdge (s : State) (n : Nat) : Option Nat :=
  if (s.kv.edgeStacks.map s.stackFree).sum ≤ s.fencedWaiting then none else s.anyEdge n

/-- The frame of a new page of rope `r` on die `n` (08 R246, R254). -/
def State.newFrame (s : State) (r n : Nat) : Option Nat :=
  let near := if (s.rope r).tier = 0 ∧ !s.flag pgRope ROPE_CFG.FREEZE ∧ s.nfree n ≠ 0 ∧ s.prst n = prstUp
    then s.newNear n else none
  match near with
  | some h => some h
  | none => s.newEdge n

/-- A page with one reference in frame `h`. -/
def State.makePage (s : State) (h id mslot layer group : Nat) : State :=
  (s.takeFrame h id).setPage id
    { loc := h, refs := 1, score := 0, stamp := s.epoch % 65536, state := pageLive, mslot := mslot, full := false,
      cairn := false, layer := layer, group := group }

/-- `new_page` (08 R245, R246); none without a frame. -/
def State.newPage (s : State) (r layer group : Nat) : Option (State × Nat) :=
  let m := (s.rope r).mslot
  let l := s.lay m
  match s.newFrame r (l.dieOf (l.groups * layer + group)), s.pickId with
  | some h, some id => some (s.makePage h id m layer group, id)
  | _, _ => none

/-- A frame of the class of `h`, in the same tier and on the same die (08 R247, R248). -/
def State.sameClass (s : State) (h : Nat) : Option Nat :=
  let c := s.frameClass h
  if handleNear h then
    ((s.poolTiles c.1).filter (fun l => (s.physOf l).getD 0 % 144 / 36 == c.2.1)).findSome? (fun l => s.pickNear l (some c.2.2))
  else if (s.kv.edgeStacks.map s.stackFree).sum ≤ s.fencedWaiting then none
  else s.pickEdge (handleStack h) (some c.2.2)

/-- The frame of a copy of the page in frame `h`, whose pair lies on die `n`. -/
def State.copyFrame (s : State) (h n : Nat) : Option Nat :=
  match s.sameClass h with
  | some f => some f
  | none =>
    if handleNear h then (s.poolTiles n).findSome? (fun l => s.pickNear l none) else s.newEdge n

/-- A copy of a page begun. -/
def State.noteCopy (s : State) (c : KvCopy) : State := { s with kv := { s.kv with copies := s.kv.copies ++ [c] } }

/-- Copy-on-write of page `x`, which pair `i` of block `b` of rope `r` writes, begins (08 R247): page `y` in frame `h`, and
its rows copied by the row engine where one serves both frames. -/
def State.copyTo (s : State) (r b i x h y : Nat) : State :=
  let e := s.page x
  let s2 := (s.makePage h y e.mslot e.layer e.group).noteCopy { rope := r, block := b, pair := i, old := x, new := y }
  if s2.frameClass h == s2.frameClass e.loc then
    (List.range (s2.lay e.mslot).rows).foldl (fun s k =>
      s.issueRow (.copy y) (s.frameAddr h + 2048 * k) (some (s.frameAddr e.loc + 2048 * k))) s2
  else s2

/-- The same with the frame and the page ID chosen; none without a frame. -/
def State.copyPage (s : State) (r b i x : Nat) : Option State :=
  (s.copyFrame (s.page x).loc (s.pageDie (s.page x))).bind (fun h => s.pickId.map (fun y => s.copyTo r b i x h y))

/-- Whether a page lies in a near frame of a die that is not UP, so that the page mover waits (08 R250). -/
def State.pageDown (s : State) (x : Nat) : Bool :=
  let h := (s.page x).loc
  handleNear h && s.dieDown (handleTile h / 128)

/-- The new page takes the old one's place in the record that the write names, or is dropped where the record has lost the
old one meanwhile. -/
def State.linkCopy (s : State) (c : KvCopy) : State :=
  match s.blockRecord c.rope c.block with
  | some rec =>
    if s.recId rec c.pair = c.old then
      (s.modPage c.old (fun e => { e with refs := e.refs - 1 })).setRecId rec c.pair c.new
    else s.releaseRef c.new false
  | none => s.releaseRef c.new false

/-- A copy ends once its row commands have completed: the page mover copies the rows that they did not (08 R247), waiting
for a die that is not UP. -/
def State.finishCopy (s : State) (c : KvCopy) : State :=
  let rows := List.range (s.lay (s.page c.new).mslot).rows
  let dst := s.frameAddr (s.page c.new).loc
  let src := s.frameAddr (s.page c.old).loc
  let left := rows.filter (fun k => !s.rowServed (.copy c.new) (dst + 2048 * k))
  if !s.jobsOver (.copy c.new) || (!left.isEmpty && (s.pageDown c.new || s.pageDown c.old)) then s
  else
    let s1 := (left.foldl (fun s k => s.moveRow (src + 2048 * k) (dst + 2048 * k)) s).dropJobs (.copy c.new)
    let s2 := s1.count pgRope ROPE_COW.COUNT 1
    let s3 := if left.isEmpty then s2 else s2.count pgRope ROPE_COW_MOVER.COUNT 1
    ({ s3 with kv := { s3.kv with copies := s3.kv.copies.filter (· != c) } }).linkCopy c

/-- Every copy that can end. -/
def State.finishCopies (s : State) : State := s.kv.copies.foldl State.finishCopy s

/-- Whether a copy for pair `i` of block `b` of rope `r` is under way, and whether one reads or writes page `x`. -/
def State.copying (s : State) (r b i : Nat) : Bool := s.kv.copies.any (fun c => c.rope == r && c.block == b && c.pair == i)
def State.copies (s : State) (x : Nat) : Bool := s.kv.copies.any (fun c => c.old == x || c.new == x)

/-- How a KV write ends: done; with a status; it waits for the end of a move or a copy; it needs a frame for die `n`, for a new page
or for a copy of the page in a frame. -/
inductive KvEnd where
  | done
  | fail (status : Nat)
  | wait
  | need (n : Nat) (copy : Option Nat)
  deriving DecidableEq, Repr

/-- One head of a KV write: the K and V vectors and their four scales each. -/
structure KvHead where
  key : List Byte
  value : List Byte
  kscale : List Byte
  vscale : List Byte
  deriving DecidableEq, Repr

/-- The slot of a page written: each head's vectors, and the whole scale record (08 R226, 10 R293). -/
def State.writeSlot (s : State) (l : Lay) (page tau : Nat) (heads : List KvHead) : State :=
  let s1 := (List.range heads.length).foldl (fun s j =>
    match heads[j]? with
    | some h => (s.deviceBytes (page + l.keyAt j tau) h.key).deviceBytes (page + l.valueAt j tau) h.value
    | none => s) s
  let scales := heads.flatMap (·.kscale) ++ heads.flatMap (·.vscale)
  s1.deviceBytes (page + l.scaleAt tau) (slice scales 0 l.scaleRec)

/-- Whether every resource of the sectors of a slot has an OPEN slot (10 R293, assumption log 20). -/
def State.slotOpen (s : State) (l : Lay) (page tau : Nat) : Bool :=
  (List.range l.hpg).all (fun j =>
    s.rangeOpen (page + l.keyAt j tau) l.elem && s.rangeOpen (page + l.valueAt j tau) l.elem)
    && s.rangeOpen (page + l.scaleAt tau) l.scaleRec

/-- The page of pair `i` of block `b` made ready to be written: found, new, or copied (08 R245). -/
def State.targetPage (s : State) (r b i : Nat) : State × KvEnd × Nat :=
  let l := s.lay (s.rope r).mslot
  let s := (s.meetPages r [b] [i]).finishCopies
  if s.copying r b i then (s, .wait, 0)
  else match s.makeRecord r b with
  | none => (s, .fail stNoFrame, 0)
  | some (s1, rec) =>
    let id := s1.recId rec i
    if id = noPage then
      match s1.newPage r (i / l.groups) (i % l.groups) with
      | none => (s, .need (l.dieOf i) none, 0)
      | some (s2, x) => (s2.setRecId rec i x, .done, x)
    else
      let e := s1.page id
      if s1.pageDown id then (s, .fail stDestDown, 0)
      else if 1 < e.refs then
        match s1.copyPage r b i id with
        | none => (s, .need (l.dieOf i) (some e.loc), 0)
        | some s2 =>
          let s3 := s2.finishCopies
          if s3.copying r b i then (s3, .wait, 0) else (s3, .done, s3.recId rec i)
      else if e.state = pageMoving then (s, .wait, 0)
      else (s1, .done, id)

/-- A KV write of rope `r` at a position, for pair `i` (08 R245). -/
def State.kvWrite (s : State) (r pos i : Nat) (heads : List KvHead) : State × KvEnd :=
  let x := s.rope r
  let l := s.lay x.mslot
  if pos < x.len ∨ x.len + 63 < pos then (s, .fail stBadCmd)
  else
    let t := s.targetPage r (pos / 64) i
    if t.2.1 ≠ .done then (t.1, t.2.1)
    else
      let a := t.1.frameAddr (t.1.page t.2.2).loc
      if !t.1.slotOpen l a (pos % 64) then (t.1, .fail stNoSlot)
      else
        let s1 := t.1.writeSlot l a (pos % 64) heads
        (if pos % 64 = 63 then s1.modPage t.2.2 (fun e => { e with full := true }) else s1, .done)

/-! ## Scores (08 R251, R275) -/

/-- The age of a stamp, at most 8. -/
def State.age (s : State) (stamp : Nat) : Nat := min ((s.epoch + 65536 - stamp % 65536) % 65536) 8

/-- A score after one more use by a rope of priority `prio`. -/
def State.usedScore (s : State) (score stamp prio : Nat) : Nat := min 255 (score / 2 ^ s.age stamp + 1 + prio / 4)

/-- The effective score. -/
def State.effScore (s : State) (score stamp : Nat) : Nat := score / 2 ^ s.age stamp

/-- The update of a page that an attention command reads for rope `r`, with the promotion it may queue (08 R251, R252,
R254). -/
def State.scorePage (s : State) (r x : Nat) : State :=
  let e := s.page x
  let e1 := { e with score := s.usedScore e.score e.stamp (s.rope r).prio, stamp := s.epoch % 65536 }
  let s1 := s.setPage x e1
  let up := s.get pgRope (ROPE_THR.T_UP.at (s.pageDie e))
  if !handleNear e.loc && e.full && (s.rope r).tier == 0 && up ≤ e1.score && !s.flag pgRope ROPE_CFG.FREEZE
      && e.state == pageLive && !s.kv.queue.contains x then
    { s1 with kv := { s1.kv with queue := s1.kv.queue ++ [x] } }
  else s1

/-- `AGING_WALK`: every entry of the page table that is aged 8 epochs or more (08 R251). -/
def State.agingWalk (s : State) : State :=
  if !s.ropesOn then s
  else (List.range s.pageCount).foldl (fun s x =>
    if 8 ≤ s.age (s.page x).stamp then s.modPage x (fun e => { e with score := 0, stamp := s.epoch % 65536 }) else s) s

/-- The end of an epoch (08 R251, R252). -/
def State.epochEnd (s : State) : State :=
  if !s.ropesOn then s
  else
    let s1 := (List.range 12).foldl (fun s n =>
      let up := s.get pgRope (ROPE_THR.T_UP.at n)
      let new := if 0 < mapGet 0 s.kv.refused n then min 255 (up + 1)
        else if s.highMark n ≤ s.nfree n then max 2 (up - 1) else up
      s.setThresholds n new) s
    { s1 with kv := { s1.kv with refused := [] } }.wrapCount pgRope ROPE_EPOCH.COUNT 1

/-! ## Zeroing and moves (08 R250 to R255) -/

/-- The zeroing of a freed frame ends, and the frame returns to its pool: its row commands have completed, and the page
mover zeroes the rows that they did not, waiting while the frame's die is not UP. -/
def State.frameZeroed (s : State) (h : Nat) : State :=
  let left := (s.frameRowsAt h).filter (fun a => !s.rowServed (.zero h) a)
  if !s.kv.zeroing.contains h || !s.jobsOver (.zero h)
      || (!left.isEmpty && handleNear h && s.dieDown (handleTile h / 128)) then s
  else
    let s1 := (left.foldl (fun s a => s.deviceZero a 2048) s).dropJobs (.zero h)
    let seen := if s1.kv.seen.contains h then s1.kv.seen else h :: s1.kv.seen
    { s1 with kv := { s1.kv with zeroing := s1.kv.zeroing.filter (· != h), seen := seen } }.count pgRope
      ROPE_ZEROED.COUNT 1

/-- A list of frames in ascending order of the device's cyclic order (08 R252 gives only that it is fixed). -/
def insertFrame (h : Nat) : List Nat → List Nat
  | [] => [h]
  | a :: l => if Config.sweepOrder h < Config.sweepOrder a then h :: a :: l else a :: insertFrame h l

def cyclicOrder (l : List Nat) (start : Nat) : List Nat :=
  let o := l.foldr insertFrame []
  o.filter (fun h => start ≤ Config.sweepOrder h) ++ o.filter (fun h => Config.sweepOrder h < start)

/-- A demotion sweep of die `n`: full pages below T_DOWN are queued for demotion until the frames free or soon free reach
HIGH, or every frame has been passed once (08 R252, R254). -/
def State.demotionSweep (s : State) (n : Nat) : State :=
  if !s.ropesOn || s.flag pgRope ROPE_CFG.FREEZE || s.prst n != prstUp || s.lowMark n ≤ s.nfree n then s
  else
    let near := (s.kv.held.filter (fun e => handleNear e.1 && handleTile e.1 / 128 == n && !s.fencedTile (handleTile e.1)))
    let down := s.get pgRope (ROPE_THR.T_DOWN.at n)
    let coming := (s.kv.zeroing.filter (fun h => handleNear h && handleTile h / 128 == n)).length
      + (s.kv.late.filter (fun e => handleNear e.1 && handleTile e.1 / 128 == n)).length
      + (near.filter (fun e => s.kv.demote.contains e.2 || (s.kv.moves.any (fun m => m.1 == e.2) && (s.page e.2).loc == e.1))).length
    let r := (cyclicOrder (near.map (·.1)) (mapGet 0 s.kv.cursor n)).foldl (fun (r : List Nat × Nat × Nat) h =>
      if s.highMark n ≤ s.nfree n + r.2.1 then r
      else
        let x := mapGet 0 (near.map (fun e => (e.1, e.2))) h
        let e := s.page x
        let take := e.full && e.state == pageLive && !s.kv.demote.contains x && s.effScore e.score e.stamp < down
        (if take then r.1 ++ [x] else r.1, if take then r.2.1 + 1 else r.2.1, Config.sweepOrder h + 1))
      ([], coming, mapGet 0 s.kv.cursor n)
    { s with kv := { s.kv with demote := s.kv.demote ++ r.1, cursor := mapSet 0 s.kv.cursor n r.2.2 } }

/-- Whether the moves of die `n` started in the last millisecond leave room for one more (08 R254). -/
def State.moveRoom (s : State) (n : Nat) : Bool :=
  (s.kv.starts.filter (fun e => e.1 == n && s.mg < 500000 + e.2)).length < s.get pgRope ROPE_MOVE_MAX.PAGES

/-- A move of page `x` of die `n` to frame `h` starts (08 R253). -/
def State.startMove (s : State) (n x h : Nat) : State :=
  let s1 := (s.takeFrame h x).modPage x (fun e => { e with state := pageMoving })
  let k := s1.kv
  { s1 with kv := { k with
    queue := k.queue.filter (· != x), demote := k.demote.filter (· != x), moves := k.moves ++ [(x, h)],
    starts := (k.starts.filter (fun e => s.mg < 500000 + e.2)) ++ [(n, s.mg)] } }

/-- `PAGE_MOVE_START`: a queued promotion starts, is refused or waits; a queued demotion or one from a fenced tile starts
or waits (08 R252 to R255). -/
def State.moveStart (s : State) (x : Nat) (toNear : Bool) : State :=
  let e := s.page x
  let n := if handleNear e.loc then handleTile e.loc / 128 else s.pageDie e
  let fenced := handleNear e.loc && s.fencedTile (handleTile e.loc)
  if !s.livePages.contains x || e.state != pageLive || s.prst n != prstUp || s.copies x then s
  else if toNear then
    if !s.kv.queue.contains x || s.flag pgRope ROPE_CFG.FREEZE || !s.moveRoom n then s
    else if s.nfree n ≤ s.lowMark n then
      { s with kv := { s.kv with
        queue := s.kv.queue.filter (· != x), refused := mapSet 0 s.kv.refused n (mapGet 0 s.kv.refused n + 1) } }
    else match s.newNear n with
      | some h => s.startMove n x h
      | none => s
  else if fenced || (s.kv.demote.contains x && !s.flag pgRope ROPE_CFG.FREEZE && s.moveRoom n) then
    match (if fenced then s.anyEdge n else s.newEdge n) with
    | some h => s.startMove n x h
    | none => s
  else s

/-- The attention commands in progress that have resolved a page (08 R253). -/
def State.readersOf (s : State) (x : Nat) : List Nat :=
  (s.attn.cmds.filter (fun a => a.rows.any (fun r => r.items.any (fun i => match i.page with
    | some p => p.1 == x
    | none => false)))).map (·.id)

/-- `PAGE_MOVE_COMPLETE` (08 R253): the rows copied, the entry rewritten, the old frame freed once no attention command
reads the page there. It waits while a near frame's die is not UP. -/
def State.moveDone (s : State) (x : Nat) : State :=
  match s.kv.moves.find? (fun e => e.1 == x) with
  | none => s
  | some (_, h) =>
    let e := s.page x
    let down (h : Nat) : Bool := handleNear h && s.dieDown (handleTile h / 128)
    if down e.loc || down h || s.copies x then s
    else
      let s1 := (List.range (s.lay e.mslot).rows).foldl (fun s i =>
        s.moveRow (s.frameAddr e.loc + 2048 * i) (s.frameAddr h + 2048 * i)) s
      let s2 := s1.setPage x { e with loc := h, state := pageLive }
      let readers := s2.readersOf x
      let k := s2.kv
      let s3 := { s2 with kv := { k with
        held := k.held.filter (fun f => f.1 != e.loc), moves := k.moves.filter (fun f => f.1 != x),
        late := if readers.isEmpty then k.late else k.late ++ [(e.loc, readers)] } }
      (if readers.isEmpty then s3.freeFrame e.loc else s3).count pgRope (if handleNear h then ROPE_PROMOTED.COUNT else ROPE_DEMOTED.COUNT) 1

/-! ## Taint (08 R256, 13 R372) -/

/-- The rope logic takes a tile's oldest taint notice and confirms it. -/
def State.taintNotice (s : State) (t : Nat) : State :=
  match (s.tile t).taintWait with
  | [] => s
  | r :: rest =>
    let s1 := s.modTile t (fun u => { u with taintWait := rest })
    if s.ropeOpenAt r then s1.modRope r (fun x => { x with taint := true }) else s1.count pgMgmt MGMT_TAINT_DROP.COUNT 1

/-! ## The meanings of the commands -/

/-- `ROPE_ON` (08 R232): a write of `ROPE_CFG` with `ON` 1. -/
def execRopeOn (v : Word) (s : State) : Host.Outcome State Fault Refusal :=
  .next (s.writeRopeCfg (v.toNat % 2 ^ 31 + 2 ^ 31))

/-- `ROPE_OFF` (08 R232): a write of `ROPE_CFG` with `ON` 0. -/
def execRopeOff (v : Word) (s : State) : Host.Outcome State Fault Refusal := .next (s.writeRopeCfg (v.toNat % 2 ^ 31))

/-- `LAYOUT_VALID_WRITE` (08 R225). -/
def execLayoutValidWrite (m : Fin 16) (v : Word) (s : State) : Host.Outcome State Fault Refusal :=
  .next (s.writeLayout m (v.toNat % 2 ^ 31 + 2 ^ 31))

/-- `ROPE_OPEN` (08 R242); it reads the rope table of B0 (13 R385). -/
def execRopeOpen (c : CmdSrc) (s : State) : Host.Outcome State Fault Refusal :=
  .next ((s.meetCopies (· == .ropes)).ropeCommand c 1)

/-- `ROPE_CLOSE` (08 R242). -/
def execRopeClose (c : CmdSrc) (s : State) : Host.Outcome State Fault Refusal := .next (s.ropeCommand c 2)

/-- `ROPE_FORK` (08 R242). -/
def execRopeFork (c : CmdSrc) (s : State) : Host.Outcome State Fault Refusal := .next (s.ropeCommand c 3)

/-- `ROPE_TRUNC` (08 R242). -/
def execRopeTrunc (c : CmdSrc) (s : State) : Host.Outcome State Fault Refusal := .next (s.ropeCommand c 4)

/-- `ROPE_SET` (08 R242). -/
def execRopeSet (c : CmdSrc) (s : State) : Host.Outcome State Fault Refusal := .next (s.ropeCommand c 5)

/-- `FRAME_ZERO_DONE` (08 R250). -/
def execFrameZeroDone (h : Word) (s : State) : Host.Outcome State Fault Refusal := .next (s.frameZeroed h.toNat)

/-- `AGING_WALK` (08 R251). -/
def execAgingWalk (s : State) : Host.Outcome State Fault Refusal := .next s.agingWalk

/-- `ROPE_EPOCH_END` (08 R252). -/
def execRopeEpochEnd (s : State) : Host.Outcome State Fault Refusal := .next s.epochEnd

/-- `DEMOTION_SWEEP` (08 R252). -/
def execDemotionSweep (n : Die) (s : State) : Host.Outcome State Fault Refusal := .next (s.demotionSweep n)

/-- `PAGE_MOVE_START` (08 R253). -/
def execPageMoveStart (x : Word) (toNear : Bool) (s : State) : Host.Outcome State Fault Refusal :=
  .next (s.moveStart x.toNat toNear)

/-- `PAGE_MOVE_COMPLETE` (08 R253). -/
def execPageMoveComplete (x : Word) (s : State) : Host.Outcome State Fault Refusal := .next (s.moveDone x.toNat)

/-- `TAINT_NOTICE` (13 R372). -/
def execTaintNotice (t : TileId) (s : State) : Host.Outcome State Fault Refusal := .next (s.taintNotice t)

end Sys2Proof.Machine
end

