-- ==== Sys2Proof/Machine/Shake.lean ====
section
/-! DEFINITION. SHAKE256 of FIPS 202, of which 17 R451 and R464 take the first 32 bytes. Rotations and round constants are formed
as the standard defines them, not listed. -/

namespace Sys2Proof.Machine

/-- The 1,600 bits of the sponge as 25 lanes: lane (x, y) at place x + 5 y, both coordinates taken modulo 5. -/
abbrev Sponge := List (BitVec 64)

def Sponge.lane (a : Sponge) (x y : Nat) : BitVec 64 := a.getD (x % 5 + 5 * (y % 5)) 0

/-- A sponge lane by lane. -/
def Sponge.form (f : Nat → Nat → BitVec 64) : Sponge := (List.range 25).map (fun i => f (i % 5) (i / 5))

/-- The parity of each column, five lanes. -/
def Sponge.parity (a : Sponge) : Sponge :=
  (List.range 5).map (fun x => (List.range 5).foldl (fun v y => v ^^^ a.lane x y) 0)

/-- Step θ: each lane takes up the parities of its two neighbour columns. -/
def Sponge.theta (a : Sponge) : Sponge :=
  let c := a.parity
  Sponge.form (fun x y => a.lane x y ^^^ c.lane (x + 4) 0 ^^^ (c.lane (x + 1) 0).rotateLeft 1)

/-- The walk of step ρ over every lane but (0, 0): the lane of each step with its rotation, the triangular numbers. -/
def rhoWalk : List (Nat × Nat) :=
  ((List.range 24).foldl (fun (l : List (Nat × Nat) × Nat × Nat) t =>
    (l.1 ++ [(l.2.1 + 5 * l.2.2, (t + 1) * (t + 2) / 2 % 64)], l.2.2, (2 * l.2.1 + 3 * l.2.2) % 5)) ([], 1, 0)).1

/-- Steps ρ and π: lane (x, y) of the result is lane (x + 3 y, x), rotated. -/
def Sponge.rhoPi (a : Sponge) : Sponge :=
  Sponge.form (fun x y => (a.lane (x + 3 * y) x).rotateLeft (mapGet 0 rhoWalk ((x + 3 * y) % 5 + 5 * x)))

/-- Step χ along each row. -/
def Sponge.chi (a : Sponge) : Sponge :=
  Sponge.form (fun x y => a.lane x y ^^^ (a.lane (x + 2) y &&& ~~~(a.lane (x + 1) y)))

/-- The shift register of step ι: x^8 + x^6 + x^5 + x^4 + 1. -/
def iotaNext (r : Nat) : Nat := if 128 ≤ r then 2 * r ^^^ 0x171 else 2 * r

/-- The constant of a round, seven outputs of the register at the bits 2^j - 1, and the register after it. -/
def iotaConstant (r : Nat) : BitVec 64 × Nat :=
  (List.range 7).foldl (fun v j => (v.1 ||| BitVec.ofNat 64 (v.2 % 2 * 2 ^ (2 ^ j - 1)), iotaNext v.2)) (0, r)

/-- One round, with the register of step ι. -/
def Sponge.round (a : Sponge) (r : Nat) : Sponge × Nat :=
  let k := iotaConstant r
  let b := a.theta.rhoPi.chi
  (b.set 0 (b.lane 0 0 ^^^ k.1), k.2)

/-- The permutation: 24 rounds. -/
def Sponge.permute (a : Sponge) : Sponge := ((List.range 24).foldl (fun v _ => v.1.round v.2) (a, 1)).1

/-- The bytes that SHAKE256 takes up at a time, and the first 32 bytes that it gives. -/
def shakeRate : Nat := 136

/-- A message with the suffix 1111 of SHAKE and the padding 10*1, to whole blocks. -/
def shakePad (m : List Byte) : List Byte :=
  let gap := shakeRate - 1 - m.length % shakeRate
  if gap = 0 then m ++ [0x9F] else m ++ 0x1F :: List.replicate (gap - 1) 0 ++ [0x80]

/-- A block taken up. -/
def Sponge.absorb (a : Sponge) (block : List Byte) : Sponge :=
  (Sponge.form (fun x y => a.lane x y ^^^ BitVec.ofNat 64 (field block (8 * (x + 5 * y)) 8))).permute

/-- The first 32 bytes of SHAKE256 over a message. -/
def shake256 (m : List Byte) : List Byte :=
  let p := shakePad m
  let blocks := (List.range (p.length / shakeRate)).map (fun i => slice p (shakeRate * i) shakeRate)
  let a := blocks.foldl Sponge.absorb (List.replicate 25 0)
  (a.take 4).flatMap (fun w => leBytes 8 w.toNat)

end Sys2Proof.Machine
end

