-- ==== Sys2Proof/Machine/Cairn.lean ====
section
/-! DEFINITION. The cairn prefix store (09): digests, the table in memory, lookups, the commands MATCH, PUBLISH, PIN, UNPIN
and FLUSH, sweeps and evictions, starting and emptying the store. -/

namespace Sys2Proof.Machine

/-! ## Digests (09 R259) -/

/-- The digest of a block from its parent's digest (16 zero bytes for block 0), the tags and the block's tokens. -/
def blockDigest (parent : List Byte) (model adapter : Nat) (tokens : List Byte) : List Byte :=
  (shake256 (slice parent 0 16 ++ leBytes 4 model ++ leBytes 4 adapter ++ slice tokens 0 256)).take 16

/-! ## The table in memory (09 R260 to R262) -/

/-- E, and the addresses of an entry's parts. -/
def State.cairnSize (s : State) : Nat := 16384 * 2 ^ s.get pgCairn CAIRN_CFG.SIZE
def State.cairnBase (s : State) : Nat := s.getPair pgCairn CAIRN_BASE_LO.ADDR CAIRN_BASE_HI.ADDR
def State.tagAt (s : State) (x : Nat) : Nat := s.cairnBase + 16 * x
def State.headAt (s : State) (x : Nat) : Nat := s.cairnBase + 16 * s.cairnSize + 64 * x
def State.tokensAt (s : State) (x : Nat) : Nat := s.cairnBase + 80 * s.cairnSize + 256 * x
def State.recordAt (s : State) (x : Nat) : Nat := s.cairnBase + 336 * s.cairnSize + 2048 * x

/-- An entry's header. -/
structure CairnHead where
  state : Nat
  pin : Bool
  rootb : Bool
  mslot : Nat
  parent : Nat
  blk : Nat
  model : Nat
  adapter : Nat
  score : Nat
  stamp : Nat
  children : Nat
  pages : Nat
  hits : Nat
  deriving DecidableEq, Repr

def cairnHeadOf (b : List Byte) : CairnHead :=
  { state := field b 0 1 % 16, pin := bit (field b 0 1) 4, rootb := bit (field b 0 1) 5, mslot := field b 1 1 % 16,
    parent := field b 2 2, blk := field b 4 4, model := field b 8 4, adapter := field b 12 4, score := field b 16 1,
    stamp := field b 18 2, children := field b 20 2, pages := field b 22 2 % 1024, hits := field b 24 4 }

def CairnHead.bytes (h : CairnHead) : List Byte :=
  leBytes 1 (h.state + 16 * b2n h.pin + 32 * b2n h.rootb) ++ leBytes 1 h.mslot ++ leBytes 2 h.parent ++ leBytes 4 h.blk
    ++ leBytes 4 h.model ++ leBytes 4 h.adapter ++ leBytes 1 h.score ++ [0] ++ leBytes 2 h.stamp ++ leBytes 2 h.children
    ++ leBytes 2 h.pages ++ leBytes 4 h.hits ++ List.replicate 36 0

def entryLive : Nat := 1

/-- A read of the region by the engine (09 R279): an uncorrectable sector counts on the CAIRN page, a corrected one on the
stack's EMC page; none where a sector is damaged. -/
def State.cairnRead (s : State) (a n : Nat) : State × Option (List Byte) :=
  let r := (sectorsOf a n).foldl (fun (r : State × List Byte × Bool) x =>
    let d := s.sector x
    let s1 := match d.1 with
      | .corrected _ _ => r.1.reportSector (s.errPage x) d.1 x srcRuntime
      | .uncorrectable => r.1.report pgCairn .u 0x02 0xFF00 x srcRuntime
      | _ => r.1
    (s1, r.2.1 ++ slice d.2 0 32, r.2.2 || d.1.damaged)) (s, [], false)
  (r.1, if r.2.2 then none else some (slice r.2.1 (a % 32) n))

/-- The header of entry `x`, read; none where the entry is damaged (09 R491). -/
def State.readHead (s : State) (x : Nat) : State × Option CairnHead :=
  let r := s.cairnRead (s.headAt x) 64
  (r.1, r.2.map cairnHeadOf)

/-- The header of entry `x` as it stands, without a read being counted. -/
def State.headOf (s : State) (x : Nat) : Option CairnHead :=
  if (s.firstDamaged (s.headAt x) 64).isSome then none else some (cairnHeadOf (s.metaBytes (s.headAt x) 64))

def State.writeHead (s : State) (x : Nat) (h : CairnHead) : State := s.deviceBytes (s.headAt x) h.bytes

/-- The entries whose header holds anything but zero bytes; every other entry is FREE. -/
def State.usedEntries (s : State) : List Nat :=
  let lo := sectorKey (s.headAt 0)
  let hi := sectorKey (s.headAt s.cairnSize)
  ((s.mem.filter (fun c => lo ≤ c.1 && c.1 < hi)).map (fun c => (c.1 - lo) / 72)).eraseDups

/-! ## Lookups (09 R260, R279) -/

/-- What a lookup finds: it fails on a damaged tag sector; no entry holds the digest; or an entry does, with its header
where that can be read. -/
inductive CairnFound where
  | fails
  | nothing
  | entry (x : Nat) (h : Option CairnHead)
  deriving DecidableEq, Repr

/-- The set of a digest. -/
def State.setOf (s : State) (d : List Byte) : Nat := field d 0 4 % (s.cairnSize / 8)

/-- The lookup of a digest. -/
def State.lookup (s : State) (d : List Byte) : State × CairnFound :=
  let set := s.setOf d
  let r := (s.count pgCairn CAIRN_LOOKUPS.COUNT 1).cairnRead (s.tagAt (8 * set)) 128
  match r.2 with
  | none => (r.1, .fails)
  | some tags =>
    (List.range 8).foldl (fun (r : State × CairnFound) w =>
      if r.2 ≠ .nothing ∨ slice tags (16 * w) 16 ≠ d then r
      else
        let h := r.1.readHead (8 * set + w)
        match h.2 with
        | none => (h.1, .entry (8 * set + w) none)
        | some x => if x.state = entryLive then (h.1, .entry (8 * set + w) (some x)) else (h.1, .nothing)) (r.1, .nothing)

/-- Whether entry `x` with its header may stand for block `b` of rope `r` (09 R269), given the entry of block b - 1 and the
block's tokens: the state after the reads, and the page IDs where it may. -/
def State.accepts (s : State) (r b parent x : Nat) (h : Option CairnHead) (tokens : List Byte) :
    State × Option (List Byte) :=
  let rope := s.rope r
  match h with
  | none => (s, none)
  | some h =>
    let t := s.cairnRead (s.tokensAt x) 256
    let p := t.1.cairnRead (t.1.recordAt x) 2048
    match t.2, p.2 with
    | some toks, some rec =>
      let ok := h.blk == b && h.model == s.get pgRope (ROPE_LAY_TAG.TAG.at rope.mslot) && h.adapter == rope.adapter
        && h.pages == (s.lay rope.mslot).pairs && (if b = 0 then h.rootb else !h.rootb && h.parent == parent)
        && (!s.flag pgCairn CAIRN_CFG.VERIFY || toks == slice tokens 0 256)
      (p.1, if ok then some rec else none)
    | _, _ => (p.1, none)

/-! ## Eviction and sweeps (09 R275 to R278) -/

/-- A count of the CAIRN page lowered by `n`. -/
def State.lower (s : State) (f : Field) (n : Nat) : State := s.put pgCairn f (s.get pgCairn f - n)

/-- The page IDs of a record, `n` of them, that name pages. -/
def pagesIn (rec : List Byte) (n : Nat) : List Nat :=
  ((List.range (min n 512)).map (fun i => field rec (4 * i) 4)).filter (· != noPage)

/-- Entry `x` is evicted (09 R278, R279, R491). -/
def State.evict (s : State) (x : Nat) : State :=
  match s.headOf x with
  | none => s
  | some h =>
    let r := s.cairnRead (s.recordAt x) 2048
    let s1 := match r.2 with
      | some rec =>
        let l := pagesIn rec h.pages
        (l.foldl (fun (s : State) p => s.releaseRef p true) r.1).lower CAIRN_PAGES.COUNT l.length
      | none => r.1.count pgCairn CAIRN_LOST.COUNT h.pages
    let s2 :=
      if h.rootb then s1
      else
        let p := s1.readHead h.parent
        match p.2 with
        | some ph => p.1.writeHead h.parent { ph with children := ph.children - 1 }
        | none => p.1
    let s3 := { s2 with ropes := mapUpd Rope.init s2.ropes (fun _ o => if o.av && o.anchor == x then { o with av := false } else o) }
    let s4 := ((s3.writeHead x { h with state := 0 }).lower CAIRN_ENTRIES.COUNT 1).count pgCairn CAIRN_EVICT.COUNT 1
    if h.pin then s4.lower CAIRN_PINNED.COUNT 1 else s4

/-- Whether an entry is evictable, `keep` being protected by the operation in progress (09 R275). -/
def CairnHead.evictable (h : CairnHead) : Bool := h.state == entryLive && !h.pin && h.children == 0

/-- The entries in use from the cursor on, cyclically; every other header holds zeros. -/
def State.sweepList (s : State) (cursor : Nat) : List Nat :=
  s.usedEntries.filter (fun x => cursor ≤ x) ++ s.usedEntries.filter (fun x => x < cursor)

/-- Whether a sweep that protects `keep` passes over entry `x`. -/
def State.sweepSkips (s : State) (keep : Option Nat) (x : Nat) : Bool :=
  some x == keep || (match s.headOf x with
    | some h => !h.evictable
    | none => true)

/-- A sweep (09 R276): it reads header after header, and the next evictable entry loses half its score, or is evicted where
nothing of it is left, until the need is met or no entry is evictable; the cursor stands past the last entry acted on. -/
def State.sweepRun (met : State → Bool) (keep : Option Nat) : Nat → State → State × Bool
  | 0, s => (s, met s)
  | fuel + 1, s =>
    if met s then (s, true)
    else
      let l := s.sweepList (s.get pgCairn CAIRN_CURSOR.NEXT % s.cairnSize)
      let s0 := (l.takeWhile (s.sweepSkips keep)).foldl (fun s x => (s.readHead x).1) s
      match l.dropWhile (s.sweepSkips keep) with
      | [] => (s0, false)
      | x :: _ =>
        let r := s0.readHead x
        match r.2 with
        | none => (r.1, false)
        | some h =>
          let eff := s.effScore h.score h.stamp
          let s1 := if eff = 0 then r.1.evict x
            else r.1.writeHead x { h with score := eff / 2, stamp := s.epoch % 65536 }
          State.sweepRun met keep fuel (s1.put pgCairn CAIRN_CURSOR.NEXT ((x + 1) % s.cairnSize))

/-- A sweep while the store is active; every used entry is acted on at most ten times. -/
def State.sweep (s : State) (met : State → Bool) (keep : Option Nat) : State × Bool :=
  if !s.flag pgCairn CAIRN_STAT.ACTIVE || s.flag pgCairn CAIRN_STAT.SWEEP then (s, met s)
  else State.sweepRun met keep (10 * s.usedEntries.length + 1) s

/-- Whether `p` more pages stay within the cap (09 R273). -/
def State.capMet (s : State) (p : Nat) : Bool :=
  let cap := s.get pgCairn CAIRN_CAP.PAGES
  cap == 0 || s.get pgCairn CAIRN_PAGES.COUNT + p ≤ cap

/-- Whether a frame `h`, once it is zeroed, serves a KV write of die `n` (09 R276): for a new page an edge frame that no page
of a fenced tile has a claim to, or, with `auto` for a rope whose `TIER` is AUTO, a near frame of a tile that R299 does not
exclude while nothing bars near frames; for a copy of the page in frame `copy`, a frame of the same tier (08 R231, R246,
R247, R254, R255). -/
def State.frameServes (s : State) (auto : Bool) (n : Nat) (copy : Option Nat) (h : Nat) : Bool :=
  let near := handleTile h / 128 == n && (s.poolTiles n).contains (handleTile h)
  let edge := s.fencedWaiting < (s.kv.edgeStacks.map s.stackFree).sum + (s.kv.zeroing.filter (!handleNear ·)).length
  match copy with
  | some old => if handleNear h then handleNear old && near else !handleNear old && edge
  | none =>
    if handleNear h then
      auto && near && s.canTakePart (handleTile h) && !s.flag pgRope ROPE_CFG.FREEZE && s.prst n == prstUp
    else edge

/-- Whether such a frame waits to be zeroed and did not before (09 R276). -/
def State.frameMet (before : State) (auto : Bool) (n : Nat) (copy : Option Nat) (s : State) : Bool :=
  s.kv.zeroing.any (fun h => s.frameServes auto n copy h && !before.kv.zeroing.contains h)

/-- A sweep for a frame that a write may use (08 R246). -/
def State.frameSweep (s : State) (auto : Bool) (n : Nat) (copy : Option Nat) : State × Bool :=
  s.sweep (State.frameMet s auto n copy) none

/-! ## Commands (09 R266 to R268) -/

def cairnOp (b : List Byte) : Nat := field b 0 1 % 16
def cairnCount (b : List Byte) : Nat := field b 8 4
def cairnTokens (b : List Byte) : Nat := field b 16 6

/-- Whether a cairn command breaks its format: reserved operation or bits, unused fields, misaligned tokens. -/
def cairnMalformed (b : List Byte) : Bool :=
  let op := cairnOp b
  let flags := field b 1 1
  let walk := op == 1 || op == 2
  let pinning := op == 3 || op == 4
  let byd := pinning && bit flags 0
  op == 0 || 5 < op || 16 ≤ field b 0 1 || 8 ≤ flags || (!pinning && bit flags 0) || (op != 5 && (bit flags 1 || bit flags 2))
    || 4096 ≤ field b 2 2 || (!walk && !(pinning && !byd) && field b 2 2 != 0) || 16 ≤ field b 4 1
    || (!(op == 5 && bit flags 2) && field b 4 1 != 0) || field b 5 3 != 0 || (!walk && cairnCount b != 0)
    || field b 12 4 != 0 || (walk && (cairnTokens b % 32 != 0 || field b 22 10 != 0))
    || (!walk && !byd && field b 16 16 != 0)

/-- The status that R267 gives before the table is looked at. -/
def State.cairnStatus (s : State) (b : List Byte) : Nat :=
  let op := cairnOp b
  let x := s.rope (ropeR b)
  let byd := bit (field b 1 1) 0
  if cairnMalformed b || !s.flag pgCairn CAIRN_STAT.ACTIVE then stBadCmd
  else if (op = 1 ∨ op = 2) ∧ s.rangeStatus (cairnTokens b) (4 * cairnCount b) = stNoTarget ∧ cairnCount b ≠ 0 then stNoTarget
  else if (op = 1 ∧ (x.state ≠ ropeIsOpen ∨ x.len ≠ 0)) ∨ (op = 2 ∧ x.state ≠ ropeIsOpen)
      ∨ ((op = 3 ∨ op = 4) ∧ !byd ∧ x.state ≠ ropeIsOpen) then stRopeState
  else if op = 2 ∧ x.taint then stTainted
  else stOk

/-- The tokens of block `b` of a token array, or the status with which the array stops the command. -/
def State.blockTokens (s : State) (a b : Nat) : State × Except Nat (List Byte) :=
  let p := a + 256 * b
  if s.rangeStatus p 256 ≠ stOk || s.rangeRefused p 256 then (s, .error stDestDown)
  else
    let r := s.readMem srcRuntime p 256
    (r.1, if r.2.2.1 then .error stTokenUE else .ok r.2.1)

/-! ## MATCH (09 R269, R270) -/

/-- A walk so far: the state, the blocks done, the parent's digest, the entry of the last block, and the status. -/
structure Walk where
  s : State
  n : Nat
  digest : List Byte
  last : Nat
  status : Nat

/-- Entry `x` attached to rope `r` as block `b`; none without a free node. -/
def State.attach (s : State) (r b x : Nat) (h : CairnHead) (rec : List Byte) : Option State :=
  match s.makeRecord r b with
  | none => none
  | some (s1, a) =>
    let s2 := s1.deviceBytes a (slice rec 0 (4 * h.pages) ++ List.replicate (2048 - 4 * h.pages) 0xFF)
    let s3 := (pagesIn rec h.pages).foldl (fun s p => s.addRef p false) s2
    let h1 := { h with hits := min (h.hits + 1) 0xFFFF_FFFF, score := s.usedScore h.score h.stamp (s.rope r).prio,
                       stamp := s.epoch % 65536 }
    some ((s3.writeHead x h1).count pgCairn CAIRN_HITS.COUNT 1)

/-- Blocks from `b` on, `fuel` of them at most. -/
def Walk.matching (r tokens : Nat) : Nat → Walk → Walk
  | 0, w => w
  | fuel + 1, w =>
    let s := w.s
    let rope := s.rope r
    match s.blockTokens tokens w.n with
    | (s1, .error e) => { w with s := s1, status := e }
    | (s1, .ok toks) =>
      let d := blockDigest w.digest (s.get pgRope (ROPE_LAY_TAG.TAG.at rope.mslot)) rope.adapter toks
      match s1.lookup d with
      | (s2, .fails) | (s2, .nothing) => { w with s := s2 }
      | (s2, .entry x h) =>
        match s2.accepts r w.n w.last x h toks, h with
        | (s3, some rec), some hd =>
          match s3.attach r w.n x hd rec with
          | none => { w with s := s3, status := stNoFrame }
          | some s4 => Walk.matching r tokens fuel { w with s := s4, n := w.n + 1, digest := d, last := x }
        | (s3, _), _ => { w with s := s3.count pgCairn CAIRN_VFAIL.COUNT 1 }

/-- MATCH: the state, its status and the blocks attached. -/
def State.doMatch (s : State) (b : List Byte) : State × Nat × Nat :=
  let r := ropeR b
  let w := Walk.matching r (cairnTokens b) ((cairnCount b - 1) / 64)
    { s := s, n := 0, digest := List.replicate 16 0, last := 0, status := stOk }
  let s1 := if w.n = 0 then w.s else w.s.modRope r (fun x => { x with
    len := 64 * w.n, shared := w.n, anchor := w.last, ablk := w.n - 1, av := true })
  (s1, w.status, w.n)

/-! ## PUBLISH (09 R271 to R273) -/

/-- The record of block `b` of rope `r` where every pair has a page that is full. -/
def State.fullRecord (s : State) (r b : Nat) : Option (List Byte) :=
  match s.blockRecord r b with
  | none => none
  | some a =>
    let rec_ := s.metaBytes a 2048
    let n := (s.lay (s.rope r).mslot).pairs
    if (List.range n).all (fun i => field rec_ (4 * i) 4 != noPage && (s.page (field rec_ (4 * i) 4)).full) then some rec_
    else none

/-- The way that a registration in a set takes (09 R272), emptied if need be; `parent` is protected. -/
def State.takeWay (s : State) (set : Nat) (parent : Option Nat) : State × Option Nat :=
  let r := (List.range 8).foldl (fun (r : State × List (Nat × Option CairnHead)) w =>
    let h := r.1.readHead (8 * set + w)
    (h.1, r.2 ++ [(8 * set + w, h.2)])) (s, [])
  match r.2.find? (fun e => match e.2 with | some h => h.state != entryLive | none => false) with
  | some (x, _) => (r.1, some x)
  | none =>
    let l := r.2.filterMap (fun e => match e.2 with
      | some h => if h.evictable && some e.1 != parent then some (e.1, h) else none
      | none => none)
    let old (h : CairnHead) : Nat := (s.epoch + 65536 - h.stamp % 65536) % 65536
    let better (a b : Nat × CairnHead) : Bool :=
      let x := s.effScore a.2.score a.2.stamp
      let y := s.effScore b.2.score b.2.stamp
      x < y || (x == y && old b.2 < old a.2)
    match l.foldl (fun (m : Option (Nat × CairnHead)) e => match m with
        | some y => if better e y then some e else m
        | none => some e) none with
    | some (x, _) => (r.1.evict x, some x)
    | none => (r.1, none)

/-- A new entry `x` for block `b` of rope `r` (09 R271). -/
def State.register (s : State) (r b x parent : Nat) (d rec tokens : List Byte) : State :=
  let o := s.rope r
  let n := (s.lay o.mslot).pairs
  let s1 := (s.deviceBytes (s.tokensAt x) (slice tokens 0 256)).deviceBytes (s.recordAt x)
    (slice rec 0 (4 * n) ++ List.replicate (2048 - 4 * n) 0xFF)
  let s2 := (pagesIn rec n).foldl (fun s p => s.addRef p true) (s1.metaWrite (s1.tagAt x) d)
  let s3 :=
    if b = 0 then s2
    else
      let p := s2.readHead parent
      match p.2 with
      | some ph => p.1.writeHead parent { ph with children := ph.children + 1 }
      | none => p.1
  let h : CairnHead := { state := entryLive, pin := false, rootb := b == 0, mslot := o.mslot,
                         parent := if b = 0 then 0 else parent, blk := b,
                         model := s.get pgRope (ROPE_LAY_TAG.TAG.at o.mslot), adapter := o.adapter, score := 1,
                         stamp := s.epoch % 65536, children := 0, pages := n, hits := 0 }
  (((s3.writeHead x h).count pgCairn CAIRN_REG.COUNT 1).count pgCairn CAIRN_ENTRIES.COUNT 1).count pgCairn
    CAIRN_PAGES.COUNT n

/-- The rope's anchor at entry `x` of block `b`. -/
def State.anchorAt (s : State) (r b x : Nat) : State := s.modRope r (fun o => { o with anchor := x, ablk := b, av := true })

/-- Blocks from `first + w.n` on, `fuel` of them at most. -/
def Walk.publish (r tokens first : Nat) : Nat → Walk → Walk
  | 0, w => w
  | fuel + 1, w =>
    let b := first + w.n
    let s := w.s.meetRecords r [b]
    let o := s.rope r
    match s.fullRecord r b with
    | none => { w with s := s }
    | some rec =>
      match s.blockTokens tokens b with
      | (s1, .error e) => { w with s := s1, status := e }
      | (s1, .ok toks) =>
        let d := blockDigest w.digest (s.get pgRope (ROPE_LAY_TAG.TAG.at o.mslot)) o.adapter toks
        match s1.lookup d with
        | (s2, .fails) => { w with s := s2 }
        | (s2, .entry x h) =>
          match s2.accepts r b w.last x h toks with
          | (s3, some _) =>
            Walk.publish r tokens first fuel { w with s := s3.anchorAt r b x, n := w.n + 1, digest := d, last := x }
          | (s3, none) => { w with s := s3.count pgCairn CAIRN_VFAIL.COUNT 1 }
        | (s2, .nothing) =>
          let keep := if b = 0 then none else some w.last
          let n := (s.lay o.mslot).pairs
          let cap := if s2.capMet n then (s2, true) else s2.sweep (fun t => t.capMet n) keep
          if !cap.2 then { w with s := cap.1.count pgCairn CAIRN_SKIP.COUNT 1 }
          else match cap.1.takeWay (s.setOf d) keep with
            | (s3, none) => { w with s := s3.count pgCairn CAIRN_SKIP.COUNT 1 }
            | (s3, some x) =>
              Walk.publish r tokens first fuel
                { w with s := (s3.register r b x w.last d rec toks).anchorAt r b x, n := w.n + 1, digest := d, last := x }

/-- PUBLISH: the state, its status and the blocks by which `ABLK` advanced. -/
def State.doPublish (s : State) (b : List Byte) : State × Nat × Nat :=
  let r := ropeR b
  let o := s.rope r
  let first := if o.av then o.ablk + 1 else 0
  let last := min (o.len / 64) (cairnCount b / 64)
  let start (s : State) (d : List Byte) : State × Nat × Nat :=
    let w := Walk.publish r (cairnTokens b) first (last - first) { s := s, n := 0, digest := d, last := o.anchor, status := stOk }
    (w.s, w.status, w.n)
  if first = 0 then start s (List.replicate 16 0)
  else
    let t := s.cairnRead (s.tagAt o.anchor) 16
    match t.2 with
    | none => (t.1, stOk, 0)
    | some d => start t.1 d

/-! ## PIN, UNPIN and FLUSH (09 R277) -/

/-- The entry that a PIN or UNPIN selects, with its header. -/
def State.selectEntry (s : State) (b : List Byte) : State × Option (Nat × CairnHead) :=
  if bit (field b 1 1) 0 then
    let l := s.lookup (slice b 16 16)
    match l.2 with
    | .entry x (some h) => (l.1, some (x, h))
    | _ => (l.1, none)
  else
    let o := s.rope (ropeR b)
    if !o.av then (s, none)
    else
      let h := s.readHead o.anchor
      (h.1, h.2.map (fun x => (o.anchor, x)))

/-- PIN (`pin` 1) or UNPIN: the state and its status. -/
def State.doPin (s : State) (b : List Byte) (pin : Bool) : State × Nat :=
  let e := s.selectEntry b
  match e.2 with
  | none => (e.1, stNotFound)
  | some (x, h) =>
    if h.pin = pin then (e.1, stOk)
    else
      let s2 := e.1.writeHead x { h with pin := pin }
      (if pin then s2.count pgCairn CAIRN_PINNED.COUNT 1 else s2.lower CAIRN_PINNED.COUNT 1, stOk)

/-- One pass of a FLUSH over the entries in use: the state and the entries evicted. -/
def State.flushPass (s : State) (sel : CairnHead → Bool) : State × Nat :=
  s.usedEntries.foldl (fun (r : State × Nat) x =>
    let g := r.1.readHead x
    match g.2 with
    | some h => if h.state = entryLive ∧ h.children = 0 ∧ sel h then (g.1.evict x, r.2 + 1) else (g.1, r.2)
    | none => (g.1, r.2)) (s, 0)

/-- Passes until one evicts nothing. -/
def State.flushLoop (sel : CairnHead → Bool) : Nat → State → Nat → State × Nat
  | 0, s, n => (s, n)
  | fuel + 1, s, n =>
    let p := s.flushPass sel
    if p.2 = 0 then (p.1, n) else State.flushLoop sel fuel p.1 (n + p.2)

/-- FLUSH: the state and the entries evicted. -/
def State.doFlush (s : State) (b : List Byte) : State × Nat :=
  let flags := field b 1 1
  let sel (h : CairnHead) : Bool := (bit flags 1 || !h.pin) && (!bit flags 2 || h.mslot == field b 4 1 % 16)
  State.flushLoop sel (s.usedEntries.length + 1) s 0

/-- Whether the token array of a command lies in memory that is asleep and will be woken (14 R397). -/
def State.tokensAsleep (s : State) (b : List Byte) : Bool :=
  (cairnOp b == 1 || cairnOp b == 2) && cairnCount b != 0 && s.asleep (cairnTokens b) (4 * cairnCount b)
    && !s.rangeRefused (cairnTokens b) (4 * cairnCount b)

/-- A cairn command runs: it waits for its turn and for an emptying to end, and completes with its status, its result and
the taint of its rope (09 R267, R268, 12 R355). -/
def State.cairnCommand (s : State) (c : CmdSrc) (op : Nat) : State :=
  match s.cmdBytes c 4 with
  | none => s
  | some b =>
    let mine := cairnOp b == op || (op == 1 && (cairnOp b == 0 || 5 < cairnOp b))
    let named := op == 1 || op == 2 || ((op == 3 || op == 4) && !bit (field b 1 1) 0)
    let r := ropeR b
    let taint (s : State) : Bool := named && (s.rope r).taint
    if !mine || s.flag pgCairn CAIRN_STAT.SWEEP || !s.turn (s.cmdOrder c) none (if named then [r] else []) then s
    else
      let st := s.cairnStatus b
      if st ≠ stOk then s.finish c st 0 0 (taint s)
      else if s.tokensAsleep b then s
      else match op with
        | 1 => let x := s.doMatch b; x.1.finish c x.2.1 x.2.2 0 (taint x.1)
        | 2 => let x := s.doPublish b; x.1.finish c x.2.1 x.2.2 0 (taint x.1)
        | 3 => let x := s.doPin b true; x.1.finish c x.2 0 0 (taint x.1)
        | 4 => let x := s.doPin b false; x.1.finish c x.2 0 0 (taint x.1)
        | _ => let x := s.doFlush b; x.1.finish c stOk x.2 0 false

/-! ## Starting and emptying the store (09 R264, R265) -/

/-- Whether two ranges meet. -/
def rangesMeet (a n b m : Nat) : Bool := a < b + m && b < a + n && 0 < n && 0 < m

/-- The first condition of R264 that fails, 0 where all hold. -/
def State.cairnCheck (s : State) : Nat :=
  let size := s.get pgCairn CAIRN_CFG.SIZE
  let a := s.cairnBase
  let n := 2384 * s.cairnSize
  if !s.flag pgRope ROPE_STAT.ACTIVE then 1
  else if 2 < size ∨ (size ≠ 0 ∧ !s.licensed featCairn) then 2
  else if !s.inOneStack a n then 3
  else if rangesMeet a n s.metaBase s.metaLen || s.meetsEdgePool a n then 4
  else 0

/-- A write of 1 to `CAIRN_CFG.ON` while it is 0. Pages that an earlier table has left behind keep their `CAIRN` bit, and
`CAIRN_PAGES` goes on counting them (09 R273, R279). -/
def State.cairnStart (s : State) : State :=
  let e := s.cairnCheck
  let s1 := s.put pgCairn CAIRN_STAT.CFG_ERR e
  if e ≠ 0 then s1
  else
    let s2 := ((s1.deviceZero (s1.headAt 0) (64 * s1.cairnSize)).putFlag pgCairn CAIRN_CFG.ON true).putFlag pgCairn
      CAIRN_STAT.ACTIVE true
    (s2.put pgCairn CAIRN_ENTRIES.COUNT 0).put pgCairn CAIRN_PINNED.COUNT 0

/-- A damaged entry emptied: a FREE header, and the references of its record where that can be read (09 R491). -/
def State.emptyDamaged (s : State) (x : Nat) : State :=
  let r := s.cairnRead (s.recordAt x) 2048
  let s1 := match r.2 with
    | some rec =>
      let l := pagesIn rec 512
      (l.foldl (fun (s : State) p => s.releaseRef p true) r.1).lower CAIRN_PAGES.COUNT l.length
    | none => r.1
  s1.deviceBytes (s1.headAt x) (List.replicate 64 0)

/-- A write of 0 to `CAIRN_CFG.ON` while it is 1: every LIVE entry is evicted and every damaged one emptied; the end is
shown by `CAIRN_EMPTY_DONE`. -/
def State.cairnStop (s : State) : State :=
  let s1 := (s.putFlag pgCairn CAIRN_CFG.ON false).putFlag pgCairn CAIRN_STAT.SWEEP true
  let s2 := s1.usedEntries.foldl (fun s x =>
    let g := s.readHead x
    match g.2 with
    | some h => if h.state = entryLive then g.1.evict x else g.1
    | none => g.1) s1
  let s3 := s2.usedEntries.foldl (fun s x => if (s.headOf x).isNone then s.emptyDamaged x else s) s2
  (s3.put pgCairn CAIRN_ENTRIES.COUNT 0).put pgCairn CAIRN_PINNED.COUNT 0

/-- A write of `CAIRN_CFG` (09 R264, R265, R280). A write of 1 to `ON` while the store is being emptied starts nothing
(assumption log 23). -/
def State.writeCairnCfg (s : State) (v : Nat) : State :=
  let on := s.flag pgCairn CAIRN_CFG.ON
  let size := bits v 2 1
  let s1 := (if on then s.heldField pgCairn CAIRN_CFG.SIZE size else s.putRwl pgCairn CAIRN_CFG.SIZE size).put pgCairn
    CAIRN_CFG.VERIFY (bits v 0 0)
  if bit v 31 then (if on || s1.flag pgCairn CAIRN_STAT.ACTIVE then s1 else s1.cairnStart)
  else (if on then s1.cairnStop else s1)

/-- The emptying ends (09 R265). -/
def State.cairnEmptied (s : State) : State :=
  if s.flag pgCairn CAIRN_STAT.SWEEP ∧ !s.flag pgCairn CAIRN_CFG.ON then
    (s.putFlag pgCairn CAIRN_STAT.ACTIVE false).putFlag pgCairn CAIRN_STAT.SWEEP false
  else s

/-! ## The meanings of the commands -/

/-- `CAIRN_ON` (09 R264): a write of `CAIRN_CFG` with `ON` 1. -/
def execCairnOn (v : Word) (s : State) : Host.Outcome State Fault Refusal :=
  .next (s.writeCairnCfg (v.toNat % 2 ^ 31 + 2 ^ 31))

/-- `CAIRN_OFF` (09 R265): a write of `CAIRN_CFG` with `ON` 0. -/
def execCairnOff (v : Word) (s : State) : Host.Outcome State Fault Refusal := .next (s.writeCairnCfg (v.toNat % 2 ^ 31))

/-- `CAIRN_EMPTY_DONE` (09 R265). -/
def execCairnEmptyDone (s : State) : Host.Outcome State Fault Refusal := .next s.cairnEmptied

/-- `MATCH` (09 R269). -/
def execCairnMatch (c : CmdSrc) (s : State) : Host.Outcome State Fault Refusal := .next (s.cairnCommand c 1)

/-- `PUBLISH` (09 R271). -/
def execCairnPublish (c : CmdSrc) (s : State) : Host.Outcome State Fault Refusal := .next (s.cairnCommand c 2)

/-- `PIN` (09 R277). -/
def execCairnPin (c : CmdSrc) (s : State) : Host.Outcome State Fault Refusal := .next (s.cairnCommand c 3)

/-- `UNPIN` (09 R277). -/
def execCairnUnpin (c : CmdSrc) (s : State) : Host.Outcome State Fault Refusal := .next (s.cairnCommand c 4)

/-- `FLUSH` (09 R277). -/
def execCairnFlush (c : CmdSrc) (s : State) : Host.Outcome State Fault Refusal := .next (s.cairnCommand c 5)

/-- `CAIRN_SWEEP` (09 R276). -/
def execCairnSweep (need : SweepNeed) (s : State) : Host.Outcome State Fault Refusal :=
  .next (match need with
    | .cap p => (s.sweep (fun t => t.capMet p.toNat) none).1
    | .frame n => (s.frameSweep true n none).1)

end Sys2Proof.Machine
end

