-- ==== Sys2Proof/Machine/Attention.lean ====
section
/-! DEFINITION. Fused attention (10): the checks of ATTN and of its rows, KV writes, work items, the kernel's arithmetic,
the delivery of outputs, completion, and ACCEPT. -/

namespace Sys2Proof.Machine

/-! ## Fields (10 R282, R284) -/

def AttnCmd.bf16 (a : AttnCmd) : Bool := bit (field a.body 1 1) 0
def AttnCmd.layer (a : AttnCmd) : Nat := field a.body 4 1
def AttnCmd.mslot (a : AttnCmd) : Nat := field a.body 5 1 % 16
def AttnCmd.qpk (a : AttnCmd) : Nat := field a.body 6 1 % 32
def AttnCmd.sms (a : AttnCmd) : Word := BitVec.ofNat 32 (field a.body 8 4)
/-- `CSEQ` and `DONE` of an ATTN or ACCEPT body. -/
def bodyCseq (b : List Byte) : Nat := field b 12 4
def bodyDone (b : List Byte) : Nat := field b 22 6

/-- Bytes of one output (10 R288). -/
def AttnCmd.outSize (a : AttnCmd) : Nat := if a.bf16 then 256 else 512

def AttnRow.rope (x : AttnRow) : Nat := rowRope x.bytes
def AttnRow.mask (x : AttnRow) : Nat := field x.bytes 2 1 % 4
def AttnRow.q (x : AttnRow) : Nat := field x.bytes 3 1
def AttnRow.ctx (x : AttnRow) : Nat := field x.bytes 4 4
def AttnRow.win (x : AttnRow) : Nat := field x.bytes 8 4
def AttnRow.out (x : AttnRow) : Nat := field x.bytes 12 4
def AttnRow.qaddr (x : AttnRow) : Nat := field x.bytes 16 6
def AttnRow.kvaddr (x : AttnRow) : Nat := field x.bytes 22 6
def AttnRow.treeAddr (x : AttnRow) : Nat := field x.bytes 32 6

/-- A row at acceptance. -/
def rowOf (b : List Byte) : AttnRow :=
  { bytes := b, phase := .waiting, status := stOk, poison := false, met := false, len := 0, tree := [], root := none,
    items := [], parts := [], flying := [], sent := [], failed := [] }

/-- Hq, and the query heads that a pair of a layer serves (10 R282, R297). -/
def AttnCmd.heads (a : AttnCmd) (l : Lay) : Nat := l.heads * a.qpk
def AttnCmd.headsOf (a : AttnCmd) (l : Lay) (i : Nat) : List Nat :=
  (List.range (l.hpg * a.qpk)).map (fun n => i % l.groups * l.hpg * a.qpk + n)
/-- The pair of a query head, and the pairs of the command's layer. -/
def AttnCmd.pairOf (a : AttnCmd) (l : Lay) (h : Nat) : Nat := l.groups * a.layer + h / a.qpk / l.hpg
def AttnCmd.pairs (a : AttnCmd) (l : Lay) : List Nat := (List.range l.groups).map (fun g => l.groups * a.layer + g)

/-- The participants of a die, by position (10 R296). -/
def AttnCmd.onDie (a : AttnCmd) (n : Nat) : List Nat := a.parts.filter (fun t => t / 128 == n)

/-- The home of a query head of row `rho` (10 R300). -/
def AttnCmd.home (a : AttnCmd) (l : Lay) (rho h : Nat) : Nat :=
  let p := a.onDie (l.dieOf (a.pairOf l h))
  p.getD ((rho * a.heads l + h) % p.length) 0

def State.setAttn (s : State) (a : AttnCmd) : State :=
  { s with attn := { s.attn with cmds := s.attn.cmds.map (fun b => if b.id = a.id then a else b) } }

def State.attnCmd (s : State) (id : Nat) : Option AttnCmd := s.attn.cmds.find? (fun a => a.id == id)

def AttnCmd.setRow (a : AttnCmd) (rho : Nat) (x : AttnRow) : AttnCmd := { a with rows := a.rows.set rho x }

/-! ## Visibility (10 R289, R290) -/

/-- Whether node `c` is node `j` or an ancestor of it, going up at most `fuel` times. -/
def ancestor (tree : List Nat) (c : Nat) : Nat → Nat → Bool
  | 0, j => c == j
  | fuel + 1, j => c == j || (tree.getD j 0xFF < j && ancestor tree c fuel (tree.getD j 0xFF))

/-- Whether position `t` is visible to query `j`. -/
def AttnRow.visible (x : AttnRow) (j t : Nat) : Bool :=
  match x.mask with
  | 0 => t ≤ x.len + j
  | 1 => t ≤ x.len + j && x.len + j < t + x.win
  | _ => t < x.len || (t < x.len + x.q && ancestor x.tree (t - x.len) 64 j)

/-- The lowest position visible to some query; every position from it to `LEN` + q - 1 is visible to one. -/
def AttnRow.lowest (x : AttnRow) : Nat := if x.mask = 1 then x.len + 1 - x.win else 0

/-- The blocks of a row's work items (10 R297). -/
def AttnRow.blocks (x : AttnRow) : List Nat :=
  let a := x.lowest / 64
  (List.range ((x.len + x.q - 1) / 64 + 1 - a)).map (a + ·)

/-- Whether the first `n` bytes of a tree table break R290. -/
def treeBad (tree : List Nat) (n : Nat) : Bool :=
  (List.range n).any (fun c => tree.getD c 0 != 0xFF && c ≤ tree.getD c 0)

/-! ## The done sector (10 R283) -/

/-- Whether the device reaches a range that it writes: memory that is not a hole, on a die that is up, not refused. -/
def State.reachable (s : State) (a n : Nat) : Bool := s.rangeStatus a n == stOk && !s.rangeRefused a n

/-- The done sector of a command. -/
def State.writeDone (s : State) (b : List Byte) (status a c : Nat) : State :=
  let p := bodyDone b
  if p % 32 ≠ 0 || !s.reachable p 32 then s
  else (s.guardedWrite stBadCmd p [codeWord (leBytes 4 (bodyCseq b) ++ leBytes 1 status ++ List.replicate 3 0
    ++ leBytes 4 a ++ leBytes 4 c ++ List.replicate 16 0)]).1

/-- A command ends with its done sector and its completion. -/
def State.endAttn (s : State) (c : CmdSrc) (b : List Byte) (status r0 r1 : Nat) (taint : Bool) : State :=
  (s.writeDone b status r0 r1).finish c status r0 r1 taint

/-! ## ATTN (10 R291) -/

/-- Whether an ATTN body breaks its format, given whether its table can be looked at. -/
def State.attnMalformed (s : State) (b : List Byte) : Bool :=
  let rows := field b 2 2
  let m := field b 5 1
  let ropes := (List.range (attnRows b)).map (fun i => rowRope (s.metaBytes (attnTable b + 64 * i) 2))
  field b 0 1 != 1 || 2 ≤ field b 1 1 || rows == 0 || 1024 < rows || 16 ≤ m || field b 6 1 == 0 || 16 < field b 6 1
    || field b 7 1 != 0 || field b 28 4 != 0 || attnTable b % 64 != 0 || bodyDone b % 32 != 0 || !s.ropesOn
    || (s.layValid m && (s.lay m).layers ≤ field b 4 1)
    || (s.rangeStatus (attnTable b) (64 * rows) == stOk && ropes.eraseDups.length != ropes.length)

/-- The dies that hold the pairs of a layer. -/
def layerDies (l : Lay) (layer : Nat) : List Nat :=
  ((List.range l.groups).map (fun g => l.dieOf (l.groups * layer + g))).eraseDups

/-- The participants of a command (10 R296). -/
def State.participants (s : State) (dies : List Nat) : List Nat :=
  (List.range 1536).filter (fun l => dies.contains (l / 128) && s.canTakePart l)

/-- The status of an ATTN at acceptance. A table or done sector on a die that is down is DEST_DOWN (assumption log 24). -/
def State.attnStatus (s : State) (b : List Byte) : Nat :=
  let m := field b 5 1 % 16
  let n := 64 * attnRows b
  let dies := layerDies (s.lay m) (field b 4 1)
  let parts := s.participants dies
  if s.attnMalformed b then stBadCmd
  else if !s.layValid m then stBadLayout
  else if s.rangeStatus (attnTable b) n = stNoTarget ∨ s.rangeStatus (bodyDone b) 32 = stNoTarget then stNoTarget
  else if !s.reachable (attnTable b) n ∨ !s.reachable (bodyDone b) 32 then stDestDown
  else if (s.firstDamaged (attnTable b) n).isSome then stTableUE
  else if dies.any (fun d => s.prst d != prstUp || !parts.any (fun l => l / 128 == d)) then stDestDown
  else stOk

/-- ATTN accepted: refused by its checks, or put into progress. It waits for a table that is asleep (14 R397). -/
def State.attnAccept (s : State) (c : CmdSrc) : State :=
  match s.cmdBytes c 5 with
  | none => s
  | some b =>
    let op := field b 0 1 % 16
    let n := 64 * attnRows b
    let running := s.attn.cmds.any (fun a => a.src == c && (match c with | .window _ _ => true | .body _ => false))
    if op = 2 || running then s
    else if !s.attnMalformed b && s.reachable (attnTable b) n && s.asleep (attnTable b) n then s
    else
      let st := s.attnStatus b
      if st ≠ stOk then
        let s1 := if st = stTableUE then (s.readMem srcRuntime (attnTable b) n).1 else s
        s1.endAttn c b st 0 0 false
      else
        let r := s.readMem srcRuntime (attnTable b) n
        let a : AttnCmd :=
          { id := s.attn.next, order := s.cmdOrder c, src := c, body := b,
            parts := s.participants (layerDies (s.lay (field b 5 1)) (field b 4 1)), called := [], ended := [],
            lost := false, rows := (List.range (attnRows b)).map (fun i => rowOf (slice r.2.1 (64 * i) 64)) }
        { r.1 with attn := { r.1.attn with next := r.1.attn.next + 1, cmds := r.1.attn.cmds ++ [a] } }

/-! ## Rows: checks (10 R292) -/

/-- The dies that any valid layout names (10 R302). -/
def State.kernelDie (s : State) (n : Nat) : Bool :=
  (List.range 16).any (fun m => s.layValid m && bit (s.lay m).dies n)

/-- The byte ranges of a row's records: queries, new KV and, for a tree row, the tree table (10 R286, R287, R290). -/
def State.rowRanges (s : State) (a : AttnCmd) (x : AttnRow) : List (Nat × Nat) :=
  let l := s.lay a.mslot
  [(x.qaddr, 160 * x.q * a.heads l), (x.kvaddr, (2 * l.elem + 32) * x.q * l.heads)]
    ++ (if x.mask = 2 then [(x.treeAddr, 64)] else [])

/-- The parents of a row's tree. -/
def State.rowTree (s : State) (x : AttnRow) : List Nat :=
  if x.mask = 2 then (s.metaBytes x.treeAddr 64).map (·.toNat) else []

/-- The status of a row's checks. -/
def State.rowCheck (s : State) (a : AttnCmd) (x : AttnRow) : Nat :=
  let l := s.lay a.mslot
  let r := s.rope x.rope
  let b := x.bytes
  let top := x.out % 2 ^ 21 + a.outSize * x.q * a.heads l
  let code := x.out / 2 ^ 21
  let rs := s.rowRanges a x
  if 4096 ≤ field b 0 2 ∨ 4 ≤ field b 2 1 ∨ x.mask = 3 ∨ x.q = 0 ∨ 64 < x.q ∨ field b 28 4 ≠ 0 ∨ field b 38 2 ≠ 0
      ∨ (x.mask = 1 ∧ x.win = 0) ∨ (x.mask ≠ 1 ∧ x.win ≠ 0) ∨ (x.mask ≠ 2 ∧ x.treeAddr ≠ 0) ∨ x.qaddr % 32 ≠ 0
      ∨ x.kvaddr % 32 ≠ 0 ∨ x.treeAddr % 32 ≠ 0 ∨ x.out % 32 ≠ 0 ∨ 0x20_0000 < top
      ∨ (0x1C_0000 < top ∧ s.kernelDie (code / 128)) then stBadCmd
  else if r.state ≠ ropeIsOpen ∨ r.mslot ≠ a.mslot ∨ (x.mask ≠ 2 ∧ r.xlen ≠ 0) ∨ (x.mask = 2 ∧ r.xlen ≠ 0 ∧ r.xlen ≠ x.q)
    then stRopeState
  else if x.ctx ≠ r.len + x.q then stLenMismatch
  else if rs.any (fun e => s.rangeStatus e.1 e.2 == stNoTarget) ∨ 0x600 ≤ code ∨ !s.assigned code then stNoTarget
  else if rs.any (fun e => !s.reachable e.1 e.2) then stDestDown
  else if x.mask = 2 ∧ (s.firstDamaged x.treeAddr 64).isNone ∧ treeBad (s.rowTree x) x.q then stBadTree
  else if rs.any (fun e => (s.firstDamaged e.1 e.2).isSome) then stTableUE
  else stOk

/-! ## Rows: KV writes (10 R293 to R295) -/

/-- The heads of a group in the new-KV records of query `j`. -/
def State.kvHeads (s : State) (l : Lay) (x : AttnRow) (j g : Nat) : List KvHead :=
  (List.range l.hpg).map (fun i =>
    let d := s.metaBytes (x.kvaddr + (2 * l.elem + 32) * (j * l.heads + l.hpg * g + i)) (2 * l.elem + 32)
    { key := slice d 0 l.elem, value := slice d l.elem l.elem, kscale := slice d (2 * l.elem) 4,
      vscale := slice d (2 * l.elem + 4) 4 })

/-- A KV write noted on the rope: under `written`, or under `draft` for a tree row. -/
def State.noteWritten (s : State) (r : Nat) (tree : Bool) (e : Nat × Nat) : State :=
  s.modRope r (fun o =>
    if tree then { o with draft := if o.draft.contains e then o.draft else o.draft ++ [e] }
    else { o with written := if o.written.contains e then o.written else o.written ++ [e] })

/-- The KV writes of a row, position by position, until one does not complete. -/
def State.rowWrites (s : State) (a : AttnCmd) (x : AttnRow) : State × KvEnd :=
  let l := s.lay a.mslot
  ((List.range x.q).flatMap (fun j => (List.range l.groups).map (fun g => (j, g)))).foldl
    (fun (r : State × KvEnd) e =>
      if r.2 ≠ .done then r
      else
        let i := l.groups * a.layer + e.2
        let w := r.1.kvWrite x.rope (x.len + e.1) i (s.kvHeads l x e.1 e.2)
        if w.2 = .done then (w.1.noteWritten x.rope (x.mask == 2) (x.len + e.1, i), .done) else w) (s, .done)

/-! ## Rows: work items (10 R297 to R301) -/

/-- Whether a logical tile owns an NMBG slot in each bank group of its slice. -/
def State.ownsSlice (s : State) (l : Nat) : Bool :=
  (s.calOf (nmbgId (l / 128) (l % 128) 0)).has l && (s.calOf (nmbgId (l / 128) (l % 128) 1)).has l

/-- The work item of a pair and block; none where a resource that the sequencer must read has no OPEN slot. -/
def State.workItem (s : State) (a : AttnCmd) (x : AttnRow) (rho i b : Nat) : Option AttnItem :=
  let l := s.lay a.mslot
  let die := a.onDie (l.dieOf i)
  let other := die.getD ((b + rho) % die.length) 0
  let id := match s.blockRecord x.rope b with
    | some rec => s.recId rec i
    | none => noPage
  if id = noPage then some { pair := i, block := b, page := none, runner := other, own := false }
  else
    let h := (s.page id).loc
    let addr := s.frameAddr h
    if handleNear h && die.contains (handleTile h) && s.ownsSlice (handleTile h) then
      some { pair := i, block := b, page := some (id, addr), runner := handleTile h, own := true }
    else if s.rangeOpen addr (2048 * l.rows) then
      some { pair := i, block := b, page := some (id, addr), runner := other, own := false }
    else none

/-- The work items of a row, or none where one cannot be had. -/
def State.workItems (s : State) (a : AttnCmd) (x : AttnRow) (rho : Nat) : Option (List AttnItem) :=
  let l := (a.pairs (s.lay a.mslot)).flatMap (fun i => x.blocks.map (fun b => s.workItem a x rho i b))
  if l.any (·.isNone) || !s.rangeOpen x.qaddr (160 * x.q * a.heads (s.lay a.mslot)) then none else some (l.filterMap id)

/-! ## The arithmetic (10 R306 to R309) -/

/-- The 128 elements of a head vector, each with its block's scale (08 R227). -/
def headVector (fmt : Nat) (data scales : List Byte) : List FV :=
  let n := leNat data
  let w := fmtWidth fmt
  (List.range 128).map (fun e => scaleValue (elemValue fmt (unpackAt n w e)) (scales.getD (e / 32) 0).toNat)

/-- The accumulation of the products of two lists of values onto `acc` (03 R66, R67). -/
def dotOnto (ow : Bool) (a b : List FV) (acc : Word) : Word :=
  (combineLane .addFloat ow (lanePartial (a.any FV.isNaN || b.any FV.isNaN) (a.zipWith mulFV b)) acc).1

/-- A score (10 R306). -/
def scoreOf (q k : List FV) (sms : Word) : Word :=
  let h := dotOnto true (q.take 64) (k.take 64) 0
  (laneMul (dotOnto false (q.drop 64) (k.drop 64) h) sms).1

/-- FP32 to BF16, as the FP32 word of the same value (03 R80). -/
def bf16Word (w : Word) : Word := BitVec.ofNat 32 ((narrow 0xB false 0 w).1 * 2 ^ 16)

/-- m, L and O while blocks are folded. -/
structure Softmax where
  m : Word
  l : Word
  o : List Word
  deriving DecidableEq, Repr

def Softmax.init : Softmax := { m := inf32 true, l := 0, o := List.replicate 128 0 }

/-- One block folded (10 R307): the scores of its 64 slots, which are visible, and the V vectors. -/
def Softmax.block (z : Softmax) (x : List Word) (vis : List Bool) (v : List (List FV)) : Softmax :=
  let seen := (x.zip vis).filterMap (fun e => if e.2 then some e.1 else none)
  let mn := (laneMax z.m (maxAll seen).1).1
  let c := (laneExp2 (laneSub z.m mn).1).1
  let p := (x.zip vis).map (fun e => if e.2 then bf16Word (laneExp2 (laneSub e.1 mn).1).1 else 0)
  let lb := (sumTree p).1
  let half (d start : Nat) : List (FV × FV) :=
    (List.range 32).map (fun i =>
      if vis.getD (start + i) false then (value32 (p.getD (start + i) 0), (v.getD (start + i) []).getD d (.fin false 0))
      else (.fin false 0, .fin false 0))
  let ob (d : Nat) : Word :=
    let a := half d 0
    let b := half d 32
    dotOnto false (b.map (·.1)) (b.map (·.2)) (dotOnto true (a.map (·.1)) (a.map (·.2)) 0)
  { m := mn, l := (laneFma z.l c lb).1, o := (List.range 128).map (fun d => (laneFma (z.o.getD d 0) c (ob d)).1) }

/-- One partial folded by the home (10 R308). -/
def Softmax.fold (z : Softmax) (k : AttnPart) : Softmax :=
  let mn := (laneMax z.m k.m).1
  let c1 := (laneExp2 (laneSub z.m mn).1).1
  let c2 := (laneExp2 (laneSub k.m mn).1).1
  { m := mn, l := (laneFma k.l c2 (laneMul z.l c1).1).1,
    o := (List.range 128).map (fun d => (laneFma (k.o.getD d 0) c2 (laneMul (z.o.getD d 0) c1).1).1) }

/-- The outputs from what the home has folded, as bytes, with the flag of a conversion beyond the BF16 range (10 R288,
R308). -/
def Softmax.output (z : Softmax) (bf16 : Bool) (fresh : Nat) : List Byte × Nat :=
  let r := (laneRcp z.l).1
  let l := (List.range 128).map (fun d =>
    let w := (laneMul (z.o.getD d 0) r).1
    if bf16 then
      let n := narrow 0xB false (Config.freeValue (fresh + d)).toNat w
      (leBytes 2 n.1, n.2 &&& flagCvtSat)
    else (leBytes 4 w.toNat, 0))
  (l.flatMap (·.1), l.foldl (fun f e => flagOr f e.2) 0)

/-- What a work item has read of its page: for each head of the group and each slot its K and V vectors. -/
def pageVector (l : Lay) (page : List Byte) (key : Bool) (j tau : Nat) : List FV :=
  let at_ := if key then l.keyAt j tau else l.valueAt j tau
  headVector (if l.fp4 then 0x9 else 0x4) (slice page at_ l.elem)
    (slice page (l.scaleAt tau + (if key then 0 else 4 * l.hpg) + 4 * j) 4)

/-- The partial of query `j`, head `h` over the blocks that tile `t` holds for a pair, each with its page's bytes, ascending;
none where no block holds a visible position (10 R307). -/
def partialOf (a : AttnCmd) (l : Lay) (x : AttnRow) (query : List Byte) (t j h : Nat) (blocks : List (Nat × List Byte)) :
    Option AttnPart :=
  let vis (b : Nat) : List Bool := (List.range 64).map (fun tau => x.visible j (64 * b + tau))
  let mine := blocks.filter (fun e => (vis e.1).any id)
  let head := h / a.qpk % l.hpg
  let q := headVector 0x5 (slice query 0 128) (slice query 128 4)
  match mine with
  | [] => none
  | (low, _) :: _ =>
    let z := mine.foldl (fun (z : Softmax) e =>
      z.block ((List.range 64).map (fun tau => scoreOf q (pageVector l e.2 true head tau) a.sms)) (vis e.1)
        ((List.range 64).map (fun tau => pageVector l e.2 false head tau))) Softmax.init
    some { tile := t, query := j, head := h, low := low, m := z.m, l := z.l, o := z.o }

/-! ## The kernel's work (10 R303, R310) -/

/-- A page that the sequencer reads is written into the kernel region of the tile that works on it, at a place that is free
(10 R298, assumption log 51). -/
def State.toKernel (s : State) (t addr n : Nat) : State :=
  let f := s.free
  f.2.moveSectors addr (f.2.sramAt t (0x1C_0000 + 32 * (f.1.toNat % (8193 - n)))) n

/-- The page of a work item read by its tile, or by the sequencer for it: sectors that are damaged read as zero, each a tile
data load that taints the row's rope (10 R298, R310, 13 R370 to R372). -/
def State.itemRead (s : State) (t rope : Nat) (l : Lay) (i : AttnItem) : State × List Byte :=
  match i.page with
  | none => (s, List.replicate (l.scaleAt 64) 0)
  | some (_, addr) =>
    let xs := sectorsOf addr (l.scaleAt 64)
    let s1 := if i.own then s.reportAll s.errPage srcOwner xs else s.toKernel t addr xs.length
    let s2 := (xs.filter (fun x => (s.sector x).1.damaged)).foldl (fun s _ =>
      s.zeroLoad t (BitVec.ofNat 32 (2 ^ 31 + rope))) s1
    (s2, xs.flatMap (fun x => if (s.sector x).1.damaged then List.replicate 32 0 else slice (s.sector x).2 0 32))

/-- The partials that tile `t`, logical number `n`, makes for a row. -/
def State.rowPartials (s : State) (t n : Nat) (a : AttnCmd) (x : AttnRow) : State × List AttnPart :=
  let l := s.lay a.mslot
  (a.pairs l).foldl (fun (r : State × List AttnPart) i =>
    let items := x.items.filter (fun e => e.runner == n && e.pair == i)
    let read := items.foldl (fun (r : State × List (Nat × List Byte)) e =>
      let p := r.1.itemRead t x.rope l e
      (p.1, r.2 ++ [(e.block, p.2)])) (r.1, [])
    let parts := (List.range x.q).flatMap (fun j => (a.headsOf l i).filterMap (fun h =>
      partialOf a l x (s.metaBytes (x.qaddr + 160 * (j * a.heads l + h)) 132) n j h read.2))
    (read.1, r.2 ++ parts)) (s, [])

/-! ## Outputs (10 R288, R300, R490) -/

/-- The message of one output set out from its home, as a transfer of that tile (10 R288, R304): the status with which it
fails at once, or none while it is on its way. -/
def State.sendOutput (s : State) (a : AttnCmd) (x : AttnRow) (rho home j h : Nat) (words : List (List Byte)) :
    State × Option Nat :=
  let dest := 2 ^ 21 * (x.out / 2 ^ 21) + x.out % 2 ^ 21 + a.outSize * (j * a.heads (s.lay a.mslot) + h)
  let t := (s.physOf home).getD 0
  let n := a.outSize / 32
  let out := dest / 2 ^ 21 / 128 != home / 128
  let st := s.nsndStatus t dest n
  if st ≠ stOk then (s.noteDown st (sramBase (dest / 2 ^ 21) + dest % 2 ^ 21) a.outSize, some st)
  else if out && !s.ownsSlot t (s.injOf t) then (s, some stNoSlot)
  else
    let new (id : Nat) : Xfer :=
      { id := id, kind := .nsnd, sram := 0, target := dest, sectors := n, todo := [], status := stOk, ue := false,
        waits := true, inject := if out then 1 + n else 0, body := 0, sent := some words,
        out := some { cmd := a.id, row := rho, query := j, head := h } }
    (s.modTile t (fun u => { u with nextId := u.nextId + 1, xfers := u.xfers ++ [new u.nextId] }), none)

/-- The tiles whose results an output needs: those with work for its pair, and its home (10 R300). -/
def AttnCmd.makers (a : AttnCmd) (l : Lay) (x : AttnRow) (rho h : Nat) : List Nat :=
  a.home l rho h :: (x.items.filter (fun e => e.pair == a.pairOf l h)).map (·.runner)

/-- Whether every taint notice of a logical tile is confirmed: until then it issues nothing (13 R372). -/
def State.confirmed (s : State) (n : Nat) : Bool :=
  match s.physOf n with
  | some t => (s.tile t).taintWait.isEmpty
  | none => true

/-- Whether the output of query `j`, head `h` can be folded and sent: every tile that it needs has called the kernel and
issues, and the home has fewer than 16 messages outstanding (04 R97). -/
def State.outReady (s : State) (a : AttnCmd) (x : AttnRow) (rho h : Nat) : Bool :=
  let l := s.lay a.mslot
  (a.makers l x rho h).all (fun n => a.called.contains n && s.confirmed n)
    && ((s.tile ((s.physOf (a.home l rho h)).getD 0)).xfers.filter (·.out.isSome)).length < 16

/-- The outputs of a row that are neither delivered nor failed, and of those the ones still to be sent. -/
def AttnRow.left (x : AttnRow) (heads : Nat) : List (Nat × Nat) :=
  ((List.range x.q).flatMap (fun j => (List.range heads).map (fun h => (j, h)))).filter (fun e =>
    !x.sent.contains e && !x.failed.any (fun f => (f.1, f.2.1) == e))
def AttnRow.unsent (x : AttnRow) (heads : Nat) : List (Nat × Nat) := (x.left heads).filter (fun e => !x.flying.contains e)

/-- The code words of an output with the flags that its home raises: poisoned for a row that failed, else folded from its
partials (10 R295, R308). -/
def State.outputWords (s : State) (a : AttnCmd) (x : AttnRow) (j h : Nat) : List (List Byte) × Nat :=
  if x.poison then (List.replicate (a.outSize / 32) poisonWord, 0)
  else
    let parts := x.parts.filter (fun p => p.query == j && p.head == h)
    let lows := (parts.map (·.low)).foldl max 0
    let sorted := (List.range (lows + 1)).flatMap (fun b => parts.filter (fun p => p.low == b))
    let o := (sorted.foldl Softmax.fold Softmax.init).output a.bf16 s.fresh
    (codeWords o.1, o.2)

/-- One output of a row sent, where it can be. -/
def State.rowOutput (s : State) (a : AttnCmd) (x : AttnRow) (rho : Nat) (e : Nat × Nat) : State × AttnRow :=
  if !s.outReady a x rho e.2 then (s, x)
  else
    let home := a.home (s.lay a.mslot) rho e.2
    let w := s.outputWords a x e.1 e.2
    let s1 := s.modTile ((s.physOf home).getD 0) (fun u => { u with astat := flagOr u.astat w.2 })
    let g := { s1 with fresh := s1.fresh + 128 }.sendOutput a x rho home e.1 e.2 w.1
    match g.2 with
    | none => (g.1, { x with flying := x.flying ++ [e] })
    | some st => (g.1, { x with failed := x.failed ++ [(e.1, e.2, st)] })

/-- The status of a row whose outputs have all ended: its own, or the lowest of its failed outputs (10 R490). -/
def AttnRow.endStatus (x : AttnRow) : Nat :=
  if x.status = stOk then (x.failed.map (fun f => f.2.2)).foldl (fun m c => if m = 0 ∨ c < m then c else m) 0 else x.status

/-- One row's outputs sent as far as they can be; the row is done once none is left (10 R490). -/
def State.rowOutputs (s : State) (a : AttnCmd) (x : AttnRow) (rho : Nat) : State × AttnRow :=
  let heads := a.heads (s.lay a.mslot)
  if x.phase ≠ .served then (s, x)
  else
    let r := (x.unsent heads).foldl (fun (r : State × AttnRow) e => r.1.rowOutput a r.2 rho e) (s, x)
    if (r.2.left heads).isEmpty then (r.1, { r.2 with phase := .done, status := r.2.endStatus }) else r

/-- The end of an output told to its row. -/
def AttnRow.ended (x : AttnRow) (o : OutTag) (status : Nat) : AttnRow :=
  let e := (o.query, o.head)
  if !x.flying.contains e then x
  else
    let y := { x with flying := x.flying.filter (· != e) }
    if status = stOk then { y with sent := y.sent ++ [e] } else { y with failed := y.failed ++ [(o.query, o.head, status)] }

/-- The outputs whose messages have ended, told to their commands. -/
def State.hearOutputs (s : State) : State :=
  let l := s.tiles.flatMap (fun e => e.2.outEnded)
  let hear (a : AttnCmd) : AttnCmd := l.foldl (fun a e =>
    if e.1.cmd = a.id then match a.rows[e.1.row]? with
      | some x => a.setRow e.1.row (x.ended e.1 e.2)
      | none => a
    else a) a
  if l.isEmpty then s
  else { s with
    tiles := mapUpd Tile.init s.tiles (fun _ u => { u with outEnded := [] })
    attn := { s.attn with cmds := s.attn.cmds.map hear } }

/-! ## The end of a call (10 R303, R304) -/

/-- Free words as the contents of `n` places. -/
def freeMap (fresh n : Nat) : List (Nat × Word) :=
  ((List.range n).map (fun i => (i, Config.freeValue (fresh + i)))).filter (fun e => e.2 ≠ 0)

/-- A call returns to ra in bundle mode with a0 (10 R303): the registers, planes, accumulators and masks that R304 names
are free, `ASTAT` may gain bits but for `CVT_SAT`, which the outputs decide (10 R308), and the array is warm after work. -/
def State.kernelReturn (s : State) (t code : Nat) (worked : Bool) : State :=
  let u := s.tile t
  let f := s.fresh
  let keep := u.x.filter (fun e => e.1 < 5 || e.1 == 8 || e.1 == 9 || 18 ≤ e.1 && e.1 < 28)
  let scratch := (List.range 32).filter (fun i => !(i < 5 || i == 8 || i == 9 || (18 ≤ i && i < 28)))
  let x := scratch.foldl (fun m i => mapSet 0 m i (if i = 10 then BitVec.ofNat 32 code else Config.freeValue (f + i))) keep
  let bytes := (List.range 8704).map (fun i => (i, (Config.freeValue (f + 4200 + i)).truncate 8))
  let masks := (List.range 8).map (fun i => (i, Config.freeValue (f + 4128 + 2 * i) ++ Config.freeValue (f + 4129 + 2 * i)))
  let s1 := s.setTile t { u with
    x := x, v := freeMap (f + 32) 2048, acc := freeMap (f + 2080) 2048, masks := masks.filter (fun e => e.2 ≠ 0),
    planes := bytes.filter (fun e => e.2 ≠ 0), astat := flagOr u.astat ((Config.freeValue (f + 4144)).toNat &&& (astatMask - flagCvtSat)),
    pc := (u.xr 1).toNat, bmode := true, inKernel := false, idle := 0 }
  let s2 := { s1 with fresh := f + 12904 }
  if worked then s2.setArr t rampOn 8 else s2

/-- Whether a participant's share of a command is done: every output it is home of is delivered or failed, or the rows
have timed out. -/
def State.shareDone (s : State) (a : AttnCmd) (n : Nat) : Bool :=
  let l := s.lay a.mslot
  a.lost || (List.range a.rows.length).all (fun rho => match a.rows[rho]? with
    | some x => x.phase == .done || (x.phase == .served && (x.left (a.heads l)).all (fun e => a.home l rho e.2 != n))
    | none => true)

/-- The outputs of one command sent, and the calls ended that have nothing left to do. -/
def State.settleCmd (s : State) (id : Nat) : State :=
  match s.attnCmd id with
  | none => s
  | some a =>
    let r := (List.range a.rows.length).foldl (fun (r : State × AttnCmd) rho => match r.2.rows[rho]? with
      | some x =>
        let g := r.1.rowOutputs r.2 x rho
        (g.1, r.2.setRow rho g.2)
      | none => r) (s, a)
    let due := r.2.called.filter (fun n => !r.2.ended.contains n && r.1.shareDone r.2 n)
    let worked (n : Nat) : Bool := r.2.rows.any (fun x => x.items.any (fun i => i.runner == n))
    due.foldl (fun s n => match s.physOf n with
      | some t => s.kernelReturn t (if a.lost then 2 else 0) (worked n)
      | none => s) (r.1.setAttn { r.2 with ended := r.2.ended ++ due })

/-- Every attention command taken as far as it goes. -/
def State.attnSettle (s : State) : State :=
  let s1 := s.hearOutputs
  s1.attn.cmds.foldl (fun s a => s.settleCmd a.id) s1

/-! ## ATTN_ROW_CHECK (10 R292 to R301) -/

/-- A row that ends early: its outputs go out poisoned (10 R295, R298). -/
def AttnRow.failWith (x : AttnRow) (status : Nat) : AttnRow := { x with phase := .served, status := status, poison := true }

/-- The scores of the pages that a row's items read, each once (10 R301). -/
def State.scoreItems (s : State) (r : Nat) (items : List AttnItem) : State :=
  ((items.filterMap (fun i => i.page.map (·.1))).eraseDups).foldl (fun s x => s.scorePage r x) s

/-- A row whose turn has come: checked, its KV written, its work handed out. -/
def State.rowServe (s : State) (a : AttnCmd) (rho : Nat) (x : AttnRow) : State :=
  let st := s.rowCheck a x
  let keep (s : State) (x : AttnRow) : State := s.setAttn (a.setRow rho x)
  if st ≠ stOk then
    let s1 := if st = stTableUE then (s.rowRanges a x).foldl (fun s e => (s.readMem srcRuntime e.1 e.2).1) s else s
    keep s1 { x with phase := .done, status := st }
  else if (s.rowRanges a x).any (fun e => s.asleep e.1 e.2) then s
  else
    let s0 := (s.rowRanges a x).foldl (fun s e => (s.readMem srcRuntime e.1 e.2).1) s
    let x0 := { x with len := (s.rope x.rope).len, tree := s.rowTree x }
    let w := s0.rowWrites a x0
    let x1 := { x0 with root := some (w.1.rope x.rope).root }
    let wrote := (w.1.rope x.rope).written != (s.rope x.rope).written || (w.1.rope x.rope).draft != (s.rope x.rope).draft
    let y := { x with root := if wrote then x1.root else x.root }
    match w.2 with
    | .wait => keep w.1 y
    | .need n copy =>
      let auto := (w.1.rope x.rope).tier == 0
      if x.met && w.1.kv.zeroing.any (w.1.frameServes auto n copy) then keep w.1 y
      else
        let g := w.1.frameSweep auto n copy
        if g.2 then keep g.1 { y with met := true }
        else keep (g.1.count pgRope ROPE_NOFRAME.COUNT 1) (x1.failWith stNoFrame)
    | .fail st => keep (if st = stNoFrame then w.1.count pgRope ROPE_NOFRAME.COUNT 1 else w.1) (x1.failWith st)
    | .done =>
      let s1 := w.1.meetPages x.rope x1.blocks (a.pairs (w.1.lay a.mslot))
      match s1.workItems a x1 rho with
      | none => keep s1 (x1.failWith stNoSlot)
      | some items => keep (s1.scoreItems x.rope items) { x1 with phase := .served, items := items }

/-- `ATTN_ROW_CHECK`: nothing happens before every earlier operation on the row's rope has completed. -/
def State.attnRowCheck (s : State) (id rho : Nat) : State :=
  match s.attnCmd id with
  | none => s
  | some a =>
    match a.rows[rho]? with
    | none => s
    | some x =>
      if x.phase ≠ .waiting || !s.turn a.order (some a.id) [x.rope] then s
      else (s.rowServe a rho x).attnSettle

/-! ## Calls of the kernel (10 R303 to R305) -/

/-- Where the kernel is entered (10 R302). -/
def kernelEntry : Nat := 0x1C_0000

/-- Whether a tile stands at a call of the kernel as R303 wants it. -/
def State.atKernel (s : State) (t cseq : Nat) : Bool :=
  let u := s.tile t
  s.issues t && u.bmode && u.pc == kernelEntry && (u.xr 10).toNat == cseq && u.live.isEmpty && !u.fault

/-- The command for which a call has a work list: its rows are checked, the tile is a participant and has not called. -/
def State.callFor (s : State) (n cseq : Nat) : Option AttnCmd :=
  s.attn.cmds.find? (fun a => bodyCseq a.body == cseq && a.parts.contains n && !a.called.contains n
    && a.rows.all (fun x => x.phase != .waiting))

/-- The call that a participant still owes to a completed command. -/
def State.owedCall (s : State) (n cseq : Nat) : Option (Nat × Nat × Nat) :=
  s.attn.owed.find? (fun e => e.1 == n && e.2.1 == cseq)

/-- `ATTN_KERNEL_CALL`: a participant's call that finds its work list. -/
def State.kernelCall (s : State) (t cseq : Nat) : State :=
  match s.logicalOf t with
  | none => s
  | some n =>
    if !s.atKernel t cseq then s
    else match s.owedCall n cseq with
      | some e =>
        { s with attn := { s.attn with owed := s.attn.owed.erase e } }.kernelReturn t e.2.2 false
      | none =>
        match s.callFor n cseq with
        | none => s
        | some a =>
          if a.lost then
            (s.setAttn { a with called := a.called ++ [n], ended := a.ended ++ [n] }).kernelReturn t 2 false
          else
            let s1 := s.modTile t (fun u => { u with inKernel := true })
            let r := (List.range a.rows.length).foldl (fun (r : State × AttnCmd) rho => match r.2.rows[rho]? with
              | some x =>
                if x.phase ≠ .served || x.poison then r
                else
                  let p := r.1.rowPartials t n a x
                  (p.1, r.2.setRow rho { x with parts := x.parts ++ p.2 })
              | none => r) (s1, { a with called := a.called ++ [n] })
            (r.1.setAttn r.2).attnSettle

/-- `ATTN_KERNEL_TIMEOUT`: 10 ms have passed since a call that found no work list. -/
def State.kernelTimeout (s : State) (t cseq : Nat) : State :=
  match s.logicalOf t with
  | none => s
  | some n =>
    if s.atKernel t cseq && (s.callFor n cseq).isNone && (s.owedCall n cseq).isNone then s.kernelReturn t 1 false else s

/-- A row that is not done when the 10 ms have passed (10 R305): each output that is left is sent poisoned or not at all,
and one on its way stops. -/
def State.loseRow (s : State) (a : AttnCmd) (rho : Nat) (x : AttnRow) : State :=
  let l := s.lay a.mslot
  let stopped := { s with tiles := mapUpd Tile.init s.tiles (fun _ u => { u with
    xfers := u.xfers.filter (fun y => y.out.all (fun o => o.cmd != a.id || o.row != rho)) }) }
  (x.left (a.heads l)).foldl (fun (s : State) e =>
    let f := s.free
    if x.phase = .served ∧ f.1.toNat % 2 = 1 then
      (f.2.sendOutput a x rho (a.home l rho e.2) e.1 e.2 (List.replicate (a.outSize / 32) poisonWord)).1
    else f.2) stopped

/-- `ATTN_ROW_TIMEOUT` (10 R305): 10 ms have passed since the command's acceptance, for each of its rows that is not
done. -/
def State.rowTimeout (s : State) (id rho : Nat) : State :=
  match s.attnCmd id with
  | none => s
  | some a =>
    match a.rows[rho]? with
    | none => s
    | some x =>
      if x.phase = .done then s
      else
        let s1 := (List.range a.rows.length).foldl (fun (s : State) i => match a.rows[i]? with
          | some y => if y.phase = .done then s else s.loseRow a i y
          | none => s) s
        let lose (y : AttnRow) : AttnRow :=
          if y.phase = .done then y else { y with phase := .done, status := stLost, flying := [] }
        (s1.setAttn { a with lost := true, rows := a.rows.map lose }).attnSettle

/-! ## Completion (10 R283, R285, R294) -/

/-- `LEN` of a rope past every leading position that all pairs have written (10 R294). -/
def Rope.advance (pairs : Nat) : Nat → Rope → Rope
  | 0, o => o
  | fuel + 1, o =>
    if pairs ≤ (o.written.filter (fun e => e.1 == o.len)).length ∧ 0 < pairs then
      Rope.advance pairs fuel { o with len := o.len + 1, written := o.written.filter (fun e => e.1 != o.len) }
    else o

/-- What a row's completion does to its rope. -/
def State.rowLength (s : State) (a : AttnCmd) (x : AttnRow) : State :=
  if x.root.isNone then s
  else s.modRope x.rope (fun o =>
    if x.mask = 2 then { o with xlen := x.q } else Rope.advance (s.lay a.mslot).pairs 64 o)

/-- The second half of a row as the device rewrites it (10 R284, R285). A row that wrote no KV has no page-list root at its
KV write: those bytes are free. -/
def State.rowRewrite (s : State) (a : AttnCmd) (rho : Nat) (x : AttnRow) : State :=
  let p := attnTable a.body + 64 * rho + 32
  let o := s.rope x.rope
  let f := s.free
  let g := f.2.free
  let root := x.root.getD (f.1.toNat + 2 ^ 32 * (g.1.toNat % 2 ^ 16))
  let s1 := if x.root.isNone then g.2 else s
  if !s1.reachable p 32 then s1
  else (s1.guardedWrite stBadCmd p [codeWord (slice x.bytes 32 8 ++ leBytes 1 x.status ++ leBytes 1 (b2n o.taint) ++ [0, 0]
    ++ leBytes 4 o.gen ++ leBytes 6 root ++ List.replicate 10 0)]).1

/-- Frames that waited for a command return to be zeroed once no other holds them (08 R253). -/
def State.releaseLate (s : State) (id : Nat) : State :=
  let late := s.kv.late.map (fun e => (e.1, e.2.filter (· != id)))
  let s1 := { s with kv := { s.kv with late := late.filter (fun e => !e.2.isEmpty) } }
  ((late.filter (fun e => e.2.isEmpty)).map (·.1)).foldl State.freeFrame s1

/-- `ATTN_COMPLETE`: once every row is done, and the taint notices of its participants are confirmed; it waits for memory
that is asleep. -/
def State.attnComplete (s : State) (id : Nat) : State :=
  match s.attnCmd id with
  | none => s
  | some a =>
    let table := attnTable a.body
    let n := 64 * a.rows.length
    let noticed := a.parts.any (fun l => match s.physOf l with
      | some t => !(s.tile t).taintWait.isEmpty
      | none => false)
    let waits := (s.reachable table n && s.asleep table n) || (s.reachable (bodyDone a.body) 32 && s.asleep (bodyDone a.body) 32)
    if a.rows.any (fun x => x.phase != .done) || noticed || waits then s
    else
      let s1 := a.rows.foldl (fun s x => s.rowLength a x) s
      let s2 := (List.range a.rows.length).foldl (fun s rho => match a.rows[rho]? with
        | some x => s.rowRewrite a rho x
        | none => s) s1
      let failed := (a.rows.filter (fun x => x.status != stOk)).length
      let tainted := (a.rows.filter (fun x => (s2.rope x.rope).taint)).length
      let owed := (a.parts.filter (fun l => !a.called.contains l)).map (fun l => (l, bodyCseq a.body, if a.lost then 2 else 0))
      let s3 := { s2 with attn := { s2.attn with
        cmds := s2.attn.cmds.filter (fun b => b.id != id), owed := s2.attn.owed ++ owed } }
      (s3.releaseLate id).endAttn a.src a.body stOk failed tainted (tainted != 0)

/-! ## ACCEPT (10 R311 to R314) -/

def acceptTable (b : List Byte) : Nat := field b 16 6

/-- Whether an ACCEPT body breaks its format. -/
def acceptMalformed (b : List Byte) : Bool :=
  field b 0 1 != 2 || field b 1 1 != 0 || 4096 ≤ field b 2 2 || field b 8 4 != 0 || field b 28 4 != 0
    || acceptTable b % 32 != 0 || bodyDone b % 32 != 0

/-- The tables of an ACCEPT: candidate tokens, predictions and parents. -/
structure Draft where
  token : List Nat
  pred : List Nat
  tree : List Nat
  deriving DecidableEq, Repr

def draftOf (b : List Byte) : Draft :=
  { token := (List.range 64).map (fun c => field b (4 * c) 4), pred := (List.range 64).map (fun c => field b (256 + 4 * c) 4),
    tree := (List.range 64).map (fun c => field b (512 + c) 1) }

/-- The path from a root to each node below `n` that is accepted, none for the others, in node order (10 R312). -/
def Draft.paths (d : Draft) (first n : Nat) : List (Option (List Nat)) :=
  (List.range n).foldl (fun (l : List (Option (List Nat))) c =>
    let p := d.tree.getD c 0xFF
    let above : Option (List Nat × Nat) :=
      if p = 0xFF then some ([], first) else (l.getD p none).map (fun q => (q, d.pred.getD p 0))
    l ++ [match above with
      | some (q, expect) => if d.token.getD c 0 = expect then some (q ++ [c]) else none
      | none => none]) []

/-- The accepted path: to the deepest accepted node, the lowest of equally deep ones. -/
def Draft.path (d : Draft) (first n : Nat) : List Nat :=
  (d.paths first n).foldl (fun (m : List Nat) p => match p with
    | some q => if m.length < q.length then q else m
    | none => m) []

/-- Whether every position of a draft of `n` nodes is written for all pairs. -/
def Rope.draftWhole (o : Rope) (pairs n : Nat) : Bool :=
  (List.range n).all (fun j => pairs ≤ (o.draft.filter (fun e => e.1 == o.len + j)).length)

/-- The status of an ACCEPT (10 R313). A table or done sector on a die that is down is DEST_DOWN (assumption log 24). -/
def State.acceptStatus (s : State) (b : List Byte) : Nat :=
  let p := acceptTable b
  let o := s.rope (field b 2 2 % 4096)
  if acceptMalformed b || !s.ropesOn then stBadCmd
  else if s.rangeStatus p 576 = stNoTarget ∨ s.rangeStatus (bodyDone b) 32 = stNoTarget then stNoTarget
  else if !s.reachable p 576 ∨ !s.reachable (bodyDone b) 32 then stDestDown
  else if (s.firstDamaged p 576).isSome then stTokenUE
  else if o.state ≠ ropeIsOpen ∨ o.xlen = 0 ∨ !o.draftWhole (s.lay o.mslot).pairs o.xlen then stRopeState
  else if treeBad (draftOf (s.metaBytes p 576)).tree o.xlen then stBadTree
  else stOk

/-- The page IDs of pair `i` in the blocks from `b` to `c` of a rope, with their blocks. -/
def State.pagesBetween (s : State) (r i b c : Nat) : List (Nat × Nat) :=
  ((List.range (c + 1 - b)).map (b + ·)).filterMap (fun k => (s.blockRecord r k).bind (fun rec =>
    let id := s.recId rec i
    if id = noPage then none else some (k, id)))

/-- Step 1 of R314 for one pair: the slot of one position to another. -/
def State.copySlot (s : State) (r i src dst : Nat) : State :=
  let l := s.lay (s.rope r).mslot
  let page (p : Nat) : Option Nat := ((s.pagesBetween r i (p / 64) (p / 64)).head?).map (fun e => s.frameAddr (s.page e.2).loc)
  match page src, page dst with
  | some a, some b =>
    let s1 := (List.range l.hpg).foldl (fun s j =>
      (s.moveSectors (a + l.keyAt j (src % 64)) (b + l.keyAt j (dst % 64)) (l.elem / 32)).moveSectors
        (a + l.valueAt j (src % 64)) (b + l.valueAt j (dst % 64)) (l.elem / 32)) s
    s1.moveSectors (a + l.scaleAt (src % 64)) (b + l.scaleAt (dst % 64)) (l.scaleRec / 32)
  | _, _ => s

/-- Whether row `k` of a page holds a byte of a slot below `n`. -/
def Lay.rowHolds (l : Lay) (n k : Nat) : Bool :=
  let meets (a b : Nat) : Bool := a < 2048 * (k + 1) && 2048 * k < b
  0 < n && ((List.range l.hpg).any (fun j =>
    meets (l.keyAt j 0) (l.keyAt j 0 + n * l.elem) || meets (l.valueAt j 0) (l.valueAt j 0 + n * l.elem))
      || meets (l.scaleAt 0) (l.scaleAt n))

/-- Steps 3 and 4 of R314 for one page of block `b`: released, or cleared of the rejected slots by row engines. -/
def State.trimPage (s : State) (r i len b x id : Nat) : State :=
  let l := s.lay (s.rope r).mslot
  if len ≤ 64 * b then
    match s.blockRecord r b with
    | some rec => (s.setRecId rec i noPage).releaseRef x false
    | none => s
  else
    let n := min 64 (len - 64 * b)
    let s1 := s.modPage x (fun e => { e with full := n == 64 })
    let a := s1.frameAddr (s1.page x).loc
    (List.range l.rows).foldl (fun s k =>
      if l.rowHolds n k then s else s.issueRow (.draft id) (a + 2048 * k) none) s1

/-- An ACCEPT whose zeroing is over completes (10 R314): the frames released are back in their pools, and the row commands
have completed; the page mover zeroes the rows that they did not, waiting for a die that is not UP (08 R250). -/
def State.acceptEnd (s : State) (a : AcceptRun) : State :=
  let left := (s.jobsFor (.draft a.id)).filter (fun j => j.status != some stOk)
  let down (j : KvJob) : Bool := match targetOf j.dst with
    | .near l _ => s.dieDown (l / 128)
    | _ => false
  if !s.jobsOver (.draft a.id) || a.frames.any s.kv.zeroing.contains || left.any down then s
  else
    let s1 := (left.foldl (fun s j => s.deviceZero j.dst 2048) s).dropJobs (.draft a.id)
    { s1 with attn := { s1.attn with accepts := s1.attn.accepts.filter (· != a) } }.endAttn a.src a.body stOk a.count a.bonus
      (s1.rope a.rope).taint

/-- Every ACCEPT that can complete. -/
def State.acceptsEnd (s : State) : State := s.attn.accepts.foldl State.acceptEnd s

/-- `ACCEPT`: it waits for its turn, for memory that is asleep, and for pages that move or are copied or whose die is not
UP. -/
def State.acceptRun (s : State) (c : CmdSrc) : State :=
  match s.cmdBytes c 5 with
  | none => s
  | some b =>
    let r := field b 2 2 % 4096
    let o := s.rope r
    let p := acceptTable b
    if field b 0 1 % 16 ≠ 2 || !s.turn (s.cmdOrder c) none [r] then s
    else
      let st := s.acceptStatus b
      let asleep := (s.reachable p 576 && s.asleep p 576) || (s.reachable (bodyDone b) 32 && s.asleep (bodyDone b) 32)
      if st ≠ stBadCmd && asleep then s
      else if st ≠ stOk then
        let s1 := if st = stTokenUE then (s.readMem srcRuntime p 576).1 else s
        s1.endAttn c b st 0 0 o.taint
      else
        let pairs := List.range (s.lay o.mslot).pairs
        let pages := pairs.flatMap (fun i => (s.pagesBetween r i (o.len / 64) ((o.len + o.xlen - 1) / 64)).map (fun e => (i, e)))
        let busy (x : Nat) : Bool :=
          let e := s.page x
          e.state == pageMoving || s.pageDown x || s.copies x
        if pages.any (fun e => busy e.2.2) then s
        else
          let t := (s.meetPages r ((List.range ((o.len + o.xlen - 1) / 64 + 1 - o.len / 64)).map (o.len / 64 + ·)) pairs).readMem
            srcRuntime p 576
          let d := draftOf t.2.1
          let path := d.path (field b 4 4) o.xlen
          let m := path.length
          let bonus := match path.getLast? with
            | some x => d.pred.getD x 0
            | none => field b 4 4
          let s1 := (List.range m).foldl (fun s k =>
            let src := path.getD k k
            if src = k then s else pairs.foldl (fun s i => s.copySlot r i (o.len + src) (o.len + k)) s) t.1
          let s2 := s1.modRope r (fun o => { o with len := o.len + m, xlen := 0, draft := [], written := [] })
          let s3 := pages.foldl (fun s e => s.trimPage r e.1 (o.len + m) e.2.1 e.2.2 s.kv.nextJob) s2
          let run : AcceptRun :=
            { id := s.kv.nextJob, order := s.cmdOrder c, src := c, body := b, rope := r, count := m, bonus := bonus,
              frames := s3.kv.zeroing.filter (fun h => !s2.kv.zeroing.contains h) }
          { s3 with attn := { s3.attn with accepts := s3.attn.accepts ++ [run] } }.acceptEnd run

/-! ## The meanings of the commands -/

/-- `ATTN` (10 R291). -/
def execAttn (c : CmdSrc) (s : State) : Host.Outcome State Fault Refusal := .next (s.attnAccept c)

/-- `ATTN_ROW_CHECK` (10 R292). -/
def execAttnRowCheck (a : Nat) (row : BitVec 10) (s : State) : Host.Outcome State Fault Refusal :=
  .next (s.attnRowCheck a row.toNat)

/-- `ATTN_KERNEL_CALL` (10 R303). -/
def execAttnKernelCall (t : TileId) (cseq : Word) (s : State) : Host.Outcome State Fault Refusal :=
  .next (s.kernelCall t cseq.toNat)

/-- `ATTN_KERNEL_TIMEOUT` (10 R303). -/
def execAttnKernelTimeout (t : TileId) (cseq : Word) (s : State) : Host.Outcome State Fault Refusal :=
  .next (s.kernelTimeout t cseq.toNat)

/-- `ATTN_ROW_TIMEOUT` (10 R305). -/
def execAttnRowTimeout (a : Nat) (row : BitVec 10) (s : State) : Host.Outcome State Fault Refusal :=
  .next (s.rowTimeout a row.toNat)

/-- `ATTN_COMPLETE` (10 R283). Outputs that wait for a tile to wake are tried once more. -/
def execAttnComplete (a : Nat) (s : State) : Host.Outcome State Fault Refusal := .next (s.attnSettle.attnComplete a)

/-- `ACCEPT` (10 R314). -/
def execAccept (c : CmdSrc) (s : State) : Host.Outcome State Fault Refusal := .next (s.acceptsEnd.acceptRun c)

end Sys2Proof.Machine
end

