-- ==== Sys2Proof/Machine/Power.lean ====
section
/-! DEFINITION. Power domains (14): which are idle, entries and exits, what a domain loses when it goes off, wakes by the
comparators and by writes of `PAGE_PWR.REQ` and `PAGE_LATTOL`. -/

namespace Sys2Proof.Machine

/-! ## Groups and latencies (14 R390, R392) -/

/-- The page whose `PAGE_LATTOL` holds for a domain's group. -/
def groupPage : Domain → PageRef
  | .tile t => pgCdie (t.val / 144)
  | .quarter n _ _ => pgCdie n.val
  | .summit b _ => pgSumt b.val
  | .stack k => pgEstk k.val
  | .fport i => pgFprt i.val
  | .hport h => pgHprt h.val

/-- Whether a summit region is set as cache. -/
def State.isCache (s : State) (b r : Nat) : Bool := s.get (pgSumt b) (SUMT_REG.MODE.at r) == 1

/-- Exit latencies in ns, from retention and from off. -/
def State.exitNs (s : State) : Domain → Nat × Nat
  | .tile _ => (800, 45000)
  | .quarter _ _ _ => (1500, 1200000)
  | .summit b r => (500, if s.isCache b.val r.val then 20000 else 200000)
  | .stack _ => (3000, 150000000)
  | .fport _ | .hport _ => (5000, 40000000)

/-- The domains of a tile position and of a layer quarter by number. -/
def tileDom (t : Nat) : List Domain := if h : t < 1728 then [.tile ⟨t, h⟩] else []
def quarterDom (n m q : Nat) : List Domain :=
  if h : n < 12 then if g : m < 4 then if f : q < 4 then [.quarter ⟨n, h⟩ ⟨m, g⟩ ⟨q, f⟩] else [] else [] else []

/-- The domains of the four layer quarters over a tile position. -/
def quartersOver (t : Nat) : List Domain :=
  (List.range 4).flatMap (fun m => quarterDom (t / 144) m (t % 144 / 36))

/-- The domains of group line `i` of base die b (14 R390). -/
def lineDomains (b i : Nat) : List Domain :=
  if i < 3 then
    let n := 3 * b + i
    (List.range 144).flatMap (fun p => tileDom (144 * n + p))
      ++ (List.range 16).flatMap (fun j => quarterDom n (j / 4) (j % 4))
  else if i = 3 then (List.finRange 20).map (fun r => Domain.summit (Fin.ofNat 4 b) r)
  else if i < 6 then [.stack (Fin.ofNat 8 (2 * b + (i - 4)))]
  else if i < 9 then [.fport (Fin.ofNat 12 (3 * b + (i - 6)))]
  else if b = 0 then [.hport 0] else if b = 3 then [.hport 1] else []

/-- The port of a domain. -/
def domainPort : Domain → Option Nat
  | .fport i => some i.val
  | .hport h => some (12 + h.val)
  | _ => none

/-! ## What waits for a domain (14 R393, R399) -/

/-- The units of a plane load from the slice that have still to be read (03 R64). -/
def State.loadRanges (s : State) (t : Nat) (l : PlaneLoad) : List (Nat × Nat) :=
  if l.src then l.todo.map (fun i => (nearBase (s.logical t) + (if i < 64 then l.base + 64 * i else l.base), 64)) else []

/-- The ranges of package addresses for which something waits: accesses of the host and of DMA channels, rows of row-engine
commands, sectors of tile transfers and messages (attention outputs among them), plane loads, the slots of pending commands,
a flash command's range and a report's. -/
def State.wantedRanges (s : State) : List (Nat × Nat) :=
  let accs := s.accsMoving.flatMap (fun x => x.todo.map (fun a => (a, 32)))
  let cmds := s.engines.flatMap (fun e => e.2.queue) ++ s.res.flatMap (fun e => e.2.openQ.map (·.2))
  let rows := cmds.flatMap (fun c => c.rows.map (fun a => (a, 2048)))
  let xfers := s.tiles.flatMap (fun e => e.2.xfers.flatMap (fun x =>
    if x.kind = .nsnd then
      (if x.waits && x.target / 2 ^ 21 < 0x600 then [(sramBase (x.target / 2 ^ 21) + x.target % 2 ^ 21, 32 * x.sectors)] else [])
    else x.todo.map (fun a => (a, 32))))
  let loads := s.tiles.flatMap (fun e => e.2.loads.flatMap (s.loadRanges e.1))
  let slots := (List.range 64).filterMap (fun w =>
    if s.winPending w = 0 then none else some (s.winBase w + 64 * (s.winCons w % s.winSlots w), 64))
  let flash := match s.flashCmd with
    | some c => if c.src = 0 then [] else [(c.src, c.len)]
    | none => []
  let report := match s.ident.report with
    | some r => [(r.2, 3104)]
    | none => []
  accs ++ rows ++ xfers ++ loads ++ slots ++ flash ++ report
    ++ s.red.late.map (fun e => (sramBase e.1 + e.2.1, 32))

/-- The cache regions that sector-engine reads look up (06 R181), for the reads that wait at edge channels. -/
def State.wantedRegions (s : State) : List Domain :=
  let reads := s.tiles.flatMap (fun e => (e.2.xfers.filter (fun x => !x.stores)).flatMap (·.todo))
    ++ (s.accsMoving.filter (fun x => x.words.isNone)).flatMap (·.todo)
  (reads.filter (fun a => (s.inSwin a).isSome)).filterMap (fun a =>
    let k := edgeStack a
    (s.cacheRegion k (edgeChannel (edgeOffset a))).bind (fun r => s.domainAt (summitBase (k / 2) r)))

/-- The domains for which something waits; those that refuse it are passed over (14 R397). -/
def State.wanted (s : State) : List Domain :=
  ((s.wantedRanges.flatMap (fun r => s.domainsOf r.1 r.2)) ++ s.wantedRegions ++ s.net.parked.map (·.1)).eraseDups

/-- Whether a layer quarter has a tile that is on or waking above it (14 R398). -/
def State.quarterNeeded (s : State) (n q : Nat) : Bool :=
  (List.range 36).any (fun j =>
    let t := 144 * n + 36 * q + j
    (s.logicalOf t).isSome && (s.get (pgTile t) PAGE_PWR.STATE == 0
      || s.moves.any (fun m => (tileDom t).contains m.dom && m.target == 0)))

/-- Whether a domain is idle (14 R393). -/
def State.domIdle (s : State) (d : Domain) : Bool :=
  !s.wanted.contains d && match d with
  | .tile t => s.tileRun t.val != runRunning && (s.tile t.val).live.isEmpty && s.get (pgTile t.val) TILE_ARR_STAT.STATE == 0
  | .quarter n m q =>
    (List.range 36).all (fun j =>
      let t := 144 * n.val + 36 * q.val + j
      (s.logicalOf t).isNone || s.get (pgTile t) PAGE_PWR.STATE == 1 || s.get (pgTile t) PAGE_PWR.STATE == 2)
      && (s.engineQ (nearEngine n.val m.val q.val)).isEmpty
  | .summit b r =>
    if s.isCache b.val r.val then
      let k := s.get (pgEstk (2 * b.val + s.get (pgSumt b.val) (SUMT_REG.STACK.at r.val))) PAGE_PWR.STATE
      k == 1 || k == 2
    else s.get (pgSumt b.val) (SUMT_REG.BUSY.at r.val) == 0
  | .stack k =>
    (List.range 32).all (fun c => !s.checking k.val c && (s.engineQ (edgeEngine k.val c)).isEmpty)
  | .fport i => s.portIdle i.val
  | .hport h => s.portIdle (12 + h.val)

/-- Whether AUTO may choose off for a domain (14 R394, 11 R327). -/
def State.autoOff (s : State) : Domain → Bool
  | .tile t => s.tileRun t.val == runFenced
  | .quarter _ _ _ => false
  | .summit b r => s.isCache b.val r.val
  | .stack _ => false
  | .fport i => !s.flag (pgFprt i.val) FPRT_RING_N.VALID && !s.flag (pgFprt i.val) FPRT_RING_P.VALID
  | .hport h => h.val == 1

/-- Whether a fabric port must not go to off: its `REQ` is AUTO and it is part of a ring (11 R327). -/
def State.ringKeeps (s : State) (d : Domain) : Bool :=
  match d with
  | .fport _ => s.pwrReq d == 0 && !s.autoOff d && !s.shutDown d
  | _ => false

/-- Whether a domain's state is fixed: a tile position that is off for good (14 R391), or a part of a die in partition
reset (14 R403), or anything that the coolant shutdown takes off (15 R418). -/
def State.domFixed (s : State) (d : Domain) : Bool :=
  s.shutDown d || match d with
  | .tile t => !s.tilePowered t.val || s.prst (t.val / 144) == prstReset
  | .quarter n _ _ => s.prst n.val == prstReset
  | _ => false

/-! ## Losing contents (14 R392) -/

/-- Every sector whose address satisfies `f` zero-filled with valid check bytes. -/
def State.zeroWhere (s : State) (f : Nat → Bool) : State :=
  { s with mem := s.mem.filter (fun c => !f (32 * (c.1 / 36))) }

/-- The lines of a summit region dropped. -/
def State.dropRegion (s : State) (b r : Nat) : State :=
  { s with cache := s.cache.filter (fun e => e.1 / 32768 != 20 * b + r) }

/-- Every cached line of a stack dropped. -/
def State.dropStack (s : State) (k : Nat) : State :=
  { s with cache := mapUpd CacheSet.init s.cache (fun key c =>
    if key / 32768 / 20 = k / 2 then
      { c with ways := c.ways.map (fun w => match w with
        | some x => if x.1 / 0x20_0000_0000 = k then none else some x
        | none => none) }
    else c) }

/-- What a domain loses when it goes off. -/
def State.domLost (s : State) : Domain → State
  | .tile t => s.tileLost t.val
  | .quarter n m q =>
    s.zeroWhere (fun a => match targetOf a with
      | .near l o => l / 128 == n.val && nearLayer o == m.val && (s.physOf l).any (fun t => t % 144 / 36 == q.val)
      | _ => false)
  | .summit b r =>
    if s.isCache b.val r.val then s.dropRegion b.val r.val else s.zeroRange (summitBase b.val r.val) 0x100_0000
  | .stack k =>
    let s1 := (s.zeroRange (edgeBase k.val) 0x20_0000_0000).dropStack k.val
    { s1 with res := mapUpd Res.init s1.res (fun id r =>
      if resSlot id = k.val / 2 ∧ resKind id = kindEMCH ∧ resInst id / 32 = k.val % 2 then { r with rows := [] } else r) }
  | .fport i => s.disablePort i.val
  | .hport h => s.disablePort (12 + h.val)

/-! ## Entries, exits and wakes (14 R399, R401, R402) -/

def State.moveOf (s : State) (d : Domain) : Option PwrMove := s.moves.find? (fun m => m.dom == d)

/-- A transition begins: `STATE` reads 3. A port that leaves off begins to train (14 R392). -/
def State.beginMove (s : State) (d : Domain) (target : Nat) : State :=
  let s1 := s.setDom d 3
  let s2 := { s1 with moves := s1.moves.filter (fun m => m.dom != d) ++ [{ dom := d, target := target, woken := false }] }
  match domainPort d with
  | some i => if target = 0 ∧ s2.flag (portPage i) PAGE_CTRL.EN then s2.enablePort i else s2
  | none => s2

/-- The port of a domain that is on carries traffic again. -/
def State.portResumes (s : State) (i : Nat) : State :=
  let s1 := if s.portState i = ptLowPower then s.wakePort i else s
  (s1.setPort i { s1.port i with sensed := false }).portGo i

/-- A domain is on: packets and results that waited for it go. -/
def State.domOn (s : State) (d : Domain) : State :=
  let s1 := { s with moves := s.moves.filter (fun m => m.dom != d) }.setDom d 0
  let s2 := match domainPort d with
    | some i => s1.portResumes i
    | none => s1
  let packets := (s2.net.parked.filter (fun e => e.1 == d)).map (·.2)
  let s3 := { s2 with net := { s2.net with parked := s2.net.parked.filter (fun e => e.1 != d) } }.rerun packets
  let late := s3.red.late
  late.foldl (fun s e => s.deliverTo e.1 e.2.1 e.2.2) { s3 with red := { s3.red with late := [] } }

/-- An entry is abandoned: the domain is as if it had not begun, and, where it was in retention before, wakes. -/
def State.abandon (s : State) (d : Domain) : State := s.domOn d

/-- A wake (14 R402): a domain in retention or off begins its exit; an entry is abandoned before A3, and after A3 it
completes and the domain exits at once. Which abort point has passed is time, left free (assumption log 2, 21); once a wake
has found A3 passed, it stays passed. -/
def State.wakeOne (s : State) (d : Domain) : State :=
  if s.domFixed d then s
  else match s.domState d with
    | 0 => s
    | 3 =>
      match s.moveOf d with
      | none => s
      | some m =>
        if m.target = 0 ∨ m.woken then s
        else
          let f := s.free
          if f.1.getLsbD 0 then f.2.abandon d
          else { f.2 with moves := f.2.moves.map (fun m => if m.dom = d then { m with woken := true } else m) }
    | _ => s.beginMove d 0

/-- A tile's four layer quarters wake with it (14 R398). -/
def State.wakeDomain (s : State) (d : Domain) : State :=
  let s1 := s.wakeOne d
  match d with
  | .tile t => if s.domFixed d || s.domState d == 0 then s1 else (quartersOver t.val).foldl State.wakeOne s1
  | _ => s1

/-- `DOMAIN_ENTRY`: an idle domain begins to enter retention or off where its request and tolerance let it (14 R394,
R395). A port asks its neighbour before it enters retention (11 R327). That it has been idle long enough is the sender's
word. -/
def State.domainEntry (s : State) (d : Domain) (toOff : Bool) : State :=
  let st := s.domState d
  let req := s.pwrReq d
  let tol := s.get (groupPage d) PAGE_LATTOL.TOL_NS
  let ok := s.domIdle d && !s.domFixed d && (if toOff then
      (st == 0 || st == 1) && (req == 2 || (req == 0 && s.autoOff d && (s.exitNs d).2 ≤ tol))
    else st == 0 && req == 0 && (s.exitNs d).1 ≤ tol)
  if !ok then s
  else match domainPort d, toOff with
    | some i, false =>
      if s.portState i = ptUp then (s.setPort i { s.port i with lpAsked := true }).sendControl i ctLpReq else s
    | _, _ => s.beginMove d (if toOff then 2 else 1)

/-- `DOMAIN_ENTRY_COMPLETE`: the new state is reached, and a domain woken after A3 exits at once. A fabric port that has
become part of a ring on its way to off does not go there under AUTO (11 R327). -/
def State.domainEntered (s : State) (d : Domain) : State :=
  match s.moveOf d with
  | none => s
  | some m =>
    if m.target = 0 ∨ s.domState d ≠ 3 then s
    else if m.target = 2 ∧ s.ringKeeps d then s.abandon d
    else
      let s1 := { s with moves := s.moves.filter (fun m => m.dom != d) }.setDom d m.target
      let s2 := if m.target = 2 then s1.domLost d else s1
      if m.woken then s2.beginMove d 0 else s2

/-- `DOMAIN_EXIT_COMPLETE`. -/
def State.domainExited (s : State) (d : Domain) : State :=
  match s.moveOf d with
  | none => s
  | some m => if m.target ≠ 0 ∨ s.domState d ≠ 3 then s else s.domOn d

/-- Whether something waits for a sleeping port: packets, or what its receiver has found (14 R399). -/
def State.portWanted (s : State) (i : Nat) : Bool :=
  !(s.port i).queue.isEmpty || (s.port i).sensed || s.bridge.devWait.any (fun d => d.port == i)

/-- Whether a request for a sleeping domain is flagged (14 R399). -/
def State.flagged (s : State) (want : List Domain) (d : Domain) : Bool :=
  s.domState d != 0 && !s.domRefuses d && (want.contains d
    || (domainPort d).any s.portWanted
    || match d with
      | .quarter n _ q => s.quarterNeeded n.val q.val
      | _ => false)

/-- `WAKE_COMPARATOR_TRIP` on line `i` of base die b: every domain of the group with a flagged request wakes. -/
def State.wakeTrip (s : State) (b i : Nat) : State :=
  let want := s.wanted
  ((lineDomains b i).filter (s.flagged want)).foldl State.wakeDomain s

/-- Whether a comparator is tripped: a request for a domain of its group waits (14 R404). -/
def State.lineTripped (s : State) (b i : Nat) : Bool :=
  let want := s.wanted
  (lineDomains b i).any (s.flagged want)

/-! ## What waits and is refused, or need wait no longer (14 R397) -/

/-- Packets that wait for a domain which is on, or which refuses them by now, go through their router again. -/
def State.settleParked (s : State) : State :=
  let due (e : Domain × Nat × List (List Byte)) : Bool := s.domState e.1 == 0 || s.domRefuses e.1
  { s with net := { s.net with parked := s.net.parked.filter (fun e => !due e) } }.rerun
    ((s.net.parked.filter due).map (fun (e : Domain × Nat × List (List Byte)) => e.2))

/-- Whether a transfer waits for a domain which refuses it by now. -/
def State.xferRefused (s : State) (x : Xfer) : Bool := x.status == stOk && x.todo.any (fun a => s.rangeRefused a 32)

/-- Transfers that wait for a domain which refuses them by now fail. -/
def State.settleXfers (s : State) : State :=
  (s.tiles.filter (fun e => e.2.xfers.any s.xferRefused)).foldl (fun r e => r.modTile e.1 (fun u =>
    { u with xfers := u.xfers.map (fun x => if s.xferRefused x then x.fail stDestDown else x) })) s

/-! ## Writes of `PAGE_PWR` and `PAGE_LATTOL` (14 R395, R396, R403) -/

/-- The domain that a page's `PAGE_PWR` controls (14 R390, 02 R40). -/
def pageDomain (p : PageRef) : Option Domain :=
  match pageAt p with
  | some (.tile, t) => (tileDom t).head?
  | some (.estk, k) => some (.stack (Fin.ofNat 8 k))
  | some (.fprt, i) => some (.fport (Fin.ofNat 12 i))
  | some (.hprt, h) => some (.hport (Fin.ofNat 2 h))
  | _ => none

/-- Whether a page takes writes of `REQ`: it has a domain, and a tile is not off for good (14 R391). -/
def State.reqDomain (s : State) (p : PageRef) : Option Domain :=
  match pageDomain p with
  | some (.tile t) => if s.tilePowered t.val then some (.tile t) else none
  | d => d

/-- `PAGE_PWR.REQ` written. HOLD_ON wakes at once; OFF turns an entry to retention into one to off; AUTO changes no
transition. -/
def State.writeReq (s : State) (p : PageRef) (v : Nat) : State :=
  match s.reqDomain p with
  | none => s
  | some d =>
    let s1 := s.put p PAGE_PWR.REQ v
    if v = 1 then s1.wakeDomain d
    else if v = 2 then
      { s1 with moves := s1.moves.map (fun m => if m.dom = d ∧ m.target = 1 then { m with target := 2 } else m) }
    else s1

/-- The domains of a page's group. -/
def groupDomains (p : PageRef) : List Domain :=
  match pageAt p with
  | some (.cdie, n) => lineDomains (n / 3) (n % 3)
  | some (.sumt, b) => lineDomains b 3
  | some (.estk, k) => lineDomains (k / 2) (4 + k % 2)
  | some (.fprt, i) => lineDomains (i / 3) (6 + i % 3)
  | some (.hprt, h) => lineDomains (3 * h) 9
  | _ => []

/-- Whether a page's `PAGE_LATTOL` sets a tolerance (14 R390). -/
def hasLattol (p : PageRef) : Bool :=
  match pageAt p with
  | some (t, _) => t == .cdie || t == .sumt || t == .estk || t == .fprt || t == .hprt
  | none => false

/-- The state that a domain is in or is entering. -/
def State.headingFor (s : State) (d : Domain) : Nat :=
  match s.domState d, s.moveOf d with
  | 3, some m => m.target
  | 3, none => 0
  | n, _ => n

/-- `PAGE_LATTOL` written: domains that AUTO holds in, or sends to, a state with too long an exit wake at once. -/
def State.writeLattol (s : State) (p : PageRef) (v : Nat) : State :=
  if !hasLattol p then s
  else
    let tol := v % 2 ^ 28
    let s1 := s.put p PAGE_LATTOL.TOL_NS tol
    ((groupDomains p).filter (fun d =>
      let h := s1.headingFor d
      s1.pwrReq d == 0 && ((h == 1 && tol < (s1.exitNs d).1) || (h == 2 && tol < (s1.exitNs d).2)))).foldl
        State.wakeDomain s1

/-! ## The meanings of the commands -/

/-- `DOMAIN_ENTRY` (14 R394, R401). -/
def execDomainEntry (d : Domain) (toOff : Bool) (s : State) : Host.Outcome State Fault Refusal :=
  .next (s.domainEntry d toOff)

end Sys2Proof.Machine
end

