-- ==== Sys2Proof/Machine/Errors.lean ====
section
/-! DEFINITION. Errors: the log (13 R378 to R380), fences (13 R381 to R383), the management core (13
R384). -/

namespace Sys2Proof.Machine

/-! ## The log -/

/-- When a die's path to B0 is back, its waiting records enter the log, and its losses count and use up the numbers behind
them (13 R377, R380). -/
def State.flushLog (s : State) (slot : Nat) : State :=
  if s.pathDown slot then s
  else
    let q := mapGet [] s.log.waiting slot
    let n := mapGet 0 s.log.lost slot
    let s1 := { s with log := { s.log with waiting := mapSet [] s.log.waiting slot [], lost := mapSet 0 s.log.lost slot 0 } }
    let s2 := q.foldl State.logEnter s1
    { s2 with log := { s2.log with seq := s2.log.seq + n } }.count pgMgmt MGMT_LOG_LOST.COUNT n

def requesterNumber : Requester → Nat
  | .h0 => 0
  | .h1 => 1
  | .mgmt => 2
  | .bringup => 3

/-- `MGMT_LOG_SEL` written: a ring place captured for the requester (13 R379). -/
def State.logSelect (s : State) (r v : Nat) : State :=
  let s1 := s.put pgMgmt MGMT_LOG_SEL.COUNT v
  { s1 with log := { s1.log with captured := mapSet [] s1.log.captured r (mapGet [] s1.log.ring (v % 256)) } }

/-- `MGMT_LOG_TAIL` written: ignored where it goes backwards or past the head (13 R379). -/
def State.logTail (s : State) (v : Nat) : State :=
  let head := s.get pgMgmt MGMT_LOG_HEAD.COUNT
  let tail := s.get pgMgmt MGMT_LOG_TAIL.COUNT
  if (v + 65536 - tail) % 65536 ≤ (head + 65536 - tail) % 65536 then s.put pgMgmt MGMT_LOG_TAIL.COUNT v else s

/-! ## Fences -/

/-- The reasons of `TILE_ERR_STAT.FREASON` (13 R388, 16 R441). -/
def fenceReason : FenceCause → Nat
  | .trap => 1
  | .sramLoad => 2
  | .host => 3
  | .firmware => 4

/-- The fence of a tile with nothing in flight, in one update (13 R383, 01 R22). -/
def State.fenceNow (s : State) (t reason : Nat) : State :=
  let p := pgTile t
  let m := pgTmap (t / 144)
  let u := s.tile t
  let s1 := ((s.put p TILE_PC.PC u.pc).put p TILE_STAT.RUN runFenced).putFlag p PAGE_STAT.FENCED true
  let s2 := (s1.put p TILE_ERR_STAT.FREASON reason).put m (TMAP_PHYS.STATE.at (t % 144)) 5
  let s3 := (s2.put m TMAP_SUMMARY.ENABLED (s2.get m TMAP_SUMMARY.ENABLED - 1)).put m TMAP_SUMMARY.FENCED
    (s2.get m TMAP_SUMMARY.FENCED + 1)
  (s3.modTile t (fun u => { u.settle with fenceDue := 0, halting := false, fenceWait := none })).report p .u 0x07 reason 0 0

/-- A fence falls due: the tile stops issue, and is fenced once its transfers and plane loads have completed (13 R382,
R383). An error fences a tile only where its recovery met it; a fence in another map state than 0 is ignored. -/
def State.tileFence (s : State) (t : Nat) (c : FenceCause) : State :=
  let u := s.tile t
  let met := match c with
    | .trap => u.fenceDue == 1
    | .sramLoad => u.fenceDue == 2
    | _ => true
  if s.tmapState t ≠ 0 || !met then s
  else
    let reason := if u.fenceDue = 0 then fenceReason c else u.fenceDue
    if u.live.isEmpty && u.loads.isEmpty then s.fenceNow t reason
    else s.modTile t (fun u => { u with fenceDue := reason })

/-- `TILE_ERR_CTL.CLR` (13 R388). -/
def State.tileErrClr (s : State) (t : Nat) : State :=
  (s.put (pgTile t) TILE_ZERO_CNT.COUNT 0).put (pgTile t) TILE_NOROPE_CNT.COUNT 0

/-! ## Halting bring-up (16 R434) -/

/-- Bring-up halts at its step with a code; nothing after READY, nor after a halt. -/
def State.haltBoot (s : State) (code : Nat) : State :=
  if s.flag pgBoot BOOT_STAT.READY || s.flag pgBoot BOOT_STAT.HALT then s
  else
    let s1 := (s.putFlag pgBoot BOOT_STAT.HALT true).put pgBoot BOOT_STAT.CODE code
    { s1 with boot := { s1.boot with load := none } }.report pgBoot .u 0x80 (s.get pgBoot BOOT_STAT.STEP * 256 + code) 0 0

/-! ## The stride of a compute die (04 R123, 15 R412, R413, R416) -/

/-- The device's stride of a die, minus one, set: the larger of it and `MIN_STRIDE` is in force. -/
def State.setStride (s : State) (n dev : Nat) : State :=
  let p := pgCdie n
  let low := s.get p CDIE_THROT_CFG.MIN_STRIDE
  let cause := if dev < low then 3 else if 2 ≤ s.get pgThrm THRM_STAT.COOL then 2 else 1
  ((s.put p CDIE_THROT_STAT.DEV_STRIDE dev).put p CDIE_THROT_STAT.STRIDE (max dev low)).put p CDIE_THROT_STAT.CAUSE cause

/-- The same on every die. -/
def State.setStrides (s : State) (dev : Nat) : State := (List.range 12).foldl (fun s n => s.setStride n dev) s

/-- The stride while the model is not running (15 R413); a coolant stop keeps 16 (15 R420). -/
def State.fallBack (s : State) : State :=
  if 2 ≤ s.get pgThrm THRM_STAT.COOL then s else s.setStrides (s.get pgThrm THRM_CFG.FALLBACK)

/-- `NMEM_REFR_STAT.X2` of a layer (05 R155). -/
def State.refreshRate (s : State) (n m : Nat) : State :=
  let p := pgNmem n m
  s.put p NMEM_REFR_STAT.X2 (s.get p NMEM_REFR_STAT.HOT ||| s.get p NMEM_REFR_STAT.NO_MODEL ||| s.get p NMEM_CFG.REFR_X2)

/-- The thermal model starts or stops (15 R413). -/
def State.setModel (s : State) (on : Bool) : State :=
  let s1 := s.putFlag pgThrm THRM_STAT.MODEL on
  let s2 := (List.range 48).foldl (fun s i =>
    (s.put (pgNmem (i / 4) (i % 4)) NMEM_REFR_STAT.NO_MODEL (if on then 0 else 15)).refreshRate (i / 4) (i % 4)) s1
  let s3 := { s2 with thermal := { s2.thermal with
    sensors := mapUpd Sensor.init s2.thermal.sensors (fun _ x => { x with recent := [], window := [] }) } }
  if on then s3 else s3.fallBack

/-! ## The management core (13 R381, R384) -/

def fwNone : Nat := 0
def fwBoot : Nat := 1
def fwMain : Nat := 2
def fwRestarting : Nat := 3

/-- What the main image leaves when it restarts: the thermal model stops (15 R413), and in step 8 the topology check begins
again (16 R448). -/
def State.mainStops (s : State) : State :=
  let s1 := { s with boot := { s.boot with fw := fwRestarting } }.setModel false
  if s1.get pgBoot BOOT_STAT.STEP = 8 then
    { s1 with boot := { s1.boot with nbrDone := false } }.putFlag pgBoot BOOT_STAT.HOLD false
  else s1

/-- The management core restarts by an uncorrectable sector or its watchdog; a second one within 10 s of the first, or an
error during a restart, asks for a package reset (13 R381, R386). The boot stage lies in ROM and has nothing to reload, so
that it goes on at once (16, assumption log 44); before it there is no firmware. -/
def State.mgmtRestart (s : State) (watchdog within : Bool) : State :=
  if s.boot.fw = fwRestarting then s.requestReset 4
  else if s.boot.fw = fwNone then s
  else
    let s1 := (s.count pgMgmt MGMT_RESTARTS.COUNT 1).report pgMgmt .u 0x30 (if watchdog then 2 else 1) 0 0
    let s2 := if s.boot.fw = fwMain then s1.mainStops else s1
    if within then s2.requestReset 4 else s2

/-! ## The meanings of the commands -/

/-- `DIE_LOG_FLUSH` (13 R380). -/
def execDieLogFlush (slot : Byte) (s : State) : Host.Outcome State Fault Refusal := .next (s.flushLog slot.toNat)

/-- `TILE_FENCE` (13 R383). -/
def execTileFence (t : TileId) (cause : FenceCause) (s : State) : Host.Outcome State Fault Refusal :=
  .next (s.tileFence t cause)

/-- `TILE_ERR_CLR` (13 R388). -/
def execTileErrClr (t : TileId) (s : State) : Host.Outcome State Fault Refusal := .next (s.tileErrClr t)

/-- `MGMT_LOG_SEL_WRITE` (13 R379). -/
def execMgmtLogSelWrite (r : Requester) (v : Word) (s : State) : Host.Outcome State Fault Refusal :=
  .next (s.logSelect (requesterNumber r) (v.toNat % 65536))

/-- `MGMT_LOG_TAIL_WRITE` (13 R379). -/
def execMgmtLogTailWrite (v : Word) (s : State) : Host.Outcome State Fault Refusal :=
  .next (s.logTail (v.toNat % 65536))

/-- `MGMT_CLR_TAINT` (13 R388). -/
def execMgmtClrTaint (s : State) : Host.Outcome State Fault Refusal := .next (s.put pgMgmt MGMT_TAINT_DROP.COUNT 0)

/-- `MGMT_CLR_LOST` (13 R388). -/
def execMgmtClrLost (s : State) : Host.Outcome State Fault Refusal := .next (s.put pgMgmt MGMT_LOG_LOST.COUNT 0)

/-- `MGMT_RESTART` (13 R384). -/
def execMgmtRestart (watchdog within10s : Bool) (s : State) : Host.Outcome State Fault Refusal :=
  .next (s.mgmtRestart watchdog within10s)

end Sys2Proof.Machine
end

