-- ==== Sys2Proof/Machine/Thermal.lean ====
section
/-! DEFINITION. Thermal control and the coolant loop (15): sensors, their checks and sites, the forecast and the stride,
flow, the coolant states, shutdown and the trip. Temperatures are in 1/16 degree C. -/

namespace Sys2Proof.Machine

/-! ## Sensors and sites (15 R407, R408) -/

def inletSensor : Nat := 0xB00
def outletSensor : Nat := 0xB01
def flowSensor : Nat := 0xB02

def isTileSensor (i : Nat) : Bool := i < 1728
def isString (i : Nat) : Bool := 0x800 ≤ i && i < 0x980
def isBaseSensor (i : Nat) : Bool := 0xA00 ≤ i && i < 0xA40
def isCoolant (i : Nat) : Bool := i == inletSensor || i == outletSensor

/-- Whether an index names a sensor that is sampled. -/
def isSampled (i : Nat) : Bool := isTileSensor i || isString i || isBaseSensor i || isCoolant i

/-- The site of a sensor, named by its first sensor. -/
def siteOf (i : Nat) : Nat := if isString i || isBaseSensor i then i / 2 * 2 else i

/-- The sensors of a site. -/
def siteSensors (i : Nat) : List Nat := if isString i || isBaseSensor i then [i, i + 1] else [i]

def State.sensor (s : State) (i : Nat) : Sensor := mapGet Sensor.init s.thermal.sensors i

def State.setSensor (s : State) (i : Nat) (x : Sensor) : State :=
  { s with thermal := { s.thermal with sensors := mapSet Sensor.init s.thermal.sensors i x } }

/-- Whether the thermal model runs. -/
def State.modelOn (s : State) : Bool := s.flag pgThrm THRM_STAT.MODEL

/-- The value of a site: the hotter reading of its sensors that are not faulty, or the model's estimate. -/
def State.siteValue (s : State) (site : Nat) : Int :=
  match ((siteSensors site).filter (fun i => (s.sensor i).why == 0)).map (fun i => (s.sensor i).temp) with
  | [] => Config.siteEstimate site (s.sensor site).samples
  | x :: l => l.foldl max x

/-- Whether the model uses a sensor: a tile's only where the tile is enabled or fenced. -/
def State.sensorUsed (s : State) (i : Nat) : Bool := !isTileSensor i || s.tmapState i == 0 || s.tmapState i == 5

/-- The highest value among sites; 0 where there is none. -/
def State.hottest (s : State) (l : List Nat) : Int :=
  match l.map s.siteValue with
  | [] => 0
  | x :: r => r.foldl max x

def State.dieSites (s : State) (c : Nat) : List Nat :=
  ((List.range 144).map (144 * c + ·)).filter s.sensorUsed

def quarterSites (c : Nat) : List Nat := (List.range 16).map (fun j => 0x800 + 32 * c + 2 * j)

def baseSites (b : Nat) : List Nat := (List.range 8).map (fun j => 0xA00 + 16 * b + 2 * j)

/-- A temperature as 16 bits. -/
def temp16 (v : Int) : Nat := (v % 65536).toNat

/-- The present hot spots of a column shown. -/
def State.showColumn (s : State) (c : Nat) : State :=
  (s.put pgThrm (THRM_COL_DIE.NOW.at c) (temp16 (s.hottest (s.dieSites c)))).put pgThrm (THRM_COL_NM.NOW.at c)
    (temp16 (s.hottest (quarterSites c)))

/-! ## The checks (15 R409) -/

/-- The reason for which a reading fails its checks, 0 for none: `x` is the sensor before the reading. A stuck reading
stays within 0.125 degrees of the first of the last 10 s while the estimate moves by more than 5 degrees; the rate is
measured against the reading 1 ms before, which a coolant sensor, sampled every 10 ms, does not have. -/
def sensorFault (i : Nat) (x : Sensor) (v est : Int) : Nat :=
  let span := if isCoolant i then 1000 else 100000
  let w := ((v, est) :: x.window).take (span + 1)
  let es := w.map (·.2)
  let stuck := w.length = span + 1 ∧ w.all (fun e => (e.1 - (w.getLastD (0, 0)).1).natAbs ≤ 2)
    ∧ 80 < es.foldl max est - es.foldl min est
  let lo : Int := if isCoolant i then 0 else -320
  let hi : Int := if isCoolant i then 1280 else 2400
  if stuck then 1
  else if v < lo ∨ hi < v then 2
  else match x.recent[9]? with
    | some o => if !isCoolant i ∧ 32 < (v - o).natAbs then 3 else 0
    | none => 0

/-- A reading taken, checked while the model runs (15 R409, R413). -/
def State.takeReading (s : State) (i : Nat) (v : Int) : State :=
  let x := s.sensor i
  let est := Config.siteEstimate (siteOf i) (x.samples + 1)
  let live := s.modelOn && s.sensorUsed i
  let why := if live && x.why == 0 then sensorFault i x v est else x.why
  let y : Sensor :=
    { temp := v, why := why, samples := x.samples + 1, recent := if live then (v :: x.recent).take 10 else [],
      window := if live then ((v, est) :: x.window).take 100001 else [] }
  let s1 := s.setSensor i y
  if why ≠ x.why then
    (s1.count pgThrm THRM_FAULTS.COUNT 1).report pgThrm .u 0x70 (why * 4096 + i) 0 0
  else s1

/-- `THRM_CTRL.CLR_FAULT` (15 R409): the selected sensor's checks start afresh. -/
def State.clearFault (s : State) : State :=
  let i := s.get pgThrm THRM_SEL.SENSOR
  let x := s.sensor i
  if x.why = 0 then s
  else (s.setSensor i { x with why := 0, recent := [], window := [] }).put pgThrm THRM_FAULTS.COUNT
    (s.get pgThrm THRM_FAULTS.COUNT - 1)

/-! ## Limits, hot quarters, the inlet (15 R414, R421, 05 R155) -/

/-- The limit of a site and the syndrome of LIMIT. -/
def siteLimit (site : Nat) : Int × Nat :=
  if isTileSensor site then (1680, site / 144)
  else if isString site then (1520, 256 + (site - 0x800) / 32)
  else (1680, 512 + (site - 0xA00) / 16)

/-- LIMIT is reported when a site passes its limit, and again only after it has been 2 degrees below it. -/
def State.checkLimit (s : State) (site : Nat) : State :=
  let v := s.siteValue site
  let l := siteLimit site
  let told := s.thermal.limited.contains site
  let set (s : State) (f : List Nat) : State := { s with thermal := { s.thermal with limited := f } }
  if told ∧ v ≤ l.1 - 32 then set s (s.thermal.limited.filter (· != site))
  else if !told ∧ l.1 < v then (set s (s.thermal.limited ++ [site])).report pgThrm .u 0x77 l.2 0 0
  else s

/-- The temperature rule of a layer quarter (05 R155): hot above 85 degrees until below 83 for 10 ms, counted by the
samples of its string A. -/
def State.checkQuarter (s : State) (i : Nat) : State :=
  let j := (i - 0x800) / 2
  let n := j / 16
  let m := j % 16 / 4
  let q := j % 4
  let v := s.siteValue (siteOf i)
  let p := pgNmem n m
  let hot := s.get p NMEM_REFR_STAT.HOT
  let run := mapGet 0 s.thermal.cooling j
  let run := if 1328 ≤ v then 0 else if i % 2 = 0 then run + 1 else run
  let s1 := { s with thermal := { s.thermal with cooling := mapSet 0 s.thermal.cooling j (min run 100) } }
  let hot' := if 1360 < v then hot ||| 2 ^ q else if 100 ≤ run ∧ bit hot q then hot - 2 ^ q else hot
  (s1.put p NMEM_REFR_STAT.HOT hot').refreshRate n m

/-- The inlet above 45 degrees for 1 s, and no longer so for 1 s (15 R421). A faulty inlet sensor is taken as 45 degrees
(15 R410). -/
def State.checkInlet (s : State) : State :=
  let v : Int := if (s.sensor inletSensor).why = 0 then (s.sensor inletSensor).temp else 720
  let above := if 720 < v then s.thermal.inletAbove + 1 else 0
  let below := if 720 < v then 0 else s.thermal.inletBelow + 1
  let s1 := { s with thermal := { s.thermal with inletAbove := min above 100, inletBelow := min below 100 } }
  if 100 ≤ above ∧ !s.flag pgThrm THRM_STAT.INLET_HIGH then
    (s1.putFlag pgThrm THRM_STAT.INLET_HIGH true).report pgThrm .u 0x76 (temp16 v) 0 0
  else if 100 ≤ below then s1.putFlag pgThrm THRM_STAT.INLET_HIGH false
  else s1

/-- `SENSOR_SAMPLE`: one reading of one sensor. -/
def State.sensorSample (s : State) (i : Nat) (v : Int) : State :=
  if !isSampled i then s
  else
    let s1 := s.takeReading i v
    if i = inletSensor then (s1.put pgThrm THRM_COOLANT.INLET (temp16 v)).checkInlet
    else if i = outletSensor then s1.put pgThrm THRM_COOLANT.OUTLET (temp16 v)
    else
      let s2 := if isString i then s1.checkQuarter i else s1
      let s3 := if isBaseSensor i then s2 else s2.showColumn (if isTileSensor i then i / 144 else (i - 0x800) / 32)
      if s3.modelOn && s3.sensorUsed i then s3.checkLimit (siteOf i) else s3

/-! ## The decision (15 R411, R412) -/

/-- The guard G, in 1/16 degree: 0 is treated as 1. -/
def State.guardBand (s : State) : Int := 16 * ((max 1 (s.get pgThrm THRM_CFG.GUARD) : Nat) : Int)

/-- Whether both forecasts of a column at a stride meet their bounds, `slack` below them. -/
def State.strideMeets (s : State) (c stride : Nat) (slack : Int) : Bool :=
  let k := s.thermal.decisions
  Config.forecastDie c stride k ≤ 1680 - s.guardBand - slack && Config.forecastNm c stride k ≤ 1520 - s.guardBand - slack

/-- The device's stride of a column, minus one, after a decision: `raise` where a base-die site asks for a step more. -/
def State.nextStride (s : State) (c cur : Nat) (raise : Bool) : Nat :=
  let t := ((List.range 16).find? (fun i => s.strideMeets c (i + 1) 0)).getD 15
  if raise then max t (min 15 (cur + 1))
  else if cur ≤ t then t
  else if s.strideMeets c cur 16 then cur - 1
  else cur

/-- Whether base-die site `i`, 8 b + s, raises its dies' stride: from above the bound until below it. -/
def State.siteRaises (s : State) (i : Nat) : Bool :=
  let v := s.siteValue (0xA00 + 2 * i)
  let bound := 1680 - s.guardBand
  bound < v || (bit s.thermal.raising i && v == bound)

/-- `FORECAST_DECISION`. The forecasts shown are those at the stride in force; while a coolant stop holds, the stride stays
16 (15 R416, R420). -/
def State.forecastDecision (s : State) : State :=
  if !s.modelOn then s
  else
    let raising := ((List.range 32).filter s.siteRaises).foldl (fun m i => m + 2 ^ i) 0
    let s0 := { s with thermal := { s.thermal with raising := raising } }
    let s1 := (List.range 12).foldl (fun s c =>
      let now := s.get (pgCdie c) CDIE_THROT_STAT.STRIDE
      let cur := s.get (pgCdie c) CDIE_THROT_STAT.DEV_STRIDE
      let s1 := (s.put pgThrm (THRM_COL_DIE.FCAST.at c) (temp16 (Config.forecastDie c (now + 1) s.thermal.decisions))).put
        pgThrm (THRM_COL_NM.FCAST.at c) (temp16 (Config.forecastNm c (now + 1) s.thermal.decisions))
      if 2 ≤ s.get pgThrm THRM_STAT.COOL then s1
      else s1.setStride c (s.nextStride c cur (raising / 2 ^ (8 * (c / 3)) % 256 != 0))) s0
    { s1 with thermal := { s1.thermal with decisions := s1.thermal.decisions + 1 } }

/-! ## Flow (15 R415, 18 R477) -/

/-- A filtered pulse: valid only while the input is valid. -/
def State.tachPulse (s : State) : State :=
  if s.flag pgThrm THRM_STAT.FLOW_INV then s
  else { s with thermal := { s.thermal with bucket := s.thermal.bucket + 1, pulsed := true } }

/-! ## Coolant states (15 R416 to R418) -/

def coolNormal : Nat := 0
def coolLow : Nat := 1
def coolStop : Nat := 2
def coolShutdown : Nat := 3

/-- STOP declared (15 R416): stride 16 on every die, the report with its syndrome, and the milliseconds from 0. -/
def State.stopBegin (s : State) (steep silent : Bool) : State :=
  (((s.put pgThrm THRM_STAT.COOL coolStop).put pgThrm THRM_STOP_MS.MS 0).setStrides 15).report pgThrm .u 0x72
    (2 * b2n steep + b2n silent) 0 0

/-- The millisecond that ends: valid pulses in it, and the count of milliseconds without one, up to 50. -/
def State.msCount (s : State) : State :=
  let h := s.thermal
  let n := if h.pulsed then 0 else min 50 (h.silent + 1)
  { s with thermal := { h with pulsed := false, silent := n, gap := h.gap || n == 50, phase := min 11 (h.phase + 1) } }

/-- What follows in the coolant monitor: a stop counts its milliseconds; 50 ms without a valid pulse begin one, unless a flow
update is due in the same millisecond, which then judges both conditions (15 R417, R420). -/
def State.msJudge (s : State) : State :=
  let cool := s.get pgThrm THRM_STAT.COOL
  if cool = coolStop then s.count pgThrm THRM_STOP_MS.MS 1
  else if cool < coolStop ∧ s.thermal.silent = 50 ∧ s.thermal.phase ≠ 10 then s.stopBegin false true
  else s

/-- Every 1 ms the input is judged: more than 20 edges in 10 ms, or 100 ms at one level, make it invalid; 200 ms with
neither make it valid again. -/
def State.inputJudge (s : State) (edges : Nat) (changed : Bool) : State :=
  let steady := if changed then 0 else min 100 (s.thermal.steady + 1)
  let bad := 20 < edges ∨ 100 ≤ steady
  let good := if bad then 0 else min 200 (s.thermal.flowGood + 1)
  let s1 := { s with thermal := { s.thermal with steady := steady, flowGood := good } }
  let inv := s.flag pgThrm THRM_STAT.FLOW_INV
  if bad ∧ !inv then (s1.putFlag pgThrm THRM_STAT.FLOW_INV true).report pgThrm .u 0x73 0 0 0
  else if inv ∧ 200 ≤ good then s1.putFlag pgThrm THRM_STAT.FLOW_INV false
  else s1

/-- `FLOW_INPUT_CHECK`: 1 ms of FLOW_TACH. -/
def State.flowCheck (s : State) (edges : Nat) (changed : Bool) : State := (s.inputJudge edges changed).msCount.msJudge

/-- Valid pulses of the last 200 ms. -/
def Thermal.pulses (h : Thermal) : Nat := h.buckets.sum

/-- `FLOW_UPDATE`, every 10 ms: the pulses of the last 10 ms join the window, the flow and the temperature rise are
evaluated, and the monitor acts by its state. -/
def State.flowUpdate (s : State) : State :=
  let h := s.thermal
  let k := s.get pgThrm THRM_FLOW_CFG.K
  let buckets := (h.bucket :: h.buckets).take 20
  let faulty := (s.sensor inletSensor).why ≠ 0 ∨ (s.sensor outletSensor).why ≠ 0
  let rise : Int := (s.sensor outletSensor).temp - (s.sensor inletSensor).temp
  let steep := !faulty ∧ h.rises.any (fun r => r + 128 < rise)
  let silent := h.silent == 50 && !h.pulsed
  let n := buckets.sum
  let good15 := k ≤ n * 200
  let good16 := 8 * k ≤ n * 1500
  let clear := good15 ∧ !h.gap ∧ !silent ∧ !steep
  let cool := s.get pgThrm THRM_STAT.COOL
  let s1 := { s with thermal := { h with
    bucket := 0, buckets := buckets, rises := if faulty then [] else (rise :: h.rises).take 10, gap := silent, phase := 0,
    stopGood := if clear ∧ cool = coolStop then min 21 (h.stopGood + 1) else 0,
    lowGood := if good16 then min 101 (h.lowGood + 1) else 0 } }
  let s2 := s1.put pgThrm THRM_FLOW.FLOW (min 65535 (n * 30000 / k))
  if coolStop ≤ cool then s2
  else if silent ∨ steep then s2.stopBegin steep silent
  else if cool = coolNormal ∧ !good15 then
    (s2.put pgThrm THRM_STAT.COOL coolLow).report pgThrm .u 0x71 (min 65535 (n * 30000 / k)) 0 0
  else s2

/-- `STOP_CLEARED`: 200 ms of good flow in STOP. -/
def State.stopCleared (s : State) : State :=
  if s.get pgThrm THRM_STAT.COOL = coolStop ∧ s.get pgThrm THRM_STOP_MS.MS < 2000 ∧ 21 ≤ s.thermal.stopGood then
    let s1 := s.put pgThrm THRM_STAT.COOL coolLow
    if s.modelOn then s1 else s1.fallBack
  else s

/-- `LOW_CLEARED`: 1 s at or above 1.6 L/min. -/
def State.lowCleared (s : State) : State :=
  if s.get pgThrm THRM_STAT.COOL = coolLow ∧ 101 ≤ s.thermal.lowGood then s.put pgThrm THRM_STAT.COOL coolNormal else s

/-- `SHUTDOWN` (15 R418): acceptance and issue stop; before READY bring-up halts (16 R448). -/
def State.shutdownBegin (s : State) : State :=
  if s.get pgThrm THRM_STAT.COOL = coolStop ∧ 2000 ≤ s.get pgThrm THRM_STOP_MS.MS then
    ((s.put pgThrm THRM_STAT.COOL coolShutdown).report pgThrm .u 0x74 0 0 0).haltBoot 1
  else s

/-- Every domain but the host ports. -/
def shutdownDomains : List Domain :=
  (List.range 40).flatMap (fun i => (lineDomains (i / 10) (i % 10)).filter (fun d => match d with | .hport _ => false | _ => true))

/-- Every row-engine command that waits, in an engine's queue or at its port, completes with DEST_DOWN. -/
def State.rowsDown (s : State) : State :=
  let ports := s.res.map (·.1)
  let waiting := s.res.flatMap (fun e => e.2.openQ.map (·.2))
  let s1 := (s.engines.map (·.1)).foldl (fun s e =>
    (s.engineQ e).foldl (fun s c => (s.rowBook e stDestDown).rowReply c stDestDown) (s.setEngineQ e [])) s
  waiting.foldl (fun s c => s.rowReply c stDestDown)
    (ports.foldl (fun s id => s.modRes id (fun r => { r with openQ := [] })) s1)

/-- `SHUTDOWN_COMPLETE` (15 R418): every tile, layer quarter, summit region, stack and fabric port is off, and what waits for
them is answered; packets and accesses are as they meet the domains. -/
def State.shutdownEnd (s : State) : State :=
  if s.get pgThrm THRM_STAT.COOL ≠ coolShutdown then s
  else
    let s1 := shutdownDomains.foldl (fun s d => (s.domLost d).setDom d 2) s
    { s1 with moves := s1.moves.filter (fun m => match m.dom with | .hport _ => true | _ => false) }.rowsDown

/-! ## The trip (15 R419) -/

/-- Whether a sensor drives a trip comparator: string A of a quarter of layer N0, or the first sensor of a base-die site. -/
def hasTrip (i : Nat) : Bool := (isString i && (i - 0x800) % 32 < 8 && i % 2 == 0) || (isBaseSensor i && i % 2 == 0)

/-- `THERM_TRIP`; before READY bring-up halts (16 R448). -/
def State.thermTrip (s : State) (i : Nat) : State :=
  if !hasTrip i then s
  else
    let s1 := if s.flag pgThrm THRM_STAT.TRIP then s else (s.putFlag pgThrm THRM_STAT.TRIP true).emit (.pin pinThermTrip 0)
    (s1.report pgThrm .u 0x75 i 0 0).haltBoot 2

/-! ## The meanings of the commands -/

/-- `SENSOR_SAMPLE` (15 R407). -/
def execSensorSample (i : BitVec 12) (reading : BitVec 16) (s : State) : Host.Outcome State Fault Refusal :=
  .next (s.sensorSample i.toNat reading.toInt)

/-- `THRM_CLR_FAULT` (15 R409). -/
def execThrmClrFault (s : State) : Host.Outcome State Fault Refusal := .next s.clearFault

/-- `FORECAST_DECISION` (15 R412). -/
def execForecastDecision (s : State) : Host.Outcome State Fault Refusal := .next s.forecastDecision

/-- `FLOW_TACH_PULSE` (15 R415). -/
def execFlowTachPulse (s : State) : Host.Outcome State Fault Refusal := .next s.tachPulse

/-- `FLOW_INPUT_CHECK` (18 R477). -/
def execFlowInputCheck (edges : Byte) (changed : Bool) (s : State) : Host.Outcome State Fault Refusal :=
  .next (s.flowCheck edges.toNat changed)

/-- `FLOW_UPDATE` (15 R416). -/
def execFlowUpdate (s : State) : Host.Outcome State Fault Refusal := .next s.flowUpdate

/-- `STOP_CLEARED` (15 R416). -/
def execStopCleared (s : State) : Host.Outcome State Fault Refusal := .next s.stopCleared

/-- `LOW_CLEARED` (15 R416). -/
def execLowCleared (s : State) : Host.Outcome State Fault Refusal := .next s.lowCleared

/-- `SHUTDOWN` (15 R418). -/
def execShutdown (s : State) : Host.Outcome State Fault Refusal := .next s.shutdownBegin

/-- `THERM_TRIP` (15 R419). -/
def execThermTrip (i : BitVec 12) (s : State) : Host.Outcome State Fault Refusal := .next (s.thermTrip i.toNat)

end Sys2Proof.Machine
end

