-- ==== Sys2Proof/Machine/Flash.lean ====
section
/-! DEFINITION. Flash, the two configuration copies and what they hold, licences, and attestation (17). -/

namespace Sys2Proof.Machine

/-! ## The flash (17 R450) -/

/-- The density in MiB. -/
def flashMiB : Nat := 64 * 2 ^ Config.flashDensity.val

/-- Bytes of one slot: half the density. Slot A is 0, slot B is 1. -/
def slotBytes : Nat := 2 ^ 19 * flashMiB

/-- `n` bytes of the flash from offset `off` on. -/
def State.flashRead (s : State) (off n : Nat) : List Byte := (memRead s.flash off n).map (fun b => ~~~b)

/-- The flash holding the bytes `d` from `off` on. -/
def State.flashPut (s : State) (off : Nat) (d : List Byte) : State :=
  { s with flash := memWrite s.flash off (d.map (fun b => ~~~b)) }

/-- Programming stores the AND of old and new bytes (17 R455). -/
def State.flashAnd (s : State) (off : Nat) (d : List Byte) : State :=
  s.flashPut off ((s.flashRead off d.length).zipWith (· &&& ·) d)

/-- `n` bytes erased. -/
def State.flashClear (s : State) (off n : Nat) : State := { s with flash := memZero s.flash off n }

/-! ## Copies and their directories (17 R451, R452, R456) -/

/-- `n` bytes of a slot from slot offset `off` on. -/
def State.slotRead (s : State) (slot off n : Nat) : List Byte := s.flashRead (slot * slotBytes + off) n

/-- A directory entry: its type, format, offset in the body and length. -/
structure FlashItem where
  type : Nat
  format : Nat
  off : Nat
  len : Nat
  deriving DecidableEq, Repr

def State.copySeq (s : State) (slot : Nat) : Nat := leNat (s.slotRead slot 4 4)
def State.copyLen (s : State) (slot : Nat) : Nat := leNat (s.slotRead slot 8 4)
def State.copyDigest (s : State) (slot : Nat) : List Byte := s.slotRead slot 16 32
def State.copyCount (s : State) (slot : Nat) : Nat := leNat (s.slotRead slot 64 4)

/-- `n` bytes of a copy's body from body offset `off` on. -/
def State.bodyRead (s : State) (slot off n : Nat) : List Byte := s.slotRead slot (64 + off) n

def State.copyEntry (s : State) (slot e : Nat) : FlashItem :=
  let b := s.bodyRead slot (16 + 16 * e) 16
  { type := field b 0 2, format := field b 2 2, off := field b 4 4, len := field b 8 4 }

/-- The directory of a copy. -/
def State.copyItems (s : State) (slot : Nat) : List FlashItem := (List.range (s.copyCount slot)).map (s.copyEntry slot)

def itMain : Nat := 1
def itTile : Nat := 2
def itManifest : Nat := 3
def itExclude : Nat := 4
def itLocks : Nat := 5
def itRings : Nat := 6
def itLicence : Nat := 7
def itCert : Nat := 8

/-- Whether a directory breaks R456, or a manifest holds another version than 1 (17 R462). -/
def State.directoryBroken (s : State) (slot : Nat) : Bool :=
  let len := s.copyLen slot
  let items := s.copyItems slot
  let occurs (t : Nat) : Nat := (items.filter (fun i => i.type == t)).length
  len < 16 || s.copyCount slot == 0 || 64 < s.copyCount slot || len < 16 + 16 * s.copyCount slot
    || (s.bodyRead slot 4 12).any (· != 0)
    || (List.range (s.copyCount slot)).any (fun e => (s.bodyRead slot (16 + 16 * e + 12) 4).any (· != 0))
    || items.any (fun i => len < i.off + i.len || (1 ≤ i.type && i.type ≤ 8 && i.format != 1))
    || occurs itMain != 1 || occurs itTile != 1
    || [itManifest, itExclude, itLocks, itRings, itCert].any (fun t => 1 < occurs t) || 16 < occurs itLicence
    || items.any (fun i => i.type == itManifest && leNat (s.bodyRead slot i.off 4) != 1)

/-- The reason for which a slot's copy is not valid, 0 where it is. -/
def State.copyReason (s : State) (slot : Nat) (answers : Bool) : Nat :=
  let h := s.slotRead slot 0 64
  if !answers then 5
  else if field h 0 4 ≠ 0x72400C0F ∨ field h 12 4 ≠ 1 ∨ (h.drop 48).any (· != 0) then 1
  else if slotBytes < 64 + s.copyLen slot then 2
  else if shake256 (h.take 16 ++ s.bodyRead slot 0 (s.copyLen slot)) ≠ s.copyDigest slot then 3
  else if s.directoryBroken slot then 4
  else 0

/-- The registers that show a slot. -/
def whyField (slot : Nat) : Field := if slot = 0 then FLSH_STAT.WHY_A else FLSH_STAT.WHY_B
def seqField (slot : Nat) : Field := if slot = 0 then FLSH_SEQ_A.VALUE else FLSH_SEQ_B.VALUE

/-- A slot examined: its reason and `SEQ` recorded, COPY_INVALID reported where it is invalid. A slot that did not answer
leaves `SEQ` as it was. -/
def State.examine (s : State) (slot : Nat) (answers : Bool) : State :=
  let why := s.copyReason slot answers
  let s1 := s.put pgFlsh (whyField slot) why
  let s2 := if answers then s1.put pgFlsh (seqField slot) (s.copySeq slot) else s1
  if why = 0 then s2 else s2.report pgFlsh .u 0x88 (256 * slot + why) 0 0

/-- The copy that is active by the reasons recorded (17 R453). -/
def State.selectCopy (s : State) : Option Nat :=
  let okA := s.get pgFlsh FLSH_STAT.WHY_A == 0
  let okB := s.get pgFlsh FLSH_STAT.WHY_B == 0
  let d := (s.get pgFlsh FLSH_SEQ_B.VALUE + 2 ^ 32 - s.get pgFlsh FLSH_SEQ_A.VALUE) % 2 ^ 32
  if okA && okB then some (if 1 ≤ d ∧ d ≤ 2 ^ 31 - 1 then 1 else 0)
  else if okA then some 0
  else if okB then some 1
  else none

/-- The items of a type in the active copy, with their directory entries. -/
def State.activeItems (s : State) (t : Nat) : List (Nat × FlashItem) :=
  match s.boot.active with
  | none => []
  | some slot => ((List.range (s.copyCount slot)).zip (s.copyItems slot)).filter (fun e => e.2.type == t)

def State.activeItem (s : State) (t : Nat) : Option FlashItem := ((s.activeItems t).head?).map (·.2)

/-- The bytes of an item of the active copy. -/
def State.itemBytes (s : State) (i : FlashItem) : List Byte := s.bodyRead (s.boot.active.getD 0) i.off i.len

/-- The bytes of the one item of a type, none where the copy has none. -/
def State.itemOf (s : State) (t : Nat) : List Byte :=
  match s.activeItem t with
  | some i => s.itemBytes i
  | none => []

/-- The entries of a list, as many as its length holds. -/
def State.listEntries (s : State) (t size : Nat) : List (List Byte) :=
  let b := s.itemOf t
  (List.range (b.length / size)).map (fun e => slice b (e * size) size)

/-- LIST_SKIP of an entry (17 R466). -/
def State.listSkip (s : State) (t e : Nat) : State := s.report pgFlsh .u 0x8A (256 * t + min e 255) 0 0

/-! ## Signatures (17 R458, R459) -/

def vendorSigBytes : Nat := 9893

/-- Whether an item ends with a vendor signature over the bytes before it. -/
def vendorSigned (d : List Byte) : Bool :=
  vendorSigBytes ≤ d.length
    && Config.vendorVerifies (d.take (d.length - vendorSigBytes)) (d.drop (d.length - vendorSigBytes))

/-- Whether an item is a signed image of a kind (1 main, 2 tile) by its layout. -/
def imageLayout (d : List Byte) (kind : Nat) : Bool :=
  field d 0 4 == 1 && field d 4 4 == kind && d.length == 64 + field d 12 4 + vendorSigBytes
    && (slice d 21 43).all (· == 0) && field d 20 1 < 2 && (kind == 1 || field d 12 4 == 0x4_0000)

def imageGood (d : List Byte) (kind : Nat) : Bool := imageLayout d kind && vendorSigned d

/-- The start-up entry and mode of an image, and its code. -/
def imageEntry (d : List Byte) : Nat := field d 16 4
def imageBmode (d : List Byte) : Nat := field d 20 1
def imageChunk (d : List Byte) (c : Nat) : List Byte := slice d (64 + 4096 * c) 4096

/-! ## Licences and the certificate (17 R460, R461, R463) -/

/-- Why a licence is not valid: 1 layout, 2 `DEVNUM`, 3 signature; 0 where it is. -/
def licenceFault (d : List Byte) : Nat :=
  if d.length ≠ 64 + vendorSigBytes ∨ field d 0 4 ≠ 1 ∨ (slice d 20 44).any (· != 0) then 1
  else if field d 4 8 ≠ Config.devNum.toNat then 2
  else if !vendorSigned d then 3
  else 0

/-- Every licence examined: the features of the valid ones, LIC_BAD for the others. -/
def State.takeLicences (s : State) : State :=
  (s.activeItems itLicence).foldl (fun s e =>
    let d := s.itemBytes e.2
    let why := licenceFault d
    if why ≠ 0 then s.report pgIdnt .u 0x89 (256 * why + e.1) 0 0
    else (s.put pgIdnt IDNT_FEATURES.FEAT (s.get pgIdnt IDNT_FEATURES.FEAT ||| field d 12 4 % 32)).put pgIdnt
      IDNT_FEATURES.VALID (s.get pgIdnt IDNT_FEATURES.VALID + 1)) s

/-- The device's public key. -/
def pubKeyBytes : List Byte := (List.range 16).flatMap (fun i => leBytes 4 (Config.pubKey i).toNat)

/-- Whether an identity certificate is this device's and verifies. -/
def certGood (d : List Byte) : Bool :=
  d.length == 72 + vendorSigBytes && field d 0 8 == Config.devNum.toNat && slice d 8 64 == pubKeyBytes && vendorSigned d

/-- CERT_BAD for a certificate that is not; the device looks at step 2. -/
def State.checkCert (s : State) : State :=
  match s.activeItem itCert with
  | none => s
  | some i => if certGood (s.itemBytes i) then s else s.report pgIdnt .u 0x8D 0 0 0

/-! ## Commands of the FLSH page (17 R455) -/

def flErase : Nat := 0
def flProgram : Nat := 1
def flCheck : Nat := 2
def flRead : Nat := 3

def stFlashErr : Nat := 0x29
def stBudget : Nat := 0x2A

/-- The inactive slot: B when no copy is active. -/
def State.inactiveSlot (s : State) : Nat := match s.boot.active with
  | some a => 1 - a
  | none => 1

/-- Whether the operands of a command meet its conditions. -/
def State.flashArgsOk (s : State) (op : Nat) : Bool :=
  let off := s.get pgFlsh FLSH_OFF.BYTES
  let len := s.get pgFlsh FLSH_LEN.BYTES
  let src := s.getPair pgFlsh FLSH_SRC_LO.ADDR FLSH_SRC_HI.ADDR
  if op = flErase then off % 4096 == 0 && len % 4096 == 0 && off + len ≤ slotBytes
  else if op = flProgram then
    off % 256 == 0 && len % 256 == 0 && off + len ≤ slotBytes && (src != 0 || len ≤ 1024)
  else if op = flRead then off % 256 == 0 && len % 256 == 0 && off + len ≤ 2 * slotBytes && src != 0
  else true

/-- A write that starts one command. -/
def State.flashStart (s : State) (op : Nat) : State :=
  if !(s.flag pgBoot BOOT_STAT.READY || s.flag pgBoot BOOT_STAT.HALT) || s.flag pgFlsh FLSH_CSTAT.BUSY then s
  else if !s.flashArgsOk op then s.put pgFlsh FLSH_CSTAT.LAST stBadCmd
  else
    let c : FlashCmd :=
      { op := op, off := s.get pgFlsh FLSH_OFF.BYTES, len := s.get pgFlsh FLSH_LEN.BYTES,
        src := s.getPair pgFlsh FLSH_SRC_LO.ADDR FLSH_SRC_HI.ADDR }
    let s1 := { s with flashCmd := some c }.putFlag pgFlsh FLSH_CSTAT.BUSY true
    if op = flErase ∨ op = flProgram then s1.put pgFlsh (whyField s.inactiveSlot) 6 else s1

/-- The status of a package range that the management core reads or writes through open slots. -/
def State.coreStatus (s : State) (a n : Nat) : Nat := if n = 0 then stOk else s.runtimeStatus a n

/-- The source bytes of one page of a `PROGRAM`, `none` where a sector is damaged. -/
def State.programSource (s : State) (c : FlashCmd) (k : Nat) : State × Option (List Byte) :=
  if c.src = 0 then
    (s, some ((List.range 64).flatMap (fun i => leBytes 4 (s.get pgFlsh (FLSH_BUF.DATA.at (64 * k + i))))))
  else
    let r := s.readMem srcRuntime (c.src + 256 * k) 256
    (r.1, if r.2.2.1 then none else some r.2.1)

/-- Pages of a `PROGRAM` in ascending order, until a damaged source. -/
def State.programPages (c : FlashCmd) (base : Nat) : List Nat → State → State × Nat
  | [], s => (s, stOk)
  | k :: rest, s =>
    match s.programSource c k with
    | (s1, none) => (s1, stDataUE)
    | (s1, some d) => State.programPages c base rest (s1.flashAnd (base + c.off + 256 * k) d)

/-- A `READ` of `n` bytes. -/
def State.flashCopy (s : State) (c : FlashCmd) (n : Nat) : State × Nat :=
  let st := s.coreStatus c.src c.len
  if st ≠ stOk then (s.noteDown st c.src c.len, st)
  else if n = 0 then (s, stOk)
  else s.guardedWrite stBadCmd c.src (codeWords (s.flashRead c.off n))

/-- What a command does, and its status. A flash that fails leaves the range of an `ERASE` or `PROGRAM`, and the part of a
`READ` that was copied, free (assumption log 2). -/
def State.flashRun (s : State) (c : FlashCmd) (good : Bool) : State × Nat :=
  let base := s.inactiveSlot * slotBytes
  if !good then
    if c.op = flCheck then (s.examine s.inactiveSlot false, stFlashErr)
    else if c.op = flRead then
      let f := s.free
      ((f.2.flashCopy c (256 * (f.1.toNat % (c.len / 256 + 1)))).1, stFlashErr)
    else
      let f := s.freeBytes c.len
      (f.2.flashPut (base + c.off) f.1, stFlashErr)
  else if c.op = flErase then (s.flashClear (base + c.off) c.len, stOk)
  else if c.op = flProgram then
    let st := if c.src = 0 then stOk else s.coreStatus c.src c.len
    if st ≠ stOk then (s.noteDown st c.src c.len, st)
    else State.programPages c base (List.range (c.len / 256)) s
  else if c.op = flCheck then (s.examine s.inactiveSlot true, stOk)
  else s.flashCopy c c.len

/-- `FLASH_COMMAND_DONE`; a command whose package range sleeps waits for it (14 R397). -/
def State.flashDone (s : State) (good : Bool) : State :=
  match s.flashCmd with
  | none => s
  | some c =>
    if (c.op = flProgram ∨ c.op = flRead) ∧ c.src ≠ 0 ∧ s.coreStatus c.src c.len = stOk ∧ s.asleep c.src c.len then s
    else
      let r := s.flashRun c good
      let s1 := ({ r.1 with flashCmd := none }.putFlag pgFlsh FLSH_CSTAT.BUSY false).put pgFlsh FLSH_CSTAT.LAST r.2
      if good then s1 else s1.report pgFlsh .u 0x8B c.op 0 0

/-! ## Attestation (17 R464, R465) -/

/-- A register's word: its fields at their places. -/
def State.wordOf (s : State) (p : PageRef) (l : List Field) : Nat :=
  l.foldl (fun v f => v + s.get p f * 2 ^ f.lo) 0

def State.bootStatWord (s : State) : Nat :=
  s.wordOf pgBoot [BOOT_STAT.READY, BOOT_STAT.HOLD, BOOT_STAT.HALT, BOOT_STAT.TOL, BOOT_STAT.ACCEPTED, BOOT_STAT.LEVEL,
    BOOT_STAT.CODE, BOOT_STAT.STEP]

def State.bootRstWord (s : State) : Nat := s.wordOf pgBoot [BOOT_RST.COUNT, BOOT_RST.PREV_REQ, BOOT_RST.LAST]

/-- The 256-byte report body. Without an active copy the fields that a copy fills are zero. -/
def State.reportBody (s : State) : List Byte :=
  let copy : List Byte := match s.boot.active with
    | some slot => leBytes 4 (s.copySeq slot) ++ s.copyDigest slot ++ shake256 (s.itemOf itMain) ++ shake256 (s.itemOf itTile)
    | none => List.replicate 100 0
  leBytes 4 1 ++ leBytes 8 Config.devNum.toNat ++ copy ++ leBytes 4 (s.get pgIdnt IDNT_FEATURES.FEAT)
    ++ leBytes 4 s.bootStatWord ++ leBytes 4 s.bootRstWord ++ leBytes 1 (s.boot.active.getD 0) ++ leBytes 3 0
    ++ (List.range 8).flatMap (fun i => leBytes 4 (s.get pgIdnt (IDNT_NONCE.BYTES.at i))) ++ List.replicate 96 0

/-- `IDNT_ATT_CTRL.GO`. -/
def State.attStart (s : State) : State :=
  if s.flag pgIdnt IDNT_ATT_STAT.BUSY then s
  else
    let a := s.getPair pgIdnt IDNT_ATT_ADDR_LO.ADDR IDNT_ATT_ADDR_HI.ADDR
    { s with ident := { s.ident with report := some (s.reportBody, a) } }.putFlag pgIdnt IDNT_ATT_STAT.BUSY true

/-- Fuse blocks not yet taken. -/
def State.blocksLeft (s : State) : Nat := Config.fuseBlocks.val - s.ident.blown

/-- The next one-time index, from a new block where the current one is used up; `none` when nothing is left. Block j,
counted from 0 in the order in which the fuses blow, holds indices 1,024 j on. -/
def State.takeIndex (s : State) : State × Option Nat :=
  let left := s.get pgIdnt IDNT_SIG.IN_BLOCK
  if left = 0 ∧ s.blocksLeft = 0 then (s, none)
  else
    let s1 :=
      if left ≠ 0 then s
      else
        let t := { s with ident := { s.ident with blown := s.ident.blown + 1 } }.put pgIdnt IDNT_SIG.IN_BLOCK 1024
        if t.blocksLeft < 32 then t.report pgIdnt .u 0x8C t.blocksLeft 0 0 else t
    let n := s1.get pgIdnt IDNT_SIG.IN_BLOCK
    (s1.put pgIdnt IDNT_SIG.IN_BLOCK (n - 1), some (1024 * (1023 - s1.blocksLeft) + (1024 - n)))

/-- The 3,104 bytes of a report. -/
def reportBytes (body : List Byte) (index : Nat) : List Byte :=
  body ++ (List.range 2820).map (Config.deviceSign index body) ++ List.replicate 28 0

/-- `ATT_REPORT_DONE`: nothing is signed for an address that refuses the report. -/
def State.attDone (s : State) : State :=
  match s.ident.report with
  | none => s
  | some (body, a) =>
    let st := s.coreStatus a 3104
    let finish (s : State) (st : Nat) : State :=
      ({ s with ident := { s.ident with report := none } }.putFlag pgIdnt IDNT_ATT_STAT.BUSY false).put pgIdnt
        IDNT_ATT_STAT.LAST st
    if st ≠ stOk then finish (s.noteDown st a 3104) st
    else if s.winPartial a 3104 then finish s stBadCmd
    else if s.asleep a 3104 then s
    else match s.takeIndex with
      | (s1, none) => finish s1 stBudget
      | (s1, some i) =>
        let g := s1.guardedWrite stBadCmd a (codeWords (reportBytes body i))
        finish g.1 g.2

/-! ## The meanings of the commands -/

/-- `ERASE` (17 R455). -/
def execFlashErase (s : State) : Host.Outcome State Fault Refusal := .next (s.flashStart flErase)

/-- `PROGRAM` (17 R455). -/
def execFlashProgram (s : State) : Host.Outcome State Fault Refusal := .next (s.flashStart flProgram)

/-- `CHECK` (17 R455). -/
def execFlashCheck (s : State) : Host.Outcome State Fault Refusal := .next (s.flashStart flCheck)

/-- `READ` (17 R455). -/
def execFlashRead (s : State) : Host.Outcome State Fault Refusal := .next (s.flashStart flRead)

/-- `FLASH_COMMAND_DONE` (17 R455). -/
def execFlashCommandDone (good : Bool) (s : State) : Host.Outcome State Fault Refusal := .next (s.flashDone good)

/-- `ATT_GO` (17 R464). -/
def execAttGo (s : State) : Host.Outcome State Fault Refusal := .next s.attStart

/-- `ATT_REPORT_DONE` (17 R464, R465). -/
def execAttReportDone (s : State) : Host.Outcome State Fault Refusal := .next s.attDone

end Sys2Proof.Machine
end

