-- ==== Sys2Proof/Machine/Boot.lean ====
section
/-! DEFINITION. Clocks, resets and bring-up (16): the resets, the nine steps, tile-image loads, the topology check and the
service levels. -/

namespace Sys2Proof.Machine

/-! ## Resets (16 R428 to R430, 18 R472 to R475) -/

/-- The outputs that a reset releases: a pin that was asserted rises. -/
def State.releasePins (s : State) : List OutMsg :=
  (if s.flag pgThrm THRM_STAT.TRIP then [OutMsg.pin pinThermTrip 1] else [])
    ++ (if s.flag pgMgmt MGMT_RSTREQ.REQ then [OutMsg.pin pinRstReq 1] else [])

/-- The bytes that an erase or program leaves where a reset cuts it short are free (17 R454, assumption log 2). -/
def State.cutFlash (s : State) : State :=
  match s.flashCmd with
  | some c =>
    if c.op = flErase ∨ c.op = flProgram then
      let f := s.freeBytes c.len
      { f.2.flashPut (s.inactiveSlot * slotBytes + c.off) f.1 with flashCmd := none }
    else { s with flashCmd := none }
  | none => s

/-- What every reset of the package keeps: the flash, the fuses, the board, the commands that wait and what has left the
part. -/
def State.keepReset (s : State) : State :=
  let c := s.cutFlash
  { State.reset with
    pending := c.pending, out := c.out ++ c.releasePins, fresh := c.fresh, flash := c.flash,
    ident := { blown := c.ident.blown, report := none }, board := { c.board with pmb := none } }

/-- A package reset; `BOOT_RST.LAST` reads `last` (16 R429). -/
def State.packageReset (s : State) (last : Nat) : State :=
  let s1 := s.keepReset
  let s2 := ((s1.put pgBoot BOOT_RST.COUNT (min 65535 (s.get pgBoot BOOT_RST.COUNT + 1))).put pgBoot BOOT_RST.PREV_REQ
    (s.get pgMgmt MGMT_RSTREQ.CAUSE)).put pgBoot BOOT_RST.LAST last
  s2.put pgIdnt IDNT_SIG.IN_BLOCK (s.get pgIdnt IDNT_SIG.IN_BLOCK)

/-- A power-on reset, held until it is released; the board side begins anew. -/
def State.powerOnReset (s : State) (pwrOk : Bool) : State :=
  let s1 := s.keepReset
  { s1 with boot := { Boot.init with por := true }, board := { Board.init with pwrOk := pwrOk } }

/-- `BOOT_CTRL.PKG_RESET`: the reset falls due in 10 µs (16 R430). -/
def State.pkgResetWrite (s : State) : State :=
  if s.boot.due ≠ 0 then s else { s with boot := { s.boot with due := 3 } }

/-- The package reset that is due. -/
def State.dueReset (s : State) : State := if s.boot.due = 0 then s else s.packageReset s.boot.due

/-- RESET_N low (18 R474). -/
def State.resetPin (s : State) : State :=
  let s1 := if s.boot.por then s else s.packageReset 2
  { s1 with boot := { s1.boot with held := true } }

/-- PWR_OK changes (18 R473). -/
def State.pwrOkPin (s : State) (level : Bool) : State :=
  if level then { s with board := { s.board with pwrOk := true } } else s.powerOnReset false

/-- Power-on reset releases, with RESET_N high (18 R472). -/
def State.porRelease (s : State) : State :=
  if s.boot.por && s.board.pwrOk then
    { s with boot := { s.boot with por := false, held := false, released := s.mg } }
  else s

/-! ## Steps (16 R432, R434) -/

/-- Whether bring-up stands at step k. -/
def State.atStep (s : State) (k : Nat) : Bool :=
  s.get pgBoot BOOT_STAT.STEP == k && !s.flag pgBoot BOOT_STAT.HALT && !s.flag pgBoot BOOT_STAT.READY && !s.boot.por

/-- Step k completes: its time is recorded, and the next step begins. -/
def State.stepDone (s : State) (k : Nat) : State :=
  (s.put pgBoot (BOOT_TIME.US.at (k - 1)) ((s.mg - s.boot.released) / 500)).put pgBoot BOOT_STAT.STEP (min 9 (k + 1))

/-- `PAGE_STAT.READY` set on pages (02 R486). -/
def State.readyPages (s : State) (l : List PageRef) : State := l.foldl (fun s p => s.putFlag p PAGE_STAT.READY true) s

/-- Step 1: RESET_N is high, and the fuses are checked. -/
def State.stepRelease (s : State) (fusesGood : Bool) : State :=
  if !s.atStep 1 then s
  else
    let s1 := { s with boot := { s.boot with held := false, released := s.mg } }.fallBack
    if fusesGood then s1.stepDone 1 else s1.haltBoot 0x11

/-- The pages of step 2 (02 R486). -/
def bootPages : List PageRef :=
  [pgBoot, pgMgmt, pgThrm, pgFlsh, pgIdnt, pgHbrg, pgRope, pgCairn, pgBdie 0, pgClk 0, pgPwr 0, pgHprt 0]
    ++ (List.range 64).map pgSubw ++ (List.range 32).map pgDma

/-- The fabric ports and stacks of the base variant (06 R160, 11 R317). -/
def basePort (i : Nat) : Bool := i % 3 == 0
def baseStack (k : Nat) : Bool := k % 2 == 0

/-- `PAGE_CAPS.LIC_OFF` on what no licence enables (06 R160, 11 R317, 17 R461). -/
def State.licenceOff (s : State) : State :=
  let ports := if s.licensed 0 then [] else ((List.range 12).filter (fun i => !basePort i)).map pgFprt
  let edge := if s.licensed 4 then []
    else ((List.range 8).filter (fun k => !baseStack k)).flatMap (fun k =>
      [pgEmc k, pgEstk k, pgErow k] ++ (List.range 32).map (pgEchk k))
  (ports ++ edge).foldl (fun s p => s.putFlag p PAGE_CAPS.LIC_OFF true) s

/-- The frequency measured, free within its range (16 R427, assumption log 2). -/
def State.measureRef (s : State) : State := s.free.2.put (pgClk 0) CLK_REF_KHZ.KHZ (97000 + s.free.1.toNat % 6001)

/-- Step 2. -/
def State.stepClocks (s : State) (refGood locked answers : Bool) : State :=
  if !s.atStep 2 then s
  else if !refGood then (s.requestReset 1).haltBoot 0x21
  else
    let s1 := s.measureRef.putFlag (pgClk 0) CLK_STAT.REF_OK true
    if !locked then (s1.requestReset 2).haltBoot 0x22
    else
      let s2 := (s1.put (pgClk 0) CLK_STAT.LOCK 15).put (pgClk 0) CLK_STAT.RX 15
      let s3 := { s2 with boot := { s2.boot with fw := fwBoot } }.portOn 12
      let s4 := if answers then s3.put pgFlsh FLSH_SIZE.VALUE flashMiB else s3
      let s5 := (s4.examine 0 answers).examine 1 answers
      let a := s5.selectCopy
      let s6 := ({ s5 with boot := { s5.boot with active := a } }.put pgFlsh FLSH_STAT.ACTIVE (a.getD 0)).takeLicences.checkCert.licenceOff
      if a.isNone then s6.haltBoot 0x23 else (s6.readyPages bootPages).stepDone 2

/-! ## Step 3: the tile maps (01 R15 to R21, R485) -/

/-- The tile exclusion list as physical positions, with LIST_SKIP for entries that name none (17 R457). -/
def State.exclusions (s : State) : State × List Nat :=
  ((List.range (s.listEntries itExclude 4).length).zip (s.listEntries itExclude 4)).foldl (fun r e =>
    let v := leNat e.2
    if 4096 ≤ v ∨ 12 ≤ v % 16 ∨ 144 ≤ v / 16 then (r.1.listSkip itExclude e.1, r.2)
    else (r.1, r.2 ++ [144 * (v % 16) + v / 16])) (s, [])

/-- What the map makes of a position before counting: 1 fused off, 2 failed, 3 excluded, 0 usable. -/
def mapCause (failed : List (TileId × BitVec 4)) (excluded : List Nat) (t : Nat) : Nat :=
  if Config.fusedOff t then 1
  else if failed.any (fun e => e.1.val == t) then 2
  else if excluded.contains t then 3
  else 0

/-- The layers that failed at a position. -/
def layersFailed (failed : List (TileId × BitVec 4)) (t : Nat) : Nat :=
  if Config.fusedOff t then 0
  else ((failed.filter (fun e => e.1.val == t)).map (fun e => e.2.toNat)).foldl (· ||| ·) 0

/-- The map of a die: position after position, the first 128 usable ones enabled, the others spare. -/
def State.mapDie (s : State) (n : Nat) (failed : List (TileId × BitVec 4)) (excluded : List Nat) : State :=
  let m := pgTmap n
  ((List.range 144).foldl (fun (r : State × Nat) p =>
    let t := 144 * n + p
    let c := mapCause failed excluded t
    let s := r.1.put m (TMAP_PHYS.NM_FAIL.at p) (layersFailed failed t)
    let off (s : State) (st : Nat) : State := (s.put m (TMAP_PHYS.STATE.at p) st).put (pgTile t) PAGE_PWR.STATE 2
    if c ≠ 0 then
      (if c = 1 then (off s c).put m TMAP_SUMMARY.FUSED_OFF (s.get m TMAP_SUMMARY.FUSED_OFF + 1) else off s c, r.2)
    else if 128 ≤ r.2 then ((off s 4).put m TMAP_SUMMARY.SPARE (s.get m TMAP_SUMMARY.SPARE + 1), r.2)
    else
      (((((s.put m (TMAP_PHYS.STATE.at p) 0).put m (TMAP_PHYS.LOGICAL.at p) r.2).put m (TMAP_LOG.VALID.at r.2) 1).put m
        (TMAP_LOG.PHYS.at r.2) p).put m TMAP_SUMMARY.ENABLED (r.2 + 1), r.2 + 1)) (s, 0)).1

/-- The usable tiles of a die, once its map is built. -/
def State.usable (s : State) (n : Nat) : Nat :=
  s.get (pgTmap n) TMAP_SUMMARY.ENABLED + s.get (pgTmap n) TMAP_SUMMARY.FENCED + s.get (pgTmap n) TMAP_SUMMARY.SPARE

/-- The base dies that the clock tree reaches: B1 over SM0, B2 over SM2, B3 from B2 over SM1 (16 R424). -/
def clockTree (clocked seams : Nat) : Nat :=
  1 + (if bit clocked 1 ∧ bit seams 0 then 2 else 0) + (if bit clocked 2 ∧ bit seams 2 then 4 else 0)
    + (if bit clocked 3 ∧ bit clocked 2 ∧ bit seams 2 ∧ bit seams 1 then 8 else 0)

/-- Step 3. -/
def State.stepDiscovery (s : State) (d : Discovery) : State :=
  if !s.atStep 3 then s
  else
    let f : Presence :=
      { clocked := clockTree d.clocked.toNat d.seamBits.toNat, seams := d.seamBits.toNat, dies := d.dieBits.toNat,
        stackBits := d.stackBits.toNat }
    let s1 := { s with found := f }
    let s2 := ((List.range 4).filter s1.basePresent).foldl (fun s b => s.put (pgClk b) CLK_STAT.RX 15) s1
    let x := s2.exclusions
    let s3 := ((List.range 12).filter s1.diePresent).foldl (fun s n => s.mapDie n d.failed x.2) x.1
    if (List.range 3).any (fun n => 64 ≤ s3.usable n) then s3.stepDone 3 else s3.haltBoot 0x31

/-! ## Step 4: links (07 R207, R210) -/

/-- The base dies that a seam die joins. -/
def seamBases (sm : Nat) : Nat × Nat := match sm with
  | 0 => (0, 1)
  | 1 => (2, 3)
  | 2 => (0, 2)
  | _ => (1, 3)

/-- The proposals that the ends of a seam link make: NONE where the result names none, or where an end is missing. -/
def State.trainedProps (s : State) (r : Training) (sm l : Nat) : Nat × Nat :=
  if s.basePresent (seamBases sm).1 && s.basePresent (seamBases sm).2 then
    ((r.seamProps.find? (fun e => e.1.val == 4 * sm + l)).map (fun e => (e.2.1.toNat, e.2.2.toNat))).getD (0, 0)
  else (0, 0)

/-- A seam link leaves DOWN: EXCHANGE with no attempt counted and training frames sent. -/
def State.seamBegin (s : State) (sm l : Nat) : State :=
  (((s.put (pgSeam sm) (SEAM_LINK.WIDTH.at l) 0).put (pgSeam sm) (SEAM_LINK.ATTEMPTS.at l) 0).put (pgSeam sm)
    (SEAM_LINK.STATE.at l) smExchange).sendTraining sm l

/-- The training of a seam link in bring-up, by the states of R210: to UP over TEST, or to HELD after three attempts whose
proposals come to NONE. -/
def State.seamSettle (s : State) (sm l p0 p1 : Nat) : State :=
  let try' (s : State) : State := s.seamProposals sm l p0 p1
  ((try' (try' (try' (s.seamBegin sm l)))).seamTested sm l).seamDegraded sm

/-- The pages of step 4 and whether they are ready (02 R486). -/
def State.linkPages (s : State) : List PageRef :=
  (List.range 4).flatMap (fun b => if s.baseInService b then
      [pgBdie b, pgClk b, pgPwr b, pgBnet b, pgArb b, pgSumt b] ++ (if b = 3 then [pgHprt 1] else [])
        ++ ((List.range 3).map (3 * b + ·)).filterMap (fun i =>
          if s.flag (pgFprt i) PAGE_CAPS.LIC_OFF then none else some (pgFprt i))
    else [])
    ++ ((List.range 4).filter s.seamUp).map pgSeam
    ++ ((List.range 12).filter s.dieInService).flatMap (fun n =>
      [pgCdie n, pgTmap n, pgNmem n 0, pgNmem n 1, pgNmem n 2, pgNmem n 3, pgCnet n, pgArb (4 + n)]
        ++ ((List.range 144).filter (fun p => s.tileServes (144 * n + p))).map (fun p => pgTile (144 * n + p)))

/-- Step 4: a link that the result does not name comes to no width, a die that it does not name trains every drop. -/
def State.stepTraining (s : State) (r : Training) : State :=
  if !s.atStep 4 then s
  else
    let s1 := ((List.range 12).filter s.diePresent).foldl (fun s n =>
      let down := ((r.dropsDown.filter (fun e => e.1.val == n)).map (fun e => e.2.toNat)).foldl (· ||| ·) 0
      (s.put (pgCnet n) CNET_DROP_DOWN.DOWN down).putFlag (pgCnet n) PAGE_STAT.DEGRADED (down != 0)) s
    let s2 := ((List.range 16).filter (fun i => bit s.found.seams (i / 4))).foldl (fun s i =>
      let q := s.trainedProps r (i / 4) (i % 4)
      s.seamSettle (i / 4) (i % 4) q.1 q.2) s1
    if (List.range 3).any (fun n => 64 ≤ s2.usable n && s2.get (pgCnet n) CNET_DROP_DOWN.DOWN != 0xFFFFFF) then
      (s2.readyPages s2.linkPages).stepDone 4
    else s2.haltBoot 0x41

/-! ## Step 5: edge stacks (06 R160, R161) -/

/-- Whether a stack is initialised: present on a base die in service, and licensed. -/
def State.stackTried (s : State) (k : Nat) : Bool :=
  bit s.found.stackBits k && s.baseInService (k / 2) && !s.flag (pgEstk k) PAGE_CAPS.LIC_OFF

/-- The pages of a stack. -/
def stackPages (k : Nat) : List PageRef := [pgEmc k, pgEstk k, pgErow k] ++ (List.range 32).map (pgEchk k)

/-- Step 5. -/
def State.stepEdge (s : State) (failed : List (Fin 8 × Fin 32)) : State :=
  if !s.atStep 5 then s
  else
    (((List.range 8).filter s.stackTried).foldl (fun s k =>
      match (failed.filter (fun e => e.1.val == k)).map (fun e => e.2.val) with
      | [] =>
        ([pgEmc k, pgEstk k, pgErow k].foldl (fun s p => s.putFlag p PAGE_CTRL.EN true)
          (s.put (pgEstk k) ESTK_STAT.INIT 2)).readyPages (stackPages k)
      | c :: l => (s.put (pgEstk k) ESTK_STAT.INIT 3).put (pgEstk k) ESTK_STAT.FAIL_CH (l.foldl min c)) s).stepDone 5

/-! ## The manifest (16 R443) -/

/-- The default manifest. -/
def State.defaultManifest (s : State) : List Byte :=
  leBytes 4 1 ++ leBytes 1 15 ++ leBytes 1 15 ++ leBytes 2 0xFFF ++ leBytes 1 (if s.licensed 4 then 0xFF else 0x55)
    ++ leBytes 1 0 ++ List.replicate 12 0x80#8 ++ leBytes 4 0xFFFFFFFF ++ List.replicate 5 0 ++ leBytes 1 4
    ++ List.replicate 224 0

def State.manifest (s : State) : List Byte :=
  match s.activeItem itManifest with
  | some i => s.itemBytes i
  | none => s.defaultManifest

/-- The neighbour that the manifest expects on a port: device number and port number. -/
def portExpects (m : List Byte) (i : Nat) : Nat × Nat := (field m (64 + 16 * i) 8, field m (64 + 16 * i + 8) 1 % 16)

/-- The ports that the main image enables: expected and licensed. -/
def State.portsWanted (s : State) : List Nat :=
  (List.range 12).filter (fun i => (portExpects s.manifest i).1 != 0 && !s.flag (pgFprt i) PAGE_CAPS.LIC_OFF)

/-! ## Step 6: the main image -/

/-- The ring list of the active copy applied (17 R457). -/
def State.takeRings (s : State) : State :=
  ((List.range (s.listEntries itRings 12).length).zip (s.listEntries itRings 12)).foldl (fun s e =>
    let b := field e.2 0 1
    let i := b % 16
    if 12 ≤ i ∨ b / 16 % 8 ≠ 0 ∨ field e.2 1 3 ≠ 0 then s.listSkip itRings e.1
    else
      let s1 := (s.writeRing i false (field e.2 4 4)).writeRing i true (field e.2 8 4)
      if 128 ≤ b then s1.putFlag (pgFprt i) PAGE_CTRL.LOCK true else s1) s

/-- Step 6; `reported` says whether the main image reported running within 500 ms. -/
def State.stepMain (s : State) (reported : Bool) : State :=
  if !s.atStep 6 then s
  else if !imageGood (s.itemOf itMain) 1 then s.haltBoot 0x61
  else if !reported then s.haltBoot 0x62
  else
    let s1 := ({ s with boot := { s.boot with fw := fwMain } }.setModel true).takeRings
    let s2 := if s1.baseInService 3 then s1.portOn 13 else s1
    (s2.portsWanted.foldl State.portOn s2).stepDone 6

/-! ## The restart of the main image (13 R384, 16) -/

/-- A restart of the main image is over: the image of the active copy is verified as step 6 verifies it. One that does not
verify is an error during the restart, and asks for a package reset (17 R454, 13 R381). -/
def State.mgmtRestarted (s : State) : State :=
  if s.boot.fw ≠ fwRestarting then s
  else if imageGood (s.itemOf itMain) 1 then ({ s with boot := { s.boot with fw := fwMain } }).setModel true
  else s.requestReset 4

/-! ## Tile-image loads (16 R436 to R442) -/

/-- The participants of a load of the named dies (16 R436). -/
def State.loadParts (s : State) (dies : Nat) : List Nat :=
  (List.range 1728).filter (fun t => bit dies (t / 144) && s.tmapState t == 0 && s.get (pgTile t) PAGE_PWR.REQ != 2)

/-- The missing-chunk map of a tile. -/
def State.missing (s : State) (t : Nat) : Nat :=
  s.get (pgTile t) TILE_BOOT_MISS_LO.MISS + 2 ^ 32 * s.get (pgTile t) TILE_BOOT_MISS_HI.MISS

/-- A missing-chunk map stored, with the count of chunks held. -/
def State.putMissing (s : State) (t v : Nat) : State :=
  let held := ((List.range 64).filter (fun c => !bit v c)).length
  ((s.put (pgTile t) TILE_BOOT_MISS_LO.MISS v).put (pgTile t) TILE_BOOT_MISS_HI.MISS (v / 2 ^ 32)).put (pgTile t)
    TILE_BOOT_STAT.RCVD held

def State.setLoad (s : State) (l : Option Load) : State := { s with boot := { s.boot with load := l } }

/-- A load begins at pass 0. -/
def State.beginLoad (s : State) (dies : Nat) (reload : Bool) : State :=
  let parts := s.loadParts dies
  let l : Load :=
    { number := s.boot.loads + 1, dies := dies, reload := reload, parts := parts, pass := 0, marker := false, maps := [],
      union := 0, started := [], repair := [] }
  let s1 := { s with boot := { s.boot with loads := s.boot.loads + 1, load := some l } }
  let s2 := parts.foldl (fun s t =>
    ((s.putFlag (pgTile t) PAGE_CTRL.EN true).putMissing t (2 ^ 64 - 1)).put (pgTile t) TILE_BOOT_STAT.DONE 0) s1
  (s2.put pgBoot BOOT_FW.PASSES 0).put pgBoot BOOT_FW.UNICAST 0

/-- Whether a tile can take part now: on, and its die reachable. -/
def State.bootReachable (s : State) (t : Nat) : Bool :=
  s.get (pgTile t) PAGE_PWR.STATE == 0 && !s.dieDown (t / 144)

/-- A chunk received (16 R438). -/
def State.chunkIn (s : State) (t c : Nat) (flits : List (List Byte)) (crc : Nat) : State :=
  match s.boot.load with
  | none => s
  | some l =>
    if !l.parts.contains t || 6 ≤ l.pass || !s.bootReachable t then s
    else
      let o := 0x1C0000 + 4096 * c
      let e := flits.map (fun f => decodeSector (flitWord f))
      let s1 := s.tileStore t o (e.flatMap (·.2))
      let back := s1.tileLoad t o 4096
      let good := e.all (fun x => !x.1.damaged) && (crc32c back.2 == crc)
      let m := s1.missing t
      if good && bit m c then back.1.putMissing t (m - 2 ^ c) else back.1

/-- The end marker of a pass: the maps of the participants that can be reached are contributed (16 R439). -/
def State.endMarker (s : State) : State :=
  match s.boot.load with
  | none => s
  | some l =>
    if l.marker ∨ 5 ≤ l.pass then s
    else s.setLoad (some { l with
      marker := true, maps := (l.parts.filter s.bootReachable).map (fun t => (t, BitVec.ofNat 64 (s.missing t))) })

/-- 1 ms after the end marker: a map that has not come counts as all ones. -/
def State.mapTimeout (s : State) : State :=
  match s.boot.load with
  | none => s
  | some l =>
    if !l.marker then s
    else
      let late := l.parts.filter (fun t => !l.maps.any (fun e => e.1 == t))
      s.setLoad (some { l with maps := l.maps ++ late.map (fun t => (t, BitVec.allOnes 64)) })

/-- A participant fenced by a load (16 R440, R441). -/
def State.loadFence (s : State) (t : Nat) : State :=
  let k := s.logical t
  ((s.tileFence t .firmware).report pgBoot .u 0x82 k 0 0).count pgBoot BOOT_FW.FENCED 1

/-- The repair is over: the signature decides (16 R441). Tiles that miss no chunk start; or the load fails and the range
is zero-filled. -/
def State.startTiles (s : State) (l : Load) : State :=
  let d := s.itemOf itTile
  if imageGood d 2 then
    let go := l.parts.filter (fun t => s.missing t == 0)
    let s1 := go.foldl (fun s t =>
      ((s.put (pgTile t) TILE_ENTRY.ADDR (imageEntry d / 16)).put (pgTile t) TILE_ENTRY.BMODE (imageBmode d)).tileStart t) s
    s1.setLoad (some { l with pass := 6, started := go })
  else
    let s1 := l.parts.foldl (fun s t => s.zeroRange (s.sramAt t 0x1C0000) 0x40000) s
    if l.reload then s1.setLoad (some { l with pass := 7 }) else s1.haltBoot 0x71

/-- The union of a pass is known, or unicast repair is over (16 R439, R440). -/
def State.passDone (s : State) : State :=
  match s.boot.load with
  | none => s
  | some l =>
    if l.pass = 5 then
      let done := l.repair.filter (fun t => s.missing t == 0)
      let bad := l.repair.filter (fun t => s.missing t != 0)
      (bad.foldl State.loadFence (s.put pgBoot BOOT_FW.UNICAST done.length)).startTiles l
    else if 6 ≤ l.pass ∨ !l.marker ∨ l.parts.any (fun t => !l.maps.any (fun e => e.1 == t)) then s
    else
      let u := (l.maps.map (·.2)).foldl (· ||| ·) 0
      if u = 0 then s.startTiles { l with union := 0 }
      else if l.pass < 4 then
        (s.setLoad (some { l with pass := l.pass + 1, marker := false, maps := [], union := u })).put pgBoot BOOT_FW.PASSES
          (l.pass + 1)
      else s.setLoad (some { l with pass := 5, union := u, repair := l.parts.filter (fun t => s.missing t != 0) })

/-- The done sector of a started tile read: word 0 at 1 halts it and sets `DONE`; any other value 1 ms after START fences
it (16 R441). -/
def State.startupCheck (s : State) (t : Nat) (late : Bool) : State :=
  match s.boot.load with
  | none => s
  | some l =>
    if l.pass ≠ 6 ∨ !l.started.contains t then s
    else
      let s0 := s.setLoad (some { l with started := l.started.filter (· != t) })
      let r := s0.readMem srcRuntime (s.sramAt t 0x1FFFE0) 32
      if leNat (r.2.1.take 4) = 1 ∧ !r.2.2.1 then ((r.1.tileHalt t).tileHaltDone t).put (pgTile t) TILE_BOOT_STAT.DONE 1
      else if late then r.1.loadFence t
      else s

/-- Whether the start-up of a load is over: every tile started is checked and has halted. -/
def State.loadOver (s : State) (l : Load) : Bool :=
  l.pass == 6 && l.started.isEmpty && l.parts.all (fun t => s.tileRun t != runRunning)

/-- The tiles of a die whose start-up completed. -/
def State.doneTiles (s : State) (n : Nat) : Nat :=
  ((List.range 144).filter (fun p => s.flag (pgTile (144 * n + p)) TILE_BOOT_STAT.DONE)).length

/-- Step 7: it begins the load of every compute die in service, and completes once that load is over. -/
def State.stepTiles (s : State) : State :=
  if !s.atStep 7 then s
  else match s.boot.load with
    | none => s.beginLoad (((List.range 12).filter s.dieInService).foldl (fun m n => m + 2 ^ n) 0) false
    | some l =>
      if !s.loadOver l then s
      else if (List.range 3).any (fun n => 64 ≤ s.doneTiles n) then (s.setLoad none).stepDone 7
      else s.haltBoot 0x72

/-- `BOOT_CTRL.RELOAD` (16 R442). -/
def State.reload (s : State) : State :=
  let dies := s.get pgBoot BOOT_RELOAD.DIES
  let named := (List.range 12).filter (bit dies)
  let no (r : Nat) : State := s.put pgBoot BOOT_RELOAD.RESULT r
  if !s.isReady || s.boot.load.isSome then no 4
  else if named.any (fun n => !s.dieInService n || s.prst n != prstUp) then no 1
  else if named.any (fun n => (List.range 144).any (fun p => s.tileRun (144 * n + p) == runRunning)) then no 2
  else (s.beginLoad dies true).putFlag pgBoot BOOT_RELOAD.BUSY true

/-- A reload ends (16 R442). -/
def State.reloadDone (s : State) : State :=
  match s.boot.load with
  | none => s
  | some l =>
    let finish (r : Nat) : State := ((s.setLoad none).putFlag pgBoot BOOT_RELOAD.BUSY false).put pgBoot BOOT_RELOAD.RESULT r
    if !l.reload then s
    else if l.pass = 7 then (finish 3).report pgBoot .u 0x83 3 0 0
    else if s.loadOver l then finish 0
    else s

/-! ## Step 8: the topology check (16 R443 to R447) -/

/-- A width by rank: none, half, full. -/
def widthRank (w : Nat) : Nat := if w = 3 then 2 else if w = 0 then 0 else 1

/-- The width of a seam link in force. -/
def State.widthNow (s : State) (i : Nat) : Nat :=
  let st := s.seamState (i / 4) (i % 4)
  if st = smHeld ∨ st = smDown then 0 else s.get (pgSeam (i / 4)) (SEAM_LINK.WIDTH.at (i % 4))

/-- Whether a port is UP with the neighbour expected. -/
def State.portMatches (s : State) (m : List Byte) (i : Nat) : Bool := s.neighbour i == portExpects m i

def State.portPassed (s : State) (m : List Byte) (i : Nat) : Bool := s.portState i == ptUp && s.portMatches m i

/-- The items of R444 that deviate and those outside tolerance, as masks. -/
def State.compareItems (s : State) (m : List Byte) : Nat × Nat :=
  let bases := (List.range 4).any (fun b => bit (field m 4 1) b && !s.baseInService b)
  let seams := (List.range 4).any (fun n => bit (field m 5 1) n && !s.seamUp n)
  let want := (List.range 12).filter (bit (field m 6 2))
  let dies := (want.filter (fun n => !s.dieInService n)).length
  let short := (want.filter s.dieInService).map (fun n => field m (10 + n) 1 - s.get (pgTmap n) TMAP_SUMMARY.ENABLED)
  let links := ((List.range 16).filter (fun i => bit (field m 5 1) (i / 4))).map (fun i =>
    (widthRank (s.widthNow i), widthRank (field m 22 4 / 4 ^ i % 4)))
  let narrow := links.filter (fun e => e.1 < e.2)
  let edge := ((List.range 8).filter (fun k => bit (field m 8 1) k && !s.stackUsed k)).length
  let ports := ((List.range 12).filter (fun i => (portExpects m i).1 != 0 && !s.portPassed m i)).length
  let mask (l : List Bool) : Nat := (l.zip (List.range 5)).foldl (fun v e => if e.1 then v + 2 ^ e.2 else v) 0
  (mask [bases || seams || 0 < dies, short.any (0 < ·), !narrow.isEmpty, 0 < edge, 0 < ports],
    mask [bases || seams || field m 29 1 < dies, short.any (field m 26 1 < ·),
      narrow.any (fun e => e.1 == 0 || (e.2 == 2 && field m 28 1 % 2 == 0)), field m 27 1 < edge,
      field m 30 1 < ports])

/-- The service level of the parts (16 R447); the conditions of level 1 are those of steps 3, 4 and 7. -/
def State.serviceLevel (s : State) : Nat :=
  let stack (k : Nat) : Bool := s.stackUsed k || s.flag (pgEstk k) PAGE_CAPS.LIC_OFF
  let full := (List.range 4).all s.baseInService && (List.range 4).all s.seamUp && (List.range 12).all s.dieInService
    && (List.range 8).all stack && (List.range 12).all (fun n => s.get (pgTmap n) TMAP_SUMMARY.ENABLED == 128)
    && (List.range 16).all (fun i => s.widthNow i == 3)
  let local' := s.stackUsed 0 || s.stackUsed 1
  if full then 4
  else if local' && [1, 2, 3].any s.baseInService then 3
  else if local' then 2
  else 1

/-- The check itself, once every expected port is UP or `NBR_WAIT` has passed. -/
def State.checkTopology (s : State) : State :=
  let m := s.manifest
  let c := s.compareItems m
  let wrong := s.portsWanted.filter (fun i => s.flag (pgFprt i) FPRT_NBR.VALID && !s.portMatches m i)
  let passed := (s.portsWanted.filter (s.portPassed m)).foldl (fun v i => v + 2 ^ i) 0
  let host := b2n (s.portState 12 == ptUp) + 2 * b2n (s.portState 13 == ptUp)
  let out := c.2 ≠ 0 ∨ s.serviceLevel < field m 31 1
  let s1 := (((s.put pgBoot BOOT_MISMATCH.DEV c.1).put pgBoot BOOT_MISMATCH.OUT c.2).put pgBoot BOOT_PORTS.FABRIC
    passed).put pgBoot BOOT_PORTS.HOST host
  let s2 := wrong.foldl State.portOff s1
  let told (s : State) : State := s.report pgBoot .u 0x81 (32 * c.2 + c.1) 0 0
  if out then told ((s2.putFlag pgBoot BOOT_STAT.HOLD true).put pgBoot BOOT_STAT.CODE 0x81)
  else if c.1 ≠ 0 then (told (s2.putFlag pgBoot BOOT_STAT.TOL true)).stepDone 8
  else s2.stepDone 8

/-- Step 8. -/
def State.stepTopology (s : State) : State :=
  if !s.atStep 8 || s.flag pgBoot BOOT_STAT.HOLD || s.boot.fw != fwMain then s
  else if s.boot.nbrDone || s.portsWanted.all (fun i => s.portState i == ptUp) then s.checkTopology
  else s

/-- `NBR_WAIT` has passed since step 6 completed. -/
def State.nbrTimeout (s : State) : State :=
  if s.atStep 7 || s.atStep 8 then { s with boot := { s.boot with nbrDone := true } }.stepTopology else s

/-- `BOOT_CTRL.ACCEPT` (16 R445). -/
def State.acceptHold (s : State) : State :=
  if s.atStep 8 && s.flag pgBoot BOOT_STAT.HOLD then
    ((s.putFlag pgBoot BOOT_STAT.HOLD false).putFlag pgBoot BOOT_STAT.ACCEPTED true).stepDone 8
  else s

/-! ## Step 9 -/

/-- The lock list of the active copy applied (02 R42, 17 R457). -/
def State.takeLocks (s : State) : State :=
  ((List.range (s.listEntries itLocks 4).length).zip (s.listEntries itLocks 4)).foldl (fun s e =>
    let v := leNat e.2
    let p : PageRef := ⟨BitVec.ofNat 8 v, BitVec.ofNat 10 (v / 256)⟩
    if 2 ^ 18 ≤ v ∨ (pageAt p).isNone then s.listSkip itLocks e.1 else s.putFlag p PAGE_CTRL.LOCK true) s

/-- Step 9. -/
def State.stepLast (s : State) : State :=
  if !s.atStep 9 || s.boot.fw != fwMain then s
  else
    let s1 := s.takeLocks
    ((s1.put pgBoot BOOT_STAT.LEVEL s1.serviceLevel).putFlag pgBoot BOOT_STAT.READY true).stepDone 9

/-! ## Clocks in service (16 R426, R427) -/

/-- A clock failure that has persisted. -/
def State.clockFail (s : State) : ClockFail → State
  | .ref =>
    let s1 := (s.putFlag (pgClk 0) CLK_STAT.REF_OK false).requestReset 1
    if s.atStep 2 then s1.haltBoot 0x21 else s1
  | .lock =>
    let f := s.free
    let s1 := (f.2.put (pgClk 0) CLK_STAT.LOCK (f.1.toNat % 15)).requestReset 2
    if s.atStep 2 then s1.haltBoot 0x22 else s1
  | .dist => s.requestReset 3

/-- The value of counter d of a base die: MGCLK of B0 as counted, the others past their last capture by an amount left
free (assumption log 2). -/
def State.snapCounter (s : State) (b d : Nat) : State :=
  let p := pgClk b
  let old := s.get p (CLK_SNAP_LO.COUNT.at d) + 2 ^ 32 * s.get p (CLK_SNAP_HI.COUNT.at d)
  let f := s.free
  let v := if b = 0 ∧ d = 3 then s.mg else old + f.1.toNat
  let s1 := if b = 0 ∧ d = 3 then s else f.2
  (s1.put p (CLK_SNAP_LO.COUNT.at d) v).put p (CLK_SNAP_HI.COUNT.at d) (v / 2 ^ 32)

/-- `CLK_CTRL.SNAP` on B0. -/
def State.snap (s : State) : State :=
  ((List.range 4).filter s.baseInService).foldl (fun s b =>
    ((List.range 4).foldl (fun s d => s.snapCounter b d) s).putFlag (pgClk b) CLK_STAT.SNAP_VALID true) s

/-! ## The meanings of the commands -/

/-- `CLK_SNAP` (16 R426). -/
def execClkSnap (s : State) : Host.Outcome State Fault Refusal := .next s.snap

/-- `CLOCK_FAILURE` (16 R427). -/
def execClockFailure (c : ClockFail) (s : State) : Host.Outcome State Fault Refusal := .next (s.clockFail c)

/-- `PKG_RESET` (16 R430). -/
def execPkgReset (s : State) : Host.Outcome State Fault Refusal := .next s.pkgResetWrite

/-- `PACKAGE_RESET` (16 R429). -/
def execPackageReset (s : State) : Host.Outcome State Fault Refusal := .next s.dueReset

/-- `RESET_N_ASSERT` (18 R474). -/
def execResetNAssert (s : State) : Host.Outcome State Fault Refusal := .next s.resetPin

/-- `PWR_OK_CHANGE` (18 R473). -/
def execPwrOkChange (level : Bool) (s : State) : Host.Outcome State Fault Refusal := .next (s.pwrOkPin level)

/-- `POWER_ON_RESET_RELEASE` (18 R472). -/
def execPowerOnResetRelease (s : State) : Host.Outcome State Fault Refusal := .next s.porRelease

/-- `VDD_AON_OR_VIO_18_LOW` (18 R473). -/
def execVddAonOrVio18Low (s : State) : Host.Outcome State Fault Refusal := .next (s.powerOnReset s.board.pwrOk)

/-- `RESET_RELEASE` (16 R432, step 1). -/
def execResetRelease (fusesGood : Bool) (s : State) : Host.Outcome State Fault Refusal := .next (s.stepRelease fusesGood)

/-- `B0_CLOCKS` (16 R432, step 2). -/
def execB0Clocks (refGood locked answers : Bool) (s : State) : Host.Outcome State Fault Refusal :=
  .next (s.stepClocks refGood locked answers)

/-- `DIE_DISCOVERY` (16 R432, step 3). -/
def execDieDiscovery (found : Discovery) (s : State) : Host.Outcome State Fault Refusal := .next (s.stepDiscovery found)

/-- `LINK_TRAINING` (16 R432, step 4). -/
def execLinkTraining (res : Training) (s : State) : Host.Outcome State Fault Refusal := .next (s.stepTraining res)

/-- `EDGE_INIT` (16 R432, step 5). -/
def execEdgeInit (failed : List (Fin 8 × Fin 32)) (s : State) : Host.Outcome State Fault Refusal :=
  .next (s.stepEdge failed)

/-- `MGMT_FW` (16 R432, step 6). -/
def execMgmtFw (reported : Bool) (s : State) : Host.Outcome State Fault Refusal := .next (s.stepMain reported)

/-- `MGMT_RESTART_DONE` (13 R384). -/
def execMgmtRestartDone (s : State) : Host.Outcome State Fault Refusal := .next s.mgmtRestarted

/-- `TILE_FW` (16 R432, step 7). -/
def execTileFw (s : State) : Host.Outcome State Fault Refusal := .next s.stepTiles

/-- `TOPOLOGY` (16 R444). -/
def execTopology (s : State) : Host.Outcome State Fault Refusal := .next s.stepTopology

/-- `READY` (16 R432, step 9). -/
def execReady (s : State) : Host.Outcome State Fault Refusal := .next s.stepLast

/-- `BOOT_CHUNK_RECEIVE` (16 R438). -/
def execBootChunkReceive (t : TileId) (c : BitVec 6) (flits : List (List Byte)) (crc : Word) (s : State) :
    Host.Outcome State Fault Refusal :=
  if (Instr.bootChunkReceive t c flits crc).wellFormed then .next (s.chunkIn t c.toNat flits crc.toNat)
  else .fault .illFormed

/-- `BOOT_END_MARKER` (16 R439). -/
def execBootEndMarker (s : State) : Host.Outcome State Fault Refusal := .next s.endMarker

/-- `BOOT_BITMAP_TIMEOUT` (16 R439). -/
def execBootBitmapTimeout (s : State) : Host.Outcome State Fault Refusal := .next s.mapTimeout

/-- `BOOT_PASS_DONE` (16 R439, R440). -/
def execBootPassDone (s : State) : Host.Outcome State Fault Refusal := .next s.passDone

/-- `TILE_STARTUP_CHECK` (16 R441). -/
def execTileStartupCheck (t : TileId) (late : Bool) (s : State) : Host.Outcome State Fault Refusal :=
  .next (s.startupCheck t late)

/-- `BOOT_RELOAD` (16 R442). -/
def execBootReload (s : State) : Host.Outcome State Fault Refusal := .next s.reload

/-- `BOOT_RELOAD_DONE` (16 R442). -/
def execBootReloadDone (s : State) : Host.Outcome State Fault Refusal := .next s.reloadDone

/-- `BOOT_ACCEPT` (16 R445). -/
def execBootAccept (s : State) : Host.Outcome State Fault Refusal := .next s.acceptHold

/-- `NBR_WAIT_TIMEOUT` (16 R444). -/
def execNbrWaitTimeout (s : State) : Host.Outcome State Fault Refusal := .next s.nbrTimeout

end Sys2Proof.Machine
end

