-- ==== Sys2Proof/Machine/SoftReset.lean ====
section
/-! DEFINITION. Soft resets page by page (02 R43 to R45, 04 R487, 05 R492, 07 R214, 09 R265, 13 R379, 14 R403). What a soft
reset of a page keeps beside 02 R43 where the page shows the state of other parts is assumption log 25. -/

namespace Sys2Proof.Machine

/-- A soft reset of a page's registers that leaves some more fields. -/
def State.softKeep (s : State) (p : PageRef) (extra : List Field) : State :=
  let kept := (extra.flatMap Field.each).map (fun f => (f, s.get p f))
  kept.foldl (fun s e => s.put p e.1 e.2) (s.softPage p)

/-- The fields that a soft reset keeps under rules of their own (assumption log 25): the clocks run until package reset (16
R423); domains keep their states (14 R403); tile positions, bring-up results, images and identity last until package reset
(02 R19, 06 R161, 16 R434, 17 R454, R461); a trip, the coolant's state and a faulty sensor as well (15 R409, R413, R416,
R419); a seam link leaves its state, and a drop comes up again, only as 07 R207 to R210 say; a tile as in 04 R487. -/
def liveFields : PType → List Field
  | .clk => [CLK_STAT.RX, CLK_STAT.LOCK, CLK_STAT.REF_OK, CLK_REF_KHZ.KHZ]
  | .pwr => [PWR_NMQ_STAT.Q, PWR_SUMT_STAT.R]
  | .tmap => fieldsTmap
  | .boot => fieldsBoot.filter (fun f => f.acc == .ro)
  | .thrm => [THRM_STAT.TRIP, THRM_STAT.MODEL, THRM_STAT.COOL, THRM_STOP_MS.MS, THRM_FAULTS.COUNT]
  | .flsh => [FLSH_STAT.WHY_A, FLSH_STAT.WHY_B, FLSH_STAT.ACTIVE, FLSH_SEQ_A.VALUE, FLSH_SEQ_B.VALUE, FLSH_SIZE.VALUE]
  | .idnt => [IDNT_FEATURES.VALID, IDNT_FEATURES.FEAT, IDNT_SIG.IN_BLOCK]
  | .estk => [ESTK_STAT.INIT, ESTK_STAT.FAIL_CH]
  | .seam => [SEAM_LINK.STATE, SEAM_LINK.WIDTH, SEAM_LINK.ATTEMPTS, SEAM_LINK.P0, SEAM_LINK.P1]
  | .cnet => [CNET_DROP_DOWN.DOWN]
  | .nmem => [NMEM_REFR_STAT.NO_MODEL, NMEM_REFR_STAT.HOT]
  | .tile => [TILE_STAT.RUN, TILE_ERR_STAT.FREASON, TILE_BOOT_STAT.DONE, TILE_BOOT_STAT.RCVD, TILE_BOOT_MISS_LO.MISS,
      TILE_BOOT_MISS_HI.MISS]
  | _ => []

/-- Every command of some row engines ends DISABLED (05 R492). -/
def State.cutEngines (s : State) (l : List Nat) : State := l.foldl (fun s e => s.rowCut e stDisabled) s

/-- The scrubber of a layer starts afresh; refresh goes on (05 R492). -/
def State.scrubAfresh (s : State) (n m : Nat) : State :=
  { s with refresh := mapUpd Refresh.init s.refresh (fun key x =>
      if key % 4 = m ∧ resSlot (key / 4) = 0x10 + n then { x with passes := 0, scrubRow := 0 } else x) }

/-- The routers of a base die as after package reset: their routes avoid no link (02 R43, 07 R212), and on B0 the group table
and its rounds are gone (07 R219). -/
def State.softRoutes (s : State) (b : Nat) : State :=
  let s1 := { s with net := { s.net with known := mapSet 0 s.net.known b 0 } }
  if b = 0 then { s1 with red := { groups := [], rounds := [], loading := none, late := s1.red.late } } else s1

/-- The thermal management starts afresh; a sensor marked faulty stays so (15 R409). -/
def Thermal.afresh (h : Thermal) : Thermal :=
  { Thermal.init with decisions := h.decisions,
                      sensors := mapUpd Sensor.init h.sensors (fun _ x => { Sensor.init with why := x.why }) }

/-- What a soft reset does to the block behind a page, registers apart. -/
def State.softBlock (s : State) (t : PType) (i : Nat) : State :=
  match t with
  | .bdie => if i = 0 then { s with board := { s.board with pmb := none } } else s
  | .bnet => s.softRoutes i
  | .thrm => { s with thermal := s.thermal.afresh }
  | .arb => s.resetArb i
  | .sumt =>
    (List.range 20).foldl (fun s r => (s.dropRegion i r).zeroRange (summitBase i r) 0x100_0000) s
  | .emc =>
    { s with res := mapUpd Res.init s.res (fun id r =>
      if resSlot id = i / 2 ∧ resKind id = kindEMCH ∧ resInst id / 32 = i % 2 then { r with rows := [] } else r) }
  | .echk => { s with checkers := s.checkers.filter (fun e => e.1 != checkerKey (i / 32) (i % 32)) }
  | .flsh => s.cutFlash
  | .idnt => { s with ident := { s.ident with report := none } }
  | .nmem => (s.cutEngines ((List.range 4).map (nearEngine (i / 4) (i % 4)))).scrubAfresh (i / 4) (i % 4)
  | .erow => s.cutEngines ((List.range 32).map (edgeEngine i))
  | .tile => s.tileSoftReset i
  | _ => s

/-- The device's stride of a die, minus one, after a soft reset of its CDIE page: 16 in a coolant stop (15 R416), the fallback
without the model (15 R413), and the reset value until the next decision (02 R43). -/
def State.freshStride (s : State) : Nat :=
  if 2 ≤ s.get pgThrm THRM_STAT.COOL then 15 else if s.modelOn then 0 else s.get pgThrm THRM_CFG.FALLBACK

/-- What follows from the registers that a soft reset has returned: strides, refresh rates and the tolerance of a
group. -/
def State.softFollow (s : State) (p : PageRef) (t : PType) (i : Nat) : State :=
  let s1 := match t with
    | .cdie => s.setStride i (s.freshStride)
    | .nmem => s.refreshRate (i / 4) (i % 4)
    | .thrm => if s.modelOn then s else s.fallBack
    | _ => s
  if hasLattol p then s1.writeLattol p 0 else s1

/-- The effect of a soft reset of a page. -/
def State.softEffect (s : State) (p : PageRef) (t : PType) (i : Nat) : State :=
  match t with
  | .rope => s.ropeSoft
  | .subw => s.winSoft i
  | .dma => s.dmaSoft i
  | .fprt => (s.portSoft i).softFollow p t i
  | .hprt => (s.portSoft (12 + i)).softFollow p t i
  | _ => ((s.softBlock t i).softKeep p (liveFields t)).softFollow p t i

/-- Whether a page takes a soft reset: not MGMT (13 R379), not a CDIE page outside UP (07 R214), not CAIRN while the store
is active (09 R265), and no page a second time (02 R44). -/
def State.softTaken (s : State) (p : PageRef) (t : PType) (i : Nat) : Bool :=
  !s.flag p PAGE_STAT.SRST_BUSY && match t with
  | .mgmt => false
  | .cdie => s.prst i == prstUp
  | .cairn => !s.flag pgCairn CAIRN_STAT.ACTIVE
  | _ => true

/-- The power domains in which the block behind a page lies (14 R389): that of its `PAGE_PWR`; for the row engines of an
EROW page that of the stack with its logic base; for NMEM and SUMT pages those of their quarters and regions. -/
def blockDomains (p : PageRef) : List Domain :=
  match pageAt p with
  | some (.erow, k) => [.stack (Fin.ofNat 8 k)]
  | some (.nmem, i) => (List.finRange 4).map (fun q => .quarter (Fin.ofNat 12 (i / 4)) (Fin.ofNat 4 (i % 4)) q)
  | some (.sumt, b) => (List.finRange 20).map (fun r => .summit (Fin.ofNat 4 b) r)
  | _ => (pageDomain p).toList

/-- The power state of the block behind a page: in transition while a domain of it is, on where it has no domain or one of
them is on, else as its first domain (02 R45, 14 R403). -/
def State.pagePower (s : State) (p : PageRef) : Nat :=
  let l := (blockDomains p).map s.domState
  if l.contains 3 then 3 else if l.contains 0 then 0 else l.headD 0

/-- The block in retention loses what it holds, but a tile keeps SRAM and scratch (02 R45, 04 R487). -/
def State.dropRetained (s : State) (p : PageRef) : State :=
  match pageDomain p with
  | some (.tile _) => s
  | some d => if s.domState d = 1 then s.domLost d else s
  | none => s

/-- A soft reset takes effect: it is under way while the block is on, and complete at once otherwise (02 R44, R45). -/
def State.softRun (s : State) (p : PageRef) (t : PType) (i : Nat) : State :=
  let s1 := ((s.dropRetained p).softEffect p t i)
  s1.putFlag p PAGE_STAT.SRST_BUSY (s.pagePower p == 0)

/-- A write of 1 to `PAGE_CTRL.SRST`; it waits for the end of a power transition (14 R403). -/
def State.softReset (s : State) (p : PageRef) : State :=
  match pageAt p with
  | none => s
  | some (t, i) =>
    if !s.softTaken p t i then s
    else if s.pagePower p = 3 then { (s.softStart p) with softWait := s.softWait ++ [p] }
    else s.softRun p t i

/-- The soft resets that waited for a transition that has ended (14 R403). -/
def State.settleSoft (s : State) : State :=
  let ended := s.softWait.filter (fun p => s.pagePower p != 3)
  ended.foldl (fun s p => match pageAt p with
    | some (t, i) => s.softRun p t i
    | none => s) { s with softWait := s.softWait.filter (fun p => s.pagePower p == 3) }

/-- Whether the soft reset of a page still waits: for a power transition (14 R403), or for the piece that a DMA channel has
under way (12 R367). -/
def State.softHeld (s : State) (p : PageRef) : Bool :=
  s.softWait.contains p || match pageAt p with
    | some (.dma, d) => (s.dma d).run.isSome
    | _ => false

/-- A soft reset ends (02 R44). -/
def State.softDone (s : State) (p : PageRef) : State :=
  if s.softHeld p then s else s.putFlag p PAGE_STAT.SRST_BUSY false

/-! ## The meanings of the commands -/

/-- `SOFT_RESET` (02 R43). -/
def execSoftReset (p : PageRef) (s : State) : Host.Outcome State Fault Refusal := .next (s.softReset p)

/-- `SOFT_RESET_DONE` (02 R44). -/
def execSoftResetDone (p : PageRef) (s : State) : Host.Outcome State Fault Refusal :=
  .next (if s.flag p PAGE_STAT.SRST_BUSY then s.softDone p else s)

/-- `TILE_SOFT_RESET` (04 R487). -/
def execTileSoftReset (t : TileId) (s : State) : Host.Outcome State Fault Refusal := .next (s.softReset (pgTile t))

/-- `NMEM_SOFT_RESET` (05 R492). -/
def execNmemSoftReset (n : Die) (m : Fin 4) (s : State) : Host.Outcome State Fault Refusal :=
  .next (s.softReset (pgNmem n m))

/-- `EROW_SOFT_RESET` (05 R492). -/
def execErowSoftReset (k : Stack) (s : State) : Host.Outcome State Fault Refusal := .next (s.softReset (pgErow k))

/-- `ROPE_SOFT_RESET` (08 R234). -/
def execRopeSoftReset (s : State) : Host.Outcome State Fault Refusal := .next (s.softReset pgRope)

/-- `HPRT_SOFT_RESET` (12 R489). -/
def execHprtSoftReset (h : HPort) (s : State) : Host.Outcome State Fault Refusal := .next (s.softReset (pgHprt h))

/-- `HBRG_SOFT_RESET` (12 R489). -/
def execHbrgSoftReset (s : State) : Host.Outcome State Fault Refusal := .next (s.softReset pgHbrg)

/-- `SUBW_SOFT_RESET` (12 R361). -/
def execSubwSoftReset (w : Sys2Proof.Win) (s : State) : Host.Outcome State Fault Refusal := .next (s.softReset (pgSubw w))

/-- `DMA_SOFT_RESET` (12 R367). -/
def execDmaSoftReset (d : Chan) (s : State) : Host.Outcome State Fault Refusal := .next (s.softReset (pgDma d))

end Sys2Proof.Machine
end

