-- ==== Sys2Proof/Machine/Access.lean ====
section
/-! DEFINITION. Register accesses: which registers answer (02 R24, R27, R33, 16 R446), what they read as (02 R29 to R41), what
a write does (02 R34 to R38 and the chapters' own rules), register and memory transactions of the host (12 R346 to R352,
R488), and what waits until a power domain is on (14 R397). -/

namespace Sys2Proof.Machine

/-! ## Which registers answer -/

/-- Whether a die slot is occupied (02 R24, 16 R446): dies that receive no clock are absent. -/
def State.slotOccupied (s : State) (sl : Nat) : Bool :=
  if sl < 4 then s.basePresent sl
  else if sl < 0x0C then bit s.found.seams (sl - 8)
  else if sl < 0x20 then s.diePresent (sl - 0x10)
  else bit s.found.stackBits (sl - 0x20) && s.basePresent ((sl - 0x20) / 2)

/-- The status of an access to a page: NO_TARGET where there is none, DEST_DOWN on a compute die in partition reset (02 R33)
or, once links have trained, out of service (16 R446). The CDIE page lies on the base die. -/
def State.pageStatus (s : State) (p : PageRef) : Nat :=
  match pageAt p with
  | none => stNoTarget
  | some (t, _) =>
    let sl := p.slot.toNat
    if !s.slotOccupied sl then stNoTarget
    else if 0x10 ≤ sl ∧ sl < 0x1C ∧ t ≠ .cdie then
      let n := sl - 0x10
      if s.prst n ≠ prstUp ∨ (4 < s.get pgBoot BOOT_STAT.STEP ∧ !s.dieInService n) then stDestDown else stOk
    else stOk

/-- The page and the byte offset of a register address (02 R27). -/
def pageOf (a : Nat) : PageRef := mkPage ((a - regBase) / 2 ^ 22) (a / 2 ^ 12 % 2 ^ 10)
def offOf (a : Nat) : Nat := a % 2 ^ 12

/-- The status of an access to a register address, of the right size (02 R25, R28). -/
def State.regStatus (s : State) (a : Nat) : Nat :=
  if a % 4 ≠ 0 then stBadSize else if !inRegs a 4 then stNoTarget else s.pageStatus (pageOf a)

/-- Whether the block-specific registers of a page read as zero: during a soft reset (02 R44), and on the TILE page of a
position with `STATE` 1 to 3 (02 R50). -/
def State.blockHidden (s : State) (p : PageRef) (t : PType) (i : Nat) : Bool :=
  s.flag p PAGE_STAT.SRST_BUSY || (t == .tile && 1 ≤ s.tmapState i && s.tmapState i ≤ 3)

/-! ## What fields read as -/

/-- A field of the page header (02 R39 to R41, R50, 14 R391). -/
def State.headerValue (s : State) (p : PageRef) (t : PType) (i : Nat) (f : Field) : Nat :=
  if f = PAGE_ID.TYPE then t.code
  else if f = PAGE_ID.INSTANCE then i
  else if f = PAGE_CAPS.LOCKABLE then b2n ((fieldsOf t).any (fun g => g.acc == .rwl))
  else if f = PAGE_CAPS.PWR then b2n (pageDomain p).isSome
  else if f = PAGE_CAPS.LATTOL then b2n (hasLattol p)
  else if f = PAGE_CTRL.EN then (if s.flag p PAGE_CAPS.LIC_OFF then 0 else s.get p f)
  else if f = PAGE_STAT.ERR_PENDING then s.get p PAGE_ERR_FIRST.VALID
  else if f = PAGE_PWR.STATE ∧ t = .tile ∧ 1 ≤ s.tmapState i ∧ s.tmapState i ≤ 4 then 2
  else s.get p f

/-- A field of an ARB page (04 R120): the observation registers show the selected requester and resource. -/
def State.arbValue (s : State) (p : PageRef) (a : Nat) (f : Field) : Nat :=
  if f.off < 0x064 ∨ 0x070 ≤ f.off then s.get p f
  else match (s.resOrder a)[s.get p ARB_OBS_SEL.RES]? with
    | none => 0
    | some id =>
      let r := s.resAt id
      let who := s.get p ARB_OBS_SEL.REQ
      if f = ARB_OBS_RES.HELD then b2n r.holder.isSome
      else if f = ARB_OBS_RES.HOLDER then r.holder.getD 0
      else if f = ARB_OBS_RES.HOLD_LEN then min r.holdLen (2 ^ 24 - 1)
      else if f = ARB_OBS_REQ.PENDING then b2n ((s.pendingAt id).contains who)
      else if f = ARB_OBS_REQ.LOSSES then mapGet 0 r.losses who
      else if f = ARB_OBS_REQ.BACKOFF then mapGet 0 r.backoff who
      else if f = ARB_OBS_CAL.MAX_GAP then (s.calOf id).maxGap
      else (s.calOf id).openCount

/-- A field of the THRM page: `THRM_SENSOR` shows the selected sensor (15 R422). -/
def State.thrmValue (s : State) (f : Field) : Nat :=
  let i := s.get pgThrm THRM_SEL.SENSOR
  let x := s.sensor i
  if f = THRM_SENSOR.PRESENT then b2n (isSampled i || i == flowSensor)
  else if f = THRM_SENSOR.FAULTY then b2n (x.why != 0)
  else if f = THRM_SENSOR.WHY then x.why
  else if f = THRM_SENSOR.TEMP then
    (if i = flowSensor then s.get pgThrm THRM_FLOW.FLOW else if isSampled i then temp16 x.temp else 0)
  else s.get pgThrm f

/-- What is in service, as a mask over `n` parts; nothing before step 4 (16 R446). -/
def State.serviceMask (s : State) (n : Nat) (up : Nat → Bool) : Nat :=
  if s.get pgBoot BOOT_STAT.STEP < 4 then 0
  else (List.range n).foldl (fun v i => v + 2 ^ i * b2n (up i)) 0

/-- The registers of the ROPE page that show the pools and the rope captured for a requester (08 R240, R258). -/
def State.ropeValue (s : State) (who : Nat) (f : Field) : Nat :=
  if f = ROPE_OPEN_CNT.COUNT then (s.ropes.filter (fun e => e.2.state != 0)).length
  else if 0x080 ≤ f.off ∧ f.off < 0x0C0 then (mapGet [] s.kv.captured who).getD ((f.off - 0x080) / 4) 0
  else if 0x180 ≤ f.off ∧ f.off < 0x1B0 then s.nfree ((f.off - 0x180) / 4)
  else if 0x1B0 ≤ f.off ∧ f.off < 0x1C0 then s.efree ((f.off - 0x1B0) / 4)
  else s.get pgRope f

/-- The IDNT page: the fuses (17 R467). -/
def State.idntValue (s : State) (f : Field) : Nat :=
  if f = IDNT_DEVNUM_LO.DEVNUM then Config.devNum.toNat % 2 ^ 32
  else if f = IDNT_DEVNUM_HI.DEVNUM then Config.devNum.toNat / 2 ^ 32
  else if f = IDNT_SIG.BLOCKS then s.blocksLeft
  else if 0x080 ≤ f.off then (Config.pubKey ((f.off - 0x080) / 4)).toNat
  else s.get pgIdnt f

/-- The stack's temperature as it reports it (06 R174), once it is initialised. -/
def State.stackTemp (s : State) (k : Nat) : Nat := if s.stackUsed k then (Config.stackTemp k s.mg).toNat else 0

/-- The PWR page: the comparators (14 R404). -/
def State.pwrValue (s : State) (p : PageRef) (b : Nat) (f : Field) : Nat :=
  if f = PWR_WAKE_STAT.TRIP then (List.range 10).foldl (fun v i => v + 2 ^ i * b2n (s.lineTripped b i)) 0
  else if f = PWR_WAKE_THR.THR.at 9 ∧ (b = 1 ∨ b = 2) then 0
  else s.get p f

/-- A field of a register that the block forms as it is read; the others show what is stored. -/
def State.blockValue (s : State) (who : Nat) (p : PageRef) (t : PType) (i : Nat) (f : Field) : Nat :=
  match t with
  | .arb => s.arbValue p i f
  | .thrm => s.thrmValue f
  | .rope => s.ropeValue who f
  | .idnt => s.idntValue f
  | .pwr => s.pwrValue p i f
  | .tile =>
    let asleep := s.get p PAGE_PWR.STATE == 1 || s.get p PAGE_PWR.STATE == 2
    if asleep && (f.off == 0x048 || f.off == 0x04C || f.off == 0x104) then 0 else s.get p f
  | .emc =>
    if f = EMC_OBS_WAIT.W then (s.calOf (emchId i (s.get p EMC_OBS_WAIT.CH))).openWait else s.get p f
  | .fprt =>
    if f = FPRT_STAT.R_OK_N then b2n (s.ringOk i false)
    else if f = FPRT_STAT.R_OK_P then b2n (s.ringOk i true)
    else s.get p f
  | .mgmt =>
    if 0x080 ≤ f.off then (mapGet [] s.log.captured who).getD ((f.off - 0x080) / 4) 0 else s.get p f
  | .boot =>
    if f = BOOT_SVC.STACKS then s.serviceMask 8 s.stackUsed
    else if f = BOOT_SVC.CDIES then s.serviceMask 12 s.dieInService
    else if f = BOOT_SVC.SEAMS then s.serviceMask 4 s.seamUp
    else if f = BOOT_SVC.BASES then s.serviceMask 4 s.baseInService
    else s.get p f
  | .seam =>
    if 0x050 ≤ f.off ∧ f.off < 0x060 ∧ f.lo = 16 then (Config.seamSpares (4 * i + (f.off - 0x050) / 4)).toNat else s.get p f
  | .cnet => if f = CNET_SPARES.USED then (Config.dropSpares i).toNat else s.get p f
  | .estk =>
    if f = ESTK_STAT.TEMP then s.stackTemp i
    else if f = ESTK_STAT.X2 then b2n (85 < s.stackTemp i)
    else s.get p f
  | .bnet => if i ≠ 0 ∧ 0x050 ≤ f.off then 0 else s.get p f
  | .bdie => if i ≠ 0 then 0 else s.get p f
  | _ => s.get p f

/-- What a field reads as: a WO field reads 0 (02 R34). -/
def State.fieldValue (s : State) (who : Nat) (p : PageRef) (t : PType) (i : Nat) (f : Field) : Nat :=
  if f.acc = .wo then 0
  else if f.off < 0x40 then s.headerValue p t i f
  else s.blockValue who p t i f % 2 ^ (f.hi + 1 - f.lo)

/-- The 32-bit value of the register at an offset of a page, as requester `who` sees it, pair latches apart (02 R30). -/
def State.regWord (s : State) (who : Nat) (p : PageRef) (off : Nat) : Nat :=
  match pageAt p with
  | none => 0
  | some (t, i) =>
    if 0x40 ≤ off ∧ s.blockHidden p t i then 0
    else (fieldsAt t off).foldl (fun v f => v + s.fieldValue who p t i f * 2 ^ f.lo) 0

/-! ## Pairs (02 R37, R38) -/

/-- The offset of the `_LO` half of the pair to which a register belongs, by page type: pairs of RW or RWL fields, and
pairs of RO fields. -/
def rwPairs : PType → List Nat
  | .arb => [0x080]
  | .bnet => [0x050]
  | .rope => [0x048]
  | .cairn => [0x048]
  | .subw => [0x044, 0x04C]
  | .flsh => [0x058]
  | .idnt => [0x058]
  | _ => []

def roPairs : PType → List Nat
  | .clk => [0x050, 0x058, 0x060, 0x068]
  | .fprt => [0x058]
  | .hprt => [0x050]
  | .emc => [0x048]
  | .nmem => [0x060]
  | .dma => [0x04C]
  | .bnet => [0x064]
  | .idnt => [0x040]
  | .tile => [0x078]
  | _ => []

/-- The key of a requester's buffer for the register at an offset. -/
def pairKey (p : PageRef) (off who : Nat) : Nat := 128 * (pageKey p + off) + who

/-- A register read: the `_LO` half of an RO pair latches the `_HI` half for its requester, whose next read of that half
returns it (02 R38). Latched halves are kept one higher, so that none is 0. -/
def State.readReg (s : State) (who : Nat) (p : PageRef) (off : Nat) : State × Nat :=
  match pageAt p with
  | none => (s, 0)
  | some (t, _) =>
    if (roPairs t).contains off then
      ({ s with latched := mapSet 0 s.latched (pairKey p (off + 4) who) (s.regWord who p (off + 4) + 1) },
        s.regWord who p off)
    else
      let k := pairKey p off who
      let h := mapGet 0 s.latched k
      if 4 ≤ off ∧ (roPairs t).contains (off - 4) ∧ h ≠ 0 then ({ s with latched := mapSet 0 s.latched k 0 }, h - 1)
      else (s, s.regWord who p off)

/-- Whether a register is the `_LO` half of an RO pair. -/
def isRoLo (p : PageRef) (off : Nat) : Bool :=
  match pageAt p with
  | some (t, _) => (roPairs t).contains off
  | none => false

/-- A read of the `_LO` half of an RO pair; of another address it latches nothing. -/
def State.pairLoRead (s : State) (who a : Nat) : State :=
  if s.regStatus a = stOk && isRoLo (pageOf a) (offOf a) then (s.readReg who (pageOf a) (offOf a)).1 else s

/-! ## Writes -/

/-- A field written according to its access type alone: RW and RWL (02 R34, R35). -/
def State.writeField (s : State) (p : PageRef) (f : Field) (v : Nat) : State :=
  match f.acc with
  | .rw => s.put p f (bits v f.hi f.lo)
  | .rwl => s.putRwl p f (bits v f.hi f.lo)
  | _ => s

/-- Every field of the register at an offset written so. -/
def State.writeFields (s : State) (p : PageRef) (t : PType) (off v : Nat) : State :=
  (fieldsAt t off).foldl (fun s f => s.writeField p f v) s

/-- The same of a register that is held fast. -/
def State.heldFields (s : State) (p : PageRef) (t : PType) (off v : Nat) : State :=
  (fieldsAt t off).foldl (fun s f => s.heldField p f (bits v f.hi f.lo)) s

/-- `PAGE_CTRL.EN` written (02 R41, R50, 06 R185, 11 R323, 12 R356). -/
def State.writeEn (s : State) (p : PageRef) (t : PType) (i : Nat) (on : Bool) : State :=
  if t = .tmap ∨ s.flag p PAGE_CAPS.LIC_OFF then s
  else match t with
    | .subw => if on then s.winEnable i else s.winDisable i
    | .fprt => if on = s.flag p PAGE_CTRL.EN then s else if on then s.portOn i else s.portOff i
    | .hprt => if on = s.flag p PAGE_CTRL.EN then s else if on then s.portOn (12 + i) else s.portOff (12 + i)
    | .emc => if on then s.emcEnabled i else s.putFlag p PAGE_CTRL.EN false
    | _ => s.putFlag p PAGE_CTRL.EN on

/-- The lock written: 1 locks; a write of 0 while it is 1 is ignored and sets `LOCK_HIT` (02 R35, R42). -/
def State.writeLock (s : State) (p : PageRef) (v : Bool) : State :=
  if s.flag p PAGE_CTRL.LOCK then (if v then s else s.putFlag p PAGE_STAT.LOCK_HIT true) else s.putFlag p PAGE_CTRL.LOCK v

/-- `PAGE_ERR_ACK` (02 R39, R47). -/
def State.ackC (s : State) (p : PageRef) : State := s.put p PAGE_ERR_CNT_C.COUNT 0
def State.ackU (s : State) (p : PageRef) : State := s.put p PAGE_ERR_CNT_U.COUNT 0

/-- Actions of one write are taken from bit 0 up (assumption log 26). -/
def State.when (s : State) (v b : Nat) (f : State → State) : State := if bit v b then f s else s

/-- A header register written (02 R39, R40, R42, R43, R47, 14 R395, R396). DESIGN CHOICE (assumption log 26): one write of
`PAGE_CTRL` first locks, then sets `EN`, then resets, so that the reset meets the lock that the same write has set. -/
def State.writeHeader (s : State) (p : PageRef) (t : PType) (i off v : Nat) : State :=
  if off = 0x00C then
    ((s.writeLock p (bit v 31)).writeEn p t i (bit v 0)).when v 1 (fun s => s.softReset p)
  else if off = 0x010 then s.when v 5 (fun s => s.putFlag p PAGE_STAT.LOCK_HIT false)
  else if off = 0x024 then
    ((s.when v 0 (fun s => s.ackFirst p)).when v 1 (fun s => s.ackC p)).when v 2 (fun s => s.ackU p)
  else if off = 0x028 then s.writeReq p (v % 4)
  else if off = 0x02C then s.writeLattol p v
  else s

/-- The registers that a block's state holds fast: pool and table registers while `ON` is 1 (08 R232, 09 R264), a window's
configuration while it is enabled or busy (12 R356). -/
def State.writeHeld (s : State) (t : PType) (i off : Nat) : Bool :=
  match t with
  | .rope => 0x048 ≤ off && off < 0x060 && s.ropesOn
  | .cairn => 0x048 ≤ off && off < 0x050 && s.flag pgCairn CAIRN_CFG.ON
  | .subw => 0x040 ≤ off && off < 0x054 && !s.winWritable i
  | .bnet => i != 0 && 0x050 ≤ off
  | .bdie => i != 0 || (off == 0x040 && s.flag (pgBdie 0) BDIE_PMB_STAT.BUSY)
  | .pwr => off == 0x064 && (i == 1 || i == 2)
  | .clk => i != 0
  | _ => false

/-- CRC-8 of SMBus packet error checking, polynomial x^8 + x^2 + x + 1 (PRESUMED, assumption log 27). -/
def pecOf (l : List Byte) : Byte :=
  l.foldl (fun r b => (List.range 8).foldl (fun (c : Byte) _ => if c.getMsbD 0 then (c <<< 1) ^^^ 0x07#8 else c <<< 1)
    (r ^^^ b)) 0

/-- What the controller sends for a transaction (18 R480): address and command, then the data to write, or the address for
reading; with PEC after what it writes. -/
def pmbFrame (v data : Nat) : List Byte :=
  let kind := bits v 18 16
  let addr (r : Nat) : Byte := BitVec.ofNat 8 (2 * (v % 128) + r)
  let head := [addr 0, BitVec.ofNat 8 (v / 256)]
  let w := head ++ (if kind = 3 then leBytes 1 data else if kind = 4 then leBytes 2 data else [])
  if kind = 1 ∨ kind = 2 then head ++ [addr 1] else if bit v 19 then w ++ [pecOf w] else w

/-- `BDIE_PMB_CTRL.GO` (18 R480): a reserved `KIND` ends at once with status 4. -/
def State.pmbStart (s : State) (v : Nat) : State :=
  let p := pgBdie 0
  if 5 ≤ bits v 18 16 then s.put p BDIE_PMB_STAT.LAST 4
  else
    ({ s with board := { s.board with pmb := some (v % 2 ^ 20) } }.putFlag p BDIE_PMB_STAT.BUSY true).emit
      (.pmb (pmbFrame v (s.get p BDIE_PMB_DATA.DATA)))

/-- One flash command by its bit, where exactly one is set (17 R455). -/
def State.flashWrite (s : State) (v : Nat) : State :=
  match v % 16 with
  | 1 => s.flashStart flErase
  | 2 => s.flashStart flProgram
  | 4 => s.flashStart flCheck
  | 8 => s.flashStart flRead
  | _ => s

/-- `TILE_CTL` and `TILE_ERR_CTL` written (04 R105, 13 R382, R388): START acts outside RUN 1, HALT in it. -/
def State.tileCtl (s : State) (t v : Nat) : State :=
  if s.tileRun t = runRunning then s.when v 1 (fun s => s.tileHalt t) else s.when v 0 (fun s => s.tileStart t)

def State.tileErrCtl (s : State) (t v : Nat) : State :=
  (s.when v 0 (fun s => s.tileFence t .host)).when v 1 (fun s => s.tileErrClr t)

/-- A block-specific register of a page written, pairs apart: the registers whose writes do more than set their fields, then
all others (02 R34). -/
def State.writeBlock (s : State) (who : Nat) (p : PageRef) (t : PType) (i off v : Nat) : State :=
  let plain := s.writeFields p t off v
  match t with
  | .tile => if off = 0x040 then s.tileCtl i v else if off = 0x06C then s.tileErrCtl i v else plain
  | .arb => if off = 0x088 then (s.when v 0 (fun s => s.calLoad i)).when v 1 (fun s => s.calSwitch i) else plain
  | .cdie =>
    if off = 0x040 then (s.when v 0 (fun s => s.prstBegin i)).when v 1 (fun s => s.prstFree i)
    else if off = 0x080 then plain.setStride i (s.get p CDIE_THROT_STAT.DEV_STRIDE)
    else plain
  | .nmem =>
    if off = 0x040 then plain.refreshRate (i / 4) (i % 4)
    else if off = 0x044 then
      (s.when v 0 (fun s => s.clrScrub (i / 4) (i % 4))).when v 1 (fun s => s.clrLate (i / 4) (i % 4))
    else plain
  | .sumt => if 0x040 ≤ off ∧ off < 0x090 then s.summitMode i ((off - 0x040) / 4) v else plain
  | .echk =>
    if off = 0x040 then
      (s.when v 0 (fun s => s.checkStart (i / 32) (i % 32))).when v 1 (fun s => s.checkStop (i / 32) (i % 32))
    else plain
  | .seam => if off = 0x040 then s.seamRetrains i (v % 16) else plain
  | .bnet => if off = 0x058 then s.when v 0 State.groupLoad else plain
  | .rope =>
    if off = 0x040 then s.writeRopeCfg v
    else if off = 0x068 then s.ropeSelect who (v % 4096)
    else if 0x100 ≤ off ∧ off < 0x180 then
      (if off % 8 = 0 then s.writeLayTag ((off - 0x100) / 8) v else s.writeLayout ((off - 0x100) / 8) v)
    else plain
  | .cairn => if off = 0x040 then s.writeCairnCfg v else plain
  | .fprt =>
    if off = 0x044 then (s.when v 0 (fun s => s.retrainPort i)).when v 1 (fun s => s.clearPortCounters i)
    else if off = 0x050 then s.writeRing i false v
    else if off = 0x054 then s.writeRing i true v
    else plain
  | .hprt =>
    if off = 0x044 then
      (s.when v 0 (fun s => s.retrainPort (12 + i))).when v 1 (fun s => s.clearPortCounters (12 + i))
    else plain
  | .subw => if off = 0x05C then s.cqHead i (v % 65536) else plain
  | .dma => if off = 0x044 then (s.when v 0 (fun s => s.dmaResume i)).when v 1 (fun s => s.dmaFlush i) else plain
  | .mgmt =>
    if off = 0x048 then s.logTail (v % 65536)
    else if off = 0x050 then s.logSelect who (v % 65536)
    else if off = 0x060 then
      (s.when v 0 (fun s => s.put pgMgmt MGMT_LOG_LOST.COUNT 0)).when v 1 (fun s => s.put pgMgmt MGMT_TAINT_DROP.COUNT 0)
    else plain
  | .thrm =>
    if off = 0x040 then (if plain.modelOn then plain else plain.fallBack)
    else if off = 0x044 then (if 2000 ≤ v % 65536 ∧ v % 65536 ≤ 15000 then plain else s)
    else if off = 0x060 then s.when v 0 State.clearFault
    else plain
  | .clk => if off = 0x048 then s.when v 0 State.snap else plain
  | .boot =>
    if off = 0x044 then
      ((s.when v 0 State.acceptHold).when v 1 State.reload).when v 2 State.pkgResetWrite
    else plain
  | .flsh => if off = 0x050 then s.flashWrite v else plain
  | .idnt => if off = 0x050 then s.when v 0 State.attStart else plain
  | .bdie => if off = 0x040 then plain.when v 31 (fun s => s.pmbStart v) else plain
  | _ => plain

/-- A register write of a requester to an offset of a page that answers: `_LO` halves are staged, and both halves of a pair
take effect together (02 R37); writes to hidden blocks do nothing (02 R44, R50). -/
def State.writeReg (s : State) (who : Nat) (p : PageRef) (off v : Nat) : State :=
  match pageAt p with
  | none => s
  | some (t, i) =>
    if off < 0x40 then s.writeHeader p t i off v
    else if s.blockHidden p t i then s
    else if (rwPairs t).contains off ∧ !(t = .bnet ∧ i ≠ 0) then
      { s with staged := mapSet 0 s.staged (pairKey p off who) (v + 1) }
    else if (rwPairs t).contains (off - 4) then
      let k := pairKey p (off - 4) who
      let lo := mapGet 0 s.staged k
      let s1 := { s with staged := mapSet 0 s.staged k 0 }
      let write (s : State) (o v : Nat) : State :=
        if s1.writeHeld t i off then s.heldFields p t o v else s.writeFields p t o v
      write (if lo = 0 then s1 else write s1 (off - 4) (lo - 1)) off v
    else if s.writeHeld t i off then s.heldFields p t off v
    else s.writeBlock who p t i off v

/-! ## What waits for a domain (14 R397), and soft resets that wait (14 R403) -/

/-- A host request served (12 R348, 02 R28): refused, a register access at once, or begun as an access to memory; `bad` is what
its form was judged as when it came. A write of `SRST` to a host port's page completes before it acts (12 R489). -/
def State.hostTry (s : State) (i : Nat) (q : HostHead) (data : List (List Byte)) (bad : Bool) : State :=
  let a := q.addr.toNat
  let p := pageOf a
  let who := i - 12
  let done (s : State) : State := s.complete i q stOk false 0 0 0 []
  if bad then s.refuseHost i q stBadSize
  else if q.ht = 1 ∨ q.ht = 2 then s.hostAccess i q data
  else
    let st := s.regStatus a
    if st ≠ stOk then s.refuseHost i q st
    else if q.ht = 3 then
      let r := s.readReg who p (offOf a)
      r.1.complete i q stOk false 0 0 r.2 []
    else if 0x40 ≤ offOf a ∧ s.flag p PAGE_STAT.SRST_BUSY then s.refuseHost i q stDestDown
    else
      let v := q.rdata.toNat
      let port := p = pgHprt 0 ∨ p = pgHprt 1
      if port ∧ offOf a = 0x00C ∧ bit v 1 then (done s).writeReg who p (offOf a) v
      else done (s.writeReg who p (offOf a) v)

/-- Whether a request must wait behind an earlier one of its port (12 R352): with `ORD` behind each, and else behind one of
an overlapping range, which may outlast its completion as LOST. -/
def State.hostBehind (s : State) (i : Nat) (q : HostHead) : Bool :=
  let ord := q.flags.getLsbD 0
  let meets (a n : Nat) : Bool := rangesMeet a n q.addr.toNat (hostLen q)
  s.bridge.hostReqs.any (fun r => r.port == i && (ord || meets r.head.addr.toNat (hostLen r.head)))
    || s.bridge.accs.any (fun x => x.who == i - 12 && ((ord && x.use != .nobody) || meets x.addr x.len))

/-- A host request, served or left waiting behind others. -/
def State.hostServe (s : State) (i : Nat) (q : HostHead) (data : List (List Byte)) (bad : Bool) : State :=
  if s.hostBehind i q then
    let r : HostReq := { port := i, head := q, data := data, bad := bad }
    { s with bridge := { s.bridge with hostReqs := s.bridge.hostReqs ++ [r] } }
  else s.hostTry i q data bad

/-- What the host has sent as it arrives: a completion (12 R353), or a request, whose form is judged now (12 R488). -/
def State.hostArrives (s : State) (i : Nat) (q : HostHead) (data : List (List Byte)) : State :=
  if q.ht = 0x13 then s.hostCompletion i q data else s.hostServe i q data (s.hostBad i q data)

/-- The requests that wait, in order of arrival, taken up again. -/
def State.settleHost (s : State) : State :=
  s.bridge.hostReqs.foldl (fun s r => s.hostServe r.port r.head r.data r.bad)
    { s with bridge := { s.bridge with hostReqs := [] } }

/-- Everything that can go on without a slot of a calendar: what waited for a domain (14 R397), accesses whose last sector
has moved and what follows from their end, host requests behind them (12 R352), attention (10) and ACCEPT (10 R314). -/
def State.settle (s : State) : State :=
  s.settleParked.settleXfers.settleAccs.settleAccs.settleHost.settleAccs.attnSettle.acceptsEnd

/-- After anything that may have ended a power transition, or refused what waited for one. -/
def State.afterPower (s : State) : State := s.settleSoft.settle

/-- A register write by its address; nothing where no register answers. -/
def State.regWrite (s : State) (who a v : Nat) : State :=
  if s.regStatus a ≠ stOk then s else s.writeReg who (pageOf a) (offOf a) v

/-! ## The meanings of the commands -/

/-- `REGISTER_WRITE` (02 R34 to R37). -/
def execRegisterWrite (r : Requester) (a : Addr) (v : Word) (s : State) : Host.Outcome State Fault Refusal :=
  .next (s.regWrite (requesterNumber r) a.toNat v.toNat).afterPower

/-- `PAIR_LO_READ` (02 R38). -/
def execPairLoRead (r : Requester) (a : Addr) (s : State) : Host.Outcome State Fault Refusal :=
  .next (s.pairLoRead (requesterNumber r) a.toNat)

/-- `PAGE_LOCK` (02 R42). -/
def execPageLock (p : PageRef) (s : State) : Host.Outcome State Fault Refusal :=
  .next (if s.pageStatus p = stOk then s.writeLock p true else s)

/-- `ERR_ACK_FIRST` (02 R47). -/
def execErrAckFirst (p : PageRef) (s : State) : Host.Outcome State Fault Refusal :=
  .next (if s.pageStatus p = stOk then s.ackFirst p else s)

/-- `ERR_ACK_CLR_C` (02 R39). -/
def execErrAckClrC (p : PageRef) (s : State) : Host.Outcome State Fault Refusal :=
  .next (if s.pageStatus p = stOk then s.ackC p else s)

/-- `ERR_ACK_CLR_U` (02 R39). -/
def execErrAckClrU (p : PageRef) (s : State) : Host.Outcome State Fault Refusal :=
  .next (if s.pageStatus p = stOk then s.ackU p else s)

/-- `ROPE_SEL_WRITE` (08 R240). -/
def execRopeSelWrite (r : Requester) (v : Word) (s : State) : Host.Outcome State Fault Refusal :=
  .next (s.ropeSelect (requesterNumber r) (v.toNat % 4096))

/-- `HOST_MEMORY_READ` (12 R350). -/
def execHostMemoryRead (h : HPort) (q : HostHead) (s : State) : Host.Outcome State Fault Refusal :=
  .next (s.hostArrives (12 + h) q []).afterPower

/-- `HOST_MEMORY_WRITE` (12 R351). -/
def execHostMemoryWrite (h : HPort) (q : HostHead) (data : List (List Byte)) (s : State) :
    Host.Outcome State Fault Refusal :=
  if (Instr.hostMemoryWrite h q data).wellFormed then .next (s.hostArrives (12 + h) q data).afterPower
  else .fault .illFormed

/-- `HOST_REGISTER_READ` (02 R28). -/
def execHostRegisterRead (h : HPort) (q : HostHead) (s : State) : Host.Outcome State Fault Refusal :=
  .next (s.hostArrives (12 + h) q []).afterPower

/-- `HOST_REGISTER_WRITE` (02 R28). -/
def execHostRegisterWrite (h : HPort) (q : HostHead) (s : State) : Host.Outcome State Fault Refusal :=
  .next (s.hostArrives (12 + h) q []).afterPower

/-- `HOST_COMPLETION_RECEIVE` (12 R348). -/
def execHostCompletionReceive (h : HPort) (q : HostReply) (s : State) : Host.Outcome State Fault Refusal :=
  if (Instr.hostCompletionReceive h q).wellFormed then .next (s.hostArrives (12 + h) q.head q.data).afterPower
  else .fault .illFormed

/-- `HOST_REQUEST_TIMEOUT` (12 R353): requests that were behind it may then start. -/
def execHostRequestTimeout (h : HPort) (tag : Word) (s : State) : Host.Outcome State Fault Refusal :=
  .next (s.hostTimeout (12 + h) tag.toNat).afterPower

/-- The answers of the host that come with a descriptor, in order, each as HOST_COMPLETION_RECEIVE takes it on the channel's
port. -/
def State.dmaReplies (s : State) (d : Nat) (l : List HostReply) : State :=
  l.foldl (fun s q => (s.hostArrives (s.dmaPort d) q.head q.data).afterPower) s

/-- `DMA_DESCRIPTOR` (12 R362 to R365). -/
def execDmaDescriptor (d : Chan) (replies : List HostReply) (s : State) : Host.Outcome State Fault Refusal :=
  if (Instr.dmaDescriptor d replies).wellFormed then .next ((s.dmaDescriptor d).settle.dmaReplies d replies)
  else .fault .illFormed

/-- `CALENDAR_SLOT` (04 R108, R115); it uses the copies that B0 holds (13 R385). -/
def execCalendarSlot (res : ResId) (s : State) : Host.Outcome State Fault Refusal :=
  .next ((s.meetCopies (fun _ => true)).calendarSlot res.toNat).settle

/-- `CAL_RESOURCE_SWITCH` (04 R112). -/
def execCalResourceSwitch (res : ResId) (s : State) : Host.Outcome State Fault Refusal :=
  .next (s.resSwitch res.toNat).settle

/-- `PRST_REQ` (07 R214). -/
def execPrstReq (n : Die) (s : State) : Host.Outcome State Fault Refusal := .next (s.prstBegin n).afterPower

/-- `PRST_DRAIN_END` (07 R214). -/
def execPrstDrainEnd (n : Die) (s : State) : Host.Outcome State Fault Refusal := .next (s.prstDrained n).afterPower

/-- `WAKE_COMPARATOR_TRIP` (14 R400). -/
def execWakeComparatorTrip (b : Base) (line : Fin 10) (s : State) : Host.Outcome State Fault Refusal :=
  .next (s.wakeTrip b line).afterPower

/-- `DOMAIN_EXIT_COMPLETE` (14 R392). -/
def execDomainExitComplete (d : Domain) (s : State) : Host.Outcome State Fault Refusal :=
  .next (s.domainExited d).afterPower

/-- `DOMAIN_ENTRY_COMPLETE` (14 R392). -/
def execDomainEntryComplete (d : Domain) (s : State) : Host.Outcome State Fault Refusal :=
  .next (s.domainEntered d).afterPower

/-- `PWR_REQ_HOLD_ON` (14 R395). -/
def execPwrReqHoldOn (p : PageRef) (s : State) : Host.Outcome State Fault Refusal :=
  .next (s.writeReq p 1).afterPower

/-- `PWR_REQ_OFF` (14 R395). -/
def execPwrReqOff (p : PageRef) (s : State) : Host.Outcome State Fault Refusal := .next (s.writeReq p 2).afterPower

/-- `PWR_REQ_AUTO` (14 R395). -/
def execPwrReqAuto (p : PageRef) (s : State) : Host.Outcome State Fault Refusal := .next (s.writeReq p 0).afterPower

/-- `LATTOL_WRITE` (14 R396). -/
def execLattolWrite (p : PageRef) (v : Word) (s : State) : Host.Outcome State Fault Refusal :=
  .next (s.writeLattol p v.toNat).afterPower

/-- `SHUTDOWN_COMPLETE` (15 R418). -/
def execShutdownComplete (s : State) : Host.Outcome State Fault Refusal := .next s.shutdownEnd.afterPower

end Sys2Proof.Machine
end

