-- ==== Sys2Proof/Machine/Board.lean ====
section
/-! DEFINITION. The board side (18): the SMBus target (R477, R479), the PMBus controller (R480) and the test access port
(R481). -/

namespace Sys2Proof.Machine

/-! ## SMBus (18 R479) -/

/-- The page of slot 0x00 and the offset that OFF names. -/
def smbPage (off : Nat) : PageRef := mkPage 0 (off / 4096)

/-- The status of an access: BAD_SIZE, or NO_TARGET for what is no register of slot 0x00 or not reachable yet. Before PLL M
locks only the BOOT page answers. -/
def State.smbCheck (s : State) (off : Nat) : Nat :=
  if off % 4 ≠ 0 then stBadSize
  else if 2 ^ 22 ≤ off ∨ s.pageStatus (smbPage off) ≠ stOk then stNoTarget
  else if !bit (s.get (pgClk 0) CLK_STAT.LOCK) 3 && smbPage off != pgBoot then stNoTarget
  else stOk

/-- The number of the bring-up logic among the requesters, as which the target acts. -/
def smbWho : Nat := requesterNumber .bringup

/-- Command 0x10: status and value; a value that no register gives is free. Without a good PEC nothing is done. -/
def State.smbRead (s : State) (off : Nat) (pec : Bool) : State :=
  if !pec then s
  else
    let st := s.smbCheck off
    if st ≠ stOk then
      let f := s.free
      f.2.emit (.smb (leBytes 1 st ++ leBytes 4 f.1.toNat))
    else
      let r := s.readReg smbWho (smbPage off) (off % 4096)
      r.1.emit (.smb (leBytes 1 stOk ++ leBytes 4 r.2))

/-- Command 0x11: the status is kept for command 0x12. -/
def State.smbWrite (s : State) (off v : Nat) (pec : Bool) : State :=
  if !pec then s
  else
    let st := s.smbCheck off
    let s1 := if st = stOk then (s.writeReg smbWho (smbPage off) (off % 4096) v).afterPower else s
    { s1 with board := { s1.board with smbStatus := st } }

/-- Command 0x12. -/
def State.smbStatusOut (s : State) (pec : Bool) : State :=
  if pec then s.emit (.smb (leBytes 1 s.board.smbStatus)) else s

/-! ## PMBus (18 R480) -/

/-- Whether a transaction reads. -/
def pmbReads (v : Nat) : Bool := bits v 18 16 == 1 || bits v 18 16 == 2

/-- `LAST` at the end of a transaction; a bad PEC is found only by a read that checks it. -/
def pmbStatus (v : Nat) : PmbEnd → Nat
  | .good => 0
  | .nack => 1
  | .stuck => 2
  | .badPec => if pmbReads v && bit v 19 then 3 else 0

/-- The end of a transaction: data that was read stands in `BDIE_PMB_DATA`. -/
def State.pmbEnd (s : State) (r : PmbEnd) (data : Nat) : State :=
  match s.board.pmb with
  | none => s
  | some v =>
    let p := pgBdie 0
    let st := pmbStatus v r
    let s1 := ({ s with board := { s.board with pmb := none } }.putFlag p BDIE_PMB_STAT.BUSY false).put p
      BDIE_PMB_STAT.LAST st
    if pmbReads v && (st == 0 || st == 3) then
      s1.put p BDIE_PMB_DATA.DATA (if bits v 18 16 = 1 then data % 256 else data)
    else s1

/-! ## JTAG (18 R481) -/

/-- The instructions of the port. -/
def tapIdcode : Nat := 0
def tapBypass : Nat := 1
def tapSample : Nat := 2
def tapExtest : Nat := 3
def tapClamp : Nat := 4
def tapHighz : Nat := 5

def idcode : Nat := 0x07240A1D

/-- What the boundary-scan chain drives, and the outputs in high impedance, in the record of outputs (assumption log 28). -/
def pinChain : Nat := 2
def pinHighZ : Nat := 3

def State.setTap (s : State) (k : Nat) : State := { s with board := { s.board with tap := k } }

/-! ## The meanings of the commands -/

/-- `SMB_REGISTER_READ` (18 R479). -/
def execSmbRegisterRead (off : BitVec 24) (pec : Bool) (s : State) : Host.Outcome State Fault Refusal :=
  .next (s.smbRead off.toNat pec)

/-- `SMB_REGISTER_WRITE` (18 R479). -/
def execSmbRegisterWrite (off : BitVec 24) (v : Word) (pec : Bool) (s : State) : Host.Outcome State Fault Refusal :=
  .next (s.smbWrite off.toNat v.toNat pec)

/-- `SMB_STATUS_READ` (18 R479). -/
def execSmbStatusRead (pec : Bool) (s : State) : Host.Outcome State Fault Refusal := .next (s.smbStatusOut pec)

/-- `SMB_CLOCK_TIMEOUT` (18 R477): the interface resets; transactions are whole in this model, so none is under way. -/
def execSmbClockTimeout (s : State) : Host.Outcome State Fault Refusal := .next s

/-- `PMB_GO` (18 R480): `BDIE_PMB_CTRL` of B0 written with `GO` 1. -/
def execPmbGo (v : Word) (s : State) : Host.Outcome State Fault Refusal :=
  .next (s.writeReg smbWho (pgBdie 0) 0x040 (v.toNat % 2 ^ 31 + 2 ^ 31))

/-- `PMB_DONE` (18 R480). -/
def execPmbDone (r : PmbEnd) (data : BitVec 16) (s : State) : Host.Outcome State Fault Refusal :=
  .next (s.pmbEnd r data.toNat)

/-- `BYPASS` (18 R481). -/
def execJtagBypass (s : State) : Host.Outcome State Fault Refusal := .next (s.setTap tapBypass)

/-- `IDCODE` (18 R481). -/
def execJtagIdcode (s : State) : Host.Outcome State Fault Refusal :=
  .next ((s.setTap tapIdcode).emit (.tdo 32 idcode))

/-- `SAMPLE_PRELOAD` (18 R481): the levels of the pins shift out as the preload shifts in. -/
def execJtagSamplePreload (pins preload : BitVec 64) (s : State) : Host.Outcome State Fault Refusal :=
  let s1 := s.setTap tapSample
  .next ({ s1 with board := { s1.board with scan := preload } }.emit (.tdo 64 pins.toNat))

/-- `EXTEST` (18 R481). -/
def execJtagExtest (s : State) : Host.Outcome State Fault Refusal :=
  .next ((s.setTap tapExtest).emit (.pin pinChain s.board.scan.toNat))

/-- `CLAMP` (18 R481). -/
def execJtagClamp (s : State) : Host.Outcome State Fault Refusal :=
  .next ((s.setTap tapClamp).emit (.pin pinChain s.board.scan.toNat))

/-- `HIGHZ` (18 R481). -/
def execJtagHighz (s : State) : Host.Outcome State Fault Refusal :=
  .next ((s.setTap tapHighz).emit (.pin pinHighZ 1))

/-- `TRST_N_ASSERT` (18 R481): Test-Logic-Reset selects IDCODE, as IEEE 1149.1 has it. -/
def execTrstNAssert (s : State) : Host.Outcome State Fault Refusal := .next (s.setTap tapIdcode)

end Sys2Proof.Machine
end

