-- ==== Sys2Proof/Machine/Dispatch.lean ====
section
/-! DEFINITION. The dispatch: one arm per command, each one direct call of that command's meaning. -/

namespace Sys2Proof.Machine

def exec (i : Instr) (s : State) : Host.Outcome State Fault Refusal :=
  match i with
  | .registerWrite r a v => Sys2Proof.Machine.execRegisterWrite r a v s
  | .pairLoRead r a => Sys2Proof.Machine.execPairLoRead r a s
  | .pageLock p => Sys2Proof.Machine.execPageLock p s
  | .softReset p => Sys2Proof.Machine.execSoftReset p s
  | .softResetDone p => Sys2Proof.Machine.execSoftResetDone p s
  | .errAckFirst p => Sys2Proof.Machine.execErrAckFirst p s
  | .errAckClrC p => Sys2Proof.Machine.execErrAckClrC p s
  | .errAckClrU p => Sys2Proof.Machine.execErrAckClrU p s
  | .dieLogFlush slot => Sys2Proof.Machine.execDieLogFlush slot s
  | .bundleIssue t => Sys2Proof.Machine.execBundleIssue t s
  | .scalarInstruction t => Sys2Proof.Machine.execScalarInstruction t s
  | .mret t => Sys2Proof.Machine.execMret t s
  | .bndl t rd rs1 imm => Sys2Proof.Machine.execBndl t rd rs1 imm s
  | .sclr t rd rs1 imm => Sys2Proof.Machine.execSclr t rd rs1 imm s
  | .fenceT t imm => Sys2Proof.Machine.execFenceT t imm s
  | .fenceTRelease t => Sys2Proof.Machine.execFenceTRelease t s
  | .vld t o => Sys2Proof.Machine.execVld t o s
  | .vst t o => Sys2Proof.Machine.execVst t o s
  | .nmrd t o => Sys2Proof.Machine.execNmrd t o s
  | .nmwr t o => Sys2Proof.Machine.execNmwr t o s
  | .xrd t o => Sys2Proof.Machine.execXrd t o s
  | .xwr t o => Sys2Proof.Machine.execXwr t o s
  | .nsnd t o => Sys2Proof.Machine.execNsnd t o s
  | .rowc t o => Sys2Proof.Machine.execRowc t o s
  | .transferComplete t k => Sys2Proof.Machine.execTransferComplete t k s
  | .transferLost t k => Sys2Proof.Machine.execTransferLost t k s
  | .amac t o => Sys2Proof.Machine.execAmac t o s
  | .adist t o => Sys2Proof.Machine.execAdist t o s
  | .apld t o => Sys2Proof.Machine.execApld t o s
  | .apldComplete t plane => Sys2Proof.Machine.execApldComplete t plane s
  | .awarm t => Sys2Proof.Machine.execAwarm t s
  | .acool t => Sys2Proof.Machine.execAcool t s
  | .rampStep t => Sys2Proof.Machine.execRampStep t s
  | .arrayIdleTimeout t => Sys2Proof.Machine.execArrayIdleTimeout t s
  | .arrayResultWrite t => Sys2Proof.Machine.execArrayResultWrite t s
  | .vadd t o => Sys2Proof.Machine.execVadd t o s
  | .vsub t o => Sys2Proof.Machine.execVsub t o s
  | .vmul t o => Sys2Proof.Machine.execVmul t o s
  | .vfma t o => Sys2Proof.Machine.execVfma t o s
  | .vmin t o => Sys2Proof.Machine.execVmin t o s
  | .vmax t o => Sys2Proof.Machine.execVmax t o s
  | .vabs t o => Sys2Proof.Machine.execVabs t o s
  | .vneg t o => Sys2Proof.Machine.execVneg t o s
  | .vcmpEq t o => Sys2Proof.Machine.execVcmpEq t o s
  | .vcmpLt t o => Sys2Proof.Machine.execVcmpLt t o s
  | .vcmpLe t o => Sys2Proof.Machine.execVcmpLe t o s
  | .vsel t o => Sys2Proof.Machine.execVsel t o s
  | .vexp2 t o => Sys2Proof.Machine.execVexp2 t o s
  | .vexp t o => Sys2Proof.Machine.execVexp t o s
  | .vrcp t o => Sys2Proof.Machine.execVrcp t o s
  | .vrsqrt t o => Sys2Proof.Machine.execVrsqrt t o s
  | .vrsum t o => Sys2Proof.Machine.execVrsum t o s
  | .vrmax t o => Sys2Proof.Machine.execVrmax t o s
  | .vacc t o => Sys2Proof.Machine.execVacc t o s
  | .vtoa t o => Sys2Proof.Machine.execVtoa t o s
  | .vcvt t o => Sys2Proof.Machine.execVcvt t o s
  | .vcvtInt32 t o => Sys2Proof.Machine.execVcvtInt32 t o s
  | .vqmx t o => Sys2Proof.Machine.execVqmx t o s
  | .tkclr t o => Sys2Proof.Machine.execTkclr t o s
  | .tkins t o => Sys2Proof.Machine.execTkins t o s
  | .tkmrg t o => Sys2Proof.Machine.execTkmrg t o s
  | .tkrd t o => Sys2Proof.Machine.execTkrd t o s
  | .tkswap t o => Sys2Proof.Machine.execTkswap t o s
  | .tileStart t => Sys2Proof.Machine.execTileStart t s
  | .tileHalt t => Sys2Proof.Machine.execTileHalt t s
  | .tileHaltDone t => Sys2Proof.Machine.execTileHaltDone t s
  | .tileSoftReset t => Sys2Proof.Machine.execTileSoftReset t s
  | .calendarSlot res => Sys2Proof.Machine.execCalendarSlot res s
  | .arbCalLoad a => Sys2Proof.Machine.execArbCalLoad a s
  | .arbCalLoadDone a => Sys2Proof.Machine.execArbCalLoadDone a s
  | .arbCalSwitch a => Sys2Proof.Machine.execArbCalSwitch a s
  | .calResourceSwitch res => Sys2Proof.Machine.execCalResourceSwitch res s
  | .refreshDebtTick n k g m => Sys2Proof.Machine.execRefreshDebtTick n k g m s
  | .nmemClrLate n m => Sys2Proof.Machine.execNmemClrLate n m s
  | .nmemClrScrub n m => Sys2Proof.Machine.execNmemClrScrub n m s
  | .rowCopy c => Sys2Proof.Machine.execRowCopy c s
  | .rowFill c => Sys2Proof.Machine.execRowFill c s
  | .rowAnd c => Sys2Proof.Machine.execRowAnd c s
  | .rowOr c => Sys2Proof.Machine.execRowOr c s
  | .rowXor c => Sys2Proof.Machine.execRowXor c s
  | .rowNot c => Sys2Proof.Machine.execRowNot c s
  | .rowStep e => Sys2Proof.Machine.execRowStep e s
  | .nmemSoftReset n m => Sys2Proof.Machine.execNmemSoftReset n m s
  | .erowSoftReset k => Sys2Proof.Machine.execErowSoftReset k s
  | .bankSetVisit k c => Sys2Proof.Machine.execBankSetVisit k c s
  | .edgeRowClose k c x bank => Sys2Proof.Machine.execEdgeRowClose k c x bank s
  | .sumtModeWrite b r v => Sys2Proof.Machine.execSumtModeWrite b r v s
  | .sumtModeDone b r => Sys2Proof.Machine.execSumtModeDone b r s
  | .emcEnable k => Sys2Proof.Machine.execEmcEnable k s
  | .echkStart k c => Sys2Proof.Machine.execEchkStart k c s
  | .echkStop k c => Sys2Proof.Machine.execEchkStop k c s
  | .echkDone k c => Sys2Proof.Machine.execEchkDone k c s
  | .flitHeadRoute r head body => Sys2Proof.Machine.execFlitHeadRoute r head body s
  | .nsndDeliver t k => Sys2Proof.Machine.execNsndDeliver t k s
  | .d2dFrameReceive l frame => Sys2Proof.Machine.execD2dFrameReceive l frame s
  | .d2dNakReceive l ack => Sys2Proof.Machine.execD2dNakReceive l ack s
  | .d2dNakRepeat l => Sys2Proof.Machine.execD2dNakRepeat l s
  | .seamRetrain k mask => Sys2Proof.Machine.execSeamRetrain k mask s
  | .trainingFrameReceive k l => Sys2Proof.Machine.execTrainingFrameReceive k l s
  | .seamProposalsKnown k l p0 p1 => Sys2Proof.Machine.execSeamProposalsKnown k l p0 p1 s
  | .seamTestDone k l => Sys2Proof.Machine.execSeamTestDone k l s
  | .seamAttemptTimeout k l => Sys2Proof.Machine.execSeamAttemptTimeout k l s
  | .routeTableRewrite b => Sys2Proof.Machine.execRouteTableRewrite b s
  | .stallDrop b => Sys2Proof.Machine.execStallDrop b s
  | .prstReq n => Sys2Proof.Machine.execPrstReq n s
  | .prstDrainEnd n => Sys2Proof.Machine.execPrstDrainEnd n s
  | .prstRelease n => Sys2Proof.Machine.execPrstRelease n s
  | .prstReleasingDone n failedDrops => Sys2Proof.Machine.execPrstReleasingDone n failedDrops s
  | .bnetRgLoad => Sys2Proof.Machine.execBnetRgLoad s
  | .bnetRgLoadDone => Sys2Proof.Machine.execBnetRgLoadDone s
  | .reductionContribution t k => Sys2Proof.Machine.execReductionContribution t k s
  | .reductionRoundTimeout g => Sys2Proof.Machine.execReductionRoundTimeout g s
  | .ropeOn v => Sys2Proof.Machine.execRopeOn v s
  | .ropeOff v => Sys2Proof.Machine.execRopeOff v s
  | .ropeSoftReset => Sys2Proof.Machine.execRopeSoftReset s
  | .layoutValidWrite k v => Sys2Proof.Machine.execLayoutValidWrite k v s
  | .ropeSelWrite r v => Sys2Proof.Machine.execRopeSelWrite r v s
  | .ropeOpen c => Sys2Proof.Machine.execRopeOpen c s
  | .ropeClose c => Sys2Proof.Machine.execRopeClose c s
  | .ropeFork c => Sys2Proof.Machine.execRopeFork c s
  | .ropeTrunc c => Sys2Proof.Machine.execRopeTrunc c s
  | .ropeSet c => Sys2Proof.Machine.execRopeSet c s
  | .frameZeroDone h => Sys2Proof.Machine.execFrameZeroDone h s
  | .agingWalk => Sys2Proof.Machine.execAgingWalk s
  | .ropeEpochEnd => Sys2Proof.Machine.execRopeEpochEnd s
  | .demotionSweep n => Sys2Proof.Machine.execDemotionSweep n s
  | .pageMoveStart x toNear => Sys2Proof.Machine.execPageMoveStart x toNear s
  | .pageMoveComplete x => Sys2Proof.Machine.execPageMoveComplete x s
  | .taintNotice t => Sys2Proof.Machine.execTaintNotice t s
  | .cairnOn v => Sys2Proof.Machine.execCairnOn v s
  | .cairnOff v => Sys2Proof.Machine.execCairnOff v s
  | .cairnEmptyDone => Sys2Proof.Machine.execCairnEmptyDone s
  | .cairnMatch c => Sys2Proof.Machine.execCairnMatch c s
  | .cairnPublish c => Sys2Proof.Machine.execCairnPublish c s
  | .cairnPin c => Sys2Proof.Machine.execCairnPin c s
  | .cairnUnpin c => Sys2Proof.Machine.execCairnUnpin c s
  | .cairnFlush c => Sys2Proof.Machine.execCairnFlush c s
  | .cairnSweep need => Sys2Proof.Machine.execCairnSweep need s
  | .attn c => Sys2Proof.Machine.execAttn c s
  | .attnRowCheck a row => Sys2Proof.Machine.execAttnRowCheck a row s
  | .attnKernelCall t cseq => Sys2Proof.Machine.execAttnKernelCall t cseq s
  | .attnKernelTimeout t cseq => Sys2Proof.Machine.execAttnKernelTimeout t cseq s
  | .attnRowTimeout a row => Sys2Proof.Machine.execAttnRowTimeout a row s
  | .attnComplete a => Sys2Proof.Machine.execAttnComplete a s
  | .accept c => Sys2Proof.Machine.execAccept c s
  | .fprtEnable n => Sys2Proof.Machine.execFprtEnable n s
  | .fprtDisable n => Sys2Proof.Machine.execFprtDisable n s
  | .fecLock p groups => Sys2Proof.Machine.execFecLock p groups s
  | .phyTimeout p => Sys2Proof.Machine.execPhyTimeout p s
  | .halfLockTimeout h group => Sys2Proof.Machine.execHalfLockTimeout h group s
  | .waitTimeout p => Sys2Proof.Machine.execWaitTimeout p s
  | .exchangeSendTimer p => Sys2Proof.Machine.execExchangeSendTimer p s
  | .exchangeReceive p c => Sys2Proof.Machine.execExchangeReceive p c s
  | .fecLockLoss p => Sys2Proof.Machine.execFecLockLoss p s
  | .fprtRetrain n => Sys2Proof.Machine.execFprtRetrain n s
  | .fprtClr n => Sys2Proof.Machine.execFprtClr n s
  | .fabricFrameReceive p frame fec => Sys2Proof.Machine.execFabricFrameReceive p frame fec s
  | .fabricNakReceive p ack => Sys2Proof.Machine.execFabricNakReceive p ack s
  | .fabricNakRepeat p => Sys2Proof.Machine.execFabricNakRepeat p s
  | .lpReq p => Sys2Proof.Machine.execLpReq p s
  | .lpAck p => Sys2Proof.Machine.execLpAck p s
  | .lpNak p => Sys2Proof.Machine.execLpNak p s
  | .lpExit p => Sys2Proof.Machine.execLpExit p s
  | .ringUpdate n c => Sys2Proof.Machine.execRingUpdate n c s
  | .ringUpdateTimer n => Sys2Proof.Machine.execRingUpdateTimer n s
  | .fprtRingWrite n prev v => Sys2Proof.Machine.execFprtRingWrite n prev v s
  | .fabricPacketReceive n head body => Sys2Proof.Machine.execFabricPacketReceive n head body s
  | .hostMemoryRead h q => Sys2Proof.Machine.execHostMemoryRead h q s
  | .hostMemoryWrite h q data => Sys2Proof.Machine.execHostMemoryWrite h q data s
  | .hostRegisterRead h q => Sys2Proof.Machine.execHostRegisterRead h q s
  | .hostRegisterWrite h q => Sys2Proof.Machine.execHostRegisterWrite h q s
  | .hostCompletionReceive h q => Sys2Proof.Machine.execHostCompletionReceive h q s
  | .hostRequestTimeout h tag => Sys2Proof.Machine.execHostRequestTimeout h tag s
  | .deviceRequestTimeout h tag => Sys2Proof.Machine.execDeviceRequestTimeout h tag s
  | .devicePacketPortTimeout h => Sys2Proof.Machine.execDevicePacketPortTimeout h s
  | .hprtSoftReset h => Sys2Proof.Machine.execHprtSoftReset h s
  | .hbrgSoftReset => Sys2Proof.Machine.execHbrgSoftReset s
  | .subwEnable w => Sys2Proof.Machine.execSubwEnable w s
  | .subwDisable w => Sys2Proof.Machine.execSubwDisable w s
  | .subwSoftReset w => Sys2Proof.Machine.execSubwSoftReset w s
  | .commandAccept => Sys2Proof.Machine.execCommandAccept s
  | .nopCommand w c => Sys2Proof.Machine.execNopCommand w c s
  | .subwCqHeadWrite w v => Sys2Proof.Machine.execSubwCqHeadWrite w v s
  | .dmaDescriptor d replies => Sys2Proof.Machine.execDmaDescriptor d replies s
  | .dmaResume d => Sys2Proof.Machine.execDmaResume d s
  | .dmaFlush d => Sys2Proof.Machine.execDmaFlush d s
  | .dmaSoftReset d => Sys2Proof.Machine.execDmaSoftReset d s
  | .tileFence t cause => Sys2Proof.Machine.execTileFence t cause s
  | .tileErrClr t => Sys2Proof.Machine.execTileErrClr t s
  | .mgmtLogSelWrite r v => Sys2Proof.Machine.execMgmtLogSelWrite r v s
  | .mgmtLogTailWrite v => Sys2Proof.Machine.execMgmtLogTailWrite v s
  | .mgmtClrTaint => Sys2Proof.Machine.execMgmtClrTaint s
  | .mgmtClrLost => Sys2Proof.Machine.execMgmtClrLost s
  | .mgmtRestart watchdog within10s => Sys2Proof.Machine.execMgmtRestart watchdog within10s s
  | .mgmtRestartDone => Sys2Proof.Machine.execMgmtRestartDone s
  | .domainEntry d toOff => Sys2Proof.Machine.execDomainEntry d toOff s
  | .wakeComparatorTrip b line => Sys2Proof.Machine.execWakeComparatorTrip b line s
  | .domainExitComplete d => Sys2Proof.Machine.execDomainExitComplete d s
  | .pwrReqHoldOn p => Sys2Proof.Machine.execPwrReqHoldOn p s
  | .pwrReqOff p => Sys2Proof.Machine.execPwrReqOff p s
  | .pwrReqAuto p => Sys2Proof.Machine.execPwrReqAuto p s
  | .lattolWrite p v => Sys2Proof.Machine.execLattolWrite p v s
  | .sensorSample n reading => Sys2Proof.Machine.execSensorSample n reading s
  | .thrmClrFault => Sys2Proof.Machine.execThrmClrFault s
  | .forecastDecision => Sys2Proof.Machine.execForecastDecision s
  | .flowTachPulse => Sys2Proof.Machine.execFlowTachPulse s
  | .flowInputCheck edges changed => Sys2Proof.Machine.execFlowInputCheck edges changed s
  | .flowUpdate => Sys2Proof.Machine.execFlowUpdate s
  | .stopCleared => Sys2Proof.Machine.execStopCleared s
  | .lowCleared => Sys2Proof.Machine.execLowCleared s
  | .shutdown => Sys2Proof.Machine.execShutdown s
  | .shutdownComplete => Sys2Proof.Machine.execShutdownComplete s
  | .thermTrip n => Sys2Proof.Machine.execThermTrip n s
  | .clkSnap => Sys2Proof.Machine.execClkSnap s
  | .clockFailure c => Sys2Proof.Machine.execClockFailure c s
  | .pkgReset => Sys2Proof.Machine.execPkgReset s
  | .packageReset => Sys2Proof.Machine.execPackageReset s
  | .resetNAssert => Sys2Proof.Machine.execResetNAssert s
  | .pwrOkChange level => Sys2Proof.Machine.execPwrOkChange level s
  | .powerOnResetRelease => Sys2Proof.Machine.execPowerOnResetRelease s
  | .resetRelease fusesGood => Sys2Proof.Machine.execResetRelease fusesGood s
  | .b0Clocks refGood locked answers => Sys2Proof.Machine.execB0Clocks refGood locked answers s
  | .dieDiscovery found => Sys2Proof.Machine.execDieDiscovery found s
  | .linkTraining res => Sys2Proof.Machine.execLinkTraining res s
  | .edgeInit failed => Sys2Proof.Machine.execEdgeInit failed s
  | .mgmtFw reported => Sys2Proof.Machine.execMgmtFw reported s
  | .tileFw => Sys2Proof.Machine.execTileFw s
  | .topology => Sys2Proof.Machine.execTopology s
  | .ready => Sys2Proof.Machine.execReady s
  | .bootChunkReceive t c flits crc => Sys2Proof.Machine.execBootChunkReceive t c flits crc s
  | .bootEndMarker => Sys2Proof.Machine.execBootEndMarker s
  | .bootBitmapTimeout => Sys2Proof.Machine.execBootBitmapTimeout s
  | .bootPassDone => Sys2Proof.Machine.execBootPassDone s
  | .tileStartupCheck t late => Sys2Proof.Machine.execTileStartupCheck t late s
  | .bootReload => Sys2Proof.Machine.execBootReload s
  | .bootReloadDone => Sys2Proof.Machine.execBootReloadDone s
  | .bootAccept => Sys2Proof.Machine.execBootAccept s
  | .nbrWaitTimeout => Sys2Proof.Machine.execNbrWaitTimeout s
  | .flashErase => Sys2Proof.Machine.execFlashErase s
  | .flashProgram => Sys2Proof.Machine.execFlashProgram s
  | .flashCheck => Sys2Proof.Machine.execFlashCheck s
  | .flashRead => Sys2Proof.Machine.execFlashRead s
  | .flashCommandDone good => Sys2Proof.Machine.execFlashCommandDone good s
  | .attGo => Sys2Proof.Machine.execAttGo s
  | .attReportDone => Sys2Proof.Machine.execAttReportDone s
  | .smbRegisterRead off pec => Sys2Proof.Machine.execSmbRegisterRead off pec s
  | .smbRegisterWrite off v pec => Sys2Proof.Machine.execSmbRegisterWrite off v pec s
  | .smbStatusRead pec => Sys2Proof.Machine.execSmbStatusRead pec s
  | .smbClockTimeout => Sys2Proof.Machine.execSmbClockTimeout s
  | .pmbGo v => Sys2Proof.Machine.execPmbGo v s
  | .pmbDone r data => Sys2Proof.Machine.execPmbDone r data s
  | .jtagBypass => Sys2Proof.Machine.execJtagBypass s
  | .jtagIdcode => Sys2Proof.Machine.execJtagIdcode s
  | .jtagSamplePreload pins preload => Sys2Proof.Machine.execJtagSamplePreload pins preload s
  | .jtagExtest => Sys2Proof.Machine.execJtagExtest s
  | .jtagClamp => Sys2Proof.Machine.execJtagClamp s
  | .jtagHighz => Sys2Proof.Machine.execJtagHighz s
  | .trstNAssert => Sys2Proof.Machine.execTrstNAssert s
  | .domainEntryComplete d => Sys2Proof.Machine.execDomainEntryComplete d s
  | .vddAonOrVio18Low => Sys2Proof.Machine.execVddAonOrVio18Low s
  | .hprtRetrain h => Sys2Proof.Machine.execHprtRetrain h s
  | .hprtClr h => Sys2Proof.Machine.execHprtClr h s

end Sys2Proof.Machine
end

