-- ==== Sys2Proof/Safety.lean ====
section
/-! DEFINITION. What a safe run is, in the terms that claims use: every step answers a next state. -/

namespace Sys2Proof.Machine

/-- Whether an outcome is a next state. -/
def Completes (o : Host.Outcome State Fault Refusal) : Prop := ∃ s, o = .next s

/-- Whether every command that waits is well formed. -/
def State.queueWellFormed (s : State) : Bool := s.pending.all Instr.wellFormed

end Sys2Proof.Machine
end

