-- ==== Sys2Proof/Certificates/Slice0/Obligations.lean ====
section
/-! DEFINITION. The statements for the provers. The words they use stand first (namespace `Sys2Proof.Say`): what a
command gives, and what it leaves as it was. -/

namespace Sys2Proof.Say

open Sys2Proof.Machine

/-- The command answers a next state, and that state is as `P` says. -/
def Gives (c : Instr) (s : State) (P : State → Prop) : Prop := ∃ t, exec c s = .next t ∧ P t

/-- A list of register fields, each with its page. -/
abbrev Fields := List (PageRef × Field)

/-- Every register field whose place is none of those listed holds what it held. -/
def RegsBut (l : Fields) (s t : State) : Prop :=
  ∀ q g, (∀ e ∈ l, fieldKey q g ≠ fieldKey e.1 e.2) → t.get q g = s.get q g

/-- Nothing but register fields changed, and of those only the listed ones. -/
def OnlyRegs (l : Fields) (s t : State) : Prop := t = { s with regs := t.regs } ∧ RegsBut l s t

/-- Every tile but `n` is as it was. -/
def TilesBut (n : Nat) (s t : State) : Prop := ∀ k, k ≠ n → t.tile k = s.tile k

/-- Nothing but tile `n` changed. -/
def OnlyTile (n : Nat) (s t : State) : Prop := t = { s with tiles := t.tiles } ∧ TilesBut n s t

/-- Nothing but tile `n` and the listed register fields changed. -/
def OnlyTileRegs (n : Nat) (l : Fields) (s t : State) : Prop :=
  t = { s with tiles := t.tiles, regs := t.regs } ∧ TilesBut n s t ∧ RegsBut l s t

/-- Every byte of the memory list outside the sectors of `m` bytes at package address `a` is as it was. -/
def MemBut (a m : Nat) (s t : State) : Prop :=
  ∀ k, (k < sectorKey a ∨ sectorKey a + 36 * (m / 32) ≤ k) → memByte t.mem k = memByte s.mem k

/-- The lines of the summit's caches keep their sectors, and those of sectors outside the `m` bytes at package address `a`
their contents. -/
def LinesBut (a m : Nat) (s t : State) : Prop :=
  ∃ f : Nat → List Byte → List Byte, (∀ b v, (b < 32 * (a / 32) ∨ 32 * (a / 32) + 32 * (m / 32) ≤ b) → f b v = v) ∧
    t.cache = s.cache.map (fun e =>
      (e.1, { e.2 with ways := e.2.ways.map (fun x => x.map (fun l => (l.1, f l.1 l.2))) }))

/-- Nothing but memory changed, and of that only the sectors of `m` bytes at package address `a`, with the cached copies of
those sectors. -/
def OnlyMem (a m : Nat) (s t : State) : Prop :=
  t = { s with mem := t.mem, cache := t.cache } ∧ MemBut a m s t ∧ LinesBut a m s t

/-- No sector of `n` bytes at `a` holds an error. -/
def Clean (s : State) (a n : Nat) : Prop := ∀ x ∈ sectorsOf a n, (s.sector x).1 = .good

/-- The little-endian number that `n` stored data bytes from `a` on spell. -/
def dataNat (s : State) (a n : Nat) : Nat := leNat ((List.range n).map (fun j => s.dataByte (a + j)))

/-- The log entry of an error, beside the counts of its page, changes only these fields. -/
def errFields (p : PageRef) : Fields :=
  [(p, PAGE_ERR_CNT_C.COUNT), (p, PAGE_ERR_CNT_U.COUNT), (p, PAGE_ERR_FIRST.VALID), (p, PAGE_ERR_FIRST.CODE),
   (p, PAGE_ERR_FIRST.SYNDROME), (p, PAGE_ERR_NEXT.COUNT), (pgMgmt, MGMT_LOG_HEAD.COUNT), (pgMgmt, MGMT_LOG_LOST.COUNT)]

/-- Bit `b` of `ASTAT` after an operation: as it was, or set by an active lane. -/
def StickyFlags (u w : Tile) (o : VecOp) (f : Nat → Word × Nat) : Prop :=
  ∀ b, w.astat.testBit b = (u.astat.testBit b || (List.range 64).any (fun l => u.active o l && (f l).2.testBit b))

/-- Vector register `r` takes `f` in its active lanes and keeps the others; every other vector register is as it was. -/
def WritesVector (u w : Tile) (o : VecOp) (r : Nat) (f : Nat → Word) : Prop :=
  (∀ l < 64, w.vec r l = if u.active o l then f l else u.vec r l) ∧ ∀ q l, q ≠ r → l < 64 → w.vec q l = u.vec q l

/-- The lane operations of the vector slot with their functions of the lane (03 R77). -/
def laneForms (u : Tile) (t : TileId) (o : VecOp) : List (Instr × (Nat → Word × Nat)) :=
  let a := u.vec o.va.toNat
  let b := u.opB o
  [(.vadd t o, fun l => laneAdd (a l) (b l)), (.vsub t o, fun l => laneSub (a l) (b l)),
   (.vmul t o, fun l => laneMul (a l) (b l)), (.vfma t o, fun l => laneFma (a l) (b l) (u.vec o.vc.toNat l)),
   (.vmin t o, fun l => laneMin (a l) (b l)), (.vmax t o, fun l => laneMax (a l) (b l)),
   (.vabs t o, fun l => laneAbs (a l)), (.vneg t o, fun l => laneNeg (a l)),
   (.vsel t o, fun l => (if (u.mask (o.vc.toNat % 8)).getLsbD l then a l else b l, 0)),
   (.vexp2 t o, fun l => laneExp2 (a l)), (.vexp t o, fun l => laneExp (a l)), (.vrcp t o, fun l => laneRcp (a l)),
   (.vrsqrt t o, fun l => laneRsqrt (a l)),
   (.vcvtInt32 t o, fun l => ((round32 200 false ((a l).toInt * 2 ^ 200)).1, 0))]

/-- A tile takes a trap outside a handler (04 R102, R103): the three trap CSRs, the saved mode and `INTRAP` are written,
`mstatus` saves and clears its interrupt enable (the model's choice, assumption log 69), the core goes to `mtvec` in scalar
mode and `TILE_STAT.CAUSE` shows the cause; nothing else changes. -/
def TrapTaken (n cause : Nat) (mtval : Word) (s t : State) : Prop :=
  let u := s.tile n
  let w := t.tile n
  w = { u with csr := w.csr, pbm := u.bmode, intrap := true, bmode := false, pc := (u.csrGet csrMtvec).toNat / 4 * 4 } ∧
  w.csrGet csrMepc = BitVec.ofNat 32 u.pc ∧ w.csrGet csrMcause = BitVec.ofNat 32 cause ∧ w.csrGet csrMtval = mtval ∧
  w.csrGet csrMstatus = trapStatus (u.csrGet csrMstatus) ∧
  (∀ c, c ≠ csrMepc → c ≠ csrMcause → c ≠ csrMtval → c ≠ csrMstatus → w.csrGet c = u.csrGet c) ∧
  t.get (pgTile n) TILE_STAT.CAUSE = cause ∧ OnlyTileRegs n [(pgTile n, TILE_STAT.CAUSE)] s t

end Sys2Proof.Say

open Sys2Proof Sys2Proof.Machine Sys2Proof.Say
/-! ## The block as a whole -/

/-- A step takes the command at the front of the queue and answers its effect on the state with the queue's rest. With
an empty queue one cycle of MGCLK passes, and nothing else happens (the model's own choice, assumption log 1). -/
def Obligations.StepRunsTheFrontCommand : Prop :=
 (∀ (c : Instr) (rest : List Instr) (s : State), s.pending = c :: rest → step s = exec c { s with pending := rest }) ∧
 (∀ s : State, s.pending = [] → step s = .next { s with mg := s.mg + 1 })

/-- After reset every register field reads its reset value on every page, no tile runs, memory lists nothing (a sector
that nothing has written reads as 32 zero bytes: assumption log 5), every rope is FREE and no command waits. -/
def Obligations.ResetLeavesResetValues : Prop :=
  (∀ p f, State.reset.get p f = resetOf p f) ∧ (∀ t, State.reset.tile t = Tile.init) ∧
  (∀ t : TileId, State.reset.tileRun t = runIdle ∧ State.reset.issues t = false) ∧
  (∀ a, State.reset.sector a = (.good, List.replicate 32 0)) ∧
  (∀ r, mapGet Rope.init State.reset.ropes r = Rope.init) ∧ State.reset.pending = [] ∧ State.reset.mg = 0

/-- The two byte stores of the block, package memory and the board's flash, hold rising addresses and no byte that reads
as an unlisted one. -/
def Sys2Proof.Say.StoresCanonical (s : State) : Prop := memWf s.mem = true ∧ memWf s.flash = true

/-- The byte stores are in canonical form after reset. -/
def Obligations.ResetStoresAreCanonical : Prop := StoresCanonical State.reset

/-- Every step keeps the byte stores in canonical form, whatever command it runs. -/
def Obligations.EveryStepKeepsStoresCanonical : Prop :=
  ∀ s s' : State, StoresCanonical s → step s = .next s' → StoresCanonical s'

/-- No command touches the queue of waiting commands, so a step takes exactly one from it. -/
def Obligations.CommandsLeaveTheQueue : Prop :=
  (∀ (c : Instr) (s s' : State), exec c s = .next s' → s'.pending = s.pending) ∧
  (∀ s s' : State, step s = .next s' → s'.pending = s.pending.tail)

/-- A command of a shape that the wires can carry always answers a next state; any other stops as ill-formed. No command
is refused. -/
def Obligations.WellFormedCommandsComplete : Prop :=
  ∀ (c : Instr) (s : State),
    (c.wellFormed = true → ∃ s', exec c s = .next s') ∧ (c.wellFormed = false → exec c s = .fault .illFormed)

/-! ## Sectors and their code words (05 R131 to R133) -/

/-- A sector that is stored reads back good with its data; a sector stored poisoned reads poisoned; the other sectors of
memory read as before. -/
def Obligations.StoredSectorReadsBack : Prop :=
  ∀ (s : State) (a b : Nat) (d : List Byte), d.length = 32 →
    (s.putSector a d).sector a = (.good, d) ∧ ((s.poisonSector a).sector a).1 = .poisoned ∧
    (a / 32 ≠ b / 32 → (s.putSector a d).sector b = s.sector b ∧ (s.poisonSector a).sector b = s.sector b)

/-- R134. One symbol error in a good sector is corrected, never read as poison; in a poisoned sector it leaves the sector
poisoned; two or three in a good sector read as uncorrectable or as poisoned. -/
def Obligations.SymbolErrorsInSectors : Prop :=
  ∀ d : List Byte, d.length = 32 →
    (∀ (p : Nat) (e : Byte), p < 36 → e ≠ 0 →
      decodeSector ((codeWord d).set p ((codeWord d).getD p 0 ^^^ e)) = (.corrected p e, d) ∧
      (let w := d ++ (rsCheck d).map (· ^^^ 0xFF)
       (decodeSector (w.set p (w.getD p 0 ^^^ e))).1 = .poisoned)) ∧
    (∀ w : List Byte, w.length = 36 →
      (let n := (List.range 36).countP (fun i => w.getD i 0 != (codeWord d).getD i 0)
       n = 2 ∨ n = 3) → (decodeSector w).1 = .uncorrectable ∨ (decodeSector w).1 = .poisoned)

/-! ## The vector slot (03 R77 to R81, 04 R100) -/

/-- A lane operation writes its function of the operands to the active lanes of V[VD], leaves the other lanes and
registers, and sets in `ASTAT` what the active lanes raise; nothing else changes. A NaN operand gives the canonical
NaN in a lane operation that computes with it, and raises `NAN_IN` (03 R78); in a comparison it raises `NAN_IN`, and the
mask bit is left open (the model's choice of a free bit, assumption log 59). -/
def Obligations.LaneOperationsWriteActiveLanes : Prop :=
 (∀ (t : TileId) (o : VecOp) (s : State) (c : Instr) (f : Nat → Word × Nat), (c, f) ∈ laneForms (s.tile t) t o →
    s.issues t = true → (o.sat = false ∨ c = .vcvtInt32 t o) →
    Gives c s (fun s' => OnlyTile t s s' ∧
      s'.tile t = { s.tile t with v := (s'.tile t).v, astat := (s'.tile t).astat } ∧
      WritesVector (s.tile t) (s'.tile t) o o.vd.toNat (fun l => (f l).1) ∧ StickyFlags (s.tile t) (s'.tile t) o f)) ∧
 (∀ (a b c : Word), (vecValue a).isNaN = true →
    (∀ f ∈ [laneAdd, laneSub, laneMul, laneMin, laneMax], f a b = (canonNaN, flagNanIn) ∧ f b a = (canonNaN, flagNanIn)) ∧
    laneFma a b c = (canonNaN, flagNanIn) ∧ laneFma b a c = (canonNaN, flagNanIn) ∧
    laneFma b c a = (canonNaN, flagNanIn) ∧
    (∀ f ∈ [laneAbs, laneNeg, laneExp2, laneExp, laneRcp, laneRsqrt], f a = (canonNaN, flagNanIn)) ∧
    (∀ k x, laneCmp k x a b = (x, flagNanIn) ∧ laneCmp k x b a = (x, flagNanIn)))

/-- A comparison writes one bit per active lane to M[VD[2:0]]; lanes that `MEN` leaves out keep their bit. The bit of a lane
with a NaN operand is the low bit of free word `s.fresh` + l (assumption log 59). `VRSUM`
adds lane 2i to lane 2i + 1, level by level; `VRMAX` takes the greatest lane; lane 0 of V[VD] takes the result and the
other active lanes 0. `VACC` copies Aq of every lane to V[VD] once no array operation in flight writes it, and `VTOA`
copies V[VA] to Aq. -/
def Obligations.ComparisonsReductionsAndCopies : Prop :=
 (∀ (t : TileId) (o : VecOp) (s : State) (c : Instr) (k : Cmp),
    (c, k) ∈ [(Instr.vcmpEq t o, Cmp.eq), (.vcmpLt t o, .lt), (.vcmpLe t o, .le)] →
    s.issues t = true → o.sat = false →
    Gives c s (fun s' =>
      let u := s.tile t
      let w := s'.tile t
      let r := fun l => laneCmp k ((Config.freeValue (s.fresh + l)).getLsbD 0) (u.vec o.va.toNat l) (u.opB o l)
      s' = { s with tiles := s'.tiles, fresh := s.fresh + 64 } ∧ TilesBut t s s' ∧
      w = { u with masks := w.masks, astat := w.astat } ∧
      (∀ l < 64, (w.mask (o.vd.toNat % 8)).getLsbD l =
        if u.active o l then (r l).1 else (u.mask (o.vd.toNat % 8)).getLsbD l) ∧
      (∀ m, m ≠ o.vd.toNat % 8 → w.mask m = u.mask m) ∧ StickyFlags u w o (fun l => (0, (r l).2)))) ∧
 (∀ (t : TileId) (o : VecOp) (s : State), s.issues t = true → o.sat = false →
    (∀ c f, (c, f) ∈ [(Instr.vrsum t o, sumTree), (.vrmax t o, maxAll)] →
      Gives c s (fun s' => OnlyTile t s s' ∧
        s'.tile t = { s.tile t with v := (s'.tile t).v, astat := (s'.tile t).astat } ∧
        WritesVector (s.tile t) (s'.tile t) o o.vd.toNat
          (fun l => if l = 0 then (f ((s.tile t).vecAll o.va.toNat)).1 else 0) ∧
        (∀ b, (s'.tile t).astat.testBit b =
          ((s.tile t).astat.testBit b || (f ((s.tile t).vecAll o.va.toNat)).2.testBit b)))) ∧
    ((s.tile t).flight.all (fun f => f.q != o.va.toNat) = true →
      Gives (.vacc t o) s (fun s' => OnlyTile t s s' ∧ s'.tile t = { s.tile t with v := (s'.tile t).v } ∧
        WritesVector (s.tile t) (s'.tile t) o o.vd.toNat (fun l => (s.tile t).accum o.va.toNat l))) ∧
    ((s.tile t).flight.all (fun f => f.q != o.vd.toNat) = true →
      Gives (.vtoa t o) s (fun s' => OnlyTile t s s' ∧ s'.tile t = { s.tile t with acc := (s'.tile t).acc } ∧
        (∀ l < 64, (s'.tile t).accum o.vd.toNat l =
          if (s.tile t).active o l then (s.tile t).vec o.va.toNat l else (s.tile t).accum o.vd.toNat l) ∧
        (∀ q l, q ≠ o.vd.toNat → l < 64 → (s'.tile t).accum q l = (s.tile t).accum q l))))

/-- `VCVT` to FP32 widens element l of the packed source into lane l; `VCVT` from FP32 packs the narrow elements of all
lanes from byte 0 of V[VD] on, with zeros behind them; `VQMX` packs the elements of two blocks from byte 0 of V[VD] on and
puts the two scales into bytes 0 and 1 of V[VB]; the other bytes of both are left open (assumption log 9). With `MEN` 1 the
words of inactive lanes stay as they were. The free words number `s.fresh` to `s.fresh + 63` stand for the payload of NaN
results of `VCVT` (assumption log 6). -/
def Obligations.ConversionsPackTheirElements : Prop :=
  ∀ (t : TileId) (o : VecOp) (s : State), s.issues t = true →
    let f := o.vc.toNat % 16
    let u := s.tile t
    (vcvtFormat f = true → o.vc.toNat < 16 →
      let lane (l : Nat) := widen f (unpackAt (vecNat (u.vecAll o.va.toNat)) (fmtWidth f) l)
      Gives (.vcvt t o) s (fun s' => s' = { s with tiles := s'.tiles, fresh := s.fresh + 64 } ∧ TilesBut t s s' ∧
        s'.tile t = { u with v := (s'.tile t).v, astat := (s'.tile t).astat } ∧
        WritesVector u (s'.tile t) o o.vd.toNat (fun l => (lane l).1) ∧ StickyFlags u (s'.tile t) o lane)) ∧
    (vcvtFormat f = true → 16 ≤ o.vc.toNat →
      let elem (l : Nat) := narrow f o.sat (Config.freeValue (s.fresh + l)).toNat (u.vec o.va.toNat l)
      Gives (.vcvt t o) s (fun s' => s' = { s with tiles := s'.tiles, fresh := s.fresh + 64 } ∧ TilesBut t s s' ∧
        s'.tile t = { u with v := (s'.tile t).v, astat := (s'.tile t).astat } ∧
        (∃ ws : List Word, ws.length = 64 ∧ vecNat ws < 2 ^ (64 * fmtWidth f) ∧
          (∀ l < 64, unpackAt (vecNat ws) (fmtWidth f) l = (elem l).1 % 2 ^ fmtWidth f) ∧
          WritesVector u (s'.tile t) o o.vd.toNat (fun l => ws.getD l 0)) ∧
        (∀ b, (s'.tile t).astat.testBit b =
          (u.astat.testBit b || (List.range 64).any (fun l => (elem l).2.testBit b))))) ∧
    (fmtScaled f = true → o.sat = false →
      let a := quantBlock f ((u.vecAll o.va.toNat).take 32)
      let b := quantBlock f ((u.vecAll o.va.toNat).drop 32)
      Gives (.vqmx t o) s (fun s' =>
        let w := s'.tile t
        s' = { s with tiles := s'.tiles, fresh := s.fresh + 128 } ∧ TilesBut t s s' ∧
        w = { u with v := w.v, astat := w.astat } ∧
        (∃ ws : List Word, ws.length = 64 ∧
          (∀ l < 32, unpackAt (vecNat ws) (fmtWidth f) l = a.2.1.getD l 0 % 2 ^ fmtWidth f ∧
            unpackAt (vecNat ws) (fmtWidth f) (32 + l) = b.2.1.getD l 0 % 2 ^ fmtWidth f) ∧
          (o.vb ≠ o.vd → ∀ l < 64, w.vec o.vd.toNat l = if u.active o l then ws.getD l 0 else u.vec o.vd.toNat l)) ∧
        (if u.active o 0 then (w.vec o.vb.toNat 0).toNat % 65536 = a.1 + 256 * b.1
          else o.vb ≠ o.vd → w.vec o.vb.toNat 0 = u.vec o.vb.toNat 0) ∧
        (∀ l < 64, u.active o l = false → w.vec o.vb.toNat l = u.vec o.vb.toNat l) ∧
        (∀ q l, q ≠ o.vd.toNat → q ≠ o.vb.toNat → l < 64 → w.vec q l = u.vec q l) ∧
        (∀ i, w.astat.testBit i = (u.astat.testBit i || a.2.2.testBit i || b.2.2.testBit i))))

/-- The forms of the vector slot that its encoding reserves trap as illegal instructions, with the slot word in `mtval`,
and change no register: `SAT` 1 where it must be 0, a conversion code that the conversion cannot take, `TKINS` of no lane
or of more than 64, `MEN` 1 on a top-k operation. -/
def Obligations.ReservedVectorFormsTrap : Prop :=
  ∀ (t : TileId) (o : VecOp) (s : State), s.issues t = true → (s.tile t).intrap = false →
    (o.sat = true →
      (∀ c w, (c, w) ∈ [(Instr.vadd t o, 0x01), (.vsub t o, 0x02), (.vmul t o, 0x03), (.vfma t o, 0x04), (.vmin t o, 0x05),
        (.vmax t o, 0x06), (.vabs t o, 0x07), (.vneg t o, 0x08), (.vcmpEq t o, 0x09), (.vcmpLt t o, 0x0A),
        (.vcmpLe t o, 0x0B), (.vsel t o, 0x0C), (.vexp2 t o, 0x10), (.vexp t o, 0x11), (.vrcp t o, 0x12),
        (.vrsqrt t o, 0x13), (.vrsum t o, 0x14), (.vrmax t o, 0x15), (.vacc t o, 0x18), (.vtoa t o, 0x19),
        (.vqmx t o, 0x1E), (.tkclr t o, 0x20), (.tkins t o, 0x21), (.tkmrg t o, 0x22), (.tkrd t o, 0x23),
        (.tkswap t o, 0x24)] → Gives c s (TrapTaken t causeIllegal (vecWord w o) s))) ∧
    (o.men = true →
      (∀ c w, (c, w) ∈ [(Instr.tkclr t o, 0x20), (.tkins t o, 0x21), (.tkmrg t o, 0x22), (.tkrd t o, 0x23),
        (.tkswap t o, 0x24)] → Gives c s (TrapTaken t causeIllegal (vecWord w o) s))) ∧
    (vcvtFormat (o.vc.toNat % 16) = false → Gives (.vcvt t o) s (TrapTaken t causeIllegal (vecWord 0x1C o) s)) ∧
    (fmtScaled (o.vc.toNat % 16) = false → Gives (.vqmx t o) s (TrapTaken t causeIllegal (vecWord 0x1E o) s)) ∧
    (((s.tile t).xr o.vc.toNat).toNat = 0 ∨ 64 < ((s.tile t).xr o.vc.toNat).toNat →
      Gives (.tkins t o) s (TrapTaken t causeIllegal (vecWord 0x21 o) s))

/-! ## The top-k unit (03 R73 to R75) -/

/-- A list as the unit keeps it: at most 64 entries in order, none of them marked as unused and no NaN among FP32
values. -/
def Sys2Proof.Say.ListOrdered (u : Tile) : Prop :=
  u.tk.length ≤ 64 ∧ u.tk.Pairwise (fun a b => u.tkBefore b a = false) ∧
  ∀ e ∈ u.tk, e.idx ≠ tkNone ∧ (u.tkFloat && (value32 e.val).isNaN) = false

/-- R74. Offers keep the list in order and hold the best 64 of what was held and offered, without the candidates marked as
unused and the NaNs, which set `TOPK_NAN` whatever their index; under MIN the lower value is better, under MAX the higher one, of equal values
the lower index, and +0 equals -0. -/
def Obligations.OffersKeepTheBest64 : Prop :=
  (∀ (u : Tile) (l : List TkEntry), ListOrdered u →
    let w := u.tkOfferAll l
    let good (e : TkEntry) : Prop := e.idx ≠ tkNone ∧ (u.tkFloat && (value32 e.val).isNaN) = false
    ListOrdered w ∧ w = { u with tk := w.tk, astat := w.astat } ∧
    (∀ e ∈ w.tk, e ∈ u.tk ∨ (e ∈ l ∧ good e)) ∧
    (∀ e, (e ∈ u.tk ∨ (e ∈ l ∧ good e)) → e ∉ w.tk → w.tk.length = 64 ∧ ∀ k ∈ w.tk, u.tkBefore e k = false) ∧
    w.tk.length = min 64 (u.tk.length + l.countP (fun e => decide (e.idx ≠ tkNone) && !(u.tkFloat && (value32 e.val).isNaN))) ∧
    (∀ b, w.astat.testBit b = (u.astat.testBit b || (b == 5 && l.any (fun e => u.tkFloat && (value32 e.val).isNaN))))) ∧
  (∀ (u : Tile) (a b : TkEntry),
    u.tkBefore a b = true ↔
      (if u.tkFloat then
        (if u.tkMax then (value32 b.val).ltNum (value32 a.val) else (value32 a.val).ltNum (value32 b.val)) = true ∨
          ((value32 a.val).ltNum (value32 b.val) = false ∧ (value32 b.val).ltNum (value32 a.val) = false ∧
            a.idx.toNat < b.idx.toNat)
       else (if u.tkMax then b.val.toInt < a.val.toInt else a.val.toInt < b.val.toInt) ∨
          (a.val = b.val ∧ a.idx.toNat < b.idx.toNat))) ∧
  (value32 0#32).ltNum (value32 0x80000000#32) = false ∧ (value32 0x80000000#32).ltNum (value32 0#32) = false

/-- `TKCLR` empties the list and sets its order and type. `TKINS` offers lanes 0 to n - 1 of V[VA], lane l with the
index base + l. `TKRD` writes the list as an image of 512 bytes to SRAM; `TKMRG` offers the entries of an image;
`TKSWAP` writes the image and then loads another. The images lie at multiples of 32 within SRAM, the images read hold
no damaged sector and the two images of `TKSWAP` lie apart. -/
def Obligations.TopKListsAreKeptAndMoved : Prop :=
 (∀ (t : TileId) (o : VecOp) (s : State), s.issues t = true → o.sat = false → o.men = false →
    Gives (.tkclr t o) s (fun s' => OnlyTile t s s' ∧
      s'.tile t = { s.tile t with tk := [], tkMax := o.vd.getLsbD 0, tkFloat := o.vd.getLsbD 1 }) ∧
    (let u := s.tile t
     let n := (u.xr o.vc.toNat).toNat
     1 ≤ n → n ≤ 64 →
      Gives (.tkins t o) s (fun s' => OnlyTile t s s' ∧ s'.tile t = u.tkOfferAll
        ((List.range n).map (fun l => ⟨u.vec o.va.toNat l, u.xr o.vb.toNat + BitVec.ofNat 32 l⟩))))) ∧
 (∀ (t : TileId) (o : VecOp) (s : State), s.issues t = true → o.sat = false → o.men = false →
    let u := s.tile t
    let b := (u.xr o.vb.toNat).toNat
    let c := (u.xr o.vc.toNat).toNat
    let image (r : State) (a : Nat) : List TkEntry :=
      (List.range 64).map (fun i =>
        ⟨BitVec.ofNat 32 (dataNat r (a + 8 * i) 4), BitVec.ofNat 32 (dataNat r (a + 8 * i + 4) 4)⟩)
    let holdsList (r : State) (a : Nat) : Prop := ∀ i < 64,
      dataNat r (a + 8 * i) 4 = (u.tk.getD i ⟨u.tkWorst, tkNone⟩).val.toNat ∧
      dataNat r (a + 8 * i + 4) 4 = (u.tk.getD i ⟨u.tkWorst, tkNone⟩).idx.toNat
    b % 32 = 0 → b + 512 ≤ sramSize →
      Gives (.tkrd t o) s (fun s' => OnlyMem (s.sramAt t b) 512 s s' ∧ holdsList s' (s.sramAt t b) ∧
        Clean s' (s.sramAt t b) 512) ∧
      (Clean s (s.sramAt t b) 512 →
        Gives (.tkmrg t o) s (fun s' => OnlyTile t s s' ∧ s'.tile t = u.tkOfferAll (image s (s.sramAt t b)))) ∧
      (c % 32 = 0 → c + 512 ≤ sramSize → b + 512 ≤ c ∨ c + 512 ≤ b → Clean s (s.sramAt t c) 512 →
        Gives (.tkswap t o) s (fun s' => s' = { s with mem := s'.mem, cache := s'.cache, tiles := s'.tiles } ∧
          TilesBut t s s' ∧ MemBut (s.sramAt t b) 512 s s' ∧ LinesBut (s.sramAt t b) 512 s s' ∧ holdsList s' (s.sramAt t b) ∧
          s'.tile t = ({ u with tk := [] } : Tile).tkOfferAll (image s (s.sramAt t c)))))

/-! ## The load/store slot and transfers (04 R95 to R98, 07 R208, 13 R370 to R372) -/

namespace Sys2Proof.Say

/-- A tile has one more transfer outstanding, `x`, and nothing else changed. -/
def Started (n : Nat) (x : Nat → Xfer) (s t : State) : Prop :=
  OnlyTile n s t ∧ t.tile n = { s.tile n with
    nextId := (s.tile n).nextId + 1, xfers := (s.tile n).xfers ++ [x (s.tile n).nextId] }

/-- A transfer as it starts with status `st`: with a failure nothing of it is left to do. -/
def newXfer (kind : XferKind) (sram target sectors st : Nat) (todo : List Nat) (waits : Bool) (inject body : Nat)
    (id : Nat) : Xfer :=
  { id := id, kind := kind, sram := sram, target := target, sectors := sectors, todo := if st = 0 then todo else [],
    status := st, ue := false, waits := decide (st = 0) && waits, inject := if st = 0 then inject else 0, body := body,
    sent := none, out := none }

/-- Whether a tile may use the drop of its die for `n` flits: none, or it owns a slot of the injection port. -/
def mayInject (s : State) (t n : Nat) : Bool := n == 0 || s.ownsSlot t (s.injOf t)

end Sys2Proof.Say

/-- `VLD` loads lane l of V[A] with the word at its SRAM address; `VST` stores the lanes of V[A] as good sectors. Both
run at an address that is a multiple of 32 and a range within SRAM. A load that meets damaged sectors, outside a trap
handler, delivers zeros for their lanes and goes on: `TILE_ZERO_CNT` counts each of them; with `TROPE.VALID` 1 a taint
notice for its rope is outstanding for each, with 0 `TILE_NOROPE_CNT` counts each (one load for each sector: assumption
log 52). -/
def Obligations.VectorLoadsAndStores : Prop :=
 (∀ (t : TileId) (o : LsOp) (s : State), s.issues t = true →
    let u := s.tile t
    let a := u.sramAddr o.b o.imm
    let base := s.sramAt t a
    a % 32 = 0 → a + 256 ≤ sramSize →
      (Clean s base 256 →
        Gives (.vld t o) s (fun s' => OnlyTile t s s' ∧ s'.tile t = { u with v := (s'.tile t).v } ∧
          (∀ l < 64, (s'.tile t).vec o.a.toNat l = BitVec.ofNat 32 (dataNat s (base + 4 * l) 4)) ∧
          (∀ q l, q ≠ o.a.toNat → l < 64 → (s'.tile t).vec q l = u.vec q l))) ∧
      Gives (.vst t o) s (fun s' => OnlyMem base 256 s s' ∧ Clean s' base 256 ∧
        ∀ l < 64, dataNat s' (base + 4 * l) 4 = (u.vec o.a.toNat l).toNat)) ∧
 (∀ (t : TileId) (o : LsOp) (s : State), s.issues t = true → (s.tile t).intrap = false →
    let u := s.tile t
    let a := u.sramAddr o.b o.imm
    let base := s.sramAt t a
    let valid := bit u.trope.toNat 31
    let n := (List.range 8).countP (fun i => (s.sector (base + 32 * i)).1.damaged)
    a % 32 = 0 → a + 256 ≤ sramSize → 0 < n →
      Gives (.vld t o) s (fun s' =>
        (∀ l < 64, (s'.tile t).vec o.a.toNat l = if (s.sector (base + 4 * l)).1.damaged then 0
          else BitVec.ofNat 32 (field (s.sector (base + 4 * l)).2 (4 * l % 32) 4)) ∧
        s'.tile t = { u with
          v := (s'.tile t).v,
          taintWait := if valid then u.taintWait ++ List.replicate n (u.trope.toNat % 4096) else u.taintWait } ∧
        s'.get (pgTile t) TILE_ZERO_CNT.COUNT = min (s.get (pgTile t) TILE_ZERO_CNT.COUNT + n) (2 ^ 32 - 1) ∧
        s'.get (pgTile t) TILE_NOROPE_CNT.COUNT = (if valid then s.get (pgTile t) TILE_NOROPE_CNT.COUNT
          else min (s.get (pgTile t) TILE_NOROPE_CNT.COUNT + n) (2 ^ 32 - 1)) ∧
        s' = { s with regs := s'.regs, tiles := s'.tiles, log := s'.log } ∧ TilesBut t s s' ∧
        RegsBut (errFields (pgTile t) ++ [(pgTile t, TILE_ZERO_CNT.COUNT), (pgTile t, TILE_NOROPE_CNT.COUNT)]) s s'))

/-- `NMRD`, `NMWR`, `XRD`, `XWR` and `NSND` start a transfer of N + 1 sectors, when fewer than 16 are outstanding and
the addresses are aligned and in range; it carries the status that its target gives at issue, except that a target in
a die that is down also counts as dropped. `ROWC` reads its 32-byte command from SRAM and starts a transfer that
carries it to the engine at the package address, when the command and its target are in order and the tile owns slots
of the engine's port (and of its drop, where the engine lies off its die). Seventeenth transfers wait, and so does
every transfer's bundle: with 16 outstanding nothing changes. -/
def Obligations.TransfersAndRowCommandsStart : Prop :=
 (∀ (t : TileId) (o : LsOp) (s : State), s.issues t = true →
    let u := s.tile t
    let n := o.n.toNat + 1
    let sram := u.sramAddr o.a o.imm
    let xb := (u.xr o.b.toNat).toNat
    let own := nearBase (s.logical t) + xb
    let pkg := u.pkgAddr o.b
    u.live.length < 16 → sram % 32 = 0 → sram + 32 * n ≤ sramSize →
      (xb % 32 = 0 → xb + 32 * n ≤ sliceSize → s.pkgStatus t own (32 * n) ≠ stDestDown →
        (let st := s.pkgStatus t own (32 * n)
         Gives (.nmrd t o) s (Started t (newXfer .nmrd sram own n st (sectorsOf own (32 * n)) false 0 0) s) ∧
         Gives (.nmwr t o) s (Started t (newXfer .nmwr sram own n st (sectorsOf own (32 * n)) false 0 0) s))) ∧
      (o.b.toNat % 2 = 0 → pkg % 32 = 0 → s.pkgStatus t pkg (32 * n) ≠ stDestDown →
        (let st := s.pkgStatus t pkg (32 * n)
         let todo := s.accessSectors pkg (32 * n)
         let i := if offDie t pkg then 1 else 0
         let j := if offDie t pkg then 1 + n else 0
         let full (k : Nat) := if st = 0 ∧ mayInject s t k = false then stNoSlot else st
         Gives (.xrd t o) s (Started t (newXfer .xrd sram pkg n (full i) todo false i 0) s) ∧
         Gives (.xwr t o) s (Started t (newXfer .xwr sram pkg n (full j) todo false j 0) s))) ∧
      ((xb / 2 ^ 21 < 0x600 → xb % 32 = 0 ∧ xb % 2 ^ 21 + 32 * n ≤ sramSize) → s.nsndStatus t xb n ≠ stDestDown →
        (let st := s.nsndStatus t xb n
         let i := if xb / 2 ^ 21 < 0x600 ∧ xb / 2 ^ 21 / 128 = t / 144 then 0 else 1 + n
         let full := if st = 0 ∧ mayInject s t i = false then stNoSlot else st
         Gives (.nsnd t o) s (Started t (newXfer .nsnd sram xb n full [] true i 0) s)))) ∧
 (∀ (t : TileId) (o : LsOp) (s : State), s.issues t = true →
    let u := s.tile t
    let sram := u.sramAddr o.a o.imm
    let pkg := u.pkgAddr o.b
    let bytes := (List.range 32).map (fun j => s.dataByte (s.sramAt t sram + j))
    let i := if offDie t pkg then 2 else 0
    u.live.length < 16 → sram % 32 = 0 → sram + 32 ≤ sramSize → o.b.toNat % 2 = 0 → pkg % 32 = 0 →
    Clean s (s.sramAt t sram) 32 → s.rowStatus bytes (some pkg) = stOk → (s.portOf pkg).any (fun p => s.ownsSlot t p) = true →
    mayInject s t i = true →
      Gives (.rowc t o) s (Started t (newXfer .rowc sram pkg 1 0 [pkg] false i (leNat bytes)) s)) ∧
 (∀ (t : TileId) (o : LsOp) (s : State), s.issues t = true → 16 ≤ (s.tile t).live.length →
    ∀ c l, (c, l) ∈ [(Instr.nmrd t o, lopNMRD), (.nmwr t o, lopNMWR), (.xrd t o, lopXRD), (.xwr t o, lopXWR),
      (.nsnd t o, lopNSND), (.rowc t o, lopROWC)] → (s.tile t).lsTrap l o = none → exec c s = .next s)

/-- A transfer with nothing left to do completes: it leaves the list, the first failure since `FAULT` was cleared is
recorded and a damaged sector sets `UE`; of one that a reset has left behind nothing is recorded, and the end of an
attention output is kept for the sequencer. One with something left is lost with status LOST. `FENCE.T` goes on at once
when few enough transfers are outstanding and none has failed, and waits while more are; its release ends the wait.
With `XSTAT.FAULT` 1 both raise the transfer-fault trap with `XSTAT` in `mtval`. -/
def Obligations.TransfersCompleteAndFencesWait : Prop :=
 (∀ (t : TileId) (k : Fin 16) (s : State) (x : Xfer), (s.tile t).nth k = some x →
    let u := s.tile t
    let own := x.sent.isNone
    let retired (st : Nat) : Tile := { u with
      xfers := u.xfers.filter (fun y => y.id != x.id), ue := u.ue || (x.ue && own),
      fault := u.fault || (decide (st ≠ 0) && own),
      xstatus := if u.fault = false ∧ st ≠ 0 ∧ own = true then st else u.xstatus,
      outEnded := u.outEnded ++ (x.out.map (fun o => (o, st))).toList }
    let left : Bool := x.waits || x.inject != 0 || !x.todo.isEmpty
    (left = false → Gives (.transferComplete t k) s (fun s' => OnlyTile t s s' ∧ s'.tile t = retired x.status)) ∧
    (left = true → (own || x.out.isSome) = true → Gives (.transferLost t k) s (fun s' => OnlyTile t s s' ∧ s'.tile t = retired 5))) ∧
 (∀ (t : TileId) (imm : BitVec 5) (s : State),
    let u := s.tile t
    (s.issues t = true →
      (u.live.length ≤ imm.toNat → u.fault = false → Gives (.fenceT t imm) s (fun s' =>
        OnlyTile t s s' ∧ s'.tile t = { u with minstret := u.minstret + 1 })) ∧
      (imm.toNat < u.live.length → Gives (.fenceT t imm) s (fun s' =>
        OnlyTile t s s' ∧ s'.tile t = { u with fenceWait := some imm.toNat })) ∧
      (u.live.length ≤ imm.toNat → u.fault = true → u.intrap = false →
        Gives (.fenceT t imm) s (TrapTaken t causeTransferFault u.xstat s))) ∧
    (∀ n, u.fenceWait = some n →
      (u.live.length ≤ n → u.fault = false → Gives (.fenceTRelease t) s (fun s' =>
        OnlyTile t s s' ∧ s'.tile t = { u with fenceWait := none })) ∧
      (u.live.length ≤ n → u.fault = true → u.intrap = false →
        Gives (.fenceTRelease t) s (fun s' => ∃ r : State, OnlyTile t s r ∧ r.tile t = { u with fenceWait := none } ∧
          TrapTaken t causeTransferFault u.xstat r s'))))

/-! ## The tree array (03 R55 to R71, R82 to R84, 04 R99) -/

namespace Sys2Proof.Say

/-- The integers of an operand of class I or B held as one little-endian number; none for a floating format. -/
def opInts (f k : Nat) (sel : Bool) (n : Nat) : List Int :=
  if f = fmtBin then (List.range k).map (fun i => ((n / 2 ^ i % 2 : Nat) : Int))
  else if f ≤ 1 then intElems f k sel n else []

/-- The values of an operand of class F or H with its scales; none for an integer format. -/
def opFloats (f k : Nat) (sel : Bool) (n : Nat) (scale : Nat → Nat) : List FV :=
  if f ≤ 1 ∨ f = fmtBin then [] else floatElems f k sel n scale

/-- The array takes an operation into flight whose lane l gives `lane` of the input at SRAM offset `a` (with scales at
`sc`) and row l of the plane. -/
def ArrayIssued (t : Nat) (o : ArrOp) (comb : ArrCombine) (sc : Nat)
    (lane : List Int → List Int → List FV → List FV → Partial) (s s' : State) : Prop :=
  let u := s.tile t
  let fx := o.fmtx.toNat
  let fw := o.fmtw.toNat
  let k := arrK fx fw
  let p := o.plane.toNat
  let x := dataNat s (s.sramAt t (u.xr o.rs1.toNat).toNat) 64
  OnlyTile t s s' ∧ ∃ f : ArrFlight, s'.tile t = { u with idle := 0, flight := u.flight ++ [f] } ∧
    f.q = o.q.toNat ∧ f.cls = (fmtClass fx).getD .i ∧ f.comb = comb ∧ f.ow = o.ow ∧ f.lanes.length = 64 ∧
    ∀ l < 64, f.lanes[l]? = some (lane (opInts fx k o.selx x) (opInts fw k o.selw (u.planeRow p l))
      (opFloats fx k o.selx x (fun b => (s.dataByte (s.sramAt t sc + b)).toNat))
      (opFloats fw k o.selw (u.planeRow p l) (fun b => (u.planeByte p (4096 + 4 * l + b)).toNat)))

end Sys2Proof.Say

/-- `AMAC` and `ADIST` put the dot products, or the distances that `FN` names, of the input with each row of the plane
into flight: legal operands, aligned input without damaged sectors, lanes ON, nothing held back, and for `ADIST` its
licence. For INT8 operands the dot product of a lane is the sum of the 64 products of signed bytes; L1 sums the
distances, L2SQ their squares, MAXP and MINP take the extreme sum; HAM counts the bits that differ. -/
def Obligations.ArrayOperationsIssue : Prop :=
 (∀ (t : TileId) (o : ArrOp) (s : State), s.issues t = true →
    let u := s.tile t
    let fx := o.fmtx.toNat
    let cls := (fmtClass fx).getD .i
    let a := (u.xr o.rs1.toNat).toNat
    let b := (u.xr o.rs2.toNat).toNat
    a % 64 = 0 → a + 64 ≤ sramSize → Clean s (s.sramAt t a) 64 → s.arrState t = rampOn → u.arrHeld o cls = false →
    (amacIllegal o = false → (fmtScaled fx = true → b % 4 = 0 ∧ b + scaleBytes fx ≤ sramSize ∧
        Clean s (s.sramAt t b) (scaleBytes fx)) →
      Gives (.amac t o) s (ArrayIssued t o (if fx ≤ 1 then .addInt else .addFloat) b (dotLane cls) s)) ∧
    (s.adistIllegal o = false →
      Gives (.adist t o) s (ArrayIssued t o (distCombine o.fn.toNat cls) b (distLane o.fn.toNat cls) s))) ∧
 (∀ (x w : Nat) (sel : Bool),
    let xs (i : Nat) : Int := twos 8 (x / 256 ^ i)
    let ws (i : Nat) : Int := twos 8 (w / 256 ^ i)
    let ex := opInts fmtInt8 64 false x
    let ew := opInts fmtInt8 64 false w
    dotLane .i ex ew [] [] = .int (∑ i ∈ Finset.range 64, xs i * ws i) ∧
    distLane 0 .i ex ew [] [] = .int (∑ i ∈ Finset.range 64, |xs i - ws i|) ∧
    distLane 1 .i ex ew [] [] = .int (∑ i ∈ Finset.range 64, (xs i - ws i) ^ 2) ∧
    (∃ m, distLane 3 .i ex ew [] [] = .int m ∧ (∀ i < 64, xs i + ws i ≤ m) ∧ ∃ i < 64, xs i + ws i = m) ∧
    (∃ m, distLane 4 .i ex ew [] [] = .int m ∧ (∀ i < 64, m ≤ xs i + ws i) ∧ ∃ i < 64, xs i + ws i = m) ∧
    distLane 2 .b (opInts fmtBin 512 sel x) (opInts fmtBin 512 sel w) [] [] =
      .int (((List.range 512).countP (fun i => x.testBit i != w.testBit i) : Nat) : Int))

/-- The oldest operation in flight writes Aq of every lane: an integer sum is added to Aq (to zero with `OW` 1), saturated,
and `INT_SAT` set where it saturates; an `ACOOL` that waited for the last operation begins its ramp-down. -/
def Obligations.ArrayResultsAreWritten : Prop :=
  (∀ (t : TileId) (s : State) (f : ArrFlight) (rest : List ArrFlight), (s.tile t).flight = f :: rest →
    let u := s.tile t
    let r (l : Nat) := combineLane f.comb f.ow (f.lanes.getD l (.int 0)) (u.accum f.q l)
    let ends := rest.isEmpty && u.cool && s.arrState t == rampOn
    Gives (.arrayResultWrite t) s (fun s' =>
      let w := s'.tile t
      (∀ l < 64, w.accum f.q l = (r l).1) ∧ (∀ q l, q ≠ f.q → l < 64 → w.accum q l = u.accum q l) ∧
      (∀ b, w.astat.testBit b = (u.astat.testBit b || (List.range 64).any (fun l => (r l).2.testBit b))) ∧
      w = { u with
        acc := w.acc, astat := w.astat, flight := rest, cool := if ends then false else u.cool,
        interval := if ends then s.rampInterval t else u.interval, switched := if ends then 1 else u.switched } ∧
      s'.arrState t = (if ends then rampDown else s.arrState t) ∧ s'.arrGroups t = (if ends then 7 else s.arrGroups t) ∧
      OnlyTileRegs t [(pgTile t, TILE_ARR_STAT.STATE), (pgTile t, TILE_ARR_STAT.GROUPS)] s s')) ∧
  (∀ (ow : Bool) (v : Int) (aq : Word),
    let sum := (if ow then 0 else aq.toInt) + v
    let r := combineLane .addInt ow (.int v) aq
    r.1.toInt = max (-2 ^ 31) (min (2 ^ 31 - 1) sum) ∧ (r.2 = 1 ↔ sum < -2 ^ 31 ∨ 2 ^ 31 - 1 < sum) ∧ (r.2 = 1 ∨ r.2 = 0))

/-- `APLD` starts a load of a plane, from SRAM with its whole image, from the slice with 64 units still to be read, or with the
68 that 34 slots of both bank groups bring when it carries the scale image, where the tile has slots of both; with `SC` 1
the scale image comes from SRAM (assumption log 8). A finished load gives the plane its image, and the scale image where it
carries one; the rest of the planes stays. The activity ramp: `AWARM` starts or reverses it, or resets the idle count;
`ACOOL` starts it down, at once when no operation is in flight, or reverses it; each interval switches one lane group
and the last one ends the ramp; an idle count that reaches its limit starts it down. `GROUPS` is a field of four bits.
-/
def Obligations.PlanesAreLoadedAndTheRampMoves : Prop :=
 ((∀ (t : TileId) (o : PlaneOp) (s : State), s.issues t = true →
    let u := s.tile t
    let a := (u.xr o.rs1.toNat).toNat
    let b := (u.xr o.rs2.toNat).toNat
    a % 4096 = 0 → a + 4096 ≤ (if o.src then sliceSize else sramSize) →
    (o.src = false → Clean s (s.sramAt t a) 4096) → (o.src = true → s.holdsSlice t = true) →
    (o.sc = true → b % 256 = 0 ∧ b + 256 ≤ sramSize ∧ Clean s (s.sramAt t b) 256) →
      Gives (.apld t o) s (fun s' => OnlyTile t s s' ∧ ∃ l : PlaneLoad,
        s'.tile t = { u with nextId := u.nextId + 1, loads := u.loads ++ [l] } ∧
        l = { l with
          id := u.nextId, plane := o.plane.toNat, src := o.src, sc := o.sc, base := a, scale := b,
          todo := if o.src then List.range (if o.sc then 68 else 64) else [], damaged := false, rope := u.trope } ∧
        (∀ i < 4096, mapGet 0 l.data i = if o.src then 0 else s.dataByte (s.sramAt t a + i)) ∧
        (∀ i < 256, mapGet 0 l.data (4096 + i) = if o.sc then s.dataByte (s.sramAt t b + i) else 0) ∧
        (∀ e ∈ l.data, e.1 < if o.sc then 4352 else 4096))) ∧
  (∀ (t : TileId) (p : Fin 2) (s : State) (l : PlaneLoad),
    let u := s.tile t
    let n := if l.sc then 4352 else 4096
    u.loads.find? (fun m => m.plane == p.val && m.todo.isEmpty) = some l → (∀ e ∈ l.data, e.1 < n) →
      Gives (.apldComplete t p) s (fun s' => OnlyTile t s s' ∧
        s'.tile t = { u with planes := (s'.tile t).planes, loads := u.loads.filter (fun m => m.id != l.id) } ∧
        (∀ i < n, (s'.tile t).planeByte p i = mapGet 0 l.data i) ∧
        (∀ i, n ≤ i → i < 4352 → (s'.tile t).planeByte p i = u.planeByte p i) ∧
        (∀ q i, q ≠ p.val → q < 2 → i < 4352 → (s'.tile t).planeByte q i = u.planeByte q i)))) ∧
 (∀ (t : TileId) (s : State),
    let u := s.tile t
    let st := s.arrState t
    let g := s.arrGroups t
    let is (s' : State) (st' g' : Nat) (w : Tile) : Prop :=
      s'.arrState t = st' ∧ s'.arrGroups t = g' ∧ s'.tile t = w ∧
      OnlyTileRegs t [(pgTile t, TILE_ARR_STAT.STATE), (pgTile t, TILE_ARR_STAT.GROUPS)] s s'
    let begun (w : Tile) : Tile := { w with interval := 2 + s.get (pgTile t) TILE_ARR_CFG.RAMP, switched := 1 }
    (s.issues t = true →
      (st = rampOff → Gives (.awarm t) s (fun s' => is s' rampUp 1 (begun u))) ∧
      (st = rampOn → Gives (.awarm t) s (fun s' => is s' rampOn g { u with idle := 0 })) ∧
      (st = rampDown → Gives (.awarm t) s (fun s' => is s' rampUp (min 8 (g + 1)) { u with switched := 1 })) ∧
      (st = rampUp → Gives (.awarm t) s (fun s' => s' = s)) ∧
      (st = rampUp → Gives (.acool t) s (fun s' => is s' rampDown ((g - 1) % 16) { u with switched := 1 })) ∧
      (st = rampOn → u.flight = [] → Gives (.acool t) s (fun s' => is s' rampDown 7 (begun { u with cool := false }))) ∧
      (st = rampOn → u.flight ≠ [] → Gives (.acool t) s (fun s' => is s' rampOn g { u with cool := true })) ∧
      (st = rampOff ∨ st = rampDown → Gives (.acool t) s (fun s' => s' = s))) ∧
    (st = rampUp → g < 8 → Gives (.rampStep t) s (fun s' => is s' rampUp (g + 1) { u with switched := u.switched + 1 })) ∧
    (st = rampUp → 8 ≤ g → Gives (.rampStep t) s (fun s' => is s' rampOn 8 { u with idle := 0, switched := 0 })) ∧
    (st = rampDown → 0 < g → Gives (.rampStep t) s (fun s' => is s' rampDown ((g - 1) % 16) { u with switched := u.switched + 1 })) ∧
    (st = rampDown → g = 0 → Gives (.rampStep t) s (fun s' => is s' rampOff 0 { u with switched := 0 })) ∧
    (st = rampOn → s.get (pgTile t) TILE_ARR_CFG.IDLE ≠ 0 → u.flight = [] →
      Gives (.arrayIdleTimeout t) s (fun s' =>
        is s' rampDown 7 (begun { u with idle := 8 * s.get (pgTile t) TILE_ARR_CFG.IDLE, cool := false }))))

/-! ## The control core (04 R88 to R94, R101 to R105) -/

/-- `BNDL` links and jumps into bundle mode, `SCLR` into scalar mode, `MRET` returns to `mepc` in the mode that `PBM`
names and clears `INTRAP` (its effect on `mstatus` is the model's choice, assumption log 69); each counts in `minstret`
(assumption log 15); x0 stays zero. A bundle-mode target that is not a multiple of 16 traps with the target in
`mtval`. In scalar mode the core runs the instruction stored at its address: of the 32-bit forms, register and
immediate arithmetic, `LUI`, branches, loads of words from SRAM and stores of words to the scratch. -/
def Obligations.ModeSwitchesAndScalarInstructions : Prop :=
 (∀ (t : TileId) (rd rs1 : BitVec 5) (imm : BitVec 12) (s : State), s.issues t = true →
    let u := s.tile t
    let target := (u.xr rs1.toNat + imm.signExtend 32).toNat
    let back := (u.csrGet csrMepc).toNat
    let linked (s' : State) (link : Nat) (pc : Nat) (b : Bool) : Prop :=
      OnlyTile t s s' ∧
      s'.tile t = { u with x := (s'.tile t).x, pc := pc, bmode := b, minstret := u.minstret + 1 } ∧
      (∀ r < 32, (s'.tile t).xr r = if r = 0 then 0 else if r = rd.toNat then BitVec.ofNat 32 link else u.xr r)
    (target % 16 = 0 →
      Gives (.bndl t rd rs1 imm) s (fun s' => linked s' (u.pc + if u.bmode then 16 else 4) target true)) ∧
    Gives (.sclr t rd rs1 imm) s (fun s' => linked s' (u.pc + 16) (2 * (target / 2)) false) ∧
    ((u.pbm = true → back % 16 = 0) →
      Gives (.mret t) s (fun s' => OnlyTile t s s' ∧
        s'.tile t = { u with
          pc := back, bmode := u.pbm, intrap := false, csr := (s'.tile t).csr, minstret := u.minstret + 1 } ∧
        (s'.tile t).csrGet csrMstatus = mretStatus (u.csrGet csrMstatus) ∧
        ∀ c, c ≠ csrMstatus → (s'.tile t).csrGet c = u.csrGet c)) ∧
    (target % 16 ≠ 0 → u.intrap = false →
      Gives (.bndl t rd rs1 imm) s (TrapTaken t causeInstrMisaligned (BitVec.ofNat 32 target) s))) ∧
 (∀ (t : TileId) (s : State) (w : Nat), s.issues t = true → (s.tile t).bmode = false →
    let u := s.tile t
    let c := Instr.scalarInstruction t
    let a := u.xr (bits w 19 15)
    let b := u.xr (bits w 24 20)
    let runs (s' : State) (pc rd : Nat) (v : Word) : Prop :=
      OnlyTile t s s' ∧ s'.tile t = { u with x := (s'.tile t).x, pc := pc, minstret := u.minstret + 1 } ∧
      (∀ r < 32, (s'.tile t).xr r = if r = 0 then 0 else if r = rd then v else u.xr r)
    u.pc + 4 ≤ sramSize → Clean s (s.sramAt t u.pc) 4 → dataNat s (s.sramAt t u.pc) 4 = w →
      (w % 128 = 0x13 → bits w 14 12 ∉ [1, 5] →
        Gives c s (fun s' => runs s' (u.pc + 4) (bits w 11 7) (aluOp (bits w 14 12) false a (immI w)))) ∧
      (w % 128 = 0x33 → bits w 31 25 = 0 →
        Gives c s (fun s' => runs s' (u.pc + 4) (bits w 11 7) (aluOp (bits w 14 12) false a b))) ∧
      (w % 128 = 0x33 → bits w 31 25 = 1 →
        Gives c s (fun s' => runs s' (u.pc + 4) (bits w 11 7) (mulOp (bits w 14 12) a b))) ∧
      (w % 128 = 0x37 → Gives c s (fun s' => runs s' (u.pc + 4) (bits w 11 7) (BitVec.ofNat 32 (w / 4096 * 4096)))) ∧
      (w % 128 = 0x63 → ∀ taken, branchTaken (bits w 14 12) a b = some taken →
        Gives c s (fun s' => runs s' (if taken then (BitVec.ofNat 32 u.pc + immB w).toNat / 2 * 2 else u.pc + 4) 0 0)) ∧
      (w % 128 = 0x03 → bits w 14 12 = 2 → (a + immI w).toNat % 4 = 0 → (a + immI w).toNat + 4 ≤ sramSize →
        Clean s (s.sramAt t (a + immI w).toNat) 4 →
        Gives c s (fun s' => runs s' (u.pc + 4) (bits w 11 7)
          (BitVec.ofNat 32 (dataNat s (s.sramAt t (a + immI w).toNat) 4)))) ∧
      (w % 128 = 0x23 → bits w 14 12 = 2 → (a + immS w).toNat % 4 = 0 → 0x200000 ≤ (a + immS w).toNat →
        (a + immS w).toNat + 4 ≤ 0x202000 →
        Gives c s (fun s' => OnlyTile t s s' ∧
          (∀ i < 0x2000, memByte (s'.tile t).scratch i =
            if (a + immS w).toNat - 0x200000 ≤ i ∧ i < (a + immS w).toNat - 0x200000 + 4 then
              (BitVec.ofNat 8 (b.toNat / 256 ^ (i - ((a + immS w).toNat - 0x200000))))
            else memByte u.scratch i) ∧
          s'.tile t = { u with
            scratch := (s'.tile t).scratch, scratchBad := (s'.tile t).scratchBad, pc := u.pc + 4,
            minstret := u.minstret + 1 })))

/-- In bundle mode the four slots of the bundle stored at the core's address act on the operands from before it: an
`ADDI` beside a `VADD` that takes x[VB]. When one slot traps, none takes effect. `START` while `RUN` is 0 or 2, on a
tile that is on, starts the core at `TILE_ENTRY`; in any other state it is ignored. `HALT` while `RUN` is 1 stops
issue; once nothing is in flight `TILE_PC` records the next address and `RUN` becomes 2. -/
def Obligations.BundlesIssueAndTilesStart : Prop :=
 (∀ (t : TileId) (s : State) (w v : Nat), s.issues t = true → (s.tile t).bmode = true →
    let u := s.tile t
    let base := s.sramAt t u.pc
    u.pc % 16 = 0 → u.pc + 16 ≤ sramSize → Clean s base 16 →
      (dataNat s base 4 = w → w % 128 = 0x13 → bits w 14 12 = 0 → dataNat s (base + 4) 4 = 0 → dataNat s (base + 8) 4 = 0 →
        dataNat s (base + 12) 4 = v → bits v 31 26 = 0x01 → bit v 1 = true → bit v 0 = false → bit v 5 = false →
        Gives (.bundleIssue t) s (fun s' => OnlyTile t s s' ∧
          (∀ r < 32, (s'.tile t).xr r =
            if r = 0 then 0 else if r = bits w 11 7 then u.xr (bits w 19 15) + immI w else u.xr r) ∧
          (∀ l < 64, (s'.tile t).vec (bits v 25 21) l = (laneAdd (u.vec (bits v 20 16) l) (u.xr (bits v 15 11))).1) ∧
          (∀ q l, q ≠ bits v 25 21 → l < 64 → (s'.tile t).vec q l = u.vec q l) ∧
          s'.tile t = { u with
            x := (s'.tile t).x, v := (s'.tile t).v, astat := (s'.tile t).astat, pc := u.pc + 16,
            minstret := u.minstret + 1 })) ∧
      (∀ cause mtval, u.intrap = false → w = dataNat s base 4 → w % 4 = 3 →
        bundleTraps s u (s.ctl t u w 16 w) [lsOfWord (dataNat s (base + 4) 4), arrOfWord (dataNat s (base + 8) 4),
          vecOfWord (dataNat s (base + 12) 4)] = [(cause, mtval)] → cause < 256 → cause ≠ causeScratchParity →
        Gives (.bundleIssue t) s (TrapTaken t cause mtval s))) ∧
 (∀ (t : TileId) (s : State),
    let u := s.tile t
    let p := pgTile t
    (s.get p PAGE_PWR.STATE = 0 → s.tileRun t = 0 ∨ s.tileRun t = 2 →
      Gives (.tileStart t) s (fun s' => s'.tileRun t = 1 ∧ OnlyTileRegs t [(p, TILE_STAT.RUN)] s s' ∧
        s'.tile t = { u with
          pc := 16 * s.get p TILE_ENTRY.ADDR, bmode := s.get p TILE_ENTRY.BMODE == 1, fenceWait := none, halting := false })) ∧
    (s.tileRun t ≠ 0 → s.tileRun t ≠ 2 → exec (.tileStart t) s = .next s) ∧
    (s.tileRun t = 1 → Gives (.tileHalt t) s (fun s' => OnlyTile t s s' ∧ s'.tile t = { u with halting := true } ∧
      s'.issues t = false)) ∧
    (s.tileRun t ≠ 1 → exec (.tileHalt t) s = .next s) ∧
    (u.halting = true → u.live = [] → u.flight = [] → u.loads = [] →
      Gives (.tileHaltDone t) s (fun s' => s'.get p TILE_PC.PC = u.pc % 2 ^ 21 ∧ s'.tileRun t = 2 ∧
        OnlyTileRegs t [(p, TILE_PC.PC), (p, TILE_STAT.RUN)] s s' ∧
        s'.tile t = { u with halting := false, fenceWait := none })))

/-! ## Register pages (02) -/

namespace Sys2Proof.Say

/-- The package address of a register (02 R27). -/
def regAddr (p : PageRef) (off : Nat) : Addr := BitVec.ofNat 48 (regBase + pageKey p + off)

/-- Of what can wait for a domain or for another access, only tile transfers do: no packet, host request, runtime access or
attention command is held, no `ACCEPT` is under way, no ended output waits to be told, and no transfer meets a domain that
refuses it. -/
def OnlyTransfersWait (s : State) : Prop :=
  s.net.parked = [] ∧ s.bridge.accs = [] ∧ s.bridge.hostReqs = [] ∧ s.attn.cmds = [] ∧ s.attn.accepts = [] ∧
  ∀ e ∈ s.tiles, e.2.outEnded = [] ∧ ∀ x ∈ e.2.xfers, s.xferRefused x = false

/-- Nothing waits at all: no soft reset is held back either, and no transfer has a sector to move. -/
def NothingWaits (s : State) : Prop :=
  s.softWait = [] ∧ OnlyTransfersWait s ∧ ∀ e ∈ s.tiles, ∀ x ∈ e.2.xfers, x.todo = []

end Sys2Proof.Say

/-- A register write sets RW fields, sets RWL fields while the page is unlocked, is ignored in locked RWL fields (with
`LOCK_HIT` where it would have changed one) and in RO fields; shown on `TILE_ENTRY`, `TILE_ARR_CFG` and `TILE_STAT` of
every tile page that answers and whose block is not hidden. The two halves of a pair take effect together when the
same requester writes `_HI`; shown on `ARB_CAL_ADDR`. A read of the `_LO` half of an RO pair latches the `_HI` half
for its requester: that requester's next read of `_HI` returns the latched half, whatever the counter has become, and
the read after it the current one; other requesters' latches stay. Shown on the neighbour's device number on the
fabric ports' pages. -/
def Obligations.RegistersAreWrittenAndReadInPairs : Prop :=
 ((∀ (r : Requester) (t : TileId) (v : Word) (s : State), NothingWaits s →
    let p := pgTile t
    let wr (off : Nat) := Instr.registerWrite r (regAddr p off) v
    s.pageStatus p = stOk → s.blockHidden p .tile t = false →
      Gives (wr 0x044) s (fun s' => OnlyRegs [(p, TILE_ENTRY.ADDR), (p, TILE_ENTRY.BMODE)] s s' ∧
        s'.get p TILE_ENTRY.ADDR = bits v.toNat 20 4 ∧ s'.get p TILE_ENTRY.BMODE = bits v.toNat 0 0) ∧
      (s.flag p PAGE_CTRL.LOCK = false → Gives (wr 0x100) s (fun s' =>
        OnlyRegs [(p, TILE_ARR_CFG.IDLE), (p, TILE_ARR_CFG.RAMP)] s s' ∧
        s'.get p TILE_ARR_CFG.IDLE = bits v.toNat 15 8 ∧ s'.get p TILE_ARR_CFG.RAMP = bits v.toNat 2 0)) ∧
      (s.flag p PAGE_CTRL.LOCK = true → Gives (wr 0x100) s (fun s' =>
        OnlyRegs [(p, TILE_ARR_CFG.IDLE), (p, PAGE_STAT.LOCK_HIT)] s s' ∧
        s'.get p TILE_ARR_CFG.IDLE = bits v.toNat 15 8 ∧
        s'.get p PAGE_STAT.LOCK_HIT =
          if s.get p TILE_ARR_CFG.RAMP = bits v.toNat 2 0 then s.get p PAGE_STAT.LOCK_HIT else 1)) ∧
      exec (wr 0x048) s = .next s) ∧
  (∀ (r q : Requester) (a : ArbId) (lo hi : Word) (s : State), NothingWaits s →
    let p := pgArb a
    let w (x : Requester) (off : Nat) (v : Word) := Instr.registerWrite x (regAddr p off) v
    s.pageStatus p = stOk → s.blockHidden p .arb a = false →
      Gives (w r 0x080 lo) s (fun s1 => s1 = { s with staged := s1.staged } ∧
        Gives (w r 0x084 hi) s1 (fun s2 => s2 = { s with staged := s2.staged, regs := s2.regs } ∧
          RegsBut [(p, ARB_CAL_ADDR_LO.ADDR), (p, ARB_CAL_ADDR_HI.ADDR)] s s2 ∧
          s2.get p ARB_CAL_ADDR_LO.ADDR = bits lo.toNat 31 5 ∧ s2.get p ARB_CAL_ADDR_HI.ADDR = bits hi.toNat 15 0) ∧
        (q ≠ r → mapGet 0 s.staged (pairKey p 0x080 (requesterNumber q)) = 0 →
          Gives (w q 0x084 hi) s1 (fun s2 => RegsBut [(p, ARB_CAL_ADDR_HI.ADDR)] s s2 ∧
            s2.get p ARB_CAL_ADDR_HI.ADDR = bits hi.toNat 15 0))))) ∧
 (∀ (r : Requester) (i : FPort) (s : State),
    let p := pgFprt i
    let who := requesterNumber r
    s.pageStatus p = stOk →
      Gives (.pairLoRead r (regAddr p 0x058)) s (fun s' => s' = { s with latched := s'.latched } ∧
        (∀ k, k ≠ pairKey p 0x05C who → mapGet 0 s'.latched k = mapGet 0 s.latched k) ∧
        ∀ regs, let t : State := { s' with regs := regs }
          (t.readReg who p 0x05C).2 = s.regWord who p 0x05C ∧
          ((t.readReg who p 0x05C).1.readReg who p 0x05C).2 = t.regWord who p 0x05C))

/-- `PAGE_CTRL.LOCK` locks; a page already locked stays so. `PAGE_ERR_ACK` clears the first error with its count and its
captured address, or one of the two counts. Nothing else changes. -/
def Obligations.PageLockAndErrorAcknowledge : Prop :=
  ∀ (p : PageRef) (s : State), s.pageStatus p = stOk →
    let first : Fields := [(p, PAGE_ERR_FIRST.VALID), (p, PAGE_ERR_FIRST.CODE), (p, PAGE_ERR_FIRST.SYNDROME),
      (p, PAGE_ERR_NEXT.COUNT)]
    let addr : Fields := match pageAt p with
      | some (.nmem, _) => [(p, NMEM_ERR_ADDR_LO.ADDR), (p, NMEM_ERR_ADDR_HI.ADDR), (p, NMEM_ERR_ADDR_HI.SRC)]
      | some (.emc, _) => [(p, EMC_ERR_ADDR_LO.ADDR), (p, EMC_ERR_ADDR_HI.ADDR), (p, EMC_ERR_ADDR_HI.SRC)]
      | _ => []
    (s.flag p PAGE_CTRL.LOCK = false →
      Gives (.pageLock p) s (fun s' => s'.flag p PAGE_CTRL.LOCK = true ∧ OnlyRegs [(p, PAGE_CTRL.LOCK)] s s')) ∧
    (s.flag p PAGE_CTRL.LOCK = true → exec (.pageLock p) s = .next s) ∧
    Gives (.errAckFirst p) s (fun s' => OnlyRegs (first ++ addr) s s' ∧ ∀ e ∈ first ++ addr, s'.get e.1 e.2 = 0) ∧
    Gives (.errAckClrC p) s (fun s' =>
      s'.get p PAGE_ERR_CNT_C.COUNT = 0 ∧ OnlyRegs [(p, PAGE_ERR_CNT_C.COUNT)] s s') ∧
    Gives (.errAckClrU p) s (fun s' =>
      s'.get p PAGE_ERR_CNT_U.COUNT = 0 ∧ OnlyRegs [(p, PAGE_ERR_CNT_U.COUNT)] s s')

/-! ## Errors and the log (02 R46, 13) -/

/-- R46. Every error counts in `PAGE_ERR_CNT_C` or `PAGE_ERR_CNT_U` of its page (up to their end); while `VALID` is 0 it is
captured, while it is 1 it only raises `PAGE_ERR_NEXT`. -/
def Obligations.ErrorsAreCountedAndTheFirstCaptured : Prop :=
  ∀ (s : State) (p : PageRef) (k : ErrKind) (code syn addr src : Nat), code < 256 → syn < 65536 →
    let s' := s.report p k code syn addr src
    let up (n : Nat) : Nat := min (n + 1) (2 ^ 32 - 1)
    (k = .c → s'.get p PAGE_ERR_CNT_C.COUNT = up (s.get p PAGE_ERR_CNT_C.COUNT) ∧
      s'.get p PAGE_ERR_CNT_U.COUNT = s.get p PAGE_ERR_CNT_U.COUNT) ∧
    (k = .u → s'.get p PAGE_ERR_CNT_U.COUNT = up (s.get p PAGE_ERR_CNT_U.COUNT) ∧
      s'.get p PAGE_ERR_CNT_C.COUNT = s.get p PAGE_ERR_CNT_C.COUNT) ∧
    (s.get p PAGE_ERR_FIRST.VALID = 0 → s'.get p PAGE_ERR_FIRST.VALID = 1 ∧ s'.get p PAGE_ERR_FIRST.CODE = code ∧
      s'.get p PAGE_ERR_FIRST.SYNDROME = syn ∧ s'.get p PAGE_ERR_NEXT.COUNT = s.get p PAGE_ERR_NEXT.COUNT) ∧
    (s.get p PAGE_ERR_FIRST.VALID = 1 → s'.get p PAGE_ERR_FIRST.VALID = 1 ∧
      s'.get p PAGE_ERR_FIRST.CODE = s.get p PAGE_ERR_FIRST.CODE ∧
      s'.get p PAGE_ERR_FIRST.SYNDROME = s.get p PAGE_ERR_FIRST.SYNDROME ∧
      s'.get p PAGE_ERR_NEXT.COUNT = up (s.get p PAGE_ERR_NEXT.COUNT)) ∧
    s' = { s with regs := s'.regs, log := s'.log } ∧ RegsBut (errFields p) s s'

/-- Records that waited on a die enter the log in order when its path is back, numbered on, with its loss count added, and
the lost ones use up the numbers behind them;
`MGMT_LOG_SEL` captures a ring place for its requester alone; `MGMT_LOG_TAIL` moves forward up to the head and never
back; the two clears clear their counter. The management core restarts in the main image: the restart counts, the thermal
model stops, every layer refreshes as without a model, and the error is counted; a second restart within 10 s also asks for a
package reset with cause 4. In the boot stage it counts and goes on at once (the model's own choice, assumption log 44). When
it is done the main image runs with the model if the image of the active copy is good, and else asks for a package reset with
cause 4. A step that meets an item of B0's control
state damaged in one copy reports MEM_CE on the owning page and goes on as with a whole one; an item of the windows or the
bridge damaged in both makes COMMAND_ACCEPT ask for a package reset with cause 5 in place of accepting. -/
def Obligations.LogRecordsAndRestarts : Prop :=
 ((∀ (slot : Byte) (s : State), s.pathDown slot.toNat = false →
    let q := mapGet [] s.log.waiting slot.toNat
    let n := mapGet 0 s.log.lost slot.toNat
    let head := s.get pgMgmt MGMT_LOG_HEAD.COUNT
    let tail := s.get pgMgmt MGMT_LOG_TAIL.COUNT
    head < 65536 → tail < 65536 → q.length + (head + 65536 - tail) % 65536 ≤ 256 →
      Gives (.dieLogFlush slot) s (fun s' => s' = { s with regs := s'.regs, log := s'.log } ∧
        RegsBut [(pgMgmt, MGMT_LOG_HEAD.COUNT), (pgMgmt, MGMT_LOG_LOST.COUNT)] s s' ∧
        s'.get pgMgmt MGMT_LOG_HEAD.COUNT = (head + q.length) % 65536 ∧
        s'.get pgMgmt MGMT_LOG_LOST.COUNT = min (s.get pgMgmt MGMT_LOG_LOST.COUNT + n) (2 ^ 32 - 1) ∧
        s'.log.seq = s.log.seq + q.length + n ∧
        (∀ i < q.length, mapGet [] s'.log.ring ((head + i) % 256) =
          (q.getD i []).set 0 ((s.log.seq + i) % 2 ^ 32)) ∧
        mapGet [] s'.log.waiting slot.toNat = [] ∧ mapGet 0 s'.log.lost slot.toNat = 0 ∧
        (∀ k, k ≠ slot.toNat → mapGet [] s'.log.waiting k = mapGet [] s.log.waiting k) ∧
        s'.log.captured = s.log.captured)) ∧
  (∀ (r : Requester) (v : Word) (s : State),
    Gives (.mgmtLogSelWrite r v) s (fun s' => s' = { s with regs := s'.regs, log := s'.log } ∧
      RegsBut [(pgMgmt, MGMT_LOG_SEL.COUNT)] s s' ∧ s'.get pgMgmt MGMT_LOG_SEL.COUNT = v.toNat % 65536 ∧
      mapGet [] s'.log.captured (requesterNumber r) = mapGet [] s.log.ring (v.toNat % 256) ∧
      (∀ q, q ≠ r → mapGet [] s'.log.captured (requesterNumber q) = mapGet [] s.log.captured (requesterNumber q)) ∧
      s'.log = { s.log with captured := s'.log.captured })) ∧
  (∀ (v : Word) (s : State),
    let head := s.get pgMgmt MGMT_LOG_HEAD.COUNT
    let tail := s.get pgMgmt MGMT_LOG_TAIL.COUNT
    let ahead (x : Nat) : Nat := (x % 65536 + 65536 - tail) % 65536
    tail < 65536 → head < 65536 →
    (ahead v.toNat ≤ ahead head → Gives (.mgmtLogTailWrite v) s (fun s' =>
      OnlyRegs [(pgMgmt, MGMT_LOG_TAIL.COUNT)] s s' ∧ s'.get pgMgmt MGMT_LOG_TAIL.COUNT = v.toNat % 65536)) ∧
    (ahead head < ahead v.toNat → exec (.mgmtLogTailWrite v) s = .next s)) ∧
  (∀ s : State,
    Gives .mgmtClrTaint s (fun s' =>
      OnlyRegs [(pgMgmt, MGMT_TAINT_DROP.COUNT)] s s' ∧ s'.get pgMgmt MGMT_TAINT_DROP.COUNT = 0) ∧
    Gives .mgmtClrLost s (fun s' =>
      OnlyRegs [(pgMgmt, MGMT_LOG_LOST.COUNT)] s s' ∧ s'.get pgMgmt MGMT_LOG_LOST.COUNT = 0))) ∧
 ((∀ (watchdog within : Bool) (s : State), s.boot.fw = fwMain →
    s.get pgBoot BOOT_STAT.STEP ≠ 8 →
      Gives (.mgmtRestart watchdog within) s (fun s' => s'.boot = { s.boot with fw := fwRestarting } ∧
        s'.get pgMgmt MGMT_RESTARTS.COUNT = min (s.get pgMgmt MGMT_RESTARTS.COUNT + 1) (2 ^ 32 - 1) ∧
        s'.flag pgThrm THRM_STAT.MODEL = false ∧
        (∀ (n : Die) (m : Fin 4), s'.get (pgNmem n m) NMEM_REFR_STAT.NO_MODEL = 15) ∧
        s'.get pgMgmt PAGE_ERR_CNT_U.COUNT =
          min (s.get pgMgmt PAGE_ERR_CNT_U.COUNT + if within then 2 else 1) (2 ^ 32 - 1) ∧
        (within = true → s'.flag pgMgmt MGMT_RSTREQ.REQ = true ∧
          (s.flag pgMgmt MGMT_RSTREQ.REQ = false → s'.get pgMgmt MGMT_RSTREQ.CAUSE = 4)) ∧
        (within = false → s'.get pgMgmt MGMT_RSTREQ.REQ = s.get pgMgmt MGMT_RSTREQ.REQ ∧ s'.out = s.out) ∧
        s'.mem = s.mem ∧ s'.tiles = s.tiles)) ∧
  (∀ (watchdog : Bool) (s : State), s.boot.fw = fwBoot → Gives (.mgmtRestart watchdog false) s (fun s' =>
    s' = { s with regs := s'.regs, log := s'.log } ∧ RegsBut ((pgMgmt, MGMT_RESTARTS.COUNT) :: errFields pgMgmt) s s' ∧
    s'.get pgMgmt MGMT_RESTARTS.COUNT = min (s.get pgMgmt MGMT_RESTARTS.COUNT + 1) (2 ^ 32 - 1))) ∧
  (∀ s : State, s.boot.fw = fwRestarting →
    (imageGood (s.itemOf itMain) 1 = true →
      Gives .mgmtRestartDone s (fun s' => s'.boot = { s.boot with fw := fwMain } ∧ s'.flag pgThrm THRM_STAT.MODEL = true ∧
        (∀ (n : Die) (m : Fin 4), s'.get (pgNmem n m) NMEM_REFR_STAT.NO_MODEL = 0) ∧ s'.mem = s.mem ∧
        s'.tiles = s.tiles)) ∧
    (imageGood (s.itemOf itMain) 1 = false → Gives .mgmtRestartDone s (fun s' => s'.boot = s.boot ∧
      s'.flag pgMgmt MGMT_RSTREQ.REQ = true ∧
      (s.flag pgMgmt MGMT_RSTREQ.REQ = false → s'.get pgMgmt MGMT_RSTREQ.CAUSE = 4))))) ∧
 (∀ (it : B0Item) (s : State),
    (s.boot.damaged = [(it, false)] → ∃ syn addr,
      let whole := { s with boot := { s.boot with damaged := [] }, fresh := s.fresh + 2 }.report (itemPage it) .c 1 syn addr 0
      (∀ r, exec (.calendarSlot r) s = exec (.calendarSlot r) whole) ∧
      (it = .ropes → ∀ c, exec (.ropeOpen c) s = exec (.ropeOpen c) whole) ∧
      (it ≠ .ropes → it ≠ .bringUp → exec .commandAccept s = exec .commandAccept whole)) ∧
    (s.boot.damaged = [(it, true)] → it ≠ .ropes → it ≠ .bringUp → Gives .commandAccept s (fun t =>
      t = s.requestReset 5 ∧ t.flag pgMgmt MGMT_RSTREQ.REQ = true ∧
      (s.flag pgMgmt MGMT_RSTREQ.REQ = false → t.get pgMgmt MGMT_RSTREQ.CAUSE = 5))))

/-- A tile with nothing outstanding is fenced in one update: `RUN` 4, `FENCED` 1, the reason, map state 5 and the two
counts of its die; array results in flight are written first. With transfers that it waits for or plane loads outstanding the
fence waits.
`TILE_ERR_CTL.CLR` clears the two load counts. -/
def Obligations.TilesAreFenced : Prop :=
  ∀ (t : TileId) (c : FenceCause) (s : State),
    let u := s.tile t
    let p := pgTile t
    let m := pgTmap (t / 144)
    let st := TMAP_PHYS.STATE.at (t % 144)
    let reason := if u.fenceDue = 0 then fenceReason c else u.fenceDue
    (s.tmapState t = 0 → (c = .trap → u.fenceDue = 1) → (c = .sramLoad → u.fenceDue = 2) →
      (u.live = [] → u.loads = [] →
        Gives (.tileFence t c) s (fun s' => s'.tileRun t = 4 ∧ s'.flag p PAGE_STAT.FENCED = true ∧
          s'.get p TILE_ERR_STAT.FREASON = reason % 256 ∧ s'.tmapState t = 5 ∧ s'.logicalOf t = s.logicalOf t ∧
          s'.get m TMAP_SUMMARY.ENABLED = (s.get m TMAP_SUMMARY.ENABLED - 1) % 256 ∧
          s'.get m TMAP_SUMMARY.FENCED = (s.get m TMAP_SUMMARY.FENCED + 1) % 256 ∧
          s'.get p TILE_PC.PC = u.pc % 2 ^ 21 ∧
          s'.tile t = { u with acc := (s'.tile t).acc, astat := (s'.tile t).astat, flight := [], fenceDue := 0,
                               halting := false, fenceWait := none } ∧
          (u.flight = [] → (s'.tile t).acc = u.acc ∧ (s'.tile t).astat = u.astat) ∧ TilesBut t s s' ∧
          s' = { s with regs := s'.regs, tiles := s'.tiles, log := s'.log } ∧
          RegsBut (errFields p ++ [(p, TILE_PC.PC), (p, TILE_STAT.RUN), (p, PAGE_STAT.FENCED), (p, TILE_ERR_STAT.FREASON),
            (m, st), (m, TMAP_SUMMARY.ENABLED), (m, TMAP_SUMMARY.FENCED)]) s s')) ∧
      (u.live ≠ [] ∨ u.loads ≠ [] → Gives (.tileFence t c) s (fun s' =>
        OnlyTile t s s' ∧ s'.tile t = { u with fenceDue := reason }))) ∧
    Gives (.tileErrClr t) s (fun s' => OnlyRegs [(p, TILE_ZERO_CNT.COUNT), (p, TILE_NOROPE_CNT.COUNT)] s s' ∧
      s'.get p TILE_ZERO_CNT.COUNT = 0 ∧ s'.get p TILE_NOROPE_CNT.COUNT = 0)

/-! ## Slot calendars (04 R108 to R117) -/

namespace Sys2Proof.Say

/-- Nothing but the calendar state of resource `id` changed. -/
def OnlyRes (id : Nat) (s t : State) : Prop := t = { s with res := t.res } ∧ ∀ k, k ≠ id → t.resAt k = s.resAt k

/-- The resource has passed one slot of its calendar. -/
def Passed (s : State) (id : Nat) (r : Res) : Res :=
  { r with idx := if r.idx + 1 < (s.calOf id).period then r.idx + 1 else 0, slots := r.slots + 1 }

end Sys2Proof.Say

/-- A slot without an owner, or of a tile with nothing queued, passes unused; one of an edge channel does so where no lower
channel of its die is behind and no checker runs. A tile's slot of its die's drop carries one flit of its oldest transfer that
has any to send, and of no other; a request that has lost its slots of a resource it needs fails with NO_SLOT with its last
flit. A slot of a resource that the die does not have, or whose die stands still, does nothing. -/
def Obligations.CalendarSlotsServeTheirOwner : Prop :=
  ∀ (res : ResId) (s : State),
    let id := res.toNat
    let o := (s.calOf id).owner (s.resAt id).idx
    let unused : Prop := Gives (.calendarSlot res) s (fun s' => OnlyRes id s s' ∧ s'.resAt id = Passed s id (s.resAt id))
    s.boot.damaged = [] → OnlyTransfersWait s →
    (id ∈ s.resourcesOf (arbOfSlot (resSlot id)) → s.slotRuns id = true →
      (resKind id ≠ kindEMCH →
        (o = ownIDLE → unused) ∧
        (∀ t, o < 0x600 → s.physOf o = some t →
          ((s.tile t).loads = [] → (∀ x ∈ (s.tile t).xfers, x.inject = 0 ∧ x.todo = []) → unused) ∧
          (∀ x, resKind id = kindINJ → s.injOf t = id → (s.tile t).xfers.find? (fun x => decide (0 < x.inject)) = some x →
            Gives (.calendarSlot res) s (fun s' => s' = { s with tiles := s'.tiles, res := s'.res } ∧ TilesBut t s s' ∧
              s'.resAt id = Passed s id (s.resAt id) ∧ (∀ k, k ≠ id → s'.resAt k = s.resAt k) ∧
              s'.tile t = { s.tile t with xfers := (s.tile t).xfers.map (fun y =>
                if y.id = x.id then
                  (if y.inject = 1 ∧ (∃ k ∈ s.xferNeeds x, s.ownsSlot t k = false) then y.fail stNoSlot
                   else { y with inject := y.inject - 1 })
                else y) })))) ∧
      (resKind id = kindEMCH → o = ownIDLE → s.checking (chanStack id) (chanNumber id) = false →
        (s.resAt id).slots ≤ s.emclkOf (resSlot id) →
        (∀ i < resInst id, s.emclkOf (resSlot id) < (s.resAt (resIdOf (resSlot id) kindEMCH i)).slots) → unused)) ∧
    (id ∉ s.resourcesOf (arbOfSlot (resSlot id)) ∨ s.slotRuns id = false → exec (.calendarSlot res) s = .next s)

/-- R115. At an OPEN slot a requester that backs off sits it out; a holder with a request pending is served; otherwise the
highest priority among the pending requesters that do not back off wins, the lowest ID breaking ties, and its loss count
becomes 0; every other pending one loses, with its count and back-off raised; one with nothing pending has its count
cleared; and with nobody to serve the slot stays unused. A paced DMA channel that sits slots out is not pending, and has one
less to sit out after the slot. -/
def Obligations.TheArbiterFollowsItsSteps : Prop :=
  ∀ (s : State) (id : Nat),
    let a := arbOfSlot (resSlot id)
    let r := s.resAt id
    let pend (i : Nat) : Prop := i ∈ s.pendingAt id
    let k (i : Nat) : Nat := mapGet 0 r.losses i
    let b (i : Nat) : Nat := mapGet 0 r.backoff i
    let g := s.arbitrate id
    let k' (i : Nat) : Nat := mapGet 0 g.1.losses i
    let b' (i : Nat) : Nat := mapGet 0 g.1.backoff i
    (∀ i, pend i → mapGet 0 r.gaps i = 0) ∧ (∀ i, mapGet 0 g.1.gaps i = mapGet 0 r.gaps i - 1) ∧
    ((∀ i, pend i → i ∈ requesters) → (∀ h, r.holder = some h → pend h → b h = 0) →
      g.1.holder = g.2 ∧ g.1.openQ = r.openQ ∧
      (∀ i ∈ requesters, 0 < b i → b' i = b i - 1 ∧ k' i = k i ∧ g.2 ≠ some i) ∧
      (∀ h, r.holder = some h → pend h → g.2 = some h ∧ k' h = k h ∧ b' h = 0) ∧
      (¬(∃ h, r.holder = some h ∧ pend h) →
        (∀ w, g.2 = some w → pend w ∧ b w = 0 ∧ k' w = 0 ∧ b' w = 0 ∧
          ∀ i, pend i → b i = 0 → s.prioOf a i < s.prioOf a w ∨ (s.prioOf a i = s.prioOf a w ∧ w ≤ i)) ∧
        (g.2 = none ↔ ∀ i, pend i → 0 < b i)) ∧
      (∀ i, pend i → b i = 0 → g.2 ≠ some i →
        k' i = min 15 (k i + 1) ∧ b' i = min (2 ^ (min 15 (k i + 1) - 1)) 1024) ∧
      (∀ i ∈ requesters, b i = 0 → ¬pend i → k' i = 0 ∧ b' i = 0))

/-- A load reads and checks the calendar image and stages it, or records the reason and discards the staged set; no active
calendar changes. A switch gives each listed resource its new calendar at that resource's entry 0, where tile transfers and
plane loads whose tile has no slot of it any more fail with NO_SLOT, and after the last one shows the new generation. -/
def Obligations.CalendarSetsAreLoadedAndSwitched : Prop :=
  ∀ (a : ArbId) (s : State),
    let p := pgArb a
    let img := s.getPair p ARB_CAL_ADDR_LO.ADDR ARB_CAL_ADDR_HI.ADDR
    (s.flag p ARB_CAL_STAT.BUSY = false → Gives (.arbCalLoad a) s (fun s' => s'.flag p ARB_CAL_STAT.BUSY = true ∧
      s'.arb a = { s.arb a with loading := some img } ∧ s' = { s with regs := s'.regs, arbs := s'.arbs } ∧
      RegsBut [(p, ARB_CAL_STAT.BUSY)] s s' ∧ ∀ k, k ≠ a.val → s'.arb k = s.arb k)) ∧
    (∀ x, (s.arb a).loading = some x →
      let r := s.readSet a x
      Gives (.arbCalLoadDone a) s (fun s' => s'.flag p ARB_CAL_STAT.BUSY = false ∧
        s'.get p ARB_CAL_STAT.ERR = r.2.1 % 256 ∧ s'.flag p ARB_CAL_STAT.STAGED = decide (r.2.1 = 0) ∧
        (s'.arb a).loading = none ∧ (s'.arb a).staged = (if r.2.1 = 0 then some (r.2.2.1, r.2.2.2) else none) ∧
        (r.2.1 = 0 → s'.get p ARB_CAL_GEN.STAGED = r.2.2.1 % 65536) ∧ s'.mem = s.mem ∧ s'.res = s.res) ∧
      (s.rangeStatus x 32 ≠ stOk ∨ (∃ y ∈ sectorsOf x 32, (s.sector y).1.damaged = true) → r.2.1 = 5) ∧
      (s.rangeStatus x 32 = stOk → Clean s x 32 → x % 32 = 0 → dataNat s x 4 = 1 → dataNat s (x + 8) 4 = 0 →
        dataNat s (x + 12) 4 = 32 → dataNat s (x + 16) 16 = 0 → r.2.1 = 0 ∧ r.2.2 = (dataNat s (x + 4) 4, [])) ∧
      (s.rangeStatus x 32 = stOk → Clean s x 32 → x % 32 = 0 → dataNat s x 4 ≠ 1 → dataNat s (x + 8) 4 = 0 →
        r.2.1 = 1)) ∧
    (∀ g blocks, s.flag p ARB_CAL_STAT.BUSY = false → (s.arb a).staged = some (g, blocks) → blocks ≠ [] →
      Gives (.arbCalSwitch a) s (fun s' => s'.flag p ARB_CAL_STAT.BUSY = true ∧
        (∀ id c, (id, c) ∈ blocks → (∀ d, (id, d) ∈ blocks → d = c) → s'.resAt id = { s.resAt id with next := some c }) ∧
        (∀ id, (∀ c, (id, c) ∉ blocks) → s'.resAt id = s.resAt id) ∧ (∀ id, s'.calOf id = s.calOf id) ∧
        (s'.arb a).switching = blocks.map (·.1) ∧
        s'.resOrder a = blocks.map (·.1) ++ (s.resourcesOf a).filter (fun id => !(blocks.map (·.1)).contains id) ∧
        s' = { s with regs := s'.regs, arbs := s'.arbs, res := s'.res } ∧ RegsBut [(p, ARB_CAL_STAT.BUSY)] s s')) ∧
    (∀ (res : ResId) c, let id := res.toNat
      OnlyTransfersWait s → (c.has ownOPEN = true ∨ (s.resAt id).openQ = []) →
      arbOfSlot (resSlot id) = a.val → (s.resAt id).next = some c → (s.resAt id).idx = 0 → c ≠ [] →
      Gives (.calResourceSwitch res) s (fun s' => s'.calOf id = c ∧ (s'.resAt id).next = none ∧
        (∀ k, k ≠ id → s'.resAt k = s.resAt k) ∧ s'.mem = s.mem ∧
        ((s.arb a).switching.filter (· != id) = [] → s'.flag p ARB_CAL_STAT.BUSY = false ∧
          s'.flag p ARB_CAL_STAT.STAGED = false ∧
          ∀ g b, (s.arb a).staged = some (g, b) → s'.get p ARB_CAL_GEN.ACTIVE = g % 65536) ∧
        ((s.arb a).switching.filter (· != id) ≠ [] → s'.regs = s.regs) ∧
        ∀ t : Nat, (s'.tile t).xfers.length = (s.tile t).xfers.length ∧
          (∀ l ∈ (s.tile t).loads, c.has (s.logical t) = false → l.unitsAt (s.logical t) id ≠ [] → l ∉ (s'.tile t).loads) ∧
          ∀ (j : Nat) (x : Xfer), (s.tile t).xfers[j]? = some x → x.status = stOk → id ∈ s.xferRes t x → c.has (s.logical t) = false →
            ((s'.tile t).xfers[j]?).map (fun y : Xfer => y.status) = some stNoSlot))

/-! ## Refresh (05 R154, R158) -/

/-- A refresh interval raises the debt of a layer that is on; at four the lateness counts and is reported; a layer
that is not on owes nothing. The two clears of `NMEM_CTRL` clear their counters. A bank visit opens in both pseudo-
channels the row of the slot owner's oldest access whose bank lies in the visited set, when that is a granule access
whose row is not open; a row closes 45 slots after the visit that opened it. -/
def Obligations.RefreshAndBankVisits : Prop :=
 (∀ (n : Die) (k : Fin 128) (g : Fin 2) (m : Fin 4) (s : State),
    let id := nmbgId n k g
    let p := pgNmem n m
    let x := s.refr id m
    (s.quarterOn id m = false → exec (.refreshDebtTick n k g m) s = .next s) ∧
    (s.quarterOn id m = true → Gives (.refreshDebtTick n k g m) s (fun s' =>
      s'.refr id m = { x with debt := x.debt + 1 } ∧
      (∀ i j, refreshKey i j ≠ refreshKey id m → s'.refr i j = s.refr i j) ∧
      (x.debt ≠ 3 → s' = { s with refresh := s'.refresh }) ∧
      (x.debt = 3 → s' = { s with refresh := s'.refresh, regs := s'.regs, log := s'.log } ∧
        s'.get p NMEM_REFR_LATE.COUNT = min (s.get p NMEM_REFR_LATE.COUNT + 1) (2 ^ 32 - 1) ∧
        s'.get p PAGE_ERR_CNT_U.COUNT = min (s.get p PAGE_ERR_CNT_U.COUNT + 1) (2 ^ 32 - 1) ∧
        RegsBut ((p, NMEM_REFR_LATE.COUNT) :: errFields p) s s'))) ∧
    Gives (.nmemClrLate n m) s (fun s' =>
      OnlyRegs [(p, NMEM_REFR_LATE.COUNT)] s s' ∧ s'.get p NMEM_REFR_LATE.COUNT = 0) ∧
    Gives (.nmemClrScrub n m) s (fun s' => s' = { s with regs := s'.regs, refresh := s'.refresh } ∧
      (∀ f ∈ [NMEM_SCRUB_C.COUNT, NMEM_SCRUB_U.COUNT, NMEM_SCRUB_P.COUNT, NMEM_SCRUB_STAT.PASSES], s'.get p f = 0) ∧
      RegsBut [(p, NMEM_SCRUB_C.COUNT), (p, NMEM_SCRUB_U.COUNT), (p, NMEM_SCRUB_P.COUNT), (p, NMEM_SCRUB_STAT.PASSES)] s s' ∧
      (s'.refr id m).passes = 0)) ∧
 ((∀ (k : Stack) (c : Fin 32) (s : State) (cl : EdgeClient) (x : EdgeEntry) (rest : List EdgeEntry),
    let id := emchId k c
    let r := s.resAt id
    let who := s.clientNumber cl
    let bank := edgeBank (edgeOffset x.a)
    let row := edgeRow (edgeOffset x.a)
    (r.slots % 3 ≠ 0 ∨ r.visited = r.slots + 1 ∨ s.visitBlocked id = true ∨ s.slotClient id = none →
      exec (.bankSetVisit k c) s = .next s) ∧
    (r.slots % 3 = 0 → r.visited ≠ r.slots + 1 → s.visitBlocked id = false → s.slotClient id = some cl →
    (s.edgeQueue cl id).filter (fun e => bankSet (edgeBank (edgeOffset e.a)) == r.slots / 3 % 16) = x :: rest →
    x.whole = true → (∀ z ∈ r.rows, z.1 ≠ edgeKey 0 bank ∧ z.1 ≠ edgeKey 1 bank) →
      Gives (.bankSetVisit k c) s (fun s' => OnlyRes id s s' ∧
        s'.resAt id = { r with visited := r.slots + 1, rows := (s'.resAt id).rows } ∧
        ∀ z, z ∈ (s'.resAt id).rows ↔ z ∈ r.rows ∨ z = (edgeKey 0 bank, row, r.slots, who) ∨
          z = (edgeKey 1 bank, row, r.slots, who)))) ∧
  (∀ (k : Stack) (c : Fin 32) (x : Fin 2) (bank : Fin 64) (s : State),
    let id := emchId k c
    Gives (.edgeRowClose k c x bank) s (fun s' => OnlyRes id s s' ∧
      s'.resAt id = { s.resAt id with rows := (s'.resAt id).rows } ∧
      ∀ z, z ∈ (s'.resAt id).rows ↔ z ∈ (s.resAt id).rows ∧
        (z.1 = 64 * x.val + bank.val → (s.resAt id).slots < z.2.2.1 + 45))))

/-! ## Edge channels, the summit and the channel checkers (06) -/

/-- A change of a summit region's mode zero-fills the region, drops its lines and keeps it busy until it is done; a
change of its stack alone drops its lines; a write while it is busy, or of a reserved mode, is ignored. A checker
starts on a channel of an initialised stack while the EMC is off, with its results cleared. Stopped, it ends at once unless an
access has begun, and then drops the others and goes on to the end of that one; it ends when its count is reached or it was
stopped, with nothing left to move, or, with `ABORT`, when the EMC of its stack is enabled. -/
def Obligations.SummitModesAndCheckers : Prop :=
 (∀ (b : Base) (r : Fin 20) (v : Word) (s : State),
    let p := pgSumt b
    let base := summitBase b r
    let busy := SUMT_REG.BUSY.at r
    let mode := SUMT_REG.MODE.at r
    let stack := SUMT_REG.STACK.at r
    (s.get p busy = 1 ∨ 2 ≤ v.toNat % 4 → exec (.sumtModeWrite b r v) s = .next s) ∧
    (s.get p busy ≠ 1 → v.toNat % 4 < 2 → v.toNat % 4 ≠ s.get p mode →
      Gives (.sumtModeWrite b r v) s (fun s' => s'.get p busy = 1 ∧ s'.get p mode = v.toNat % 4 ∧
        s'.get p stack = v.toNat / 4 % 2 ∧ (∀ i < 0x1000000, s'.sector (base + i) = (.good, List.replicate 32 0)) ∧
        (∀ e ∈ s'.cache, e.1 / 32768 ≠ 20 * b.val + r.val) ∧
        (∀ e ∈ s.cache, e.1 / 32768 ≠ 20 * b.val + r.val →
          (∀ x ∈ e.2.ways, ∀ l, x = some l → l.1 < base ∨ base + 0x1000000 ≤ l.1) → e ∈ s'.cache) ∧
        s' = { s with regs := s'.regs, mem := s'.mem, cache := s'.cache } ∧ MemBut base 0x1000000 s s' ∧
        RegsBut [(p, busy), (p, mode), (p, stack)] s s')) ∧
    (s.get p busy ≠ 1 → v.toNat % 4 < 2 → v.toNat % 4 = s.get p mode → v.toNat / 4 % 2 = s.get p stack →
      Gives (.sumtModeWrite b r v) s (fun s' => OnlyRegs [(p, mode), (p, stack)] s s' ∧
        s'.get p mode = s.get p mode ∧ s'.get p stack = s.get p stack)) ∧
    (s.get p busy ≠ 1 → v.toNat % 4 < 2 → v.toNat % 4 = s.get p mode → v.toNat / 4 % 2 ≠ s.get p stack →
      Gives (.sumtModeWrite b r v) s (fun s' => s'.get p stack = v.toNat / 4 % 2 ∧ s'.get p mode = s.get p mode ∧
        (∀ e, e ∈ s'.cache ↔ e ∈ s.cache ∧ e.1 / 32768 ≠ 20 * b.val + r.val) ∧
        s' = { s with regs := s'.regs, cache := s'.cache } ∧ RegsBut [(p, mode), (p, stack)] s s')) ∧
    Gives (.sumtModeDone b r) s (fun s' => s'.get p busy = 0 ∧ OnlyRegs [(p, busy)] s s')) ∧
 (∀ (k : Stack) (c : Fin 32) (s : State),
    let p := pgEchk k c
    let cleared := [ECHK_STAT.ABORT, ECHK_STAT.DONE, ECHK_MIS_SECT.COUNT, ECHK_MIS_BITS.COUNT, ECHK_FIRST.VALID,
      ECHK_FIRST.SECT, ECHK_CYCLES.COUNT]
    let ended (s' : State) (abort : Nat) : Prop :=
      s'.checking k c = false ∧ s'.get p ECHK_STAT.RUN = 0 ∧ s'.get p ECHK_STAT.DONE = 1 ∧ s'.get p ECHK_STAT.ABORT = abort
    let onlyMine (s' : State) : Prop := s' = { s with regs := s'.regs, checkers := s'.checkers } ∧
      RegsBut [(p, ECHK_STAT.RUN), (p, ECHK_STAT.DONE), (p, ECHK_STAT.ABORT)] s s' ∧
      ∀ j d, checkerKey j d ≠ checkerKey k c → s'.checking j d = s.checking j d
    (s.flag (pgEmc k) PAGE_CTRL.EN = false → s.checking k c = false → s.stackUsed k = true →
      Gives (.echkStart k c) s (fun s' => s'.checking k c = true ∧ s'.get p ECHK_STAT.RUN = 1 ∧
        (∀ f ∈ cleared, s'.get p f = 0) ∧
        (∃ x y : Nat, 0 < x ∧ 0 < y ∧ s' = { s with regs := s'.regs, checkers := s.checkers ++
          [(checkerKey k c, { next := 0, queue := [], prbs0 := x, prbs1 := y, stop := false })] }) ∧
        RegsBut ((p, ECHK_STAT.RUN) :: cleared.map (fun f => (p, f))) s s')) ∧
    (s.flag (pgEmc k) PAGE_CTRL.EN = true → exec (.echkStart k c) s = .next s) ∧
    (∀ x, s.checkers.find? (fun e => e.1 == checkerKey k c) = some x →
      let whole := (if s.get p ECHK_CFG.OP = 2 then 2 else 1) * (if s.get p ECHK_CFG.PATH = 0 then 8 else 1)
      let begun (e : CheckEntry) : Prop := (x.2.queue.filter (fun f => f.n == e.n)).length < whole
      ((∀ e ∈ x.2.queue, ¬begun e) → Gives (.echkStop k c) s (fun s' => ended s' 0 ∧ onlyMine s')) ∧
      ((∃ e ∈ x.2.queue, begun e) → Gives (.echkStop k c) s (fun s' =>
        s' = { s with checkers := s'.checkers } ∧ s'.checking k c = true ∧
        (∀ j d, checkerKey j d ≠ checkerKey k c → s'.checking j d = s.checking j d) ∧
        ∀ y ∈ s'.checkers, y.1 = checkerKey k c → y.2.stop = true ∧ ∀ e, e ∈ y.2.queue ↔ e ∈ x.2.queue ∧ begun e)) ∧
      (x.2.queue = [] → x.2.stop = true ∨ (s.get p ECHK_COUNT.COUNT ≠ 0 ∧ s.get p ECHK_COUNT.COUNT ≤ x.2.next) →
        Gives (.echkDone k c) s (fun s' => ended s' 0 ∧ onlyMine s'))) ∧
    (s.checking k c = false → exec (.echkStop k c) s = .next s ∧ exec (.echkDone k c) s = .next s) ∧
    (s.flag (pgEmc k) PAGE_CAPS.LIC_OFF = false →
      Gives (.emcEnable k) s (fun s' => s'.flag (pgEmc k) PAGE_CTRL.EN = true ∧
        (∀ d : Fin 32, s'.checking k d = false) ∧ (s.checking k c = true → ended s' 1) ∧
        s' = { s with regs := s'.regs, checkers := s'.checkers } ∧
        ∀ j d, j ≠ k.val → d < 32 → s'.checking j d = s.checking j d)))

/-! ## Row engines (05 R141 to R151) -/

namespace Sys2Proof.Say

/-- The row operations as commands, with their number of sources, the source sector's address at index i for each source,
and the result byte (05 R144). -/
def rowForms (c : RowArgs) : List (Instr × Nat × (Byte → Byte → Byte)) :=
  [(.rowCopy c, 1, fun x _ => x), (.rowFill c, if c.z then 0 else 1, fun x _ => x), (.rowAnd c, 2, fun x y => x &&& y),
   (.rowOr c, 2, fun x y => x ||| y), (.rowXor c, 2, fun x y => x ^^^ y), (.rowNot c, 1, fun x _ => ~~~x)]

/-- An engine that may run: its die is not down and its page accepts commands. -/
def engineUp (s : State) (e : Nat) : Bool := !s.engineDown e && s.engineOn e

end Sys2Proof.Say

/-- A row operation whose rows lie in the domain of one engine that is up, each in a resource with a ROWE run of 48
slots, and whose destination is no submission window, writes all 64 sectors of its destination: each the result of the
source sectors at its index (of the one named sector for `FILL`, zeros for `FILL` with `Z`), or poisoned where a
source sector is damaged. No other byte of memory changes; the engine counts the command and shows status 0. Where the engine
or its command port holds earlier commands, it waits at the port behind them (both the model's own choice, assumption log 12).
A step of the command at the head of an engine's queue: a read step buffers the 64 sectors of its row, a damaged one as nothing;
the last step writes the results and completes the command, which leaves the queue and, where a tile sent it, ends its
transfer's wait with status 0, or, where the device sent it, is noted with its job. The next step may not start in the 48 slots
from this one on. -/
def Obligations.RowOperationsWriteWholeRows : Prop :=
 (∀ (c : RowArgs) (s : State) (i : Instr) (n e : Nat) (f : Byte → Byte → Byte), (i, n, f) ∈ rowForms c →
    let dst := c.dst.toNat
    let a := c.srcA.toNat
    let b := c.srcB.toNat
    let fill : Bool := decide (i = .rowFill c)
    let srcs : List Nat := (if 1 ≤ n then [2048 * (a / 2048)] else []) ++ (if n = 2 then [b] else [])
    let rows := srcs ++ [dst]
    dst % 2048 = 0 → (1 ≤ n → a % (if fill then 32 else 2048) = 0) → (n = 2 → b % 2048 = 0) →
    (rows.all isNear = true ∨ rows.all isEdge = true) → (∀ r ∈ rows, s.engineAt r = some e) → engineUp s e = true →
    (∀ r ∈ rows, (s.calOf (rowRes r)).hasRun ownROWE 48 = true) → s.winsTouched dst 2048 = [] →
      let port := enginePort e
      (s.engineQ e ≠ [] ∨ (s.resAt port).openQ ≠ [] → Gives i s (fun s' => OnlyRes port s s' ∧ ∃ cmd : RowCmd,
        cmd.rows = rows ∧ cmd.issuer = .device 0 ∧ cmd.steps = 0 ∧
        s'.resAt port = { s.resAt port with openQ := (s.resAt port).openQ ++ [(reqMgmt, cmd)] })) ∧
      (s.engineQ e = [] → (s.resAt port).openQ = [] → Gives i s (fun s' =>
        (∀ j < 64,
          let x := s.sector (if fill then a else a + 32 * j)
          let y := s.sector (b + 32 * j)
          let damaged := (decide (1 ≤ n) && x.1.damaged) || (decide (n = 2) && y.1.damaged)
          (damaged = true → (s'.sector (dst + 32 * j)).1 = .poisoned) ∧
          (damaged = false → (s'.sector (dst + 32 * j)).1 = .good ∧ ∀ k < 32,
            (s'.sector (dst + 32 * j)).2.getD k 0 = if n = 0 then 0 else f (x.2.getD k 0) (y.2.getD k 0))) ∧
        MemBut dst 2048 s s' ∧ s' = { s with mem := s'.mem, regs := s'.regs, log := s'.log, cache := s'.cache } ∧
        s'.get (enginePage e) (engineFields e).2.2.1 = 0 ∧
        s'.get (enginePage e) (engineFields e).2.2.2.1 = (s.get (enginePage e) (engineFields e).2.2.2.1 + 1) % 2 ^ 32))) ∧
 (∀ (r : EngineRef) (s : State) (c : RowCmd) (rest : List RowCmd),
    let e := engineNumber r
    let row := c.rows.getD c.steps c.dst
    let from_ := (s.resAt (rowRes row)).slots + 48
    s.engineQ e = c :: rest → s.stepReady e (decide (c.rows.length ≤ c.steps + 1)) row = true → s.engineDown e = false →
    s.asleep row 2048 = false →
      (c.steps + 1 < c.rows.length → Gives (.rowStep r) s (fun s' =>
        ∃ buf : List (Option (List Byte)), buf.length = 64 ∧
          (∀ j < 64, buf.getD j none =
            if (s.sector (row + 32 * j)).1.damaged then none else some (s.sector (row + 32 * j)).2) ∧
          s'.engine e = { queue := { c with steps := c.steps + 1, bufs := c.bufs ++ [buf] } :: rest, ready := from_ } ∧
          (∀ k, k ≠ e → s'.engine k = s.engine k) ∧
          s' = { s with regs := s'.regs, log := s'.log, engines := s'.engines })) ∧
      (c.rows.length ≤ c.steps + 1 → s.winsTouched c.dst 2048 = [] → c.dst % 2048 = 0 → Gives (.rowStep r) s (fun s' =>
        (∀ j < 64, match (c.results).getD j none with
          | some d => d.length = 32 → s'.sector (c.dst + 32 * j) = (.good, d)
          | none => (s'.sector (c.dst + 32 * j)).1 = .poisoned) ∧
        MemBut c.dst 2048 s s' ∧ s'.engine e = { queue := rest, ready := from_ } ∧
        (∀ k, k ≠ e → s'.engine k = s.engine k) ∧
        (∀ t id, c.issuer = .tile t id → TilesBut t s s' ∧ s'.tile t = { s.tile t with
          xfers := (s.tile t).xfers.map (fun x => if x.id = id then { x with waits := false } else x) }) ∧
        (∀ id, c.issuer = .device id → s'.tiles = s.tiles ∧
          s'.kv = { s.kv with jobs := s.kv.jobs.map (fun j => if j.id = id then { j with status := some stOk } else j) } ∧
          s'.get (enginePage e) (engineFields e).2.2.1 = 0 ∧
          s'.get (enginePage e) (engineFields e).2.2.2.1 = (s.get (enginePage e) (engineFields e).2.2.2.1 + 1) % 2 ^ 32))))

/-! ## The network (07) -/

/-- The training frames of a seam link: one from each end of its eight tracks (07 R210). -/
def Sys2Proof.Say.trainingOut (s : State) (sm m : Nat) : List OutMsg :=
  (seamEnds sm m).map (fun j => OutMsg.d2d j (d2dFrame ltTraining 0 (s.link j).last []))

/-- A good or corrected head of a known type between nodes that are present is forwarded: within a compute die along
x, then along y to its tile; within a quarter of the package along X, then along Y, on the track of its source. The head goes
on corrected, the rest unchanged. A head that is damaged, of a reserved type or with an absent node is dropped, counted and reported.
Management firmware rewrites the route tables of a base die: they avoid the links held down from then on, the table
count goes up and `DETOUR` tells whether anything is avoided; nothing waiting there, nothing else changes. A packet
that has waited too long at a held-down link is dropped, counted and reported. -/
def Obligations.FlitHeadsAndRouteTables : Prop :=
 (∀ (r : RouterRef) (inp : Fin 16) (head : List Byte) (body : List (List Byte)) (s : State),
    let c := Instr.flitHeadRoute ⟨r, inp⟩ head body
    let e := decodeSector (head.take 36)
    let d := e.2
    let src := nodeOf (hdSrc d)
    let dst := nodeOf (hdDst d)
    let track := if 2048 ≤ routerNumber r then hdSrc d % 8 else 0
    let sends (dir cls : Nat) : Prop := exec c s = .next { s with
      out := s.out ++ [.hop (routerNumber r) dir cls track (((codeWord d ++ head.drop 36) :: body).map (inClass cls))] }
    c.wellFormed = true → lenFits head body = true → s.loading = false →
    (∀ cls, e.1.damaged = false → typeClass false (hdType d) = some cls → s.nodePresent src = true →
      s.nodePresent dst = true →
      (∀ n x y p q, r = .tile n x y → dst = .tile n p → src = .tile n q →
        (x.val ≠ p % 6 → sends (if p % 6 < x then 0 else 1) cls) ∧
        (x.val = p % 6 → y.val ≠ p / 6 → sends (if p / 6 < y then 2 else 3) cls) ∧
        (x.val = p % 6 → y.val = p / 6 → (∀ dom, s.tileDomain (routerNumber r) d = some dom → s.domState dom = 0) →
          sends 5 cls)) ∧
      (∀ x y tx ty port, r = .base x y → dst = .base tx ty port → (x.val < 4 ↔ tx < 4) → (y.val < 4 ↔ ty < 4) →
        (x.val ≠ tx → sends (if tx < x then 0 else 1) cls) ∧
        (x.val = tx → y.val ≠ ty → sends (if ty < y then 2 else 3) cls))) ∧
    (e.1.damaged = true ∨ typeClass false (hdType d) = none ∨ s.nodePresent src = false ∨ s.nodePresent dst = false →
      let where_ : PageRef × Field := match r with
        | .tile n _ _ => (pgCnet n, CNET_HDR_DROP.COUNT)
        | .base x y => (pgBnet (dieOfXY x y), BNET_HDR_DROP.COUNT)
      Gives c s (fun s' => s' = { s with regs := s'.regs, log := s'.log } ∧
        s'.get where_.1 where_.2 = min (s.get where_.1 where_.2 + 1) (2 ^ 32 - 1) ∧
        s'.get where_.1 PAGE_ERR_CNT_U.COUNT = min (s.get where_.1 PAGE_ERR_CNT_U.COUNT + 1) (2 ^ 32 - 1) ∧
        RegsBut (where_ :: errFields where_.1) s s'))) ∧
 (∀ (b : Base) (s : State),
    let p := pgBnet b
    let here (e : Nat × List (List Byte)) : Bool := routerBase e.1 == b.val
    let drops := (List.range 3).any (fun u => s.get (pgCnet (3 * b + u)) CNET_DROP_DOWN.DOWN != 0)
    (s.boot.fw = fwMain → s.net.stalled.any here = false →
      Gives (.routeTableRewrite b) s (fun s' => s' = { s with regs := s'.regs, net := { s.net with known := s'.net.known } } ∧
        (∀ sm l, sm < 4 → l < 4 → s'.avoided b sm l = (s.seamState sm l == smHeld)) ∧
        (∀ e sm l, e ≠ b.val → s'.avoided e sm l = s.avoided e sm l) ∧
        s'.get p BNET_RT_STAT.GEN = (s.get p BNET_RT_STAT.GEN + 1) % 65536 ∧
        (s'.flag p BNET_RT_STAT.DETOUR = true ↔ drops = true ∨ ∃ sm < 4, ∃ l < 4, s.seamState sm l = smHeld) ∧
        RegsBut [(p, BNET_RT_STAT.GEN), (p, BNET_RT_STAT.DETOUR)] s s')) ∧
    (s.net.stalled.any here = true →
      Gives (.stallDrop b) s (fun s' =>
        s' = { s with regs := s'.regs, log := s'.log, net := { s.net with stalled := s.net.stalled.eraseP here } } ∧
        s'.get p BNET_STALL_DROP.COUNT = min (s.get p BNET_STALL_DROP.COUNT + 1) (2 ^ 32 - 1) ∧
        s'.get p PAGE_ERR_CNT_U.COUNT = min (s.get p PAGE_ERR_CNT_U.COUNT + 1) (2 ^ 32 - 1) ∧
        RegsBut ((p, BNET_STALL_DROP.COUNT) :: errFields p) s s')) ∧
    (s.net.stalled.any here = false → exec (.stallDrop b) s = .next s))

/-- A link end answers a frame with a bad CRC by a NAK of the last number in order and counts it; it takes the flit frame
with the next number while the other end may send flits, and discards any other. A flit taken joins its packet, by the owner of
its slot at the base end of a drop and by class elsewhere; with its last flit the packet goes on through the router there. A NAK
frees what it acknowledges and every other frame is sent again, in order, on a link that may send flits; an end that waits
repeats its NAK. The eighth NAK of one number retrains a seam link, and training frames go out on all its tracks. -/
def Obligations.LinkFramesAreTakenInOrder : Prop :=
  ∀ (l : LinkEnd) (owner : BitVec 12) (f : List Byte) (a : Byte) (s : State),
    let i := linkNumber l
    let k := s.link i
    let c := Instr.d2dFrameReceive l ⟨owner, f⟩
    let links (s' : State) (k' : Link) : Prop := s'.link i = k' ∧ ∀ j, j ≠ i → s'.link j = s.link j
    let nak : OutMsg := .d2d i (d2dFrame ltNak 0 k.last [])
    let w := f.take 37
    let key := if isDrop i = true ∧ i % 2 = 0 then owner.toNat else flitClass w
    let got := mapGet [] k.rx key
    let taken (s' : State) (x : List (List Byte)) : Prop := s' = { s with links := s'.links } ∧
      links s' { k with last := field f 37 1, waiting := false, rx := mapSet [] k.rx key x }
    (c.wellFormed = true →
      (leBytes 2 (crc16 (f.take 40)) ≠ slice f 40 2 → Gives c s (fun s' =>
        links s' { k with waiting := true } ∧ s'.out = s.out ++ [nak] ∧
        s'.get (linkPage i) PAGE_ERR_CNT_C.COUNT = min (s.get (linkPage i) PAGE_ERR_CNT_C.COUNT + 1) (2 ^ 32 - 1) ∧
        RegsBut (errFields (linkPage i)) s s' ∧
        s' = { s with regs := s'.regs, log := s'.log, links := s'.links, out := s'.out })) ∧
      (leBytes 2 (crc16 (f.take 40)) = slice f 40 2 → field f 39 1 % 16 = ltFlit → (∀ e ∈ k.replay, e.1 ≠ field f 38 1) →
        (field f 37 1 = (k.last + 1) % 256 → s.linkOpen (i + 1 - 2 * (i % 2)) = true →
          (flitKind w = 0 → Gives c s (fun s' => taken s' [w])) ∧
          (flitKind w = 1 → got ≠ [] → Gives c s (fun s' => taken s' (got ++ [w]))) ∧
          ((flitKind w = 1 ∨ flitKind w = 2) → got = [] → Gives c s (fun s' => s' = { s with links := s'.links } ∧
            links s' { k with last := field f 37 1, waiting := false })) ∧
          (flitKind w = 3 ∨ (flitKind w = 2 ∧ got ≠ []) → ∃ u : State, taken u [] ∧
            let p := if flitKind w = 3 then [w] else got ++ [w]
            exec c s = .next (u.routePacket (linkRouter i) (linkInput i) (p.headD []) p.tail))) ∧
        (field f 37 1 ≠ (k.last + 1) % 256 ∨ s.linkOpen (i + 1 - 2 * (i % 2)) = false → exec c s = .next s))) ∧
    (∀ j, k.replay.findIdx? (fun e => e.1 == a.toNat) = some j → k.queue = [] → k.active = [] →
      let left := k.replay.drop (j + 1)
      let sends := s.linkOpen i = true ∧ left ≠ []
      Gives (.d2dNakReceive l a) s (fun s' =>
        links s' { k with replay := left, nakSeq := (a.toNat + 1) % 256, naks := 1 } ∧
        (sends → s'.out = s.out ++ left.map (fun e => .d2d i (d2dFrame ltFlit e.1 k.last e.2)) ∧
          s'.get (linkPage i) (replayField i) = min (s.get (linkPage i) (replayField i) + 1) (2 ^ 32 - 1)) ∧
        (¬sends → s'.out = s.out ∧ s'.regs = s.regs) ∧
        RegsBut [(linkPage i, replayField i)] s s' ∧ s' = { s with regs := s'.regs, links := s'.links, out := s'.out })) ∧
    (∀ sm m track e, l = .seam sm m track e → (∀ e ∈ k.replay, e.1 ≠ a.toNat) → k.naks = 7 →
      k.nakSeq = (a.toNat + 1) % 256 → s.seamState sm m = smUp →
        Gives (.d2dNakReceive l a) s (fun s' => s'.seamState sm m = smExchange ∧ links s' { k with naks := 0 } ∧
          s'.out = s.out ++ trainingOut s sm m ∧ s' = { s with regs := s'.regs, links := s'.links, out := s'.out })) ∧
    (k.waiting = true → exec (.d2dNakRepeat l) s = .next { s with out := s.out ++ [nak] }) ∧
    (k.waiting = false → exec (.d2dNakRepeat l) s = .next s)

/-- Seam training: a link that is UP or HELD, asked to retrain, goes to EXCHANGE with its attempts at 0 and one more
retraining counted, as does an UP link that receives a training frame, and training frames go out on its tracks; known
proposals give the narrower width and the test, or a failed attempt, after which training frames go out again; a passed test
brings the link UP and its ends send again what they had not had acknowledged; a third failed attempt holds it down and
discards what its ends had sent, while packets that wait there whole go on waiting. -/
def Obligations.SeamLinksTrain : Prop :=
  ∀ (sm : Seam) (l : Fin 4) (s : State),
    let p := pgSeam sm
    let st := s.seamState sm l
    let fields (m : Nat) : Fields := [(p, SEAM_LINK.STATE.at m), (p, SEAM_LINK.ATTEMPTS.at m), (p, SEAM_LINK.RETRAINS.at m)]
    let training (m : Nat) (s' : State) : Prop := s'.seamState sm m = smExchange ∧ s'.get p (SEAM_LINK.ATTEMPTS.at m) = 0 ∧
      s'.get p (SEAM_LINK.RETRAINS.at m) = min (s.get p (SEAM_LINK.RETRAINS.at m) + 1) 255
    let tries := s.get p (SEAM_LINK.ATTEMPTS.at l)
    let sent (s' : State) (l : List OutMsg) : Prop := s' = { s with regs := s'.regs, out := s.out ++ l }
    (∀ mask : BitVec 4,
      let goes (m : Nat) : Bool := mask.getLsbD m && (s.seamState sm m == smUp || s.seamState sm m == smHeld)
      Gives (.seamRetrain sm mask) s (fun s' =>
        (∀ m : Fin 4, goes m = true → training m s') ∧
        (∀ m : Fin 4, goes m = false →
          RegsBut ((List.range 4).filter (· ≠ m.val) |>.flatMap fields |>.cons (p, PAGE_STAT.DEGRADED)) s s') ∧
        RegsBut ((p, PAGE_STAT.DEGRADED) :: (List.range 4).flatMap fields) s s' ∧
        sent s' (((List.range 4).filter goes).flatMap (trainingOut s sm)))) ∧
    (st = smUp → Gives (.trainingFrameReceive sm l) s (fun s' => training l s' ∧
      RegsBut ((p, PAGE_STAT.DEGRADED) :: fields l) s s' ∧ sent s' (trainingOut s sm l))) ∧
    (st ≠ smUp → exec (.trainingFrameReceive sm l) s = .next s) ∧
    (∀ p0 p1 : BitVec 2, st = smExchange →
      let w := narrower p0.toNat p1.toNat
      let known (s' : State) : Prop := s'.get p (SEAM_LINK.P0.at l) = p0.toNat ∧ s'.get p (SEAM_LINK.P1.at l) = p1.toNat
      let two : Fields := [(p, SEAM_LINK.P0.at l), (p, SEAM_LINK.P1.at l), (p, PAGE_STAT.DEGRADED)]
      (w ≠ 0 → w = s.get p (SEAM_LINK.WIDTH.at l) ∨ s.isReady = false →
        Gives (.seamProposalsKnown sm l p0 p1) s (fun s' => known s' ∧ s'.seamState sm l = smTest ∧
          s'.get p (SEAM_LINK.WIDTH.at l) = w ∧ OnlyRegs ((p, SEAM_LINK.WIDTH.at l) :: (p, SEAM_LINK.STATE.at l) :: two) s s')) ∧
      (w ≠ 0 → w ≠ s.get p (SEAM_LINK.WIDTH.at l) → s.isReady = true →
        Gives (.seamProposalsKnown sm l p0 p1) s (fun s' => known s' ∧ s'.seamState sm l = smTest ∧
          s'.get p (SEAM_LINK.WIDTH.at l) = w ∧
          s'.get p PAGE_ERR_CNT_U.COUNT = min (s.get p PAGE_ERR_CNT_U.COUNT + 1) (2 ^ 32 - 1) ∧
          s' = { s with regs := s'.regs, log := s'.log } ∧
          RegsBut ((p, SEAM_LINK.WIDTH.at l) :: (p, SEAM_LINK.STATE.at l) :: two ++ errFields p) s s')) ∧
      (w = 0 → tries < 2 → Gives (.seamProposalsKnown sm l p0 p1) s (fun s' => known s' ∧ s'.seamState sm l = smExchange ∧
        s'.get p (SEAM_LINK.ATTEMPTS.at l) = tries + 1 ∧ RegsBut (two ++ fields l) s s' ∧ sent s' (trainingOut s sm l)))) ∧
    (st = smTest → s.net.stalled = [] → Gives (.seamTestDone sm l) s (fun s' => s'.seamState sm l = smUp ∧
      s'.get p (SEAM_LINK.ATTEMPTS.at l) = 0 ∧ RegsBut ((p, SEAM_REPLAY.COUNT.at l) :: fields l) s s' ∧
      sent s' ((seamEnds sm l).flatMap (fun i => (s.link i).replay.map (fun e =>
        OutMsg.d2d i (d2dFrame ltFlit e.1 (s.link i).last e.2)))))) ∧
    (st = smExchange ∨ st = smTest →
      (tries < 2 → Gives (.seamAttemptTimeout sm l) s (fun s' => s'.seamState sm l = smExchange ∧
        s'.get p (SEAM_LINK.ATTEMPTS.at l) = tries + 1 ∧ RegsBut (fields l) s s' ∧ sent s' (trainingOut s sm l))) ∧
      (tries = 2 → Gives (.seamAttemptTimeout sm l) s (fun s' => s'.seamState sm l = smHeld ∧
        s'.flag p PAGE_STAT.DEGRADED = true ∧
        (∀ i ∈ seamEnds sm l, (s'.link i).replay = [] ∧ (s'.link i).queue = [] ∧ (s'.link i).active = []) ∧
        (∀ i, i ∉ seamEnds sm l → s'.link i = s.link i) ∧
        s'.net = { s.net with stalled := s.net.stalled ++ (seamEnds sm l).flatMap (fun i =>
          (s.link i).queue.map (fun e => (linkRouter i, e.2))) } ∧
        s' = { s with regs := s'.regs, log := s'.log, links := s'.links, net := s'.net } ∧
        RegsBut ((p, PAGE_STAT.DEGRADED) :: fields l ++ errFields p) s s'))) ∧
    (st ≠ smExchange → st ≠ smTest → exec (.seamAttemptTimeout sm l) s = .next s)

/-- Partition reset. `REQ` closes an UP die's drops after READY or a halt; packets that wait to go down and are no requests
are counted and go. At the drain's end the die's tiles lose their state and are off (a fenced tile stays fenced), its layer
quarters are in retention, its links start anew and its row engines hold nothing; shown on a die whose engines, tiles and drops
have nothing under way. `RELEASE` turns the wanted domains on and returns its arbiter page and calendars; at the end the failed
drops are held down and the reset counts. In any other state, and `REQ` and `RELEASE` before READY, the commands do nothing. -/
def Obligations.PartitionResetFollowsItsStates : Prop :=
  ∀ (n : Die) (s : State),
    let p := pgCdie n
    let open_ : Bool := s.isReady || s.flag pgBoot BOOT_STAT.HALT
    let quarter (s' : State) (m q : Fin 4) : Nat := s'.domState (.quarter n m q)
    let down (y : Nat) : Link := s.link (dropLink n y 0)
    let up (y : Nat) : Link := s.link (dropLink n y 1)
    let waiting := ((List.range 24).map (fun y => (down y).queue.length)).sum
    (NothingWaits s → s.prst n = prstUp → open_ = true →
      (∀ y < 24, ∀ e ∈ (down y).queue, flitClass (e.2.headD []) ≠ clsRequest) →
      Gives (.prstReq n) s (fun s' => s'.prst n = prstDrain ∧
        s'.get p CDIE_DD_CNT.COUNT =
          (if waiting = 0 then s.get p CDIE_DD_CNT.COUNT else min (s.get p CDIE_DD_CNT.COUNT + waiting) (2 ^ 32 - 1)) ∧
        (∀ y < 24, s'.link (dropLink n y 0) = { down y with queue := [] }) ∧
        (∀ i, (∀ y < 24, i ≠ dropLink n y 0) → s'.link i = s.link i) ∧
        s' = { s with regs := s'.regs, links := s'.links } ∧
        RegsBut [(p, CDIE_PRST_STAT.STATE), (p, CDIE_DD_CNT.COUNT)] s s')) ∧
    (NothingWaits s → s.prst n ≠ prstUp ∨ open_ = false → exec (.prstReq n) s = .next s) ∧
    (NothingWaits s → s.prst n = prstDrain →
      (∀ i < 16, s.engineQ (16 * n + i) = [] ∧ (s.resAt (enginePort (16 * n + i))).openQ = []) →
      (∀ i < 144, (s.tile (144 * n.val + i)).xfers = []) → (∀ y < 24, (down y).replay = [] ∧ (down y).active = []) →
      Gives (.prstDrainEnd n) s (fun s' => s'.prst n = prstReset ∧
        (∀ i < 144, let t := 144 * n.val + i
          s'.tile t = { Tile.init with nextId := (s.tile t).nextId, taintWait := (s.tile t).taintWait } ∧
          s'.get (pgTile t) PAGE_PWR.STATE = 2 ∧
          s'.tileRun t = (if s.tileRun t = runFenced then runFenced else runIdle)) ∧
        (∀ t, t / 144 ≠ n.val → s'.tile t = s.tile t) ∧
        (∀ m q, quarter s' m q = 1) ∧
        (∀ y < 24, s'.link (dropLink n y 0) = { down y with rx := [], waiting := false } ∧
          s'.link (dropLink n y 1) = Link.init) ∧
        (∀ i < 16, s'.engineQ (16 * n + i) = [] ∧ (s'.resAt (enginePort (16 * n + i))).openQ = []))) ∧
    (NothingWaits s → s.prst n ≠ prstDrain → exec (.prstDrainEnd n) s = .next s) ∧
    (s.prst n = prstReset → open_ = true → Gives (.prstRelease n) s (fun s' => s'.prst n = prstReleasing ∧
      (∀ i < 144, let q := pgTile (144 * n.val + i)
        s'.get q PAGE_PWR.STATE = if s.tilePowered (144 * n + i) = true ∧ s.get q PAGE_PWR.REQ ≠ 2 then 0
          else s.get q PAGE_PWR.STATE) ∧
      (∀ m q, quarter s' m q = 0) ∧
      (∀ f ∈ (fieldsOf .arb).flatMap Field.each, s'.get (pgArb (4 + n)) f = resetOf (pgArb (4 + n)) f) ∧
      s'.get (pgArb (4 + n)) PAGE_CTRL.LOCK = s.get (pgArb (4 + n)) PAGE_CTRL.LOCK % 2 ∧
      (∀ id, resSlot id = 0x10 + n → s'.calOf id = resetCalendar (resKind id)) ∧
      (∀ y < 24, s'.link (dropLink n y 0) = Link.init) ∧ (∀ y < 24, s'.link (dropLink n y 1) = up y) ∧
      s' = { s with regs := s'.regs, res := s'.res, arbs := s'.arbs, links := s'.links })) ∧
    (s.prst n ≠ prstReset ∨ open_ = false → exec (.prstRelease n) s = .next s) ∧
    (∀ failed : BitVec 24, s.prst n = prstReleasing → s.net.stalled = [] →
      Gives (.prstReleasingDone n failed) s (fun s' =>
        s'.prst n = prstUp ∧ s'.get (pgCnet n) CNET_DROP_DOWN.DOWN = failed.toNat ∧
        s'.flag (pgCnet n) PAGE_STAT.DEGRADED = (failed != 0) ∧
        s'.get p CDIE_PRST_STAT.COUNT = min (s.get p CDIE_PRST_STAT.COUNT + 1) 65535 ∧
        OnlyRegs [(p, CDIE_PRST_STAT.STATE), (p, CDIE_PRST_STAT.COUNT), (pgCnet n, CNET_DROP_DOWN.DOWN),
          (pgCnet n, PAGE_STAT.DEGRADED)] s s')) ∧
    (∀ failed : BitVec 24, s.prst n ≠ prstReleasing → exec (.prstReleasingDone n failed) s = .next s)

/-! ## Messages and reductions (07 R195, R218 to R222, 11 R337) -/

/-- A message whose flits have been sent is written, sector by sector, to the destination's SRAM and its transfer completes
with status 0, as does one that a reset of its tile has left behind with what it carries; a destination that has gone down, or
that its host holds off, gives DEST_DOWN; one behind an earlier message of its tile to the same destination waits. -/
def Obligations.MessagesAreDelivered : Prop :=
  ∀ (t : TileId) (k : Fin 16) (s : State) (x : Xfer), (s.tile t).nth k.val = some x → x.kind = .nsnd →
    x.waits = true → x.inject = 0 →
    let code := x.target / 2 ^ 21
    let a := sramBase code + x.target % 2 ^ 21
    let n := 32 * x.sectors
    code < 0x600 → x.sram % 32 = 0 → a % 32 = 0 →
      ((s.tile t).firstFor x = true → s.dieDown (code / 128) = false → s.rangeRefused a n = false → s.asleep a n = false →
        (x.sent = none → Clean s (s.sramAt t x.sram) n → Gives (.nsndDeliver t k) s (fun s' =>
          (∀ i < x.sectors, s'.sector (a + 32 * i) = s.sector (s.sramAt t (x.sram + 32 * i))) ∧
          OnlyMem a n { s with tiles := s'.tiles } s' ∧ s'.tile t = (s.tile t).retire x stOk ∧ TilesBut t s s')) ∧
        (∀ l, x.sent = some l → l.length = x.sectors → (∀ w ∈ l, w.length = 36) → Gives (.nsndDeliver t k) s (fun s' =>
          (∀ i < x.sectors, s'.codeWordAt (a + 32 * i) = l.getD i []) ∧
          OnlyMem a n { s with tiles := s'.tiles } s' ∧ s'.tile t = (s.tile t).retire x stOk ∧ TilesBut t s s'))) ∧
      ((s.tile t).firstFor x = true → s.dieDown (code / 128) = true ∨ s.rangeRefused a n = true →
        Gives (.nsndDeliver t k) s (fun s' =>
          s'.tile t = (s.tile t).retire x stDestDown ∧ TilesBut t s s' ∧
          s' = { s with regs := s'.regs, tiles := s'.tiles } ∧
          (∀ p f, (∀ d, fieldKey p f ≠ fieldKey (pgCdie d) CDIE_DD_CNT.COUNT) → s'.get p f = s.get p f))) ∧
      ((s.tile t).firstFor x = false → exec (.nsndDeliver t k) s = .next s)

/-- A load of the group table takes its address and reads; a readable table whose descriptors are in order, at most 16
of them, replaces the groups and ends every round; one that cannot be read leaves them, with code 4. A member's oldest
contribution is taken into the round to which it has given none yet, its transfer completes, and with the last one the fold up
the tree goes to the root and the next round begins; a further one of the member waits; integer elements add with saturation,
take the greater or the bitwise OR. A round that takes too long fails: the group is marked and reported. -/
def Obligations.GroupTablesAndContributions : Prop :=
 (∀ s : State,
    let p := pgBnet 0
    (s.flag p BNET_RG_STAT.BUSY = false → Gives .bnetRgLoad s (fun s' => s'.flag p BNET_RG_STAT.BUSY = true ∧
      s' = { s with
        regs := s'.regs, red := { s.red with loading := some (s.getPair p BNET_RG_ADDR_LO.ADDR BNET_RG_ADDR_HI.ADDR) } } ∧
      RegsBut [(p, BNET_RG_STAT.BUSY)] s s')) ∧
    (s.flag p BNET_RG_STAT.BUSY = true → exec .bnetRgLoad s = .next s) ∧
    (∀ a, s.red.loading = some a → a % 32 = 0 →
      let img := (List.range 16384).map (fun i => s.dataByte (a + i))
      let valid := (List.range 64).filter (fun g => bit (field img (256 * g) 1) 7)
      let ends (s' : State) : Prop := s'.flag p BNET_RG_STAT.BUSY = false ∧ s'.red.loading = none ∧
        s' = { s with regs := s'.regs, red := s'.red }
      (s.rangeStatus a 16384 ≠ stOk → Gives .bnetRgLoadDone s (fun s' => ends s' ∧ s'.get p BNET_RG_STAT.ERR = 4 ∧
        s'.red = { s.red with loading := none })) ∧
      (s.rangeStatus a 16384 = stOk → (∃ y ∈ sectorsOf a 16384, (s.sector y).1.damaged = true) →
        Gives .bnetRgLoadDone s (fun s' => s'.get p BNET_RG_STAT.ERR = 4 ∧ s'.flag p BNET_RG_STAT.BUSY = false ∧
          s'.red = { s.red with loading := none })) ∧
      (s.rangeStatus a 16384 = stOk → Clean s a 16384 → valid.length ≤ 16 →
        (∀ g ∈ valid, s.groupErrors (slice img (256 * g) 256) = []) → s.red.rounds.any (fun e => e.2.running) = false →
        Gives .bnetRgLoadDone s (fun s' => ends s' ∧ s'.get p BNET_RG_STAT.ERR = 0 ∧
          s'.get p BNET_RG_STAT.VALID = valid.length ∧ (∀ g < 64, s'.groupFailed g = false) ∧
          s'.red = { s.red with
            groups := valid.map (fun g => (g, groupOfBytes (slice img (256 * g) 256))), rounds := [], loading := none })))) ∧
 ((∀ (t : TileId) (k : Fin 16) (s : State) (x : Xfer) (d : Group), (s.tile t).nth k.val = some x →
    let g := x.target / 2 ^ 21 - 0x700
    let l := s.logical t
    let r := s.round g
    let data := (List.range x.sectors).map (fun i => (s.sector (s.sramAt t (x.sram + 32 * i))).2)
    let got := r.got ++ [(l, data)]
    x.kind = .nsnd → x.waits = true → x.inject = 0 → x.sent = none → (s.tile t).firstFor x = true →
    0x700 ≤ x.target / 2 ^ 21 → s.group g = some d →
    s.groupFailed g = false → x.sectors = d.len + 1 → l ∈ d.members →
    ((∃ e ∈ r.got, e.1 = l) → exec (.reductionContribution t k) s = .next s) ∧
    ((∀ e ∈ r.got, e.1 ≠ l) → x.sram % 32 = 0 → Clean s (s.sramAt t x.sram) (32 * x.sectors) →
      (got.length < d.members.length → Gives (.reductionContribution t k) s (fun s' =>
        s'.round g = { r with got := got } ∧ (∀ h, h ≠ g → s'.round h = s.round h) ∧
        s'.tile t = (s.tile t).retire x stOk ∧ TilesBut t s s' ∧ s' = { s with tiles := s'.tiles, red := s'.red })) ∧
      (∀ v, d.members.length ≤ got.length → s.foldRound d got = some v → d.xpkg = 0 → d.kind = 0 →
        let a := sramBase d.root + d.addr
        let words := (foldOutput d.op v).map codeWord
        let next : Round := { Round.init with num := r.num + 1, taken := r.held }
        s.assigned d.root = true → s.prst (d.root / 128) = prstUp → s.rangeRefused a 32 = false → s.asleep a 32 = false →
        d.addr + 32 * words.length ≤ sramSize → next.damaged = false → Gives (.reductionContribution t k) s (fun s' =>
          s'.mem = (s.storeWords a words).mem ∧ s'.round g = next ∧
          s'.get (pgBnet 0) BNET_RED_DONE.COUNT = min (s.get (pgBnet 0) BNET_RED_DONE.COUNT + 1) (2 ^ 32 - 1) ∧
          s'.tile t = (s.tile t).retire x stOk ∧ TilesBut t s s' ∧
          RegsBut [(pgBnet 0, BNET_RED_DONE.COUNT)] s s' ∧
          s' = { s with mem := s'.mem, cache := s'.cache, regs := s'.regs, tiles := s'.tiles, red := s'.red })))) ∧
  (∀ a b : Word, (foldWord 2 a b).toInt = max (-2 ^ 31) (min (2 ^ 31 - 1) (a.toInt + b.toInt)) ∧
    (foldWord 4 a b).toInt = max a.toInt b.toInt ∧ foldWord 5 a b = a ||| b) ∧
  (∀ (g : BitVec 6) (s : State) (d : Group), s.group g.toNat = some d →
    s.get (pgBnet 0) BNET_RED_FAIL_LO.FAILED < 2 ^ 32 →
    let r := s.round g.toNat
    (r.got ≠ [] → s.groupFailed g.toNat = false → Gives (.reductionRoundTimeout g) s (fun s' =>
      s'.round g.toNat = { Round.init with num := r.num } ∧ s'.groupFailed g.toNat = true ∧
      s'.get (pgBnet 0) PAGE_ERR_CNT_U.COUNT = min (s.get (pgBnet 0) PAGE_ERR_CNT_U.COUNT + 1) (2 ^ 32 - 1) ∧
      s'.tiles = s.tiles ∧ s'.red.groups = s.red.groups)) ∧
    (r.got = [] ∨ s.groupFailed g.toNat = true → exec (.reductionRoundTimeout g) s = .next s)))

/-- A fabric packet that meets every condition is taken into the round that it names: into the round under way while the
package has no value of its own to bring, or held for the next, where it is judged when that round begins; damaged sectors fail
the round under way; a packet that misses a condition is dropped, counted and reported with the first condition it misses. -/
def Obligations.FabricPacketsAreJudged : Prop :=
  ∀ (i : FPort) (head : List Byte) (body : List (List Byte)) (s : State),
    let c := Instr.fabricPacketReceive i head body
    let e := decodeSector (slice head 0 36)
    let h := e.2
    let g := field h 1 1 % 64
    let r := s.round g
    let item := (field h 0 1 == 0x12, field h 3 1 % 4, body)
    let next : Round := { r with taken := r.taken ++ [item] }
    let current := field h 2 1 = r.num % 256
    c.wellFormed = true →
    (s.fabricRefusal i e body.length = none →
      (¬current → Gives c s (fun s' => s' = { s with red := s'.red } ∧
        s'.round g = { r with held := r.held ++ [item] } ∧ s'.red.groups = s.red.groups ∧
        ∀ j, j ≠ g → s'.round j = s.round j)) ∧
      (current → next.damaged = false → r.value = none → Gives c s (fun s' => s' = { s with red := s'.red } ∧
        s'.round g = next ∧ s'.red.groups = s.red.groups ∧ ∀ j, j ≠ g → s'.round j = s.round j)) ∧
      (current → next.damaged = true → s.get (pgBnet 0) BNET_RED_FAIL_LO.FAILED < 2 ^ 32 →
        Gives c s (fun s' => s'.groupFailed g = true ∧ s'.round g = { Round.init with num := r.num } ∧ s'.tiles = s.tiles))) ∧
    (∀ n, s.fabricRefusal i e body.length = some n → n < 256 → Gives c s (fun s' =>
      s'.get (pgFprt i) FPRT_PKT_DROP.COUNT = min (s.get (pgFprt i) FPRT_PKT_DROP.COUNT + 1) (2 ^ 32 - 1) ∧
      (s.get (pgFprt i) PAGE_ERR_FIRST.VALID = 0 → s'.get (pgFprt i) PAGE_ERR_FIRST.CODE = 0x22 ∧
        s'.get (pgFprt i) PAGE_ERR_FIRST.SYNDROME = (if e.1.damaged then 0 else g) * 256 + n) ∧
      s' = { s with regs := s'.regs, log := s'.log } ∧
      RegsBut ((pgFprt i, FPRT_PKT_DROP.COUNT) :: errFields (pgFprt i)) s s'))

/-! ## Soft resets (02 R43 to R45, 04 R487, 05 R492, 08 R234, 12 R361, R367, R489) -/

/-- The commands that write 1 to `PAGE_CTRL.SRST` of a page. -/
def Sys2Proof.Say.softForm (c : Instr) (p : PageRef) : Prop :=
  c = .softReset p ∨ (∃ t, c = .tileSoftReset t ∧ p = pgTile t) ∨ (∃ n m, c = .nmemSoftReset n m ∧ p = pgNmem n m) ∨
  (∃ k, c = .erowSoftReset k ∧ p = pgErow k) ∨ (c = .ropeSoftReset ∧ p = pgRope) ∨
  (∃ h, c = .hprtSoftReset h ∧ p = pgHprt h) ∨ (c = .hbrgSoftReset ∧ p = pgHbrg) ∨
  (∃ w, c = .subwSoftReset w ∧ p = pgSubw w) ∨ (∃ d, c = .dmaSoftReset d ∧ p = pgDma d)

/-- A soft reset that a page takes, with its block in no transition, returns every RW register of the block, and every
RWL one of an unlocked page, to its reset value; it keeps the lock, its hit, the error registers (but where a port
discards frames) and the RWL registers of a locked page, and nothing outside the page changes where the page holds
registers only. It shows as under way until it is done when the block is on. On a page in transition it waits; one
that is not taken does nothing. A soft reset empties the block: a tile in service keeps its scratch, its SRAM, a
fence and the writes that it has already sent, and loses the rest; the row engines of a layer or of a stack hold no
command, and the transfers that waited for one end with 0x2B; a window discards what waits and the records of what runs;
a DMA channel holds no descriptor, or with a piece under way goes on to that piece's end and stays busy; no rope is open
and no attention runs. -/
def Obligations.SoftResetsReturnPageAndBlock : Prop :=
 (∀ (c : Instr) (p : PageRef) (t : PType) (i : Nat) (s : State), softForm c p → pageAt p = some (t, i) →
    (s.softTaken p t i = true → s.pagePower p ≠ 3 → (t = .dma → (s.dma i).run = none) → Gives c s (fun s' =>
      (s'.flag p PAGE_STAT.SRST_BUSY = true ↔ s.pagePower p = 0) ∧
      (∀ f ∈ (fieldsOf t).flatMap Field.each,
        (f.acc = .rw ∨ (f.acc = .rwl ∧ s.flag p PAGE_CTRL.LOCK = false) → s'.get p f = resetOf p f) ∧
        (f.acc = .rwl → s.flag p PAGE_CTRL.LOCK = true → s'.get p f = s.get p f % 2 ^ (f.hi + 1 - f.lo))) ∧
      (∀ f ∈ [PAGE_CTRL.LOCK, PAGE_STAT.LOCK_HIT], s'.get p f = s.get p f % 2) ∧
      (t ≠ .fprt → t ≠ .hprt → ∀ f ∈ [PAGE_ERR_CNT_C.COUNT, PAGE_ERR_CNT_U.COUNT, PAGE_ERR_FIRST.VALID,
        PAGE_ERR_FIRST.CODE, PAGE_ERR_FIRST.SYNDROME, PAGE_ERR_NEXT.COUNT],
        s'.get p f = s.get p f % 2 ^ (f.hi + 1 - f.lo)) ∧
      (t ∈ [PType.hbrg, .clk, .pwr, .seam, .cnet] → s' = { s with
          regs := s'.regs, staged := s'.staged, latched := s'.latched } ∧
        ∀ q f, (fieldKey q f < 32 * pageKey p ∨ 32 * (4096 + pageKey p) ≤ fieldKey q f) → s'.get q f = s.get q f))) ∧
    (s.softTaken p t i = true → s.pagePower p = 3 → Gives c s (fun s' => s'.flag p PAGE_STAT.SRST_BUSY = true ∧
      s' = { s with regs := s'.regs, softWait := s.softWait ++ [p] } ∧ RegsBut [(p, PAGE_STAT.SRST_BUSY)] s s')) ∧
    (s.softTaken p t i = false → exec c s = .next s) ∧
    (s.flag p PAGE_STAT.SRST_BUSY = true → s.softHeld p = false → Gives (.softResetDone p) s (fun s' =>
      s'.flag p PAGE_STAT.SRST_BUSY = false ∧ OnlyRegs [(p, PAGE_STAT.SRST_BUSY)] s s')) ∧
    (s.softHeld p = true → exec (.softResetDone p) s = .next s)) ∧
 ((∀ (t : TileId) (s : State), let p := pgTile t
    s.softTaken p .tile t = true → s.pagePower p = 0 → s.tileServes t = true →
      Gives (.tileSoftReset t) s (fun s' => s'.tile t = { Tile.init with
          scratch := (s.tile t).scratch, scratchBad := (s.tile t).scratchBad, nextId := (s.tile t).nextId,
          xfers := s.sentOff t, taintWait := (s.tile t).taintWait, outEnded := (s.tile t).outEnded } ∧
        s'.tileRun t = (if s.tileRun t = runFenced then runFenced else runIdle) ∧
        (∀ f ∈ [TILE_PC.PC, TILE_STAT.CAUSE, TILE_ARR_STAT.STATE, TILE_ZERO_CNT.COUNT], s'.get p f = 0) ∧
        TilesBut t s s' ∧
        s' = { s with regs := s'.regs, tiles := s'.tiles, staged := s'.staged, latched := s'.latched })) ∧
  (∀ (n : Die) (m : Fin 4) (k : Stack) (s : State),
    let cut (l : List Nat) (s' : State) : Prop :=
      (∀ e ∈ l, s'.engineQ e = [] ∧ ∀ c ∈ s.engineQ e, ∀ t id, c.issuer = .tile t id →
        ∀ x ∈ (s'.tile t).xfers, x.id = id → x.waits = false ∧ x.status = 0x2B) ∧
      (∀ e, e ∉ l → s'.engineQ e = s.engineQ e)
    (s.softTaken (pgNmem n m) .nmem (4 * n + m) = true → s.pagePower (pgNmem n m) ≠ 3 →
      Gives (.nmemSoftReset n m) s (cut ((List.range 4).map (nearEngine n m)))) ∧
    (s.softTaken (pgErow k) .erow k = true → s.pagePower (pgErow k) ≠ 3 →
      Gives (.erowSoftReset k) s (cut ((List.range 32).map (edgeEngine k))))) ∧
  (∀ (w : Sys2Proof.Win) (s : State), s.softTaken (pgSubw w) .subw w = true → Gives (.subwSoftReset w) s (fun s' =>
    s'.win w = { flags := [], flight := (s.win w).flight.map (fun f => { f with discard := true }) } ∧
    s'.get (pgSubw w) SUBW_PTR.TAIL = 0 ∧ s'.mem = s.mem ∧ s'.tiles = s.tiles)) ∧
  (∀ (d : Chan) (s : State), s.softTaken (pgDma d) .dma d = true →
    ((s.dma d).run = none → Gives (.dmaSoftReset d) s (fun s' => s'.dma d = Dma.init ∧ s'.tiles = s.tiles)) ∧
    ((s.dma d).run ≠ none → Gives (.dmaSoftReset d) s (fun s' => s'.dma d = { s.dma d with stop := true } ∧
      s'.flag (pgDma d) PAGE_STAT.SRST_BUSY = true ∧ s'.softHeld (pgDma d) = true ∧
      (∀ e, e ≠ d.val → s'.dma e = s.dma e) ∧ s' = { s with regs := s'.regs, dmas := s'.dmas } ∧
      RegsBut [(pgDma d, DMA_STAT.QUEUED), (pgDma d, DMA_STAT.BUSY), (pgDma d, PAGE_STAT.SRST_BUSY)] s s'))) ∧
  (∀ s : State, s.softTaken pgRope .rope 0 = true → Gives .ropeSoftReset s (fun s' =>
    s'.ropes = [] ∧ s'.kv = { Kv.init with nextJob := s.kv.nextJob } ∧ s'.attn.cmds = [] ∧ s'.attn.accepts = [] ∧
    s'.flag pgCairn CAIRN_STAT.ACTIVE = false ∧
    s'.mem = s.mem ∧ s'.tiles = s.tiles)))

/-! ## Jodar Link ports (11, 12 R343 to R345) -/

namespace Sys2Proof.Say

/-- The fields in which a port's training shows. -/
def trainFields (i : Nat) : Fields :=
  let p := portPage i
  [(p, portField i FPRT_STAT.STATE HPRT_STAT.STATE), (p, portField i FPRT_STAT.VER HPRT_STAT.VER),
   (p, portField i FPRT_STAT.RETRAINS HPRT_STAT.RETRAINS), (p, portField i FPRT_STAT.NO_VER HPRT_STAT.NO_VER),
   (p, portField i FPRT_REPLAY.COUNT HPRT_REPLAY.COUNT)]
    ++ if isHostPort i then [(p, HPRT_STAT.WIDTH), (p, PAGE_STAT.DEGRADED)] else [(p, FPRT_DOWN.COUNT), (p, FPRT_DROP.COUNT), (p, FPRT_PKT_DROP.COUNT)]

/-- The fields in which a port records its neighbour. -/
def neighbourFields (i : Nat) : Fields :=
  let p := portPage i
  if isHostPort i then [(p, HPRT_PEER_LO.DEVNUM), (p, HPRT_PEER_HI.DEVNUM)]
  else [(p, FPRT_NBR_ID_LO.DEVNUM), (p, FPRT_NBR_ID_HI.DEVNUM), (p, FPRT_NBR.VALID), (p, FPRT_NBR.PORT),
    (p, FPRT_NBR_RING_N.RING), (p, FPRT_NBR_RING_P.RING)]

/-- A port comes to state `st` with the link state `q`, by changes of these register fields alone. -/
def PortMoves (i st : Nat) (q : Port) (l : Fields) (s s' : State) : Prop :=
  s'.portState i = st ∧ s'.port i = q ∧ (∀ j, j ≠ i → s'.port j = s.port j) ∧
  s' = { s with regs := s'.regs, ports := s'.ports } ∧ RegsBut l s s'

/-- No frame of the port and no reduction round waits for an acknowledgement. -/
def NothingOut (s : State) (i : Nat) : Prop :=
  (s.port i).replay = [] ∧ ∀ e ∈ s.red.rounds, e.2.leaving = none

end Sys2Proof.Say

/-- The states of a port: `EN` starts and ends training; a lock leads to EXCHANGE, of one lane group of a host port after
its time where `HALF` allows, else to WAIT, as does PHY without a lock; WAIT leads to PHY; an EXCHANGE of a common version
leads to UP with the neighbour recorded and the frames after its `ACK` sent again, without one to WAIT; in UP it retrains,
as do a lost lock and `RETRAIN`: to PHY with the replay buffer kept. A lock at a port that is off is a signal on its
lanes. -/
def Obligations.PortsTrain : Prop :=
  ∀ (r : PortRef) (s : State),
    let i := portNumber r
    let p := portPage i
    let st := s.portState i
    let q := s.port i
    let F := trainFields i
    let retrained (s' : State) : Prop := PortMoves i ptPhy { q with locked := 0, lpAsked := false, naks := 0 } F s s' ∧
      s'.portVer i = 0 ∧ s'.get p (portField i FPRT_STAT.RETRAINS HPRT_STAT.RETRAINS) =
        min (s.get p (portField i FPRT_STAT.RETRAINS HPRT_STAT.RETRAINS) + 1) 255
    (∀ f : FPort, r = .fabric f →
      (s.flag p PAGE_CAPS.LIC_OFF = false → s.portPower i ≠ 2 → st = ptDisabled → Gives (.fprtEnable f) s (fun s' =>
        PortMoves i ptPhy q ((p, PAGE_CTRL.EN) :: F) s s' ∧ s'.flag p PAGE_CTRL.EN = true)) ∧
      (s.flag p PAGE_CAPS.LIC_OFF = true → exec (.fprtEnable f) s = .next s) ∧
      (NothingOut s i → Gives (.fprtDisable f) s (fun s' =>
        PortMoves i ptDisabled { q with queue := [], rx := [], locked := 0, lpAsked := false, naks := 0 }
          ((p, PAGE_CTRL.EN) :: F) s s' ∧ s'.flag p PAGE_CTRL.EN = false ∧ s'.portVer i = 0 ∧
        s'.get p FPRT_DOWN.COUNT = (if st = ptUp then min (s.get p FPRT_DOWN.COUNT + 1) (2 ^ 32 - 1)
          else s.get p FPRT_DOWN.COUNT) ∧
        s'.get p FPRT_PKT_DROP.COUNT = min (s.get p FPRT_PKT_DROP.COUNT + wholePackets q.queue) (2 ^ 32 - 1))) ∧
      (st = ptUp → Gives (.fprtRetrain f) s retrained) ∧ (st ≠ ptUp → exec (.fprtRetrain f) s = .next s)) ∧
    (∀ h : HPort, r = .host h →
      (st = ptUp → Gives (.hprtRetrain h) s retrained) ∧ (st ≠ ptUp → exec (.hprtRetrain h) s = .next s) ∧
      (∀ g : Fin 2, st = ptPhy → q.locked = 2 ^ g.val →
        (s.flag p HPRT_CFG.HALF = true → Gives (.halfLockTimeout h g) s (fun s' => PortMoves i ptExchange q F s s' ∧
          s'.get p HPRT_STAT.WIDTH = 1 + g.val ∧ s'.flag p PAGE_STAT.DEGRADED = true)) ∧
        (s.flag p HPRT_CFG.HALF = false → NothingOut s i → Gives (.halfLockTimeout h g) s
          (PortMoves i ptWait { q with queue := [], rx := [], locked := 0 } F s))) ∧
      (∀ g : Fin 2, st = ptPhy → Gives (.fecLock r (BitVec.ofNat 2 (2 ^ g.val))) s
        (PortMoves i ptPhy { q with locked := 2 ^ g.val } F s))) ∧
    (st = ptPhy → Gives (.fecLock r 3#2) s (PortMoves i ptExchange { q with locked := 3 } F s)) ∧
    (∀ g : BitVec 2, st ≠ ptPhy → Gives (.fecLock r g) s
      (PortMoves i st { q with sensed := q.sensed || s.portPower i != 0 } [] s)) ∧
    (st = ptPhy → q.locked = 0 → NothingOut s i →
      Gives (.phyTimeout r) s (PortMoves i ptWait { q with queue := [], rx := [] } F s)) ∧
    (st = ptWait → Gives (.waitTimeout r) s (PortMoves i ptPhy q F s)) ∧
    (st = ptExchange → exec (.exchangeSendTimer r) s =
      .next (s.sendJodar i (s.portFrame i ftControl 0 [(3, s.controlWord i ctExchange)]))) ∧
    (st = ptUp → Gives (.fecLockLoss r) s retrained) ∧ (st ≠ ptUp → exec (.fecLockLoss r) s = .next s) ∧
    (∀ (c : Control) (a : BitVec 12),
      let common := s.portVers i &&& c.vers.toNat
      let id : Nat × Nat := (c.devnum.toNat, if isHostPort i then 0 else c.port.toNat)
      let q0 : Port := if q.beenUp = true ∧ q.peer ≠ id then { q with nextSeq := 0, last := 4095, rx := [] } else q
      let nover := portField i FPRT_STAT.NO_VER HPRT_STAT.NO_VER
      (st = ptUp → Gives (.exchangeReceive r ⟨c, a⟩) s retrained) ∧
      (st = ptExchange → isHostPort i = false → (bit common 1 || bit common 0) = true → q.beenUp = true → q.peer = id →
        (∀ e ∈ s.red.rounds, e.2.leaving = none) → q.queue = [] →
        ∀ j, q.replay.findIdx? (fun e => e.seq == a.toNat) = some j → Gives (.exchangeReceive r ⟨c, a⟩) s (fun s' =>
          s'.portState i = ptUp ∧ (s'.port i).replay = q.replay.drop (j + 1) ∧
          s'.out = s.out ++ (q.replay.drop (j + 1)).map (fun e => .jodar i 0 (jodarFrame ftData e.seq q.last 0 e.words)))) ∧
      (st = ptExchange → NothingOut s i → q.queue = [] → (∀ d ∈ s.bridge.devWait, d.port ≠ i) →
        (∀ v, v = (if bit common 1 then 2 else if bit common 0 then 1 else 0) →
          (v ≠ 0 → Gives (.exchangeReceive r ⟨c, a⟩) s (fun s' => s'.portVer i = v ∧ s'.neighbour i = id ∧
            s'.flag p nover = false ∧ PortMoves i ptUp { q0 with
              beenUp := true, peer := id, freed := 0, credit := 0, sent := 0, waiting := false, naks := 0, lane := 0 }
              (F ++ neighbourFields i) s s')) ∧
          (v = 0 → Gives (.exchangeReceive r ⟨c, a⟩) s (fun s' => s'.portVer i = 0 ∧ s'.neighbour i = id ∧
            s'.flag p nover = true ∧ PortMoves i ptWait { q with
              rx := [], locked := 0, lpAsked := false, naks := 0 } (F ++ neighbourFields i) s s')))))

/-- Frames at an UP port: a bad one counts, where a data frame is meant or awaited, and draws a NAK; a data frame with
the next number is taken and its code words freed, any other is discarded, its credit taken all the same, and an idle
frame carries the answer; a NAK frees what it acknowledges and the other frames are sent again, in order; a port that
waits repeats its NAK. The RS code words that the decoder corrected, and those that it could not, count. A host port's
frames alternate between its lane groups, or go by the one that it has. Retention and rings: a port that is asked agrees
where its tolerance allows, or says no, and moves nowhere; one that has asked sleeps when its neighbour agrees and it may
still, and stays up otherwise; a sleeping port senses the wish to leave. The neighbour's ring registers are copied, and a
port's own, written while unlocked, are sent on at once and again in time. `CLR` clears the six counters of the page. -/
def Obligations.JodarFramesRingsAndSleep : Prop :=
 (∀ (r : PortRef) (f : List Byte) (bad : Bool) (fixed lost : BitVec 8) (a : BitVec 12) (s : State),
    let i := portNumber r
    let p := portPage i
    let q := s.port i
    let c := Instr.fabricFrameReceive r f ⟨bad, fixed, lost⟩
    let ft := field f 0 1 % 16
    let w := s.get p HPRT_STAT.WIDTH
    let half : Bool := isHostPort i && (w == 1 || w == 2)
    let lane := if isHostPort i then (if half then w - 1 else q.lane) else 0
    let after (q' : Port) : Port := if isHostPort i && !half then { q' with lane := 1 - q.lane } else q'
    let nak : List Byte := s.portFrame i ftNak 0 []
    let now (s' : State) (q' : Port) : Prop := s'.port i = q' ∧ ∀ j, j ≠ i → s'.port j = s.port j
    let fecC := portField i FPRT_FEC_C.COUNT HPRT_FEC_C.COUNT
    let fecU := portField i FPRT_FEC_U.COUNT HPRT_FEC_U.COUNT
    let replays := portField i FPRT_REPLAY.COUNT HPRT_REPLAY.COUNT
    let decoded (s' : State) : Prop := s'.get p fecC = min (s.get p fecC + fixed.toNat) (2 ^ 32 - 1) ∧
      s'.get p fecU = min (s.get p fecU + lost.toNat) (2 ^ 32 - 1)
    s.portState i = ptUp →
    (c.wellFormed = true →
      (bad = true ∨ 0 < lost.toNat ∨ crc32c (f.take 152) ≠ field f 152 4 → Gives c s (fun s' =>
        now s' (after { q with waiting := true }) ∧ s'.out = s.out ++ [.jodar i lane nak] ∧ decoded s' ∧
        s'.get p PAGE_ERR_CNT_C.COUNT = (if ft = ftData ∨ q.waiting = true
          then min (s.get p PAGE_ERR_CNT_C.COUNT + 1) (2 ^ 32 - 1) else s.get p PAGE_ERR_CNT_C.COUNT) ∧
        s' = { s with regs := s'.regs, log := s'.log, ports := s'.ports, out := s'.out } ∧
        RegsBut ((p, fecC) :: (p, fecU) :: errFields p) s s')) ∧
      (bad = false → lost = 0 → crc32c (f.take 152) = field f 152 4 → ft = ftData → NothingOut s i → q.queue = [] →
        (∀ d ∈ s.bridge.devWait, d.port ≠ i) → s.portPower i = 0 →
        let crd := field f 6 2 % 4096
        let n := bits (field f 0 1) 6 4
        let next := (q.last + 1) % 4096
        let answered (s' : State) (q' : Port) : Prop := now s' (after q') ∧ decoded s' ∧
          s'.out = s.out ++ [.jodar i lane (jodarFrame ftIdle 0 q'.last q'.freed [])] ∧
          s' = { s with regs := s'.regs, ports := s'.ports, out := s'.out } ∧ RegsBut [(p, fecC), (p, fecU)] s s'
        (field f 1 2 % 4096 = next → Gives c s (fun s' => answered s' { q with
          credit := crd, last := next, waiting := false, freed := (q.freed + n) % 4096, rx := (s'.port i).rx })) ∧
        (field f 1 2 % 4096 ≠ next → Gives c s (fun s' => answered s' { q with credit := crd })))) ∧
    (∀ j, q.replay.findIdx? (fun e => e.seq == a.toNat) = some j → (∀ e ∈ s.red.rounds, e.2.leaving = none) →
      let left := q.replay.drop (j + 1)
      Gives (.fabricNakReceive r a) s (fun s' =>
        now s' { q with replay := left, nakSeq := (a.toNat + 1) % 4096, naks := 1, lane := (s'.port i).lane } ∧
        (∃ lanes : List Nat, lanes.length = left.length ∧ (isHostPort i = false → ∀ l ∈ lanes, l = 0) ∧
          s'.out = s.out ++ (lanes.zip left).map (fun e => .jodar i e.1 (s.portFrame i ftData e.2.seq e.2.words))) ∧
        s'.get p replays = min (s.get p replays + left.length) (2 ^ 32 - 1) ∧
        s' = { s with regs := s'.regs, ports := s'.ports, out := s'.out } ∧ RegsBut [(p, replays)] s s')) ∧
    (q.waiting = true → Gives (.fabricNakRepeat r) s (fun s' => now s' (after q) ∧
      s' = { s with ports := s'.ports, out := s.out ++ [.jodar i lane nak] })) ∧
    (q.waiting = false → exec (.fabricNakRepeat r) s = .next s)) ∧
 (∀ (r : PortRef) (s : State),
    let i := portNumber r
    let p := portPage i
    let st := s.portState i
    let q := s.port i
    let d := portDomain i
    let said (s : State) (ct : Nat) : List Byte := s.portFrame i ftControl 0 [(3, s.controlWord i ct)]
    let tolerates : Bool := decide (5000 ≤ s.get p PAGE_LATTOL.TOL_NS)
    let may : Bool := st == ptUp && s.portPower i == 0 && s.get p PAGE_PWR.REQ == 0 && tolerates && s.portIdle i &&
      !s.shutDown d
    let F := (p, PAGE_PWR.STATE) :: trainFields i
    let othersKept (s' : State) : Prop := ∀ j, j ≠ i → s'.port j = s.port j
    let ringFields (n : Bool) : Fields := if n then [(p, FPRT_RING_P.VALID), (p, FPRT_RING_P.RING), (p, FPRT_RING_P.NM1),
      (p, FPRT_RING_P.POS)] else [(p, FPRT_RING_N.VALID), (p, FPRT_RING_N.RING), (p, FPRT_RING_N.NM1), (p, FPRT_RING_N.POS)]
    (st = ptUp → exec (.lpReq r) s = .next (s.sendJodar i (said s (if tolerates then ctLpAck else ctLpNak)))) ∧
    (st ≠ ptUp → exec (.lpReq r) s = .next s) ∧
    (q.lpAsked = true → may = true → Gives (.lpAck r) s (fun s' =>
      s'.portState i = ptLowPower ∧ s'.port i = { q with lpAsked := false } ∧ othersKept s' ∧
      s'.domState d = 3 ∧ s'.moveOf d = some ⟨d, 1, false⟩ ∧
      s' = { s with regs := s'.regs, ports := s'.ports, moves := s'.moves } ∧ RegsBut F s s')) ∧
    (q.lpAsked = true → may = false → Gives (.lpAck r) s (fun s' => s' = { s with ports := s'.ports } ∧
      s'.port i = { q with lpAsked := false } ∧ othersKept s')) ∧
    (q.lpAsked = false → exec (.lpAck r) s = .next s) ∧
    Gives (.lpNak r) s (fun s' => s' = { s with ports := s'.ports } ∧ s'.port i = { q with lpAsked := false } ∧
      othersKept s') ∧
    Gives (.lpExit r) s (fun s' => s' = { s with ports := s'.ports } ∧ othersKept s' ∧
      s'.port i = { q with sensed := q.sensed || s.portPower i != 0 }) ∧
    (∀ f : FPort, r = .fabric f →
      (∀ c : Control, st = ptUp ∨ st = ptLowPower ∨ st = ptExchange → Gives (.ringUpdate f c) s (fun s' =>
        s'.neighbour i = (c.devnum.toNat, c.port.toNat) ∧ s'.get p FPRT_NBR_RING_N.RING = c.ringN.toNat ∧
        s'.get p FPRT_NBR_RING_P.RING = c.ringP.toNat ∧ OnlyRegs (neighbourFields i) s s')) ∧
      (st = ptUp → exec (.ringUpdateTimer f) s = .next { s with out := s.out ++ [.jodar i 0 (said s ctRingUpdate)] }) ∧
      (∀ (prev : Bool) (v : Word), s.flag p PAGE_CTRL.LOCK = false → Gives (.fprtRingWrite f prev v) s (fun s' =>
        s'.ringWord i prev = v.toNat &&& 0x8007FFFF ∧ RegsBut (ringFields prev) s s' ∧
        s' = { s with regs := s'.regs, out := s'.out } ∧
        s'.out = s.out ++ (if st = ptUp then [.jodar i 0 (said s' ctRingUpdate)] else []))) ∧
      Gives (.fprtClr f) s (fun s' =>
        let l : Fields := [FPRT_FEC_C.COUNT, FPRT_FEC_U.COUNT, FPRT_REPLAY.COUNT, FPRT_DROP.COUNT, FPRT_PKT_DROP.COUNT,
          FPRT_DOWN.COUNT].map (fun g => (p, g))
        OnlyRegs l s s' ∧ ∀ e ∈ l, s'.get e.1 e.2 = 0)) ∧
    (∀ h : HPort, r = .host h → Gives (.hprtClr h) s (fun s' =>
      let l : Fields := [HPRT_FEC_C.COUNT, HPRT_FEC_U.COUNT, HPRT_REPLAY.COUNT, HPRT_DROP.COUNT, HPRT_REFUSED.COUNT,
        HPRT_LOST.COUNT].map (fun g => (p, g))
      OnlyRegs l s s' ∧ ∀ e ∈ l, s'.get e.1 e.2 = 0)))

/-! ## The host link, the windows and the DMA channels (12) -/

namespace Sys2Proof.Say

/-- What an access to `n` bytes of a runtime requester is as it begins (04 R114, 07 R204). -/
def newAccess (s : State) (who : Nat) (use : AccessFor) (a n : Nat) (words : Option (List (List Byte))) : MemAccess :=
  { id := s.bridge.nextAcc, who := who, use := use, addr := a, len := n, words := words, todo := s.accessSectors a n,
    got := [], up := s.accFlits a n words.isSome, status := stOk }

/-- Every sector that an access moves lies in a calendared resource and is open to it. -/
def InSlots (s : State) (a n : Nat) : Prop :=
  ∀ x ∈ s.accessSectors a n, (resOfSector x).isSome = true ∧ s.rangeStatus x 32 = stOk ∧ s.rangeRefused x 32 = false

/-- The bridge without the device request that a tag names, and without a packet of it that still waits. -/
def withoutRequest (b : Bridge) (i tag : Nat) : Bridge :=
  { b with devReqs := b.devReqs.filter (fun e => !(e.1 == i && e.2.1 == tag)),
           devWait := b.devWait.filter (fun d => !(d.port == i && d.req.any (fun r => r.1 == tag))) }

end Sys2Proof.Say

/-- A host request in due form whose memory is there and open to runtime traffic begins as an access that slots serve;
once nothing of it is left to move it completes: a read with the bytes found, with DATA_UE and the lowest address where
a sector was damaged, a write with status 0. A register read completes with the value, a register write with its
effect. A request that breaks a rule of form completes with BAD_SIZE, one to a hole with NO_TARGET, a write of a damaged
code word with DATA_UE, and one that its target refuses with that status, without effect. What ends without an answer: a
completion ends the device request that it names, and counts as dropped where it names none; a record's write ends after
its time; a host request that has waited too long is counted and completes LOST; a packet that has waited too long for a
closed port is counted and dropped, with the place of its record. -/
def Obligations.HostRequestsAndTimeouts : Prop :=
 (∀ (h : HPort) (q : HostHead) (data : List (List Byte)) (s : State), NothingWaits s →
    let i := 12 + h.val
    let a := q.addr.toNat
    let n := hostLen q
    let done (s : State) (v : Nat) : State := s.complete i q stOk false 0 0 v []
    let c : Instr := if q.ht = 1 then .hostMemoryRead h q else if q.ht = 2 then .hostMemoryWrite h q data
      else if q.ht = 3 then .hostRegisterRead h q else .hostRegisterWrite h q
    let d : List (List Byte) := if q.ht = 2 then data else []
    let damaged : Bool := data.any (fun w => (decodeSector w).1 == .uncorrectable)
    let begins (words : Option (List (List Byte))) : Prop := exec c s = .next { s with bridge := { s.bridge with
      accs := [newAccess s h.val (.host i q) a n words], nextAcc := s.bridge.nextAcc + 1 } }
    c.wellFormed = true → (1 ≤ q.ht.toNat ∧ q.ht.toNat ≤ 4) →
    (s.hostBad i q d = true → exec c s = .next (s.refuseHost i q stBadSize)) ∧
    (s.hostBad i q d = false →
      (s.runtimeStatus a n = stOk → InSlots s a n →
        (q.ht = 1 → begins none) ∧
        (q.ht = 2 → damaged = false → begins (some (data.map (fun w =>
          if (decodeSector w).1 = .poisoned then poisonWord else codeWord (decodeSector w).2))))) ∧
      (q.ht = 1 ∨ q.ht = 2 →
        (s.rangeStatus a n = stNoTarget → exec c s = .next (s.refuseHost i q stNoTarget)) ∧
        (s.rangeStatus a n ≠ stNoTarget → q.ht = 2 → damaged = true → exec c s = .next (s.refuseHost i q stDataUE)) ∧
        (s.runtimeStatus a n = stNoSlot → (q.ht = 2 → damaged = false) → exec c s = .next (s.refuseHost i q stNoSlot)) ∧
        (s.runtimeStatus a n = stDestDown → (q.ht = 2 → damaged = false) →
          exec c s = .next ((s.downDrop a n).refuseHost i q stDestDown))) ∧
      (q.ht = 3 → s.regStatus a = stOk →
        exec c s = .next (done (s.readReg h (pageOf a) (offOf a)).1 (s.readReg h (pageOf a) (offOf a)).2)) ∧
      (∀ t : TileId, q.ht = 4 → a = (regAddr (pgTile t) 0x044).toNat → s.pageStatus (pgTile t) = stOk →
        s.blockHidden (pgTile t) .tile t = false →
        ∃ r : State, OnlyRegs [(pgTile t, TILE_ENTRY.ADDR), (pgTile t, TILE_ENTRY.BMODE)] s r ∧
          r.get (pgTile t) TILE_ENTRY.ADDR = bits q.rdata.toNat 20 4 ∧
          r.get (pgTile t) TILE_ENTRY.BMODE = bits q.rdata.toNat 0 0 ∧ exec c s = .next (done r 0)))) ∧
 (∀ (r : Requester) (b : Addr) (v : Word) (h : HPort) (q : HostHead) (x : MemAccess) (s : State),
    let i := 12 + h.val
    let u : State := { s with bridge := { s.bridge with accs := [] } }
    let ends (t : State) : Prop := exec (.registerWrite r b v) s = .next t
    NothingWaits u → s.bridge.accs = [x] → x.use = .host i q → x.todo = [] → x.up = [] → s.regStatus b.toNat ≠ stOk →
    (x.status = stOk → x.words = none →
      (x.firstBad = none → ends (u.complete i q stOk false x.len 0 0 x.readWords)) ∧
      (∀ e, x.firstBad = some e → ends (u.complete i q stDataUE true x.len e 0 x.readWords))) ∧
    (x.status = stOk → x.words ≠ none → ends (u.complete i q stOk false 0 0 0 [])) ∧
    (x.status = stNoTarget ∨ x.status = stWinBusy ∨ x.status = stBadSize → ends (u.refuseHost i q x.status))) ∧
 (∀ (h : HPort) (q : HostHead) (data : List (List Byte)) (tag : Word) (s : State),
    let i := 12 + h.val
    let p := pgHprt h
    let plus (s' : State) (g : PageRef) (f : Field) : Prop := s'.get g f = min (s.get g f + 1) (2 ^ 32 - 1)
    let c := Instr.hostCompletionReceive h ⟨q, data⟩
    (NothingWaits s → q.ht = 0x13 → c.wellFormed = true →
      (s.requestOf i q.tag.toNat = some .record →
        exec c s = .next { s with bridge := withoutRequest s.bridge i q.tag.toNat }) ∧
      (s.requestOf i q.tag.toNat = none → Gives c s (fun s' =>
        plus s' p HPRT_DROP.COUNT ∧ OnlyRegs [(p, HPRT_DROP.COUNT)] s s'))) ∧
    ((∀ d, s.requestOf i tag.toNat ≠ some (.dma d)) → exec (.deviceRequestTimeout h tag) s =
      .next { s with bridge := withoutRequest s.bridge i tag.toNat }) ∧
    (∀ r : HostReq, NothingWaits { s with bridge := { s.bridge with hostReqs := [] } } → s.bridge.hostReqs = [r] →
      r.port = i → r.head.tag = tag → ∃ u : State, plus u p HPRT_LOST.COUNT ∧ RegsBut [(p, HPRT_LOST.COUNT)] s u ∧
        u = { s with regs := u.regs, bridge := { s.bridge with hostReqs := [] } } ∧
        exec (.hostRequestTimeout h tag) s = .next (u.refuseHost i r.head stLost)) ∧
    (∀ (d : DevPacket) (rest : List DevPacket), s.portOpen i = false → s.bridge.devWait = d :: rest → d.port = i →
      d.req = none → Gives (.devicePacketPortTimeout h) s (fun s' =>
        s' = { s with regs := s'.regs, bridge := { s.bridge with devWait := rest } } ∧ plus s' p HPRT_DROP.COUNT ∧
        (d.record = none → RegsBut [(p, HPRT_DROP.COUNT)] s s') ∧
        (d.record ≠ none → plus s' pgHbrg HBRG_CPL_DROP.COUNT ∧
          RegsBut [(p, HPRT_DROP.COUNT), (pgHbrg, HBRG_CPL_DROP.COUNT)] s s'))))

/-- A window whose configuration passes is enabled with its counts at zero and `PHASE` 1, and one that fails a check
shows which; a window is disabled; its host's `CQ_HEAD` moves forward up to the tail and never back. The first window
after the last one served, when its command at `CONS` can be accepted, has it taken into its list. A NOP in flight
completes, with status 0 where its body is zero and 4 where it is not: it leaves its window's list, and its record
goes to the next place of a ring in device memory, with the phase of that pass, and the tail moves on. Records that wait
for a port when their window is enabled afresh keep their places in the ring as it stood. -/
def Obligations.WindowsTakeCommandsAndRecord : Prop :=
 (∀ (w : Sys2Proof.Win) (s : State),
    let p := pgSubw w
    let clear : Fields := [(p, SUBW_PTR.TAIL), (p, SUBW_PTR.CONS), (p, SUBW_CQ_HEAD.COUNT), (p, SUBW_CQ_TAIL.COUNT)]
    (s.winEnabled w = false →
      (s.winCheck w = 0 → Gives (.subwEnable w) s (fun s' => s'.winEnabled w = true ∧ (∀ e ∈ clear, s'.get e.1 e.2 = 0) ∧
        s'.get p SUBW_CQ_TAIL.PHASE = 1 ∧ s'.get p SUBW_STAT.CFG_ERR = 0 ∧ s'.win w = { s.win w with flags := [] } ∧
        (∀ v, v ≠ w.val → s'.win v = s.win v) ∧
        s' = { s with regs := s'.regs, wins := s'.wins, bridge := { s.bridge with devWait := s.bridge.devWait.map (fun d =>
          { d with record := d.record.map (fun r => if r.win = w.val then { r with live := false } else r) }) } } ∧
        RegsBut ((p, PAGE_CTRL.EN) :: (p, SUBW_STAT.CFG_ERR) :: (p, SUBW_CQ_TAIL.PHASE) :: clear) s s')) ∧
      (s.winCheck w ≠ 0 → Gives (.subwEnable w) s (fun s' => s'.get p SUBW_STAT.CFG_ERR = s.winCheck w ∧
        OnlyRegs [(p, SUBW_STAT.CFG_ERR)] s s'))) ∧
    Gives (.subwDisable w) s (fun s' => s'.winEnabled w = false ∧ OnlyRegs [(p, PAGE_CTRL.EN)] s s') ∧
    (∀ v : Word,
      let head := s.get p SUBW_CQ_HEAD.COUNT
      let ahead (x : Nat) : Nat := (x + 65536 - head) % 65536
      head < 65536 →
      (ahead (v.toNat % 65536) ≤ ahead (s.get p SUBW_CQ_TAIL.COUNT) → Gives (.subwCqHeadWrite w v) s (fun s' =>
        s'.get p SUBW_CQ_HEAD.COUNT = v.toNat % 65536 ∧ OnlyRegs [(p, SUBW_CQ_HEAD.COUNT)] s s')) ∧
      (ahead (s.get p SUBW_CQ_TAIL.COUNT) < ahead (v.toNat % 65536) → exec (.subwCqHeadWrite w v) s = .next s)) ∧
    (let a := s.winBase w + 64 * (s.winCons w % s.winSlots w)
     let b := (List.range 64).map (fun j => s.dataByte (a + j))
     let f := s.slotCommand w b
     s.boot.damaged = [] → s.bridgeOpen = true → w.val = (s.bridge.lastWin + 1) % 64 → s.winPending w ≠ 0 → s.asleep a 64 = false →
     Clean s a 64 → f.cls ∈ [0, 3, 4, 5] → field b 1 1 < 4 → field b 2 2 = 0 → field b 8 24 = 0 →
     (f.noRecord = true ∨ s.cqTaken w < s.cqSize w) → (field b 1 1 % 2 = 1 → (s.win w).flight = []) →
       Gives .commandAccept s (fun s' => (s'.win w).flight = (s.win w).flight ++ [f] ∧
         (s'.win w).flags = (s.win w).flags ∧ (∀ v, v ≠ w.val → s'.win v = s.win v) ∧
         s'.winCons w = (s.winCons w + 1) % 65536 ∧
         s'.get pgHbrg HBRG_ACCEPTED.COUNT = min (s.get pgHbrg HBRG_ACCEPTED.COUNT + 1) (2 ^ 32 - 1) ∧
         s' = { s with
           regs := s'.regs, wins := s'.wins,
           bridge := { s.bridge with lastWin := w, accepted := s.bridge.accepted + 1 } } ∧
         RegsBut [(p, SUBW_PTR.CONS), (p, SUBW_STAT.INFLIGHT), (pgHbrg, HBRG_ACCEPTED.COUNT)] s s')) ∧
    (s.boot.damaged = [] → s.bridgeOpen = false → exec .commandAccept s = .next s)) ∧
 (∀ (w : Sys2Proof.Win) (c : BitVec 16) (s : State) (f : InFlight), s.inFlight w c.toNat = some f → f.cls = 0 →
    let p := pgSubw w
    let n := s.cqSize w
    let tail := s.get p SUBW_CQ_TAIL.COUNT
    let phase := s.get p SUBW_CQ_TAIL.PHASE
    let a := s.cqBase w + 32 * (tail % n)
    let st := if f.body = 0 then 0 else 4
    let r := leBytes 4 f.tag ++ leBytes 1 st ++ leBytes 1 (1 - tail / n % 2) ++ leBytes 2 c.toNat ++ List.replicate 24 0
    let left (s' : State) : Prop := (s'.win w).flags = (s.win w).flags ∧ (∀ v, v ≠ w.val → s'.win v = s.win v) ∧
      (s'.win w).flight = (s.win w).flight.filter (fun g => g.count != c.toNat)
    (f.noRecord = true ∨ f.discard = true → Gives (.nopCommand w c) s (fun s' => left s' ∧
      s' = { s with regs := s'.regs, wins := s'.wins } ∧ RegsBut [(p, SUBW_STAT.INFLIGHT)] s s')) ∧
    (f.noRecord = false → f.discard = false → s.get p SUBW_CFG.CQLOC = 1 → s.rangeStatus a 32 = stOk →
      s.rangeRefused a 32 = false → s.winsTouched a 32 = [] → s.cqWaiting w = 0 → phase ≤ 1 → tail < 65536 →
      Gives (.nopCommand w c) s (fun s' => left s' ∧ s'.sector a = (.good, r) ∧ MemBut a 32 s s' ∧ LinesBut a 32 s s' ∧
        s'.get p SUBW_CQ_TAIL.COUNT = (tail + 1) % 65536 ∧
        s'.get p SUBW_CQ_TAIL.PHASE = (if (tail + 1) % n = 0 then 1 - phase else phase) ∧
        s' = { s with mem := s'.mem, cache := s'.cache, regs := s'.regs, wins := s'.wins } ∧
        RegsBut [(p, SUBW_STAT.INFLIGHT), (p, SUBW_CQ_TAIL.COUNT), (p, SUBW_CQ_TAIL.PHASE)] s s')))

/-- A DMA channel carries out the descriptor at the head of its queue, one piece of at most 4 KiB after another: the piece
is read, as an access that slots serve, then written as one, and after the last piece the descriptor ends with status 0,
counted and shown in `LAST`. One that fails a check, or whose target refuses it, ends with that status, a damaged source
with DATA_UE, the address and a halt, a request of the host link that times out with HOST_ERR. A channel that is halted,
in soft reset or busy starts nothing; a soft reset waits for the end of the piece under way and then empties the channel.
`RESUME` ends a halt; `FLUSH` ends every queued descriptor but the one under way as HALTED. Answers of the host that come with
a descriptor's command act as they would after it. -/
def Obligations.DmaChannelsCopy : Prop :=
  ∀ (d : Chan) (s : State),
    let p := pgDma d
    let x := s.dma d
    let F : Fields := [(p, DMA_STAT.LAST), (p, DMA_STAT.QUEUED), (p, DMA_STAT.BUSY), (p, DMA_DONE.COUNT)]
    let still : State := { s with bridge := { s.bridge with accs := [] } }
    let quiet (j : DmaJob) : Prop := ∀ f, s.inFlight j.win j.count = some f → f.noRecord = true ∨ f.discard = true
    let counted (s' : State) (st : Nat) : Prop := s'.get p DMA_STAT.LAST = st ∧
      s'.get p DMA_DONE.COUNT = min (s.get p DMA_DONE.COUNT + 1) (2 ^ 32 - 1)
    let ended (j : DmaJob) (rest : List DmaJob) (s' : State) (st : Nat) (l : Fields) : Prop :=
      s'.dma d = { x with queue := rest, run := none } ∧ (∀ k, k ≠ d.val → s'.dma k = s.dma k) ∧ counted s' st ∧
      s' = { still with regs := s'.regs, wins := s'.wins, dmas := s'.dmas, log := s'.log } ∧
      RegsBut (F ++ (pgSubw j.win, SUBW_STAT.INFLIGHT) :: l) s s'
    let carries (t : State) (a n : Nat) (words : Option (List (List Byte))) : State := { t with bridge := { t.bridge with
      accs := [newAccess t (0x20 + d.val) (.dma d) a n words], nextAcc := t.bridge.nextAcc + 1 } }
    let stopped : Bool := s.flag p DMA_STAT.HALT || s.flag p PAGE_STAT.SRST_BUSY || x.run.isSome || x.queue.isEmpty
    (NothingWaits s → stopped = true → exec (.dmaDescriptor d []) s = .next s) ∧
    (∀ (l : List HostReply) (h : HPort) (y : HostReply) (t : State), exec (.dmaDescriptor d l) s = .next t →
      t.dmaPort d = 12 + h.val → (Instr.hostCompletionReceive h y).wellFormed = true →
      exec (.dmaDescriptor d (l ++ [y])) s = exec (.hostCompletionReceive h y) t) ∧
    (∀ (j : DmaJob) (rest : List DmaJob), NothingWaits s → stopped = false → x.queue = j :: rest → x.stop = false →
      let b := leBytes 32 j.body
      let n := s.dmaPiece d b 0
      let t := s.setDma d { x with run := some { moved := 0, piece := n, data := [], storing := false } }
      (s.dmaCheck d b ≠ stOk → quiet j → Gives (.dmaDescriptor d []) s (fun s' => ended j rest s' (s.dmaCheck d b) [])) ∧
      (s.dmaCheck d b = stOk → dmaOp b = 1 → t.runtimeStatus (dmaSrc b) n = stOk → InSlots t (dmaSrc b) n →
        n = min (dmaLen b) (4096 - dmaDst b % 4096) ∧
        exec (.dmaDescriptor d []) s = .next (carries t (dmaSrc b) n none))) ∧
    (∀ (q : Requester) (c : Addr) (v : Word) (y : MemAccess) (j : DmaJob) (rest : List DmaJob) (r : DmaRun),
      NothingWaits still → s.regStatus c.toNat ≠ stOk → s.bridge.accs = [y] → y.use = .dma d → y.todo = [] → y.up = [] →
      x.queue = j :: rest → x.run = some r →
      let b := leBytes 32 j.body
      let settled := Instr.registerWrite q c v
      (dmaOp b = 1 → y.status = stOk → y.words = none → y.firstBad = none → r.storing = false → r.data = [] →
        y.bytes.length = r.piece → 0 < r.piece →
        let t := still.setDma d { x with run := some { r with data := y.bytes, storing := true } }
        t.runtimeStatus (dmaDst b + r.moved) r.piece = stOk → InSlots t (dmaDst b + r.moved) r.piece →
        Gives settled s (fun s' => s'.dma d = t.dma d ∧ s'.bridge = (carries t (dmaDst b + r.moved) r.piece
          (some (codeWords y.bytes))).bridge ∧ s' = { s with regs := s'.regs, dmas := s'.dmas, bridge := s'.bridge })) ∧
      (y.status = stOk → y.words = none → (∃ e, y.firstBad = some e) → x.stop = false → quiet j →
        Gives settled s (fun s' => s'.flag p DMA_STAT.HALT = true ∧ ended j rest s' stDataUE
          ([(p, DMA_STAT.HALT), (p, DMA_ERR_ADDR_LO.ADDR), (p, DMA_ERR_ADDR_HI.ADDR)] ++ errFields p))) ∧
      (y.status = stOk → y.words ≠ none → dmaLen b ≤ r.moved + r.piece → x.stop = false → quiet j →
        Gives settled s (fun s' => ended j rest s' stOk [])) ∧
      (y.status = stNoTarget ∨ y.status = stWinBusy → x.stop = false → quiet j →
        Gives settled s (fun s' => ended j rest s' y.status [])) ∧
      (y.status = stOk → y.words ≠ none → r.moved + r.piece < dmaLen b → x.stop = true → rest = [] → quiet j →
        Gives settled s (fun s' => s'.dma d = Dma.init ∧ s'.get p DMA_STAT.LAST = stHalted ∧
          s'.flag p PAGE_STAT.SRST_BUSY = false ∧ s'.tiles = s.tiles ∧ s'.mem = s.mem))) ∧
    (∀ (h : HPort) (tag : Word) (j : DmaJob) (rest : List DmaJob), s.requestOf (12 + h.val) tag.toNat = some (.dma d) →
      x.queue = j :: rest → x.run ≠ none → x.stop = false → quiet j → Gives (.deviceRequestTimeout h tag) s (fun s' =>
        s'.dma d = { x with queue := rest, run := none } ∧ counted s' stHostErr ∧
        s'.bridge = withoutRequest s.bridge (12 + h.val) tag.toNat ∧ s'.tiles = s.tiles ∧ s'.mem = s.mem)) ∧
    Gives (.dmaResume d) s (fun s' => s'.get p DMA_STAT.HALT = 0 ∧ OnlyRegs [(p, DMA_STAT.HALT)] s s') ∧
    (let k := if x.run.isSome then 1 else 0
     Gives (.dmaFlush d) s (fun s' => s'.dma d = { x with queue := x.queue.take k } ∧
      (x.queue.drop k ≠ [] → s'.get p DMA_STAT.LAST = stHalted) ∧ s'.get p DMA_STAT.QUEUED = (x.queue.take k).length ∧
      s'.tiles = s.tiles ∧
      ((∀ j ∈ x.queue, s.inFlight j.win j.count = none) → s' = { s with regs := s'.regs, dmas := s'.dmas } ∧
        RegsBut F s s')))

/-! ## Power domains (14) -/

/-- Domains: an idle one enters retention or off where its request and tolerance let it, a port by asking its neighbour; at
the end of the entry it holds the new state, and off has lost what it held; a request, a tolerance too short or a tripped
comparator starts the exit of one that sleeps; at the end of the exit it is on. -/
def Obligations.DomainsEnterAndLeave : Prop :=
  ∀ (d : Domain) (s : State),
    let st := s.domState d
    let begins (target : Nat) (l : Fields) (s' : State) : Prop := s'.domState d = 3 ∧
      s'.moveOf d = some ⟨d, target, false⟩ ∧ (∀ e, e ≠ d → s'.moveOf e = s.moveOf e) ∧
      s' = { s with regs := s'.regs, moves := s'.moves } ∧ RegsBut (stateField d :: l) s s'
    let exits (l : Fields) : State → Prop := begins 0 (l ++ match domainPort d with
      | some i => [(portPage i, portField i FPRT_STAT.STATE HPRT_STAT.STATE)]
      | none => [])
    let tol := s.get (groupPage d) PAGE_LATTOL.TOL_NS
    (s.domIdle d = true → s.domFixed d = false →
      (domainPort d = none → st = 0 → s.pwrReq d = 0 → (s.exitNs d).1 ≤ tol →
        Gives (.domainEntry d false) s (begins 1 [])) ∧
      (st = 0 ∨ st = 1 → s.pwrReq d = 2 → Gives (.domainEntry d true) s (begins 2 [])) ∧
      (st = 0 ∨ st = 1 → s.pwrReq d = 0 → s.autoOff d = true → (s.exitNs d).2 ≤ tol →
        Gives (.domainEntry d true) s (begins 2 [])) ∧
      (∀ i, domainPort d = some i → st = 0 → s.pwrReq d = 0 → (s.exitNs d).1 ≤ tol → s.portState i = ptUp →
        exec (.domainEntry d false) s = .next ((s.setPort i { s.port i with lpAsked := true }).sendJodar i
          (s.portFrame i ftControl 0 [(3, s.controlWord i ctLpReq)])))) ∧
    (∀ m, s.moveOf d = some m → st = 3 → NothingWaits s →
      (m.target = 1 → m.woken = false → Gives (.domainEntryComplete d) s (fun s' => s'.domState d = 1 ∧
        s'.moveOf d = none ∧ s' = { s with regs := s'.regs, moves := s'.moves } ∧ RegsBut [stateField d] s s')) ∧
      (m.target = 1 → m.woken = true → Gives (.domainEntryComplete d) s (exits [])) ∧
      (m.target = 2 → m.woken = false → s.ringKeeps d = false → Gives (.domainEntryComplete d) s (fun s' => s'.domState d = 2 ∧
        s'.moveOf d = none ∧
        (∀ t, d = .tile t → s'.tile t = { Tile.init with
            nextId := (s.tile t).nextId, outEnded := (s.tile t).outEnded, taintWait := (s.tile t).taintWait,
            xfers := (s.tile t).xfers.filter (fun x => x.sent.isSome && x.inject == 0) } ∧ TilesBut t s s' ∧
          ∀ l, s.logicalOf t = some l → ∀ o < sramSize, s'.sector (sramBase l + o) = (.good, List.replicate 32 0)) ∧
        (∀ k, d = .stack k → (∀ o < 0x20_0000_0000, s'.sector (edgeBase k + o) = (.good, List.replicate 32 0)) ∧
          MemBut (edgeBase k) 0x20_0000_0000 s s' ∧ s'.tiles = s.tiles) ∧
        (∀ b r, d = .summit b r → s.isCache b r = false →
          (∀ o < 0x100_0000, s'.sector (summitBase b r + o) = (.good, List.replicate 32 0)) ∧
          MemBut (summitBase b r) 0x100_0000 s s' ∧ s'.tiles = s.tiles))) ∧
      (m.target = 0 → domainPort d = none → (∀ e ∈ s.net.parked, e.1 ≠ d) → s.red.late = [] →
        Gives (.domainExitComplete d) s (fun s' => s'.domState d = 0 ∧ s'.moveOf d = none ∧
          s' = { s with regs := s'.regs, moves := s'.moves } ∧ RegsBut [stateField d] s s'))) ∧
    (NothingWaits s → (∀ t, d ≠ .tile t) → s.domFixed d = false → st = 1 ∨ st = 2 →
      (∀ (b : Base) (line : Fin 10), (lineDomains b line).filter (s.flagged s.wanted) = [d] →
        Gives (.wakeComparatorTrip b line) s (exits [])) ∧
      (∀ p, pageDomain p = some d → Gives (.pwrReqHoldOn p) s (fun s' =>
        exits [(p, PAGE_PWR.REQ)] s' ∧ s'.get p PAGE_PWR.REQ = 1)) ∧
      (∀ p (v : Word), hasLattol p = true → groupDomains p = [d] → s.pwrReq d = 0 →
        v.toNat % 2 ^ 28 < (if st = 1 then (s.exitNs d).1 else (s.exitNs d).2) →
        Gives (.lattolWrite p v) s (fun s' => exits [(p, PAGE_LATTOL.TOL_NS)] s' ∧
          s'.get p PAGE_LATTOL.TOL_NS = v.toNat % 2 ^ 28))) ∧
    (NothingWaits s → ∀ p, s.reqDomain p = some d →
      (st = 0 → Gives (.pwrReqHoldOn p) s (fun s' => s'.get p PAGE_PWR.REQ = 1 ∧ OnlyRegs [(p, PAGE_PWR.REQ)] s s')) ∧
      Gives (.pwrReqAuto p) s (fun s' => s'.get p PAGE_PWR.REQ = 0 ∧ OnlyRegs [(p, PAGE_PWR.REQ)] s s') ∧
      Gives (.pwrReqOff p) s (fun s' => s'.get p PAGE_PWR.REQ = 2 ∧
        (∀ m, s.moveOf d = some m → s'.moveOf d = some { m with target := if m.target = 1 then 2 else m.target }) ∧
        (∀ e, e ≠ d → s'.moveOf e = s.moveOf e) ∧ s' = { s with regs := s'.regs, moves := s'.moves } ∧
        RegsBut [(p, PAGE_PWR.REQ)] s s'))

/-! ## Heat and coolant (15) -/

/-- A reading is taken from a sensor and shown: of the outlet in `THRM_COOLANT`, of a tile in its column; while the
model runs a reading outside its range marks the sensor faulty, counted and reported once; `CLR_FAULT` lets the
selected sensor start afresh. A decision, while the model runs and no coolant stop holds, gives each die the stride of
the rule: up to the least one whose forecasts meet both bounds, one step more where a base-die site asks for it, one
step down where the present one meets them by a degree; the larger of it and `MIN_STRIDE` is in force. The forecasts
are free (assumption log 2). Without the model nothing happens. -/
def Obligations.SensorReadingsAndForecasts : Prop :=
 (∀ (i : BitVec 12) (v : BitVec 16) (s : State),
    let n := i.toNat
    let x := s.sensor n
    let others (s' : State) : Prop := (∀ j, j ≠ n → s'.sensor j = s.sensor j) ∧
      s' = { s with regs := s'.regs, log := s'.log, thermal := { s.thermal with sensors := s'.thermal.sensors } }
    let c := n / 144
    let cols : Fields := [(pgThrm, THRM_COL_DIE.NOW.at c), (pgThrm, THRM_COL_NM.NOW.at c)]
    (s.modelOn = false → n < 1728 → Gives (.sensorSample i v) s (fun s' => others s' ∧
      s'.sensor n = { x with temp := v.toInt, samples := x.samples + 1, recent := [], window := [] } ∧
      s'.get pgThrm (THRM_COL_DIE.NOW.at c) = temp16 (s'.hottest (s.dieSites c)) ∧ RegsBut cols s s' ∧ s'.log = s.log)) ∧
    (s.modelOn = true → n = outletSensor → x.why = 0 → v.toInt < 0 ∨ 1280 < v.toInt →
      Gives (.sensorSample i v) s (fun s' => others s' ∧ (s'.sensor n).why ≠ 0 ∧ (s'.sensor n).temp = v.toInt ∧
        s'.get pgThrm THRM_COOLANT.OUTLET = temp16 v.toInt ∧
        s'.get pgThrm THRM_FAULTS.COUNT = min (s.get pgThrm THRM_FAULTS.COUNT + 1) 65535 ∧
        s'.get pgThrm PAGE_ERR_CNT_U.COUNT = min (s.get pgThrm PAGE_ERR_CNT_U.COUNT + 1) (2 ^ 32 - 1) ∧
        RegsBut ((pgThrm, THRM_COOLANT.OUTLET) :: (pgThrm, THRM_FAULTS.COUNT) :: errFields pgThrm) s s')) ∧
    (s.get pgThrm THRM_SEL.SENSOR = n → x.why ≠ 0 → Gives .thrmClrFault s (fun s' => others s' ∧
      s'.sensor n = { x with why := 0, recent := [], window := [] } ∧
      s'.get pgThrm THRM_FAULTS.COUNT = (s.get pgThrm THRM_FAULTS.COUNT - 1) % 65536 ∧
      RegsBut [(pgThrm, THRM_FAULTS.COUNT)] s s')) ∧
    (s.get pgThrm THRM_SEL.SENSOR = n → x.why = 0 → exec .thrmClrFault s = .next s)) ∧
 (∀ s : State,
    let cur (c : Die) : Nat := s.get (pgCdie c) CDIE_THROT_STAT.DEV_STRIDE
    let least (c : Die) : Nat := ((List.range 16).find? (fun i => s.strideMeets c (i + 1) 0)).getD 15
    (s.modelOn = true → s.get pgThrm THRM_STAT.COOL < 2 → Gives .forecastDecision s (fun s' =>
      (∀ c : Die, cur c < 16 →
        let new := s'.get (pgCdie c) CDIE_THROT_STAT.DEV_STRIDE
        let up := (List.range 8).any (fun j => s.siteRaises (8 * (c.val / 3) + j))
        (cur c < least c → new = least c) ∧
        (up = true → new = max (least c) (min 15 (cur c + 1))) ∧
        (up = false → least c < cur c → new = if s.strideMeets c (cur c) 16 then cur c - 1 else cur c) ∧
        (up = false → least c = cur c → new = cur c) ∧
        s'.get (pgCdie c) CDIE_THROT_STAT.STRIDE = max new (s.get (pgCdie c) CDIE_THROT_CFG.MIN_STRIDE) % 16) ∧
      (∀ i < 32, bit s'.thermal.raising i = s.siteRaises i) ∧
      s' = { s with regs := s'.regs, thermal := { s.thermal with
        raising := s'.thermal.raising, decisions := s.thermal.decisions + 1 } })) ∧
    (s.modelOn = false → exec .forecastDecision s = .next s))

/-- The coolant monitor: valid pulses count; a noisy input is invalid until it has been good for 200 ms; every 10 ms the
flow is shown, and without a steep temperature rise too little flow is LOW; the 50th millisecond without a valid pulse
stops the dies, whether it ends between two evaluations of the flow or with one, and a stop counts its milliseconds; good
flow clears LOW and STOP; a stop of 2 s shuts down, which takes every domain but the host ports off and leaves no row
command waiting; a trip drives its pin once and is reported. -/
def Obligations.CoolantIsWatched : Prop :=
  ∀ s : State,
    let h := s.thermal
    let cool := s.get pgThrm THRM_STAT.COOL
    let inv := s.flag pgThrm THRM_STAT.FLOW_INV
    let k := s.get pgThrm THRM_FLOW_CFG.K
    let n := (h.bucket + ((h.buckets).take 19).sum)
    let flow := min 65535 (n * 30000 / k)
    let silent : Prop := h.silent = 50 ∧ h.pulsed = false
    let quietFor := if h.pulsed then 0 else min 50 (h.silent + 1)
    let coolIs (s' : State) (v : Nat) : Prop := s'.get pgThrm THRM_STAT.COOL = v
    let regs (s' : State) : Prop := s' = { s with regs := s'.regs, log := s'.log, thermal := s'.thermal }
    let one (s' : State) : Prop :=
      s'.get pgThrm PAGE_ERR_CNT_U.COUNT = min (s.get pgThrm PAGE_ERR_CNT_U.COUNT + 1) (2 ^ 32 - 1)
    let stops (s' : State) : Prop := coolIs s' 2 ∧ s'.get pgThrm THRM_STOP_MS.MS = 0 ∧ one s' ∧ regs s' ∧
      ∀ c : Die, s'.get (pgCdie c) CDIE_THROT_STAT.DEV_STRIDE = 15
    let F : Fields := [(pgThrm, THRM_STAT.COOL), (pgThrm, THRM_FLOW.FLOW)]
    (inv = false → exec .flowTachPulse s = .next { s with thermal := { h with bucket := h.bucket + 1, pulsed := true } }) ∧
    (inv = true → exec .flowTachPulse s = .next s) ∧
    (∀ (edges : Byte) (changed : Bool),
      (cool ≠ 2 → quietFor < 50 →
        (inv = false → 20 < edges.toNat → Gives (.flowInputCheck edges changed) s (fun s' => regs s' ∧
          s'.flag pgThrm THRM_STAT.FLOW_INV = true ∧ one s' ∧ s'.thermal.flowGood = 0 ∧ s'.thermal.silent = quietFor ∧
          RegsBut ((pgThrm, THRM_STAT.FLOW_INV) :: errFields pgThrm) s s')) ∧
        (inv = true → edges.toNat ≤ 20 → changed = true → 199 ≤ h.flowGood → Gives (.flowInputCheck edges changed) s
          (fun s' => s'.flag pgThrm THRM_STAT.FLOW_INV = false ∧ regs s' ∧ s'.log = s.log ∧
            s'.thermal.silent = quietFor ∧ RegsBut [(pgThrm, THRM_STAT.FLOW_INV)] s s'))) ∧
      (inv = false → edges.toNat ≤ 20 → changed = true →
        (cool = 2 → Gives (.flowInputCheck edges changed) s (fun s' => regs s' ∧ s'.log = s.log ∧
          s'.get pgThrm THRM_STOP_MS.MS = min 65535 (s.get pgThrm THRM_STOP_MS.MS + 1) ∧
          RegsBut [(pgThrm, THRM_STOP_MS.MS)] s s')) ∧
        (cool < 2 → quietFor = 50 → min 11 (h.phase + 1) ≠ 10 → Gives (.flowInputCheck edges changed) s stops) ∧
        (cool < 2 → quietFor < 50 ∨ min 11 (h.phase + 1) = 10 → Gives (.flowInputCheck edges changed) s (fun s' =>
          s' = { s with thermal := s'.thermal } ∧ s'.thermal.silent = quietFor ∧ s'.thermal.pulsed = false)))) ∧
    (h.rises = [] → 0 < k →
      (silent → cool < 2 → Gives .flowUpdate s stops) ∧
      (¬silent → cool = 0 → n * 200 < k → Gives .flowUpdate s (fun s' => coolIs s' 1 ∧ one s' ∧ regs s' ∧
        s'.get pgThrm THRM_FLOW.FLOW = flow ∧ RegsBut (F ++ errFields pgThrm) s s')) ∧
      (¬silent → cool = 0 → k ≤ n * 200 → Gives .flowUpdate s (fun s' => coolIs s' 0 ∧ regs s' ∧ s'.log = s.log ∧
        s'.get pgThrm THRM_FLOW.FLOW = flow ∧ RegsBut [(pgThrm, THRM_FLOW.FLOW)] s s')) ∧
      (cool = 2 → Gives .flowUpdate s (fun s' => coolIs s' 2 ∧ regs s' ∧ s'.log = s.log ∧
        s'.get pgThrm THRM_FLOW.FLOW = flow ∧ RegsBut [(pgThrm, THRM_FLOW.FLOW)] s s'))) ∧
    (cool = 2 → s.get pgThrm THRM_STOP_MS.MS < 2000 → 21 ≤ h.stopGood → s.modelOn = true →
      Gives .stopCleared s (fun s' => coolIs s' 1 ∧ OnlyRegs [(pgThrm, THRM_STAT.COOL)] s s')) ∧
    (cool = 1 → 101 ≤ h.lowGood → Gives .lowCleared s (fun s' => coolIs s' 0 ∧ OnlyRegs [(pgThrm, THRM_STAT.COOL)] s s')) ∧
    (cool = 2 → 2000 ≤ s.get pgThrm THRM_STOP_MS.MS → s.isReady = true → Gives .shutdown s (fun s' => coolIs s' 3 ∧
      one s' ∧ regs s' ∧ RegsBut ((pgThrm, THRM_STAT.COOL) :: errFields pgThrm) s s')) ∧
    (cool = 3 → NothingWaits s → Gives .shutdownComplete s (fun s' => coolIs s' 3 ∧
      (∀ d : Domain, (∀ p, d ≠ .hport p) → s'.domState d = 2) ∧ (∀ t : TileId, s'.tileRun t ≠ runRunning) ∧
      (∀ d : Domain, (∀ p, d ≠ .hport p) → s'.moveOf d = none) ∧ (∀ e, s'.engineQ e = []) ∧
      ∀ id, (s'.resAt id).openQ = [])) ∧
    (∀ i : BitVec 12, hasTrip i.toNat = true → s.isReady = true → Gives (.thermTrip i) s (fun s' =>
      s'.flag pgThrm THRM_STAT.TRIP = true ∧ one s' ∧
      s'.out = s.out ++ (if s.flag pgThrm THRM_STAT.TRIP then [] else [.pin pinThermTrip 0]) ∧
      s' = { s with regs := s'.regs, log := s'.log, out := s'.out } ∧
      RegsBut ((pgThrm, THRM_STAT.TRIP) :: errFields pgThrm) s s'))

/-! ## Resets, clocks and bring-up (16) -/

namespace Sys2Proof.Say

open Sys2Proof.Machine

/-- No erase or program is under way that a reset would cut. -/
def NoFlashWrite (s : State) : Prop := ∀ c, s.flashCmd = some c → c.op ≠ flErase ∧ c.op ≠ flProgram

/-- A reset of the package: what lies outside it stays, the reset counts, and the registers but these are at reset. -/
def PackageReset (s : State) (last : Nat) (held : Bool) (t : State) : Prop :=
  t = { State.reset with
    regs := t.regs, pending := s.pending, out := s.out ++ s.releasePins, fresh := s.fresh, flash := s.flash,
    ident := { blown := s.ident.blown, report := none }, board := { s.board with pmb := none },
    boot := { Boot.init with held := held } } ∧
  RegsBut [(pgBoot, BOOT_RST.COUNT), (pgBoot, BOOT_RST.PREV_REQ), (pgBoot, BOOT_RST.LAST), (pgIdnt, IDNT_SIG.IN_BLOCK)]
    State.reset t ∧
  t.get pgBoot BOOT_RST.COUNT = min 65535 (s.get pgBoot BOOT_RST.COUNT + 1) ∧
  t.get pgBoot BOOT_RST.PREV_REQ = s.get pgMgmt MGMT_RSTREQ.CAUSE % 256 ∧ t.get pgBoot BOOT_RST.LAST = last % 8 ∧
  t.get pgIdnt IDNT_SIG.IN_BLOCK = s.get pgIdnt IDNT_SIG.IN_BLOCK % 2048

/-- A power-on reset holds. -/
def powerOn (s : State) (pwrOk : Bool) : State :=
  { State.reset with
    pending := s.pending, out := s.out ++ s.releasePins, fresh := s.fresh, flash := s.flash,
    ident := { blown := s.ident.blown, report := none }, board := { Board.init with pwrOk := pwrOk },
    boot := { Boot.init with por := true } }

/-- The registers of the clock snapshot. -/
def snapFields : Fields := (List.range 4).flatMap (fun b => (pgClk b, CLK_STAT.SNAP_VALID) :: (List.range 4).flatMap (fun d =>
  [(pgClk b, CLK_SNAP_LO.COUNT.at d), (pgClk b, CLK_SNAP_HI.COUNT.at d)]))

/-- The device asks for a package reset for the first time, with this cause, beside the change of field `f`. -/
def AsksReset (s : State) (cause : Nat) (l : Fields) (t : State) : Prop :=
  t.flag pgMgmt MGMT_RSTREQ.REQ = true ∧ t.get pgMgmt MGMT_RSTREQ.CAUSE = cause ∧ t.out = s.out ++ [.pin pinRstReq 0] ∧
  t.get pgMgmt PAGE_ERR_CNT_U.COUNT = min (s.get pgMgmt PAGE_ERR_CNT_U.COUNT + 1) (2 ^ 32 - 1) ∧
  RegsBut (l ++ (pgMgmt, MGMT_RSTREQ.REQ) :: (pgMgmt, MGMT_RSTREQ.CAUSE) :: errFields pgMgmt) s t ∧
  t = { s with regs := t.regs, log := t.log, out := t.out, fresh := t.fresh }

/-- Step k of bring-up is over: its time is recorded and the next step begins. -/
def StepOver (s : State) (k : Nat) (t : State) : Prop :=
  t.get pgBoot BOOT_STAT.STEP = min 9 (k + 1) ∧ t.flag pgBoot BOOT_STAT.HALT = false ∧
  t.get pgBoot (BOOT_TIME.US.at (k - 1)) = (s.mg - t.boot.released) / 500 % 2 ^ 32

/-- Bring-up halts at step k with a code, which is reported. -/
def HaltsAt (k code : Nat) (t : State) : Prop :=
  t.get pgBoot BOOT_STAT.STEP = k ∧ t.flag pgBoot BOOT_STAT.HALT = true ∧ t.get pgBoot BOOT_STAT.CODE = code ∧
  t.boot.load = none ∧ 0 < t.get pgBoot PAGE_ERR_CNT_U.COUNT

/-- The topology check of step 8: the deviations are recorded; one outside tolerance, or a service level too low, holds
bring-up with code 0x81; one within it sets `TOL`; without a hold the step is over. -/
def TopologyChecked (s t : State) : Prop :=
  let c := s.compareItems s.manifest
  t.get pgBoot BOOT_MISMATCH.DEV = c.1 % 32 ∧ t.get pgBoot BOOT_MISMATCH.OUT = c.2 % 32 ∧
  (c.2 ≠ 0 ∨ s.serviceLevel < field s.manifest 31 1 → t.flag pgBoot BOOT_STAT.HOLD = true ∧
    t.get pgBoot BOOT_STAT.CODE = 0x81 ∧ t.get pgBoot BOOT_STAT.STEP = 8) ∧
  (c.2 = 0 → field s.manifest 31 1 ≤ s.serviceLevel → StepOver s 8 t ∧ t.flag pgBoot BOOT_STAT.HOLD = false ∧
    (c.1 ≠ 0 → t.flag pgBoot BOOT_STAT.TOL = true))

/-- A load of the tile image begins: its participants are enabled and miss every chunk. -/
def LoadBegins (s : State) (dies : Nat) (reload : Bool) (t : State) : Prop :=
  t.boot.load = some ⟨s.boot.loads + 1, dies, reload, s.loadParts dies, 0, false, [], 0, [], []⟩ ∧
  (∀ k ∈ s.loadParts dies, t.missing k = 2 ^ 64 - 1 ∧ t.get (pgTile k) TILE_BOOT_STAT.RCVD = 0 ∧
    t.flag (pgTile k) TILE_BOOT_STAT.DONE = false ∧ t.flag (pgTile k) PAGE_CTRL.EN = true) ∧
  t.get pgBoot BOOT_FW.PASSES = 0 ∧ t.get pgBoot BOOT_FW.UNICAST = 0 ∧
  t = { s with regs := t.regs, boot := { s.boot with loads := s.boot.loads + 1, load := t.boot.load } }

end Sys2Proof.Say

/-- Resets: a request falls due; a package reset returns everything but what lies outside the package; RESET_N and PWR_OK
hold it; a supply's loss is a power-on reset, which releases with PWR_OK high. A clock failure asks for a package reset;
a snapshot copies the counters. -/
def Obligations.ResetsReturnThePackage : Prop :=
  ∀ s : State,
    (s.boot.due = 0 → exec .pkgReset s = .next { s with boot := { s.boot with due := 3 } } ∧ exec .packageReset s = .next s) ∧
    (s.boot.due ≠ 0 → exec .pkgReset s = .next s) ∧
    (NoFlashWrite s →
      (s.boot.due ≠ 0 → Gives .packageReset s (PackageReset s s.boot.due false)) ∧
      (s.boot.por = false → Gives .resetNAssert s (PackageReset s 2 true)) ∧
      exec (.pwrOkChange false) s = .next (powerOn s false) ∧
      exec .vddAonOrVio18Low s = .next (powerOn s s.board.pwrOk)) ∧
    (s.boot.por = true → exec .resetNAssert s = .next { s with boot := { s.boot with held := true } }) ∧
    exec (.pwrOkChange true) s = .next { s with board := { s.board with pwrOk := true } } ∧
    (s.boot.por = true → s.board.pwrOk = true → exec .powerOnResetRelease s = .next { s with
      boot := { s.boot with por := false, held := false, released := s.mg } }) ∧
    (s.boot.por = false ∨ s.board.pwrOk = false → exec .powerOnResetRelease s = .next s) ∧
    Gives .clkSnap s (fun t => t = { s with regs := t.regs, fresh := t.fresh } ∧ RegsBut snapFields s t ∧
      (∀ b < 4, s.baseInService b = true → t.flag (pgClk b) CLK_STAT.SNAP_VALID = true) ∧
      t.get (pgClk 0) (CLK_SNAP_LO.COUNT.at 3) + 2 ^ 32 * t.get (pgClk 0) (CLK_SNAP_HI.COUNT.at 3) = s.mg % 2 ^ 64) ∧
    (s.flag pgMgmt MGMT_RSTREQ.REQ = false → s.atStep 2 = false →
      Gives (.clockFailure .dist) s (AsksReset s 3 []) ∧
      Gives (.clockFailure .ref) s (fun t => AsksReset s 1 [(pgClk 0, CLK_STAT.REF_OK)] t ∧
        t.flag (pgClk 0) CLK_STAT.REF_OK = false) ∧
      Gives (.clockFailure .lock) s (fun t => AsksReset s 2 [(pgClk 0, CLK_STAT.LOCK)] t ∧
        t.get (pgClk 0) CLK_STAT.LOCK < 15)) ∧
    (s.atStep 2 = true → Gives (.clockFailure .ref) s (HaltsAt 2 0x21) ∧ Gives (.clockFailure .lock) s (HaltsAt 2 0x22))

/-- Bring-up, step by step: what each step needs, what it leaves, and the code with which it halts. A command of another
step than the one at which bring-up stands changes nothing. -/
def Obligations.BringUpGoesStepByStep : Prop :=
  ∀ s : State,
    let copy (slot : Nat) : Bool := s.copyReason slot true == 0
    let newer : Nat := let d := (s.copySeq 1 + 2 ^ 32 - s.copySeq 0) % 2 ^ 32
      if 1 ≤ d ∧ d ≤ 2 ^ 31 - 1 then 1 else 0
    (∀ good, (s.atStep 1 = false → exec (.resetRelease good) s = .next s)) ∧
    (∀ g l a, s.atStep 2 = false → exec (.b0Clocks g l a) s = .next s) ∧
    (∀ d, s.atStep 3 = false → exec (.dieDiscovery d) s = .next s) ∧
    (∀ r, s.atStep 4 = false → exec (.linkTraining r) s = .next s) ∧
    (∀ f, s.atStep 5 = false → exec (.edgeInit f) s = .next s) ∧
    (∀ r, s.atStep 6 = false → exec (.mgmtFw r) s = .next s) ∧
    (s.atStep 7 = false → exec .tileFw s = .next s) ∧ (s.atStep 8 = false → exec .topology s = .next s) ∧
    (s.atStep 9 = false → exec .ready s = .next s) ∧
    (s.atStep 1 = true →
      Gives (.resetRelease true) s (fun t => StepOver s 1 t ∧
        t.boot = { s.boot with held := false, released := s.mg } ∧ t = { s with regs := t.regs, boot := t.boot }) ∧
      Gives (.resetRelease false) s (HaltsAt 1 0x11)) ∧
    (s.atStep 2 = true → ∀ locked answers,
      Gives (.b0Clocks false locked answers) s (fun t => HaltsAt 2 0x21 t ∧ t.flag pgMgmt MGMT_RSTREQ.REQ = true) ∧
      Gives (.b0Clocks true false answers) s (fun t => HaltsAt 2 0x22 t ∧ t.flag pgMgmt MGMT_RSTREQ.REQ = true) ∧
      Gives (.b0Clocks true true false) s (HaltsAt 2 0x23) ∧
      Gives (.b0Clocks true true true) s (fun t =>
        t.get (pgClk 0) CLK_STAT.LOCK = 15 ∧ t.get (pgClk 0) CLK_STAT.RX = 15 ∧ t.boot.fw = fwBoot ∧
        t.get pgFlsh FLSH_STAT.WHY_A = s.copyReason 0 true ∧ t.get pgFlsh FLSH_STAT.WHY_B = s.copyReason 1 true ∧
        t.get pgFlsh FLSH_SEQ_A.VALUE = s.copySeq 0 ∧ t.get pgFlsh FLSH_SEQ_B.VALUE = s.copySeq 1 ∧
        t.boot.active = (if copy 0 && copy 1 then some newer else if copy 0 then some 0 else if copy 1 then some 1
          else none) ∧
        (if copy 0 || copy 1 then StepOver s 2 t ∧ ∀ p ∈ bootPages, t.flag p PAGE_STAT.READY = true
         else HaltsAt 2 0x23 t))) ∧
    (s.atStep 3 = true → ∀ d : Discovery, Gives (.dieDiscovery d) s (fun t =>
      t.found = ⟨clockTree d.clocked.toNat d.seamBits.toNat, d.seamBits.toNat, d.dieBits.toNat, d.stackBits.toNat⟩ ∧
      (∀ n < 12, t.diePresent n = true → ∀ p < 144,
        let cause (q : Nat) : Nat := mapCause d.failed s.exclusions.2 (144 * n + q)
        let before := ((List.range p).filter (fun q => cause q == 0)).length
        let state := t.get (pgTmap n) (TMAP_PHYS.STATE.at p)
        (cause p ≠ 0 → state = cause p) ∧ (cause p = 0 → 128 ≤ before → state = 4) ∧
        (cause p = 0 → before < 128 → state = 0 ∧ t.get (pgTmap n) (TMAP_PHYS.LOGICAL.at p) = before ∧
          t.get (pgTmap n) (TMAP_LOG.PHYS.at before) = p ∧ t.get (pgTmap n) (TMAP_LOG.VALID.at before) = 1)) ∧
      (if (List.range 3).any (fun n => 64 ≤ t.usable n) then StepOver s 3 t else HaltsAt 3 0x31 t))) ∧
    (s.atStep 4 = true → ∀ r : Training, Gives (.linkTraining r) s (fun t =>
      (∀ n < 12, s.diePresent n = true → ∀ k < 24, bit (t.get (pgCnet n) CNET_DROP_DOWN.DOWN) k =
        r.dropsDown.any (fun e => e.1.val == n && e.2.getLsbD k)) ∧
      (∀ i : Fin 16, bit s.found.seams (i.val / 4) = true →
        let q := if s.basePresent (seamBases (i.val / 4)).1 && s.basePresent (seamBases (i.val / 4)).2 then
          ((r.seamProps.find? (fun e => e.1 == i)).map (fun e => (e.2.1.toNat, e.2.2.toNat))).getD (0, 0) else (0, 0)
        let w := narrower q.1 q.2
        t.widthNow i.val = w ∧ t.get (pgSeam (i.val / 4)) (SEAM_LINK.P0.at (i.val % 4)) = q.1 ∧
        t.get (pgSeam (i.val / 4)) (SEAM_LINK.P1.at (i.val % 4)) = q.2 ∧ t.seamState (i.val / 4) (i.val % 4) = if w = 0 then smHeld else smUp) ∧
      (if (List.range 3).any (fun n => 64 ≤ s.usable n && t.get (pgCnet n) CNET_DROP_DOWN.DOWN != 0xFFFFFF) then
        StepOver s 4 t ∧ ∀ b < 4, t.baseInService b = true → t.flag (pgBdie b) PAGE_STAT.READY = true
       else HaltsAt 4 0x41 t))) ∧
    (s.atStep 5 = true → ∀ f : List (Fin 8 × Fin 32), Gives (.edgeInit f) s (fun t => StepOver s 5 t ∧
      t = { s with regs := t.regs } ∧ ∀ k : Fin 8,
        (s.stackTried k = false → t.get (pgEstk k) ESTK_STAT.INIT = s.get (pgEstk k) ESTK_STAT.INIT) ∧
        (s.stackTried k = true → (∀ e ∈ f, e.1 ≠ k) → t.stackUsed k = true) ∧
        (s.stackTried k = true → (∃ e ∈ f, e.1 = k) → t.get (pgEstk k) ESTK_STAT.INIT = 3 ∧
          (∃ e ∈ f, e.1 = k ∧ e.2.val = t.get (pgEstk k) ESTK_STAT.FAIL_CH) ∧
          ∀ e ∈ f, e.1 = k → t.get (pgEstk k) ESTK_STAT.FAIL_CH ≤ e.2.val))) ∧
    (s.atStep 6 = true →
      (∀ rep, imageGood (s.itemOf itMain) 1 = false → Gives (.mgmtFw rep) s (HaltsAt 6 0x61)) ∧
      (imageGood (s.itemOf itMain) 1 = true → Gives (.mgmtFw false) s (HaltsAt 6 0x62) ∧
        Gives (.mgmtFw true) s (fun t => StepOver s 6 t ∧ t.boot.fw = fwMain ∧ t.modelOn = true))) ∧
    (s.atStep 7 = true →
      (s.boot.load = none → Gives .tileFw s
        (LoadBegins s (((List.range 12).filter s.dieInService).foldl (fun m n => m + 2 ^ n) 0) false)) ∧
      (∀ l, s.boot.load = some l → (s.loadOver l = false → exec .tileFw s = .next s) ∧
        (s.loadOver l = true → Gives .tileFw s (fun t =>
          if (List.range 3).any (fun n => 64 ≤ s.doneTiles n) then StepOver s 7 t ∧ t.boot.load = none
          else HaltsAt 7 0x72 t)))) ∧
    (s.atStep 8 = true → s.flag pgBoot BOOT_STAT.HOLD = false → s.boot.fw = fwMain →
      (s.boot.nbrDone = true ∨ (s.portsWanted.all (fun i => s.portState i == ptUp)) = true →
        Gives .topology s (TopologyChecked s)) ∧
      Gives .nbrWaitTimeout s (TopologyChecked s)) ∧
    (s.atStep 7 = true → exec .nbrWaitTimeout s = .next { s with boot := { s.boot with nbrDone := true } }) ∧
    (s.atStep 8 = true → s.flag pgBoot BOOT_STAT.HOLD = true → Gives .bootAccept s (fun t => StepOver s 8 t ∧
      t.flag pgBoot BOOT_STAT.HOLD = false ∧ t.flag pgBoot BOOT_STAT.ACCEPTED = true ∧
      OnlyRegs [(pgBoot, BOOT_STAT.HOLD), (pgBoot, BOOT_STAT.ACCEPTED), (pgBoot, BOOT_STAT.STEP),
        (pgBoot, BOOT_TIME.US.at 7)] s t)) ∧
    (s.atStep 8 = false ∨ s.flag pgBoot BOOT_STAT.HOLD = false → exec .bootAccept s = .next s) ∧
    (s.atStep 9 = true → s.boot.fw = fwMain → Gives .ready s (fun t => t.isReady = true ∧
      t.get pgBoot BOOT_STAT.STEP = 9 ∧ t.get pgBoot BOOT_STAT.LEVEL = s.serviceLevel ∧
      (∀ e ∈ s.listEntries itLocks 4, leNat e < 2 ^ 18 →
        let p : PageRef := ⟨BitVec.ofNat 8 (leNat e), BitVec.ofNat 10 (leNat e / 256)⟩
        (pageAt p).isSome = true → t.flag p PAGE_CTRL.LOCK = true)))

/-- Loads of the tile image: a chunk that arrives whole is stored and struck from the map of missing ones; the end marker
gathers the maps; the union of a pass leads to the next pass, to repair by unicast, or to the start of the tiles; a tile
is done, or fenced, by its done sector; `RELOAD` is refused or begins a load, which ends with its result. -/
def Obligations.TileImagesAreLoaded : Prop :=
  ∀ (s : State) (l : Load),
    let dies := s.get pgBoot BOOT_RELOAD.DIES
    let named := (List.range 12).filter (bit dies)
    let setsLoad (t : State) (m : Load) : Prop := t = { s with regs := t.regs, boot := { s.boot with load := some m } }
    let refused (r : Nat) : Prop := Gives .bootReload s (fun t => t.get pgBoot BOOT_RELOAD.RESULT = r ∧
      OnlyRegs [(pgBoot, BOOT_RELOAD.RESULT)] s t)
    (s.boot.load = none →
      (∀ t c f x, (Instr.bootChunkReceive t c f x).wellFormed = true → exec (.bootChunkReceive t c f x) s = .next s) ∧
      exec .bootEndMarker s = .next s ∧ exec .bootBitmapTimeout s = .next s ∧ exec .bootPassDone s = .next s ∧
      (∀ t late, exec (.tileStartupCheck t late) s = .next s) ∧ exec .bootReloadDone s = .next s) ∧
    (s.boot.load = some l →
      (∀ (t : TileId) (c : BitVec 6) (f : List (List Byte)) (x : Word),
        (Instr.bootChunkReceive t c f x).wellFormed = true → t.val ∈ l.parts → l.pass < 6 → s.bootReachable t.val = true →
        s.missing t.val < 2 ^ 64 →
        let words := f.map (fun w => decodeSector (flitWord w))
        let whole := s.tileStore t.val (0x1C0000 + 4096 * c.toNat) (words.flatMap (·.2))
        let back := whole.tileLoad t.val (0x1C0000 + 4096 * c.toNat) 4096
        let good := words.all (fun w => !w.1.damaged) && (crc32c back.2 == x.toNat)
        Gives (.bootChunkReceive t c f x) s (fun t' =>
          t'.missing t.val = (if good && bit (s.missing t.val) c.toNat then s.missing t.val - 2 ^ c.toNat
            else s.missing t.val) ∧
          (∀ k < 1728, k ≠ t.val → t'.missing k = s.missing k) ∧ t'.boot = s.boot ∧ t'.mem = back.1.mem)) ∧
      (l.marker = false → l.pass < 5 → exec .bootEndMarker s = .next { s with boot := { s.boot with load := some { l with
        marker := true, maps := (l.parts.filter s.bootReachable).map (fun t => (t, BitVec.ofNat 64 (s.missing t))) } } }) ∧
      (l.marker = true → Gives .bootBitmapTimeout s (fun t => ∃ m, setsLoad t m ∧ t.regs = s.regs ∧
        m = { l with maps := m.maps } ∧ (∀ e ∈ l.maps, e ∈ m.maps) ∧ ∀ k ∈ l.parts,
          (∃ e ∈ l.maps, e.1 = k) ∨ (k, BitVec.allOnes 64) ∈ m.maps)) ∧
      (l.marker = true → l.pass < 5 → (∀ k ∈ l.parts, ∃ e ∈ l.maps, e.1 = k) →
        let u := (l.maps.map (·.2)).foldl (· ||| ·) 0
        (u ≠ 0 → l.pass < 4 → Gives .bootPassDone s (fun t => t.get pgBoot BOOT_FW.PASSES = l.pass + 1 ∧
          setsLoad t { l with pass := l.pass + 1, marker := false, maps := [], union := u } ∧
          RegsBut [(pgBoot, BOOT_FW.PASSES)] s t)) ∧
        (u ≠ 0 → l.pass = 4 → exec .bootPassDone s = .next { s with boot := { s.boot with load := some { l with
          pass := 5, union := u, repair := l.parts.filter (fun t => s.missing t != 0) } } }) ∧
        (u = 0 → imageGood (s.itemOf itTile) 2 = true → Gives .bootPassDone s (fun t =>
          t.boot.load = some { l with union := 0, pass := 6, started := l.parts.filter (fun k => s.missing k == 0) } ∧
          ∀ k ∈ l.parts, s.missing k = 0 → s.get (pgTile k) PAGE_PWR.STATE = 0 →
            s.tileRun k = runIdle ∨ s.tileRun k = runHalted → t.tileRun k = runRunning)) ∧
        (u = 0 → imageGood (s.itemOf itTile) 2 = false → l.reload = true → Gives .bootPassDone s (fun t =>
          t.boot.load = some { l with union := 0, pass := 7 } ∧ t.regs = s.regs ∧ t.tiles = s.tiles))) ∧
      (l.pass = 6 → ∀ t : TileId, t.val ∈ l.started → Clean s (s.sramAt t.val 0x1FFFE0) 32 →
        let done : Bool := dataNat s (s.sramAt t.val 0x1FFFE0) 4 == 1
        let rest : Load := { l with started := l.started.filter (· != t.val) }
        (done = true → ∀ late, Gives (.tileStartupCheck t late) s (fun u => u.boot.load = some rest ∧
          u.flag (pgTile t.val) TILE_BOOT_STAT.DONE = true ∧
          (u.tileRun t.val ≠ runRunning ∨ (u.tile t.val).halting = true))) ∧
        (done = false → exec (.tileStartupCheck t false) s = .next s) ∧
        (done = false → s.tmapState t.val = 0 → (s.tile t.val).xfers = [] → (s.tile t.val).loads = [] →
          Gives (.tileStartupCheck t true) s (fun u => u.boot.load = some rest ∧ u.tileRun t.val = runFenced ∧
            u.get pgBoot BOOT_FW.FENCED = min (s.get pgBoot BOOT_FW.FENCED + 1) (2 ^ 11 - 1)))) ∧
      (l.reload = true → s.loadOver l = true → Gives .bootReloadDone s (fun t => t.boot = { s.boot with load := none } ∧
        t.flag pgBoot BOOT_RELOAD.BUSY = false ∧ t.get pgBoot BOOT_RELOAD.RESULT = 0 ∧
        t = { s with regs := t.regs, boot := t.boot } ∧
        RegsBut [(pgBoot, BOOT_RELOAD.BUSY), (pgBoot, BOOT_RELOAD.RESULT)] s t)) ∧
      (l.reload = true → l.pass = 7 → Gives .bootReloadDone s (fun t => t.boot.load = none ∧
        t.flag pgBoot BOOT_RELOAD.BUSY = false ∧ t.get pgBoot BOOT_RELOAD.RESULT = 3)) ∧
      refused 4) ∧
    (s.isReady = false → refused 4) ∧
    (s.isReady = true → s.boot.load = none →
      ((∃ n ∈ named, s.dieInService n = false ∨ s.prst n ≠ prstUp) → refused 1) ∧
      ((∀ n ∈ named, s.dieInService n = true ∧ s.prst n = prstUp) →
        ((∃ n ∈ named, ∃ p < 144, s.tileRun (144 * n + p) = runRunning) → refused 2) ∧
        ((∀ n ∈ named, ∀ p < 144, s.tileRun (144 * n + p) ≠ runRunning) → Gives .bootReload s (fun t =>
          LoadBegins s dies true t ∧ t.flag pgBoot BOOT_RELOAD.BUSY = true))))

/-! ## Flash and attestation (17), the board (18) -/

/-- Flash commands: one starts where its operands meet their conditions and nothing runs, BAD_CMD else; at its end an erased
range reads 0xFF, a programmed page holds the AND of old and new bytes, a check records the reason of the inactive slot, a
read copies; a flash that fails is reported. A report starts with its 256-byte body and ends signed with a one-time index. -/
def Obligations.FlashCommandsAndReportsRun : Prop :=
  ∀ s : State,
    let off := s.get pgFlsh FLSH_OFF.BYTES
    let len := s.get pgFlsh FLSH_LEN.BYTES
    let src := s.getPair pgFlsh FLSH_SRC_LO.ADDR FLSH_SRC_HI.ADDR
    let ops : List (Instr × Nat) :=
      [(.flashErase, flErase), (.flashProgram, flProgram), (.flashCheck, flCheck), (.flashRead, flRead)]
    let free : Prop := (s.isReady = true ∨ s.flag pgBoot BOOT_STAT.HALT = true) ∧ s.flag pgFlsh FLSH_CSTAT.BUSY = false
    let base := s.inactiveSlot * slotBytes
    let ends (st : Nat) (t : State) : Prop := t.flashCmd = none ∧ t.flag pgFlsh FLSH_CSTAT.BUSY = false ∧
      t.get pgFlsh FLSH_CSTAT.LAST = st
    let endFields : Fields := [(pgFlsh, FLSH_CSTAT.BUSY), (pgFlsh, FLSH_CSTAT.LAST)]
    (∀ e ∈ ops,
      (free → s.flashArgsOk e.2 = true → Gives e.1 s (fun t => t.flashCmd = some ⟨e.2, off, len, src⟩ ∧
        t.flag pgFlsh FLSH_CSTAT.BUSY = true ∧ (e.2 = flErase ∨ e.2 = flProgram → t.get pgFlsh (whyField s.inactiveSlot) = 6) ∧
        t = { s with regs := t.regs, flashCmd := t.flashCmd } ∧
        RegsBut ((pgFlsh, FLSH_CSTAT.BUSY) :: if e.2 = flErase ∨ e.2 = flProgram then
          [(pgFlsh, whyField s.inactiveSlot)] else []) s t)) ∧
      (free → s.flashArgsOk e.2 = false → Gives e.1 s (fun t => t.get pgFlsh FLSH_CSTAT.LAST = stBadCmd ∧
        OnlyRegs [(pgFlsh, FLSH_CSTAT.LAST)] s t)) ∧
      (¬free → exec e.1 s = .next s)) ∧
    (s.flashCmd = none → ∀ g, exec (.flashCommandDone g) s = .next s) ∧
    (∀ c : FlashCmd, s.flashCmd = some c →
      (c.op = flErase → Gives (.flashCommandDone true) s (fun t => ends stOk t ∧
        (∀ j < c.len, t.flashRead (base + c.off + j) 1 = [0xFF]) ∧
        (∀ a, a < base + c.off ∨ base + c.off + c.len ≤ a → t.flashRead a 1 = s.flashRead a 1) ∧
        t = { s with regs := t.regs, flash := t.flash, flashCmd := none } ∧ RegsBut endFields s t)) ∧
      (c.op = flProgram → c.src = 0 → c.len ≤ 1024 → c.len % 256 = 0 → Gives (.flashCommandDone true) s (fun t =>
        ends stOk t ∧ (∀ j < c.len, t.flashRead (base + c.off + j) 1 = (s.flashRead (base + c.off + j) 1).map (· &&&
          BitVec.ofNat 8 (s.get pgFlsh (FLSH_BUF.DATA.at (j / 4)) / 2 ^ (8 * (j % 4))))) ∧
        (∀ a, a < base + c.off ∨ base + c.off + c.len ≤ a → t.flashRead a 1 = s.flashRead a 1) ∧
        t = { s with regs := t.regs, flash := t.flash, flashCmd := none } ∧ RegsBut endFields s t)) ∧
      (c.op = flCheck → Gives (.flashCommandDone true) s (fun t => ends stOk t ∧
        t.get pgFlsh (whyField s.inactiveSlot) = s.copyReason s.inactiveSlot true ∧
        t.get pgFlsh (seqField s.inactiveSlot) = s.copySeq s.inactiveSlot ∧ t.flash = s.flash) ∧
        Gives (.flashCommandDone false) s (fun t => ends stFlashErr t ∧
          t.get pgFlsh (whyField s.inactiveSlot) = 5 ∧ t.flash = s.flash)) ∧
      (c.op = flRead → s.asleep c.src c.len = false → s.coreStatus c.src c.len = stOk → c.len % 256 = 0 →
        c.src % 32 = 0 → s.winsTouched c.src c.len = [] → Gives (.flashCommandDone true) s (fun t => ends stOk t ∧
          (∀ j < c.len, [t.dataByte (c.src + j)] = s.flashRead (c.off + j) 1) ∧ MemBut c.src c.len s t ∧
          LinesBut c.src c.len s t ∧ t = { s with regs := t.regs, mem := t.mem, cache := t.cache, flashCmd := none } ∧ RegsBut endFields s t))) ∧
    (s.flag pgIdnt IDNT_ATT_STAT.BUSY = false → Gives .attGo s (fun t => t.flag pgIdnt IDNT_ATT_STAT.BUSY = true ∧
      t.ident = { s.ident with report := some (s.reportBody, s.getPair pgIdnt IDNT_ATT_ADDR_LO.ADDR IDNT_ATT_ADDR_HI.ADDR) } ∧
      t = { s with regs := t.regs, ident := t.ident } ∧ RegsBut [(pgIdnt, IDNT_ATT_STAT.BUSY)] s t)) ∧
    (s.flag pgIdnt IDNT_ATT_STAT.BUSY = true → exec .attGo s = .next s) ∧
    (s.ident.report = none → exec .attReportDone s = .next s) ∧
    (∀ body a, s.ident.report = some (body, a) →
      let left := s.get pgIdnt IDNT_SIG.IN_BLOCK
      let ended (st : Nat) (t : State) : Prop := t.ident.report = none ∧ t.flag pgIdnt IDNT_ATT_STAT.BUSY = false ∧
        t.get pgIdnt IDNT_ATT_STAT.LAST = st
      (s.coreStatus a 3104 ≠ stOk → s.coreStatus a 3104 < 256 → Gives .attReportDone s (fun t =>
        ended (s.coreStatus a 3104) t ∧ t.ident.blown = s.ident.blown ∧ t.mem = s.mem ∧ t.get pgIdnt IDNT_SIG.IN_BLOCK = left)) ∧
      (s.coreStatus a 3104 = stOk → s.winPartial a 3104 = false → s.asleep a 3104 = false → left = 0 →
        s.blocksLeft = 0 → Gives .attReportDone s (fun t => ended stBudget t ∧ t.mem = s.mem)) ∧
      (s.coreStatus a 3104 = stOk → s.winPartial a 3104 = false → s.asleep a 3104 = false → 0 < left → left ≤ 1024 →
        Gives .attReportDone s (fun t => t.ident = { s.ident with report := none } ∧
          t.flag pgIdnt IDNT_ATT_STAT.BUSY = false ∧ t.get pgIdnt IDNT_SIG.IN_BLOCK = left - 1)))

/-- The board: the SMBus target answers register accesses of slot 0x00 with their status, a transaction of the PMBus
controller runs to its status and data, and the test port's instructions select and shift (assumption logs 27 and 28).
A transaction without a good packet error code does nothing. -/
def Obligations.TheBoardIsServed : Prop :=
  ∀ s : State,
    let tap (k : Nat) : State := { s with board := { s.board with tap := k } }
    let sends (t : State) (m : OutMsg) : State := { t with out := t.out ++ [m] }
    (∀ off : BitVec 24,
      (s.smbCheck off.toNat = stOk → exec (.smbRegisterRead off true) s =
        .next (sends (s.readReg smbWho (smbPage off.toNat) (off.toNat % 4096)).1
          (.smb (0 :: leBytes 4 (s.readReg smbWho (smbPage off.toNat) (off.toNat % 4096)).2)))) ∧
      (s.smbCheck off.toNat ≠ stOk → Gives (.smbRegisterRead off true) s (fun t =>
        t = { s with out := t.out, fresh := s.fresh + 1 } ∧
        ∃ v, t.out = s.out ++ [.smb (leBytes 1 (s.smbCheck off.toNat) ++ v)] ∧ v.length = 4)) ∧
      (∀ v : Word,
        (s.smbCheck off.toNat ≠ stOk → exec (.smbRegisterWrite off v true) s =
          .next { s with board := { s.board with smbStatus := s.smbCheck off.toNat } }) ∧
        (s.smbCheck off.toNat = stOk →
          let t := (s.writeReg smbWho (smbPage off.toNat) (off.toNat % 4096) v.toNat).afterPower
          exec (.smbRegisterWrite off v true) s = .next { t with board := { t.board with smbStatus := 0 } }) ∧
        exec (.smbRegisterWrite off v false) s = .next s) ∧
      exec (.smbRegisterRead off false) s = .next s ∧
      (off.toNat % 4 ≠ 0 → s.smbCheck off.toNat = stBadSize) ∧
      (off.toNat % 4 = 0 → 2 ^ 22 ≤ off.toNat → s.smbCheck off.toNat = stNoTarget)) ∧
    exec (.smbStatusRead true) s = .next (sends s (.smb (leBytes 1 s.board.smbStatus))) ∧
    exec (.smbStatusRead false) s = .next s ∧ exec .smbClockTimeout s = .next s ∧
    (∀ v : Word, s.flag (pgBdie 0) PAGE_STAT.SRST_BUSY = false →
      s.flag (pgBdie 0) BDIE_PMB_STAT.BUSY = false → bits v.toNat 18 16 ≤ 4 → Gives (.pmbGo v) s (fun t =>
        t.flag (pgBdie 0) BDIE_PMB_STAT.BUSY = true ∧ (∃ w, t.board = { s.board with pmb := some w } ∧
          bits w 19 0 = bits v.toNat 19 0))) ∧
    (s.board.pmb = none → ∀ r d, exec (.pmbDone r d) s = .next s) ∧
    (∀ v (d : BitVec 16), s.board.pmb = some v →
      let reads : Bool := bits v 18 16 == 1 || bits v 18 16 == 2
      let ends (st : Nat) (keeps : Bool) (t : State) : Prop := t = { s with regs := t.regs, board := { s.board with pmb := none } } ∧
        t.flag (pgBdie 0) BDIE_PMB_STAT.BUSY = false ∧ t.get (pgBdie 0) BDIE_PMB_STAT.LAST = st ∧
        t.get (pgBdie 0) BDIE_PMB_DATA.DATA = (if keeps then s.get (pgBdie 0) BDIE_PMB_DATA.DATA
          else if bits v 18 16 = 1 then d.toNat % 256 else d.toNat) ∧
        RegsBut [(pgBdie 0, BDIE_PMB_STAT.BUSY), (pgBdie 0, BDIE_PMB_STAT.LAST), (pgBdie 0, BDIE_PMB_DATA.DATA)] s t
      Gives (.pmbDone .good d) s (ends 0 (!reads)) ∧ Gives (.pmbDone .nack d) s (ends 1 true) ∧
      Gives (.pmbDone .stuck d) s (ends 2 true) ∧
      (reads = true → bit v 19 = true → Gives (.pmbDone .badPec d) s (ends 3 false))) ∧
    exec .jtagBypass s = .next (tap 1) ∧ exec .trstNAssert s = .next (tap 0) ∧
    exec .jtagIdcode s = .next (sends (tap 0) (.tdo 32 0x07240A1D)) ∧
    (∀ pins preload : BitVec 64, exec (.jtagSamplePreload pins preload) s =
      .next (sends { tap 2 with board := { s.board with tap := 2, scan := preload } } (.tdo 64 pins.toNat))) ∧
    exec .jtagExtest s = .next (sends (tap 3) (.pin pinChain s.board.scan.toNat)) ∧
    exec .jtagClamp s = .next (sends (tap 4) (.pin pinChain s.board.scan.toNat)) ∧
    exec .jtagHighz s = .next (sends (tap 5) (.pin pinHighZ 1))

/-! ## Ropes (08), cairns (09) and attention (10) -/

namespace Sys2Proof.Say

open Sys2Proof.Machine

/-- The command ends in `t` with its completion, after the effect that `P` says of the state before the completion. -/
def EndsWith (c : CmdSrc) (status : Nat) (res : State → Nat) (taint : State → Bool) (P : State → Prop) (t : State) : Prop :=
  ∃ u, P u ∧ t = u.finish c status (res u) 0 (taint u)

/-- Every rope but `r` is as it was. -/
def RopesBut (r : Nat) (s t : State) : Prop := ∀ q, q ≠ r → t.rope q = s.rope q

/-- A kernel call of tile `n` has returned (10 R303, R304): to ra, in bundle mode, with `code` in a0; the saved registers
and the CSRs are as they were. What R304 lets the kernel change is free. -/
def KernelReturned (n code : Nat) (s t : State) : Prop :=
  let u := s.tile n
  let w := t.tile n
  w.pc = (u.xr 1).toNat ∧ w.bmode = true ∧ w.inKernel = false ∧ w.xr 10 = BitVec.ofNat 32 code ∧ w.csr = u.csr ∧
  (∀ i, i < 5 ∨ i = 8 ∨ i = 9 ∨ (18 ≤ i ∧ i < 28) → w.xr i = u.xr i) ∧ w.xfers = u.xfers ∧ w.scratch = u.scratch

end Sys2Proof.Say

/-- The rope logic starts where its configuration holds and stops while every rope is FREE; a layout is taken where no rope
names its slot and its conditions hold, else the reason is recorded; `ROPE_SEL` captures an entry; a taint notice taints an
open rope or is counted. -/
def Obligations.RopesAreConfigured : Prop :=
  (∀ (v : Word) (s : State), s.flag pgRope PAGE_CTRL.LOCK = false →
    let x := bits v.toNat 8 8
    let kv : Kv := if x = 1 then { s.kv with queue := [] } else s.kv
    let off : State := { (s.put pgRope ROPE_CFG.FRAME_ROWS (bits v.toNat 6 0)).put pgRope ROPE_CFG.FREEZE x with kv := kv }
    let held := if s.get pgRope ROPE_CFG.FRAME_ROWS = bits v.toNat 6 0 then s else s.putFlag pgRope PAGE_STAT.LOCK_HIT true
    let on : State := { held.put pgRope ROPE_CFG.FREEZE x with kv := kv }
    let table := tableBytes (s.newNearTiles.length * off.nearPer + s.newEdgeStacks.length * off.edgePer)
    (s.ropesOn = false → exec (.ropeOff v) s = .next off) ∧ (s.ropesOn = true → exec (.ropeOn v) s = .next on) ∧
    (s.ropesOn = false → off.ropeCheck ≠ 0 → exec (.ropeOn v) s = .next (off.put pgRope ROPE_STAT.CFG_ERR off.ropeCheck)) ∧
    (s.ropesOn = false → off.ropeCheck = 0 → s.winsTouched s.metaBase table = [] → Gives (.ropeOn v) s (fun t =>
      t.ropesOn = true ∧
      t.flag pgRope ROPE_STAT.ACTIVE = true ∧ t.epoch = 0 ∧
      t.kv = { Kv.init with
        nearTiles := s.newNearTiles, edgeStacks := s.newEdgeStacks, captured := s.kv.captured, nextJob := s.kv.nextJob } ∧
      (∀ n < 12, t.get pgRope (ROPE_THR.T_UP.at n) = 4 ∧ t.get pgRope (ROPE_THR.T_DOWN.at n) = 2) ∧
      (∀ o < table, t.dataByte (s.metaBase + o) = 0) ∧ MemBut s.metaBase table s t ∧ LinesBut s.metaBase table s t ∧
      t = { s with regs := t.regs, mem := t.mem, cache := t.cache, kv := t.kv })) ∧
    (s.ropesOn = true → s.allRopesFree = true → s.flag pgCairn CAIRN_STAT.ACTIVE = false → Gives (.ropeOff v) s (fun t =>
      t.ropesOn = false ∧ t.flag pgRope ROPE_STAT.ACTIVE = false ∧ t.kv = { Kv.init with
        captured := s.kv.captured, nextJob := s.kv.nextJob } ∧
      t = { s with regs := t.regs, kv := t.kv } ∧ RegsBut [(pgRope, ROPE_CFG.ON), (pgRope, ROPE_CFG.FREEZE),
        (pgRope, ROPE_STAT.ACTIVE), (pgRope, PAGE_STAT.LOCK_HIT)] s t)) ∧
    (s.ropesOn = true → s.allRopesFree = false ∨ s.flag pgCairn CAIRN_STAT.ACTIVE = true →
      exec (.ropeOff v) s = .next on)) ∧
  (∀ (m : Fin 16) (v : Word) (s : State),
    let err (e : Nat) : Prop := Gives (.layoutValidWrite m v) s (fun t => t.get pgRope ROPE_STAT.LAY_ERR = e ∧
      OnlyRegs [(pgRope, ROPE_STAT.LAY_ERR)] s t)
    (s.slotNamed m = true → err 4) ∧
    (s.slotNamed m = false → s.layCheck (layOf v.toNat) ≠ 0 → err (s.layCheck (layOf v.toNat))) ∧
    (s.slotNamed m = false → s.layCheck (layOf v.toNat) = 0 → Gives (.layoutValidWrite m v) s (fun t =>
      t.layValid m = true ∧ t.lay m = layOf v.toNat ∧ OnlyRegs [(pgRope, ROPE_LAY_CFG.VALID.at m),
        (pgRope, ROPE_LAY_CFG.FMT.at m), (pgRope, ROPE_LAY_CFG.DIES.at m), (pgRope, ROPE_LAY_CFG.HPG.at m),
        (pgRope, ROPE_LAY_CFG.HEADS.at m), (pgRope, ROPE_LAY_CFG.LAYERS.at m)] s t))) ∧
  (∀ (q : Requester) (v : Word) (s : State), Gives (.ropeSelWrite q v) s (fun t =>
    t.get pgRope ROPE_SEL.ROPE = v.toNat % 4096 ∧ mapGet [] t.kv.captured (requesterNumber q) = s.ropeWords (v.toNat % 4096) ∧
    (∀ k, k ≠ requesterNumber q → mapGet [] t.kv.captured k = mapGet [] s.kv.captured k) ∧
    t = { s with regs := t.regs, kv := { s.kv with captured := t.kv.captured } } ∧ RegsBut [(pgRope, ROPE_SEL.ROPE)] s t)) ∧
  (∀ (n : TileId) (s : State),
    ((s.tile n).taintWait = [] → exec (.taintNotice n) s = .next s) ∧
    (∀ r rest, (s.tile n).taintWait = r :: rest →
      let took (t : State) : Prop := t.tile n = { s.tile n with taintWait := rest } ∧ TilesBut n s t
      (s.ropeOpenAt r = true → Gives (.taintNotice n) s (fun t => took t ∧ t.rope r = { s.rope r with taint := true } ∧
        RopesBut r s t ∧ t = { s with tiles := t.tiles, ropes := t.ropes })) ∧
      (s.ropeOpenAt r = false → Gives (.taintNotice n) s (fun t => took t ∧
        t.get pgMgmt MGMT_TAINT_DROP.COUNT = min (s.get pgMgmt MGMT_TAINT_DROP.COUNT + 1) (2 ^ 32 - 1) ∧
        OnlyTileRegs n [(pgMgmt, MGMT_TAINT_DROP.COUNT)] s t))))

/-- Rope commands, from a window or given outright, when no earlier command that names their rope is under way: `OPEN`,
`SET`, `CLOSE`, `TRUNC` and `FORK` leave the entry that the rule gives and no other rope changes; a rope in the wrong state, a
layout that is not valid and a command while the rope logic is off end with their status and without effect. -/
def Obligations.RopeCommandsActOnTheirRope : Prop :=
  ∀ (c : CmdSrc) (b : List Byte) (s : State), s.cmdBytes c 3 = some b → s.boot.damaged = [] →
    let r := ropeR b
    let p := ropePos b
    let x := s.rope r
    let y := s.rope (ropeSrc b)
    let prio := field b 17 1 % 16
    let tier := field b 17 1 / 16 % 4
    let flags := field b 1 1
    let forms : List (Instr × Nat) := [(.ropeOpen c, 1), (.ropeClose c, 2), (.ropeFork c, 3), (.ropeTrunc c, 4), (.ropeSet c, 5)]
    let turn := s.turn (s.cmdOrder c) none (if ropeOp b = 3 then [r, ropeSrc b] else [r])
    let runs (i : Instr) (res : State → Nat) (P : State → Prop) : Prop :=
      Gives i s (EndsWith c stOk res (fun u => (u.rope r).taint) (fun u => P u ∧ RopesBut r s u))
    let keep := decide (64 * (y.ablk + 1) ≤ p)
    let forked : Rope := { Rope.init with
      state := ropeIsOpen, len := p, mslot := y.mslot, adapter := y.adapter, prio := y.prio, tier := y.tier, taint := y.taint,
      shared := min y.shared (p / 64), anchor := if keep then y.anchor else 0, ablk := if keep then y.ablk else 0,
      av := keep && y.av, gen := (x.gen + 1) % 2 ^ 32 }
    (∀ e ∈ forms, ropeOp b = e.2 → turn = false → exec e.1 s = .next s) ∧
    (∀ e ∈ forms, ropeOp b = e.2 → turn = true →
      (s.ropesOn = false → exec e.1 s = .next (s.finish c stBadCmd 0 0 x.taint)) ∧
      (s.ropeStatus b ≠ stOk → exec e.1 s = .next (s.finish c (s.ropeStatus b) 0 0 x.taint)) ∧
      (s.ropesOn = true → ropeMalformed b = false → e.2 ≠ 1 → e.2 ≠ 3 → x.state ≠ ropeIsOpen →
        exec e.1 s = .next (s.finish c stRopeState 0 0 x.taint)) ∧
      (s.ropesOn = true → ropeMalformed b = false → e.2 = 1 → x.state = ropeFree → s.layValid (field b 16 1) = false →
        exec e.1 s = .next (s.finish c stBadLayout 0 0 x.taint))) ∧
    (turn = true → s.ropeStatus b = stOk →
      (ropeOp b = 1 → runs (.ropeOpen c) (fun u => (u.rope r).gen) (fun u => u = { s with ropes := u.ropes } ∧
        u.rope r = { Rope.init with
          state := ropeIsOpen, mslot := field b 16 1, adapter := field b 12 4, prio := prio, tier := tier,
          gen := (x.gen + 1) % 2 ^ 32 })) ∧
      (ropeOp b = 5 → runs (.ropeSet c) (fun _ => 0) (fun u => u = { s with ropes := u.ropes } ∧
        u.rope r = { x with
          prio := if bit flags 0 then prio else x.prio, tier := if bit flags 1 then tier else x.tier,
          taint := x.taint && !bit flags 2 })) ∧
      (ropeOp b = 2 → runs (.ropeClose c) (fun _ => 0) (fun u => u.rope r = { Rope.init with gen := x.gen } ∧
        u.kv.nodes = s.kv.nodes.filter (fun e => e.2.rope != r))) ∧
      (ropeOp b = 4 → runs (.ropeTrunc c) (fun _ => 0) (fun u =>
        u.kv.nodes = s.kv.nodes.filter (fun e => !(e.2.rope == r && e.2.level == 0 && (p + 63) / 64 ≤ e.2.block)) ∧
        u.rope r = { x with
          len := p, xlen := 0, shared := min x.shared (p / 64), av := x.av && 64 * (x.ablk + 1) ≤ p, written := [],
          draft := [] })) ∧
      (ropeOp b = 3 → p = 0 → runs (.ropeFork c) (fun u => (u.rope r).gen) (fun u => u = { s with ropes := u.ropes } ∧
        u.rope r = forked)) ∧
      (ropeOp b = 3 → (s.doFork b).isSome = true → runs (.ropeFork c) (fun u => (u.rope r).gen) (fun u =>
        u.rope r = { forked with depth := (u.rope r).depth, root := (u.rope r).root })) ∧
      (ropeOp b = 3 → s.doFork b = none → exec (.ropeFork c) s = .next (s.finish c stNoFrame 0 0 x.taint)))

/-- Tiering and the frames: a freed frame returns to its pool once its row commands are over, the rows that they did not
fill zeroed by the page mover; a walk clears every score of the page table that is 8 epochs old;
the end of an epoch moves the thresholds and clears the refusals; a sweep queues full cold near pages of its die; a promotion
or demotion that may start takes a frame and moves, one refused is counted; a completed move rewrites the page's place and
frees its old frame. Which frame is taken is free (assumption log 2). -/
def Obligations.PagesMoveBetweenTheTiers : Prop :=
  ∀ s : State,
    (∀ h : Word,
      let left := (s.frameRowsAt h.toNat).filter (fun a => !s.rowServed (.zero h.toNat) a)
      let waits := !s.jobsOver (.zero h.toNat) || (!left.isEmpty && handleNear h.toNat && s.dieDown (handleTile h.toNat / 128))
      (h.toNat ∈ s.kv.zeroing → waits = false → Gives (.frameZeroDone h) s (fun t =>
        t.kv = { s.kv with
          zeroing := s.kv.zeroing.filter (· != h.toNat),
          seen := if s.kv.seen.contains h.toNat then s.kv.seen else h.toNat :: s.kv.seen,
          jobs := s.kv.jobs.filter (fun j => j.use != .zero h.toNat) } ∧
        ((∀ a ∈ left, s.winsTouched a 2048 = []) → ∀ a ∈ left, ∀ o < 2048, t.dataByte (a + o) = 0) ∧
        t.get pgRope ROPE_ZEROED.COUNT = min (s.get pgRope ROPE_ZEROED.COUNT + 1) (2 ^ 32 - 1) ∧ t.ropes = s.ropes)) ∧
      (h.toNat ∉ s.kv.zeroing ∨ waits = true → exec (.frameZeroDone h) s = .next s)) ∧
    (s.ropesOn = false → exec .agingWalk s = .next s ∧ exec .ropeEpochEnd s = .next s ∧
      ∀ n, exec (.demotionSweep n) s = .next s) ∧
    (s.ropesOn = true → Clean s s.metaBase (16 * s.pageCount) → s.winsTouched s.metaBase (tableBytes s.pageCount) = [] →
      Gives .agingWalk s (fun t => t = { s with mem := t.mem, cache := t.cache } ∧
        ∀ x < s.pageCount, t.page x = if 8 ≤ s.age (s.page x).stamp then
        { s.page x with score := 0, stamp := s.epoch % 65536 } else s.page x)) ∧
    (s.ropesOn = true → Gives .ropeEpochEnd s (fun t => t.epoch = (s.epoch + 1) % 2 ^ 32 ∧
      t.kv = { s.kv with refused := [] } ∧ t = { s with regs := t.regs, kv := t.kv } ∧
      (∀ n < 12,
        let up := s.get pgRope (ROPE_THR.T_UP.at n)
        let new := if 0 < mapGet 0 s.kv.refused n then min 255 (up + 1)
          else if s.highMark n ≤ s.nfree n then max 2 (up - 1) else up
        t.get pgRope (ROPE_THR.T_UP.at n) = new % 256 ∧ t.get pgRope (ROPE_THR.T_DOWN.at n) = new / 2 % 256) ∧
      RegsBut ((pgRope, ROPE_EPOCH.COUNT) :: (List.range 12).flatMap (fun n =>
        [(pgRope, ROPE_THR.T_UP.at n), (pgRope, ROPE_THR.T_DOWN.at n)]) : Fields) s t)) ∧
    (s.ropesOn = true → s.flag pgRope ROPE_CFG.FREEZE = false → ∀ n : Die, s.prst n = prstUp →
      (s.lowMark n ≤ s.nfree n → exec (.demotionSweep n) s = .next s) ∧
      (s.nfree n < s.lowMark n → Gives (.demotionSweep n) s (fun t => ∃ l : List Nat,
        t = { s with kv := { s.kv with demote := s.kv.demote ++ l, cursor := t.kv.cursor } } ∧
        ∀ x ∈ l, (s.page x).full = true ∧ (s.page x).state = pageLive ∧ x ∉ s.kv.demote ∧
          s.effScore (s.page x).score (s.page x).stamp < s.get pgRope (ROPE_THR.T_DOWN.at n) ∧
          ∃ e ∈ s.kv.held, e.2 = x ∧ handleNear e.1 = true ∧ handleTile e.1 / 128 = n))) ∧
    (∀ x : Word,
      let e := s.page x.toNat
      let n := if handleNear e.loc then handleTile e.loc / 128 else s.pageDie e
      let begins (h : Nat) (t : State) : Prop :=
        t.page x.toNat = { e with state := pageMoving } ∧ t.kv = { s.kv with
          held := s.kv.held ++ [(h, x.toNat)], queue := s.kv.queue.filter (· != x.toNat),
          demote := s.kv.demote.filter (· != x.toNat), moves := s.kv.moves ++ [(x.toNat, h)],
          starts := s.kv.starts.filter (fun f => s.mg < 500000 + f.2) ++ [(n, s.mg)] } ∧
        t = { s with mem := t.mem, cache := t.cache, kv := t.kv, fresh := s.fresh + 1 }
      (x.toNat ∉ s.livePages ∨ e.state ≠ pageLive ∨ s.prst n ≠ prstUp ∨ s.copies x.toNat = true →
        ∀ near, exec (.pageMoveStart x near) s = .next s) ∧
      (x.toNat ∈ s.livePages → e.state = pageLive → s.prst n = prstUp → s.flag pgRope ROPE_CFG.FREEZE = false →
        s.moveRoom n = true → s.copies x.toNat = false → Clean s (s.metaBase + 16 * x.toNat) 16 →
        s.winsTouched (32 * ((s.metaBase + 16 * x.toNat) / 32)) 32 = [] →
        (x.toNat ∈ s.kv.queue → s.nfree n ≤ s.lowMark n → exec (.pageMoveStart x true) s = .next { s with
          kv := { s.kv with
            queue := s.kv.queue.filter (· != x.toNat),
            refused := mapSet 0 s.kv.refused n (mapGet 0 s.kv.refused n + 1) } }) ∧
        (∀ h, x.toNat ∈ s.kv.queue → s.lowMark n < s.nfree n → s.newNear n = some h → h ∈ s.kv.seen →
          Gives (.pageMoveStart x true) s (begins h)) ∧
        (∀ h, x.toNat ∈ s.kv.demote → (handleNear e.loc && s.fencedTile (handleTile e.loc)) = false →
          s.newEdge n = some h → h ∈ s.kv.seen → Gives (.pageMoveStart x false) s (begins h))) ∧
      ((∀ m ∈ s.kv.moves, m.1 ≠ x.toNat) → exec (.pageMoveComplete x) s = .next s) ∧
      (∀ h, s.kv.moves.find? (fun m => m.1 == x.toNat) = some (x.toNat, h) →
        let down (g : Nat) : Bool := handleNear g && s.dieDown (handleTile g / 128)
        (down e.loc || down h || s.copies x.toNat → exec (.pageMoveComplete x) s = .next s) ∧
        ((down e.loc || down h || s.copies x.toNat) = false → s.readersOf x.toNat = [] → Gives (.pageMoveComplete x) s (fun t =>
          t.kv = { s.kv with
            held := s.kv.held.filter (fun f => f.1 != e.loc), moves := s.kv.moves.filter (fun f => f.1 != x.toNat),
            zeroing := s.kv.zeroing ++ [e.loc], jobs := t.kv.jobs, nextJob := s.kv.nextJob + s.frameRows } ∧
          (let f := if handleNear h then ROPE_PROMOTED.COUNT else ROPE_DEMOTED.COUNT
           t.get pgRope f = min (s.get pgRope f + 1) (2 ^ 32 - 1)) ∧
          t.mem = (((List.range (s.lay e.mslot).rows).foldl (fun s' i => s'.moveRow (s.frameAddr e.loc + 2048 * i)
            (s.frameAddr h + 2048 * i)) s).setPage x.toNat { e with loc := h, state := pageLive }).mem))))

/-- The cairn store starts where its configuration holds, with every header FREE, and empties before it stops; its commands
answer by the state of the store and of the rope; `PIN` and `UNPIN` turn the pin of the rope's anchor; `MATCH` gives the rope
the blocks it attached; `PUBLISH` moves its anchor; `FLUSH` counts what it evicts; a sweep evicts the first entry from the
cursor on where it is evictable and nothing of it is left. -/
def Obligations.CairnCommandsActOnTheStore : Prop :=
  (∀ (v : Word) (s : State), s.flag pgCairn PAGE_CTRL.LOCK = false →
    let off := (s.put pgCairn CAIRN_CFG.SIZE (bits v.toNat 2 1)).put pgCairn CAIRN_CFG.VERIFY (bits v.toNat 0 0)
    let held := if s.get pgCairn CAIRN_CFG.SIZE = bits v.toNat 2 1 then s else s.putFlag pgCairn PAGE_STAT.LOCK_HIT true
    let on := held.put pgCairn CAIRN_CFG.VERIFY (bits v.toNat 0 0)
    let isOn := s.flag pgCairn CAIRN_CFG.ON
    let active := s.flag pgCairn CAIRN_STAT.ACTIVE
    (isOn = true → exec (.cairnOn v) s = .next on) ∧ (isOn = false → exec (.cairnOff v) s = .next off) ∧
    (isOn = false → active = true → exec (.cairnOn v) s = .next off) ∧
    (isOn = false → active = false → off.cairnCheck ≠ 0 →
      exec (.cairnOn v) s = .next (off.put pgCairn CAIRN_STAT.CFG_ERR off.cairnCheck)) ∧
    (isOn = false → active = false → off.cairnCheck = 0 → s.winsTouched (off.headAt 0) (64 * off.cairnSize) = [] →
      Gives (.cairnOn v) s (fun t => t.flag pgCairn CAIRN_CFG.ON = true ∧ t.flag pgCairn CAIRN_STAT.ACTIVE = true ∧
      (∀ f ∈ [CAIRN_STAT.CFG_ERR, CAIRN_ENTRIES.COUNT, CAIRN_PINNED.COUNT], t.get pgCairn f = 0) ∧
      t.get pgCairn CAIRN_PAGES.COUNT = s.get pgCairn CAIRN_PAGES.COUNT ∧
      (∀ o < 64 * t.cairnSize, t.dataByte (t.headAt 0 + o) = 0) ∧ MemBut (t.headAt 0) (64 * t.cairnSize) s t ∧
      LinesBut (t.headAt 0) (64 * t.cairnSize) s t ∧ t = { s with regs := t.regs, mem := t.mem, cache := t.cache })) ∧
    (isOn = true → Gives (.cairnOff v) s (fun t => t.flag pgCairn CAIRN_CFG.ON = false ∧
      t.flag pgCairn CAIRN_STAT.SWEEP = true ∧ t.get pgCairn CAIRN_ENTRIES.COUNT = 0 ∧
      t.get pgCairn CAIRN_PINNED.COUNT = 0 ∧ t.tiles = s.tiles))) ∧
  (∀ s : State,
    (s.flag pgCairn CAIRN_STAT.SWEEP = true → s.flag pgCairn CAIRN_CFG.ON = false → Gives .cairnEmptyDone s (fun t =>
      t.flag pgCairn CAIRN_STAT.ACTIVE = false ∧ t.flag pgCairn CAIRN_STAT.SWEEP = false ∧
      OnlyRegs [(pgCairn, CAIRN_STAT.ACTIVE), (pgCairn, CAIRN_STAT.SWEEP)] s t)) ∧
    (s.flag pgCairn CAIRN_STAT.SWEEP = false ∨ s.flag pgCairn CAIRN_CFG.ON = true → exec .cairnEmptyDone s = .next s) ∧
    (∀ p : BitVec 16,
      (s.capMet p.toNat = true → exec (.cairnSweep (.cap p)) s = .next s) ∧
      (s.flag pgCairn CAIRN_STAT.ACTIVE = true → s.flag pgCairn CAIRN_STAT.SWEEP = false → s.capMet p.toNat = false →
        (s.usedEntries = [] → exec (.cairnSweep (.cap p)) s = .next s) ∧
        (∀ x l h, s.sweepList (s.get pgCairn CAIRN_CURSOR.NEXT % s.cairnSize) = x :: l → s.headOf x = some h →
          h.evictable = true → Clean s (s.headAt x) 64 → s.effScore h.score h.stamp = 0 →
          let t := (s.evict x).put pgCairn CAIRN_CURSOR.NEXT ((x + 1) % s.cairnSize)
          t.capMet p.toNat = true → exec (.cairnSweep (.cap p)) s = .next t))) ∧
    (s.flag pgCairn CAIRN_STAT.ACTIVE = false → ∀ n, exec (.cairnSweep (.frame n)) s = .next s)) ∧
  (∀ (c : CmdSrc) (b : List Byte) (s : State), s.cmdBytes c 4 = some b → s.flag pgCairn CAIRN_STAT.SWEEP = false →
    let r := ropeR b
    let x := s.rope r
    let byd := bit (field b 1 1) 0
    let named : Bool := cairnOp b = 1 || cairnOp b = 2 || ((cairnOp b = 3 || cairnOp b = 4) && !byd)
    let taint := named && x.taint
    let forms : List (Instr × Nat) :=
      [(.cairnMatch c, 1), (.cairnPublish c, 2), (.cairnPin c, 3), (.cairnUnpin c, 4), (.cairnFlush c, 5)]
    let turn := s.turn (s.cmdOrder c) none (if named then [r] else [])
    let h := cairnHeadOf (s.metaBytes (s.headAt x.anchor) 64)
    let pins (i : Instr) (v : Bool) : Prop := Gives i s (EndsWith c stOk (fun _ => 0) (fun _ => taint) (fun u =>
      u.headOf x.anchor = some { h with pin := v } ∧
      u.get pgCairn CAIRN_PINNED.COUNT = (if v then min (s.get pgCairn CAIRN_PINNED.COUNT + 1) (2 ^ 32 - 1)
        else (s.get pgCairn CAIRN_PINNED.COUNT - 1) % 2 ^ 32) ∧
      u = { s with mem := u.mem, cache := u.cache, regs := u.regs } ∧ MemBut (s.headAt x.anchor) 64 s u ∧
      LinesBut (s.headAt x.anchor) 64 s u ∧
      RegsBut [(pgCairn, CAIRN_PINNED.COUNT)] s u))
    (∀ e ∈ forms, cairnOp b = e.2 → turn = false → exec e.1 s = .next s) ∧
    (∀ e ∈ forms, cairnOp b = e.2 → turn = true →
      (s.flag pgCairn CAIRN_STAT.ACTIVE = false → exec e.1 s = .next (s.finish c stBadCmd 0 0 taint)) ∧
      (s.cairnStatus b ≠ stOk → exec e.1 s = .next (s.finish c (s.cairnStatus b) 0 0 taint))) ∧
    (turn = true → s.cairnStatus b = stOk →
      (∀ e ∈ forms, cairnOp b = e.2 → s.tokensAsleep b = true → exec e.1 s = .next s) ∧
      (byd = false → x.av = false →
        (cairnOp b = 3 → exec (.cairnPin c) s = .next (s.finish c stNotFound 0 0 taint)) ∧
        (cairnOp b = 4 → exec (.cairnUnpin c) s = .next (s.finish c stNotFound 0 0 taint))) ∧
      (byd = false → x.av = true → Clean s (s.headAt x.anchor) 64 → s.winsTouched (s.headAt x.anchor) 64 = [] →
        (cairnOp b = 3 → h.pin = true → exec (.cairnPin c) s = .next (s.finish c stOk 0 0 taint)) ∧
        (cairnOp b = 3 → h.pin = false → pins (.cairnPin c) true) ∧
        (cairnOp b = 4 → h.pin = false → exec (.cairnUnpin c) s = .next (s.finish c stOk 0 0 taint)) ∧
        (cairnOp b = 4 → h.pin = true → pins (.cairnUnpin c) false)) ∧
      (cairnOp b = 1 → s.tokensAsleep b = false → Gives (.cairnMatch c) s (fun t => ∃ st n,
        n ≤ (cairnCount b - 1) / 64 ∧ EndsWith c st (fun _ => n) (fun u => (u.rope r).taint) (fun u => RopesBut r s u ∧
          (u.rope r).state = x.state ∧ (u.rope r).xlen = x.xlen ∧
          (if n = 0 then (u.rope r).len = x.len ∧ (u.rope r).av = x.av
           else (u.rope r).len = 64 * n ∧ (u.rope r).shared = n ∧ (u.rope r).ablk = n - 1 ∧ (u.rope r).av = true)) t)) ∧
      (cairnOp b = 2 → s.tokensAsleep b = false →
        let first := if x.av then x.ablk + 1 else 0
        Gives (.cairnPublish c) s (fun t => ∃ st n,
          n ≤ min (x.len / 64) (cairnCount b / 64) - first ∧
          EndsWith c st (fun _ => n) (fun u => (u.rope r).taint) (fun u => (u.rope r).len = x.len ∧
            (n ≠ 0 → (u.rope r).ablk = first + n - 1 ∧ (u.rope r).av = true)) t)) ∧
      (cairnOp b = 5 → Gives (.cairnFlush c) s (fun t => ∃ n,
        EndsWith c stOk (fun _ => n) (fun _ => false) (fun u => u.get pgCairn CAIRN_EVICT.COUNT =
          (if n = 0 then s.get pgCairn CAIRN_EVICT.COUNT else min (s.get pgCairn CAIRN_EVICT.COUNT + n) (2 ^ 32 - 1)) ∧
          (s.usedEntries = [] → n = 0 ∧ u = s)) t))))

/-- ATTN commands: one that passes its checks is put into progress with its rows and participants, another ends with its
status in the done sector; a row is checked in its turn, ends with its status or writes its KV and hands out its work; a
participant's call takes its work; a call without one, or of a command that timed out, returns with its code; the timeout
ends every row that is not done as lost; a command whose rows are all done leaves. Outputs that are ready go at each of
these. -/
def Obligations.AttentionServesItsRows : Prop :=
  (∀ (c : CmdSrc) (b : List Byte) (s : State), s.cmdBytes c 5 = some b → field b 0 1 % 16 ≠ 2 →
    (∀ w k, c = .window w k → ∀ a ∈ s.attn.cmds, a.src ≠ c) →
    let n := 64 * attnRows b
    let late := !s.attnMalformed b && s.reachable (attnTable b) n && s.asleep (attnTable b) n
    (late = true → exec (.attn c) s = .next s) ∧
    (late = false → s.attnStatus b ≠ stOk → s.attnStatus b ≠ stTableUE →
      exec (.attn c) s = .next (s.endAttn c b (s.attnStatus b) 0 0 false)) ∧
    (late = false → s.attnStatus b = stOk → Clean s (attnTable b) n → exec (.attn c) s = .next { s with
      attn := { s.attn with
        next := s.attn.next + 1
        cmds := s.attn.cmds ++ [{
          id := s.attn.next, order := s.cmdOrder c, src := c, body := b,
          parts := s.participants (layerDies (s.lay (field b 5 1)) (field b 4 1)), called := [], ended := [], lost := false,
          rows := (List.range (attnRows b)).map (fun i => rowOf ((List.range 64).map (fun j =>
            s.dataByte (attnTable b + 64 * i + j)))) }] } })) ∧
  (∀ (id : Nat) (row : BitVec 10) (s : State) (a : AttnCmd) (x : AttnRow),
    s.attnCmd id = some a → a.rows[row.toNat]? = some x →
    let keep (t : State) (y : AttnRow) : State := (t.setAttn (a.setRow row.toNat y)).attnSettle
    let st := s.rowCheck a x
    let x0 := { x with len := (s.rope x.rope).len, tree := s.rowTree x }
    let w := s.rowWrites a x0
    let x1 := { x0 with root := some (w.1.rope x.rope).root }
    (x.phase ≠ .waiting ∨ s.turn a.order (some a.id) [x.rope] = false → exec (.attnRowCheck id row) s = .next s) ∧
    (x.phase = .waiting → s.turn a.order (some a.id) [x.rope] = true →
      (st ≠ stOk → st ≠ stTableUE → exec (.attnRowCheck id row) s = .next (keep s { x with phase := .done, status := st })) ∧
      (st = stOk → (∀ e ∈ s.rowRanges a x, s.asleep e.1 e.2 = false ∧ Clean s e.1 e.2) → w.2 = .done →
        let u := w.1.meetPages x.rope x1.blocks (a.pairs (w.1.lay a.mslot))
        (∀ items, u.workItems a x1 row.toNat = some items → exec (.attnRowCheck id row) s =
          .next (keep (u.scoreItems x.rope items) { x1 with phase := .served, items := items })) ∧
        (u.workItems a x1 row.toNat = none → exec (.attnRowCheck id row) s =
          .next (keep u { x1 with phase := .served, status := stNoSlot, poison := true })))) ∧
    (x.phase = .done → exec (.attnRowTimeout id row) s = .next s) ∧
    (x.phase ≠ .done → Gives (.attnRowTimeout id row) s (fun t => ∀ a' ∈ t.attn.cmds, a'.id = a.id → a'.lost = true ∧
      ∀ (i : Nat) (y : AttnRow), a.rows[i]? = some y → ∃ x' : AttnRow, a'.rows[i]? = some x' ∧ x'.phase = .done ∧
        x'.status = if y.phase = .done then y.status else stLost))) ∧
  (∀ (n : TileId) (cseq : Word) (s : State) (l : Nat), s.logicalOf n = some l → s.atKernel n cseq.toNat = true →
    let returned (code : Nat) (t : State) : Prop := KernelReturned n code s t ∧ TilesBut n s t ∧ t.mem = s.mem ∧
      t.regs = s.regs
    (s.callFor l cseq.toNat = none → s.owedCall l cseq.toNat = none →
      exec (.attnKernelCall n cseq) s = .next s ∧
      Gives (.attnKernelTimeout n cseq) s (fun t => returned 1 t ∧ t.attn = s.attn)) ∧
    (∀ e, s.owedCall l cseq.toNat = some e → exec (.attnKernelTimeout n cseq) s = .next s ∧
      Gives (.attnKernelCall n cseq) s (fun t => returned e.2.2 t ∧
        t.attn = { s.attn with owed := s.attn.owed.erase e })) ∧
    (∀ a, s.callFor l cseq.toNat = some a → s.owedCall l cseq.toNat = none →
      (a.lost = true → Gives (.attnKernelCall n cseq) s (returned 2)) ∧
      (a.lost = false → Gives (.attnKernelCall n cseq) s (fun t => ∃ a' ∈ t.attn.cmds, a'.id = a.id ∧
        a'.called = a.called ++ [l])))) ∧
  (∀ (id : Nat) (s : State) (a : AttnCmd), s.attnSettle.attnCmd id = some a →
    let u := s.attnSettle
    ((∃ x ∈ a.rows, x.phase ≠ .done) → exec (.attnComplete id) s = .next u) ∧
    ((∀ x ∈ a.rows, x.phase = .done) → (∀ p ∈ a.parts, ∀ t, u.physOf p = some t → (u.tile t).taintWait = []) →
      (u.reachable (attnTable a.body) (64 * a.rows.length) && u.asleep (attnTable a.body) (64 * a.rows.length)) = false →
      (u.reachable (bodyDone a.body) 32 && u.asleep (bodyDone a.body) 32) = false →
      Gives (.attnComplete id) s (fun t => t.attn.cmds = u.attn.cmds.filter (fun b => b.id != id) ∧
        t.attn.owed = u.attn.owed ++ (a.parts.filter (fun p => !a.called.contains p)).map (fun p =>
          (p, bodyCseq a.body, if a.lost then 2 else 0)) ∧
        t.ropes = (a.rows.foldl (fun v x => v.rowLength a x) u).ropes)))

/-- ACCEPT: refused by its checks with its status, and else the accepted path of the draft lengthens the rope, whose draft is
over, and the command completes once the frames and rows that it gave up are zeroed; it waits for memory that sleeps, and for
pages that move, are copied or lie on a die that is down. Earlier ones that can complete do so first. -/
def Obligations.DraftsAreAccepted : Prop :=
  ∀ (c : CmdSrc) (b : List Byte) (s0 : State),
    let s := s0.acceptsEnd
    s.cmdBytes c 5 = some b → field b 0 1 % 16 = 2 →
    let r := field b 2 2 % 4096
    let o := s.rope r
    let p := acceptTable b
    let turn := s.turn (s.cmdOrder c) none [r]
    let st := s.acceptStatus b
    let awake : Prop := s.asleep p 576 = false ∧ s.asleep (bodyDone b) 32 = false
    let busy (x : Nat) : Bool := (s.page x).state == pageMoving || s.copies x ||
      (handleNear (s.page x).loc && s.dieDown (handleTile (s.page x).loc / 128))
    let pages : List Nat := (List.range (s.lay o.mslot).pairs).flatMap (fun i =>
      (s.pagesBetween r i (o.len / 64) ((o.len + o.xlen - 1) / 64)).map (·.2))
    (turn = false → exec (.accept c) s0 = .next s) ∧
    (turn = true → st = stBadCmd → exec (.accept c) s0 = .next (s.endAttn c b stBadCmd 0 0 o.taint)) ∧
    (turn = true → awake → st ≠ stOk → st ≠ stTokenUE → exec (.accept c) s0 = .next (s.endAttn c b st 0 0 o.taint)) ∧
    (turn = true → st = stOk → s.reachable p 576 = true → s.asleep p 576 = true → exec (.accept c) s0 = .next s) ∧
    (turn = true → awake → st = stOk → (∃ x ∈ pages, busy x = true) → exec (.accept c) s0 = .next s) ∧
    (turn = true → awake → st = stOk → Clean s p 576 → (∀ x ∈ pages, busy x = false) →
      let m := ((draftOf ((List.range 576).map (fun j => s.dataByte (p + j)))).path (field b 4 4) o.xlen).length
      Gives (.accept c) s0 (fun t => RopesBut r s t ∧
        t.rope r = { o with len := o.len + m, xlen := 0, draft := [], written := [] }))
end

