-- ==== Sys2Proof/Laws/Maps.lean ====
section
/-! SUPPORT. The laws of the sparse maps (`mapGet`, `mapSet`) and of their canonical form: what a later proof cites in
place of unfolding either. -/

namespace Sys2Proof.Machine

variable {α : Type}

theorem find?_filter_of_imp (m : List (Nat × α)) (p q : Nat × α → Bool) (h : ∀ e, p e = true → q e = true) :
    (m.filter q).find? p = m.find? p := by
  induction m with
  | nil => rfl
  | cons a l ih =>
    by_cases hq : q a = true
    · simp [hq, List.find?_cons, ih]
    · have hp : p a = false := by
        cases hpa : p a with
        | false => rfl
        | true => exact absurd (h a hpa) hq
      simp [hq, hp, ih]

theorem find?_filter_none (m : List (Nat × α)) (p q : Nat × α → Bool) (h : ∀ e, q e = true → p e = false) :
    (m.filter q).find? p = none := by
  rw [List.find?_eq_none]
  intro e he
  have := (List.mem_filter.mp he).2
  simp [h e this]

/-- A sparse map read at the key just set. -/
@[simp] theorem mapGet_mapSet_self [DecidableEq α] (d : α) (m : List (Nat × α)) (k : Nat) (v : α) :
    mapGet d (mapSet d m k v) k = v := by
  unfold mapGet mapSet
  rw [List.append_assoc, List.find?_append, find?_filter_none _ _ _ (by intro e h; simp at *; omega)]
  by_cases hv : v = d
  · simp only [hv, if_true, List.nil_append, Option.none_or]
    rw [find?_filter_none _ _ _ (by intro e h; simp at *; omega)]
  · simp [hv]

/-- A sparse map read at another key, with any default. -/
theorem mapGet_mapSet_ne [DecidableEq α] (e d : α) (m : List (Nat × α)) (k j : Nat) (v : α) (h : j ≠ k) :
    mapGet e (mapSet d m k v) j = mapGet e m j := by
  unfold mapGet mapSet
  rw [List.append_assoc, List.find?_append, List.find?_append]
  have hmid : (if v = d then [] else [(k, v)] : List (Nat × α)).find? (fun e => e.1 == j) = none := by
    by_cases hv : v = d
    · simp [hv]
    · simp [hv]; omega
  rw [hmid]
  by_cases hj : j < k
  · rw [find?_filter_of_imp _ _ _ (by intro e he; simp at *; omega)]
    rw [find?_filter_none _ _ (fun e => decide (k < e.1)) (by intro e he; simp at *; omega)]
    simp
  · rw [find?_filter_none _ _ (fun e => decide (e.1 < k)) (by intro e he; simp at *; omega)]
    rw [find?_filter_of_imp _ _ _ (by intro e he; simp at *; omega)]
    simp

/-- A sparse map read after a write, both cases. -/
theorem mapGet_mapSet [DecidableEq α] (d : α) (m : List (Nat × α)) (k j : Nat) (v : α) :
    mapGet d (mapSet d m k v) j = if j = k then v else mapGet d m j := by
  by_cases h : j = k
  · subst h; simp
  · simp [h, mapGet_mapSet_ne]

@[simp] theorem mapGet_nil (d : α) (k : Nat) : mapGet d [] k = d := rfl

/-- What a fold of writes leaves at a key. -/
theorem mapGet_foldl_mapSet [DecidableEq α] (d : α) (g : Nat → α) (l r : List (Nat × α)) (k : Nat) :
    mapGet d (l.foldl (fun r e => mapSet d r e.1 (g e.1)) r) k = if k ∈ l.map (·.1) then g k else mapGet d r k := by
  induction l generalizing r with
  | nil => simp
  | cons e l ih =>
    simp only [List.foldl_cons, ih, mapGet_mapSet, List.map_cons, List.mem_cons]
    by_cases h : k = e.1
    · subst h; simp
    · rw [if_neg h]
      exact if_congr (by simp only [h, false_or]) rfl rfl

/-- A changed map holds at each key the function of what was there, and nothing where nothing was. -/
theorem mapGet_mapUpd [DecidableEq α] (d : α) (m : List (Nat × α)) (f : Nat → α → α) (k : Nat) :
    mapGet d (mapUpd d m f) k = if k ∈ m.map (·.1) then f k (mapGet d m k) else d := by
  unfold mapUpd
  rw [mapGet_foldl_mapSet d (fun i => f i (mapGet d m i)), mapGet_nil]

/-- A key without an entry holds the default. -/
theorem mapGet_of_not_mem (d : α) (m : List (Nat × α)) (k : Nat) (h : k ∉ m.map (·.1)) : mapGet d m k = d := by
  unfold mapGet
  rw [List.find?_eq_none.mpr]
  intro e he hk
  exact h (List.mem_map.mpr ⟨e, he, by simpa using hk⟩)

/-- Where the function keeps the default, a changed map holds at every key the function of what was there. -/
theorem mapGet_mapUpd_of [DecidableEq α] (d : α) (m : List (Nat × α)) (f : Nat → α → α) (k : Nat) (h : f k d = d) :
    mapGet d (mapUpd d m f) k = f k (mapGet d m k) := by
  rw [mapGet_mapUpd]
  split
  · rfl
  · rename_i hk; rw [mapGet_of_not_mem d m k hk, h]

/-- The canonical form of a sparse map: keys strictly rising, no entry at the default. -/
def mapWf [DecidableEq α] (d : α) (m : List (Nat × α)) : Prop :=
  m.Pairwise (fun a b => a.1 < b.1) ∧ ∀ e ∈ m, e.2 ≠ d

/-- A write keeps the canonical form. -/
theorem mapSet_wf [DecidableEq α] (d : α) (m : List (Nat × α)) (k : Nat) (v : α) (h : mapWf d m) :
    mapWf d (mapSet d m k v) := by
  obtain ⟨hp, hd⟩ := h
  unfold mapSet
  constructor
  · rw [List.append_assoc, List.pairwise_append]
    refine ⟨hp.filter _, ?_, ?_⟩
    · rw [List.pairwise_append]
      refine ⟨by split <;> simp, hp.filter _, ?_⟩
      intro a ha b hb
      have hb' := (List.mem_filter.mp hb).2
      split at ha
      · simp at ha
      · simp at ha hb'; subst ha; exact hb'
    · intro a ha b hb
      have ha' := (List.mem_filter.mp ha).2
      rcases List.mem_append.mp hb with hb | hb
      · split at hb
        · simp at hb
        · simp at hb ha'; subst hb; exact ha'
      · have hb' := (List.mem_filter.mp hb).2
        simp at ha' hb'; omega
  · intro e he
    rcases List.mem_append.mp he with he | he
    · rcases List.mem_append.mp he with he | he
      · exact hd e (List.mem_filter.mp he).1
      · split at he
        · simp at he
        · simp at he; subst he; assumption
    · exact hd e (List.mem_filter.mp he).1

end Sys2Proof.Machine
end

