-- ==== Sys2Proof/Laws/Memory.lean ====
section
/-! SUPPORT. The laws of the byte-addressed lists (`memWrite`, `memZero`, `memCells`): a read after a write, and that
every operation keeps the canonical form `memWf`. -/

namespace Sys2Proof.Machine

open Host (Cell)

theorem memWf_iff (m : List Cell) : memWf m = true ↔ mapWf 0 m := by
  unfold memWf mapWf
  simp

@[simp] theorem memWf_nil : memWf [] = true := by decide

/-- Every entry that `memCells` makes lies in the range written and is not zero. -/
theorem mem_memCells (k : Nat) (bs : List Byte) (c : Cell) (h : c ∈ memCells k bs) :
    k ≤ c.1 ∧ c.1 < k + bs.length ∧ c.2 ≠ 0 := by
  induction bs generalizing k with
  | nil => simp [memCells] at h
  | cons b bs ih =>
    simp only [memCells] at h
    split at h
    · obtain ⟨h1, h2, h3⟩ := ih _ h
      exact ⟨by omega, by simp only [List.length_cons]; omega, h3⟩
    · rcases List.mem_cons.mp h with h | h
      · subst h; simp; assumption
      · obtain ⟨h1, h2, h3⟩ := ih _ h
        exact ⟨by omega, by simp only [List.length_cons]; omega, h3⟩

theorem memCells_pairwise (k : Nat) (bs : List Byte) : (memCells k bs).Pairwise (fun a b => a.1 < b.1) := by
  induction bs generalizing k with
  | nil => simp [memCells]
  | cons b bs ih =>
    simp only [memCells]
    split
    · exact ih _
    · refine List.pairwise_cons.mpr ⟨fun c hc => ?_, ih _⟩
      have := mem_memCells _ _ _ hc
      simp; omega

/-- The cells of a byte list read back as the bytes. -/
theorem mapGet_memCells (k : Nat) (bs : List Byte) (j : Nat) :
    mapGet 0 (memCells k bs) j = if k ≤ j then bs.getD (j - k) 0 else 0 := by
  induction bs generalizing k with
  | nil => simp [memCells]
  | cons b bs ih =>
    simp only [memCells]
    by_cases hj : j = k
    · subst hj
      split
      · rename_i hb
        rw [ih]; simp [hb]
      · simp [mapGet]
    · have key : mapGet 0 (memCells (k + 1) bs) j = if k ≤ j then (b :: bs).getD (j - k) 0 else 0 := by
        rw [ih]
        by_cases hk : k ≤ j
        · have h1 : k + 1 ≤ j := by omega
          have h2 : j - k = (j - (k + 1)) + 1 := by omega
          rw [if_pos h1, if_pos hk, h2]; simp
        · have h1 : ¬ k + 1 ≤ j := by omega
          rw [if_neg h1, if_neg hk]
      split
      · exact key
      · rw [← key]
        have : (k == j) = false := by simp; omega
        simp [mapGet, this]

/-- A write keeps the canonical form. -/
theorem memWrite_wf (m : List Cell) (k : Nat) (bs : List Byte) (h : memWf m = true) :
    memWf (memWrite m k bs) = true := by
  rw [memWf_iff] at *
  obtain ⟨hp, hd⟩ := h
  unfold memWrite
  constructor
  · rw [List.append_assoc, List.pairwise_append]
    refine ⟨hp.filter _, ?_, ?_⟩
    · rw [List.pairwise_append]
      refine ⟨memCells_pairwise _ _, hp.filter _, ?_⟩
      intro a ha b hb
      have h1 := mem_memCells _ _ _ ha
      have h2 := (List.mem_filter.mp hb).2
      simp at h2; omega
    · intro a ha b hb
      have h1 := (List.mem_filter.mp ha).2
      rcases List.mem_append.mp hb with hb | hb
      · have h2 := mem_memCells _ _ _ hb
        simp at h1; omega
      · have h2 := (List.mem_filter.mp hb).2
        simp at h1 h2; omega
  · intro e he
    rcases List.mem_append.mp he with he | he
    · rcases List.mem_append.mp he with he | he
      · exact hd e (List.mem_filter.mp he).1
      · exact (mem_memCells _ _ _ he).2.2
    · exact hd e (List.mem_filter.mp he).1

theorem filter_wf (m : List Cell) (p : Cell → Bool) (h : memWf m = true) : memWf (m.filter p) = true := by
  rw [memWf_iff] at *
  exact ⟨h.1.filter _, fun e he => h.2 e (List.mem_filter.mp he).1⟩

/-- Zeroing a range keeps the canonical form. -/
theorem memZero_wf (m : List Cell) (k n : Nat) (h : memWf m = true) : memWf (memZero m k n) = true :=
  filter_wf _ _ h

theorem mapGet_append {α : Type} (d : α) (l r : List (Nat × α)) (j : Nat) (h : ∀ e ∈ l, e.1 ≠ j) :
    mapGet d (l ++ r) j = mapGet d r j := by
  have : l.find? (fun e => e.1 == j) = none := by
    rw [List.find?_eq_none]; intro e he; simpa using h e he
  simp [mapGet, List.find?_append, this]

theorem mapGet_append_left {α : Type} (d : α) (l r : List (Nat × α)) (j : Nat) (h : ∀ e ∈ r, e.1 ≠ j) :
    mapGet d (l ++ r) j = mapGet d l j := by
  have : r.find? (fun e => e.1 == j) = none := by
    rw [List.find?_eq_none]; intro e he; simpa using h e he
  simp [mapGet, List.find?_append, this]

theorem mapGet_filter {α : Type} (d : α) (m : List (Nat × α)) (p : Nat × α → Bool) (j : Nat)
    (h : ∀ e : Nat × α, e.1 = j → p e = true) : mapGet d (m.filter p) j = mapGet d m j := by
  simp only [mapGet]
  rw [find?_filter_of_imp _ _ _ (by intro e he; exact h e (by simpa using he))]

/-- One byte after a write: the byte written inside the range, the old byte outside. -/
theorem memByte_memWrite (m : List Cell) (k : Nat) (bs : List Byte) (j : Nat) :
    memByte (memWrite m k bs) j = if k ≤ j ∧ j < k + bs.length then bs.getD (j - k) 0 else memByte m j := by
  unfold memByte memWrite
  by_cases h1 : j < k
  · rw [if_neg (by omega), List.append_assoc, mapGet_append_left, mapGet_filter]
    · intro e he; simp; omega
    · intro e he
      rcases List.mem_append.mp he with he | he
      · have := mem_memCells _ _ _ he; omega
      · have := (List.mem_filter.mp he).2; simp at this; omega
  · by_cases h2 : j < k + bs.length
    · rw [if_pos ⟨by omega, h2⟩, mapGet_append_left, mapGet_append, mapGet_memCells, if_pos (by omega)]
      · intro e he; have := (List.mem_filter.mp he).2; simp at this; omega
      · intro e he; have := (List.mem_filter.mp he).2; simp at this; omega
    · rw [if_neg (by omega), mapGet_append, mapGet_filter]
      · intro e he; simp; omega
      · intro e he
        rcases List.mem_append.mp he with he | he
        · have := (List.mem_filter.mp he).2; simp at this; omega
        · have := mem_memCells _ _ _ he; omega

/-- One byte after a range is zeroed. -/
theorem memByte_memZero (m : List Cell) (k n j : Nat) :
    memByte (memZero m k n) j = if k ≤ j ∧ j < k + n then 0 else memByte m j := by
  unfold memByte memZero
  by_cases h : k ≤ j ∧ j < k + n
  · rw [if_pos h]
    simp only [mapGet]
    rw [find?_filter_none]
    intro e he; simp at *; omega
  · rw [if_neg h, mapGet_filter]
    intro e he; simp; omega

/-- A read of a range is the bytes of the range. -/
theorem memRead_eq (m : List Cell) (k n : Nat) : memRead m k n = (List.range n).map (fun i => memByte m (k + i)) := by
  unfold memRead
  refine List.map_congr_left fun i hi => ?_
  have hi := List.mem_range.mp hi
  exact mapGet_filter _ _ _ _ (by intro e he; simp; omega)

/-- A read of exactly the range just written gives the bytes written. -/
theorem memRead_memWrite (m : List Cell) (k : Nat) (bs : List Byte) : memRead (memWrite m k bs) k bs.length = bs := by
  rw [memRead_eq]
  apply List.ext_getElem
  · simp
  · intro i h1 h2
    simp at h1
    simp [memByte_memWrite, h1]

/-- A read of a range apart from the range written is unchanged. -/
theorem memRead_memWrite_apart (m : List Cell) (k : Nat) (bs : List Byte) (j n : Nat)
    (h : j + n ≤ k ∨ k + bs.length ≤ j) : memRead (memWrite m k bs) j n = memRead m j n := by
  rw [memRead_eq, memRead_eq]
  refine List.map_congr_left fun i hi => ?_
  have hi := List.mem_range.mp hi
  rw [memByte_memWrite, if_neg (by omega)]

end Sys2Proof.Machine
end

