-- ==== Sys2Proof/Laws/KeepBase.lean ====
section
/-! SUPPORT. What the lemmas of `Laws/Keep*.lean` show of every operation: it leaves the queue of commands as it is, and it
keeps the canonical form of memory and flash. The rules by which they show it. -/

namespace Sys2Proof.Machine

/-- The queue of a state is `pend`, and its memory and flash are in canonical form. -/
def State.Ok (pend : List Instr) (s : State) : Prop :=
  s.pending = pend ∧ memWf s.mem = true ∧ memWf s.flash = true

variable {pend : List Instr}

theorem State.Ok.queue {s : State} (h : s.Ok pend) : s.pending = pend := h.1
theorem State.Ok.memWf {s : State} (h : s.Ok pend) : memWf s.mem = true := h.2.1
theorem State.Ok.flashWf {s : State} (h : s.Ok pend) : Machine.memWf s.flash = true := h.2.2

/-- The same of an answer that may be none. -/
def OptOk (pend : List Instr) : Option State → Prop
  | some s => s.Ok pend
  | none => True

def OptOk1 {α : Type} (pend : List Instr) : Option (State × α) → Prop
  | some r => r.1.Ok pend
  | none => True

theorem ok_mk (a1 a2 a3 a4 a5 a6 a7 a8 a9 a10 a11 a12 a13 a14 a15 a16 a17 a18 a19 a20 a21 a22 a23 a24 a25 a26 a27 a28 a29
    a30 a31 a32 a33 a34 a35 a36 a37) :
    (State.mk a1 a2 a3 a4 a5 a6 a7 a8 a9 a10 a11 a12 a13 a14 a15 a16 a17 a18 a19 a20 a21 a22 a23 a24 a25 a26 a27 a28 a29
      a30 a31 a32 a33 a34 a35 a36 a37).Ok pend ↔ a1 = pend ∧ memWf a8 = true ∧ memWf a31 = true := Iff.rfl

theorem foldl_keeps {α : Type} (f : State → α → State) (s : State) (l : List α)
    (hf : ∀ s x, s.Ok pend → (f s x).Ok pend) (h : s.Ok pend) : (l.foldl f s).Ok pend := by
  induction l generalizing s with
  | nil => exact h
  | cons x l ih => exact ih _ (hf _ _ h)

theorem foldl_keeps1 {α β : Type} (f : State × β → α → State × β) (r : State × β) (l : List α)
    (hf : ∀ r x, r.1.Ok pend → (f r x).1.Ok pend) (h : r.1.Ok pend) : (l.foldl f r).1.Ok pend := by
  induction l generalizing r with
  | nil => exact h
  | cons x l ih => exact ih _ (hf _ _ h)

theorem foldl_keeps2 {α β : Type} (f : β × State → α → β × State) (r : β × State) (l : List α)
    (hf : ∀ r x, r.2.Ok pend → (f r x).2.Ok pend) (h : r.2.Ok pend) : (l.foldl f r).2.Ok pend := by
  induction l generalizing r with
  | nil => exact h
  | cons x l ih => exact ih _ (hf _ _ h)

theorem ite_keeps {c : Prop} [Decidable c] {a b : State} (ha : a.Ok pend) (hb : b.Ok pend) : (if c then a else b).Ok pend := by
  split <;> assumption

theorem ite_keeps1 {α : Type} {c : Prop} [Decidable c] {a b : State × α} (ha : a.1.Ok pend) (hb : b.1.Ok pend) :
    (if c then a else b).1.Ok pend := by
  split <;> assumption

theorem optOk_none : OptOk pend none := trivial
theorem optOk_some {s : State} (h : s.Ok pend) : OptOk pend (some s) := h
theorem optOk1_none {α : Type} : OptOk1 pend (none : Option (State × α)) := trivial
theorem optOk1_some {α : Type} {s : State} {b : α} (h : s.Ok pend) : OptOk1 pend (some (s, b)) := h

theorem ite_optOk {c : Prop} [Decidable c] {a b : Option State} (ha : OptOk pend a) (hb : OptOk pend b) : OptOk pend (if c then a else b) := by
  split <;> assumption

theorem ite_optOk1 {α : Type} {c : Prop} [Decidable c] {a b : Option (State × α)} (ha : OptOk1 pend a) (hb : OptOk1 pend b) :
    OptOk1 pend (if c then a else b) := by
  split <;> assumption

theorem OptOk.of {o : Option State} {s : State} (he : o = some s) (h : OptOk pend o) : s.Ok pend := by
  subst he; exact h

theorem OptOk1.of {α : Type} {o : Option (State × α)} {s : State} {b : α} (he : o = some (s, b)) (h : OptOk1 pend o) : s.Ok pend := by
  subst he; exact h

theorem OptOk1.of' {α : Type} {o : Option (State × α)} {r : State × α} (he : o = some r) (h : OptOk1 pend o) : r.1.Ok pend := by
  subst he; exact h

theorem keeps_of_fst {α : Type} {r : State × α} {s : State} {b : α} (he : r = (s, b)) (h : r.1.Ok pend) : s.Ok pend := by
  subst he; exact h

theorem keeps_of_snd {α : Type} {r : α × State} {s : State} {b : α} (he : r = (b, s)) (h : r.2.Ok pend) : s.Ok pend := by
  subst he; exact h

theorem bind_optOk {α : Type} {o : Option (State × α)} {f : State × α → Option State} (ho : OptOk1 pend o)
    (hf : ∀ e, e.1.Ok pend → OptOk pend (f e)) : OptOk pend (o.bind f) := by
  cases o with
  | none => exact trivial
  | some e => exact hf e ho

theorem bind_optOk1 {α β : Type} {o : Option (State × α)} {f : State × α → Option (State × β)} (ho : OptOk1 pend o)
    (hf : ∀ e, e.1.Ok pend → OptOk1 pend (f e)) : OptOk1 pend (o.bind f) := by
  cases o with
  | none => exact trivial
  | some e => exact hf e ho

theorem bind_optOk1' {β : Type} {o : Option State} {f : State → Option (State × β)} (ho : OptOk pend o)
    (hf : ∀ e, e.Ok pend → OptOk1 pend (f e)) : OptOk1 pend (o.bind f) := by
  cases o with
  | none => exact trivial
  | some e => exact hf e ho

theorem bindAny_optOk1 {α β : Type} {o : Option α} {f : α → Option (State × β)} (hf : ∀ e, OptOk1 pend (f e)) : OptOk1 pend (o.bind f) := by
  cases o with
  | none => exact trivial
  | some e => exact hf e

theorem map_optOk1 {α β : Type} {o : Option α} {f : α → State × β} (hf : ∀ e, (f e).1.Ok pend) : OptOk1 pend (o.map f) := by
  cases o with
  | none => exact trivial
  | some e => exact hf e

theorem elim_optOk {α : Type} {o : Option α} {d : Option State} {f : α → Option State} (hd : OptOk pend d)
    (hf : ∀ e, OptOk pend (f e)) : OptOk pend (o.elim d f) := by
  cases o with
  | none => exact hd
  | some e => exact hf e

theorem elim_optOk1 {α β : Type} {o : Option α} {d : Option (State × β)} {f : α → Option (State × β)} (hd : OptOk1 pend d)
    (hf : ∀ e, OptOk1 pend (f e)) : OptOk1 pend (o.elim d f) := by
  cases o with
  | none => exact hd
  | some e => exact hf e

end Sys2Proof.Machine
end

