-- ==== Sys2Proof/Laws/KeepOps.lean ====
section
/-! SUPPORT. Every operation of `Machine/Ops.lean` leaves the queue and keeps the canonical form of memory
and flash (`State.Ok`). -/

namespace Sys2Proof.Machine

variable {pend : List Instr}

theorem State.putCodeWord_keeps (s : State) (a : Nat) (w : List Byte) (hs : s.Ok pend) :
    (State.putCodeWord s a w).Ok pend := by
  unfold State.putCodeWord
  try dsimp only
  repeat' first
    | with_reducible assumption | with_reducible apply memWrite_wf | with_reducible apply memZero_wf
    | with_reducible apply filter_wf | with_reducible exact memWf_nil
    | with_reducible apply State.Ok.memWf (pend := pend) | with_reducible apply State.Ok.queue
    | with_reducible apply State.Ok.flashWf (pend := pend) | (simp only [ok_mk]; refine ⟨?_, ?_, ?_⟩)

theorem State.putSector_keeps (s : State) (a : Nat) (d : List Byte) (hs : s.Ok pend) :
    (State.putSector s a d).Ok pend := by
  unfold State.putSector
  try dsimp only
  repeat' first | with_reducible assumption | with_reducible apply State.putCodeWord_keeps

theorem State.poisonSector_keeps (s : State) (a : Nat) (hs : s.Ok pend) :
    (State.poisonSector s a).Ok pend := by
  unfold State.poisonSector
  try dsimp only
  repeat' first | with_reducible assumption | with_reducible apply State.putCodeWord_keeps

theorem State.putBytes_keeps (s : State) (a : Nat) (d : List Byte) (hs : s.Ok pend) :
    (State.putBytes s a d).Ok pend := by
  unfold State.putBytes
  try dsimp only
  repeat' first
    | with_reducible assumption | (intro) | with_reducible apply State.putSector_keeps
    | with_reducible apply foldl_keeps

theorem State.zeroRange_keeps (s : State) (a n : Nat) (hs : s.Ok pend) :
    (State.zeroRange s a n).Ok pend := by
  unfold State.zeroRange
  try dsimp only
  repeat' first
    | with_reducible assumption | with_reducible apply memWrite_wf | with_reducible apply memZero_wf
    | with_reducible apply filter_wf | with_reducible exact memWf_nil
    | with_reducible apply State.Ok.memWf (pend := pend) | with_reducible apply State.Ok.queue
    | with_reducible apply State.Ok.flashWf (pend := pend) | (simp only [ok_mk]; refine ⟨?_, ?_, ?_⟩)

theorem State.free_keeps (s : State) (hs : s.Ok pend) :
    (State.free s).2.Ok pend := by
  unfold State.free
  try dsimp only
  repeat' first
    | with_reducible assumption | with_reducible apply State.Ok.memWf (pend := pend)
    | with_reducible apply State.Ok.queue | with_reducible apply State.Ok.flashWf (pend := pend)
    | (simp only [ok_mk]; refine ⟨?_, ?_, ?_⟩)

theorem State.freeBytes_keeps (s : State) (n : Nat) (hs : s.Ok pend) :
    (State.freeBytes s n).2.Ok pend := by
  unfold State.freeBytes
  try dsimp only
  repeat' first
    | with_reducible assumption | with_reducible apply State.Ok.memWf (pend := pend)
    | with_reducible apply State.Ok.queue | with_reducible apply State.Ok.flashWf (pend := pend)
    | (simp only [ok_mk]; refine ⟨?_, ?_, ?_⟩)

theorem State.put_keeps (s : State) (p : PageRef) (f : Field) (v : Nat) (hs : s.Ok pend) :
    (State.put s p f v).Ok pend := by
  unfold State.put
  try dsimp only
  repeat' first
    | with_reducible assumption | with_reducible apply State.Ok.memWf (pend := pend)
    | with_reducible apply State.Ok.queue | with_reducible apply State.Ok.flashWf (pend := pend)
    | (simp only [ok_mk]; refine ⟨?_, ?_, ?_⟩)

theorem State.putFlag_keeps (s : State) (p : PageRef) (f : Field) (b : Bool) (hs : s.Ok pend) :
    (State.putFlag s p f b).Ok pend := by
  unfold State.putFlag
  try dsimp only
  repeat' first | with_reducible assumption | with_reducible apply State.put_keeps

theorem State.count_keeps (s : State) (p : PageRef) (f : Field) (n : Nat) (hs : s.Ok pend) :
    (State.count s p f n).Ok pend := by
  unfold State.count
  try dsimp only
  repeat' first | with_reducible assumption | with_reducible apply State.put_keeps

theorem State.wrapCount_keeps (s : State) (p : PageRef) (f : Field) (n : Nat) (hs : s.Ok pend) :
    (State.wrapCount s p f n).Ok pend := by
  unfold State.wrapCount
  try dsimp only
  repeat' first | with_reducible assumption | with_reducible apply State.put_keeps

theorem State.clearPage_keeps (s : State) (p : PageRef) (hs : s.Ok pend) :
    (State.clearPage s p).Ok pend := by
  unfold State.clearPage
  try dsimp only
  repeat' first
    | with_reducible assumption | with_reducible apply State.Ok.memWf (pend := pend)
    | with_reducible apply State.Ok.queue | with_reducible apply State.Ok.flashWf (pend := pend)
    | (simp only [ok_mk]; refine ⟨?_, ?_, ?_⟩)

theorem State.setTile_keeps (s : State) (t : Nat) (u : Tile) (hs : s.Ok pend) :
    (State.setTile s t u).Ok pend := by
  unfold State.setTile
  try dsimp only
  repeat' first
    | with_reducible assumption | with_reducible apply State.Ok.memWf (pend := pend)
    | with_reducible apply State.Ok.queue | with_reducible apply State.Ok.flashWf (pend := pend)
    | (simp only [ok_mk]; refine ⟨?_, ?_, ?_⟩)

theorem State.modTile_keeps (s : State) (t : Nat) (f : Tile → Tile) (hs : s.Ok pend) :
    (State.modTile s t f).Ok pend := by
  unfold State.modTile
  try dsimp only
  repeat' first | with_reducible assumption | with_reducible apply State.setTile_keeps

theorem State.logEnter_keeps (s : State) (r : LogRec) (hs : s.Ok pend) :
    (State.logEnter s r).Ok pend := by
  unfold State.logEnter
  try dsimp only
  repeat' first
    | with_reducible assumption | with_reducible apply State.put_keeps | with_reducible apply State.count_keeps
    | with_reducible apply State.Ok.memWf (pend := pend) | with_reducible apply State.Ok.queue
    | with_reducible apply State.Ok.flashWf (pend := pend) | with_reducible apply ite_keeps | split
    | (simp only [ok_mk]; refine ⟨?_, ?_, ?_⟩)

theorem State.logRecord_keeps (s : State) (slot : Nat) (r : LogRec) (hs : s.Ok pend) :
    (State.logRecord s slot r).Ok pend := by
  unfold State.logRecord
  try dsimp only
  repeat' first
    | with_reducible assumption | with_reducible apply State.logEnter_keeps
    | with_reducible apply State.Ok.memWf (pend := pend) | with_reducible apply State.Ok.queue
    | with_reducible apply State.Ok.flashWf (pend := pend) | with_reducible apply ite_keeps | split
    | (simp only [ok_mk]; refine ⟨?_, ?_, ?_⟩)

theorem State.report_keeps (s : State) (p : PageRef) (k : ErrKind) (code syn addr src : Nat) (hs : s.Ok pend) :
    (State.report s p k code syn addr src).Ok pend := by
  unfold State.report
  try dsimp only
  repeat' first
    | with_reducible assumption | with_reducible apply State.put_keeps | with_reducible apply State.count_keeps
    | with_reducible apply State.logRecord_keeps | with_reducible apply ite_keeps

theorem State.reportSector_keeps (s : State) (p : PageRef) (st : SectorState) (a src : Nat) (hs : s.Ok pend) :
    (State.reportSector s p st a src).Ok pend := by
  unfold State.reportSector
  try dsimp only
  repeat' first
    | with_reducible assumption | with_reducible apply State.put_keeps | with_reducible apply ite_optOk
    | with_reducible apply ite_optOk1 | with_reducible apply State.report_keeps | with_reducible apply ite_keeps
    | split

theorem State.reportAll_keeps (s : State) (page : Nat → PageRef) (src : Nat) (l : List Nat) (hs : s.Ok pend) :
    (State.reportAll s page src l).Ok pend := by
  unfold State.reportAll
  try dsimp only
  repeat' first
    | with_reducible assumption | (intro) | with_reducible apply State.reportSector_keeps
    | with_reducible apply State.Ok.memWf (pend := pend) | with_reducible apply State.Ok.queue
    | with_reducible apply State.Ok.flashWf (pend := pend) | with_reducible apply foldl_keeps

theorem State.ackFirst_keeps (s : State) (p : PageRef) (hs : s.Ok pend) :
    (State.ackFirst s p).Ok pend := by
  unfold State.ackFirst
  try dsimp only
  repeat' first
    | with_reducible assumption | with_reducible apply State.put_keeps | with_reducible apply ite_optOk
    | with_reducible apply ite_optOk1 | split

theorem State.idleTick_keeps (s : State) (hs : s.Ok pend) :
    (State.idleTick s).Ok pend := by
  unfold State.idleTick
  try dsimp only
  repeat' first
    | with_reducible assumption | with_reducible apply State.Ok.memWf (pend := pend)
    | with_reducible apply State.Ok.queue | with_reducible apply State.Ok.flashWf (pend := pend)
    | (simp only [ok_mk]; refine ⟨?_, ?_, ?_⟩)

theorem State.emit_keeps (s : State) (m : OutMsg) (hs : s.Ok pend) :
    (State.emit s m).Ok pend := by
  unfold State.emit
  try dsimp only
  repeat' first
    | with_reducible assumption | with_reducible apply State.Ok.memWf (pend := pend)
    | with_reducible apply State.Ok.queue | with_reducible apply State.Ok.flashWf (pend := pend)
    | (simp only [ok_mk]; refine ⟨?_, ?_, ?_⟩)

theorem State.requestReset_keeps (s : State) (cause : Nat) (hs : s.Ok pend) :
    (State.requestReset s cause).Ok pend := by
  unfold State.requestReset
  try dsimp only
  repeat' first
    | with_reducible assumption | with_reducible apply State.put_keeps | with_reducible apply State.putFlag_keeps
    | with_reducible apply State.report_keeps | with_reducible apply State.emit_keeps | with_reducible apply ite_keeps

theorem State.meetCopy_keeps (s : State) (e : B0Item × Bool) (hs : s.Ok pend) : (State.meetCopy s e).Ok pend := by
  unfold State.meetCopy State.free
  try dsimp only
  repeat' first
    | with_reducible assumption | with_reducible apply State.requestReset_keeps
    | with_reducible apply State.report_keeps | with_reducible apply State.Ok.memWf (pend := pend)
    | with_reducible apply State.Ok.queue | with_reducible apply State.Ok.flashWf (pend := pend)
    | with_reducible apply ite_keeps | split | (simp only [ok_mk]; refine ⟨?_, ?_, ?_⟩)

theorem State.meetCopies_keeps (s : State) (uses : B0Item → Bool) (hs : s.Ok pend) :
    (State.meetCopies s uses).Ok pend := by
  unfold State.meetCopies
  exact foldl_keeps _ _ _ (fun t e ht => State.meetCopy_keeps t e ht) hs

/-- With no copy damaged, a step goes on as it is. -/
@[simp] theorem State.meetCopies_nil {s : State} (h : s.boot.damaged = []) (uses : B0Item → Bool) :
    s.meetCopies uses = s := by simp [State.meetCopies, h]

end Sys2Proof.Machine
end

