-- ==== Sys2Proof/Laws/KeepTileOps.lean ====
section
/-! SUPPORT. Every operation of `Machine/TileOps.lean` leaves the queue and keeps the canonical form of memory
and flash (`State.Ok`). -/

namespace Sys2Proof.Machine

variable {pend : List Instr}

theorem State.trap_keeps (s : State) (t cause : Nat) (mtval : Word) (hs : s.Ok pend) :
    (State.trap s t cause mtval).Ok pend := by
  unfold State.trap
  try dsimp only
  repeat' first
    | with_reducible assumption | with_reducible apply State.put_keeps | with_reducible apply State.setTile_keeps
    | with_reducible apply State.modTile_keeps | with_reducible apply State.report_keeps
    | with_reducible apply State.Ok.memWf (pend := pend) | with_reducible apply State.Ok.queue
    | with_reducible apply State.Ok.flashWf (pend := pend) | with_reducible apply ite_keeps

theorem State.zeroLoad_keeps (s : State) (t : Nat) (tr : Word) (hs : s.Ok pend) :
    (State.zeroLoad s t tr).Ok pend := by
  unfold State.zeroLoad
  try dsimp only
  repeat' first
    | with_reducible assumption | with_reducible apply State.count_keeps | with_reducible apply State.modTile_keeps
    | with_reducible apply State.report_keeps | with_reducible apply State.Ok.memWf (pend := pend)
    | with_reducible apply State.Ok.queue | with_reducible apply State.Ok.flashWf (pend := pend)
    | with_reducible apply ite_keeps

theorem State.readSectors_keeps (s : State) (page : Nat → PageRef) (src a n : Nat) (hs : s.Ok pend) :
    (State.readSectors s page src a n).1.Ok pend := by
  unfold State.readSectors
  try dsimp only
  repeat' first
    | with_reducible assumption | (intro) | with_reducible apply State.reportAll_keeps

theorem State.zeroLoads_keeps (s : State) (t : Nat) (tr : Word) (a n : Nat) (hs : s.Ok pend) :
    (State.zeroLoads s t tr a n).Ok pend := by
  unfold State.zeroLoads
  try dsimp only
  repeat' first
    | with_reducible assumption | (intro) | with_reducible apply State.zeroLoad_keeps
    | with_reducible apply State.Ok.memWf (pend := pend) | with_reducible apply State.Ok.queue
    | with_reducible apply State.Ok.flashWf (pend := pend) | with_reducible apply foldl_keeps

theorem State.tileLoad_keeps (s : State) (t o n : Nat) (hs : s.Ok pend) :
    (State.tileLoad s t o n).1.Ok pend := by
  unfold State.tileLoad
  try dsimp only
  repeat' first
    | with_reducible assumption | (intro) | with_reducible apply State.modTile_keeps
    | with_reducible apply State.readSectors_keeps | with_reducible apply State.zeroLoads_keeps
    | with_reducible apply State.Ok.memWf (pend := pend) | with_reducible apply State.Ok.queue
    | with_reducible apply State.Ok.flashWf (pend := pend) | with_reducible apply ite_keeps

theorem State.tileStore_keeps (s : State) (t o : Nat) (d : List Byte) (hs : s.Ok pend) :
    (State.tileStore s t o d).Ok pend := by
  unfold State.tileStore
  try dsimp only
  repeat' first | with_reducible assumption | with_reducible apply State.putBytes_keeps

theorem State.whenIssues_keeps (s : State) (t : Nat) (f : State → State) (hs : s.Ok pend) (hf : (f s).Ok pend) :
    (s.whenIssues t f).Ok pend := by
  unfold State.whenIssues
  split <;> assumption

end Sys2Proof.Machine
end

