-- ==== Sys2Proof/Laws/KeepArray.lean ====
section
/-! SUPPORT. Every operation of `Machine/Array.lean` leaves the queue and keeps the canonical form of memory
and flash (`State.Ok`). -/

namespace Sys2Proof.Machine

variable {pend : List Instr}

theorem State.setArr_keeps (s : State) (t st groups : Nat) (hs : s.Ok pend) :
    (State.setArr s t st groups).Ok pend := by
  unfold State.setArr
  try dsimp only
  repeat' first | with_reducible assumption | with_reducible apply State.put_keeps

theorem State.beginUp_keeps (s : State) (t : Nat) (hs : s.Ok pend) :
    (State.beginUp s t).Ok pend := by
  unfold State.beginUp
  try dsimp only
  repeat' first
    | with_reducible assumption | with_reducible apply State.modTile_keeps | with_reducible apply State.setArr_keeps

theorem State.beginDown_keeps (s : State) (t : Nat) (hs : s.Ok pend) :
    (State.beginDown s t).Ok pend := by
  unfold State.beginDown
  try dsimp only
  repeat' first
    | with_reducible assumption | with_reducible apply State.modTile_keeps | with_reducible apply State.setArr_keeps

theorem State.reverseUp_keeps (s : State) (t : Nat) (hs : s.Ok pend) :
    (State.reverseUp s t).Ok pend := by
  unfold State.reverseUp
  try dsimp only
  repeat' first
    | with_reducible assumption | with_reducible apply State.modTile_keeps | with_reducible apply State.setArr_keeps

theorem State.reverseDown_keeps (s : State) (t : Nat) (hs : s.Ok pend) :
    (State.reverseDown s t).Ok pend := by
  unfold State.reverseDown
  try dsimp only
  repeat' first
    | with_reducible assumption | with_reducible apply State.modTile_keeps | with_reducible apply State.setArr_keeps

theorem State.rampForOp_keeps (s : State) (t : Nat) (hs : s.Ok pend) :
    (State.rampForOp s t).Ok pend := by
  unfold State.rampForOp
  try dsimp only
  repeat' first
    | with_reducible assumption | with_reducible apply State.beginUp_keeps
    | with_reducible apply State.reverseUp_keeps | with_reducible apply ite_keeps

theorem State.warm_keeps (s : State) (t : Nat) (hs : s.Ok pend) :
    (State.warm s t).Ok pend := by
  unfold State.warm
  try dsimp only
  repeat' first
    | with_reducible assumption | with_reducible apply State.modTile_keeps | with_reducible apply State.beginUp_keeps
    | with_reducible apply State.reverseUp_keeps | with_reducible apply State.Ok.memWf (pend := pend)
    | with_reducible apply State.Ok.queue | with_reducible apply State.Ok.flashWf (pend := pend)
    | with_reducible apply ite_keeps

theorem State.coolDown_keeps (s : State) (t : Nat) (hs : s.Ok pend) :
    (State.coolDown s t).Ok pend := by
  unfold State.coolDown
  try dsimp only
  repeat' first
    | with_reducible assumption | with_reducible apply State.modTile_keeps
    | with_reducible apply State.beginDown_keeps | with_reducible apply State.reverseDown_keeps
    | with_reducible apply State.Ok.memWf (pend := pend) | with_reducible apply State.Ok.queue
    | with_reducible apply State.Ok.flashWf (pend := pend) | with_reducible apply ite_keeps

theorem State.rampStep_keeps (s : State) (t : Nat) (hs : s.Ok pend) :
    (State.rampStep s t).Ok pend := by
  unfold State.rampStep
  try dsimp only
  repeat' first
    | with_reducible assumption | with_reducible apply State.modTile_keeps | with_reducible apply State.setArr_keeps
    | with_reducible apply State.Ok.memWf (pend := pend) | with_reducible apply State.Ok.queue
    | with_reducible apply State.Ok.flashWf (pend := pend) | with_reducible apply ite_keeps

theorem State.arrIssue_keeps (s : State) (t : Nat) (u : Tile) (o : ArrOp) (comb : ArrCombine) (lane : List Int → List Int → List FV → List FV → Partial) (hs : s.Ok pend) :
    (State.arrIssue s t u o comb lane).Ok pend := by
  unfold State.arrIssue
  try dsimp only
  repeat' first
    | with_reducible assumption | with_reducible apply State.modTile_keeps | with_reducible apply State.tileLoad_keeps
    | with_reducible apply State.Ok.memWf (pend := pend) | with_reducible apply State.Ok.queue
    | with_reducible apply State.Ok.flashWf (pend := pend) | with_reducible apply ite_keeps
    | with_reducible apply ite_keeps1

theorem State.amacIssue_keeps (s : State) (t : Nat) (u : Tile) (o : ArrOp) (hs : s.Ok pend) :
    (State.amacIssue s t u o).Ok pend := by
  unfold State.amacIssue
  try dsimp only
  repeat' first | with_reducible assumption | with_reducible apply State.arrIssue_keeps

theorem State.adistIssue_keeps (s : State) (t : Nat) (u : Tile) (o : ArrOp) (hs : s.Ok pend) :
    (State.adistIssue s t u o).Ok pend := by
  unfold State.adistIssue
  try dsimp only
  repeat' first | with_reducible assumption | with_reducible apply State.arrIssue_keeps

theorem State.apldIssue_keeps (s : State) (t : Nat) (u : Tile) (o : PlaneOp) (hs : s.Ok pend) :
    (State.apldIssue s t u o).Ok pend := by
  unfold State.apldIssue
  try dsimp only
  repeat' first
    | with_reducible assumption | with_reducible apply State.modTile_keeps | with_reducible apply State.tileLoad_keeps
    | with_reducible apply State.Ok.memWf (pend := pend) | with_reducible apply State.Ok.queue
    | with_reducible apply State.Ok.flashWf (pend := pend) | with_reducible apply ite_keeps
    | with_reducible apply ite_keeps1

end Sys2Proof.Machine
end

