-- ==== Sys2Proof/Laws/KeepTopK.lean ====
section
/-! SUPPORT. Every operation of `Machine/TopK.lean` leaves the queue and keeps the canonical form of memory
and flash (`State.Ok`). -/

namespace Sys2Proof.Machine

variable {pend : List Instr}

theorem State.tkMerge_keeps (s : State) (t : Nat) (u : Tile) (o : VecOp) (hs : s.Ok pend) :
    (State.tkMerge s t u o).Ok pend := by
  unfold State.tkMerge
  try dsimp only
  repeat' first
    | with_reducible assumption | with_reducible apply State.modTile_keeps | with_reducible apply State.tileLoad_keeps

theorem State.tkRead_keeps (s : State) (t : Nat) (u : Tile) (o : VecOp) (hs : s.Ok pend) :
    (State.tkRead s t u o).Ok pend := by
  unfold State.tkRead
  try dsimp only
  repeat' first | with_reducible assumption | with_reducible apply State.tileStore_keeps

theorem State.tkSwap_keeps (s : State) (t : Nat) (u : Tile) (o : VecOp) (hs : s.Ok pend) :
    (State.tkSwap s t u o).Ok pend := by
  unfold State.tkSwap
  try dsimp only
  repeat' first
    | with_reducible assumption | with_reducible apply State.modTile_keeps | with_reducible apply State.tileLoad_keeps
    | with_reducible apply State.tileStore_keeps

theorem State.vecApply_keeps (s : State) (t : Nat) (u : Tile) (vop : Nat) (o : VecOp) (hs : s.Ok pend) :
    (State.vecApply s t u vop o).Ok pend := by
  unfold State.vecApply
  try dsimp only
  repeat' first
    | with_reducible assumption | with_reducible apply State.modTile_keeps | with_reducible apply State.tkMerge_keeps
    | with_reducible apply State.tkRead_keeps | with_reducible apply State.tkSwap_keeps
    | with_reducible apply State.Ok.memWf (pend := pend) | with_reducible apply State.Ok.queue
    | with_reducible apply State.Ok.flashWf (pend := pend) | with_reducible apply ite_keeps | split
    | (simp only [ok_mk]; refine ⟨?_, ?_, ?_⟩)

end Sys2Proof.Machine
end

