-- ==== Sys2Proof/Laws/KeepMemMap.lean ====
section
/-! SUPPORT. Every operation of `Machine/MemMap.lean` leaves the queue and keeps the canonical form of memory
and flash (`State.Ok`). -/

namespace Sys2Proof.Machine

variable {pend : List Instr}

theorem State.setDom_keeps (s : State) (d : Domain) (v : Nat) (hs : s.Ok pend) :
    (State.setDom s d v).Ok pend := by
  unfold State.setDom
  try dsimp only
  repeat' first | with_reducible assumption | with_reducible apply State.put_keeps

theorem State.downDrop_keeps (s : State) (a n : Nat) (hs : s.Ok pend) :
    (State.downDrop s a n).Ok pend := by
  unfold State.downDrop
  try dsimp only
  repeat' first
    | with_reducible assumption | (intro) | with_reducible apply State.count_keeps | with_reducible apply foldl_keeps
    | with_reducible apply ite_keeps

theorem State.readMem_keeps (s : State) (src a n : Nat) (hs : s.Ok pend) :
    (State.readMem s src a n).1.Ok pend := by
  unfold State.readMem
  try dsimp only
  repeat' first | with_reducible assumption | with_reducible apply State.readSectors_keeps

end Sys2Proof.Machine
end

