-- ==== Sys2Proof/Laws/KeepCalendars.lean ====
section
/-! SUPPORT. Every operation of `Machine/Calendars.lean` leaves the queue and keeps the canonical form of memory
and flash (`State.Ok`). -/

namespace Sys2Proof.Machine

variable {pend : List Instr}

theorem State.setRes_keeps (s : State) (id : Nat) (r : Res) (hs : s.Ok pend) :
    (State.setRes s id r).Ok pend := by
  unfold State.setRes
  try dsimp only
  repeat' first
    | with_reducible assumption | with_reducible apply State.Ok.memWf (pend := pend)
    | with_reducible apply State.Ok.queue | with_reducible apply State.Ok.flashWf (pend := pend)
    | (simp only [ok_mk]; refine ⟨?_, ?_, ?_⟩)

theorem State.deviceRead_keeps (s : State) (a n : Nat) (hs : s.Ok pend) :
    (State.deviceRead s a n).1.Ok pend := by
  unfold State.deviceRead
  try dsimp only
  repeat' first
    | with_reducible assumption | with_reducible apply State.readMem_keeps | with_reducible apply ite_optOk
    | with_reducible apply ite_optOk1 | with_reducible apply ite_keeps | with_reducible apply ite_keeps1

theorem State.readBlocks_keeps (a n : Nat) (s : State) (off : Nat) (acc : List CalBlock) (hs : s.Ok pend) :
    (State.readBlocks a n s off acc).1.Ok pend := by
  induction n generalizing s off acc with
  | zero => exact hs
  | succ n ih =>
    unfold State.readBlocks
    dsimp only
    repeat' first
      | with_reducible assumption | with_reducible apply ih | with_reducible apply State.deviceRead_keeps | split

theorem State.readSet_keeps (s : State) (arb a : Nat) (hs : s.Ok pend) :
    (State.readSet s arb a).1.Ok pend := by
  unfold State.readSet
  try dsimp only
  repeat' first
    | with_reducible assumption | (intro) | with_reducible apply ite_optOk | with_reducible apply ite_optOk1
    | with_reducible apply State.deviceRead_keeps | with_reducible apply State.readBlocks_keeps
    | with_reducible apply foldl_keeps | with_reducible apply foldl_keeps1 | with_reducible apply foldl_keeps2
    | with_reducible apply ite_keeps | with_reducible apply ite_keeps1 | split

theorem State.setArb_keeps (s : State) (a : Nat) (x : Arb) (hs : s.Ok pend) :
    (State.setArb s a x).Ok pend := by
  unfold State.setArb
  try dsimp only
  repeat' first
    | with_reducible assumption | with_reducible apply State.Ok.memWf (pend := pend)
    | with_reducible apply State.Ok.queue | with_reducible apply State.Ok.flashWf (pend := pend)
    | (simp only [ok_mk]; refine ⟨?_, ?_, ?_⟩)

theorem State.calLoad_keeps (s : State) (a : Nat) (hs : s.Ok pend) :
    (State.calLoad s a).Ok pend := by
  unfold State.calLoad
  try dsimp only
  repeat' first
    | with_reducible assumption | with_reducible apply State.putFlag_keeps | with_reducible apply ite_optOk
    | with_reducible apply ite_optOk1 | with_reducible apply State.setArb_keeps
    | with_reducible apply State.Ok.memWf (pend := pend) | with_reducible apply State.Ok.queue
    | with_reducible apply State.Ok.flashWf (pend := pend) | with_reducible apply ite_keeps

theorem State.calLoadDone_keeps (s : State) (a : Nat) (hs : s.Ok pend) :
    (State.calLoadDone s a).Ok pend := by
  unfold State.calLoadDone
  try dsimp only
  repeat' first
    | with_reducible assumption | with_reducible apply State.put_keeps | with_reducible apply ite_optOk
    | with_reducible apply ite_optOk1 | with_reducible apply State.putFlag_keeps
    | with_reducible apply State.readSet_keeps | with_reducible apply State.setArb_keeps
    | with_reducible apply State.Ok.memWf (pend := pend) | with_reducible apply State.Ok.queue
    | with_reducible apply State.Ok.flashWf (pend := pend) | with_reducible apply ite_keeps
    | with_reducible apply ite_keeps1 | split

theorem State.switchEnd_keeps (s : State) (a : Nat) (hs : s.Ok pend) :
    (State.switchEnd s a).Ok pend := by
  unfold State.switchEnd
  try dsimp only
  repeat' first
    | with_reducible assumption | with_reducible apply State.put_keeps | with_reducible apply ite_optOk
    | with_reducible apply ite_optOk1 | with_reducible apply State.putFlag_keeps
    | with_reducible apply State.setArb_keeps

theorem State.calSwitch_keeps (s : State) (a : Nat) (hs : s.Ok pend) :
    (State.calSwitch s a).Ok pend := by
  unfold State.calSwitch
  try dsimp only
  repeat' first
    | with_reducible assumption | (intro) | with_reducible apply ite_optOk | with_reducible apply ite_optOk1
    | with_reducible apply State.putFlag_keeps | with_reducible apply State.setRes_keeps
    | with_reducible apply State.setArb_keeps | with_reducible apply State.switchEnd_keeps
    | with_reducible apply foldl_keeps | with_reducible apply foldl_keeps2
    | with_reducible apply State.Ok.memWf (pend := pend) | with_reducible apply State.Ok.queue
    | with_reducible apply State.Ok.flashWf (pend := pend) | with_reducible apply ite_keeps
    | with_reducible apply ite_keeps1 | split

theorem State.switchedOne_keeps (s : State) (a id : Nat) (hs : s.Ok pend) :
    (State.switchedOne s a id).Ok pend := by
  unfold State.switchedOne
  try dsimp only
  repeat' first
    | with_reducible assumption | (intro) | with_reducible apply State.setArb_keeps
    | with_reducible apply State.switchEnd_keeps | with_reducible apply State.Ok.memWf (pend := pend)
    | with_reducible apply State.Ok.queue | with_reducible apply State.Ok.flashWf (pend := pend)
    | with_reducible apply ite_keeps

theorem State.resetArb_keeps (s : State) (a : Nat) (hs : s.Ok pend) :
    (State.resetArb s a).Ok pend := by
  unfold State.resetArb
  try dsimp only
  repeat' first
    | with_reducible assumption | with_reducible apply State.Ok.memWf (pend := pend)
    | with_reducible apply State.Ok.queue | with_reducible apply State.Ok.flashWf (pend := pend)
    | with_reducible apply ite_keeps | with_reducible apply ite_keeps1 | split
    | (simp only [ok_mk]; refine ⟨?_, ?_, ?_⟩)

end Sys2Proof.Machine
end

