-- ==== Sys2Proof/Laws/KeepJodar.lean ====
section
/-! SUPPORT. Every operation of `Machine/Jodar.lean` leaves the queue and keeps the canonical form of memory
and flash (`State.Ok`). -/

namespace Sys2Proof.Machine

variable {pend : List Instr}

theorem State.setPortState_keeps (s : State) (i v : Nat) (hs : s.Ok pend) :
    (State.setPortState s i v).Ok pend := by
  unfold State.setPortState
  try dsimp only
  repeat' first | with_reducible assumption | with_reducible apply State.put_keeps

theorem State.setPortVer_keeps (s : State) (i v : Nat) (hs : s.Ok pend) :
    (State.setPortVer s i v).Ok pend := by
  unfold State.setPortVer
  try dsimp only
  repeat' first | with_reducible assumption | with_reducible apply State.put_keeps

theorem State.setPort_keeps (s : State) (i : Nat) (p : Port) (hs : s.Ok pend) :
    (State.setPort s i p).Ok pend := by
  unfold State.setPort
  try dsimp only
  repeat' first
    | with_reducible assumption | with_reducible apply State.Ok.memWf (pend := pend)
    | with_reducible apply State.Ok.queue | with_reducible apply State.Ok.flashWf (pend := pend)
    | (simp only [ok_mk]; refine ⟨?_, ?_, ?_⟩)

theorem State.sendJodar_keeps (s : State) (i : Nat) (f : List Byte) (hs : s.Ok pend) :
    (State.sendJodar s i f).Ok pend := by
  unfold State.sendJodar
  try dsimp only
  repeat' first
    | with_reducible assumption | (intro) | with_reducible apply State.emit_keeps
    | with_reducible apply State.setPort_keeps | with_reducible apply State.Ok.memWf (pend := pend)
    | with_reducible apply State.Ok.queue | with_reducible apply State.Ok.flashWf (pend := pend)
    | with_reducible apply ite_keeps

theorem State.sendFrame_keeps (s : State) (i : Nat) (hs : s.Ok pend) :
    (State.sendFrame s i).Ok pend := by
  unfold State.sendFrame
  try dsimp only
  repeat' first
    | with_reducible assumption | (intro) | with_reducible apply State.sendJodar_keeps
    | with_reducible apply State.setPort_keeps | with_reducible apply State.Ok.memWf (pend := pend)
    | with_reducible apply State.Ok.queue | with_reducible apply State.Ok.flashWf (pend := pend)
    | with_reducible apply ite_keeps

theorem State.pump_keeps (s : State) (i : Nat) (hs : s.Ok pend) :
    (State.pump s i).Ok pend := by
  unfold State.pump
  try dsimp only
  repeat' first
    | with_reducible assumption | (intro) | with_reducible apply State.sendFrame_keeps
    | with_reducible apply foldl_keeps

theorem State.resend_keeps (s : State) (i : Nat) (hs : s.Ok pend) :
    (State.resend s i).Ok pend := by
  unfold State.resend
  try dsimp only
  repeat' first
    | with_reducible assumption | (intro) | with_reducible apply State.count_keeps
    | with_reducible apply State.sendJodar_keeps | with_reducible apply State.Ok.memWf (pend := pend)
    | with_reducible apply State.Ok.queue | with_reducible apply State.Ok.flashWf (pend := pend)
    | with_reducible apply foldl_keeps

theorem State.leavingWords_keeps (s : State) (i n : Nat) (lost : Bool) (hs : s.Ok pend) :
    (State.leavingWords s i n lost).Ok pend := by
  unfold State.leavingWords
  try dsimp only
  repeat' first
    | with_reducible assumption | with_reducible apply State.Ok.memWf (pend := pend) | with_reducible apply ite_optOk
    | with_reducible apply ite_optOk1 | with_reducible apply State.Ok.queue
    | with_reducible apply State.Ok.flashWf (pend := pend) | with_reducible apply ite_keeps
    | with_reducible apply ite_keeps1 | split | (simp only [ok_mk]; refine ⟨?_, ?_, ?_⟩)

theorem State.ackFrames_keeps (s : State) (i ack : Nat) (hs : s.Ok pend) :
    (State.ackFrames s i ack).Ok pend := by
  unfold State.ackFrames
  try dsimp only
  repeat' first
    | with_reducible assumption | with_reducible apply State.setPort_keeps | with_reducible apply ite_optOk
    | with_reducible apply ite_optOk1 | with_reducible apply State.leavingWords_keeps
    | with_reducible apply State.Ok.memWf (pend := pend) | with_reducible apply State.Ok.queue
    | with_reducible apply State.Ok.flashWf (pend := pend) | split

theorem State.discardReplay_keeps (s : State) (i : Nat) (hs : s.Ok pend) :
    (State.discardReplay s i).Ok pend := by
  unfold State.discardReplay
  try dsimp only
  repeat' first
    | with_reducible assumption | (intro) | with_reducible apply State.count_keeps
    | with_reducible apply State.report_keeps | with_reducible apply State.setPort_keeps
    | with_reducible apply State.leavingWords_keeps | with_reducible apply foldl_keeps
    | with_reducible apply State.Ok.memWf (pend := pend) | with_reducible apply State.Ok.queue
    | with_reducible apply State.Ok.flashWf (pend := pend) | with_reducible apply ite_keeps | split

theorem State.countDown_keeps (s : State) (i : Nat) (hs : s.Ok pend) :
    (State.countDown s i).Ok pend := by
  unfold State.countDown
  try dsimp only
  repeat' first | with_reducible assumption | with_reducible apply State.count_keeps | with_reducible apply ite_keeps

theorem State.unlockPort_keeps (s : State) (i : Nat) (hs : s.Ok pend) :
    (State.unlockPort s i).Ok pend := by
  unfold State.unlockPort
  try dsimp only
  repeat' first
    | with_reducible assumption | with_reducible apply State.setPortVer_keeps
    | with_reducible apply State.setPort_keeps

theorem State.retrainPort_keeps (s : State) (i : Nat) (hs : s.Ok pend) :
    (State.retrainPort s i).Ok pend := by
  unfold State.retrainPort
  try dsimp only
  repeat' first
    | with_reducible assumption | with_reducible apply State.count_keeps
    | with_reducible apply State.setPortState_keeps | with_reducible apply State.countDown_keeps
    | with_reducible apply State.unlockPort_keeps | with_reducible apply ite_keeps

theorem State.setWidth_keeps (s : State) (i w : Nat) (hs : s.Ok pend) :
    (State.setWidth s i w).Ok pend := by
  unfold State.setWidth
  try dsimp only
  repeat' first
    | with_reducible assumption | with_reducible apply State.put_keeps | with_reducible apply State.putFlag_keeps
    | with_reducible apply ite_keeps

theorem State.disablePort_keeps (s : State) (i : Nat) (hs : s.Ok pend) :
    (State.disablePort s i).Ok pend := by
  unfold State.disablePort
  try dsimp only
  repeat' first
    | with_reducible assumption | with_reducible apply State.setPortState_keeps
    | with_reducible apply State.discardReplay_keeps | with_reducible apply State.countDown_keeps
    | with_reducible apply State.unlockPort_keeps | with_reducible apply State.setWidth_keeps

theorem State.enablePort_keeps (s : State) (i : Nat) (hs : s.Ok pend) :
    (State.enablePort s i).Ok pend := by
  unfold State.enablePort
  try dsimp only
  repeat' first
    | with_reducible assumption | with_reducible apply State.setPortState_keeps | with_reducible apply ite_keeps

theorem State.wakePort_keeps (s : State) (i : Nat) (hs : s.Ok pend) :
    (State.wakePort s i).Ok pend := by
  unfold State.wakePort
  try dsimp only
  repeat' first
    | with_reducible assumption | (intro) | with_reducible apply State.pump_keeps
    | with_reducible apply State.setPort_keeps | with_reducible apply State.setPortState_keeps
    | with_reducible apply State.Ok.memWf (pend := pend) | with_reducible apply State.Ok.queue
    | with_reducible apply State.Ok.flashWf (pend := pend) | with_reducible apply ite_keeps

theorem State.portSense_keeps (s : State) (i : Nat) (hs : s.Ok pend) :
    (State.portSense s i).Ok pend := by
  unfold State.portSense
  try dsimp only
  repeat' first
    | with_reducible assumption | (intro) | with_reducible apply State.setPort_keeps
    | with_reducible apply State.Ok.memWf (pend := pend) | with_reducible apply State.Ok.queue
    | with_reducible apply State.Ok.flashWf (pend := pend) | with_reducible apply ite_keeps

theorem State.queuePacket_keeps (s : State) (i : Nat) (words : List (List Byte)) (hs : s.Ok pend) :
    (State.queuePacket s i words).Ok pend := by
  unfold State.queuePacket
  try dsimp only
  repeat' first
    | with_reducible assumption | with_reducible apply State.setPort_keeps | with_reducible apply State.pump_keeps

theorem State.sendFabric_keeps (s : State) (i : Nat) (words : List (List Byte)) (hs : s.Ok pend) :
    (State.sendFabric s i words).Ok pend := by
  unfold State.sendFabric
  try dsimp only
  repeat' first
    | with_reducible assumption | with_reducible apply State.count_keeps
    | with_reducible apply State.queuePacket_keeps | with_reducible apply ite_keeps

end Sys2Proof.Machine
end

