-- ==== Sys2Proof/Laws/KeepWindows.lean ====
section
/-! SUPPORT. Every operation of `Machine/Windows.lean` leaves the queue and keeps the canonical form of memory
and flash (`State.Ok`). -/

namespace Sys2Proof.Machine

variable {pend : List Instr}

theorem State.setWin_keeps (s : State) (w : Nat) (x : Win) (hs : s.Ok pend) :
    (State.setWin s w x).Ok pend := by
  unfold State.setWin
  try dsimp only
  repeat' first
    | with_reducible assumption | with_reducible apply State.Ok.memWf (pend := pend)
    | with_reducible apply State.Ok.queue | with_reducible apply State.Ok.flashWf (pend := pend)
    | (simp only [ok_mk]; refine ⟨?_, ?_, ?_⟩)

theorem State.winAdvance_keeps (s : State) (w : Nat) (hs : s.Ok pend) :
    (State.winAdvance s w).Ok pend := by
  unfold State.winAdvance
  try dsimp only
  repeat' first
    | with_reducible assumption | with_reducible apply State.put_keeps | with_reducible apply State.setWin_keeps
    | with_reducible apply State.Ok.memWf (pend := pend) | with_reducible apply State.Ok.queue
    | with_reducible apply State.Ok.flashWf (pend := pend) | with_reducible apply ite_keeps

theorem State.winMark_keeps (s : State) (a n : Nat) (hs : s.Ok pend) :
    (State.winMark s a n).Ok pend := by
  unfold State.winMark
  try dsimp only
  repeat' first
    | with_reducible assumption | (intro) | with_reducible apply State.setWin_keeps
    | with_reducible apply State.winAdvance_keeps | with_reducible apply foldl_keeps

theorem State.storeWords_keeps (s : State) (a : Nat) (l : List (List Byte)) (hs : s.Ok pend) :
    (State.storeWords s a l).Ok pend := by
  unfold State.storeWords
  try dsimp only
  repeat' first
    | with_reducible assumption | (intro) | with_reducible apply State.putCodeWord_keeps
    | with_reducible apply foldl_keeps | with_reducible apply foldl_keeps1

theorem State.guardedWrite_keeps (s : State) (part a : Nat) (l : List (List Byte)) (hs : s.Ok pend) :
    (State.guardedWrite s part a l).1.Ok pend := by
  unfold State.guardedWrite
  try dsimp only
  repeat' first
    | with_reducible assumption | with_reducible apply State.count_keeps | with_reducible apply State.winMark_keeps
    | with_reducible apply State.storeWords_keeps | with_reducible apply ite_keeps | with_reducible apply ite_keeps1

theorem State.devTag_keeps (s : State) (i : Nat) (use : DevUse) (hs : s.Ok pend) :
    (State.devTag s i use).2.Ok pend := by
  unfold State.devTag
  try dsimp only
  repeat' first
    | with_reducible assumption | (intro) | with_reducible apply State.Ok.memWf (pend := pend)
    | with_reducible apply State.Ok.queue | with_reducible apply State.Ok.flashWf (pend := pend) | split
    | (simp only [ok_mk]; refine ⟨?_, ?_, ?_⟩)

theorem State.hostWrite_keeps (s : State) (i addr : Nat) (d : List Byte) (hs : s.Ok pend) :
    (State.hostWrite s i addr d).Ok pend := by
  unfold State.hostWrite
  try dsimp only
  repeat' first
    | with_reducible assumption | (intro) | with_reducible apply State.devTag_keeps
    | with_reducible apply State.queuePacket_keeps

theorem State.cqAdvance_keeps (s : State) (w : Nat) (hs : s.Ok pend) :
    (State.cqAdvance s w).Ok pend := by
  unfold State.cqAdvance
  try dsimp only
  repeat' first | with_reducible assumption | with_reducible apply State.put_keeps | with_reducible apply ite_keeps

theorem State.sendRecord_keeps (s : State) (i : Nat) (r : WaitRecord) (hs : s.Ok pend) :
    (State.sendRecord s i r).Ok pend := by
  unfold State.sendRecord
  try dsimp only
  repeat' first
    | with_reducible assumption | (intro) | with_reducible apply State.cqAdvance_keeps
    | with_reducible apply State.hostWrite_keeps | with_reducible apply State.Ok.memWf (pend := pend)
    | with_reducible apply State.Ok.queue | with_reducible apply State.Ok.flashWf (pend := pend)
    | with_reducible apply ite_keeps

theorem State.storeRecord_keeps (s : State) (w : Nat) (r : WaitRecord) (hs : s.Ok pend) :
    (State.storeRecord s w r).Ok pend := by
  unfold State.storeRecord
  try dsimp only
  repeat' first
    | with_reducible assumption | (intro) | with_reducible apply State.count_keeps
    | with_reducible apply State.cqAdvance_keeps | with_reducible apply State.guardedWrite_keeps
    | with_reducible apply State.Ok.memWf (pend := pend) | with_reducible apply State.Ok.queue
    | with_reducible apply State.Ok.flashWf (pend := pend) | with_reducible apply ite_keeps

theorem State.sendHost_keeps (s : State) (i : Nat) (words : List (List Byte)) (hs : s.Ok pend) :
    (State.sendHost s i words).Ok pend := by
  unfold State.sendHost
  try dsimp only
  repeat' first
    | with_reducible assumption | with_reducible apply State.count_keeps
    | with_reducible apply State.queuePacket_keeps | with_reducible apply ite_keeps

theorem State.flushOne_keeps (s : State) (i : Nat) (hs : s.Ok pend) :
    (State.flushOne s i).Ok pend := by
  unfold State.flushOne
  try dsimp only
  repeat' first
    | with_reducible assumption | (intro) | with_reducible apply State.sendHost_keeps
    | with_reducible apply State.sendRecord_keeps | with_reducible apply State.Ok.memWf (pend := pend)
    | with_reducible apply State.Ok.queue | with_reducible apply State.Ok.flashWf (pend := pend)
    | with_reducible apply ite_keeps | with_reducible apply ite_keeps1 | split
    | (simp only [ok_mk]; refine ⟨?_, ?_, ?_⟩)

theorem State.flushPort_keeps (s : State) (i : Nat) (hs : s.Ok pend) :
    (State.flushPort s i).Ok pend := by
  unfold State.flushPort
  try dsimp only
  repeat' first
    | with_reducible assumption | (intro) | with_reducible apply State.flushOne_keeps
    | with_reducible apply State.Ok.memWf (pend := pend) | with_reducible apply State.Ok.queue
    | with_reducible apply State.Ok.flashWf (pend := pend) | with_reducible apply foldl_keeps

theorem State.portGo_keeps (s : State) (i : Nat) (hs : s.Ok pend) :
    (State.portGo s i).Ok pend := by
  unfold State.portGo
  try dsimp only
  repeat' first
    | with_reducible assumption | (intro) | with_reducible apply State.flushPort_keeps
    | with_reducible apply State.pump_keeps | with_reducible apply State.Ok.memWf (pend := pend)
    | with_reducible apply State.Ok.queue | with_reducible apply State.Ok.flashWf (pend := pend)
    | with_reducible apply ite_keeps

theorem State.sendOrWait_keeps (s : State) (d : DevPacket) (hs : s.Ok pend) :
    (State.sendOrWait s d).Ok pend := by
  unfold State.sendOrWait
  try dsimp only
  repeat' first
    | with_reducible assumption | (intro) | with_reducible apply State.flushPort_keeps
    | with_reducible apply State.Ok.memWf (pend := pend) | with_reducible apply State.Ok.queue
    | with_reducible apply State.Ok.flashWf (pend := pend) | split | (simp only [ok_mk]; refine ⟨?_, ?_, ?_⟩)

theorem State.writeRecord_keeps (s : State) (w : Nat) (b : List Byte) (hs : s.Ok pend) :
    (State.writeRecord s w b).Ok pend := by
  unfold State.writeRecord
  try dsimp only
  repeat' first
    | with_reducible assumption | (intro) | with_reducible apply State.sendOrWait_keeps
    | with_reducible apply State.storeRecord_keeps | with_reducible apply State.Ok.memWf (pend := pend)
    | with_reducible apply State.Ok.queue | with_reducible apply State.Ok.flashWf (pend := pend)
    | with_reducible apply ite_keeps

theorem State.completeCmd_keeps (s : State) (w c status res0 res1 eaddr : Nat) (taint : Bool) (hs : s.Ok pend) :
    (State.completeCmd s w c status res0 res1 eaddr taint).Ok pend := by
  unfold State.completeCmd
  try dsimp only
  repeat' first
    | with_reducible assumption | with_reducible apply State.put_keeps | with_reducible apply ite_optOk
    | with_reducible apply ite_optOk1 | with_reducible apply State.count_keeps
    | with_reducible apply State.setWin_keeps | with_reducible apply State.writeRecord_keeps
    | with_reducible apply State.Ok.memWf (pend := pend) | with_reducible apply State.Ok.queue
    | with_reducible apply State.Ok.flashWf (pend := pend) | with_reducible apply ite_keeps | split

end Sys2Proof.Machine
end

