-- ==== Sys2Proof/Laws/KeepPages.lean ====
section
/-! SUPPORT. Every operation of `Machine/Pages.lean` leaves the queue and keeps the canonical form of memory
and flash (`State.Ok`). -/

namespace Sys2Proof.Machine

variable {pend : List Instr}

theorem State.softPage_keeps (s : State) (p : PageRef) (hs : s.Ok pend) :
    (State.softPage s p).Ok pend := by
  unfold State.softPage
  try dsimp only
  repeat' first
    | with_reducible assumption | (intro) | with_reducible apply State.put_keeps
    | with_reducible apply State.clearPage_keeps | with_reducible apply foldl_keeps
    | with_reducible apply foldl_keeps2 | with_reducible apply State.Ok.memWf (pend := pend)
    | with_reducible apply State.Ok.queue | with_reducible apply State.Ok.flashWf (pend := pend)
    | (simp only [ok_mk]; refine ⟨?_, ?_, ?_⟩)

theorem State.softStart_keeps (s : State) (p : PageRef) (hs : s.Ok pend) :
    (State.softStart s p).Ok pend := by
  unfold State.softStart
  try dsimp only
  repeat' first | with_reducible assumption | with_reducible apply State.putFlag_keeps

end Sys2Proof.Machine
end

