-- ==== Sys2Proof/Laws/KeepRowEngine.lean ====
section
/-! SUPPORT. Every operation of `Machine/RowEngine.lean` leaves the queue and keeps the canonical form of memory
and flash (`State.Ok`). -/

namespace Sys2Proof.Machine

variable {pend : List Instr}

theorem State.setReady_keeps (s : State) (e n : Nat) (hs : s.Ok pend) :
    (State.setReady s e n).Ok pend := by
  unfold State.setReady
  try dsimp only
  repeat' first
    | with_reducible assumption | (intro) | with_reducible apply State.Ok.memWf (pend := pend)
    | with_reducible apply State.Ok.queue | with_reducible apply State.Ok.flashWf (pend := pend) | split
    | (simp only [ok_mk]; refine ⟨?_, ?_, ?_⟩)

theorem State.setEngineQ_keeps (s : State) (e : Nat) (q : List RowCmd) (hs : s.Ok pend) :
    (State.setEngineQ s e q).Ok pend := by
  unfold State.setEngineQ
  try dsimp only
  repeat' first
    | with_reducible assumption | with_reducible apply State.put_keeps | with_reducible apply State.putFlag_keeps
    | with_reducible apply State.Ok.memWf (pend := pend) | with_reducible apply State.Ok.queue
    | with_reducible apply State.Ok.flashWf (pend := pend) | (simp only [ok_mk]; refine ⟨?_, ?_, ?_⟩)

theorem State.rowRead_keeps (s : State) (e row : Nat) (hs : s.Ok pend) :
    (State.rowRead s e row).1.Ok pend := by
  unfold State.rowRead
  try dsimp only
  repeat' first
    | with_reducible assumption | (intro) | with_reducible apply State.reportAll_keeps
    | with_reducible apply State.Ok.memWf (pend := pend) | with_reducible apply State.Ok.queue
    | with_reducible apply State.Ok.flashWf (pend := pend) | with_reducible apply ite_keeps

theorem State.dropLines_keeps (s : State) (row : Nat) (hs : s.Ok pend) :
    (State.dropLines s row).Ok pend := by
  unfold State.dropLines
  try dsimp only
  repeat' first
    | with_reducible assumption | with_reducible apply State.Ok.memWf (pend := pend) | with_reducible apply ite_optOk
    | with_reducible apply ite_optOk1 | with_reducible apply State.Ok.queue
    | with_reducible apply State.Ok.flashWf (pend := pend) | with_reducible apply ite_keeps | split
    | (simp only [ok_mk]; refine ⟨?_, ?_, ?_⟩)

theorem State.rowWrite_keeps (s : State) (e : Nat) (c : RowCmd) (hs : s.Ok pend) :
    (State.rowWrite s e c).1.Ok pend := by
  unfold State.rowWrite
  try dsimp only
  repeat' first
    | with_reducible assumption | with_reducible apply State.count_keeps | with_reducible apply ite_optOk
    | with_reducible apply ite_optOk1 | with_reducible apply State.guardedWrite_keeps
    | with_reducible apply State.dropLines_keeps | with_reducible apply ite_keeps | with_reducible apply ite_keeps1

theorem State.rowRun_keeps (s : State) (e : Nat) (c : RowCmd) (hs : s.Ok pend) :
    (State.rowRun s e c).1.Ok pend := by
  unfold State.rowRun
  try dsimp only
  repeat' first
    | with_reducible assumption | (intro) | with_reducible apply State.rowRead_keeps
    | with_reducible apply State.rowWrite_keeps | with_reducible apply foldl_keeps | with_reducible apply foldl_keeps1

theorem State.rowBook_keeps (s : State) (e status : Nat) (hs : s.Ok pend) :
    (State.rowBook s e status).Ok pend := by
  unfold State.rowBook
  try dsimp only
  repeat' first
    | with_reducible assumption | with_reducible apply State.put_keeps | with_reducible apply State.wrapCount_keeps

theorem State.modXfer_keeps (s : State) (t id : Nat) (f : Xfer → Xfer) (hs : s.Ok pend) :
    (State.modXfer s t id f).Ok pend := by
  unfold State.modXfer
  try dsimp only
  repeat' first | with_reducible assumption | with_reducible apply State.modTile_keeps

theorem State.rowReply_keeps (s : State) (c : RowCmd) (status : Nat) (hs : s.Ok pend) :
    (State.rowReply s c status).Ok pend := by
  unfold State.rowReply
  try dsimp only
  repeat' first
    | with_reducible assumption | (intro) | with_reducible apply State.completeCmd_keeps
    | with_reducible apply State.modXfer_keeps | with_reducible apply State.Ok.memWf (pend := pend)
    | with_reducible apply State.Ok.queue | with_reducible apply State.Ok.flashWf (pend := pend)
    | with_reducible apply ite_keeps | with_reducible apply ite_keeps1 | split
    | (simp only [ok_mk]; refine ⟨?_, ?_, ?_⟩)

theorem State.replyUp_keeps (s : State) (w c status tag t : Nat) (hs : s.Ok pend) :
    (State.replyUp s w c status tag t).Ok pend := by
  unfold State.replyUp
  try dsimp only
  repeat' first
    | with_reducible assumption | (intro) | with_reducible apply State.Ok.memWf (pend := pend)
    | with_reducible apply State.Ok.queue | with_reducible apply State.Ok.flashWf (pend := pend) | split
    | (simp only [ok_mk]; refine ⟨?_, ?_, ?_⟩)

theorem State.rowAnswer_keeps (s : State) (c : RowCmd) (status : Nat) (hs : s.Ok pend) :
    (State.rowAnswer s c status).Ok pend := by
  unfold State.rowAnswer
  try dsimp only
  repeat' first
    | with_reducible assumption | (intro) | with_reducible apply State.replyUp_keeps
    | with_reducible apply State.rowReply_keeps | with_reducible apply State.Ok.memWf (pend := pend)
    | with_reducible apply State.Ok.queue | with_reducible apply State.Ok.flashWf (pend := pend) | split

theorem State.rowComplete_keeps (s : State) (e : Nat) (c : RowCmd) (status : Nat) (hs : s.Ok pend) :
    (State.rowComplete s e c status).Ok pend := by
  unfold State.rowComplete
  try dsimp only
  repeat' first
    | with_reducible assumption | (intro) | with_reducible apply State.rowAnswer_keeps
    | with_reducible apply State.rowBook_keeps

theorem State.rowRefuse_keeps (s : State) (c : RowCmd) (via : Option Nat) (status : Nat) (hs : s.Ok pend) :
    (State.rowRefuse s c via status).Ok pend := by
  unfold State.rowRefuse
  try dsimp only
  repeat' first
    | with_reducible assumption | (intro) | with_reducible apply State.rowBook_keeps
    | with_reducible apply State.rowReply_keeps | with_reducible apply State.Ok.memWf (pend := pend)
    | with_reducible apply State.Ok.queue | with_reducible apply State.Ok.flashWf (pend := pend) | split

theorem State.rowAccept_keeps (s : State) (e : Nat) (c : RowCmd) (hs : s.Ok pend) :
    (State.rowAccept s e c).Ok pend := by
  unfold State.rowAccept
  try dsimp only
  repeat' first | with_reducible assumption | with_reducible apply State.setEngineQ_keeps

theorem State.rowStep_keeps (s : State) (e : Nat) (hs : s.Ok pend) :
    (State.rowStep s e).Ok pend := by
  unfold State.rowStep
  try dsimp only
  repeat' first
    | with_reducible assumption | (intro) | with_reducible apply State.rowComplete_keeps
    | with_reducible apply State.rowRead_keeps | with_reducible apply State.rowWrite_keeps
    | with_reducible apply State.setEngineQ_keeps | with_reducible apply State.setReady_keeps
    | with_reducible apply State.Ok.memWf (pend := pend) | with_reducible apply State.Ok.queue
    | with_reducible apply State.Ok.flashWf (pend := pend) | with_reducible apply ite_keeps
    | with_reducible apply ite_keeps1 | split

theorem State.rowCut_keeps (s : State) (e status : Nat) (hs : s.Ok pend) :
    (State.rowCut s e status).Ok pend := by
  unfold State.rowCut
  try dsimp only
  repeat' first
    | with_reducible assumption | (intro) | with_reducible apply State.setEngineQ_keeps
    | with_reducible apply State.rowComplete_keeps | with_reducible apply foldl_keeps

theorem State.portWait_keeps (s : State) (port who : Nat) (c : RowCmd) (hs : s.Ok pend) :
    (State.portWait s port who c).Ok pend := by
  unfold State.portWait
  try dsimp only
  repeat' first
    | with_reducible assumption | (intro) | with_reducible apply State.setRes_keeps

theorem State.rowDirect_keeps (s : State) (op : Nat) (a : RowArgs) (hs : s.Ok pend) :
    (State.rowDirect s op a).Ok pend := by
  unfold State.rowDirect
  try dsimp only
  repeat' first
    | with_reducible assumption | (intro) | with_reducible apply State.portWait_keeps
    | with_reducible apply State.rowBook_keeps | with_reducible apply State.rowRefuse_keeps
    | with_reducible apply State.rowRun_keeps | with_reducible apply State.Ok.memWf (pend := pend)
    | with_reducible apply State.Ok.queue | with_reducible apply State.Ok.flashWf (pend := pend)
    | with_reducible apply ite_keeps | with_reducible apply ite_keeps1 | split

end Sys2Proof.Machine
end

