-- ==== Sys2Proof/Laws/KeepTransfers.lean ====
section
/-! SUPPORT. Every operation of `Machine/Transfers.lean` leaves the queue and keeps the canonical form of memory
and flash (`State.Ok`). -/

namespace Sys2Proof.Machine

variable {pend : List Instr}

theorem State.startXfer_keeps (s : State) (t : Nat) (kind : XferKind) (sram target n status : Nat) (todo : List Nat) (waits : Bool) (inject body : Nat) (ue : Bool) (hs : s.Ok pend) :
    (State.startXfer s t kind sram target n status todo waits inject body ue).Ok pend := by
  unfold State.startXfer
  try dsimp only
  repeat' first
    | with_reducible assumption | with_reducible apply State.modTile_keeps | with_reducible apply State.downDrop_keeps
    | with_reducible apply State.Ok.memWf (pend := pend) | with_reducible apply State.Ok.queue
    | with_reducible apply State.Ok.flashWf (pend := pend) | with_reducible apply ite_keeps

theorem State.rowcIssue_keeps (s : State) (t sram target : Nat) (hs : s.Ok pend) :
    (State.rowcIssue s t sram target).Ok pend := by
  unfold State.rowcIssue
  try dsimp only
  repeat' first
    | with_reducible assumption | with_reducible apply State.readSectors_keeps | with_reducible apply ite_optOk
    | with_reducible apply ite_optOk1 | with_reducible apply State.rowRefuse_keeps
    | with_reducible apply State.startXfer_keeps | with_reducible apply ite_keeps

theorem State.lsApply_keeps (s : State) (t : Nat) (u : Tile) (lop : Nat) (o : LsOp) (hs : s.Ok pend) :
    (State.lsApply s t u lop o).Ok pend := by
  unfold State.lsApply
  try dsimp only
  repeat' first
    | with_reducible assumption | (intro) | with_reducible apply State.modTile_keeps
    | with_reducible apply State.tileLoad_keeps | with_reducible apply State.tileStore_keeps
    | with_reducible apply State.startXfer_keeps | with_reducible apply State.rowcIssue_keeps
    | with_reducible apply foldl_keeps | with_reducible apply foldl_keeps1 | with_reducible apply foldl_keeps2
    | with_reducible apply State.Ok.memWf (pend := pend) | with_reducible apply State.Ok.queue
    | with_reducible apply State.Ok.flashWf (pend := pend) | with_reducible apply ite_keeps

theorem State.carryWord_keeps (s : State) (page : PageRef) (src a : Nat) (w : List Byte) (hs : s.Ok pend) :
    (State.carryWord s page src a w).1.Ok pend := by
  unfold State.carryWord
  try dsimp only
  repeat' first
    | with_reducible assumption | (intro) | with_reducible apply State.reportSector_keeps

theorem State.carry_keeps (s : State) (page : PageRef) (src a : Nat) (hs : s.Ok pend) :
    (State.carry s page src a).1.Ok pend := by
  unfold State.carry
  try dsimp only
  repeat' first
    | with_reducible assumption | (intro) | with_reducible apply State.carryWord_keeps

theorem State.carryFrom_keeps (s : State) (src a : Nat) (w0 : WordFrom) (hs : s.Ok pend) :
    (State.carryFrom s src a w0).1.Ok pend := by
  unfold State.carryFrom
  try dsimp only
  repeat' first
    | with_reducible assumption | (intro) | with_reducible apply State.carry_keeps
    | with_reducible apply State.carryWord_keeps | with_reducible apply State.Ok.memWf (pend := pend)
    | with_reducible apply State.Ok.queue | with_reducible apply State.Ok.flashWf (pend := pend) | split

theorem State.sendWord_keeps (s : State) (t : Nat) (x : Xfer) (i : Nat) (hs : s.Ok pend) :
    (State.sendWord s t x i).1.Ok pend := by
  unfold State.sendWord
  try dsimp only
  repeat' first
    | with_reducible assumption | (intro) | with_reducible apply State.carry_keeps
    | with_reducible apply State.Ok.memWf (pend := pend) | with_reducible apply State.Ok.queue
    | with_reducible apply State.Ok.flashWf (pend := pend) | split

theorem State.gather_keeps (s : State) (t : Nat) (x : Xfer) (hs : s.Ok pend) :
    (State.gather s t x).1.Ok pend := by
  unfold State.gather
  try dsimp only
  repeat' first
    | with_reducible assumption | (intro) | with_reducible apply State.sendWord_keeps
    | with_reducible apply State.Ok.memWf (pend := pend) | with_reducible apply State.Ok.queue
    | with_reducible apply State.Ok.flashWf (pend := pend) | with_reducible apply foldl_keeps
    | with_reducible apply foldl_keeps1

theorem State.moveSector_keeps (s : State) (t : Nat) (x : Xfer) (a : Nat) (w : WordFrom) (hs : s.Ok pend) :
    (State.moveSector s t x a w).Ok pend := by
  unfold State.moveSector
  try dsimp only
  repeat' first
    | with_reducible assumption | (intro) | with_reducible apply State.carryFrom_keeps
    | with_reducible apply State.gather_keeps | with_reducible apply State.guardedWrite_keeps
    | with_reducible apply State.modXfer_keeps | with_reducible apply State.putCodeWord_keeps
    | with_reducible apply State.sendWord_keeps | with_reducible apply State.Ok.memWf (pend := pend)
    | with_reducible apply State.Ok.queue | with_reducible apply State.Ok.flashWf (pend := pend)
    | with_reducible apply ite_keeps

theorem State.xferComplete_keeps (s : State) (t k : Nat) (hs : s.Ok pend) :
    (State.xferComplete s t k).Ok pend := by
  unfold State.xferComplete
  try dsimp only
  repeat' first
    | with_reducible assumption | with_reducible apply State.modTile_keeps | with_reducible apply ite_optOk
    | with_reducible apply ite_optOk1 | with_reducible apply ite_keeps | split

theorem State.xferLost_keeps (s : State) (t k : Nat) (hs : s.Ok pend) :
    (State.xferLost s t k).Ok pend := by
  unfold State.xferLost
  try dsimp only
  repeat' first
    | with_reducible assumption | with_reducible apply State.modTile_keeps | with_reducible apply ite_optOk
    | with_reducible apply ite_optOk1 | with_reducible apply ite_keeps | split

end Sys2Proof.Machine
end

