-- ==== Sys2Proof/Laws/KeepScalar.lean ====
section
/-! SUPPORT. Every operation of `Machine/Scalar.lean` leaves the queue and keeps the canonical form of memory
and flash (`State.Ok`). -/

namespace Sys2Proof.Machine

variable {pend : List Instr}

theorem State.cycles_keeps (s : State) (t : Nat) (hs : s.Ok pend) :
    (State.cycles s t).Ok pend := by
  unfold State.cycles
  try dsimp only
  repeat' first
    | with_reducible assumption | (intro) | with_reducible apply State.free_keeps
    | with_reducible apply State.modTile_keeps

/-- What a control-slot instruction does keeps the canonical form. -/
def CtlOk (pend : List Instr) : Ctl → Prop
  | .go s => s.Ok pend
  | _ => True

theorem ctlOk_trap (c : Nat) (v : Word) : CtlOk pend (.trap c v) := trivial

theorem ctlOk_wait (n : Nat) : CtlOk pend (.wait n) := trivial

theorem ctlOk_go {s : State} (h : s.Ok pend) : CtlOk pend (.go s) := h

theorem State.ctlLoad_keeps (s : State) (t : Nat) (u : Tile) (a n : Nat) (k : State → Nat → State) (hs : s.Ok pend) (hk : ∀ s v, s.Ok pend → (k s v).Ok pend) : CtlOk pend (State.ctlLoad s t u a n k) := by
  unfold State.ctlLoad
  dsimp only
  repeat' first
    | with_reducible assumption | with_reducible apply ctlOk_trap | with_reducible apply ctlOk_wait
    | with_reducible apply ctlOk_go | with_reducible apply hk | with_reducible apply State.tileLoad_keeps | split

theorem State.ctlStore_keeps (s : State) (t : Nat) (a n : Nat) (v : Word) (k : State → State) (hs : s.Ok pend) (hk : ∀ s, s.Ok pend → (k s).Ok pend) : CtlOk pend (State.ctlStore s t a n v k) := by
  unfold State.ctlStore
  dsimp only
  repeat' first
    | with_reducible assumption | with_reducible apply ctlOk_trap | with_reducible apply ctlOk_wait
    | with_reducible apply ctlOk_go | with_reducible apply hk | with_reducible apply State.modTile_keeps | split

theorem State.ctlNext_keeps (s : State) (t pc rd : Nat) (v : Word) (hs : s.Ok pend) :
    (State.ctlNext s t pc rd v).Ok pend := by
  unfold State.ctlNext
  try dsimp only
  repeat' first | with_reducible assumption | with_reducible apply State.modTile_keeps

theorem State.ctlJump_keeps (s : State) (t : Nat) (target : Word) (bundle : Bool) (rd : Nat) (link : Word) (hs : s.Ok pend) : CtlOk pend (State.ctlJump s t target bundle rd link) := by
  unfold State.ctlJump
  dsimp only
  repeat' first
    | with_reducible assumption | with_reducible apply ctlOk_trap | with_reducible apply ctlOk_wait
    | with_reducible apply ctlOk_go | with_reducible apply State.modTile_keeps | split

theorem Tile.ctlFence_keeps (u : Tile) (n : Nat) (k : State) (hk : k.Ok pend) : CtlOk pend (Tile.ctlFence u n k) := by
  unfold Tile.ctlFence
  repeat' first
    | with_reducible assumption | with_reducible apply ctlOk_trap | with_reducible apply ctlOk_wait
    | with_reducible apply ctlOk_go | split

theorem State.ctlMret_keeps (s : State) (t : Nat) (u : Tile) (hs : s.Ok pend) : CtlOk pend (State.ctlMret s t u) := by
  unfold State.ctlMret
  dsimp only
  repeat' first
    | with_reducible assumption | with_reducible apply ctlOk_trap | with_reducible apply ctlOk_wait
    | with_reducible apply ctlOk_go | with_reducible apply State.modTile_keeps | split

theorem State.ctlCsr_keeps (s : State) (t : Nat) (u : Tile) (w next : Nat) (hs : s.Ok pend) :
    CtlOk pend (State.ctlCsr s t u w next) := by
  unfold State.ctlCsr
  dsimp only
  split
  · exact trivial
  · apply ctlOk_go
    apply State.ctlNext_keeps
    repeat' first
      | with_reducible assumption | with_reducible apply State.modTile_keeps | with_reducible apply ite_keeps
      | with_reducible apply State.cycles_keeps

theorem State.ctl_keeps (s : State) (t : Nat) (u : Tile) (w len word : Nat) (hs : s.Ok pend) : CtlOk pend (State.ctl s t u w len word) := by
  unfold State.ctl
  dsimp only
  repeat' first
    | with_reducible assumption | with_reducible apply ctlOk_trap | with_reducible apply ctlOk_wait
    | with_reducible apply ctlOk_go | with_reducible apply State.ctlNext_keeps
    | with_reducible apply State.ctlJump_keeps | with_reducible apply State.ctlMret_keeps
    | with_reducible apply State.ctlCsr_keeps | with_reducible apply Tile.ctlFence_keeps
    | with_reducible apply State.ctlLoad_keeps | with_reducible apply State.ctlStore_keeps | split | (intro)

theorem State.fetch_keeps (s : State) (t a n : Nat) (hs : s.Ok pend) :
    (State.fetch s t a n).1.Ok pend := by
  unfold State.fetch
  try dsimp only
  repeat' first
    | with_reducible assumption | (intro) | with_reducible apply State.reportAll_keeps
    | with_reducible apply State.Ok.memWf (pend := pend) | with_reducible apply State.Ok.queue
    | with_reducible apply State.Ok.flashWf (pend := pend) | with_reducible apply ite_keeps
    | with_reducible apply ite_keeps1

theorem State.endCtl_keeps (s : State) (t : Nat) (c : Ctl) (hs : s.Ok pend) (hc : CtlOk pend c) : (s.endCtl t c).Ok pend := by
  unfold State.endCtl
  split
  · dsimp only
    repeat' first
      | with_reducible assumption | with_reducible apply State.trap_keeps | with_reducible apply State.report_keeps
      | split
  · exact State.modTile_keeps _ _ _ hs
  · exact hc

theorem State.scalarStep_keeps (s : State) (t : Nat) (hs : s.Ok pend) :
    (State.scalarStep s t).Ok pend := by
  unfold State.scalarStep
  try dsimp only
  repeat' first
    | with_reducible assumption | with_reducible apply State.trap_keeps | with_reducible apply ite_optOk
    | with_reducible apply ite_optOk1 | with_reducible apply State.ctl_keeps | with_reducible apply State.fetch_keeps
    | with_reducible apply State.endCtl_keeps | with_reducible apply ite_keeps | with_reducible apply ite_keeps1
    | split

theorem CtlOk.of {c : Ctl} {s : State} (he : c = .go s) (h : CtlOk pend c) : s.Ok pend := by
  subst he; exact h

end Sys2Proof.Machine
end

