-- ==== Sys2Proof/Laws/KeepIssue.lean ====
section
/-! SUPPORT. Every operation of `Machine/Issue.lean` leaves the queue and keeps the canonical form of memory
and flash (`State.Ok`). -/

namespace Sys2Proof.Machine

variable {pend : List Instr}

theorem State.apldStart_keeps (s : State) (t : Nat) (u : Tile) (o : PlaneOp) (hs : s.Ok pend) :
    (State.apldStart s t u o).Ok pend := by
  unfold State.apldStart
  try dsimp only
  repeat' first
    | with_reducible assumption | (intro) | with_reducible apply State.apldIssue_keeps
    | with_reducible apply State.modTile_keeps | with_reducible apply State.Ok.memWf (pend := pend)
    | with_reducible apply State.Ok.queue | with_reducible apply State.Ok.flashWf (pend := pend)
    | with_reducible apply ite_keeps

theorem State.opApply_keeps (s : State) (t : Nat) (u : Tile) (w0 : SlotOp) (hs : s.Ok pend) :
    (State.opApply s t u w0).Ok pend := by
  unfold State.opApply
  try dsimp only
  repeat' first
    | with_reducible assumption | (intro) | with_reducible apply State.adistIssue_keeps
    | with_reducible apply State.amacIssue_keeps | with_reducible apply State.apldStart_keeps
    | with_reducible apply State.coolDown_keeps | with_reducible apply State.lsApply_keeps
    | with_reducible apply State.vecApply_keeps | with_reducible apply State.warm_keeps
    | with_reducible apply State.Ok.memWf (pend := pend) | with_reducible apply State.Ok.queue
    | with_reducible apply State.Ok.flashWf (pend := pend) | split

theorem State.runOp_keeps (s : State) (t : Nat) (op : SlotOp) (hs : s.Ok pend) :
    (State.runOp s t op).Ok pend := by
  unfold State.runOp
  try dsimp only
  repeat' first
    | with_reducible assumption | with_reducible apply State.trap_keeps | with_reducible apply ite_optOk
    | with_reducible apply ite_optOk1 | with_reducible apply State.rampForOp_keeps
    | with_reducible apply State.opApply_keeps | with_reducible apply ite_keeps | split

theorem State.runCtl_keeps (s : State) (t : Nat) (f : Tile → Ctl) (hs : s.Ok pend) (hf : CtlOk pend (f (s.tile t))) :
    (s.runCtl t f).Ok pend := by
  unfold State.runCtl
  split
  · exact State.endCtl_keeps _ _ _ hs hf
  · exact hs

theorem State.bundleStep_keeps (s : State) (t : Nat) (hs : s.Ok pend) :
    (State.bundleStep s t).Ok pend := by
  unfold State.bundleStep
  try dsimp only
  repeat' first
    | with_reducible assumption | with_reducible apply State.trap_keeps | with_reducible apply ite_optOk
    | with_reducible apply ite_optOk1 | with_reducible apply State.rampForOp_keeps
    | with_reducible apply State.ctl_keeps | with_reducible apply State.fetch_keeps
    | with_reducible apply State.endCtl_keeps | with_reducible apply State.opApply_keeps
    | with_reducible apply State.Ok.memWf (pend := pend) | with_reducible apply State.Ok.queue
    | with_reducible apply State.Ok.flashWf (pend := pend) | with_reducible apply ite_keeps
    | with_reducible apply ite_keeps1 | split | (simp only [ok_mk]; refine ⟨?_, ?_, ?_⟩)
    | with_reducible apply ctlOk_trap

theorem State.tileStart_keeps (s : State) (t : Nat) (hs : s.Ok pend) :
    (State.tileStart s t).Ok pend := by
  unfold State.tileStart
  try dsimp only
  repeat' first
    | with_reducible assumption | with_reducible apply State.put_keeps | with_reducible apply State.modTile_keeps
    | with_reducible apply State.Ok.memWf (pend := pend) | with_reducible apply State.Ok.queue
    | with_reducible apply State.Ok.flashWf (pend := pend) | with_reducible apply ite_keeps

theorem State.tileHalt_keeps (s : State) (t : Nat) (hs : s.Ok pend) :
    (State.tileHalt s t).Ok pend := by
  unfold State.tileHalt
  try dsimp only
  repeat' first
    | with_reducible assumption | with_reducible apply State.modTile_keeps
    | with_reducible apply State.Ok.memWf (pend := pend) | with_reducible apply State.Ok.queue
    | with_reducible apply State.Ok.flashWf (pend := pend) | with_reducible apply ite_keeps

theorem State.tileHaltDone_keeps (s : State) (t : Nat) (hs : s.Ok pend) :
    (State.tileHaltDone s t).Ok pend := by
  unfold State.tileHaltDone
  try dsimp only
  repeat' first
    | with_reducible assumption | with_reducible apply State.put_keeps | with_reducible apply State.modTile_keeps
    | with_reducible apply State.Ok.memWf (pend := pend) | with_reducible apply State.Ok.queue
    | with_reducible apply State.Ok.flashWf (pend := pend) | with_reducible apply ite_keeps

theorem State.tileSoftReset_keeps (s : State) (t : Nat) (hs : s.Ok pend) :
    (State.tileSoftReset s t).Ok pend := by
  unfold State.tileSoftReset
  try dsimp only
  repeat' first
    | with_reducible assumption | with_reducible apply State.put_keeps | with_reducible apply State.modTile_keeps
    | with_reducible apply State.setArr_keeps | with_reducible apply ite_keeps

end Sys2Proof.Machine
end

