-- ==== Sys2Proof/Laws/KeepTiles.lean ====
section
/-! SUPPORT. Every operation of `Machine/Tiles.lean` leaves the queue and keeps the canonical form of memory
and flash (`State.Ok`). -/

namespace Sys2Proof.Machine

variable {pend : List Instr}

theorem State.loadDone_keeps (s : State) (t p : Nat) (hs : s.Ok pend) :
    (State.loadDone s t p).Ok pend := by
  unfold State.loadDone
  try dsimp only
  repeat' first
    | with_reducible assumption | with_reducible apply State.modTile_keeps | with_reducible apply ite_optOk
    | with_reducible apply ite_optOk1 | with_reducible apply State.Ok.memWf (pend := pend)
    | with_reducible apply State.Ok.queue | with_reducible apply State.Ok.flashWf (pend := pend) | split

theorem State.arrayIdle_keeps (s : State) (t : Nat) (hs : s.Ok pend) :
    (State.arrayIdle s t).Ok pend := by
  unfold State.arrayIdle
  try dsimp only
  repeat' first
    | with_reducible assumption | with_reducible apply State.modTile_keeps
    | with_reducible apply State.beginDown_keeps | with_reducible apply State.Ok.memWf (pend := pend)
    | with_reducible apply State.Ok.queue | with_reducible apply State.Ok.flashWf (pend := pend)
    | with_reducible apply ite_keeps

theorem State.arrayResult_keeps (s : State) (t : Nat) (hs : s.Ok pend) :
    (State.arrayResult s t).Ok pend := by
  unfold State.arrayResult
  try dsimp only
  repeat' first
    | with_reducible assumption | with_reducible apply State.modTile_keeps
    | with_reducible apply State.beginDown_keeps | with_reducible apply State.Ok.memWf (pend := pend)
    | with_reducible apply State.Ok.queue | with_reducible apply State.Ok.flashWf (pend := pend)
    | with_reducible apply ite_keeps | split

theorem State.fenceRelease_keeps (s : State) (t : Nat) (hs : s.Ok pend) :
    (State.fenceRelease s t).Ok pend := by
  unfold State.fenceRelease
  try dsimp only
  repeat' first
    | with_reducible assumption | with_reducible apply State.modTile_keeps | with_reducible apply ite_optOk
    | with_reducible apply ite_optOk1 | with_reducible apply State.trap_keeps
    | with_reducible apply State.Ok.memWf (pend := pend) | with_reducible apply State.Ok.queue
    | with_reducible apply State.Ok.flashWf (pend := pend) | with_reducible apply ite_keeps | split

end Sys2Proof.Machine
end

