-- ==== Sys2Proof/Laws/KeepRuntime.lean ====
section
/-! SUPPORT. Every operation of `Machine/Runtime.lean` leaves the queue and keeps the canonical form of memory
and flash (`State.Ok`). -/

namespace Sys2Proof.Machine

variable {pend : List Instr}

theorem State.noteDown_keeps (s : State) (status a n : Nat) (hs : s.Ok pend) :
    (State.noteDown s status a n).Ok pend := by
  unfold State.noteDown
  try dsimp only
  repeat' first
    | with_reducible assumption | (intro) | with_reducible apply State.downDrop_keeps
    | with_reducible apply State.Ok.memWf (pend := pend) | with_reducible apply State.Ok.queue
    | with_reducible apply State.Ok.flashWf (pend := pend) | with_reducible apply ite_keeps

theorem State.startAcc_keeps (s : State) (who : Nat) (use : AccessFor) (a n : Nat) (words : Option (List (List
    Byte))) (hs : s.Ok pend) :
    (State.startAcc s who use a n words).Ok pend := by
  unfold State.startAcc
  try dsimp only
  repeat' first
    | with_reducible assumption | (intro) | with_reducible apply State.Ok.memWf (pend := pend)
    | with_reducible apply State.Ok.queue | with_reducible apply State.Ok.flashWf (pend := pend) | split
    | (simp only [ok_mk]; refine ⟨?_, ?_, ?_⟩)

theorem State.modAcc_keeps (s : State) (id : Nat) (f : MemAccess → MemAccess) (hs : s.Ok pend) :
    (State.modAcc s id f).Ok pend := by
  unfold State.modAcc
  try dsimp only
  repeat' first
    | with_reducible assumption | (intro) | with_reducible apply State.Ok.memWf (pend := pend)
    | with_reducible apply State.Ok.queue | with_reducible apply State.Ok.flashWf (pend := pend)
    | with_reducible apply ite_keeps | with_reducible apply ite_keeps1 | split
    | (simp only [ok_mk]; refine ⟨?_, ?_, ?_⟩)

theorem State.moveAcc_keeps (s : State) (x : MemAccess) (a : Nat) (w : WordFrom) (hs : s.Ok pend) :
    (State.moveAcc s x a w).Ok pend := by
  unfold State.moveAcc
  try dsimp only
  repeat' first
    | with_reducible assumption | (intro) | with_reducible apply State.carryFrom_keeps
    | with_reducible apply State.guardedWrite_keeps | with_reducible apply State.modAcc_keeps
    | with_reducible apply State.Ok.memWf (pend := pend) | with_reducible apply State.Ok.queue
    | with_reducible apply State.Ok.flashWf (pend := pend) | with_reducible apply ite_keeps
    | with_reducible apply ite_keeps1 | split

theorem State.accFlit_keeps (s : State) (x : MemAccess) (id : Nat) (hs : s.Ok pend) :
    (State.accFlit s x id).Ok pend := by
  unfold State.accFlit
  try dsimp only
  repeat' first
    | with_reducible assumption | (intro) | with_reducible apply State.modAcc_keeps
    | with_reducible apply State.Ok.memWf (pend := pend) | with_reducible apply State.Ok.queue
    | with_reducible apply State.Ok.flashWf (pend := pend) | with_reducible apply ite_keeps
    | with_reducible apply ite_keeps1 | split

theorem State.pace_keeps (s : State) (id w n : Nat) (hs : s.Ok pend) :
    (State.pace s id w n).Ok pend := by
  unfold State.pace
  try dsimp only
  repeat' first
    | with_reducible assumption | (intro) | with_reducible apply State.setRes_keeps
    | with_reducible apply State.Ok.memWf (pend := pend) | with_reducible apply State.Ok.queue
    | with_reducible apply State.Ok.flashWf (pend := pend) | with_reducible apply ite_keeps

end Sys2Proof.Machine
end

