-- ==== Sys2Proof/Laws/KeepEdge.lean ====
section
/-! SUPPORT. Every operation of `Machine/Edge.lean` leaves the queue and keeps the canonical form of memory
and flash (`State.Ok`). -/

namespace Sys2Proof.Machine

variable {pend : List Instr}

theorem State.cacheTouch_keeps (s : State) (key a : Nat) (hs : s.Ok pend) :
    (State.cacheTouch s key a).Ok pend := by
  unfold State.cacheTouch
  try dsimp only
  repeat' first
    | with_reducible assumption | (intro) | with_reducible apply State.Ok.memWf (pend := pend)
    | with_reducible apply State.Ok.queue | with_reducible apply State.Ok.flashWf (pend := pend) | split
    | (simp only [ok_mk]; refine ⟨?_, ?_, ?_⟩)

theorem State.cacheAlloc_keeps (s : State) (key a : Nat) (w : List Byte) (hs : s.Ok pend) :
    (State.cacheAlloc s key a w).Ok pend := by
  unfold State.cacheAlloc
  try dsimp only
  repeat' first
    | with_reducible assumption | (intro) | with_reducible apply State.Ok.memWf (pend := pend)
    | with_reducible apply State.Ok.queue | with_reducible apply State.Ok.flashWf (pend := pend) | split
    | (simp only [ok_mk]; refine ⟨?_, ?_, ?_⟩)

theorem State.cacheDrop_keeps (s : State) (key a : Nat) (hs : s.Ok pend) :
    (State.cacheDrop s key a).Ok pend := by
  unfold State.cacheDrop
  try dsimp only
  repeat' first
    | with_reducible assumption | (intro) | with_reducible apply State.Ok.memWf (pend := pend)
    | with_reducible apply State.Ok.queue | with_reducible apply State.Ok.flashWf (pend := pend)
    | with_reducible apply ite_keeps | with_reducible apply ite_keeps1 | split
    | (simp only [ok_mk]; refine ⟨?_, ?_, ?_⟩)

theorem State.countHit_keeps (s : State) (b r e : Nat) (hs : s.Ok pend) :
    (State.countHit s b r e).Ok pend := by
  unfold State.countHit
  try dsimp only
  repeat' first
    | with_reducible assumption | (intro) | with_reducible apply State.Ok.memWf (pend := pend)
    | with_reducible apply State.Ok.queue | with_reducible apply State.Ok.flashWf (pend := pend) | split
    | (simp only [ok_mk]; refine ⟨?_, ?_, ?_⟩)

theorem State.cacheServed_keeps (s : State) (k a e : Nat) (w0 : CacheLook) (hs : s.Ok pend) :
    (State.cacheServed s k a e w0).Ok pend := by
  unfold State.cacheServed
  try dsimp only
  repeat' first
    | with_reducible assumption | (intro) | with_reducible apply State.cacheAlloc_keeps
    | with_reducible apply State.cacheDrop_keeps | with_reducible apply State.cacheTouch_keeps
    | with_reducible apply State.count_keeps | with_reducible apply State.countHit_keeps
    | with_reducible apply State.report_keeps | with_reducible apply State.Ok.memWf (pend := pend)
    | with_reducible apply State.Ok.queue | with_reducible apply State.Ok.flashWf (pend := pend)
    | with_reducible apply ite_keeps | with_reducible apply ite_keeps1 | split

theorem State.checkFill_keeps (s : State) (k c : Nat) (hs : s.Ok pend) :
    (State.checkFill s k c).Ok pend := by
  unfold State.checkFill
  try dsimp only
  repeat' first
    | with_reducible assumption | (intro) | with_reducible apply State.Ok.memWf (pend := pend)
    | with_reducible apply State.Ok.queue | with_reducible apply State.Ok.flashWf (pend := pend)
    | with_reducible apply foldl_keeps | with_reducible apply foldl_keeps1 | with_reducible apply foldl_keeps2
    | with_reducible apply ite_keeps | with_reducible apply ite_keeps1 | split
    | (simp only [ok_mk]; refine ⟨?_, ?_, ?_⟩)

theorem State.checkRead_keeps (s : State) (k c o : Nat) (pat : List Byte) (hs : s.Ok pend) :
    (State.checkRead s k c o pat).Ok pend := by
  unfold State.checkRead
  try dsimp only
  repeat' first
    | with_reducible assumption | (intro) | with_reducible apply State.count_keeps
    | with_reducible apply State.put_keeps | with_reducible apply State.report_keeps
    | with_reducible apply State.reportSector_keeps | with_reducible apply State.Ok.memWf (pend := pend)
    | with_reducible apply State.Ok.queue | with_reducible apply State.Ok.flashWf (pend := pend)
    | with_reducible apply ite_keeps

theorem State.checkMove_keeps (s : State) (k c : Nat) (e : CheckEntry) (hs : s.Ok pend) :
    (State.checkMove s k c e).Ok pend := by
  unfold State.checkMove
  try dsimp only
  repeat' first
    | with_reducible assumption | (intro) | with_reducible apply State.checkRead_keeps
    | with_reducible apply State.guardedWrite_keeps | with_reducible apply State.Ok.memWf (pend := pend)
    | with_reducible apply State.Ok.queue | with_reducible apply State.Ok.flashWf (pend := pend)
    | with_reducible apply ite_keeps | with_reducible apply ite_keeps1 | split
    | (simp only [ok_mk]; refine ⟨?_, ?_, ?_⟩)

theorem State.checkEnd_keeps (s : State) (k c : Nat) (abort : Bool) (hs : s.Ok pend) :
    (State.checkEnd s k c abort).Ok pend := by
  unfold State.checkEnd
  try dsimp only
  repeat' first
    | with_reducible assumption | (intro) | with_reducible apply State.put_keeps
    | with_reducible apply State.putFlag_keeps | with_reducible apply State.Ok.memWf (pend := pend)
    | with_reducible apply State.Ok.queue | with_reducible apply State.Ok.flashWf (pend := pend)
    | with_reducible apply ite_keeps | with_reducible apply ite_keeps1 | split
    | (simp only [ok_mk]; refine ⟨?_, ?_, ?_⟩)

theorem State.edgeMove_keeps (s : State) (e : EdgeEntry) (w : WordFrom) (hs : s.Ok pend) :
    (State.edgeMove s e w).Ok pend := by
  unfold State.edgeMove
  try dsimp only
  repeat' first
    | with_reducible assumption | (intro) | with_reducible apply State.checkMove_keeps
    | with_reducible apply State.moveAcc_keeps | with_reducible apply State.moveSector_keeps
    | with_reducible apply State.Ok.memWf (pend := pend) | with_reducible apply State.Ok.queue
    | with_reducible apply State.Ok.flashWf (pend := pend) | split

theorem State.serveEdgeHalf_keeps (s : State) (cl : EdgeClient) (id x : Nat) (hs : s.Ok pend) :
    (State.serveEdgeHalf s cl id x).Ok pend := by
  unfold State.serveEdgeHalf
  try dsimp only
  repeat' first
    | with_reducible assumption | (intro) | with_reducible apply State.cacheServed_keeps
    | with_reducible apply State.edgeMove_keeps | with_reducible apply State.Ok.memWf (pend := pend)
    | with_reducible apply State.Ok.queue | with_reducible apply State.Ok.flashWf (pend := pend)
    | with_reducible apply foldl_keeps | with_reducible apply foldl_keeps1 | with_reducible apply foldl_keeps2
    | with_reducible apply ite_keeps | with_reducible apply ite_keeps1 | split

theorem State.serveEdge_keeps (s : State) (cl : EdgeClient) (id : Nat) (hs : s.Ok pend) :
    (State.serveEdge s cl id).Ok pend := by
  unfold State.serveEdge
  try dsimp only
  repeat' first
    | with_reducible assumption | (intro) | with_reducible apply State.serveEdgeHalf_keeps
    | with_reducible apply State.Ok.memWf (pend := pend) | with_reducible apply State.Ok.queue
    | with_reducible apply State.Ok.flashWf (pend := pend) | with_reducible apply ite_keeps

theorem State.bankVisit_keeps (s : State) (k c : Nat) (hs : s.Ok pend) :
    (State.bankVisit s k c).Ok pend := by
  unfold State.bankVisit
  try dsimp only
  repeat' first
    | with_reducible assumption | (intro) | with_reducible apply State.setRes_keeps
    | with_reducible apply State.Ok.memWf (pend := pend) | with_reducible apply State.Ok.queue
    | with_reducible apply State.Ok.flashWf (pend := pend) | with_reducible apply ite_keeps
    | with_reducible apply ite_keeps1 | split

theorem State.edgeClose_keeps (s : State) (k c x bank : Nat) (hs : s.Ok pend) :
    (State.edgeClose s k c x bank).Ok pend := by
  unfold State.edgeClose
  try dsimp only
  repeat' first
    | with_reducible assumption | (intro) | with_reducible apply State.setRes_keeps

end Sys2Proof.Machine
end

