-- ==== Sys2Proof/Laws/KeepSlots.lean ====
section
/-! SUPPORT. Every operation of `Machine/Slots.lean` leaves the queue and keeps the canonical form of memory
and flash (`State.Ok`). -/

namespace Sys2Proof.Machine

variable {pend : List Instr}

theorem State.modRes_keeps (s : State) (id : Nat) (f : Res → Res) (hs : s.Ok pend) :
    (State.modRes s id f).Ok pend := by
  unfold State.modRes
  try dsimp only
  repeat' first | with_reducible assumption | with_reducible apply State.setRes_keeps

theorem State.loadUnit_keeps (s : State) (t : Nat) (l : PlaneLoad) (unit : Nat) (hs : s.Ok pend) :
    (State.loadUnit s t l unit).Ok pend := by
  unfold State.loadUnit
  try dsimp only
  repeat' first
    | with_reducible assumption | (intro) | with_reducible apply State.modTile_keeps
    | with_reducible apply State.readMem_keeps | with_reducible apply State.zeroLoads_keeps
    | with_reducible apply memWrite_wf | with_reducible apply memZero_wf | with_reducible apply filter_wf
    | with_reducible exact memWf_nil | with_reducible apply State.Ok.memWf (pend := pend)
    | with_reducible apply State.Ok.queue | with_reducible apply State.Ok.flashWf (pend := pend)
    | with_reducible apply ite_keeps

theorem State.reqMove_keeps (s : State) (id : Nat) (w0 : UnitReq) (hs : s.Ok pend) :
    (State.reqMove s id w0).Ok pend := by
  unfold State.reqMove
  try dsimp only
  repeat' first
    | with_reducible assumption | (intro) | with_reducible apply State.loadUnit_keeps
    | with_reducible apply State.moveAcc_keeps | with_reducible apply State.moveSector_keeps
    | with_reducible apply State.Ok.memWf (pend := pend) | with_reducible apply State.Ok.queue
    | with_reducible apply State.Ok.flashWf (pend := pend) | with_reducible apply foldl_keeps
    | with_reducible apply foldl_keeps1 | with_reducible apply foldl_keeps2 | with_reducible apply ite_keeps
    | with_reducible apply ite_keeps1 | split

theorem State.serveNear_keeps (s : State) (id : Nat) (q : UnitReq) (hs : s.Ok pend) :
    (State.serveNear s id q).Ok pend := by
  unfold State.serveNear
  try dsimp only
  repeat' first
    | with_reducible assumption | (intro) | with_reducible apply State.modRes_keeps
    | with_reducible apply State.reqMove_keeps | with_reducible apply State.Ok.memWf (pend := pend)
    | with_reducible apply State.Ok.queue | with_reducible apply State.Ok.flashWf (pend := pend)
    | with_reducible apply ite_keeps

theorem State.setRefr_keeps (s : State) (id m : Nat) (x : Refresh) (hs : s.Ok pend) :
    (State.setRefr s id m x).Ok pend := by
  unfold State.setRefr
  try dsimp only
  repeat' first
    | with_reducible assumption | with_reducible apply State.Ok.memWf (pend := pend)
    | with_reducible apply State.Ok.queue | with_reducible apply State.Ok.flashWf (pend := pend)
    | (simp only [ok_mk]; refine ⟨?_, ?_, ?_⟩)

theorem State.scrubStat_keeps (s : State) (n m : Nat) (hs : s.Ok pend) :
    (State.scrubStat s n m).Ok pend := by
  unfold State.scrubStat
  try dsimp only
  repeat' first
    | with_reducible assumption | (intro) | with_reducible apply State.put_keeps | with_reducible apply foldl_keeps
    | split

theorem State.scrub_keeps (s : State) (id m : Nat) (hs : s.Ok pend) :
    (State.scrub s id m).Ok pend := by
  unfold State.scrub
  try dsimp only
  repeat' first
    | with_reducible assumption | (intro) | with_reducible apply State.count_keeps
    | with_reducible apply State.reportAll_keeps | with_reducible apply State.scrubStat_keeps
    | with_reducible apply State.setRefr_keeps | with_reducible apply State.Ok.memWf (pend := pend)
    | with_reducible apply State.Ok.queue | with_reducible apply State.Ok.flashWf (pend := pend)
    | with_reducible apply foldl_keeps | with_reducible apply foldl_keeps1 | with_reducible apply foldl_keeps2
    | with_reducible apply ite_keeps | with_reducible apply ite_keeps1 | split

theorem State.refreshRun_keeps (s : State) (id : Nat) (hs : s.Ok pend) :
    (State.refreshRun s id).Ok pend := by
  unfold State.refreshRun
  try dsimp only
  repeat' first
    | with_reducible assumption | (intro) | with_reducible apply State.setRefr_keeps
    | with_reducible apply State.scrub_keeps | with_reducible apply foldl_keeps
    | with_reducible apply State.Ok.memWf (pend := pend) | with_reducible apply State.Ok.queue
    | with_reducible apply State.Ok.flashWf (pend := pend) | with_reducible apply ite_keeps

theorem State.debtTick_keeps (s : State) (n k g m : Nat) (hs : s.Ok pend) :
    (State.debtTick s n k g m).Ok pend := by
  unfold State.debtTick
  try dsimp only
  repeat' first
    | with_reducible assumption | with_reducible apply State.count_keeps | with_reducible apply State.report_keeps
    | with_reducible apply State.setRefr_keeps | with_reducible apply State.Ok.memWf (pend := pend)
    | with_reducible apply State.Ok.queue | with_reducible apply State.Ok.flashWf (pend := pend)
    | with_reducible apply ite_keeps

theorem State.reqNoTarget_keeps (s : State) (w0 : UnitReq) (hs : s.Ok pend) :
    (State.reqNoTarget s w0).Ok pend := by
  unfold State.reqNoTarget
  try dsimp only
  repeat' first
    | with_reducible assumption | (intro) | with_reducible apply State.modAcc_keeps
    | with_reducible apply State.modXfer_keeps | with_reducible apply State.Ok.memWf (pend := pend)
    | with_reducible apply State.Ok.queue | with_reducible apply State.Ok.flashWf (pend := pend) | split

theorem State.serveSummit_keeps (s : State) (id : Nat) (q : UnitReq) (hs : s.Ok pend) :
    (State.serveSummit s id q).Ok pend := by
  unfold State.serveSummit
  try dsimp only
  repeat' first
    | with_reducible assumption | (intro) | with_reducible apply State.reqMove_keeps
    | with_reducible apply State.reqNoTarget_keeps | with_reducible apply State.Ok.memWf (pend := pend)
    | with_reducible apply State.Ok.queue | with_reducible apply State.Ok.flashWf (pend := pend)
    | with_reducible apply ite_keeps

theorem State.serveUnit_keeps (s : State) (id : Nat) (q : Option UnitReq) (hs : s.Ok pend) :
    (State.serveUnit s id q).Ok pend := by
  unfold State.serveUnit
  try dsimp only
  repeat' first
    | with_reducible assumption | (intro) | with_reducible apply State.serveNear_keeps
    | with_reducible apply State.serveSummit_keeps | with_reducible apply State.Ok.memWf (pend := pend)
    | with_reducible apply State.Ok.queue | with_reducible apply State.Ok.flashWf (pend := pend)
    | with_reducible apply ite_keeps | with_reducible apply ite_keeps1 | split

theorem State.serveInject_keeps (s : State) (t id : Nat) (hs : s.Ok pend) :
    (State.serveInject s t id).Ok pend := by
  unfold State.serveInject
  try dsimp only
  repeat' first
    | with_reducible assumption | with_reducible apply State.modXfer_keeps | with_reducible apply ite_optOk
    | with_reducible apply ite_optOk1 | with_reducible apply State.Ok.memWf (pend := pend)
    | with_reducible apply State.Ok.queue | with_reducible apply State.Ok.flashWf (pend := pend)
    | with_reducible apply ite_keeps | split

theorem State.portTake_keeps (s : State) (e : Nat) (c : RowCmd) (hs : s.Ok pend) :
    (State.portTake s e c).Ok pend := by
  unfold State.portTake
  try dsimp only
  repeat' first
    | with_reducible assumption | with_reducible apply State.rowComplete_keeps
    | with_reducible apply State.rowAccept_keeps | with_reducible apply ite_keeps

theorem State.servePort_keeps (s : State) (t id : Nat) (hs : s.Ok pend) :
    (State.servePort s t id).Ok pend := by
  unfold State.servePort
  try dsimp only
  repeat' first
    | with_reducible assumption | with_reducible apply State.modXfer_keeps | with_reducible apply ite_optOk
    | with_reducible apply ite_optOk1 | with_reducible apply State.portTake_keeps
    | with_reducible apply State.Ok.memWf (pend := pend) | with_reducible apply State.Ok.queue
    | with_reducible apply State.Ok.flashWf (pend := pend) | with_reducible apply ite_keeps | split

theorem State.serveWinner_keeps (s : State) (w id : Nat) (hs : s.Ok pend) :
    (State.serveWinner s w id).Ok pend := by
  unfold State.serveWinner
  try dsimp only
  repeat' first
    | with_reducible assumption | (intro) | with_reducible apply State.accFlit_keeps
    | with_reducible apply State.modRes_keeps | with_reducible apply State.portTake_keeps
    | with_reducible apply State.serveEdge_keeps | with_reducible apply State.serveUnit_keeps
    | with_reducible apply State.Ok.memWf (pend := pend) | with_reducible apply State.Ok.queue
    | with_reducible apply State.Ok.flashWf (pend := pend) | with_reducible apply ite_keeps
    | with_reducible apply ite_keeps1 | split

theorem State.openSlot_keeps (s : State) (id : Nat) (hs : s.Ok pend) :
    (State.openSlot s id).Ok pend := by
  unfold State.openSlot
  try dsimp only
  repeat' first
    | with_reducible assumption | (intro) | with_reducible apply State.pace_keeps
    | with_reducible apply State.report_keeps | with_reducible apply State.serveWinner_keeps
    | with_reducible apply State.setRes_keeps | with_reducible apply State.Ok.memWf (pend := pend)
    | with_reducible apply State.Ok.queue | with_reducible apply State.Ok.flashWf (pend := pend)
    | with_reducible apply ite_keeps | with_reducible apply ite_keeps1 | split

theorem State.slotPass_keeps (s : State) (id : Nat) (hs : s.Ok pend) :
    (State.slotPass s id).Ok pend := by
  unfold State.slotPass
  try dsimp only
  repeat' first | with_reducible assumption | with_reducible apply State.modRes_keeps

theorem State.serveTile_keeps (s : State) (l id : Nat) (hs : s.Ok pend) :
    (State.serveTile s l id).Ok pend := by
  unfold State.serveTile
  try dsimp only
  repeat' first
    | with_reducible assumption | (intro) | with_reducible apply State.serveInject_keeps
    | with_reducible apply State.servePort_keeps | with_reducible apply State.serveUnit_keeps
    | with_reducible apply State.Ok.memWf (pend := pend) | with_reducible apply State.Ok.queue
    | with_reducible apply State.Ok.flashWf (pend := pend) | with_reducible apply ite_keeps
    | with_reducible apply ite_keeps1 | split

theorem State.serveRun_keeps (s : State) (o id : Nat) (hs : s.Ok pend) :
    (State.serveRun s o id).Ok pend := by
  unfold State.serveRun
  try dsimp only
  repeat' first
    | with_reducible assumption | with_reducible apply State.modRes_keeps
    | with_reducible apply State.refreshRun_keeps | with_reducible apply State.Ok.memWf (pend := pend)
    | with_reducible apply State.Ok.queue | with_reducible apply State.Ok.flashWf (pend := pend)
    | with_reducible apply ite_keeps

theorem State.ownerSlot_keeps (s : State) (id : Nat) (hs : s.Ok pend) :
    (State.ownerSlot s id).Ok pend := by
  unfold State.ownerSlot
  try dsimp only
  repeat' first
    | with_reducible assumption | (intro) | with_reducible apply State.openSlot_keeps
    | with_reducible apply State.serveRun_keeps | with_reducible apply State.serveTile_keeps
    | with_reducible apply State.Ok.memWf (pend := pend) | with_reducible apply State.Ok.queue
    | with_reducible apply State.Ok.flashWf (pend := pend) | with_reducible apply ite_keeps

theorem State.edgeSlot_keeps (s : State) (id : Nat) (hs : s.Ok pend) :
    (State.edgeSlot s id).Ok pend := by
  unfold State.edgeSlot
  try dsimp only
  repeat' first
    | with_reducible assumption | (intro) | with_reducible apply State.bankVisit_keeps
    | with_reducible apply State.checkFill_keeps | with_reducible apply State.count_keeps
    | with_reducible apply State.openSlot_keeps | with_reducible apply State.serveEdge_keeps
    | with_reducible apply State.Ok.memWf (pend := pend) | with_reducible apply State.Ok.queue
    | with_reducible apply State.Ok.flashWf (pend := pend) | with_reducible apply ite_keeps
    | with_reducible apply ite_keeps1 | split

theorem State.oneSlot_keeps (s : State) (id : Nat) (hs : s.Ok pend) :
    (State.oneSlot s id).Ok pend := by
  unfold State.oneSlot
  try dsimp only
  repeat' first
    | with_reducible assumption | (intro) | with_reducible apply State.edgeSlot_keeps
    | with_reducible apply State.ownerSlot_keeps | with_reducible apply State.slotPass_keeps
    | with_reducible apply State.Ok.memWf (pend := pend) | with_reducible apply State.Ok.queue
    | with_reducible apply State.Ok.flashWf (pend := pend) | with_reducible apply ite_keeps

theorem State.catchUp_keeps (s : State) (b e n : Nat) (hs : s.Ok pend) :
    (State.catchUp s b e n).Ok pend := by
  unfold State.catchUp
  try dsimp only
  repeat' first
    | with_reducible assumption | (intro) | with_reducible apply State.oneSlot_keeps
    | with_reducible apply State.Ok.memWf (pend := pend) | with_reducible apply State.Ok.queue
    | with_reducible apply State.Ok.flashWf (pend := pend) | with_reducible apply foldl_keeps
    | with_reducible apply foldl_keeps1 | with_reducible apply foldl_keeps2 | with_reducible apply ite_keeps

theorem State.channelSlot_keeps (s : State) (id : Nat) (hs : s.Ok pend) :
    (State.channelSlot s id).Ok pend := by
  unfold State.channelSlot
  try dsimp only
  repeat' first
    | with_reducible assumption | (intro) | with_reducible apply State.catchUp_keeps
    | with_reducible apply State.oneSlot_keeps | with_reducible apply State.Ok.memWf (pend := pend)
    | with_reducible apply State.Ok.queue | with_reducible apply State.Ok.flashWf (pend := pend)
    | with_reducible apply ite_keeps | with_reducible apply ite_keeps1 | split
    | (simp only [ok_mk]; refine ⟨?_, ?_, ?_⟩)

theorem State.calendarSlot_keeps (s : State) (id : Nat) (hs : s.Ok pend) :
    (State.calendarSlot s id).Ok pend := by
  unfold State.calendarSlot
  try dsimp only
  repeat' first
    | with_reducible assumption | (intro) | with_reducible apply State.channelSlot_keeps
    | with_reducible apply State.oneSlot_keeps | with_reducible apply State.Ok.memWf (pend := pend)
    | with_reducible apply State.Ok.queue | with_reducible apply State.Ok.flashWf (pend := pend)
    | with_reducible apply ite_keeps

theorem State.refuseQueued_keeps (s : State) (id : Nat) (c : Calendar) (hs : s.Ok pend) :
    (State.refuseQueued s id c).Ok pend := by
  unfold State.refuseQueued
  try dsimp only
  repeat' first
    | with_reducible assumption | (intro) | with_reducible apply State.modRes_keeps
    | with_reducible apply State.rowReply_keeps | with_reducible apply State.Ok.memWf (pend := pend)
    | with_reducible apply State.Ok.queue | with_reducible apply State.Ok.flashWf (pend := pend)
    | with_reducible apply foldl_keeps | with_reducible apply foldl_keeps1 | with_reducible apply foldl_keeps2
    | with_reducible apply ite_keeps | with_reducible apply ite_keeps1 | split
    | (simp only [ok_mk]; refine ⟨?_, ?_, ?_⟩)

theorem State.resSwitch_keeps (s : State) (id : Nat) (hs : s.Ok pend) :
    (State.resSwitch s id).Ok pend := by
  unfold State.resSwitch
  try dsimp only
  repeat' first
    | with_reducible assumption | (intro) | with_reducible apply State.refuseQueued_keeps
    | with_reducible apply State.setRes_keeps | with_reducible apply State.switchedOne_keeps
    | with_reducible apply State.Ok.memWf (pend := pend) | with_reducible apply State.Ok.queue
    | with_reducible apply State.Ok.flashWf (pend := pend) | with_reducible apply ite_keeps
    | with_reducible apply ite_keeps1 | split

theorem State.clrLate_keeps (s : State) (n m : Nat) (hs : s.Ok pend) :
    (State.clrLate s n m).Ok pend := by
  unfold State.clrLate
  try dsimp only
  repeat' first | with_reducible assumption | with_reducible apply State.put_keeps

theorem State.clrScrub_keeps (s : State) (n m : Nat) (hs : s.Ok pend) :
    (State.clrScrub s n m).Ok pend := by
  unfold State.clrScrub
  try dsimp only
  repeat' first
    | with_reducible assumption | with_reducible apply State.put_keeps
    | with_reducible apply State.Ok.memWf (pend := pend) | with_reducible apply State.Ok.queue
    | with_reducible apply State.Ok.flashWf (pend := pend) | with_reducible apply ite_keeps | split
    | (simp only [ok_mk]; refine ⟨?_, ?_, ?_⟩)

theorem State.summitMode_keeps (s : State) (b r v : Nat) (hs : s.Ok pend) :
    (State.summitMode s b r v).Ok pend := by
  unfold State.summitMode
  try dsimp only
  repeat' first
    | with_reducible assumption | with_reducible apply State.zeroRange_keeps | with_reducible apply State.put_keeps
    | with_reducible apply State.Ok.memWf (pend := pend) | with_reducible apply State.Ok.queue
    | with_reducible apply State.Ok.flashWf (pend := pend) | with_reducible apply ite_keeps
    | with_reducible apply ite_keeps1 | split | (simp only [ok_mk]; refine ⟨?_, ?_, ?_⟩)

theorem State.emcEnabled_keeps (s : State) (k : Nat) (hs : s.Ok pend) :
    (State.emcEnabled s k).Ok pend := by
  unfold State.emcEnabled
  try dsimp only
  repeat' first
    | with_reducible assumption | (intro) | with_reducible apply State.putFlag_keeps
    | with_reducible apply State.checkEnd_keeps | with_reducible apply foldl_keeps | with_reducible apply ite_keeps

theorem State.checkStart_keeps (s : State) (k c : Nat) (hs : s.Ok pend) :
    (State.checkStart s k c).Ok pend := by
  unfold State.checkStart
  try dsimp only
  repeat' first
    | with_reducible assumption | (intro) | with_reducible apply State.put_keeps | with_reducible apply foldl_keeps
    | with_reducible apply State.Ok.memWf (pend := pend) | with_reducible apply State.Ok.queue
    | with_reducible apply State.Ok.flashWf (pend := pend) | with_reducible apply ite_keeps | split
    | (simp only [ok_mk]; refine ⟨?_, ?_, ?_⟩)

theorem State.checkStop_keeps (s : State) (k c : Nat) (hs : s.Ok pend) :
    (State.checkStop s k c).Ok pend := by
  unfold State.checkStop
  try dsimp only
  repeat' first
    | with_reducible assumption | (intro) | with_reducible apply State.checkEnd_keeps
    | with_reducible apply State.Ok.memWf (pend := pend) | with_reducible apply State.Ok.queue
    | with_reducible apply State.Ok.flashWf (pend := pend) | with_reducible apply ite_keeps
    | with_reducible apply ite_keeps1 | split | (simp only [ok_mk]; refine ⟨?_, ?_, ?_⟩)

theorem State.checkDone_keeps (s : State) (k c : Nat) (hs : s.Ok pend) :
    (State.checkDone s k c).Ok pend := by
  unfold State.checkDone
  try dsimp only
  repeat' first
    | with_reducible assumption | with_reducible apply State.checkEnd_keeps | with_reducible apply ite_optOk
    | with_reducible apply ite_optOk1 | with_reducible apply ite_keeps | with_reducible apply ite_keeps1 | split

end Sys2Proof.Machine
end

