-- ==== Sys2Proof/Laws/KeepNetwork.lean ====
section
/-! SUPPORT. Every operation of `Machine/Network.lean` leaves the queue and keeps the canonical form of memory
and flash (`State.Ok`). -/

namespace Sys2Proof.Machine

variable {pend : List Instr}

theorem State.setLink_keeps (s : State) (i : Nat) (x : Link) (hs : s.Ok pend) :
    (State.setLink s i x).Ok pend := by
  unfold State.setLink
  try dsimp only
  repeat' first
    | with_reducible assumption | with_reducible apply State.Ok.memWf (pend := pend)
    | with_reducible apply State.Ok.queue | with_reducible apply State.Ok.flashWf (pend := pend)
    | (simp only [ok_mk]; refine ⟨?_, ?_, ?_⟩)

theorem State.linkSend_keeps (s : State) (i : Nat) (hs : s.Ok pend) :
    (State.linkSend s i).Ok pend := by
  unfold State.linkSend
  try dsimp only
  repeat' first
    | with_reducible assumption | with_reducible apply State.emit_keeps | with_reducible apply State.setLink_keeps
    | with_reducible apply State.Ok.memWf (pend := pend) | with_reducible apply State.Ok.queue
    | with_reducible apply State.Ok.flashWf (pend := pend) | with_reducible apply ite_keeps | split

theorem State.linkPump_keeps (s : State) (i : Nat) (hs : s.Ok pend) :
    (State.linkPump s i).Ok pend := by
  unfold State.linkPump
  try dsimp only
  repeat' first
    | with_reducible assumption | (intro) | with_reducible apply State.linkSend_keeps
    | with_reducible apply foldl_keeps

theorem State.linkPacket_keeps (s : State) (i inp cls : Nat) (flits : List (List Byte)) (hs : s.Ok pend) :
    (State.linkPacket s i inp cls flits).Ok pend := by
  unfold State.linkPacket
  try dsimp only
  repeat' first
    | with_reducible assumption | (intro) | with_reducible apply State.linkPump_keeps
    | with_reducible apply State.setLink_keeps

theorem State.linkResend_keeps (s : State) (i : Nat) (hs : s.Ok pend) :
    (State.linkResend s i).Ok pend := by
  unfold State.linkResend
  try dsimp only
  repeat' first
    | with_reducible assumption | (intro) | with_reducible apply State.count_keeps
    | with_reducible apply State.emit_keeps | with_reducible apply foldl_keeps | with_reducible apply foldl_keeps2
    | with_reducible apply ite_keeps

theorem State.linkLost_keeps (s : State) (i : Nat) (hs : s.Ok pend) :
    (State.linkLost s i).Ok pend := by
  unfold State.linkLost
  try dsimp only
  repeat' first
    | with_reducible assumption | (intro) | with_reducible apply State.report_keeps
    | with_reducible apply State.setLink_keeps | with_reducible apply State.Ok.memWf (pend := pend)
    | with_reducible apply State.Ok.queue | with_reducible apply State.Ok.flashWf (pend := pend)
    | with_reducible apply foldl_keeps | with_reducible apply foldl_keeps1 | with_reducible apply foldl_keeps2
    | split | (simp only [ok_mk]; refine ⟨?_, ?_, ?_⟩)

theorem State.seamDegraded_keeps (s : State) (sm : Nat) (hs : s.Ok pend) :
    (State.seamDegraded s sm).Ok pend := by
  unfold State.seamDegraded
  try dsimp only
  repeat' first | with_reducible assumption | with_reducible apply State.putFlag_keeps

theorem State.holdDrop_keeps (s : State) (n y : Nat) (hs : s.Ok pend) :
    (State.holdDrop s n y).Ok pend := by
  unfold State.holdDrop
  try dsimp only
  repeat' first
    | with_reducible assumption | with_reducible apply State.put_keeps | with_reducible apply State.putFlag_keeps
    | with_reducible apply State.linkLost_keeps

theorem State.sendTraining_keeps (s : State) (sm l : Nat) (hs : s.Ok pend) :
    (State.sendTraining s sm l).Ok pend := by
  unfold State.sendTraining
  try dsimp only
  repeat' first
    | with_reducible assumption | (intro) | with_reducible apply State.emit_keeps
    | with_reducible apply State.Ok.memWf (pend := pend) | with_reducible apply State.Ok.queue
    | with_reducible apply State.Ok.flashWf (pend := pend) | with_reducible apply foldl_keeps

theorem State.seamTrain_keeps (s : State) (sm l : Nat) (hs : s.Ok pend) :
    (State.seamTrain s sm l).Ok pend := by
  unfold State.seamTrain
  try dsimp only
  repeat' first
    | with_reducible assumption | (intro) | with_reducible apply State.count_keeps
    | with_reducible apply State.put_keeps | with_reducible apply State.seamDegraded_keeps
    | with_reducible apply State.sendTraining_keeps

theorem State.seamRetrain_keeps (s : State) (sm l : Nat) (hs : s.Ok pend) :
    (State.seamRetrain s sm l).Ok pend := by
  unfold State.seamRetrain
  try dsimp only
  repeat' first
    | with_reducible assumption | (intro) | with_reducible apply State.seamTrain_keeps
    | with_reducible apply State.Ok.memWf (pend := pend) | with_reducible apply State.Ok.queue
    | with_reducible apply State.Ok.flashWf (pend := pend) | with_reducible apply ite_keeps

theorem State.seamFail_keeps (s : State) (sm l : Nat) (hs : s.Ok pend) :
    (State.seamFail s sm l).Ok pend := by
  unfold State.seamFail
  try dsimp only
  repeat' first
    | with_reducible assumption | (intro) | with_reducible apply State.linkLost_keeps
    | with_reducible apply State.put_keeps | with_reducible apply State.seamDegraded_keeps
    | with_reducible apply State.sendTraining_keeps | with_reducible apply State.Ok.memWf (pend := pend)
    | with_reducible apply State.Ok.queue | with_reducible apply State.Ok.flashWf (pend := pend)
    | with_reducible apply foldl_keeps | with_reducible apply foldl_keeps1 | with_reducible apply foldl_keeps2
    | with_reducible apply ite_keeps

theorem State.linkRetrain_keeps (s : State) (i : Nat) (hs : s.Ok pend) :
    (State.linkRetrain s i).Ok pend := by
  unfold State.linkRetrain
  try dsimp only
  repeat' first
    | with_reducible assumption | (intro) | with_reducible apply State.free_keeps
    | with_reducible apply State.holdDrop_keeps | with_reducible apply State.linkResend_keeps
    | with_reducible apply State.seamRetrain_keeps | with_reducible apply State.Ok.memWf (pend := pend)
    | with_reducible apply State.Ok.queue | with_reducible apply State.Ok.flashWf (pend := pend)
    | with_reducible apply ite_keeps

theorem State.linkAck_keeps (s : State) (i ack : Nat) (hs : s.Ok pend) :
    (State.linkAck s i ack).Ok pend := by
  unfold State.linkAck
  try dsimp only
  repeat' first
    | with_reducible assumption | with_reducible apply State.setLink_keeps | with_reducible apply ite_optOk
    | with_reducible apply ite_optOk1 | with_reducible apply State.linkPump_keeps
    | with_reducible apply State.Ok.memWf (pend := pend) | with_reducible apply State.Ok.queue
    | with_reducible apply State.Ok.flashWf (pend := pend) | split

theorem State.linkNak_keeps (s : State) (i ack : Nat) (hs : s.Ok pend) :
    (State.linkNak s i ack).Ok pend := by
  unfold State.linkNak
  try dsimp only
  repeat' first
    | with_reducible assumption | with_reducible apply State.setLink_keeps
    | with_reducible apply State.linkResend_keeps | with_reducible apply State.linkRetrain_keeps
    | with_reducible apply State.linkAck_keeps | with_reducible apply State.Ok.memWf (pend := pend)
    | with_reducible apply State.Ok.queue | with_reducible apply State.Ok.flashWf (pend := pend)
    | with_reducible apply ite_keeps

theorem State.sendNak_keeps (s : State) (i : Nat) (hs : s.Ok pend) :
    (State.sendNak s i).Ok pend := by
  unfold State.sendNak
  try dsimp only
  repeat' first | with_reducible assumption | with_reducible apply State.emit_keeps

theorem State.hop_keeps (s : State) (r dir cls src : Nat) (flits : List (List Byte)) (hs : s.Ok pend) :
    (State.hop s r dir cls src flits).Ok pend := by
  unfold State.hop
  try dsimp only
  repeat' first
    | with_reducible assumption | (intro) | with_reducible apply State.emit_keeps

theorem State.stall_keeps (s : State) (r : Nat) (flits : List (List Byte)) (hs : s.Ok pend) :
    (State.stall s r flits).Ok pend := by
  unfold State.stall
  try dsimp only
  repeat' first
    | with_reducible assumption | (intro) | with_reducible apply State.Ok.memWf (pend := pend)
    | with_reducible apply State.Ok.queue | with_reducible apply State.Ok.flashWf (pend := pend) | split
    | (simp only [ok_mk]; refine ⟨?_, ?_, ?_⟩)

theorem State.dropHead_keeps (s : State) (r reason : Nat) (hs : s.Ok pend) :
    (State.dropHead s r reason).Ok pend := by
  unfold State.dropHead
  try dsimp only
  repeat' first
    | with_reducible assumption | with_reducible apply State.count_keeps | with_reducible apply State.report_keeps
    | with_reducible apply ite_keeps

theorem State.leaveTile_keeps (s : State) (r inp src : Nat) (flits : List (List Byte)) (cls dir : Nat) (detour :
    Bool) (hs : s.Ok pend) :
    (State.leaveTile s r inp src flits cls dir detour).Ok pend := by
  unfold State.leaveTile
  try dsimp only
  repeat' first
    | with_reducible assumption | (intro) | with_reducible apply State.hop_keeps
    | with_reducible apply State.linkPacket_keeps | with_reducible apply State.Ok.memWf (pend := pend)
    | with_reducible apply State.Ok.queue | with_reducible apply State.Ok.flashWf (pend := pend)
    | with_reducible apply ite_keeps

theorem State.routeTile_keeps (s : State) (r inp : Nat) (d : List Byte) (flits : List (List Byte)) (cls dir : Nat)
    (detour : Bool) (hs : s.Ok pend) :
    (State.routeTile s r inp d flits cls dir detour).Ok pend := by
  unfold State.routeTile
  try dsimp only
  repeat' first
    | with_reducible assumption | (intro) | with_reducible apply State.leaveTile_keeps
    | with_reducible apply State.Ok.memWf (pend := pend) | with_reducible apply State.Ok.queue
    | with_reducible apply State.Ok.flashWf (pend := pend) | with_reducible apply ite_keeps
    | with_reducible apply ite_keeps1 | split | (simp only [ok_mk]; refine ⟨?_, ?_, ?_⟩)

theorem State.countDownDrop_keeps (s : State) (n : Nat) (hs : s.Ok pend) :
    (State.countDownDrop s n).Ok pend := by
  unfold State.countDownDrop
  try dsimp only
  repeat' first
    | with_reducible assumption | (intro) | with_reducible apply State.count_keeps
    | with_reducible apply State.Ok.memWf (pend := pend) | with_reducible apply State.Ok.queue
    | with_reducible apply State.Ok.flashWf (pend := pend) | with_reducible apply ite_keeps

theorem State.leavePort_keeps (s : State) (r inp src : Nat) (flits : List (List Byte)) (cls port : Nat) (hs : s.Ok
    pend) :
    (State.leavePort s r inp src flits cls port).Ok pend := by
  unfold State.leavePort
  try dsimp only
  repeat' first
    | with_reducible assumption | (intro) | with_reducible apply State.countDownDrop_keeps
    | with_reducible apply State.hop_keeps | with_reducible apply State.linkPacket_keeps
    | with_reducible apply State.sendFabric_keeps | with_reducible apply State.stall_keeps
    | with_reducible apply State.Ok.memWf (pend := pend) | with_reducible apply State.Ok.queue
    | with_reducible apply State.Ok.flashWf (pend := pend) | with_reducible apply ite_keeps
    | with_reducible apply ite_keeps1 | split

theorem State.leaveBase_keeps (s : State) (r inp src : Nat) (flits : List (List Byte)) (cls : Nat) (w : Way) (hs :
    s.Ok pend) :
    (State.leaveBase s r inp src flits cls w).Ok pend := by
  unfold State.leaveBase
  try dsimp only
  repeat' first
    | with_reducible assumption | (intro) | with_reducible apply State.hop_keeps
    | with_reducible apply State.leavePort_keeps | with_reducible apply State.linkPacket_keeps
    | with_reducible apply State.stall_keeps | with_reducible apply State.Ok.memWf (pend := pend)
    | with_reducible apply State.Ok.queue | with_reducible apply State.Ok.flashWf (pend := pend)
    | with_reducible apply ite_keeps | with_reducible apply ite_keeps1 | split

theorem State.answerDown_keeps (s : State) (r : Nat) (d : List Byte) (hs : s.Ok pend) :
    (State.answerDown s r d).Ok pend := by
  unfold State.answerDown
  try dsimp only
  repeat' first
    | with_reducible assumption | (intro) | with_reducible apply State.leaveBase_keeps

theorem State.routeBase_keeps (s : State) (r inp : Nat) (d : List Byte) (flits : List (List Byte)) (cls : Nat) (w :
    Way) (hs : s.Ok pend) :
    (State.routeBase s r inp d flits cls w).Ok pend := by
  unfold State.routeBase
  try dsimp only
  repeat' first
    | with_reducible assumption | (intro) | with_reducible apply State.answerDown_keeps
    | with_reducible apply State.countDownDrop_keeps | with_reducible apply State.leaveBase_keeps
    | with_reducible apply State.Ok.memWf (pend := pend) | with_reducible apply State.Ok.queue
    | with_reducible apply State.Ok.flashWf (pend := pend) | with_reducible apply ite_keeps
    | with_reducible apply ite_keeps1 | split

theorem State.routePacket_keeps (s : State) (r inp : Nat) (head : List Byte) (body : List (List Byte)) (hs : s.Ok
    pend) :
    (State.routePacket s r inp head body).Ok pend := by
  unfold State.routePacket
  try dsimp only
  repeat' first
    | with_reducible assumption | (intro) | with_reducible apply State.dropHead_keeps
    | with_reducible apply State.routeBase_keeps | with_reducible apply State.routeTile_keeps
    | with_reducible apply State.Ok.memWf (pend := pend) | with_reducible apply State.Ok.queue
    | with_reducible apply State.Ok.flashWf (pend := pend) | with_reducible apply foldl_keeps
    | with_reducible apply foldl_keeps1 | with_reducible apply foldl_keeps2 | with_reducible apply ite_keeps
    | with_reducible apply ite_keeps1 | split

theorem State.rerun_keeps (s : State) (l : List (Nat × List (List Byte))) (hs : s.Ok pend) :
    (State.rerun s l).Ok pend := by
  unfold State.rerun
  try dsimp only
  repeat' first
    | with_reducible assumption | (intro) | with_reducible apply State.routePacket_keeps
    | with_reducible apply State.Ok.memWf (pend := pend) | with_reducible apply State.Ok.queue
    | with_reducible apply State.Ok.flashWf (pend := pend) | with_reducible apply foldl_keeps

theorem State.rerunStalled_keeps (s : State) (hs : s.Ok pend) :
    (State.rerunStalled s).Ok pend := by
  unfold State.rerunStalled
  try dsimp only
  repeat' first
    | with_reducible assumption | (intro) | with_reducible apply State.rerun_keeps
    | with_reducible apply State.Ok.memWf (pend := pend) | with_reducible apply State.Ok.queue
    | with_reducible apply State.Ok.flashWf (pend := pend) | split | (simp only [ok_mk]; refine ⟨?_, ?_, ?_⟩)

theorem State.linkTake_keeps (s : State) (i owner : Nat) (f : List Byte) (hs : s.Ok pend) :
    (State.linkTake s i owner f).Ok pend := by
  unfold State.linkTake
  try dsimp only
  repeat' first
    | with_reducible assumption | (intro) | with_reducible apply State.routePacket_keeps
    | with_reducible apply State.setLink_keeps | with_reducible apply State.Ok.memWf (pend := pend)
    | with_reducible apply State.Ok.queue | with_reducible apply State.Ok.flashWf (pend := pend)
    | with_reducible apply ite_keeps

theorem State.linkFrame_keeps (s : State) (i owner : Nat) (f : List Byte) (hs : s.Ok pend) :
    (State.linkFrame s i owner f).Ok pend := by
  unfold State.linkFrame
  try dsimp only
  repeat' first
    | with_reducible assumption | (intro) | with_reducible apply State.linkAck_keeps
    | with_reducible apply State.linkNak_keeps | with_reducible apply State.linkTake_keeps
    | with_reducible apply State.report_keeps | with_reducible apply State.seamRetrain_keeps
    | with_reducible apply State.sendNak_keeps | with_reducible apply State.setLink_keeps
    | with_reducible apply State.Ok.memWf (pend := pend) | with_reducible apply State.Ok.queue
    | with_reducible apply State.Ok.flashWf (pend := pend) | with_reducible apply ite_keeps

theorem State.rewriteRoutes_keeps (s : State) (b : Nat) (hs : s.Ok pend) :
    (State.rewriteRoutes s b).Ok pend := by
  unfold State.rewriteRoutes
  try dsimp only
  repeat' first
    | with_reducible assumption | with_reducible apply State.putFlag_keeps
    | with_reducible apply State.wrapCount_keeps | with_reducible apply State.rerun_keeps
    | with_reducible apply State.Ok.memWf (pend := pend) | with_reducible apply State.Ok.queue
    | with_reducible apply State.Ok.flashWf (pend := pend) | with_reducible apply ite_keeps
    | with_reducible apply ite_keeps1 | split | (simp only [ok_mk]; refine ⟨?_, ?_, ?_⟩)

theorem State.dropStalled_keeps (s : State) (b : Nat) (hs : s.Ok pend) :
    (State.dropStalled s b).Ok pend := by
  unfold State.dropStalled
  try dsimp only
  repeat' first
    | with_reducible assumption | with_reducible apply State.count_keeps | with_reducible apply State.report_keeps
    | with_reducible apply State.Ok.memWf (pend := pend) | with_reducible apply State.Ok.queue
    | with_reducible apply State.Ok.flashWf (pend := pend) | with_reducible apply ite_keeps
    | with_reducible apply ite_keeps1 | split | (simp only [ok_mk]; refine ⟨?_, ?_, ?_⟩)

theorem State.seamProposals_keeps (s : State) (sm l p0 p1 : Nat) (hs : s.Ok pend) :
    (State.seamProposals s sm l p0 p1).Ok pend := by
  unfold State.seamProposals
  try dsimp only
  repeat' first
    | with_reducible assumption | with_reducible apply State.put_keeps | with_reducible apply State.report_keeps
    | with_reducible apply State.seamDegraded_keeps | with_reducible apply State.seamFail_keeps
    | with_reducible apply ite_keeps

theorem State.seamTested_keeps (s : State) (sm l : Nat) (hs : s.Ok pend) :
    (State.seamTested s sm l).Ok pend := by
  unfold State.seamTested
  try dsimp only
  repeat' first
    | with_reducible assumption | (intro) | with_reducible apply State.linkResend_keeps
    | with_reducible apply State.put_keeps | with_reducible apply State.rerunStalled_keeps
    | with_reducible apply State.Ok.memWf (pend := pend) | with_reducible apply State.Ok.queue
    | with_reducible apply State.Ok.flashWf (pend := pend) | with_reducible apply foldl_keeps
    | with_reducible apply foldl_keeps1 | with_reducible apply foldl_keeps2 | with_reducible apply ite_keeps

theorem State.seamTimeout_keeps (s : State) (sm l : Nat) (hs : s.Ok pend) :
    (State.seamTimeout s sm l).Ok pend := by
  unfold State.seamTimeout
  try dsimp only
  repeat' first
    | with_reducible assumption | with_reducible apply State.seamFail_keeps | with_reducible apply ite_keeps

theorem State.seamRetrains_keeps (s : State) (sm mask : Nat) (hs : s.Ok pend) :
    (State.seamRetrains s sm mask).Ok pend := by
  unfold State.seamRetrains
  try dsimp only
  repeat' first
    | with_reducible assumption | (intro) | with_reducible apply State.seamTrain_keeps
    | with_reducible apply foldl_keeps | with_reducible apply ite_keeps

theorem State.tileLost_keeps (s : State) (t : Nat) (hs : s.Ok pend) :
    (State.tileLost s t).Ok pend := by
  unfold State.tileLost
  try dsimp only
  repeat' first
    | with_reducible assumption | with_reducible apply State.zeroRange_keeps | with_reducible apply ite_optOk
    | with_reducible apply ite_optOk1 | with_reducible apply State.put_keeps
    | with_reducible apply State.setTile_keeps | with_reducible apply State.setArr_keeps
    | with_reducible apply State.Ok.memWf (pend := pend) | with_reducible apply State.Ok.queue
    | with_reducible apply State.Ok.flashWf (pend := pend) | with_reducible apply ite_keeps | split

theorem State.setQuarters_keeps (s : State) (n v : Nat) (hs : s.Ok pend) :
    (State.setQuarters s n v).Ok pend := by
  unfold State.setQuarters
  try dsimp only
  repeat' first
    | with_reducible assumption | (intro) | with_reducible apply State.put_keeps | with_reducible apply foldl_keeps

theorem State.turnBack_keeps (s : State) (n r : Nat) (flits : List (List Byte)) (hs : s.Ok pend) :
    (State.turnBack s n r flits).Ok pend := by
  unfold State.turnBack
  try dsimp only
  repeat' first
    | with_reducible assumption | (intro) | with_reducible apply State.answerDown_keeps
    | with_reducible apply State.countDownDrop_keeps | with_reducible apply State.Ok.memWf (pend := pend)
    | with_reducible apply State.Ok.queue | with_reducible apply State.Ok.flashWf (pend := pend)
    | with_reducible apply ite_keeps

theorem State.prstBegin_keeps (s : State) (n : Nat) (hs : s.Ok pend) :
    (State.prstBegin s n).Ok pend := by
  unfold State.prstBegin
  try dsimp only
  repeat' first
    | with_reducible assumption | (intro) | with_reducible apply State.put_keeps
    | with_reducible apply State.setLink_keeps | with_reducible apply State.turnBack_keeps
    | with_reducible apply State.Ok.memWf (pend := pend) | with_reducible apply State.Ok.queue
    | with_reducible apply State.Ok.flashWf (pend := pend) | with_reducible apply foldl_keeps
    | with_reducible apply foldl_keeps1 | with_reducible apply foldl_keeps2 | with_reducible apply ite_keeps

theorem State.accsDown_keeps (s : State) (n : Nat) (hs : s.Ok pend) :
    (State.accsDown s n).Ok pend := by
  unfold State.accsDown
  try dsimp only
  repeat' first
    | with_reducible assumption | (intro) | with_reducible apply State.Ok.memWf (pend := pend)
    | with_reducible apply State.Ok.queue | with_reducible apply State.Ok.flashWf (pend := pend)
    | with_reducible apply ite_keeps | with_reducible apply ite_keeps1 | split
    | (simp only [ok_mk]; refine ⟨?_, ?_, ?_⟩)

theorem State.cutDrop_keeps (s : State) (n y : Nat) (hs : s.Ok pend) :
    (State.cutDrop s n y).Ok pend := by
  unfold State.cutDrop
  try dsimp only
  repeat' first
    | with_reducible assumption | (intro) | with_reducible apply State.setLink_keeps
    | with_reducible apply State.turnBack_keeps | with_reducible apply State.Ok.memWf (pend := pend)
    | with_reducible apply State.Ok.queue | with_reducible apply State.Ok.flashWf (pend := pend)
    | with_reducible apply foldl_keeps

theorem State.prstDrained_keeps (s : State) (n : Nat) (hs : s.Ok pend) :
    (State.prstDrained s n).Ok pend := by
  unfold State.prstDrained
  try dsimp only
  repeat' first
    | with_reducible assumption | (intro) | with_reducible apply State.accsDown_keeps
    | with_reducible apply State.cutDrop_keeps | with_reducible apply State.modTile_keeps
    | with_reducible apply State.put_keeps | with_reducible apply State.rowCut_keeps
    | with_reducible apply State.rowReply_keeps | with_reducible apply State.setQuarters_keeps
    | with_reducible apply State.setRes_keeps | with_reducible apply State.tileLost_keeps
    | with_reducible apply State.Ok.memWf (pend := pend) | with_reducible apply State.Ok.queue
    | with_reducible apply State.Ok.flashWf (pend := pend) | with_reducible apply foldl_keeps
    | with_reducible apply foldl_keeps1 | with_reducible apply foldl_keeps2 | with_reducible apply ite_keeps
    | with_reducible apply ite_keeps1 | split | (simp only [ok_mk]; refine ⟨?_, ?_, ?_⟩)

theorem State.pageReset_keeps (s : State) (p : PageRef) (hs : s.Ok pend) :
    (State.pageReset s p).Ok pend := by
  unfold State.pageReset
  try dsimp only
  repeat' first
    | with_reducible assumption | with_reducible apply State.put_keeps | with_reducible apply State.clearPage_keeps

theorem State.prstFree_keeps (s : State) (n : Nat) (hs : s.Ok pend) :
    (State.prstFree s n).Ok pend := by
  unfold State.prstFree
  try dsimp only
  repeat' first
    | with_reducible assumption | (intro) | with_reducible apply State.pageReset_keeps
    | with_reducible apply State.put_keeps | with_reducible apply State.resetArb_keeps
    | with_reducible apply State.setLink_keeps | with_reducible apply State.setQuarters_keeps
    | with_reducible apply State.Ok.memWf (pend := pend) | with_reducible apply State.Ok.queue
    | with_reducible apply State.Ok.flashWf (pend := pend) | with_reducible apply foldl_keeps
    | with_reducible apply foldl_keeps1 | with_reducible apply foldl_keeps2 | with_reducible apply ite_keeps

theorem State.prstFreed_keeps (s : State) (n failed : Nat) (hs : s.Ok pend) :
    (State.prstFreed s n failed).Ok pend := by
  unfold State.prstFreed
  try dsimp only
  repeat' first
    | with_reducible assumption | (intro) | with_reducible apply State.count_keeps
    | with_reducible apply State.put_keeps | with_reducible apply State.putFlag_keeps
    | with_reducible apply State.rerunStalled_keeps | with_reducible apply State.Ok.memWf (pend := pend)
    | with_reducible apply State.Ok.queue | with_reducible apply State.Ok.flashWf (pend := pend)
    | with_reducible apply ite_keeps

theorem State.deliver_keeps (s : State) (t k : Nat) (hs : s.Ok pend) :
    (State.deliver s t k).Ok pend := by
  unfold State.deliver
  try dsimp only
  repeat' first
    | with_reducible assumption | with_reducible apply State.modTile_keeps | with_reducible apply ite_optOk
    | with_reducible apply ite_optOk1 | with_reducible apply State.downDrop_keeps
    | with_reducible apply State.storeWords_keeps | with_reducible apply State.gather_keeps
    | with_reducible apply State.Ok.memWf (pend := pend) | with_reducible apply State.Ok.queue
    | with_reducible apply State.Ok.flashWf (pend := pend) | with_reducible apply ite_keeps
    | with_reducible apply ite_keeps1 | split

end Sys2Proof.Machine
end

