-- ==== Sys2Proof/Laws/KeepReductions.lean ====
section
/-! SUPPORT. Every operation of `Machine/Reductions.lean` leaves the queue and keeps the canonical form of memory
and flash (`State.Ok`). -/

namespace Sys2Proof.Machine

variable {pend : List Instr}

theorem State.setRound_keeps (s : State) (g : Nat) (r : Round) (hs : s.Ok pend) :
    (State.setRound s g r).Ok pend := by
  unfold State.setRound
  try dsimp only
  repeat' first
    | with_reducible assumption | with_reducible apply State.Ok.memWf (pend := pend)
    | with_reducible apply State.Ok.queue | with_reducible apply State.Ok.flashWf (pend := pend)
    | (simp only [ok_mk]; refine ⟨?_, ?_, ?_⟩)

theorem State.groupLoad_keeps (s : State) (hs : s.Ok pend) :
    (State.groupLoad s).Ok pend := by
  unfold State.groupLoad
  try dsimp only
  repeat' first
    | with_reducible assumption | with_reducible apply State.putFlag_keeps | with_reducible apply ite_optOk
    | with_reducible apply ite_optOk1 | with_reducible apply State.Ok.memWf (pend := pend)
    | with_reducible apply State.Ok.queue | with_reducible apply State.Ok.flashWf (pend := pend)
    | with_reducible apply ite_keeps | split | (simp only [ok_mk]; refine ⟨?_, ?_, ?_⟩)

theorem State.groupTake_keeps (s : State) (img : List Byte) (hs : s.Ok pend) :
    (State.groupTake s img).Ok pend := by
  unfold State.groupTake
  try dsimp only
  repeat' first
    | with_reducible assumption | (intro) | with_reducible apply State.put_keeps | with_reducible apply foldl_keeps
    | with_reducible apply foldl_keeps2 | with_reducible apply State.Ok.memWf (pend := pend)
    | with_reducible apply State.Ok.queue | with_reducible apply State.Ok.flashWf (pend := pend)
    | with_reducible apply ite_keeps | with_reducible apply ite_keeps1 | split
    | (simp only [ok_mk]; refine ⟨?_, ?_, ?_⟩)

theorem State.groupLoaded_keeps (s : State) (hs : s.Ok pend) :
    (State.groupLoaded s).Ok pend := by
  unfold State.groupLoaded
  try dsimp only
  repeat' first
    | with_reducible assumption | with_reducible apply State.put_keeps | with_reducible apply ite_optOk
    | with_reducible apply ite_optOk1 | with_reducible apply State.putFlag_keeps
    | with_reducible apply State.deviceRead_keeps | with_reducible apply State.groupTake_keeps
    | with_reducible apply State.Ok.memWf (pend := pend) | with_reducible apply State.Ok.queue
    | with_reducible apply State.Ok.flashWf (pend := pend) | split | (simp only [ok_mk]; refine ⟨?_, ?_, ?_⟩)

theorem State.deliverTo_keeps (s : State) (l addr : Nat) (words : List (List Byte)) (hs : s.Ok pend) :
    (State.deliverTo s l addr words).Ok pend := by
  unfold State.deliverTo
  try dsimp only
  repeat' first
    | with_reducible assumption | with_reducible apply State.count_keeps | with_reducible apply State.storeWords_keeps
    | with_reducible apply State.Ok.memWf (pend := pend) | with_reducible apply State.Ok.queue
    | with_reducible apply State.Ok.flashWf (pend := pend) | with_reducible apply ite_keeps | split
    | (simp only [ok_mk]; refine ⟨?_, ?_, ?_⟩)

theorem State.deliverResult_keeps (s : State) (g : Group) (words : List (List Byte)) (hs : s.Ok pend) :
    (State.deliverResult s g words).Ok pend := by
  unfold State.deliverResult
  try dsimp only
  repeat' first
    | with_reducible assumption | (intro) | with_reducible apply State.deliverTo_keeps
    | with_reducible apply foldl_keeps

theorem State.failRound_keeps (s : State) (g : Nat) (hs : s.Ok pend) :
    (State.failRound s g).Ok pend := by
  unfold State.failRound
  try dsimp only
  repeat' first
    | with_reducible assumption | with_reducible apply State.put_keeps | with_reducible apply ite_optOk
    | with_reducible apply ite_optOk1 | with_reducible apply State.report_keeps
    | with_reducible apply State.setRound_keeps | with_reducible apply State.deliverResult_keeps
    | with_reducible apply State.Ok.memWf (pend := pend) | with_reducible apply State.Ok.queue
    | with_reducible apply State.Ok.flashWf (pend := pend) | with_reducible apply ite_keeps | split

theorem State.endRound_keeps (s : State) (g : Nat) (hs : s.Ok pend) :
    (State.endRound s g).Ok pend := by
  unfold State.endRound
  try dsimp only
  repeat' first
    | with_reducible assumption | (intro) | with_reducible apply State.count_keeps
    | with_reducible apply State.failRound_keeps | with_reducible apply State.setRound_keeps
    | with_reducible apply State.Ok.memWf (pend := pend) | with_reducible apply State.Ok.queue
    | with_reducible apply State.Ok.flashWf (pend := pend) | with_reducible apply ite_keeps

theorem State.sendStage_keeps (s : State) (result : Bool) (g : Nat) (d : Group) (a : RingAt) (v : List (List Byte)) (hs : s.Ok pend) :
    (State.sendStage s result g d a v).Ok pend := by
  unfold State.sendStage
  try dsimp only
  repeat' first | with_reducible assumption | with_reducible apply State.sendFabric_keeps

theorem State.stageOut_keeps (s : State) (g : Nat) (d : Group) (v : List (List Byte)) (hs : s.Ok pend) :
    (State.stageOut s g d v).Ok pend := by
  unfold State.stageOut
  try dsimp only
  repeat' first
    | with_reducible assumption | with_reducible apply State.setRound_keeps | with_reducible apply ite_optOk
    | with_reducible apply ite_optOk1 | with_reducible apply State.deliverResult_keeps
    | with_reducible apply State.endRound_keeps | with_reducible apply State.Ok.memWf (pend := pend)
    | with_reducible apply State.Ok.queue | with_reducible apply State.Ok.flashWf (pend := pend)
    | with_reducible apply ite_keeps

theorem State.stageMove_keeps (s : State) (g : Nat) (d : Group) (hs : s.Ok pend) :
    (State.stageMove s g d).Ok pend := by
  unfold State.stageMove
  try dsimp only
  repeat' first
    | with_reducible assumption | with_reducible apply State.setRound_keeps | with_reducible apply ite_optOk
    | with_reducible apply ite_optOk1 | with_reducible apply State.sendStage_keeps
    | with_reducible apply State.stageOut_keeps | with_reducible apply State.Ok.memWf (pend := pend)
    | with_reducible apply State.Ok.queue | with_reducible apply State.Ok.flashWf (pend := pend)
    | with_reducible apply ite_keeps | with_reducible apply ite_keeps1 | split

theorem State.roundMoves_keeps (s : State) (g : Nat) (hs : s.Ok pend) :
    (State.roundMoves s g).Ok pend := by
  unfold State.roundMoves
  try dsimp only
  repeat' first
    | with_reducible assumption | (intro) | with_reducible apply State.failRound_keeps
    | with_reducible apply State.stageMove_keeps | with_reducible apply State.Ok.memWf (pend := pend)
    | with_reducible apply State.Ok.queue | with_reducible apply State.Ok.flashWf (pend := pend)
    | with_reducible apply foldl_keeps | with_reducible apply foldl_keeps1 | with_reducible apply foldl_keeps2
    | with_reducible apply ite_keeps | with_reducible apply ite_keeps1 | split

theorem State.endLeft_keeps (s : State) (hs : s.Ok pend) :
    (State.endLeft s).Ok pend := by
  unfold State.endLeft
  try dsimp only
  repeat' first
    | with_reducible assumption | (intro) | with_reducible apply ite_optOk | with_reducible apply ite_optOk1
    | with_reducible apply State.endRound_keeps | with_reducible apply foldl_keeps | with_reducible apply foldl_keeps2
    | split

theorem State.contribute_keeps (s : State) (t k : Nat) (hs : s.Ok pend) :
    (State.contribute s t k).Ok pend := by
  unfold State.contribute
  try dsimp only
  repeat' first
    | with_reducible assumption | with_reducible apply State.modTile_keeps | with_reducible apply ite_optOk
    | with_reducible apply ite_optOk1 | with_reducible apply State.gather_keeps
    | with_reducible apply State.setRound_keeps | with_reducible apply State.deliverResult_keeps
    | with_reducible apply State.endRound_keeps | with_reducible apply State.failRound_keeps
    | with_reducible apply State.roundMoves_keeps | with_reducible apply State.Ok.memWf (pend := pend)
    | with_reducible apply State.Ok.queue | with_reducible apply State.Ok.flashWf (pend := pend)
    | with_reducible apply ite_keeps | with_reducible apply ite_keeps1 | split

theorem State.roundTimeout_keeps (s : State) (g : Nat) (hs : s.Ok pend) :
    (State.roundTimeout s g).Ok pend := by
  unfold State.roundTimeout
  try dsimp only
  repeat' first
    | with_reducible assumption | with_reducible apply State.failRound_keeps | with_reducible apply ite_keeps

theorem State.fabricPacket_keeps (s : State) (i : Nat) (head : List Byte) (body : List (List Byte)) (hs : s.Ok pend) :
    (State.fabricPacket s i head body).Ok pend := by
  unfold State.fabricPacket
  try dsimp only
  repeat' first
    | with_reducible assumption | with_reducible apply State.count_keeps | with_reducible apply ite_optOk
    | with_reducible apply ite_optOk1 | with_reducible apply State.report_keeps
    | with_reducible apply State.setRound_keeps | with_reducible apply State.failRound_keeps
    | with_reducible apply State.roundMoves_keeps | with_reducible apply State.Ok.memWf (pend := pend)
    | with_reducible apply State.Ok.queue | with_reducible apply State.Ok.flashWf (pend := pend)
    | with_reducible apply ite_keeps | with_reducible apply ite_keeps1 | split

end Sys2Proof.Machine
end

