-- ==== Sys2Proof/Laws/KeepFabric.lean ====
section
/-! SUPPORT. Every operation of `Machine/Fabric.lean` leaves the queue and keeps the canonical form of memory
and flash (`State.Ok`). -/

namespace Sys2Proof.Machine

variable {pend : List Instr}

theorem State.portOn_keeps (s : State) (i : Nat) (hs : s.Ok pend) :
    (State.portOn s i).Ok pend := by
  unfold State.portOn
  try dsimp only
  repeat' first
    | with_reducible assumption | with_reducible apply State.putFlag_keeps
    | with_reducible apply State.enablePort_keeps | with_reducible apply ite_keeps

theorem State.portOff_keeps (s : State) (i : Nat) (hs : s.Ok pend) :
    (State.portOff s i).Ok pend := by
  unfold State.portOff
  try dsimp only
  repeat' first
    | with_reducible assumption | with_reducible apply State.putFlag_keeps
    | with_reducible apply State.disablePort_keeps

theorem State.portLock_keeps (s : State) (i groups : Nat) (hs : s.Ok pend) :
    (State.portLock s i groups).Ok pend := by
  unfold State.portLock
  try dsimp only
  repeat' first
    | with_reducible assumption | (intro) | with_reducible apply State.portSense_keeps
    | with_reducible apply State.setPort_keeps | with_reducible apply State.setPortState_keeps
    | with_reducible apply State.setWidth_keeps | with_reducible apply State.Ok.memWf (pend := pend)
    | with_reducible apply State.Ok.queue | with_reducible apply State.Ok.flashWf (pend := pend)
    | with_reducible apply ite_keeps

theorem State.phyExpired_keeps (s : State) (i : Nat) (hs : s.Ok pend) :
    (State.phyExpired s i).Ok pend := by
  unfold State.phyExpired
  try dsimp only
  repeat' first
    | with_reducible assumption | with_reducible apply State.setPortState_keeps
    | with_reducible apply State.discardReplay_keeps | with_reducible apply State.setWidth_keeps
    | with_reducible apply ite_keeps

theorem State.halfLocked_keeps (s : State) (h g : Nat) (hs : s.Ok pend) :
    (State.halfLocked s h g).Ok pend := by
  unfold State.halfLocked
  try dsimp only
  repeat' first
    | with_reducible assumption | with_reducible apply State.setPortState_keeps
    | with_reducible apply State.setPort_keeps | with_reducible apply State.discardReplay_keeps
    | with_reducible apply State.setWidth_keeps | with_reducible apply State.Ok.memWf (pend := pend)
    | with_reducible apply State.Ok.queue | with_reducible apply State.Ok.flashWf (pend := pend)
    | with_reducible apply ite_keeps

theorem State.waitExpired_keeps (s : State) (i : Nat) (hs : s.Ok pend) :
    (State.waitExpired s i).Ok pend := by
  unfold State.waitExpired
  try dsimp only
  repeat' first
    | with_reducible assumption | with_reducible apply State.setPortState_keeps | with_reducible apply ite_keeps

theorem State.sendControl_keeps (s : State) (i ctype : Nat) (hs : s.Ok pend) :
    (State.sendControl s i ctype).Ok pend := by
  unfold State.sendControl
  try dsimp only
  repeat' first
    | with_reducible assumption | (intro) | with_reducible apply State.sendJodar_keeps

theorem State.recordNeighbour_keeps (s : State) (i : Nat) (c : Control) (hs : s.Ok pend) :
    (State.recordNeighbour s i c).Ok pend := by
  unfold State.recordNeighbour
  try dsimp only
  repeat' first | with_reducible assumption | with_reducible apply State.put_keeps | with_reducible apply ite_keeps

theorem State.checkNeighbour_keeps (s : State) (i : Nat) (c : Control) (hs : s.Ok pend) :
    (State.checkNeighbour s i c).Ok pend := by
  unfold State.checkNeighbour
  try dsimp only
  repeat' first
    | with_reducible assumption | with_reducible apply State.setPort_keeps
    | with_reducible apply State.discardReplay_keeps | with_reducible apply State.Ok.memWf (pend := pend)
    | with_reducible apply State.Ok.queue | with_reducible apply State.Ok.flashWf (pend := pend)
    | with_reducible apply ite_keeps

theorem State.portUp_keeps (s : State) (i v : Nat) (peer : Nat × Nat) (hs : s.Ok pend) :
    (State.portUp s i v peer).Ok pend := by
  unfold State.portUp
  try dsimp only
  repeat' first
    | with_reducible assumption | (intro) | with_reducible apply State.portGo_keeps
    | with_reducible apply State.resend_keeps | with_reducible apply State.setPort_keeps
    | with_reducible apply State.setPortState_keeps | with_reducible apply State.setPortVer_keeps

theorem State.exchanged_keeps (s : State) (i : Nat) (c : Control) (ack : Nat) (hs : s.Ok pend) :
    (State.exchanged s i c ack).Ok pend := by
  unfold State.exchanged
  try dsimp only
  repeat' first
    | with_reducible assumption | (intro) | with_reducible apply State.ackFrames_keeps
    | with_reducible apply State.checkNeighbour_keeps | with_reducible apply State.discardReplay_keeps
    | with_reducible apply State.endLeft_keeps | with_reducible apply State.portUp_keeps
    | with_reducible apply State.putFlag_keeps | with_reducible apply State.recordNeighbour_keeps
    | with_reducible apply State.retrainPort_keeps | with_reducible apply State.setPortState_keeps
    | with_reducible apply State.setWidth_keeps | with_reducible apply State.unlockPort_keeps
    | with_reducible apply State.Ok.memWf (pend := pend) | with_reducible apply State.Ok.queue
    | with_reducible apply State.Ok.flashWf (pend := pend) | with_reducible apply ite_keeps

theorem State.portSleep_keeps (s : State) (i : Nat) (hs : s.Ok pend) :
    (State.portSleep s i).Ok pend := by
  unfold State.portSleep
  try dsimp only
  repeat' first
    | with_reducible assumption | with_reducible apply State.setDom_keeps
    | with_reducible apply State.setPortState_keeps | with_reducible apply State.setPort_keeps
    | with_reducible apply State.Ok.memWf (pend := pend) | with_reducible apply State.Ok.queue
    | with_reducible apply State.Ok.flashWf (pend := pend) | (simp only [ok_mk]; refine ⟨?_, ?_, ?_⟩)

theorem State.lpAsked_keeps (s : State) (i : Nat) (hs : s.Ok pend) :
    (State.lpAsked s i).Ok pend := by
  unfold State.lpAsked
  try dsimp only
  repeat' first
    | with_reducible assumption | with_reducible apply State.sendControl_keeps
    | with_reducible apply State.portSleep_keeps | with_reducible apply ite_keeps

theorem State.lpAgreed_keeps (s : State) (i : Nat) (hs : s.Ok pend) :
    (State.lpAgreed s i).Ok pend := by
  unfold State.lpAgreed
  try dsimp only
  repeat' first
    | with_reducible assumption | (intro) | with_reducible apply State.lpAsked_keeps
    | with_reducible apply State.portSleep_keeps | with_reducible apply State.setPort_keeps
    | with_reducible apply State.Ok.memWf (pend := pend) | with_reducible apply State.Ok.queue
    | with_reducible apply State.Ok.flashWf (pend := pend) | with_reducible apply ite_keeps

theorem State.lpRefused_keeps (s : State) (i : Nat) (hs : s.Ok pend) :
    (State.lpRefused s i).Ok pend := by
  unfold State.lpRefused
  try dsimp only
  repeat' first | with_reducible assumption | with_reducible apply State.setPort_keeps

theorem State.portNak_keeps (s : State) (i : Nat) (hs : s.Ok pend) :
    (State.portNak s i).Ok pend := by
  unfold State.portNak
  try dsimp only
  repeat' first
    | with_reducible assumption | (intro) | with_reducible apply State.sendJodar_keeps

theorem State.portIdleFrame_keeps (s : State) (i : Nat) (hs : s.Ok pend) :
    (State.portIdleFrame s i).Ok pend := by
  unfold State.portIdleFrame
  try dsimp only
  repeat' first
    | with_reducible assumption | (intro) | with_reducible apply State.sendJodar_keeps

theorem State.takeWords_keeps (s : State) (i : Nat) (words : List (Nat × List Byte)) (hs : s.Ok pend) :
    (State.takeWords s i words).Ok pend := by
  unfold State.takeWords
  try dsimp only
  repeat' first | with_reducible assumption | (intro) | with_reducible apply State.setPort_keeps

theorem State.takeAck_keeps (s : State) (i ack crd : Nat) (hs : s.Ok pend) :
    (State.takeAck s i ack crd).Ok pend := by
  unfold State.takeAck
  try dsimp only
  repeat' first
    | with_reducible assumption | (intro) | with_reducible apply State.ackFrames_keeps
    | with_reducible apply State.endLeft_keeps | with_reducible apply State.portGo_keeps
    | with_reducible apply State.setPort_keeps

theorem State.portNaked_keeps (s : State) (i ack : Nat) (hs : s.Ok pend) :
    (State.portNaked s i ack).Ok pend := by
  unfold State.portNaked
  try dsimp only
  repeat' first
    | with_reducible assumption | with_reducible apply State.setPort_keeps | with_reducible apply State.resend_keeps
    | with_reducible apply State.ackFrames_keeps | with_reducible apply State.retrainPort_keeps
    | with_reducible apply State.endLeft_keeps | with_reducible apply State.Ok.memWf (pend := pend)
    | with_reducible apply State.Ok.queue | with_reducible apply State.Ok.flashWf (pend := pend)
    | with_reducible apply ite_keeps

theorem State.ringUpdated_keeps (s : State) (i : Nat) (c : Control) (hs : s.Ok pend) :
    (State.ringUpdated s i c).Ok pend := by
  unfold State.ringUpdated
  try dsimp only
  repeat' first
    | with_reducible assumption | with_reducible apply State.recordNeighbour_keeps | with_reducible apply ite_keeps

theorem State.lpExited_keeps (s : State) (i : Nat) (hs : s.Ok pend) :
    (State.lpExited s i).Ok pend := by
  unfold State.lpExited
  try dsimp only
  repeat' first
    | with_reducible assumption | (intro) | with_reducible apply State.portSense_keeps

theorem State.controlled_keeps (s : State) (i : Nat) (d : List Byte) (ack : Nat) (hs : s.Ok pend) :
    (State.controlled s i d ack).Ok pend := by
  unfold State.controlled
  try dsimp only
  repeat' first
    | with_reducible assumption | (intro) | with_reducible apply State.exchanged_keeps
    | with_reducible apply State.lpAgreed_keeps | with_reducible apply State.lpAsked_keeps
    | with_reducible apply State.lpExited_keeps | with_reducible apply State.lpRefused_keeps
    | with_reducible apply State.ringUpdated_keeps | with_reducible apply State.Ok.memWf (pend := pend)
    | with_reducible apply State.Ok.queue | with_reducible apply State.Ok.flashWf (pend := pend)
    | with_reducible apply ite_keeps

theorem State.badFrame_keeps (s : State) (i ft : Nat) (hs : s.Ok pend) :
    (State.badFrame s i ft).Ok pend := by
  unfold State.badFrame
  try dsimp only
  repeat' first
    | with_reducible assumption | (intro) | with_reducible apply State.portNak_keeps
    | with_reducible apply State.report_keeps | with_reducible apply State.setPort_keeps
    | with_reducible apply State.Ok.memWf (pend := pend) | with_reducible apply State.Ok.queue
    | with_reducible apply State.Ok.flashWf (pend := pend) | with_reducible apply ite_keeps

theorem State.countFec_keeps (s : State) (i fixed lost : Nat) (hs : s.Ok pend) :
    (State.countFec s i fixed lost).Ok pend := by
  unfold State.countFec
  try dsimp only
  repeat' first
    | with_reducible assumption | (intro) | with_reducible apply State.count_keeps

theorem State.dataFrame_keeps (s : State) (i seq ack crd : Nat) (words : List (Nat × List Byte)) (hs : s.Ok pend) :
    (State.dataFrame s i seq ack crd words).Ok pend := by
  unfold State.dataFrame
  try dsimp only
  repeat' first
    | with_reducible assumption | (intro) | with_reducible apply State.portIdleFrame_keeps
    | with_reducible apply State.portSense_keeps | with_reducible apply State.setPort_keeps
    | with_reducible apply State.takeAck_keeps | with_reducible apply State.takeWords_keeps
    | with_reducible apply State.Ok.memWf (pend := pend) | with_reducible apply State.Ok.queue
    | with_reducible apply State.Ok.flashWf (pend := pend) | with_reducible apply ite_keeps

theorem State.portFrameIn_keeps (s0 : State) (i : Nat) (f : List Byte) (bad : Bool) (fixed lost : Nat) (hs0 : s0.Ok
    pend) :
    (State.portFrameIn s0 i f bad fixed lost).Ok pend := by
  unfold State.portFrameIn
  try dsimp only
  repeat' first
    | with_reducible assumption | (intro) | with_reducible apply State.badFrame_keeps
    | with_reducible apply State.controlled_keeps | with_reducible apply State.countFec_keeps
    | with_reducible apply State.dataFrame_keeps | with_reducible apply State.portGo_keeps
    | with_reducible apply State.portNaked_keeps | with_reducible apply State.portSense_keeps
    | with_reducible apply State.setPort_keeps | with_reducible apply State.takeAck_keeps
    | with_reducible apply State.Ok.memWf (pend := pend) | with_reducible apply State.Ok.queue
    | with_reducible apply State.Ok.flashWf (pend := pend) | with_reducible apply ite_keeps
    | with_reducible apply ite_keeps1 | split

theorem State.putRwl_keeps (s : State) (p : PageRef) (f : Field) (v : Nat) (hs : s.Ok pend) :
    (State.putRwl s p f v).Ok pend := by
  unfold State.putRwl
  try dsimp only
  repeat' first
    | with_reducible assumption | with_reducible apply State.put_keeps | with_reducible apply State.putFlag_keeps
    | with_reducible apply ite_keeps

theorem State.heldField_keeps (s : State) (p : PageRef) (f : Field) (v : Nat) (hs : s.Ok pend) :
    (State.heldField s p f v).Ok pend := by
  unfold State.heldField
  try dsimp only
  repeat' first
    | with_reducible assumption | (intro) | with_reducible apply State.putFlag_keeps
    | with_reducible apply State.Ok.memWf (pend := pend) | with_reducible apply State.Ok.queue
    | with_reducible apply State.Ok.flashWf (pend := pend) | with_reducible apply ite_keeps

theorem State.writeRing_keeps (s : State) (i : Nat) (prev : Bool) (v : Nat) (hs : s.Ok pend) :
    (State.writeRing s i prev v).Ok pend := by
  unfold State.writeRing
  try dsimp only
  repeat' first
    | with_reducible assumption | with_reducible apply State.sendControl_keeps
    | with_reducible apply State.putRwl_keeps | with_reducible apply ite_keeps

theorem State.clearPortCounters_keeps (s : State) (i : Nat) (hs : s.Ok pend) :
    (State.clearPortCounters s i).Ok pend := by
  unfold State.clearPortCounters
  try dsimp only
  repeat' first
    | with_reducible assumption | (intro) | with_reducible apply State.put_keeps | with_reducible apply foldl_keeps

end Sys2Proof.Machine
end

