-- ==== Sys2Proof/Laws/KeepHostLink.lean ====
section
/-! SUPPORT. Every operation of `Machine/HostLink.lean` leaves the queue and keeps the canonical form of memory
and flash (`State.Ok`). -/

namespace Sys2Proof.Machine

variable {pend : List Instr}

theorem State.complete_keeps (s : State) (i : Nat) (q : HostHead) (status : Nat) (pois : Bool) (n eaddr rdata : Nat) (data : List (List Byte)) (hs : s.Ok pend) :
    (State.complete s i q status pois n eaddr rdata data).Ok pend := by
  unfold State.complete
  try dsimp only
  repeat' first | with_reducible assumption | with_reducible apply State.sendOrWait_keeps

theorem State.refuseHost_keeps (s : State) (i : Nat) (q : HostHead) (status : Nat) (hs : s.Ok pend) :
    (State.refuseHost s i q status).Ok pend := by
  unfold State.refuseHost
  try dsimp only
  repeat' first | with_reducible assumption | with_reducible apply State.complete_keeps

theorem State.hostAccess_keeps (s : State) (i : Nat) (q : HostHead) (data : List (List Byte)) (hs : s.Ok pend) :
    (State.hostAccess s i q data).Ok pend := by
  unfold State.hostAccess
  try dsimp only
  repeat' first
    | with_reducible assumption | (intro) | with_reducible apply State.noteDown_keeps
    | with_reducible apply State.refuseHost_keeps | with_reducible apply State.startAcc_keeps
    | with_reducible apply State.Ok.memWf (pend := pend) | with_reducible apply State.Ok.queue
    | with_reducible apply State.Ok.flashWf (pend := pend) | with_reducible apply ite_keeps

theorem State.hostDone_keeps (s : State) (x : MemAccess) (i : Nat) (q : HostHead) (hs : s.Ok pend) :
    (State.hostDone s x i q).Ok pend := by
  unfold State.hostDone
  try dsimp only
  repeat' first
    | with_reducible assumption | (intro) | with_reducible apply State.complete_keeps
    | with_reducible apply State.noteDown_keeps | with_reducible apply State.refuseHost_keeps
    | with_reducible apply State.Ok.memWf (pend := pend) | with_reducible apply State.Ok.queue
    | with_reducible apply State.Ok.flashWf (pend := pend) | with_reducible apply ite_keeps
    | with_reducible apply ite_keeps1 | split

theorem State.portSoft_keeps (s : State) (i : Nat) (hs : s.Ok pend) :
    (State.portSoft s i).Ok pend := by
  unfold State.portSoft
  try dsimp only
  repeat' first
    | with_reducible assumption | with_reducible apply State.setPort_keeps
    | with_reducible apply State.disablePort_keeps | with_reducible apply State.enablePort_keeps
    | with_reducible apply State.softPage_keeps | with_reducible apply ite_keeps

theorem State.hbrgSoft_keeps (s : State) (hs : s.Ok pend) :
    (State.hbrgSoft s).Ok pend := by
  unfold State.hbrgSoft
  try dsimp only
  repeat' first | with_reducible assumption | with_reducible apply State.softPage_keeps

theorem State.winClear_keeps (s : State) (w : Nat) (hs : s.Ok pend) :
    (State.winClear s w).Ok pend := by
  unfold State.winClear
  try dsimp only
  repeat' first
    | with_reducible assumption | with_reducible apply State.put_keeps | with_reducible apply State.setWin_keeps

theorem State.winDetach_keeps (s : State) (w : Nat) (hs : s.Ok pend) :
    (State.winDetach s w).Ok pend := by
  unfold State.winDetach
  try dsimp only
  repeat' first
    | with_reducible assumption | (intro) | with_reducible apply State.Ok.memWf (pend := pend)
    | with_reducible apply State.Ok.queue | with_reducible apply State.Ok.flashWf (pend := pend)
    | with_reducible apply ite_keeps | with_reducible apply ite_keeps1 | split
    | (simp only [ok_mk]; refine ⟨?_, ?_, ?_⟩)

theorem State.winEnable_keeps (s : State) (w : Nat) (hs : s.Ok pend) :
    (State.winEnable s w).Ok pend := by
  unfold State.winEnable
  try dsimp only
  repeat' first
    | with_reducible assumption | (intro) | with_reducible apply State.put_keeps
    | with_reducible apply State.putFlag_keeps | with_reducible apply State.winClear_keeps
    | with_reducible apply State.winDetach_keeps | with_reducible apply State.Ok.memWf (pend := pend)
    | with_reducible apply State.Ok.queue | with_reducible apply State.Ok.flashWf (pend := pend)
    | with_reducible apply ite_keeps

theorem State.winDisable_keeps (s : State) (w : Nat) (hs : s.Ok pend) :
    (State.winDisable s w).Ok pend := by
  unfold State.winDisable
  try dsimp only
  repeat' first | with_reducible assumption | with_reducible apply State.putFlag_keeps

theorem State.winSoft_keeps (s : State) (w : Nat) (hs : s.Ok pend) :
    (State.winSoft s w).Ok pend := by
  unfold State.winSoft
  try dsimp only
  repeat' first
    | with_reducible assumption | with_reducible apply State.put_keeps | with_reducible apply ite_optOk
    | with_reducible apply ite_optOk1 | with_reducible apply State.setWin_keeps
    | with_reducible apply State.softPage_keeps | with_reducible apply State.winClear_keeps
    | with_reducible apply State.Ok.memWf (pend := pend) | with_reducible apply State.Ok.queue
    | with_reducible apply State.Ok.flashWf (pend := pend) | split | (simp only [ok_mk]; refine ⟨?_, ?_, ?_⟩)

theorem State.cqHead_keeps (s : State) (w v : Nat) (hs : s.Ok pend) :
    (State.cqHead s w v).Ok pend := by
  unfold State.cqHead
  try dsimp only
  repeat' first | with_reducible assumption | with_reducible apply State.put_keeps | with_reducible apply ite_keeps

theorem State.setDma_keeps (s : State) (d : Nat) (x : Dma) (hs : s.Ok pend) :
    (State.setDma s d x).Ok pend := by
  unfold State.setDma
  try dsimp only
  repeat' first
    | with_reducible assumption | (intro) | with_reducible apply State.put_keeps
    | with_reducible apply State.putFlag_keeps | with_reducible apply State.Ok.memWf (pend := pend)
    | with_reducible apply State.Ok.queue | with_reducible apply State.Ok.flashWf (pend := pend) | split
    | (simp only [ok_mk]; refine ⟨?_, ?_, ?_⟩)

theorem State.dmaComplete_keeps (s : State) (d : Nat) (j : DmaJob) (status bytes eaddr : Nat) (hs : s.Ok pend) :
    (State.dmaComplete s d j status bytes eaddr).Ok pend := by
  unfold State.dmaComplete
  try dsimp only
  repeat' first
    | with_reducible assumption | with_reducible apply State.put_keeps | with_reducible apply State.count_keeps
    | with_reducible apply State.completeCmd_keeps

theorem State.dmaFlush_keeps (s : State) (d : Nat) (hs : s.Ok pend) :
    (State.dmaFlush s d).Ok pend := by
  unfold State.dmaFlush
  try dsimp only
  repeat' first
    | with_reducible assumption | (intro) | with_reducible apply State.dmaComplete_keeps
    | with_reducible apply State.setDma_keeps | with_reducible apply State.Ok.memWf (pend := pend)
    | with_reducible apply State.Ok.queue | with_reducible apply State.Ok.flashWf (pend := pend)
    | with_reducible apply foldl_keeps

theorem State.dmaResume_keeps (s : State) (d : Nat) (hs : s.Ok pend) :
    (State.dmaResume s d).Ok pend := by
  unfold State.dmaResume
  try dsimp only
  repeat' first | with_reducible assumption | with_reducible apply State.put_keeps

theorem State.dmaClear_keeps (s : State) (d : Nat) (hs : s.Ok pend) :
    (State.dmaClear s d).Ok pend := by
  unfold State.dmaClear
  try dsimp only
  repeat' first
    | with_reducible assumption | (intro) | with_reducible apply State.dmaFlush_keeps
    | with_reducible apply State.put_keeps | with_reducible apply State.setDma_keeps
    | with_reducible apply State.softPage_keeps

theorem State.dmaSoft_keeps (s : State) (d : Nat) (hs : s.Ok pend) :
    (State.dmaSoft s d).Ok pend := by
  unfold State.dmaSoft
  try dsimp only
  repeat' first
    | with_reducible assumption | (intro) | with_reducible apply State.dmaClear_keeps
    | with_reducible apply State.setDma_keeps | with_reducible apply State.Ok.memWf (pend := pend)
    | with_reducible apply State.Ok.queue | with_reducible apply State.Ok.flashWf (pend := pend)
    | with_reducible apply ite_keeps

theorem State.dmaEnd_keeps (s : State) (d status eaddr : Nat) (hs : s.Ok pend) :
    (State.dmaEnd s d status eaddr).Ok pend := by
  unfold State.dmaEnd
  try dsimp only
  repeat' first
    | with_reducible assumption | (intro) | with_reducible apply State.dmaClear_keeps
    | with_reducible apply State.dmaComplete_keeps | with_reducible apply State.putFlag_keeps
    | with_reducible apply State.setDma_keeps | with_reducible apply State.Ok.memWf (pend := pend)
    | with_reducible apply State.Ok.queue | with_reducible apply State.Ok.flashWf (pend := pend)
    | with_reducible apply ite_keeps | with_reducible apply ite_keeps1 | split

theorem State.dmaHalted_keeps (s : State) (d eaddr : Nat) (hs : s.Ok pend) :
    (State.dmaHalted s d eaddr).Ok pend := by
  unfold State.dmaHalted
  try dsimp only
  repeat' first
    | with_reducible assumption | (intro) | with_reducible apply State.dmaEnd_keeps
    | with_reducible apply State.put_keeps | with_reducible apply State.report_keeps

theorem State.dmaAsk_keeps (s : State) (d ht addr n : Nat) (data : List Byte) (hs : s.Ok pend) :
    (State.dmaAsk s d ht addr n data).Ok pend := by
  unfold State.dmaAsk
  try dsimp only
  repeat' first
    | with_reducible assumption | (intro) | with_reducible apply State.devTag_keeps
    | with_reducible apply State.sendOrWait_keeps

theorem State.dmaAccess_keeps (s : State) (d a n : Nat) (words : Option (List (List Byte))) (hs : s.Ok pend) :
    (State.dmaAccess s d a n words).Ok pend := by
  unfold State.dmaAccess
  try dsimp only
  repeat' first
    | with_reducible assumption | (intro) | with_reducible apply State.dmaEnd_keeps
    | with_reducible apply State.noteDown_keeps | with_reducible apply State.startAcc_keeps
    | with_reducible apply State.Ok.memWf (pend := pend) | with_reducible apply State.Ok.queue
    | with_reducible apply State.Ok.flashWf (pend := pend) | with_reducible apply ite_keeps

theorem State.dmaGo_keeps (s : State) (d : Nat) (hs : s.Ok pend) :
    (State.dmaGo s d).Ok pend := by
  unfold State.dmaGo
  try dsimp only
  repeat' first
    | with_reducible assumption | (intro) | with_reducible apply State.dmaAccess_keeps
    | with_reducible apply State.dmaAsk_keeps | with_reducible apply State.setDma_keeps
    | with_reducible apply State.Ok.memWf (pend := pend) | with_reducible apply State.Ok.queue
    | with_reducible apply State.Ok.flashWf (pend := pend) | with_reducible apply ite_keeps
    | with_reducible apply ite_keeps1 | split

theorem State.dmaNext_keeps (s : State) (d moved : Nat) (hs : s.Ok pend) :
    (State.dmaNext s d moved).Ok pend := by
  unfold State.dmaNext
  try dsimp only
  repeat' first
    | with_reducible assumption | (intro) | with_reducible apply State.dmaEnd_keeps
    | with_reducible apply State.dmaGo_keeps | with_reducible apply State.setDma_keeps
    | with_reducible apply State.Ok.memWf (pend := pend) | with_reducible apply State.Ok.queue
    | with_reducible apply State.Ok.flashWf (pend := pend) | with_reducible apply ite_keeps

theorem State.dmaGot_keeps (s : State) (d : Nat) (data : List Byte) (hs : s.Ok pend) :
    (State.dmaGot s d data).Ok pend := by
  unfold State.dmaGot
  try dsimp only
  repeat' first
    | with_reducible assumption | (intro) | with_reducible apply State.dmaGo_keeps
    | with_reducible apply State.setDma_keeps | with_reducible apply State.Ok.memWf (pend := pend)
    | with_reducible apply State.Ok.queue | with_reducible apply State.Ok.flashWf (pend := pend) | split

theorem State.dmaPut_keeps (s : State) (d : Nat) (hs : s.Ok pend) :
    (State.dmaPut s d).Ok pend := by
  unfold State.dmaPut
  try dsimp only
  repeat' first
    | with_reducible assumption | (intro) | with_reducible apply State.dmaNext_keeps
    | with_reducible apply State.Ok.memWf (pend := pend) | with_reducible apply State.Ok.queue
    | with_reducible apply State.Ok.flashWf (pend := pend) | split

theorem State.dmaDone_keeps (s : State) (x : MemAccess) (d : Nat) (hs : s.Ok pend) :
    (State.dmaDone s x d).Ok pend := by
  unfold State.dmaDone
  try dsimp only
  repeat' first
    | with_reducible assumption | (intro) | with_reducible apply State.dmaEnd_keeps
    | with_reducible apply State.dmaGot_keeps | with_reducible apply State.dmaHalted_keeps
    | with_reducible apply State.dmaPut_keeps | with_reducible apply State.noteDown_keeps
    | with_reducible apply State.Ok.memWf (pend := pend) | with_reducible apply State.Ok.queue
    | with_reducible apply State.Ok.flashWf (pend := pend) | with_reducible apply ite_keeps
    | with_reducible apply ite_keeps1 | split

theorem State.dmaAnswer_keeps (s : State) (d : Nat) (q : HostHead) (data : List (List Byte)) (hs : s.Ok pend) :
    (State.dmaAnswer s d q data).Ok pend := by
  unfold State.dmaAnswer
  try dsimp only
  repeat' first
    | with_reducible assumption | (intro) | with_reducible apply State.dmaEnd_keeps
    | with_reducible apply State.dmaGot_keeps | with_reducible apply State.dmaHalted_keeps
    | with_reducible apply State.dmaPut_keeps | with_reducible apply State.freeBytes_keeps
    | with_reducible apply State.Ok.memWf (pend := pend) | with_reducible apply State.Ok.queue
    | with_reducible apply State.Ok.flashWf (pend := pend) | with_reducible apply ite_keeps
    | with_reducible apply ite_keeps1 | split

theorem State.dmaDescriptor_keeps (s : State) (d : Nat) (hs : s.Ok pend) :
    (State.dmaDescriptor s d).Ok pend := by
  unfold State.dmaDescriptor
  try dsimp only
  repeat' first
    | with_reducible assumption | (intro) | with_reducible apply State.dmaEnd_keeps
    | with_reducible apply State.dmaNext_keeps | with_reducible apply State.setDma_keeps
    | with_reducible apply State.Ok.memWf (pend := pend) | with_reducible apply State.Ok.queue
    | with_reducible apply State.Ok.flashWf (pend := pend) | with_reducible apply ite_keeps
    | with_reducible apply ite_keeps1 | split

theorem State.dropRequest_keeps (s : State) (i tag : Nat) (hs : s.Ok pend) :
    (State.dropRequest s i tag).Ok pend := by
  unfold State.dropRequest
  try dsimp only
  repeat' first
    | with_reducible assumption | (intro) | with_reducible apply State.Ok.memWf (pend := pend)
    | with_reducible apply State.Ok.queue | with_reducible apply State.Ok.flashWf (pend := pend) | split
    | (simp only [ok_mk]; refine ⟨?_, ?_, ?_⟩)

theorem State.hostCompletion_keeps (s : State) (i : Nat) (q : HostHead) (data : List (List Byte)) (hs : s.Ok pend) :
    (State.hostCompletion s i q data).Ok pend := by
  unfold State.hostCompletion
  try dsimp only
  repeat' first
    | with_reducible assumption | (intro) | with_reducible apply State.count_keeps
    | with_reducible apply State.dmaAnswer_keeps | with_reducible apply State.dropRequest_keeps
    | with_reducible apply State.Ok.memWf (pend := pend) | with_reducible apply State.Ok.queue
    | with_reducible apply State.Ok.flashWf (pend := pend) | split

theorem State.requestLost_keeps (s : State) (i tag : Nat) (hs : s.Ok pend) :
    (State.requestLost s i tag).Ok pend := by
  unfold State.requestLost
  try dsimp only
  repeat' first
    | with_reducible assumption | (intro) | with_reducible apply State.dmaEnd_keeps
    | with_reducible apply State.dropRequest_keeps | with_reducible apply State.Ok.memWf (pend := pend)
    | with_reducible apply State.Ok.queue | with_reducible apply State.Ok.flashWf (pend := pend) | split

theorem State.hostTimeout_keeps (s : State) (i tag : Nat) (hs : s.Ok pend) :
    (State.hostTimeout s i tag).Ok pend := by
  unfold State.hostTimeout
  try dsimp only
  repeat' first
    | with_reducible assumption | (intro) | with_reducible apply State.count_keeps
    | with_reducible apply State.modAcc_keeps | with_reducible apply State.refuseHost_keeps
    | with_reducible apply State.Ok.memWf (pend := pend) | with_reducible apply State.Ok.queue
    | with_reducible apply State.Ok.flashWf (pend := pend) | split | (simp only [ok_mk]; refine ⟨?_, ?_, ?_⟩)

theorem State.packetTimeout_keeps (s : State) (i : Nat) (hs : s.Ok pend) :
    (State.packetTimeout s i).Ok pend := by
  unfold State.packetTimeout
  try dsimp only
  repeat' first
    | with_reducible assumption | (intro) | with_reducible apply State.count_keeps
    | with_reducible apply State.requestLost_keeps | with_reducible apply State.Ok.memWf (pend := pend)
    | with_reducible apply State.Ok.queue | with_reducible apply State.Ok.flashWf (pend := pend)
    | with_reducible apply ite_keeps | with_reducible apply ite_keeps1 | split
    | (simp only [ok_mk]; refine ⟨?_, ?_, ?_⟩)

theorem State.moveSram_keeps (s : State) (x : MemAccess) (hs : s.Ok pend) :
    (State.moveSram s x).Ok pend := by
  unfold State.moveSram
  try dsimp only
  repeat' first
    | with_reducible assumption | (intro) | with_reducible apply State.modAcc_keeps
    | with_reducible apply State.moveAcc_keeps | with_reducible apply State.Ok.memWf (pend := pend)
    | with_reducible apply State.Ok.queue | with_reducible apply State.Ok.flashWf (pend := pend)
    | with_reducible apply foldl_keeps | with_reducible apply foldl_keeps1 | with_reducible apply foldl_keeps2
    | with_reducible apply ite_keeps | with_reducible apply ite_keeps1 | split

theorem State.accDone_keeps (s : State) (x : MemAccess) (hs : s.Ok pend) :
    (State.accDone s x).Ok pend := by
  unfold State.accDone
  try dsimp only
  repeat' first
    | with_reducible assumption | (intro) | with_reducible apply State.completeCmd_keeps
    | with_reducible apply State.dmaDone_keeps | with_reducible apply State.hostDone_keeps
    | with_reducible apply State.Ok.memWf (pend := pend) | with_reducible apply State.Ok.queue
    | with_reducible apply State.Ok.flashWf (pend := pend) | with_reducible apply ite_keeps
    | with_reducible apply ite_keeps1 | split

theorem State.settleAccs_keeps (s : State) (hs : s.Ok pend) :
    (State.settleAccs s).Ok pend := by
  unfold State.settleAccs
  try dsimp only
  repeat' first
    | with_reducible assumption | (intro) | with_reducible apply State.accDone_keeps
    | with_reducible apply State.moveSram_keeps | with_reducible apply State.Ok.memWf (pend := pend)
    | with_reducible apply State.Ok.queue | with_reducible apply State.Ok.flashWf (pend := pend)
    | with_reducible apply foldl_keeps | with_reducible apply foldl_keeps1 | with_reducible apply foldl_keeps2
    | split | (simp only [ok_mk]; refine ⟨?_, ?_, ?_⟩)

theorem State.takeCommand_keeps (s : State) (w : Nat) (g : InFlight) (hs : s.Ok pend) :
    (State.takeCommand s w g).Ok pend := by
  unfold State.takeCommand
  try dsimp only
  repeat' first
    | with_reducible assumption | with_reducible apply State.put_keeps | with_reducible apply State.count_keeps
    | with_reducible apply State.setWin_keeps | with_reducible apply State.Ok.memWf (pend := pend)
    | with_reducible apply State.Ok.queue | with_reducible apply State.Ok.flashWf (pend := pend)
    | (simp only [ok_mk]; refine ⟨?_, ?_, ?_⟩)

theorem State.acceptDma_keeps (s : State) (w d : Nat) (f : InFlight) (hs : s.Ok pend) :
    OptOk pend (State.acceptDma s w d f) := by
  unfold State.acceptDma
  try dsimp only
  repeat' first
    | with_reducible assumption | (intro) | with_reducible apply State.completeCmd_keeps
    | with_reducible apply State.count_keeps | with_reducible apply State.setDma_keeps
    | with_reducible apply State.takeCommand_keeps | with_reducible apply ite_optOk
    | with_reducible apply ite_optOk1 | with_reducible apply optOk_none | with_reducible apply optOk_some

theorem State.acceptRow_keeps (s : State) (w : Nat) (body : List Byte) (f : InFlight) (hs : s.Ok pend) :
    OptOk pend (State.acceptRow s w body f) := by
  have h := State.takeCommand_keeps s w f hs
  unfold State.acceptRow
  extract_lets c rs
  by_cases h1 : rs ≠ stOk
  · rw [if_pos h1]; exact optOk_some (State.rowRefuse_keeps _ _ _ _ h)
  · rw [if_neg h1]
    cases s.engineAt c.dst with
    | none => exact optOk_some (State.rowRefuse_keeps _ _ _ _ h)
    | some e =>
      exact ite_optOk (optOk_some (State.rowReply_keeps _ _ _ h))
        (ite_optOk optOk_none (optOk_some (State.portWait_keeps _ _ _ _ h)))

theorem State.acceptSlot_keeps (s : State) (w : Nat) (damaged : Bool) (b : List Byte) (hs : s.Ok pend) :
    OptOk pend (State.acceptSlot s w damaged b) := by
  unfold State.acceptSlot
  try dsimp only
  repeat' first
    | with_reducible assumption | (intro) | with_reducible apply State.acceptDma_keeps
    | with_reducible apply State.acceptRow_keeps | with_reducible apply State.completeCmd_keeps
    | with_reducible apply State.count_keeps | with_reducible apply State.takeCommand_keeps
    | with_reducible apply ite_optOk | with_reducible apply ite_optOk1 | with_reducible apply optOk_none
    | with_reducible apply optOk_some

theorem State.tryAccept_keeps (s : State) (w : Nat) (hs : s.Ok pend) :
    OptOk pend (State.tryAccept s w) := by
  unfold State.tryAccept
  try dsimp only
  repeat' first
    | with_reducible assumption | with_reducible apply State.readMem_keeps | with_reducible apply ite_optOk
    | with_reducible apply ite_optOk1 | with_reducible apply State.acceptSlot_keeps | split
    | with_reducible exact optOk_none

theorem findSome?_keeps {α : Type} (f : α → Option State) (l : List α) (s : State) (hf : ∀ x, OptOk pend (f x)) (h : s.Ok pend) :
    ((l.findSome? f).getD s).Ok pend := by
  induction l with
  | nil => exact h
  | cons x l ih =>
    have hx := hf x
    simp only [List.findSome?_cons]
    split
    · rename_i b he; rw [he] at hx; exact hx
    · exact ih

theorem State.commandAccept_keeps (s : State) (hs : s.Ok pend) : (State.commandAccept s).Ok pend := by
  unfold State.commandAccept
  split
  · exact hs
  · exact findSome?_keeps _ _ _ (fun _ => State.tryAccept_keeps _ _ hs) hs

theorem State.nopRun_keeps (s : State) (w c : Nat) (hs : s.Ok pend) :
    (State.nopRun s w c).Ok pend := by
  unfold State.nopRun
  try dsimp only
  repeat' first
    | with_reducible assumption | with_reducible apply State.completeCmd_keeps | with_reducible apply ite_optOk
    | with_reducible apply ite_optOk1 | with_reducible apply ite_keeps | split

end Sys2Proof.Machine
end

