-- ==== Sys2Proof/Laws/KeepRopes.lean ====
section
/-! SUPPORT. Every operation of `Machine/Ropes.lean` leaves the queue and keeps the canonical form of memory
and flash (`State.Ok`). -/

namespace Sys2Proof.Machine

variable {pend : List Instr}

theorem State.meetTable_keeps (s : State) (l : List Nat) (hs : s.Ok pend) :
    (State.meetTable s l).Ok pend := by
  unfold State.meetTable
  try dsimp only
  repeat' first
    | with_reducible assumption | (intro) | with_reducible apply State.reportAll_keeps

theorem State.deviceWrite_keeps (s : State) (a : Nat) (l : List (List Byte)) (hs : s.Ok pend) :
    (State.deviceWrite s a l).Ok pend := by
  unfold State.deviceWrite
  try dsimp only
  repeat' first
    | with_reducible assumption | (intro) | with_reducible apply State.guardedWrite_keeps

theorem State.deviceBytes_keeps (s : State) (a : Nat) (d : List Byte) (hs : s.Ok pend) :
    (State.deviceBytes s a d).Ok pend := by
  unfold State.deviceBytes
  try dsimp only
  repeat' first
    | with_reducible assumption | (intro) | with_reducible apply State.deviceWrite_keeps

theorem State.deviceZero_keeps (s : State) (a n : Nat) (hs : s.Ok pend) :
    (State.deviceZero s a n).Ok pend := by
  unfold State.deviceZero
  try dsimp only
  repeat' first
    | with_reducible assumption | (intro) | with_reducible apply State.deviceWrite_keeps
    | with_reducible apply State.zeroRange_keeps | with_reducible apply State.Ok.memWf (pend := pend)
    | with_reducible apply State.Ok.queue | with_reducible apply State.Ok.flashWf (pend := pend)
    | with_reducible apply ite_keeps

theorem State.metaWrite_keeps (s : State) (a : Nat) (d : List Byte) (hs : s.Ok pend) :
    (State.metaWrite s a d).Ok pend := by
  unfold State.metaWrite
  try dsimp only
  repeat' first
    | with_reducible assumption | (intro) | with_reducible apply State.deviceWrite_keeps
    | with_reducible apply State.meetTable_keeps

theorem State.setRope_keeps (s : State) (r : Nat) (x : Rope) (hs : s.Ok pend) :
    (State.setRope s r x).Ok pend := by
  unfold State.setRope
  try dsimp only
  repeat' first
    | with_reducible assumption | with_reducible apply State.Ok.memWf (pend := pend)
    | with_reducible apply State.Ok.queue | with_reducible apply State.Ok.flashWf (pend := pend)
    | (simp only [ok_mk]; refine ⟨?_, ?_, ?_⟩)

theorem State.modRope_keeps (s : State) (r : Nat) (f : Rope → Rope) (hs : s.Ok pend) :
    (State.modRope s r f).Ok pend := by
  unfold State.modRope
  try dsimp only
  repeat' first | with_reducible assumption | with_reducible apply State.setRope_keeps

theorem State.writeLayout_keeps (s : State) (m v : Nat) (hs : s.Ok pend) :
    (State.writeLayout s m v).Ok pend := by
  unfold State.writeLayout
  try dsimp only
  repeat' first | with_reducible assumption | with_reducible apply State.put_keeps | with_reducible apply ite_keeps

theorem State.writeLayTag_keeps (s : State) (m v : Nat) (hs : s.Ok pend) :
    (State.writeLayTag s m v).Ok pend := by
  unfold State.writeLayTag
  try dsimp only
  repeat' first | with_reducible assumption | with_reducible apply State.put_keeps | with_reducible apply ite_keeps

theorem State.issueRow_keeps (s : State) (use : JobUse) (dst : Nat) (src : Option Nat) (hs : s.Ok pend) :
    (State.issueRow s use dst src).Ok pend := by
  unfold State.issueRow
  try dsimp only
  repeat' first
    | with_reducible assumption | (intro) | with_reducible apply State.portWait_keeps
    | with_reducible apply State.rowRefuse_keeps | with_reducible apply State.rowReply_keeps
    | with_reducible apply State.Ok.memWf (pend := pend) | with_reducible apply State.Ok.queue
    | with_reducible apply State.Ok.flashWf (pend := pend) | with_reducible apply ite_keeps
    | with_reducible apply ite_keeps1 | split | (simp only [ok_mk]; refine ⟨?_, ?_, ?_⟩)

theorem State.dropJobs_keeps (s : State) (use : JobUse) (hs : s.Ok pend) :
    (State.dropJobs s use).Ok pend := by
  unfold State.dropJobs
  try dsimp only
  repeat' first
    | with_reducible assumption | (intro) | with_reducible apply State.Ok.memWf (pend := pend)
    | with_reducible apply State.Ok.queue | with_reducible apply State.Ok.flashWf (pend := pend) | split
    | (simp only [ok_mk]; refine ⟨?_, ?_, ?_⟩)

theorem State.freeFrame_keeps (s : State) (h : Nat) (hs : s.Ok pend) :
    (State.freeFrame s h).Ok pend := by
  unfold State.freeFrame
  try dsimp only
  repeat' first
    | with_reducible assumption | (intro) | with_reducible apply State.issueRow_keeps
    | with_reducible apply State.Ok.memWf (pend := pend) | with_reducible apply State.Ok.queue
    | with_reducible apply State.Ok.flashWf (pend := pend) | with_reducible apply foldl_keeps
    | with_reducible apply foldl_keeps1 | with_reducible apply foldl_keeps2 | split
    | (simp only [ok_mk]; refine ⟨?_, ?_, ?_⟩)

theorem State.takeFrame_keeps (s : State) (h x : Nat) (hs : s.Ok pend) :
    (State.takeFrame s h x).Ok pend := by
  unfold State.takeFrame
  try dsimp only
  repeat' first
    | with_reducible assumption | (intro) | with_reducible apply State.count_keeps
    | with_reducible apply State.deviceZero_keeps | with_reducible apply State.Ok.memWf (pend := pend)
    | with_reducible apply State.Ok.queue | with_reducible apply State.Ok.flashWf (pend := pend)
    | with_reducible apply ite_keeps | with_reducible apply ite_keeps1 | split
    | (simp only [ok_mk]; refine ⟨?_, ?_, ?_⟩)

theorem State.moveSectors_keeps (s : State) (src dst n : Nat) (hs : s.Ok pend) :
    (State.moveSectors s src dst n).Ok pend := by
  unfold State.moveSectors
  try dsimp only
  repeat' first
    | with_reducible assumption | (intro) | with_reducible apply State.deviceWrite_keeps
    | with_reducible apply State.reportAll_keeps

theorem State.moveRow_keeps (s : State) (src dst : Nat) (hs : s.Ok pend) :
    (State.moveRow s src dst).Ok pend := by
  unfold State.moveRow
  try dsimp only
  repeat' first
    | with_reducible assumption | (intro) | with_reducible apply State.moveSectors_keeps

theorem State.setPage_keeps (s : State) (x : Nat) (e : PageEntry) (hs : s.Ok pend) :
    (State.setPage s x e).Ok pend := by
  unfold State.setPage
  try dsimp only
  repeat' first | with_reducible assumption | with_reducible apply State.metaWrite_keeps

theorem State.modPage_keeps (s : State) (x : Nat) (f : PageEntry → PageEntry) (hs : s.Ok pend) :
    (State.modPage s x f).Ok pend := by
  unfold State.modPage
  try dsimp only
  repeat' first | with_reducible assumption | with_reducible apply State.setPage_keeps

theorem State.dropPage_keeps (s : State) (x : Nat) (hs : s.Ok pend) :
    (State.dropPage s x).Ok pend := by
  unfold State.dropPage
  try dsimp only
  repeat' first
    | with_reducible assumption | (intro) | with_reducible apply State.freeFrame_keeps
    | with_reducible apply State.Ok.memWf (pend := pend) | with_reducible apply State.Ok.queue
    | with_reducible apply State.Ok.flashWf (pend := pend) | with_reducible apply foldl_keeps
    | with_reducible apply foldl_keeps1 | with_reducible apply foldl_keeps2 | split
    | (simp only [ok_mk]; refine ⟨?_, ?_, ?_⟩)

theorem State.releaseRef_keeps (s : State) (x : Nat) (cairn : Bool) (hs : s.Ok pend) :
    (State.releaseRef s x cairn).Ok pend := by
  unfold State.releaseRef
  try dsimp only
  repeat' first
    | with_reducible assumption | with_reducible apply State.setPage_keeps | with_reducible apply State.dropPage_keeps
    | with_reducible apply State.Ok.memWf (pend := pend) | with_reducible apply State.Ok.queue
    | with_reducible apply State.Ok.flashWf (pend := pend) | with_reducible apply ite_keeps

theorem State.addRef_keeps (s : State) (x : Nat) (cairn : Bool) (hs : s.Ok pend) :
    (State.addRef s x cairn).Ok pend := by
  unfold State.addRef
  try dsimp only
  repeat' first
    | with_reducible assumption | with_reducible apply State.modPage_keeps
    | with_reducible apply State.Ok.memWf (pend := pend) | with_reducible apply State.Ok.queue
    | with_reducible apply State.Ok.flashWf (pend := pend) | with_reducible apply ite_keeps

theorem State.newNode_keeps (s : State) (u : NodeUse) (hs : s.Ok pend) :
    OptOk1 pend (State.newNode s u) := by
  unfold State.newNode
  try dsimp only
  repeat' first
    | with_reducible assumption | (intro) | with_reducible apply State.deviceBytes_keeps
    | with_reducible apply ite_optOk | with_reducible apply ite_optOk1 | with_reducible apply optOk_none
    | with_reducible apply optOk_some | with_reducible apply optOk1_none | with_reducible apply optOk1_some
    | with_reducible apply bind_optOk | with_reducible apply bind_optOk1 | with_reducible apply bind_optOk1'
    | with_reducible apply bindAny_optOk1 | with_reducible apply map_optOk1 | with_reducible apply elim_optOk
    | with_reducible apply elim_optOk1 | with_reducible apply State.Ok.memWf (pend := pend)
    | with_reducible apply State.Ok.queue | with_reducible apply State.Ok.flashWf (pend := pend)
    | with_reducible apply ite_keeps | with_reducible apply ite_keeps1 | split
    | (simp only [ok_mk]; refine ⟨?_, ?_, ?_⟩)

theorem State.growTree_keeps (r b n : Nat) (s : State) (hs : s.Ok pend) : OptOk pend (State.growTree r b n s) := by
  induction n generalizing s with
  | zero => exact hs
  | succ n ih =>
    unfold State.growTree
    apply ite_optOk (optOk_some hs)
    refine bind_optOk (State.newNode_keeps _ _ hs) (fun e he => ih _ (State.setRope_keeps _ _ _ ?_))
    exact ite_keeps he (State.metaWrite_keeps _ _ _ he)

theorem State.makePath_keeps (r b n : Nat) (s : State) (a : Nat) (hs : s.Ok pend) : OptOk1 pend (State.makePath r b n s a) := by
  induction n generalizing s a with
  | zero => exact hs
  | succ n ih =>
    unfold State.makePath
    exact elim_optOk1 (bind_optOk1 (State.newNode_keeps _ _ hs) (fun e he => ih _ _ (State.metaWrite_keeps _ _ _ he)))
      (fun c => ih _ _ hs)

theorem State.makeRecord_keeps (s : State) (r b : Nat) (hs : s.Ok pend) : OptOk1 pend (s.makeRecord r b) := by
  unfold State.makeRecord
  exact bind_optOk1' (State.growTree_keeps _ _ _ _ hs) (fun e he => State.makePath_keeps _ _ _ _ _ he)

theorem State.meetPages_keeps (s : State) (r : Nat) (blocks pairs : List Nat) (hs : s.Ok pend) :
    (State.meetPages s r blocks pairs).Ok pend := by
  unfold State.meetPages
  try dsimp only
  repeat' first
    | with_reducible assumption | (intro) | with_reducible apply State.meetTable_keeps

theorem State.meetRecords_keeps (s : State) (r : Nat) (blocks : List Nat) (hs : s.Ok pend) :
    (State.meetRecords s r blocks).Ok pend := by
  unfold State.meetRecords
  try dsimp only
  repeat' first
    | with_reducible assumption | (intro) | with_reducible apply State.meetTable_keeps

theorem State.setRecId_keeps (s : State) (rec i x : Nat) (hs : s.Ok pend) :
    (State.setRecId s rec i x).Ok pend := by
  unfold State.setRecId
  try dsimp only
  repeat' first | with_reducible assumption | with_reducible apply State.metaWrite_keeps

theorem State.releaseBlocks_keeps (s : State) (r start : Nat) (hs : s.Ok pend) :
    (State.releaseBlocks s r start).Ok pend := by
  unfold State.releaseBlocks
  try dsimp only
  repeat' first
    | with_reducible assumption | (intro) | with_reducible apply State.meetRecords_keeps
    | with_reducible apply State.metaWrite_keeps | with_reducible apply State.releaseRef_keeps
    | with_reducible apply State.Ok.memWf (pend := pend) | with_reducible apply State.Ok.queue
    | with_reducible apply State.Ok.flashWf (pend := pend) | with_reducible apply foldl_keeps
    | with_reducible apply foldl_keeps1 | with_reducible apply foldl_keeps2 | with_reducible apply ite_keeps
    | with_reducible apply ite_keeps1 | split | (simp only [ok_mk]; refine ⟨?_, ?_, ?_⟩)

theorem State.ropeSelect_keeps (s : State) (who v : Nat) (hs : s.Ok pend) :
    (State.ropeSelect s who v).Ok pend := by
  unfold State.ropeSelect
  try dsimp only
  repeat' first
    | with_reducible assumption | with_reducible apply State.put_keeps
    | with_reducible apply State.Ok.memWf (pend := pend) | with_reducible apply State.Ok.queue
    | with_reducible apply State.Ok.flashWf (pend := pend) | (simp only [ok_mk]; refine ⟨?_, ?_, ?_⟩)

theorem State.setThresholds_keeps (s : State) (n up : Nat) (hs : s.Ok pend) :
    (State.setThresholds s n up).Ok pend := by
  unfold State.setThresholds
  try dsimp only
  repeat' first | with_reducible assumption | with_reducible apply State.put_keeps

theorem State.ropesStart_keeps (s : State) (hs : s.Ok pend) :
    (State.ropesStart s).Ok pend := by
  unfold State.ropesStart
  try dsimp only
  repeat' first
    | with_reducible assumption | (intro) | with_reducible apply State.deviceZero_keeps
    | with_reducible apply State.put_keeps | with_reducible apply State.putFlag_keeps
    | with_reducible apply State.setThresholds_keeps | with_reducible apply State.Ok.memWf (pend := pend)
    | with_reducible apply State.Ok.queue | with_reducible apply State.Ok.flashWf (pend := pend)
    | with_reducible apply foldl_keeps | with_reducible apply foldl_keeps1 | with_reducible apply foldl_keeps2
    | with_reducible apply ite_keeps | with_reducible apply ite_keeps1 | split
    | (simp only [ok_mk]; refine ⟨?_, ?_, ?_⟩)

theorem State.ropesStop_keeps (s : State) (hs : s.Ok pend) :
    (State.ropesStop s).Ok pend := by
  unfold State.ropesStop
  try dsimp only
  repeat' first
    | with_reducible assumption | with_reducible apply State.putFlag_keeps
    | with_reducible apply State.Ok.memWf (pend := pend) | with_reducible apply State.Ok.queue
    | with_reducible apply State.Ok.flashWf (pend := pend) | with_reducible apply ite_keeps | split
    | (simp only [ok_mk]; refine ⟨?_, ?_, ?_⟩)

theorem State.writeRopeCfg_keeps (s : State) (v : Nat) (hs : s.Ok pend) :
    (State.writeRopeCfg s v).Ok pend := by
  unfold State.writeRopeCfg
  try dsimp only
  repeat' first
    | with_reducible assumption | (intro) | with_reducible apply State.heldField_keeps
    | with_reducible apply State.put_keeps | with_reducible apply State.putRwl_keeps
    | with_reducible apply State.ropesStart_keeps | with_reducible apply State.ropesStop_keeps
    | with_reducible apply State.Ok.memWf (pend := pend) | with_reducible apply State.Ok.queue
    | with_reducible apply State.Ok.flashWf (pend := pend) | with_reducible apply ite_keeps
    | with_reducible apply ite_keeps1 | split | (simp only [ok_mk]; refine ⟨?_, ?_, ?_⟩)

theorem State.clearRopes_keeps (s : State) (hs : s.Ok pend) :
    (State.clearRopes s).Ok pend := by
  unfold State.clearRopes
  try dsimp only
  repeat' first
    | with_reducible assumption | with_reducible apply State.put_keeps | with_reducible apply State.putFlag_keeps
    | with_reducible apply State.Ok.memWf (pend := pend) | with_reducible apply State.Ok.queue
    | with_reducible apply State.Ok.flashWf (pend := pend) | (simp only [ok_mk]; refine ⟨?_, ?_, ?_⟩)

theorem State.ropeSoft_keeps (s : State) (hs : s.Ok pend) :
    (State.ropeSoft s).Ok pend := by
  unfold State.ropeSoft
  try dsimp only
  repeat' first
    | with_reducible assumption | with_reducible apply State.softPage_keeps
    | with_reducible apply State.clearRopes_keeps

theorem State.finish_keeps (s : State) (c : CmdSrc) (status res0 res1 : Nat) (taint : Bool) (hs : s.Ok pend) :
    (State.finish s c status res0 res1 taint).Ok pend := by
  unfold State.finish
  try dsimp only
  repeat' first | with_reducible assumption | with_reducible apply State.completeCmd_keeps | split

theorem State.doOpen_keeps (s : State) (b : List Byte) (hs : s.Ok pend) :
    (State.doOpen s b).Ok pend := by
  unfold State.doOpen
  try dsimp only
  repeat' first | with_reducible assumption | with_reducible apply State.modRope_keeps

theorem State.doClose_keeps (s : State) (r : Nat) (hs : s.Ok pend) :
    (State.doClose s r).Ok pend := by
  unfold State.doClose
  try dsimp only
  repeat' first
    | with_reducible assumption | with_reducible apply State.modRope_keeps
    | with_reducible apply State.releaseBlocks_keeps | with_reducible apply State.Ok.memWf (pend := pend)
    | with_reducible apply State.Ok.queue | with_reducible apply State.Ok.flashWf (pend := pend)
    | (simp only [ok_mk]; refine ⟨?_, ?_, ?_⟩)

theorem State.forkBlocks_keeps (r src : Nat) (l : List Nat) (s : State) (hs : s.Ok pend) :
    OptOk pend (State.forkBlocks r src l s) := by
  induction l generalizing s with
  | nil => exact hs
  | cons b l ih =>
    unfold State.forkBlocks
    refine elim_optOk (ih _ hs) (fun a => bind_optOk (State.makeRecord_keeps _ _ _ hs) (fun e he => ih _ ?_))
    exact foldl_keeps _ _ _ (fun s x h => State.addRef_keeps _ _ _ h)
      (State.deviceBytes_keeps _ _ _ (State.meetRecords_keeps _ _ _ he))

theorem State.doFork_keeps (s : State) (b : List Byte) (hs : s.Ok pend) :
    OptOk pend (State.doFork s b) := by
  unfold State.doFork
  try dsimp only
  repeat' first
    | with_reducible assumption | with_reducible apply State.modRope_keeps | with_reducible apply ite_optOk
    | with_reducible apply ite_optOk1 | with_reducible apply State.forkBlocks_keeps

theorem State.doTrunc_keeps (s : State) (b : List Byte) (hs : s.Ok pend) :
    (State.doTrunc s b).Ok pend := by
  unfold State.doTrunc
  try dsimp only
  repeat' first
    | with_reducible assumption | (intro) | with_reducible apply ite_optOk | with_reducible apply ite_optOk1
    | with_reducible apply State.modRope_keeps | with_reducible apply State.modPage_keeps
    | with_reducible apply State.releaseBlocks_keeps | with_reducible apply foldl_keeps
    | with_reducible apply State.Ok.memWf (pend := pend) | with_reducible apply State.Ok.queue
    | with_reducible apply State.Ok.flashWf (pend := pend) | with_reducible apply ite_keeps | split

theorem State.doSet_keeps (s : State) (b : List Byte) (hs : s.Ok pend) :
    (State.doSet s b).Ok pend := by
  unfold State.doSet
  try dsimp only
  repeat' first | with_reducible assumption | with_reducible apply State.modRope_keeps

theorem State.ropeCommand_keeps (s : State) (c : CmdSrc) (op : Nat) (hs : s.Ok pend) :
    (State.ropeCommand s c op).Ok pend := by
  unfold State.ropeCommand
  try dsimp only
  repeat' first
    | with_reducible assumption | with_reducible apply State.finish_keeps | with_reducible apply ite_optOk
    | with_reducible apply ite_optOk1 | with_reducible apply State.doOpen_keeps
    | with_reducible apply State.doClose_keeps | with_reducible apply State.doFork_keeps
    | with_reducible apply State.doTrunc_keeps | with_reducible apply State.doSet_keeps
    | with_reducible apply ite_keeps | split | with_reducible exact optOk_none | with_reducible exact optOk1_none
    | with_reducible apply optOk_some | with_reducible apply optOk1_some
    | with_reducible refine OptOk.of (by assumption) ?_

theorem State.makePage_keeps (s : State) (h id mslot layer group : Nat) (hs : s.Ok pend) :
    (State.makePage s h id mslot layer group).Ok pend := by
  unfold State.makePage
  try dsimp only
  repeat' first
    | with_reducible assumption | with_reducible apply State.takeFrame_keeps
    | with_reducible apply State.setPage_keeps

theorem State.newPage_keeps (s : State) (r layer group : Nat) (hs : s.Ok pend) :
    OptOk1 pend (State.newPage s r layer group) := by
  unfold State.newPage
  try dsimp only
  repeat' first
    | with_reducible assumption | with_reducible apply State.makePage_keeps | with_reducible apply ite_optOk
    | with_reducible apply ite_optOk1 | split | with_reducible exact optOk_none | with_reducible exact optOk1_none
    | with_reducible apply optOk_some | with_reducible apply optOk1_some

theorem State.noteCopy_keeps (s : State) (c : KvCopy) (hs : s.Ok pend) : (s.noteCopy c).Ok pend :=
  ⟨hs.queue, hs.memWf, hs.flashWf⟩

theorem State.copyTo_keeps (s : State) (r b i x h y : Nat) (hs : s.Ok pend) : (s.copyTo r b i x h y).Ok pend := by
  unfold State.copyTo
  extract_lets e s2
  have h2 : s2.Ok pend := State.noteCopy_keeps _ _ (State.makePage_keeps _ _ _ _ _ _ hs)
  exact ite_keeps (foldl_keeps _ _ _ (fun s k h => State.issueRow_keeps _ _ _ _ h) h2) h2

theorem State.copyPage_keeps (s : State) (r b i x : Nat) (hs : s.Ok pend) : OptOk pend (s.copyPage r b i x) := by
  unfold State.copyPage
  cases s.copyFrame (s.page x).loc (s.pageDie (s.page x)) with
  | none => exact optOk_none
  | some h =>
    cases s.pickId with
    | none => exact optOk_none
    | some y => exact optOk_some (State.copyTo_keeps _ _ _ _ _ _ _ hs)

theorem State.linkCopy_keeps (s : State) (c : KvCopy) (hs : s.Ok pend) :
    (State.linkCopy s c).Ok pend := by
  unfold State.linkCopy
  try dsimp only
  repeat' first
    | with_reducible assumption | (intro) | with_reducible apply State.modPage_keeps
    | with_reducible apply State.releaseRef_keeps | with_reducible apply State.setRecId_keeps
    | with_reducible apply State.Ok.memWf (pend := pend) | with_reducible apply State.Ok.queue
    | with_reducible apply State.Ok.flashWf (pend := pend) | with_reducible apply ite_keeps
    | with_reducible apply ite_keeps1 | split

theorem State.finishCopy_keeps (s : State) (c : KvCopy) (hs : s.Ok pend) :
    (State.finishCopy s c).Ok pend := by
  unfold State.finishCopy
  try dsimp only
  repeat' first
    | with_reducible assumption | (intro) | with_reducible apply State.count_keeps
    | with_reducible apply State.dropJobs_keeps | with_reducible apply State.linkCopy_keeps
    | with_reducible apply State.moveRow_keeps | with_reducible apply State.Ok.memWf (pend := pend)
    | with_reducible apply State.Ok.queue | with_reducible apply State.Ok.flashWf (pend := pend)
    | with_reducible apply foldl_keeps | with_reducible apply foldl_keeps1 | with_reducible apply foldl_keeps2
    | with_reducible apply ite_keeps | with_reducible apply ite_keeps1 | split
    | (simp only [ok_mk]; refine ⟨?_, ?_, ?_⟩)

theorem State.finishCopies_keeps (s : State) (hs : s.Ok pend) :
    (State.finishCopies s).Ok pend := by
  unfold State.finishCopies
  try dsimp only
  repeat' first
    | with_reducible assumption | (intro) | with_reducible apply State.finishCopy_keeps
    | with_reducible apply State.Ok.memWf (pend := pend) | with_reducible apply State.Ok.queue
    | with_reducible apply State.Ok.flashWf (pend := pend) | with_reducible apply foldl_keeps

theorem State.writeSlot_keeps (s : State) (l : Lay) (page tau : Nat) (heads : List KvHead) (hs : s.Ok pend) :
    (State.writeSlot s l page tau heads).Ok pend := by
  unfold State.writeSlot
  try dsimp only
  repeat' first
    | with_reducible assumption | (intro) | with_reducible apply State.deviceBytes_keeps
    | with_reducible apply State.Ok.memWf (pend := pend) | with_reducible apply State.Ok.queue
    | with_reducible apply State.Ok.flashWf (pend := pend) | with_reducible apply foldl_keeps
    | with_reducible apply foldl_keeps1 | with_reducible apply foldl_keeps2 | split

theorem State.targetPage_keeps (s : State) (r b i : Nat) (hs : s.Ok pend) :
    (State.targetPage s r b i).1.Ok pend := by
  unfold State.targetPage
  extract_lets l s0
  have h0 : s0.Ok pend := State.finishCopies_keeps _ (State.meetPages_keeps s r [b] [i] hs)
  clear_value s0
  refine ite_keeps1 h0 ?_
  have h1 := State.makeRecord_keeps s0 r b h0
  cases hm : s0.makeRecord r b with
  | none => exact h0
  | some q =>
    obtain ⟨s1, rec⟩ := q
    have h2 : s1.Ok pend := OptOk1.of hm h1
    have h3 := State.newPage_keeps s1 r (i / l.groups) (i % l.groups) h2
    have h4 := State.copyPage_keeps s1 r b i (s1.recId rec i) h2
    dsimp only
    split
    · split
      · exact h0
      · exact State.setRecId_keeps _ _ _ _ (OptOk1.of (by assumption) h3)
    · refine ite_keeps1 h0 (ite_keeps1 ?_ (ite_keeps1 h0 h2))
      split
      · exact h0
      · exact ite_keeps1 (State.finishCopies_keeps _ (OptOk.of (by assumption) h4))
          (State.finishCopies_keeps _ (OptOk.of (by assumption) h4))

theorem State.kvWrite_keeps (s : State) (r pos i : Nat) (heads : List KvHead) (hs : s.Ok pend) :
    (State.kvWrite s r pos i heads).1.Ok pend := by
  unfold State.kvWrite
  try dsimp only
  repeat' first
    | with_reducible assumption | with_reducible apply State.modPage_keeps
    | with_reducible apply State.writeSlot_keeps | with_reducible apply State.targetPage_keeps
    | with_reducible apply State.Ok.memWf (pend := pend) | with_reducible apply State.Ok.queue
    | with_reducible apply State.Ok.flashWf (pend := pend) | with_reducible apply ite_keeps
    | with_reducible apply ite_keeps1

theorem State.scorePage_keeps (s : State) (r x : Nat) (hs : s.Ok pend) :
    (State.scorePage s r x).Ok pend := by
  unfold State.scorePage
  try dsimp only
  repeat' first
    | with_reducible assumption | with_reducible apply State.setPage_keeps
    | with_reducible apply State.Ok.memWf (pend := pend) | with_reducible apply State.Ok.queue
    | with_reducible apply State.Ok.flashWf (pend := pend) | with_reducible apply ite_keeps | split
    | (simp only [ok_mk]; refine ⟨?_, ?_, ?_⟩)

theorem State.agingWalk_keeps (s : State) (hs : s.Ok pend) :
    (State.agingWalk s).Ok pend := by
  unfold State.agingWalk
  try dsimp only
  repeat' first
    | with_reducible assumption | (intro) | with_reducible apply State.modPage_keeps
    | with_reducible apply foldl_keeps | with_reducible apply State.Ok.memWf (pend := pend)
    | with_reducible apply State.Ok.queue | with_reducible apply State.Ok.flashWf (pend := pend)
    | with_reducible apply ite_keeps

theorem State.epochEnd_keeps (s : State) (hs : s.Ok pend) :
    (State.epochEnd s).Ok pend := by
  unfold State.epochEnd
  try dsimp only
  repeat' first
    | with_reducible assumption | (intro) | with_reducible apply State.wrapCount_keeps
    | with_reducible apply State.setThresholds_keeps | with_reducible apply foldl_keeps
    | with_reducible apply State.Ok.memWf (pend := pend) | with_reducible apply State.Ok.queue
    | with_reducible apply State.Ok.flashWf (pend := pend) | with_reducible apply ite_keeps | split
    | (simp only [ok_mk]; refine ⟨?_, ?_, ?_⟩)

theorem State.frameZeroed_keeps (s : State) (h : Nat) (hs : s.Ok pend) :
    (State.frameZeroed s h).Ok pend := by
  unfold State.frameZeroed
  try dsimp only
  repeat' first
    | with_reducible assumption | (intro) | with_reducible apply State.count_keeps
    | with_reducible apply State.deviceZero_keeps | with_reducible apply State.dropJobs_keeps
    | with_reducible apply State.Ok.memWf (pend := pend) | with_reducible apply State.Ok.queue
    | with_reducible apply State.Ok.flashWf (pend := pend) | with_reducible apply foldl_keeps
    | with_reducible apply foldl_keeps1 | with_reducible apply foldl_keeps2 | with_reducible apply ite_keeps
    | with_reducible apply ite_keeps1 | split | (simp only [ok_mk]; refine ⟨?_, ?_, ?_⟩)

theorem State.demotionSweep_keeps (s : State) (n : Nat) (hs : s.Ok pend) :
    (State.demotionSweep s n).Ok pend := by
  unfold State.demotionSweep
  try dsimp only
  repeat' first
    | with_reducible assumption | (intro) | with_reducible apply foldl_keeps | with_reducible apply foldl_keeps1
    | with_reducible apply foldl_keeps2 | with_reducible apply State.Ok.memWf (pend := pend)
    | with_reducible apply State.Ok.queue | with_reducible apply State.Ok.flashWf (pend := pend)
    | with_reducible apply ite_keeps | with_reducible apply ite_keeps1 | split
    | (simp only [ok_mk]; refine ⟨?_, ?_, ?_⟩)

theorem State.startMove_keeps (s : State) (n x h : Nat) (hs : s.Ok pend) :
    (State.startMove s n x h).Ok pend := by
  unfold State.startMove
  try dsimp only
  repeat' first
    | with_reducible assumption | with_reducible apply State.takeFrame_keeps
    | with_reducible apply State.modPage_keeps | with_reducible apply State.Ok.memWf (pend := pend)
    | with_reducible apply State.Ok.queue | with_reducible apply State.Ok.flashWf (pend := pend)
    | (simp only [ok_mk]; refine ⟨?_, ?_, ?_⟩)

theorem State.moveStart_keeps (s : State) (x : Nat) (toNear : Bool) (hs : s.Ok pend) :
    (State.moveStart s x toNear).Ok pend := by
  unfold State.moveStart
  try dsimp only
  repeat' first
    | with_reducible assumption | with_reducible apply State.startMove_keeps | with_reducible apply ite_optOk
    | with_reducible apply ite_optOk1 | with_reducible apply State.Ok.memWf (pend := pend)
    | with_reducible apply State.Ok.queue | with_reducible apply State.Ok.flashWf (pend := pend)
    | with_reducible apply ite_keeps | split | (simp only [ok_mk]; refine ⟨?_, ?_, ?_⟩)

theorem State.moveDone_keeps (s : State) (x : Nat) (hs : s.Ok pend) :
    (State.moveDone s x).Ok pend := by
  unfold State.moveDone
  try dsimp only
  repeat' first
    | with_reducible assumption | (intro) | with_reducible apply State.count_keeps
    | with_reducible apply State.freeFrame_keeps | with_reducible apply State.moveRow_keeps
    | with_reducible apply State.setPage_keeps | with_reducible apply State.Ok.memWf (pend := pend)
    | with_reducible apply State.Ok.queue | with_reducible apply State.Ok.flashWf (pend := pend)
    | with_reducible apply foldl_keeps | with_reducible apply foldl_keeps1 | with_reducible apply foldl_keeps2
    | with_reducible apply ite_keeps | with_reducible apply ite_keeps1 | split
    | (simp only [ok_mk]; refine ⟨?_, ?_, ?_⟩)

theorem State.taintNotice_keeps (s : State) (t : Nat) (hs : s.Ok pend) :
    (State.taintNotice s t).Ok pend := by
  unfold State.taintNotice
  try dsimp only
  repeat' first
    | with_reducible assumption | with_reducible apply State.count_keeps | with_reducible apply State.modTile_keeps
    | with_reducible apply State.modRope_keeps | with_reducible apply State.Ok.memWf (pend := pend)
    | with_reducible apply State.Ok.queue | with_reducible apply State.Ok.flashWf (pend := pend)
    | with_reducible apply ite_keeps | split

end Sys2Proof.Machine
end

