-- ==== Sys2Proof/Laws/KeepCairn.lean ====
section
/-! SUPPORT. Every operation of `Machine/Cairn.lean` leaves the queue and keeps the canonical form of memory
and flash (`State.Ok`). -/

namespace Sys2Proof.Machine

variable {pend : List Instr}

theorem State.cairnRead_keeps (s : State) (a n : Nat) (hs : s.Ok pend) :
    (State.cairnRead s a n).1.Ok pend := by
  unfold State.cairnRead
  try dsimp only
  repeat' first
    | with_reducible assumption | (intro) | with_reducible apply ite_optOk | with_reducible apply ite_optOk1
    | with_reducible apply State.report_keeps | with_reducible apply State.reportSector_keeps
    | with_reducible apply foldl_keeps | with_reducible apply foldl_keeps1 | with_reducible apply foldl_keeps2
    | with_reducible apply ite_keeps | with_reducible apply ite_keeps1 | split

theorem State.readHead_keeps (s : State) (x : Nat) (hs : s.Ok pend) :
    (State.readHead s x).1.Ok pend := by
  unfold State.readHead
  try dsimp only
  repeat' first | with_reducible assumption | with_reducible apply State.cairnRead_keeps

theorem State.writeHead_keeps (s : State) (x : Nat) (h : CairnHead) (hs : s.Ok pend) :
    (State.writeHead s x h).Ok pend := by
  unfold State.writeHead
  try dsimp only
  repeat' first
    | with_reducible assumption | (intro) | with_reducible apply State.deviceBytes_keeps

theorem State.lookup_keeps (s : State) (d : List Byte) (hs : s.Ok pend) :
    (State.lookup s d).1.Ok pend := by
  unfold State.lookup
  try dsimp only
  repeat' first
    | with_reducible assumption | (intro) | with_reducible apply ite_optOk | with_reducible apply ite_optOk1
    | with_reducible apply State.count_keeps | with_reducible apply State.cairnRead_keeps
    | with_reducible apply State.readHead_keeps | with_reducible apply foldl_keeps | with_reducible apply foldl_keeps1
    | with_reducible apply foldl_keeps2 | with_reducible apply ite_keeps | with_reducible apply ite_keeps1 | split

theorem State.accepts_keeps (s : State) (r b parent x : Nat) (h : Option CairnHead) (tokens : List Byte) (hs : s.Ok pend) :
    (State.accepts s r b parent x h tokens).1.Ok pend := by
  unfold State.accepts
  try dsimp only
  repeat' first
    | with_reducible assumption | with_reducible apply State.cairnRead_keeps | with_reducible apply ite_optOk
    | with_reducible apply ite_optOk1 | with_reducible apply ite_keeps | with_reducible apply ite_keeps1 | split

theorem State.lower_keeps (s : State) (f : Field) (n : Nat) (hs : s.Ok pend) :
    (State.lower s f n).Ok pend := by
  unfold State.lower
  try dsimp only
  repeat' first | with_reducible assumption | with_reducible apply State.put_keeps

theorem State.evict_keeps (s : State) (x : Nat) (hs : s.Ok pend) :
    (State.evict s x).Ok pend := by
  unfold State.evict
  try dsimp only
  repeat' first
    | with_reducible assumption | (intro) | with_reducible apply ite_optOk | with_reducible apply ite_optOk1
    | with_reducible apply State.count_keeps | with_reducible apply State.releaseRef_keeps
    | with_reducible apply State.cairnRead_keeps | with_reducible apply State.readHead_keeps
    | with_reducible apply State.writeHead_keeps | with_reducible apply State.lower_keeps
    | with_reducible apply foldl_keeps | with_reducible apply foldl_keeps1 | with_reducible apply foldl_keeps2
    | with_reducible apply State.Ok.memWf (pend := pend) | with_reducible apply State.Ok.queue
    | with_reducible apply State.Ok.flashWf (pend := pend) | with_reducible apply ite_keeps
    | with_reducible apply ite_keeps1 | split | (simp only [ok_mk]; refine ⟨?_, ?_, ?_⟩)

theorem State.sweepRun_keeps (met : State → Bool) (keep : Option Nat) (n : Nat) (s : State) (hs : s.Ok pend) :
    (State.sweepRun met keep n s).1.Ok pend := by
  induction n generalizing s with
  | zero => exact hs
  | succ n ih =>
    unfold State.sweepRun
    dsimp only
    have h0 := foldl_keeps (fun s x => (s.readHead x).1) s ((s.sweepList (s.get pgCairn CAIRN_CURSOR.NEXT %
      s.cairnSize)).takeWhile (s.sweepSkips keep)) (fun s x h => State.readHead_keeps s x h) hs
    repeat' first
      | with_reducible assumption | with_reducible apply ih | with_reducible apply State.put_keeps
      | with_reducible apply State.evict_keeps | with_reducible apply State.writeHead_keeps
      | with_reducible apply State.readHead_keeps | split

theorem State.sweep_keeps (s : State) (met : State → Bool) (keep : Option Nat) (hs : s.Ok pend) : (s.sweep met keep).1.Ok pend := by
  unfold State.sweep
  split
  · exact hs
  · exact State.sweepRun_keeps _ _ _ _ hs

theorem State.frameSweep_keeps (s : State) (auto : Bool) (n : Nat) (copy : Option Nat) (hs : s.Ok pend) :
    (State.frameSweep s auto n copy).1.Ok pend := by
  unfold State.frameSweep
  try dsimp only
  repeat' first
    | with_reducible assumption | (intro) | with_reducible apply State.sweep_keeps

theorem State.blockTokens_keeps (s : State) (a b : Nat) (hs : s.Ok pend) :
    (State.blockTokens s a b).1.Ok pend := by
  unfold State.blockTokens
  try dsimp only
  repeat' first
    | with_reducible assumption | with_reducible apply State.readMem_keeps | with_reducible apply ite_keeps
    | with_reducible apply ite_keeps1

theorem State.attach_keeps (s : State) (r b x : Nat) (h : CairnHead) (rec : List Byte) (hs : s.Ok pend) :
    OptOk pend (State.attach s r b x h rec) := by
  unfold State.attach
  try dsimp only
  repeat' first
    | with_reducible assumption | (intro) | with_reducible apply State.addRef_keeps
    | with_reducible apply State.count_keeps | with_reducible apply State.deviceBytes_keeps
    | with_reducible apply State.makeRecord_keeps | with_reducible apply State.writeHead_keeps
    | with_reducible apply ite_optOk | with_reducible apply ite_optOk1 | with_reducible apply optOk_none
    | with_reducible apply optOk_some | with_reducible apply optOk1_none | with_reducible apply optOk1_some
    | with_reducible apply State.Ok.memWf (pend := pend) | with_reducible apply State.Ok.queue
    | with_reducible apply State.Ok.flashWf (pend := pend) | with_reducible apply foldl_keeps
    | with_reducible apply foldl_keeps1 | with_reducible apply foldl_keeps2
    | with_reducible refine OptOk.of (by assumption) ?_ | with_reducible refine OptOk1.of (by assumption) ?_
    | with_reducible refine OptOk1.of' (by assumption) ?_ | split

/-- What a look-up in the sharing index needs to know of the states on the way. -/
theorem Walk.matching_keeps (r tokens n : Nat) (w : Walk) (h : w.s.Ok pend) : (Walk.matching r tokens n w).s.Ok pend := by
  induction n generalizing w with
  | zero => exact h
  | succ n ih =>
    unfold Walk.matching
    dsimp only
    have h1 := State.blockTokens_keeps w.s tokens w.n h
    split
    · rename_i s1 e he; rw [he] at h1; exact h1
    · rename_i s1 toks he
      rw [he] at h1
      have h2 := State.lookup_keeps s1 (blockDigest w.digest (w.s.get pgRope (ROPE_LAY_TAG.TAG.at (w.s.rope r).mslot))
        (w.s.rope r).adapter toks) h1
      split
      · rename_i he2; rw [he2] at h2; exact h2
      · rename_i he2; rw [he2] at h2; exact h2
      · rename_i s2 x hh he2
        rw [he2] at h2
        have h3 := State.accepts_keeps s2 r w.n w.last x hh toks h2
        split
        · have h4 := keeps_of_fst (by assumption) h3
          split
          · exact h4
          · apply ih
            exact OptOk.of (by assumption) (State.attach_keeps _ _ _ _ _ _ h4)
        · exact State.count_keeps _ _ _ _ (keeps_of_fst (by assumption) h3)

theorem State.doMatch_keeps (s : State) (b : List Byte) (hs : s.Ok pend) :
    (State.doMatch s b).1.Ok pend := by
  unfold State.doMatch
  try dsimp only
  repeat' first
    | with_reducible assumption | with_reducible apply State.modRope_keeps | with_reducible apply Walk.matching_keeps
    | with_reducible apply State.Ok.memWf (pend := pend) | with_reducible apply State.Ok.queue
    | with_reducible apply State.Ok.flashWf (pend := pend) | with_reducible apply ite_keeps

theorem State.takeWay_keeps (s : State) (set : Nat) (parent : Option Nat) (hs : s.Ok pend) :
    (State.takeWay s set parent).1.Ok pend := by
  unfold State.takeWay
  try dsimp only
  repeat' first
    | with_reducible assumption | (intro) | with_reducible apply ite_optOk | with_reducible apply ite_optOk1
    | with_reducible apply State.readHead_keeps | with_reducible apply State.evict_keeps
    | with_reducible apply foldl_keeps | with_reducible apply foldl_keeps1 | with_reducible apply foldl_keeps2
    | with_reducible apply ite_keeps | with_reducible apply ite_keeps1 | split

theorem State.register_keeps (s : State) (r b x parent : Nat) (d rec tokens : List Byte) (hs : s.Ok pend) :
    (State.register s r b x parent d rec tokens).Ok pend := by
  unfold State.register
  try dsimp only
  repeat' first
    | with_reducible assumption | (intro) | with_reducible apply State.addRef_keeps
    | with_reducible apply State.count_keeps | with_reducible apply State.deviceBytes_keeps
    | with_reducible apply State.metaWrite_keeps | with_reducible apply State.readHead_keeps
    | with_reducible apply State.writeHead_keeps | with_reducible apply State.Ok.memWf (pend := pend)
    | with_reducible apply State.Ok.queue | with_reducible apply State.Ok.flashWf (pend := pend)
    | with_reducible apply foldl_keeps | with_reducible apply foldl_keeps1 | with_reducible apply foldl_keeps2
    | with_reducible apply ite_keeps | with_reducible apply ite_keeps1 | split

theorem State.anchorAt_keeps (s : State) (r b x : Nat) (hs : s.Ok pend) :
    (State.anchorAt s r b x).Ok pend := by
  unfold State.anchorAt
  try dsimp only
  repeat' first | with_reducible assumption | with_reducible apply State.modRope_keeps

theorem Walk.publish_keeps (r tokens first n : Nat) (w : Walk) (h : w.s.Ok pend) : (Walk.publish r tokens first n w).s.Ok pend := by
  induction n generalizing w with
  | zero => exact h
  | succ n ih =>
    unfold Walk.publish
    dsimp only
    have h0 := State.meetRecords_keeps w.s r [first + w.n] h
    generalize w.s.meetRecords r [first + w.n] = s0 at h0 ⊢
    split
    · exact h0
    · have h1 := State.blockTokens_keeps s0 tokens (first + w.n) h0
      split
      · rename_i s1 e he; rw [he] at h1; exact h1
      · rename_i s1 toks he
        rw [he] at h1
        split
        · rename_i he2
          have h2 := State.lookup_keeps s1 (blockDigest w.digest (s0.get pgRope (ROPE_LAY_TAG.TAG.at (s0.rope r).mslot))
            (s0.rope r).adapter toks) h1
          rw [he2] at h2; exact h2
        · rename_i s2 x hh he2
          have h2 := State.lookup_keeps s1 (blockDigest w.digest (s0.get pgRope (ROPE_LAY_TAG.TAG.at (s0.rope r).mslot))
            (s0.rope r).adapter toks) h1
          rw [he2] at h2
          have h3 := State.accepts_keeps s2 r (first + w.n) w.last x hh toks h2
          split
          · rename_i he3; rw [he3] at h3
            exact ih _ (State.anchorAt_keeps _ _ _ _ h3)
          · rename_i he3; rw [he3] at h3
            exact State.count_keeps _ _ _ _ h3
        · rename_i s2 he2
          have h2 := State.lookup_keeps s1 (blockDigest w.digest (s0.get pgRope (ROPE_LAY_TAG.TAG.at (s0.rope r).mslot))
            (s0.rope r).adapter toks) h1
          rw [he2] at h2
          generalize hc : (if s2.capMet (s0.lay (s0.rope r).mslot).pairs = true then (s2, true)
            else s2.sweep (fun t => t.capMet (s0.lay (s0.rope r).mslot).pairs) (if first + w.n = 0 then none else some w.last)) = cap
          have hcap : cap.1.Ok pend := by
            rw [← hc]
            exact ite_keeps1 h2 (State.sweep_keeps _ _ _ h2)
          split
          · exact State.count_keeps _ _ _ _ hcap
          · have h4 := State.takeWay_keeps cap.1 (s0.setOf (blockDigest w.digest (s0.get pgRope (ROPE_LAY_TAG.TAG.at
              (s0.rope r).mslot)) (s0.rope r).adapter toks)) (if first + w.n = 0 then none else some w.last) hcap
            split
            · rename_i he4; rw [he4] at h4; exact State.count_keeps _ _ _ _ h4
            · rename_i he4; rw [he4] at h4
              exact ih _ (State.anchorAt_keeps _ _ _ _ (State.register_keeps _ _ _ _ _ _ _ _ h4))

theorem State.doPublish_keeps (s : State) (b : List Byte) (hs : s.Ok pend) :
    (State.doPublish s b).1.Ok pend := by
  unfold State.doPublish
  try dsimp only
  repeat' first
    | with_reducible assumption | with_reducible apply State.cairnRead_keeps | with_reducible apply ite_optOk
    | with_reducible apply ite_optOk1 | with_reducible apply Walk.publish_keeps
    | with_reducible apply State.Ok.memWf (pend := pend) | with_reducible apply State.Ok.queue
    | with_reducible apply State.Ok.flashWf (pend := pend) | with_reducible apply ite_keeps
    | with_reducible apply ite_keeps1 | split

theorem State.selectEntry_keeps (s : State) (b : List Byte) (hs : s.Ok pend) :
    (State.selectEntry s b).1.Ok pend := by
  unfold State.selectEntry
  try dsimp only
  repeat' first
    | with_reducible assumption | with_reducible apply State.readHead_keeps | with_reducible apply ite_optOk
    | with_reducible apply ite_optOk1 | with_reducible apply State.lookup_keeps | with_reducible apply ite_keeps
    | with_reducible apply ite_keeps1 | split

theorem State.doPin_keeps (s : State) (b : List Byte) (pin : Bool) (hs : s.Ok pend) :
    (State.doPin s b pin).1.Ok pend := by
  unfold State.doPin
  try dsimp only
  repeat' first
    | with_reducible assumption | with_reducible apply State.count_keeps | with_reducible apply ite_optOk
    | with_reducible apply ite_optOk1 | with_reducible apply State.writeHead_keeps
    | with_reducible apply State.lower_keeps | with_reducible apply State.selectEntry_keeps
    | with_reducible apply State.Ok.memWf (pend := pend) | with_reducible apply State.Ok.queue
    | with_reducible apply State.Ok.flashWf (pend := pend) | with_reducible apply ite_keeps
    | with_reducible apply ite_keeps1 | split

theorem State.flushPass_keeps (s : State) (sel : CairnHead → Bool) (hs : s.Ok pend) :
    (State.flushPass s sel).1.Ok pend := by
  unfold State.flushPass
  try dsimp only
  repeat' first
    | with_reducible assumption | (intro) | with_reducible apply State.evict_keeps
    | with_reducible apply State.readHead_keeps | with_reducible apply State.Ok.memWf (pend := pend)
    | with_reducible apply State.Ok.queue | with_reducible apply State.Ok.flashWf (pend := pend)
    | with_reducible apply foldl_keeps | with_reducible apply foldl_keeps1 | with_reducible apply foldl_keeps2
    | with_reducible apply ite_keeps | with_reducible apply ite_keeps1 | split

theorem State.flushLoop_keeps (sel : CairnHead → Bool) (n : Nat) (s : State) (k : Nat) (hs : s.Ok pend) :
    (State.flushLoop sel n s k).1.Ok pend := by
  induction n generalizing s k with
  | zero => exact hs
  | succ n ih =>
    unfold State.flushLoop
    dsimp only
    repeat' first
      | with_reducible assumption | with_reducible apply ih | with_reducible apply State.flushPass_keeps | split

theorem State.doFlush_keeps (s : State) (b : List Byte) (hs : s.Ok pend) :
    (State.doFlush s b).1.Ok pend := by
  unfold State.doFlush
  try dsimp only
  repeat' first | with_reducible assumption | with_reducible apply State.flushLoop_keeps

theorem State.cairnCommand_keeps (s : State) (c : CmdSrc) (op : Nat) (hs : s.Ok pend) :
    (State.cairnCommand s c op).Ok pend := by
  unfold State.cairnCommand
  try dsimp only
  repeat' first
    | with_reducible assumption | with_reducible apply State.finish_keeps | with_reducible apply ite_optOk
    | with_reducible apply ite_optOk1 | with_reducible apply State.doMatch_keeps
    | with_reducible apply State.doPublish_keeps | with_reducible apply State.doPin_keeps
    | with_reducible apply State.doFlush_keeps | with_reducible apply ite_keeps | with_reducible apply ite_keeps1
    | split

theorem State.cairnStart_keeps (s : State) (hs : s.Ok pend) :
    (State.cairnStart s).Ok pend := by
  unfold State.cairnStart
  try dsimp only
  repeat' first
    | with_reducible assumption | (intro) | with_reducible apply State.deviceZero_keeps
    | with_reducible apply State.put_keeps | with_reducible apply State.putFlag_keeps
    | with_reducible apply State.Ok.memWf (pend := pend) | with_reducible apply State.Ok.queue
    | with_reducible apply State.Ok.flashWf (pend := pend) | with_reducible apply ite_keeps

theorem State.emptyDamaged_keeps (s : State) (x : Nat) (hs : s.Ok pend) :
    (State.emptyDamaged s x).Ok pend := by
  unfold State.emptyDamaged
  try dsimp only
  repeat' first
    | with_reducible assumption | (intro) | with_reducible apply State.cairnRead_keeps
    | with_reducible apply State.deviceBytes_keeps | with_reducible apply State.lower_keeps
    | with_reducible apply State.releaseRef_keeps | with_reducible apply State.Ok.memWf (pend := pend)
    | with_reducible apply State.Ok.queue | with_reducible apply State.Ok.flashWf (pend := pend)
    | with_reducible apply foldl_keeps | with_reducible apply foldl_keeps1 | with_reducible apply foldl_keeps2
    | split

theorem State.cairnStop_keeps (s : State) (hs : s.Ok pend) :
    (State.cairnStop s).Ok pend := by
  unfold State.cairnStop
  try dsimp only
  repeat' first
    | with_reducible assumption | (intro) | with_reducible apply State.emptyDamaged_keeps
    | with_reducible apply State.evict_keeps | with_reducible apply State.put_keeps
    | with_reducible apply State.putFlag_keeps | with_reducible apply State.readHead_keeps
    | with_reducible apply State.Ok.memWf (pend := pend) | with_reducible apply State.Ok.queue
    | with_reducible apply State.Ok.flashWf (pend := pend) | with_reducible apply foldl_keeps
    | with_reducible apply foldl_keeps1 | with_reducible apply foldl_keeps2 | with_reducible apply ite_keeps
    | with_reducible apply ite_keeps1 | split

theorem State.writeCairnCfg_keeps (s : State) (v : Nat) (hs : s.Ok pend) :
    (State.writeCairnCfg s v).Ok pend := by
  unfold State.writeCairnCfg
  try dsimp only
  repeat' first
    | with_reducible assumption | (intro) | with_reducible apply State.cairnStart_keeps
    | with_reducible apply State.cairnStop_keeps | with_reducible apply State.heldField_keeps
    | with_reducible apply State.put_keeps | with_reducible apply State.putRwl_keeps
    | with_reducible apply State.Ok.memWf (pend := pend) | with_reducible apply State.Ok.queue
    | with_reducible apply State.Ok.flashWf (pend := pend) | with_reducible apply ite_keeps

theorem State.cairnEmptied_keeps (s : State) (hs : s.Ok pend) :
    (State.cairnEmptied s).Ok pend := by
  unfold State.cairnEmptied
  try dsimp only
  repeat' first
    | with_reducible assumption | with_reducible apply State.putFlag_keeps | with_reducible apply ite_keeps

end Sys2Proof.Machine
end

