-- ==== Sys2Proof/Laws/KeepAttention.lean ====
section
/-! SUPPORT. Every operation of `Machine/Attention.lean` leaves the queue and keeps the canonical form of memory
and flash (`State.Ok`). -/

namespace Sys2Proof.Machine

variable {pend : List Instr}

theorem State.setAttn_keeps (s : State) (a : AttnCmd) (hs : s.Ok pend) :
    (State.setAttn s a).Ok pend := by
  unfold State.setAttn
  try dsimp only
  repeat' first
    | with_reducible assumption | with_reducible apply State.Ok.memWf (pend := pend)
    | with_reducible apply State.Ok.queue | with_reducible apply State.Ok.flashWf (pend := pend)
    | with_reducible apply ite_keeps | split | (simp only [ok_mk]; refine ⟨?_, ?_, ?_⟩)

theorem State.writeDone_keeps (s : State) (b : List Byte) (status a c : Nat) (hs : s.Ok pend) :
    (State.writeDone s b status a c).Ok pend := by
  unfold State.writeDone
  try dsimp only
  repeat' first
    | with_reducible assumption | with_reducible apply State.guardedWrite_keeps | with_reducible apply ite_keeps

theorem State.endAttn_keeps (s : State) (c : CmdSrc) (b : List Byte) (status r0 r1 : Nat) (taint : Bool) (hs : s.Ok pend) :
    (State.endAttn s c b status r0 r1 taint).Ok pend := by
  unfold State.endAttn
  try dsimp only
  repeat' first
    | with_reducible assumption | with_reducible apply State.finish_keeps | with_reducible apply State.writeDone_keeps

theorem State.attnAccept_keeps (s : State) (c : CmdSrc) (hs : s.Ok pend) :
    (State.attnAccept s c).Ok pend := by
  unfold State.attnAccept
  try dsimp only
  repeat' first
    | with_reducible assumption | with_reducible apply State.readMem_keeps | with_reducible apply ite_optOk
    | with_reducible apply ite_optOk1 | with_reducible apply State.endAttn_keeps
    | with_reducible apply State.Ok.memWf (pend := pend) | with_reducible apply State.Ok.queue
    | with_reducible apply State.Ok.flashWf (pend := pend) | with_reducible apply ite_keeps
    | with_reducible apply ite_keeps1 | split | (simp only [ok_mk]; refine ⟨?_, ?_, ?_⟩)

theorem State.noteWritten_keeps (s : State) (r : Nat) (tree : Bool) (e : Nat × Nat) (hs : s.Ok pend) :
    (State.noteWritten s r tree e).Ok pend := by
  unfold State.noteWritten
  try dsimp only
  repeat' first | with_reducible assumption | with_reducible apply State.modRope_keeps

theorem State.rowWrites_keeps (s : State) (a : AttnCmd) (x : AttnRow) (hs : s.Ok pend) :
    (State.rowWrites s a x).1.Ok pend := by
  unfold State.rowWrites
  try dsimp only
  repeat' first
    | with_reducible assumption | (intro) | with_reducible apply State.kvWrite_keeps
    | with_reducible apply State.noteWritten_keeps | with_reducible apply foldl_keeps
    | with_reducible apply foldl_keeps1 | with_reducible apply foldl_keeps2 | with_reducible apply ite_keeps
    | with_reducible apply ite_keeps1

theorem State.toKernel_keeps (s : State) (t addr n : Nat) (hs : s.Ok pend) :
    (State.toKernel s t addr n).Ok pend := by
  unfold State.toKernel
  try dsimp only
  repeat' first
    | with_reducible assumption | (intro) | with_reducible apply State.free_keeps
    | with_reducible apply State.moveSectors_keeps

theorem State.itemRead_keeps (s : State) (t rope : Nat) (l : Lay) (i : AttnItem) (hs : s.Ok pend) :
    (State.itemRead s t rope l i).1.Ok pend := by
  unfold State.itemRead
  try dsimp only
  repeat' first
    | with_reducible assumption | (intro) | with_reducible apply State.reportAll_keeps
    | with_reducible apply State.toKernel_keeps | with_reducible apply State.zeroLoad_keeps
    | with_reducible apply State.Ok.memWf (pend := pend) | with_reducible apply State.Ok.queue
    | with_reducible apply State.Ok.flashWf (pend := pend) | with_reducible apply foldl_keeps
    | with_reducible apply foldl_keeps1 | with_reducible apply foldl_keeps2 | with_reducible apply ite_keeps
    | with_reducible apply ite_keeps1 | split

theorem State.rowPartials_keeps (s : State) (t n : Nat) (a : AttnCmd) (x : AttnRow) (hs : s.Ok pend) :
    (State.rowPartials s t n a x).1.Ok pend := by
  unfold State.rowPartials
  try dsimp only
  repeat' first
    | with_reducible assumption | (intro) | with_reducible apply State.itemRead_keeps
    | with_reducible apply foldl_keeps | with_reducible apply foldl_keeps1

theorem State.sendOutput_keeps (s : State) (a : AttnCmd) (x : AttnRow) (rho home j h : Nat) (words : List (List
    Byte)) (hs : s.Ok pend) :
    (State.sendOutput s a x rho home j h words).1.Ok pend := by
  unfold State.sendOutput
  try dsimp only
  repeat' first
    | with_reducible assumption | (intro) | with_reducible apply State.modTile_keeps
    | with_reducible apply State.noteDown_keeps | with_reducible apply State.Ok.memWf (pend := pend)
    | with_reducible apply State.Ok.queue | with_reducible apply State.Ok.flashWf (pend := pend)
    | with_reducible apply ite_keeps | with_reducible apply ite_keeps1

theorem State.rowOutput_keeps (s : State) (a : AttnCmd) (x : AttnRow) (rho : Nat) (e : Nat × Nat) (hs : s.Ok pend) :
    (State.rowOutput s a x rho e).1.Ok pend := by
  unfold State.rowOutput
  try dsimp only
  repeat' first
    | with_reducible assumption | (intro) | with_reducible apply State.modTile_keeps
    | with_reducible apply State.sendOutput_keeps | with_reducible apply State.Ok.memWf (pend := pend)
    | with_reducible apply State.Ok.queue | with_reducible apply State.Ok.flashWf (pend := pend)
    | with_reducible apply ite_keeps | with_reducible apply ite_keeps1 | split
    | (simp only [ok_mk]; refine ⟨?_, ?_, ?_⟩)

theorem State.rowOutputs_keeps (s : State) (a : AttnCmd) (x : AttnRow) (rho : Nat) (hs : s.Ok pend) :
    (State.rowOutputs s a x rho).1.Ok pend := by
  unfold State.rowOutputs
  try dsimp only
  repeat' first
    | with_reducible assumption | (intro) | with_reducible apply State.rowOutput_keeps
    | with_reducible apply State.Ok.memWf (pend := pend) | with_reducible apply State.Ok.queue
    | with_reducible apply State.Ok.flashWf (pend := pend) | with_reducible apply foldl_keeps
    | with_reducible apply foldl_keeps1 | with_reducible apply foldl_keeps2 | with_reducible apply ite_keeps
    | with_reducible apply ite_keeps1

theorem State.hearOutputs_keeps (s : State) (hs : s.Ok pend) :
    (State.hearOutputs s).Ok pend := by
  unfold State.hearOutputs
  try dsimp only
  repeat' first
    | with_reducible assumption | (intro) | with_reducible apply State.Ok.memWf (pend := pend)
    | with_reducible apply State.Ok.queue | with_reducible apply State.Ok.flashWf (pend := pend)
    | with_reducible apply foldl_keeps | with_reducible apply foldl_keeps1 | with_reducible apply foldl_keeps2
    | with_reducible apply ite_keeps | with_reducible apply ite_keeps1 | split
    | (simp only [ok_mk]; refine ⟨?_, ?_, ?_⟩)

theorem State.kernelReturn_keeps (s : State) (t code : Nat) (worked : Bool) (hs : s.Ok pend) :
    (State.kernelReturn s t code worked).Ok pend := by
  unfold State.kernelReturn
  try dsimp only
  repeat' first
    | with_reducible assumption | (intro) | with_reducible apply State.setTile_keeps
    | with_reducible apply State.setArr_keeps | with_reducible apply foldl_keeps | with_reducible apply foldl_keeps2
    | with_reducible apply State.Ok.memWf (pend := pend) | with_reducible apply State.Ok.queue
    | with_reducible apply State.Ok.flashWf (pend := pend) | with_reducible apply ite_keeps
    | with_reducible apply ite_keeps1 | split | (simp only [ok_mk]; refine ⟨?_, ?_, ?_⟩)

theorem State.settleCmd_keeps (s : State) (id : Nat) (hs : s.Ok pend) :
    (State.settleCmd s id).Ok pend := by
  unfold State.settleCmd
  try dsimp only
  repeat' first
    | with_reducible assumption | (intro) | with_reducible apply ite_optOk | with_reducible apply ite_optOk1
    | with_reducible apply State.setAttn_keeps | with_reducible apply State.rowOutputs_keeps
    | with_reducible apply State.kernelReturn_keeps | with_reducible apply foldl_keeps
    | with_reducible apply foldl_keeps1 | with_reducible apply foldl_keeps2
    | with_reducible apply State.Ok.memWf (pend := pend) | with_reducible apply State.Ok.queue
    | with_reducible apply State.Ok.flashWf (pend := pend) | with_reducible apply ite_keeps
    | with_reducible apply ite_keeps1 | split

theorem State.attnSettle_keeps (s : State) (hs : s.Ok pend) :
    (State.attnSettle s).Ok pend := by
  unfold State.attnSettle
  try dsimp only
  repeat' first
    | with_reducible assumption | (intro) | with_reducible apply State.hearOutputs_keeps
    | with_reducible apply State.settleCmd_keeps | with_reducible apply State.Ok.memWf (pend := pend)
    | with_reducible apply State.Ok.queue | with_reducible apply State.Ok.flashWf (pend := pend)
    | with_reducible apply foldl_keeps

theorem State.scoreItems_keeps (s : State) (r : Nat) (items : List AttnItem) (hs : s.Ok pend) :
    (State.scoreItems s r items).Ok pend := by
  unfold State.scoreItems
  try dsimp only
  repeat' first
    | with_reducible assumption | (intro) | with_reducible apply State.scorePage_keeps
    | with_reducible apply foldl_keeps

theorem State.rowServe_keeps (s : State) (a : AttnCmd) (rho : Nat) (x : AttnRow) (hs : s.Ok pend) :
    (State.rowServe s a rho x).Ok pend := by
  unfold State.rowServe
  try dsimp only
  repeat' first
    | with_reducible assumption | (intro) | with_reducible apply State.count_keeps
    | with_reducible apply State.frameSweep_keeps | with_reducible apply State.meetPages_keeps
    | with_reducible apply State.readMem_keeps | with_reducible apply State.rowWrites_keeps
    | with_reducible apply State.scoreItems_keeps | with_reducible apply State.setAttn_keeps
    | with_reducible apply State.Ok.memWf (pend := pend) | with_reducible apply State.Ok.queue
    | with_reducible apply State.Ok.flashWf (pend := pend) | with_reducible apply foldl_keeps
    | with_reducible apply foldl_keeps1 | with_reducible apply foldl_keeps2 | with_reducible apply ite_keeps
    | with_reducible apply ite_keeps1 | split

theorem State.attnRowCheck_keeps (s : State) (id rho : Nat) (hs : s.Ok pend) :
    (State.attnRowCheck s id rho).Ok pend := by
  unfold State.attnRowCheck
  try dsimp only
  repeat' first
    | with_reducible assumption | with_reducible apply State.attnSettle_keeps | with_reducible apply ite_optOk
    | with_reducible apply ite_optOk1 | with_reducible apply State.rowServe_keeps | with_reducible apply ite_keeps
    | split

theorem State.kernelCall_keeps (s : State) (t cseq : Nat) (hs : s.Ok pend) :
    (State.kernelCall s t cseq).Ok pend := by
  unfold State.kernelCall
  try dsimp only
  repeat' first
    | with_reducible assumption | (intro) | with_reducible apply ite_optOk | with_reducible apply ite_optOk1
    | with_reducible apply State.modTile_keeps | with_reducible apply State.setAttn_keeps
    | with_reducible apply State.rowPartials_keeps | with_reducible apply State.kernelReturn_keeps
    | with_reducible apply State.attnSettle_keeps | with_reducible apply foldl_keeps
    | with_reducible apply foldl_keeps1 | with_reducible apply foldl_keeps2
    | with_reducible apply State.Ok.memWf (pend := pend) | with_reducible apply State.Ok.queue
    | with_reducible apply State.Ok.flashWf (pend := pend) | with_reducible apply ite_keeps
    | with_reducible apply ite_keeps1 | split | (simp only [ok_mk]; refine ⟨?_, ?_, ?_⟩)

theorem State.kernelTimeout_keeps (s : State) (t cseq : Nat) (hs : s.Ok pend) :
    (State.kernelTimeout s t cseq).Ok pend := by
  unfold State.kernelTimeout
  try dsimp only
  repeat' first
    | with_reducible assumption | with_reducible apply State.kernelReturn_keeps | with_reducible apply ite_optOk
    | with_reducible apply ite_optOk1 | with_reducible apply ite_keeps | split

theorem State.loseRow_keeps (s : State) (a : AttnCmd) (rho : Nat) (x : AttnRow) (hs : s.Ok pend) :
    (State.loseRow s a rho x).Ok pend := by
  unfold State.loseRow
  try dsimp only
  repeat' first
    | with_reducible assumption | (intro) | with_reducible apply State.free_keeps
    | with_reducible apply State.sendOutput_keeps | with_reducible apply State.Ok.memWf (pend := pend)
    | with_reducible apply State.Ok.queue | with_reducible apply State.Ok.flashWf (pend := pend)
    | with_reducible apply foldl_keeps | with_reducible apply foldl_keeps1 | with_reducible apply foldl_keeps2
    | with_reducible apply ite_keeps | with_reducible apply ite_keeps1 | split
    | (simp only [ok_mk]; refine ⟨?_, ?_, ?_⟩)

theorem State.rowTimeout_keeps (s : State) (id rho : Nat) (hs : s.Ok pend) :
    (State.rowTimeout s id rho).Ok pend := by
  unfold State.rowTimeout
  try dsimp only
  repeat' first
    | with_reducible assumption | (intro) | with_reducible apply State.attnSettle_keeps
    | with_reducible apply State.loseRow_keeps | with_reducible apply State.setAttn_keeps
    | with_reducible apply State.Ok.memWf (pend := pend) | with_reducible apply State.Ok.queue
    | with_reducible apply State.Ok.flashWf (pend := pend) | with_reducible apply foldl_keeps
    | with_reducible apply foldl_keeps1 | with_reducible apply foldl_keeps2 | with_reducible apply ite_keeps
    | with_reducible apply ite_keeps1 | split

theorem State.rowLength_keeps (s : State) (a : AttnCmd) (x : AttnRow) (hs : s.Ok pend) :
    (State.rowLength s a x).Ok pend := by
  unfold State.rowLength
  try dsimp only
  repeat' first
    | with_reducible assumption | with_reducible apply State.modRope_keeps
    | with_reducible apply State.Ok.memWf (pend := pend) | with_reducible apply State.Ok.queue
    | with_reducible apply State.Ok.flashWf (pend := pend) | with_reducible apply ite_keeps

theorem State.rowRewrite_keeps (s : State) (a : AttnCmd) (rho : Nat) (x : AttnRow) (hs : s.Ok pend) :
    (State.rowRewrite s a rho x).Ok pend := by
  unfold State.rowRewrite
  try dsimp only
  repeat' first
    | with_reducible assumption | with_reducible apply State.free_keeps
    | with_reducible apply State.guardedWrite_keeps | with_reducible apply ite_keeps

theorem State.releaseLate_keeps (s : State) (id : Nat) (hs : s.Ok pend) :
    (State.releaseLate s id).Ok pend := by
  unfold State.releaseLate
  try dsimp only
  repeat' first
    | with_reducible assumption | (intro) | with_reducible apply State.freeFrame_keeps
    | with_reducible apply State.Ok.memWf (pend := pend) | with_reducible apply State.Ok.queue
    | with_reducible apply State.Ok.flashWf (pend := pend) | with_reducible apply foldl_keeps
    | with_reducible apply foldl_keeps1 | with_reducible apply foldl_keeps2 | split
    | (simp only [ok_mk]; refine ⟨?_, ?_, ?_⟩)

theorem State.attnComplete_keeps (s : State) (id : Nat) (hs : s.Ok pend) :
    (State.attnComplete s id).Ok pend := by
  unfold State.attnComplete
  try dsimp only
  repeat' first
    | with_reducible assumption | (intro) | with_reducible apply ite_optOk | with_reducible apply ite_optOk1
    | with_reducible apply State.endAttn_keeps | with_reducible apply State.rowLength_keeps
    | with_reducible apply State.rowRewrite_keeps | with_reducible apply State.releaseLate_keeps
    | with_reducible apply foldl_keeps | with_reducible apply State.Ok.memWf (pend := pend)
    | with_reducible apply State.Ok.queue | with_reducible apply State.Ok.flashWf (pend := pend)
    | with_reducible apply ite_keeps | split | (simp only [ok_mk]; refine ⟨?_, ?_, ?_⟩)

theorem State.copySlot_keeps (s : State) (r i src dst : Nat) (hs : s.Ok pend) :
    (State.copySlot s r i src dst).Ok pend := by
  unfold State.copySlot
  try dsimp only
  repeat' first
    | with_reducible assumption | (intro) | with_reducible apply State.moveSectors_keeps
    | with_reducible apply State.Ok.memWf (pend := pend) | with_reducible apply State.Ok.queue
    | with_reducible apply State.Ok.flashWf (pend := pend) | with_reducible apply foldl_keeps
    | with_reducible apply foldl_keeps1 | with_reducible apply foldl_keeps2 | split

theorem State.trimPage_keeps (s : State) (r i len b x id : Nat) (hs : s.Ok pend) :
    (State.trimPage s r i len b x id).Ok pend := by
  unfold State.trimPage
  try dsimp only
  repeat' first
    | with_reducible assumption | (intro) | with_reducible apply State.issueRow_keeps
    | with_reducible apply State.modPage_keeps | with_reducible apply State.releaseRef_keeps
    | with_reducible apply State.setRecId_keeps | with_reducible apply State.Ok.memWf (pend := pend)
    | with_reducible apply State.Ok.queue | with_reducible apply State.Ok.flashWf (pend := pend)
    | with_reducible apply foldl_keeps | with_reducible apply foldl_keeps1 | with_reducible apply foldl_keeps2
    | with_reducible apply ite_keeps | with_reducible apply ite_keeps1 | split

theorem State.acceptEnd_keeps (s : State) (a : AcceptRun) (hs : s.Ok pend) :
    (State.acceptEnd s a).Ok pend := by
  unfold State.acceptEnd
  try dsimp only
  repeat' first
    | with_reducible assumption | (intro) | with_reducible apply State.accepts_keeps
    | with_reducible apply State.count_keeps | with_reducible apply State.deviceZero_keeps
    | with_reducible apply State.dropJobs_keeps | with_reducible apply State.endAttn_keeps
    | with_reducible apply State.Ok.memWf (pend := pend) | with_reducible apply State.Ok.queue
    | with_reducible apply State.Ok.flashWf (pend := pend) | with_reducible apply foldl_keeps
    | with_reducible apply foldl_keeps1 | with_reducible apply foldl_keeps2 | with_reducible apply ite_keeps
    | with_reducible apply ite_keeps1 | split | (simp only [ok_mk]; refine ⟨?_, ?_, ?_⟩)

theorem State.acceptsEnd_keeps (s : State) (hs : s.Ok pend) :
    (State.acceptsEnd s).Ok pend := by
  unfold State.acceptsEnd
  try dsimp only
  repeat' first
    | with_reducible assumption | (intro) | with_reducible apply State.acceptEnd_keeps
    | with_reducible apply State.accepts_keeps | with_reducible apply State.Ok.memWf (pend := pend)
    | with_reducible apply State.Ok.queue | with_reducible apply State.Ok.flashWf (pend := pend)
    | with_reducible apply foldl_keeps

theorem State.acceptRun_keeps (s : State) (c : CmdSrc) (hs : s.Ok pend) :
    (State.acceptRun s c).Ok pend := by
  unfold State.acceptRun
  try dsimp only
  repeat' first
    | with_reducible assumption | (intro) | with_reducible apply State.acceptEnd_keeps
    | with_reducible apply State.accepts_keeps | with_reducible apply State.copySlot_keeps
    | with_reducible apply State.endAttn_keeps | with_reducible apply State.meetPages_keeps
    | with_reducible apply State.modRope_keeps | with_reducible apply State.readMem_keeps
    | with_reducible apply State.trimPage_keeps | with_reducible apply State.Ok.memWf (pend := pend)
    | with_reducible apply State.Ok.queue | with_reducible apply State.Ok.flashWf (pend := pend)
    | with_reducible apply foldl_keeps | with_reducible apply foldl_keeps1 | with_reducible apply foldl_keeps2
    | with_reducible apply ite_keeps | with_reducible apply ite_keeps1 | split
    | (simp only [ok_mk]; refine ⟨?_, ?_, ?_⟩)

end Sys2Proof.Machine
end

