-- ==== Sys2Proof/Laws/KeepPower.lean ====
section
/-! SUPPORT. Every operation of `Machine/Power.lean` leaves the queue and keeps the canonical form of memory
and flash (`State.Ok`). -/

namespace Sys2Proof.Machine

variable {pend : List Instr}

theorem State.zeroWhere_keeps (s : State) (f : Nat → Bool) (hs : s.Ok pend) :
    (State.zeroWhere s f).Ok pend := by
  unfold State.zeroWhere
  try dsimp only
  repeat' first
    | with_reducible assumption | with_reducible apply memWrite_wf | with_reducible apply memZero_wf
    | with_reducible apply filter_wf | with_reducible exact memWf_nil
    | with_reducible apply State.Ok.memWf (pend := pend) | with_reducible apply State.Ok.queue
    | with_reducible apply State.Ok.flashWf (pend := pend) | (simp only [ok_mk]; refine ⟨?_, ?_, ?_⟩)

theorem State.dropRegion_keeps (s : State) (b r : Nat) (hs : s.Ok pend) :
    (State.dropRegion s b r).Ok pend := by
  unfold State.dropRegion
  try dsimp only
  repeat' first
    | with_reducible assumption | with_reducible apply State.Ok.memWf (pend := pend)
    | with_reducible apply State.Ok.queue | with_reducible apply State.Ok.flashWf (pend := pend)
    | (simp only [ok_mk]; refine ⟨?_, ?_, ?_⟩)

theorem State.dropStack_keeps (s : State) (k : Nat) (hs : s.Ok pend) :
    (State.dropStack s k).Ok pend := by
  unfold State.dropStack
  try dsimp only
  repeat' first
    | with_reducible assumption | with_reducible apply State.Ok.memWf (pend := pend) | with_reducible apply ite_optOk
    | with_reducible apply ite_optOk1 | with_reducible apply State.Ok.queue
    | with_reducible apply State.Ok.flashWf (pend := pend) | with_reducible apply ite_keeps | split
    | (simp only [ok_mk]; refine ⟨?_, ?_, ?_⟩)

theorem State.domLost_keeps (s : State) (d : Domain) (hs : s.Ok pend) : (s.domLost d).Ok pend := by
  unfold State.domLost
  split
  · exact State.tileLost_keeps _ _ hs
  · exact State.zeroWhere_keeps _ _ hs
  · split
    · exact State.dropRegion_keeps _ _ _ hs
    · exact State.zeroRange_keeps _ _ _ hs
  · rename_i k; exact State.dropStack_keeps _ k.val (State.zeroRange_keeps _ _ _ hs)
  · exact State.disablePort_keeps _ _ hs
  · exact State.disablePort_keeps _ _ hs

theorem State.beginMove_keeps (s : State) (d : Domain) (target : Nat) (hs : s.Ok pend) :
    (State.beginMove s d target).Ok pend := by
  unfold State.beginMove
  try dsimp only
  repeat' first
    | with_reducible assumption | (intro) | with_reducible apply State.enablePort_keeps
    | with_reducible apply State.setDom_keeps | with_reducible apply State.Ok.memWf (pend := pend)
    | with_reducible apply State.Ok.queue | with_reducible apply State.Ok.flashWf (pend := pend)
    | with_reducible apply ite_keeps | with_reducible apply ite_keeps1 | split
    | (simp only [ok_mk]; refine ⟨?_, ?_, ?_⟩)

theorem State.portResumes_keeps (s : State) (i : Nat) (hs : s.Ok pend) :
    (State.portResumes s i).Ok pend := by
  unfold State.portResumes
  try dsimp only
  repeat' first
    | with_reducible assumption | (intro) | with_reducible apply State.portGo_keeps
    | with_reducible apply State.setPort_keeps | with_reducible apply State.wakePort_keeps
    | with_reducible apply State.Ok.memWf (pend := pend) | with_reducible apply State.Ok.queue
    | with_reducible apply State.Ok.flashWf (pend := pend) | with_reducible apply ite_keeps

theorem State.domOn_keeps (s : State) (d : Domain) (hs : s.Ok pend) :
    (State.domOn s d).Ok pend := by
  unfold State.domOn
  try dsimp only
  repeat' first
    | with_reducible assumption | (intro) | with_reducible apply State.deliverTo_keeps
    | with_reducible apply State.portResumes_keeps | with_reducible apply State.rerun_keeps
    | with_reducible apply State.setDom_keeps | with_reducible apply State.Ok.memWf (pend := pend)
    | with_reducible apply State.Ok.queue | with_reducible apply State.Ok.flashWf (pend := pend)
    | with_reducible apply foldl_keeps | with_reducible apply foldl_keeps1 | with_reducible apply foldl_keeps2
    | split | (simp only [ok_mk]; refine ⟨?_, ?_, ?_⟩)

theorem State.abandon_keeps (s : State) (d : Domain) (hs : s.Ok pend) :
    (State.abandon s d).Ok pend := by
  unfold State.abandon
  try dsimp only
  repeat' first | with_reducible assumption | with_reducible apply State.domOn_keeps

theorem State.wakeOne_keeps (s : State) (d : Domain) (hs : s.Ok pend) :
    (State.wakeOne s d).Ok pend := by
  unfold State.wakeOne
  try dsimp only
  repeat' first
    | with_reducible assumption | with_reducible apply State.free_keeps | with_reducible apply ite_optOk
    | with_reducible apply ite_optOk1 | with_reducible apply State.beginMove_keeps
    | with_reducible apply State.abandon_keeps | with_reducible apply State.Ok.memWf (pend := pend)
    | with_reducible apply State.Ok.queue | with_reducible apply State.Ok.flashWf (pend := pend)
    | with_reducible apply ite_keeps | with_reducible apply ite_keeps1 | split
    | (simp only [ok_mk]; refine ⟨?_, ?_, ?_⟩)

theorem State.wakeDomain_keeps (s : State) (d : Domain) (hs : s.Ok pend) :
    (State.wakeDomain s d).Ok pend := by
  unfold State.wakeDomain
  try dsimp only
  repeat' first
    | with_reducible assumption | (intro) | with_reducible apply State.wakeOne_keeps
    | with_reducible apply foldl_keeps | with_reducible apply ite_keeps | split

theorem State.domainEntry_keeps (s : State) (d : Domain) (toOff : Bool) (hs : s.Ok pend) :
    (State.domainEntry s d toOff).Ok pend := by
  unfold State.domainEntry
  try dsimp only
  repeat' first
    | with_reducible assumption | with_reducible apply State.setPort_keeps | with_reducible apply ite_optOk
    | with_reducible apply ite_optOk1 | with_reducible apply State.sendControl_keeps
    | with_reducible apply State.lpAsked_keeps | with_reducible apply State.beginMove_keeps
    | with_reducible apply State.Ok.memWf (pend := pend) | with_reducible apply State.Ok.queue
    | with_reducible apply State.Ok.flashWf (pend := pend) | with_reducible apply ite_keeps
    | with_reducible apply ite_keeps1 | split

theorem State.domainEntered_keeps (s : State) (d : Domain) (hs : s.Ok pend) :
    (State.domainEntered s d).Ok pend := by
  unfold State.domainEntered
  try dsimp only
  repeat' first
    | with_reducible assumption | (intro) | with_reducible apply State.abandon_keeps
    | with_reducible apply State.beginMove_keeps | with_reducible apply State.domLost_keeps
    | with_reducible apply State.setDom_keeps | with_reducible apply State.Ok.memWf (pend := pend)
    | with_reducible apply State.Ok.queue | with_reducible apply State.Ok.flashWf (pend := pend)
    | with_reducible apply ite_keeps | with_reducible apply ite_keeps1 | split
    | (simp only [ok_mk]; refine ⟨?_, ?_, ?_⟩)

theorem State.domainExited_keeps (s : State) (d : Domain) (hs : s.Ok pend) :
    (State.domainExited s d).Ok pend := by
  unfold State.domainExited
  try dsimp only
  repeat' first
    | with_reducible assumption | with_reducible apply State.domOn_keeps | with_reducible apply ite_optOk
    | with_reducible apply ite_optOk1 | with_reducible apply ite_keeps | split

theorem State.wakeTrip_keeps (s : State) (b i : Nat) (hs : s.Ok pend) :
    (State.wakeTrip s b i).Ok pend := by
  unfold State.wakeTrip
  try dsimp only
  repeat' first
    | with_reducible assumption | (intro) | with_reducible apply State.wakeDomain_keeps
    | with_reducible apply foldl_keeps

theorem State.settleParked_keeps (s : State) (hs : s.Ok pend) :
    (State.settleParked s).Ok pend := by
  unfold State.settleParked
  try dsimp only
  repeat' first
    | with_reducible assumption | (intro) | with_reducible apply State.rerun_keeps
    | with_reducible apply State.Ok.memWf (pend := pend) | with_reducible apply State.Ok.queue
    | with_reducible apply State.Ok.flashWf (pend := pend) | split | (simp only [ok_mk]; refine ⟨?_, ?_, ?_⟩)

theorem State.settleXfers_keeps (s : State) (hs : s.Ok pend) :
    (State.settleXfers s).Ok pend := by
  unfold State.settleXfers
  try dsimp only
  repeat' first
    | with_reducible assumption | (intro) | with_reducible apply State.modTile_keeps
    | with_reducible apply State.Ok.memWf (pend := pend) | with_reducible apply State.Ok.queue
    | with_reducible apply State.Ok.flashWf (pend := pend) | with_reducible apply foldl_keeps

theorem State.writeReq_keeps (s : State) (p : PageRef) (v : Nat) (hs : s.Ok pend) :
    (State.writeReq s p v).Ok pend := by
  unfold State.writeReq
  try dsimp only
  repeat' first
    | with_reducible assumption | with_reducible apply State.put_keeps | with_reducible apply ite_optOk
    | with_reducible apply ite_optOk1 | with_reducible apply State.wakeDomain_keeps
    | with_reducible apply State.Ok.memWf (pend := pend) | with_reducible apply State.Ok.queue
    | with_reducible apply State.Ok.flashWf (pend := pend) | with_reducible apply ite_keeps | split
    | (simp only [ok_mk]; refine ⟨?_, ?_, ?_⟩)

theorem State.writeLattol_keeps (s : State) (p : PageRef) (v : Nat) (hs : s.Ok pend) :
    (State.writeLattol s p v).Ok pend := by
  unfold State.writeLattol
  try dsimp only
  repeat' first
    | with_reducible assumption | (intro) | with_reducible apply State.put_keeps
    | with_reducible apply State.wakeDomain_keeps | with_reducible apply foldl_keeps
    | with_reducible apply foldl_keeps2 | with_reducible apply ite_keeps

end Sys2Proof.Machine
end

