-- ==== Sys2Proof/Laws/KeepErrors.lean ====
section
/-! SUPPORT. Every operation of `Machine/Errors.lean` leaves the queue and keeps the canonical form of memory
and flash (`State.Ok`). -/

namespace Sys2Proof.Machine

variable {pend : List Instr}

theorem State.flushLog_keeps (s : State) (slot : Nat) (hs : s.Ok pend) :
    (State.flushLog s slot).Ok pend := by
  unfold State.flushLog
  try dsimp only
  repeat' first
    | with_reducible assumption | (intro) | with_reducible apply State.count_keeps
    | with_reducible apply State.logEnter_keeps | with_reducible apply foldl_keeps
    | with_reducible apply State.Ok.memWf (pend := pend) | with_reducible apply State.Ok.queue
    | with_reducible apply State.Ok.flashWf (pend := pend) | with_reducible apply ite_keeps | split
    | (simp only [ok_mk]; refine ⟨?_, ?_, ?_⟩)

theorem State.logSelect_keeps (s : State) (r v : Nat) (hs : s.Ok pend) :
    (State.logSelect s r v).Ok pend := by
  unfold State.logSelect
  try dsimp only
  repeat' first
    | with_reducible assumption | with_reducible apply State.put_keeps
    | with_reducible apply State.Ok.memWf (pend := pend) | with_reducible apply State.Ok.queue
    | with_reducible apply State.Ok.flashWf (pend := pend) | (simp only [ok_mk]; refine ⟨?_, ?_, ?_⟩)

theorem State.logTail_keeps (s : State) (v : Nat) (hs : s.Ok pend) :
    (State.logTail s v).Ok pend := by
  unfold State.logTail
  try dsimp only
  repeat' first | with_reducible assumption | with_reducible apply State.put_keeps | with_reducible apply ite_keeps

theorem State.fenceNow_keeps (s : State) (t reason : Nat) (hs : s.Ok pend) :
    (State.fenceNow s t reason).Ok pend := by
  unfold State.fenceNow
  try dsimp only
  repeat' first
    | with_reducible assumption | with_reducible apply State.put_keeps | with_reducible apply State.putFlag_keeps
    | with_reducible apply State.modTile_keeps | with_reducible apply State.report_keeps

theorem State.tileFence_keeps (s : State) (t : Nat) (c : FenceCause) (hs : s.Ok pend) :
    (State.tileFence s t c).Ok pend := by
  unfold State.tileFence
  try dsimp only
  repeat' first
    | with_reducible assumption | with_reducible apply State.modTile_keeps | with_reducible apply State.trap_keeps
    | with_reducible apply State.fenceNow_keeps | with_reducible apply State.Ok.memWf (pend := pend)
    | with_reducible apply State.Ok.queue | with_reducible apply State.Ok.flashWf (pend := pend)
    | with_reducible apply ite_keeps

theorem State.tileErrClr_keeps (s : State) (t : Nat) (hs : s.Ok pend) :
    (State.tileErrClr s t).Ok pend := by
  unfold State.tileErrClr
  try dsimp only
  repeat' first | with_reducible assumption | with_reducible apply State.put_keeps

theorem State.haltBoot_keeps (s : State) (code : Nat) (hs : s.Ok pend) :
    (State.haltBoot s code).Ok pend := by
  unfold State.haltBoot
  try dsimp only
  repeat' first
    | with_reducible assumption | with_reducible apply State.put_keeps | with_reducible apply State.putFlag_keeps
    | with_reducible apply State.report_keeps | with_reducible apply State.Ok.memWf (pend := pend)
    | with_reducible apply State.Ok.queue | with_reducible apply State.Ok.flashWf (pend := pend)
    | with_reducible apply ite_keeps | split | (simp only [ok_mk]; refine ⟨?_, ?_, ?_⟩)

theorem State.setStride_keeps (s : State) (n dev : Nat) (hs : s.Ok pend) :
    (State.setStride s n dev).Ok pend := by
  unfold State.setStride
  try dsimp only
  repeat' first | with_reducible assumption | with_reducible apply State.put_keeps

theorem State.setStrides_keeps (s : State) (dev : Nat) (hs : s.Ok pend) :
    (State.setStrides s dev).Ok pend := by
  unfold State.setStrides
  try dsimp only
  repeat' first
    | with_reducible assumption | (intro) | with_reducible apply State.setStride_keeps
    | with_reducible apply foldl_keeps

theorem State.fallBack_keeps (s : State) (hs : s.Ok pend) :
    (State.fallBack s).Ok pend := by
  unfold State.fallBack
  try dsimp only
  repeat' first
    | with_reducible assumption | with_reducible apply State.setStrides_keeps | with_reducible apply ite_keeps

theorem State.refreshRate_keeps (s : State) (n m : Nat) (hs : s.Ok pend) :
    (State.refreshRate s n m).Ok pend := by
  unfold State.refreshRate
  try dsimp only
  repeat' first | with_reducible assumption | with_reducible apply State.put_keeps

theorem State.setModel_keeps (s : State) (on : Bool) (hs : s.Ok pend) :
    (State.setModel s on).Ok pend := by
  unfold State.setModel
  try dsimp only
  repeat' first
    | with_reducible assumption | (intro) | with_reducible apply State.put_keeps
    | with_reducible apply State.putFlag_keeps | with_reducible apply State.fallBack_keeps
    | with_reducible apply State.refreshRate_keeps | with_reducible apply foldl_keeps
    | with_reducible apply State.Ok.memWf (pend := pend) | with_reducible apply State.Ok.queue
    | with_reducible apply State.Ok.flashWf (pend := pend) | with_reducible apply ite_keeps | split
    | (simp only [ok_mk]; refine ⟨?_, ?_, ?_⟩)

theorem State.mainStops_keeps (s : State) (hs : s.Ok pend) :
    (State.mainStops s).Ok pend := by
  unfold State.mainStops
  try dsimp only
  repeat' first
    | with_reducible assumption | (intro) | with_reducible apply State.putFlag_keeps
    | with_reducible apply State.setModel_keeps | with_reducible apply State.Ok.memWf (pend := pend)
    | with_reducible apply State.Ok.queue | with_reducible apply State.Ok.flashWf (pend := pend)
    | with_reducible apply ite_keeps | with_reducible apply ite_keeps1 | split
    | (simp only [ok_mk]; refine ⟨?_, ?_, ?_⟩)

theorem State.mgmtRestart_keeps (s : State) (watchdog within : Bool) (hs : s.Ok pend) :
    (State.mgmtRestart s watchdog within).Ok pend := by
  unfold State.mgmtRestart
  try dsimp only
  repeat' first
    | with_reducible assumption | (intro) | with_reducible apply State.count_keeps
    | with_reducible apply State.mainStops_keeps | with_reducible apply State.report_keeps
    | with_reducible apply State.requestReset_keeps | with_reducible apply State.Ok.memWf (pend := pend)
    | with_reducible apply State.Ok.queue | with_reducible apply State.Ok.flashWf (pend := pend)
    | with_reducible apply ite_keeps

end Sys2Proof.Machine
end

