-- ==== Sys2Proof/Laws/KeepThermal.lean ====
section
/-! SUPPORT. Every operation of `Machine/Thermal.lean` leaves the queue and keeps the canonical form of memory
and flash (`State.Ok`). -/

namespace Sys2Proof.Machine

variable {pend : List Instr}

theorem State.setSensor_keeps (s : State) (i : Nat) (x : Sensor) (hs : s.Ok pend) :
    (State.setSensor s i x).Ok pend := by
  unfold State.setSensor
  try dsimp only
  repeat' first
    | with_reducible assumption | with_reducible apply State.Ok.memWf (pend := pend)
    | with_reducible apply State.Ok.queue | with_reducible apply State.Ok.flashWf (pend := pend)
    | (simp only [ok_mk]; refine ⟨?_, ?_, ?_⟩)

theorem State.showColumn_keeps (s : State) (c : Nat) (hs : s.Ok pend) :
    (State.showColumn s c).Ok pend := by
  unfold State.showColumn
  try dsimp only
  repeat' first | with_reducible assumption | with_reducible apply State.put_keeps

theorem State.takeReading_keeps (s : State) (i : Nat) (v : Int) (hs : s.Ok pend) :
    (State.takeReading s i v).Ok pend := by
  unfold State.takeReading
  try dsimp only
  repeat' first
    | with_reducible assumption | with_reducible apply State.count_keeps | with_reducible apply State.report_keeps
    | with_reducible apply State.setSensor_keeps | with_reducible apply State.Ok.memWf (pend := pend)
    | with_reducible apply State.Ok.queue | with_reducible apply State.Ok.flashWf (pend := pend)
    | with_reducible apply ite_keeps

theorem State.clearFault_keeps (s : State) (hs : s.Ok pend) :
    (State.clearFault s).Ok pend := by
  unfold State.clearFault
  try dsimp only
  repeat' first
    | with_reducible assumption | with_reducible apply State.put_keeps | with_reducible apply State.setSensor_keeps
    | with_reducible apply State.Ok.memWf (pend := pend) | with_reducible apply State.Ok.queue
    | with_reducible apply State.Ok.flashWf (pend := pend) | with_reducible apply ite_keeps

theorem State.checkLimit_keeps (s : State) (site : Nat) (hs : s.Ok pend) :
    (State.checkLimit s site).Ok pend := by
  unfold State.checkLimit
  try dsimp only
  repeat' first
    | with_reducible assumption | with_reducible apply State.report_keeps
    | with_reducible apply State.Ok.memWf (pend := pend) | with_reducible apply State.Ok.queue
    | with_reducible apply State.Ok.flashWf (pend := pend) | with_reducible apply ite_keeps
    | with_reducible apply ite_keeps1 | split | (simp only [ok_mk]; refine ⟨?_, ?_, ?_⟩)

theorem State.checkQuarter_keeps (s : State) (i : Nat) (hs : s.Ok pend) :
    (State.checkQuarter s i).Ok pend := by
  unfold State.checkQuarter
  try dsimp only
  repeat' first
    | with_reducible assumption | with_reducible apply State.put_keeps | with_reducible apply State.refreshRate_keeps
    | with_reducible apply State.Ok.memWf (pend := pend) | with_reducible apply State.Ok.queue
    | with_reducible apply State.Ok.flashWf (pend := pend) | with_reducible apply ite_keeps | split
    | (simp only [ok_mk]; refine ⟨?_, ?_, ?_⟩)

theorem State.checkInlet_keeps (s : State) (hs : s.Ok pend) :
    (State.checkInlet s).Ok pend := by
  unfold State.checkInlet
  try dsimp only
  repeat' first
    | with_reducible assumption | with_reducible apply State.putFlag_keeps | with_reducible apply State.report_keeps
    | with_reducible apply State.Ok.memWf (pend := pend) | with_reducible apply State.Ok.queue
    | with_reducible apply State.Ok.flashWf (pend := pend) | with_reducible apply ite_keeps | split
    | (simp only [ok_mk]; refine ⟨?_, ?_, ?_⟩)

theorem State.sensorSample_keeps (s : State) (i : Nat) (v : Int) (hs : s.Ok pend) :
    (State.sensorSample s i v).Ok pend := by
  unfold State.sensorSample
  try dsimp only
  repeat' first
    | with_reducible assumption | with_reducible apply State.put_keeps | with_reducible apply State.showColumn_keeps
    | with_reducible apply State.takeReading_keeps | with_reducible apply State.checkLimit_keeps
    | with_reducible apply State.checkQuarter_keeps | with_reducible apply State.checkInlet_keeps
    | with_reducible apply ite_keeps

theorem State.forecastDecision_keeps (s : State) (hs : s.Ok pend) :
    (State.forecastDecision s).Ok pend := by
  unfold State.forecastDecision
  try dsimp only
  repeat' first
    | with_reducible assumption | (intro) | with_reducible apply State.put_keeps
    | with_reducible apply State.setStride_keeps | with_reducible apply foldl_keeps
    | with_reducible apply State.Ok.memWf (pend := pend) | with_reducible apply State.Ok.queue
    | with_reducible apply State.Ok.flashWf (pend := pend) | with_reducible apply ite_keeps | split
    | (simp only [ok_mk]; refine ⟨?_, ?_, ?_⟩)

theorem State.tachPulse_keeps (s : State) (hs : s.Ok pend) :
    (State.tachPulse s).Ok pend := by
  unfold State.tachPulse
  try dsimp only
  repeat' first
    | with_reducible assumption | with_reducible apply State.Ok.memWf (pend := pend)
    | with_reducible apply State.Ok.queue | with_reducible apply State.Ok.flashWf (pend := pend)
    | with_reducible apply ite_keeps | split | (simp only [ok_mk]; refine ⟨?_, ?_, ?_⟩)

theorem State.stopBegin_keeps (s : State) (steep silent : Bool) (hs : s.Ok pend) :
    (State.stopBegin s steep silent).Ok pend := by
  unfold State.stopBegin
  try dsimp only
  repeat' first
    | with_reducible assumption | (intro) | with_reducible apply State.put_keeps
    | with_reducible apply State.report_keeps | with_reducible apply State.setStrides_keeps

theorem State.msCount_keeps (s : State) (hs : s.Ok pend) :
    (State.msCount s).Ok pend := by
  unfold State.msCount
  try dsimp only
  repeat' first
    | with_reducible assumption | (intro) | with_reducible apply State.Ok.memWf (pend := pend)
    | with_reducible apply State.Ok.queue | with_reducible apply State.Ok.flashWf (pend := pend)
    | with_reducible apply ite_keeps | with_reducible apply ite_keeps1 | split
    | (simp only [ok_mk]; refine ⟨?_, ?_, ?_⟩)

theorem State.msJudge_keeps (s : State) (hs : s.Ok pend) :
    (State.msJudge s).Ok pend := by
  unfold State.msJudge
  try dsimp only
  repeat' first
    | with_reducible assumption | (intro) | with_reducible apply State.count_keeps
    | with_reducible apply State.stopBegin_keeps | with_reducible apply State.Ok.memWf (pend := pend)
    | with_reducible apply State.Ok.queue | with_reducible apply State.Ok.flashWf (pend := pend)
    | with_reducible apply ite_keeps

theorem State.inputJudge_keeps (s : State) (edges : Nat) (changed : Bool) (hs : s.Ok pend) :
    (State.inputJudge s edges changed).Ok pend := by
  unfold State.inputJudge
  try dsimp only
  repeat' first
    | with_reducible assumption | (intro) | with_reducible apply State.putFlag_keeps
    | with_reducible apply State.report_keeps | with_reducible apply State.Ok.memWf (pend := pend)
    | with_reducible apply State.Ok.queue | with_reducible apply State.Ok.flashWf (pend := pend)
    | with_reducible apply ite_keeps | with_reducible apply ite_keeps1 | split
    | (simp only [ok_mk]; refine ⟨?_, ?_, ?_⟩)

theorem State.flowCheck_keeps (s : State) (edges : Nat) (changed : Bool) (hs : s.Ok pend) :
    (State.flowCheck s edges changed).Ok pend := by
  unfold State.flowCheck
  try dsimp only
  repeat' first
    | with_reducible assumption | (intro) | with_reducible apply State.inputJudge_keeps
    | with_reducible apply State.msCount_keeps | with_reducible apply State.msJudge_keeps

theorem State.flowUpdate_keeps (s : State) (hs : s.Ok pend) :
    (State.flowUpdate s).Ok pend := by
  unfold State.flowUpdate
  try dsimp only
  repeat' first
    | with_reducible assumption | (intro) | with_reducible apply State.put_keeps
    | with_reducible apply State.report_keeps | with_reducible apply State.stopBegin_keeps
    | with_reducible apply State.Ok.memWf (pend := pend) | with_reducible apply State.Ok.queue
    | with_reducible apply State.Ok.flashWf (pend := pend) | with_reducible apply ite_keeps
    | with_reducible apply ite_keeps1 | split | (simp only [ok_mk]; refine ⟨?_, ?_, ?_⟩)

theorem State.stopCleared_keeps (s : State) (hs : s.Ok pend) :
    (State.stopCleared s).Ok pend := by
  unfold State.stopCleared
  try dsimp only
  repeat' first
    | with_reducible assumption | with_reducible apply State.put_keeps | with_reducible apply State.fallBack_keeps
    | with_reducible apply ite_keeps

theorem State.lowCleared_keeps (s : State) (hs : s.Ok pend) :
    (State.lowCleared s).Ok pend := by
  unfold State.lowCleared
  try dsimp only
  repeat' first | with_reducible assumption | with_reducible apply State.put_keeps | with_reducible apply ite_keeps

theorem State.shutdownBegin_keeps (s : State) (hs : s.Ok pend) :
    (State.shutdownBegin s).Ok pend := by
  unfold State.shutdownBegin
  try dsimp only
  repeat' first
    | with_reducible assumption | with_reducible apply State.put_keeps | with_reducible apply State.report_keeps
    | with_reducible apply State.haltBoot_keeps | with_reducible apply ite_keeps

theorem State.rowsDown_keeps (s : State) (hs : s.Ok pend) :
    (State.rowsDown s).Ok pend := by
  unfold State.rowsDown
  try dsimp only
  repeat' first
    | with_reducible assumption | (intro) | with_reducible apply State.modRes_keeps
    | with_reducible apply State.rowBook_keeps | with_reducible apply State.rowReply_keeps
    | with_reducible apply State.setEngineQ_keeps | with_reducible apply State.Ok.memWf (pend := pend)
    | with_reducible apply State.Ok.queue | with_reducible apply State.Ok.flashWf (pend := pend)
    | with_reducible apply foldl_keeps

theorem State.shutdownEnd_keeps (s : State) (hs : s.Ok pend) :
    (State.shutdownEnd s).Ok pend := by
  unfold State.shutdownEnd
  try dsimp only
  repeat' first
    | with_reducible assumption | (intro) | with_reducible apply State.domLost_keeps
    | with_reducible apply State.rowsDown_keeps | with_reducible apply State.setDom_keeps
    | with_reducible apply State.Ok.memWf (pend := pend) | with_reducible apply State.Ok.queue
    | with_reducible apply State.Ok.flashWf (pend := pend) | with_reducible apply foldl_keeps
    | with_reducible apply foldl_keeps1 | with_reducible apply foldl_keeps2 | with_reducible apply ite_keeps
    | with_reducible apply ite_keeps1 | split | (simp only [ok_mk]; refine ⟨?_, ?_, ?_⟩)

theorem State.thermTrip_keeps (s : State) (i : Nat) (hs : s.Ok pend) :
    (State.thermTrip s i).Ok pend := by
  unfold State.thermTrip
  try dsimp only
  repeat' first
    | with_reducible assumption | with_reducible apply State.putFlag_keeps | with_reducible apply State.report_keeps
    | with_reducible apply State.emit_keeps | with_reducible apply State.haltBoot_keeps
    | with_reducible apply ite_keeps

end Sys2Proof.Machine
end

