-- ==== Sys2Proof/Laws/KeepFlash.lean ====
section
/-! SUPPORT. Every operation of `Machine/Flash.lean` leaves the queue and keeps the canonical form of memory
and flash (`State.Ok`). -/

namespace Sys2Proof.Machine

variable {pend : List Instr}

theorem State.flashPut_keeps (s : State) (off : Nat) (d : List Byte) (hs : s.Ok pend) :
    (State.flashPut s off d).Ok pend := by
  unfold State.flashPut
  try dsimp only
  repeat' first
    | with_reducible assumption | with_reducible apply memWrite_wf | with_reducible apply memZero_wf
    | with_reducible apply filter_wf | with_reducible exact memWf_nil
    | with_reducible apply State.Ok.memWf (pend := pend) | with_reducible apply State.Ok.queue
    | with_reducible apply State.Ok.flashWf (pend := pend) | (simp only [ok_mk]; refine ⟨?_, ?_, ?_⟩)

theorem State.flashAnd_keeps (s : State) (off : Nat) (d : List Byte) (hs : s.Ok pend) :
    (State.flashAnd s off d).Ok pend := by
  unfold State.flashAnd
  try dsimp only
  repeat' first | with_reducible assumption | with_reducible apply State.flashPut_keeps

theorem State.flashClear_keeps (s : State) (off n : Nat) (hs : s.Ok pend) :
    (State.flashClear s off n).Ok pend := by
  unfold State.flashClear
  try dsimp only
  repeat' first
    | with_reducible assumption | with_reducible apply memWrite_wf | with_reducible apply memZero_wf
    | with_reducible apply filter_wf | with_reducible exact memWf_nil
    | with_reducible apply State.Ok.memWf (pend := pend) | with_reducible apply State.Ok.queue
    | with_reducible apply State.Ok.flashWf (pend := pend) | (simp only [ok_mk]; refine ⟨?_, ?_, ?_⟩)

theorem State.examine_keeps (s : State) (slot : Nat) (answers : Bool) (hs : s.Ok pend) :
    (State.examine s slot answers).Ok pend := by
  unfold State.examine
  try dsimp only
  repeat' first
    | with_reducible assumption | with_reducible apply State.put_keeps | with_reducible apply State.report_keeps
    | with_reducible apply ite_keeps

theorem State.listSkip_keeps (s : State) (t e : Nat) (hs : s.Ok pend) :
    (State.listSkip s t e).Ok pend := by
  unfold State.listSkip
  try dsimp only
  repeat' first | with_reducible assumption | with_reducible apply State.report_keeps

theorem State.takeLicences_keeps (s : State) (hs : s.Ok pend) :
    (State.takeLicences s).Ok pend := by
  unfold State.takeLicences
  try dsimp only
  repeat' first
    | with_reducible assumption | (intro) | with_reducible apply State.put_keeps
    | with_reducible apply State.report_keeps | with_reducible apply foldl_keeps | with_reducible apply foldl_keeps2
    | with_reducible apply ite_keeps

theorem State.checkCert_keeps (s : State) (hs : s.Ok pend) :
    (State.checkCert s).Ok pend := by
  unfold State.checkCert
  try dsimp only
  repeat' first
    | with_reducible assumption | with_reducible apply State.report_keeps | with_reducible apply ite_optOk
    | with_reducible apply ite_optOk1 | with_reducible apply ite_keeps | split

theorem State.flashStart_keeps (s : State) (op : Nat) (hs : s.Ok pend) :
    (State.flashStart s op).Ok pend := by
  unfold State.flashStart
  try dsimp only
  repeat' first
    | with_reducible assumption | with_reducible apply State.put_keeps | with_reducible apply ite_optOk
    | with_reducible apply ite_optOk1 | with_reducible apply State.putFlag_keeps
    | with_reducible apply State.Ok.memWf (pend := pend) | with_reducible apply State.Ok.queue
    | with_reducible apply State.Ok.flashWf (pend := pend) | with_reducible apply ite_keeps | split
    | (simp only [ok_mk]; refine ⟨?_, ?_, ?_⟩)

theorem State.programSource_keeps (s : State) (c : FlashCmd) (k : Nat) (hs : s.Ok pend) :
    (State.programSource s c k).1.Ok pend := by
  unfold State.programSource
  try dsimp only
  repeat' first
    | with_reducible assumption | with_reducible apply State.readMem_keeps | with_reducible apply ite_optOk
    | with_reducible apply ite_optOk1 | with_reducible apply ite_keeps | with_reducible apply ite_keeps1

theorem State.programPages_keeps (c : FlashCmd) (base : Nat) (l : List Nat) (s : State) (hs : s.Ok pend) :
    (State.programPages c base l s).1.Ok pend := by
  induction l generalizing s with
  | nil => exact hs
  | cons k l ih =>
    unfold State.programPages
    try dsimp only
    repeat' first
      | with_reducible assumption | with_reducible apply ih | with_reducible apply State.flashAnd_keeps
      | with_reducible refine keeps_of_fst (by assumption) ?_ | with_reducible apply State.programSource_keeps | split

theorem State.flashCopy_keeps (s : State) (c : FlashCmd) (n : Nat) (hs : s.Ok pend) :
    (State.flashCopy s c n).1.Ok pend := by
  unfold State.flashCopy
  try dsimp only
  repeat' first
    | with_reducible assumption | with_reducible apply State.guardedWrite_keeps
    | with_reducible apply State.noteDown_keeps | with_reducible apply ite_keeps | with_reducible apply ite_keeps1

theorem State.flashRun_keeps (s : State) (c : FlashCmd) (good : Bool) (hs : s.Ok pend) :
    (State.flashRun s c good).1.Ok pend := by
  unfold State.flashRun
  try dsimp only
  repeat' first
    | with_reducible assumption | with_reducible apply State.free_keeps | with_reducible apply State.freeBytes_keeps
    | with_reducible apply State.noteDown_keeps | with_reducible apply State.flashPut_keeps
    | with_reducible apply State.flashClear_keeps | with_reducible apply State.examine_keeps
    | with_reducible apply State.programPages_keeps | with_reducible apply State.flashCopy_keeps
    | with_reducible apply ite_keeps | with_reducible apply ite_keeps1

theorem State.flashDone_keeps (s : State) (good : Bool) (hs : s.Ok pend) :
    (State.flashDone s good).Ok pend := by
  unfold State.flashDone
  try dsimp only
  repeat' first
    | with_reducible assumption | with_reducible apply State.put_keeps | with_reducible apply ite_optOk
    | with_reducible apply ite_optOk1 | with_reducible apply State.putFlag_keeps
    | with_reducible apply State.report_keeps | with_reducible apply State.flashRun_keeps
    | with_reducible apply State.Ok.memWf (pend := pend) | with_reducible apply State.Ok.queue
    | with_reducible apply State.Ok.flashWf (pend := pend) | with_reducible apply ite_keeps
    | with_reducible apply ite_keeps1 | split | (simp only [ok_mk]; refine ⟨?_, ?_, ?_⟩)

theorem State.attStart_keeps (s : State) (hs : s.Ok pend) :
    (State.attStart s).Ok pend := by
  unfold State.attStart
  try dsimp only
  repeat' first
    | with_reducible assumption | with_reducible apply State.putFlag_keeps | with_reducible apply ite_optOk
    | with_reducible apply ite_optOk1 | with_reducible apply State.report_keeps
    | with_reducible apply State.Ok.memWf (pend := pend) | with_reducible apply State.Ok.queue
    | with_reducible apply State.Ok.flashWf (pend := pend) | with_reducible apply ite_keeps | split
    | (simp only [ok_mk]; refine ⟨?_, ?_, ?_⟩)

theorem State.takeIndex_keeps (s : State) (hs : s.Ok pend) :
    (State.takeIndex s).1.Ok pend := by
  unfold State.takeIndex
  try dsimp only
  repeat' first
    | with_reducible assumption | with_reducible apply State.put_keeps | with_reducible apply ite_optOk
    | with_reducible apply ite_optOk1 | with_reducible apply State.report_keeps
    | with_reducible apply State.Ok.memWf (pend := pend) | with_reducible apply State.Ok.queue
    | with_reducible apply State.Ok.flashWf (pend := pend) | with_reducible apply ite_keeps
    | with_reducible apply ite_keeps1 | split | (simp only [ok_mk]; refine ⟨?_, ?_, ?_⟩)

theorem State.attDone_keeps (s : State) (hs : s.Ok pend) :
    (State.attDone s).Ok pend := by
  unfold State.attDone
  try dsimp only
  repeat' first
    | with_reducible assumption | with_reducible apply State.put_keeps | with_reducible apply ite_optOk
    | with_reducible apply ite_optOk1 | with_reducible apply State.putFlag_keeps
    | with_reducible apply State.report_keeps | with_reducible apply State.guardedWrite_keeps
    | with_reducible apply State.noteDown_keeps | with_reducible apply State.finish_keeps
    | with_reducible apply State.takeIndex_keeps | with_reducible apply State.Ok.memWf (pend := pend)
    | with_reducible apply State.Ok.queue | with_reducible apply State.Ok.flashWf (pend := pend)
    | with_reducible apply ite_keeps | with_reducible apply ite_keeps1 | split
    | (simp only [ok_mk]; refine ⟨?_, ?_, ?_⟩) | with_reducible exact optOk_none | with_reducible exact optOk1_none
    | with_reducible apply optOk_some | with_reducible apply optOk1_some
    | with_reducible refine OptOk.of (by assumption) ?_ | with_reducible refine OptOk1.of (by assumption) ?_
    | with_reducible refine OptOk1.of' (by assumption) ?_ | with_reducible refine keeps_of_fst (by assumption) ?_

end Sys2Proof.Machine
end

