-- ==== Sys2Proof/Laws/KeepBoot.lean ====
section
/-! SUPPORT. Every operation of `Machine/Boot.lean` leaves the queue and keeps the canonical form of memory
and flash (`State.Ok`). -/

namespace Sys2Proof.Machine

variable {pend : List Instr}

theorem State.cutFlash_keeps (s : State) (hs : s.Ok pend) :
    (State.cutFlash s).Ok pend := by
  unfold State.cutFlash
  try dsimp only
  repeat' first
    | with_reducible assumption | with_reducible apply State.freeBytes_keeps | with_reducible apply ite_optOk
    | with_reducible apply ite_optOk1 | with_reducible apply State.flashPut_keeps
    | with_reducible apply State.Ok.memWf (pend := pend) | with_reducible apply State.Ok.queue
    | with_reducible apply State.Ok.flashWf (pend := pend) | with_reducible apply ite_keeps
    | with_reducible apply ite_keeps1 | split | (simp only [ok_mk]; refine ⟨?_, ?_, ?_⟩)

theorem State.keepReset_keeps (s : State) (hs : s.Ok pend) : (s.keepReset).Ok pend :=
  ⟨(State.cutFlash_keeps s hs).1, memWf_nil, (State.cutFlash_keeps s hs).2.2⟩

theorem State.packageReset_keeps (s : State) (last : Nat) (hs : s.Ok pend) :
    (State.packageReset s last).Ok pend := by
  unfold State.packageReset
  try dsimp only
  repeat' first
    | with_reducible assumption | with_reducible apply State.put_keeps | with_reducible apply State.keepReset_keeps

theorem State.powerOnReset_keeps (s : State) (pwrOk : Bool) (hs : s.Ok pend) :
    (State.powerOnReset s pwrOk).Ok pend := by
  unfold State.powerOnReset
  try dsimp only
  repeat' first
    | with_reducible assumption | with_reducible apply State.keepReset_keeps
    | with_reducible apply State.Ok.memWf (pend := pend) | with_reducible apply State.Ok.queue
    | with_reducible apply State.Ok.flashWf (pend := pend) | (simp only [ok_mk]; refine ⟨?_, ?_, ?_⟩)

theorem State.pkgResetWrite_keeps (s : State) (hs : s.Ok pend) :
    (State.pkgResetWrite s).Ok pend := by
  unfold State.pkgResetWrite
  try dsimp only
  repeat' first
    | with_reducible assumption | with_reducible apply State.Ok.memWf (pend := pend)
    | with_reducible apply State.Ok.queue | with_reducible apply State.Ok.flashWf (pend := pend)
    | with_reducible apply ite_keeps | split | (simp only [ok_mk]; refine ⟨?_, ?_, ?_⟩)

theorem State.dueReset_keeps (s : State) (hs : s.Ok pend) :
    (State.dueReset s).Ok pend := by
  unfold State.dueReset
  try dsimp only
  repeat' first
    | with_reducible assumption | with_reducible apply State.packageReset_keeps | with_reducible apply ite_keeps

theorem State.resetPin_keeps (s : State) (hs : s.Ok pend) :
    (State.resetPin s).Ok pend := by
  unfold State.resetPin
  try dsimp only
  repeat' first
    | with_reducible assumption | with_reducible apply State.packageReset_keeps
    | with_reducible apply State.Ok.memWf (pend := pend) | with_reducible apply State.Ok.queue
    | with_reducible apply State.Ok.flashWf (pend := pend) | with_reducible apply ite_keeps | split
    | (simp only [ok_mk]; refine ⟨?_, ?_, ?_⟩)

theorem State.pwrOkPin_keeps (s : State) (level : Bool) (hs : s.Ok pend) :
    (State.pwrOkPin s level).Ok pend := by
  unfold State.pwrOkPin
  try dsimp only
  repeat' first
    | with_reducible assumption | with_reducible apply State.powerOnReset_keeps
    | with_reducible apply State.Ok.memWf (pend := pend) | with_reducible apply State.Ok.queue
    | with_reducible apply State.Ok.flashWf (pend := pend) | with_reducible apply ite_keeps | split
    | (simp only [ok_mk]; refine ⟨?_, ?_, ?_⟩)

theorem State.porRelease_keeps (s : State) (hs : s.Ok pend) :
    (State.porRelease s).Ok pend := by
  unfold State.porRelease
  try dsimp only
  repeat' first
    | with_reducible assumption | with_reducible apply State.Ok.memWf (pend := pend)
    | with_reducible apply State.Ok.queue | with_reducible apply State.Ok.flashWf (pend := pend)
    | with_reducible apply ite_keeps | split | (simp only [ok_mk]; refine ⟨?_, ?_, ?_⟩)

theorem State.stepDone_keeps (s : State) (k : Nat) (hs : s.Ok pend) :
    (State.stepDone s k).Ok pend := by
  unfold State.stepDone
  try dsimp only
  repeat' first | with_reducible assumption | with_reducible apply State.put_keeps

theorem State.readyPages_keeps (s : State) (l : List PageRef) (hs : s.Ok pend) :
    (State.readyPages s l).Ok pend := by
  unfold State.readyPages
  try dsimp only
  repeat' first
    | with_reducible assumption | (intro) | with_reducible apply State.putFlag_keeps
    | with_reducible apply foldl_keeps

theorem State.stepRelease_keeps (s : State) (fusesGood : Bool) (hs : s.Ok pend) :
    (State.stepRelease s fusesGood).Ok pend := by
  unfold State.stepRelease
  try dsimp only
  repeat' first
    | with_reducible assumption | with_reducible apply State.haltBoot_keeps
    | with_reducible apply State.fallBack_keeps | with_reducible apply State.stepDone_keeps
    | with_reducible apply State.Ok.memWf (pend := pend) | with_reducible apply State.Ok.queue
    | with_reducible apply State.Ok.flashWf (pend := pend) | with_reducible apply ite_keeps | split
    | (simp only [ok_mk]; refine ⟨?_, ?_, ?_⟩)

theorem State.licenceOff_keeps (s : State) (hs : s.Ok pend) :
    (State.licenceOff s).Ok pend := by
  unfold State.licenceOff
  try dsimp only
  repeat' first
    | with_reducible assumption | (intro) | with_reducible apply State.putFlag_keeps
    | with_reducible apply foldl_keeps

theorem State.measureRef_keeps (s : State) (hs : s.Ok pend) :
    (State.measureRef s).Ok pend := by
  unfold State.measureRef
  try dsimp only
  repeat' first
    | with_reducible assumption | with_reducible apply State.free_keeps | with_reducible apply State.put_keeps

theorem State.stepClocks_keeps (s : State) (refGood locked answers : Bool) (hs : s.Ok pend) :
    (State.stepClocks s refGood locked answers).Ok pend := by
  unfold State.stepClocks
  try dsimp only
  repeat' first
    | with_reducible assumption | with_reducible apply State.put_keeps | with_reducible apply State.putFlag_keeps
    | with_reducible apply State.portOn_keeps | with_reducible apply State.requestReset_keeps
    | with_reducible apply State.haltBoot_keeps | with_reducible apply State.examine_keeps
    | with_reducible apply State.takeLicences_keeps | with_reducible apply State.checkCert_keeps
    | with_reducible apply State.stepDone_keeps | with_reducible apply State.readyPages_keeps
    | with_reducible apply State.licenceOff_keeps | with_reducible apply State.measureRef_keeps
    | with_reducible apply State.Ok.memWf (pend := pend) | with_reducible apply State.Ok.queue
    | with_reducible apply State.Ok.flashWf (pend := pend) | with_reducible apply ite_keeps | split
    | (simp only [ok_mk]; refine ⟨?_, ?_, ?_⟩)

theorem State.exclusions_keeps (s : State) (hs : s.Ok pend) :
    (State.exclusions s).1.Ok pend := by
  unfold State.exclusions
  try dsimp only
  repeat' first
    | with_reducible assumption | (intro) | with_reducible apply State.listSkip_keeps
    | with_reducible apply foldl_keeps | with_reducible apply foldl_keeps1 | with_reducible apply foldl_keeps2
    | with_reducible apply ite_keeps | with_reducible apply ite_keeps1

theorem State.mapDie_keeps (s : State) (n : Nat) (failed : List (TileId × BitVec 4)) (excluded : List Nat) (hs : s.Ok pend) :
    (State.mapDie s n failed excluded).Ok pend := by
  unfold State.mapDie
  try dsimp only
  repeat' first
    | with_reducible assumption | (intro) | with_reducible apply State.put_keeps | with_reducible apply foldl_keeps
    | with_reducible apply foldl_keeps1 | with_reducible apply foldl_keeps2 | with_reducible apply ite_keeps
    | with_reducible apply ite_keeps1

theorem State.stepDiscovery_keeps (s : State) (d : Discovery) (hs : s.Ok pend) :
    (State.stepDiscovery s d).Ok pend := by
  unfold State.stepDiscovery
  try dsimp only
  repeat' first
    | with_reducible assumption | (intro) | with_reducible apply State.put_keeps
    | with_reducible apply State.haltBoot_keeps | with_reducible apply State.stepDone_keeps
    | with_reducible apply State.exclusions_keeps | with_reducible apply State.mapDie_keeps
    | with_reducible apply foldl_keeps | with_reducible apply foldl_keeps2
    | with_reducible apply State.Ok.memWf (pend := pend) | with_reducible apply State.Ok.queue
    | with_reducible apply State.Ok.flashWf (pend := pend) | with_reducible apply ite_keeps
    | with_reducible apply ite_keeps1 | split | (simp only [ok_mk]; refine ⟨?_, ?_, ?_⟩)

theorem State.seamBegin_keeps (s : State) (sm l : Nat) (hs : s.Ok pend) :
    (State.seamBegin s sm l).Ok pend := by
  unfold State.seamBegin
  try dsimp only
  repeat' first
    | with_reducible assumption | (intro) | with_reducible apply State.put_keeps
    | with_reducible apply State.sendTraining_keeps

theorem State.seamSettle_keeps (s : State) (sm l p0 p1 : Nat) (hs : s.Ok pend) :
    (State.seamSettle s sm l p0 p1).Ok pend := by
  unfold State.seamSettle
  try dsimp only
  repeat' first
    | with_reducible assumption | (intro) | with_reducible apply State.seamBegin_keeps
    | with_reducible apply State.seamDegraded_keeps | with_reducible apply State.seamProposals_keeps
    | with_reducible apply State.seamTested_keeps

theorem State.stepTraining_keeps (s : State) (r : Training) (hs : s.Ok pend) :
    (State.stepTraining s r).Ok pend := by
  unfold State.stepTraining
  try dsimp only
  repeat' first
    | with_reducible assumption | (intro) | with_reducible apply State.haltBoot_keeps
    | with_reducible apply State.put_keeps | with_reducible apply State.putFlag_keeps
    | with_reducible apply State.readyPages_keeps | with_reducible apply State.seamSettle_keeps
    | with_reducible apply State.stepDone_keeps | with_reducible apply State.Ok.memWf (pend := pend)
    | with_reducible apply State.Ok.queue | with_reducible apply State.Ok.flashWf (pend := pend)
    | with_reducible apply foldl_keeps | with_reducible apply foldl_keeps1 | with_reducible apply foldl_keeps2
    | with_reducible apply ite_keeps

theorem State.stepEdge_keeps (s : State) (failed : List (Fin 8 × Fin 32)) (hs : s.Ok pend) :
    (State.stepEdge s failed).Ok pend := by
  unfold State.stepEdge
  try dsimp only
  repeat' first
    | with_reducible assumption | (intro) | with_reducible apply State.put_keeps
    | with_reducible apply State.putFlag_keeps | with_reducible apply State.stepDone_keeps
    | with_reducible apply State.readyPages_keeps | with_reducible apply foldl_keeps
    | with_reducible apply foldl_keeps1 | with_reducible apply foldl_keeps2 | with_reducible apply ite_keeps
    | with_reducible apply ite_keeps1 | split

theorem State.takeRings_keeps (s : State) (hs : s.Ok pend) :
    (State.takeRings s).Ok pend := by
  unfold State.takeRings
  try dsimp only
  repeat' first
    | with_reducible assumption | (intro) | with_reducible apply State.putFlag_keeps
    | with_reducible apply State.writeRing_keeps | with_reducible apply State.listSkip_keeps
    | with_reducible apply foldl_keeps | with_reducible apply foldl_keeps2 | with_reducible apply ite_keeps

theorem State.stepMain_keeps (s : State) (reported : Bool) (hs : s.Ok pend) :
    (State.stepMain s reported).Ok pend := by
  unfold State.stepMain
  try dsimp only
  repeat' first
    | with_reducible assumption | (intro) | with_reducible apply State.portOn_keeps
    | with_reducible apply State.haltBoot_keeps | with_reducible apply State.setModel_keeps
    | with_reducible apply State.stepDone_keeps | with_reducible apply State.takeRings_keeps
    | with_reducible apply foldl_keeps | with_reducible apply State.Ok.memWf (pend := pend)
    | with_reducible apply State.Ok.queue | with_reducible apply State.Ok.flashWf (pend := pend)
    | with_reducible apply ite_keeps | split | (simp only [ok_mk]; refine ⟨?_, ?_, ?_⟩)

theorem State.mgmtRestarted_keeps (s : State) (hs : s.Ok pend) :
    (State.mgmtRestarted s).Ok pend := by
  unfold State.mgmtRestarted
  try dsimp only
  repeat' first
    | with_reducible assumption | (intro) | with_reducible apply State.requestReset_keeps
    | with_reducible apply State.setModel_keeps | with_reducible apply State.Ok.memWf (pend := pend)
    | with_reducible apply State.Ok.queue | with_reducible apply State.Ok.flashWf (pend := pend)
    | with_reducible apply ite_keeps | with_reducible apply ite_keeps1 | split
    | (simp only [ok_mk]; refine ⟨?_, ?_, ?_⟩)

theorem State.putMissing_keeps (s : State) (t v : Nat) (hs : s.Ok pend) :
    (State.putMissing s t v).Ok pend := by
  unfold State.putMissing
  try dsimp only
  repeat' first | with_reducible assumption | with_reducible apply State.put_keeps

theorem State.setLoad_keeps (s : State) (l : Option Load) (hs : s.Ok pend) :
    (State.setLoad s l).Ok pend := by
  unfold State.setLoad
  try dsimp only
  repeat' first
    | with_reducible assumption | with_reducible apply State.Ok.memWf (pend := pend)
    | with_reducible apply State.Ok.queue | with_reducible apply State.Ok.flashWf (pend := pend)
    | (simp only [ok_mk]; refine ⟨?_, ?_, ?_⟩)

theorem State.beginLoad_keeps (s : State) (dies : Nat) (reload : Bool) (hs : s.Ok pend) :
    (State.beginLoad s dies reload).Ok pend := by
  unfold State.beginLoad
  try dsimp only
  repeat' first
    | with_reducible assumption | (intro) | with_reducible apply ite_optOk | with_reducible apply ite_optOk1
    | with_reducible apply State.put_keeps | with_reducible apply State.putFlag_keeps
    | with_reducible apply State.putMissing_keeps | with_reducible apply foldl_keeps
    | with_reducible apply State.Ok.memWf (pend := pend) | with_reducible apply State.Ok.queue
    | with_reducible apply State.Ok.flashWf (pend := pend) | (simp only [ok_mk]; refine ⟨?_, ?_, ?_⟩)

theorem State.chunkIn_keeps (s : State) (t c : Nat) (flits : List (List Byte)) (crc : Nat) (hs : s.Ok pend) :
    (State.chunkIn s t c flits crc).Ok pend := by
  unfold State.chunkIn
  try dsimp only
  repeat' first
    | with_reducible assumption | with_reducible apply State.tileLoad_keeps | with_reducible apply ite_optOk
    | with_reducible apply ite_optOk1 | with_reducible apply State.tileStore_keeps
    | with_reducible apply State.putMissing_keeps | with_reducible apply ite_keeps | with_reducible apply ite_keeps1
    | split

theorem State.endMarker_keeps (s : State) (hs : s.Ok pend) :
    (State.endMarker s).Ok pend := by
  unfold State.endMarker
  try dsimp only
  repeat' first
    | with_reducible assumption | with_reducible apply State.setLoad_keeps | with_reducible apply ite_optOk
    | with_reducible apply ite_optOk1 | with_reducible apply State.Ok.memWf (pend := pend)
    | with_reducible apply State.Ok.queue | with_reducible apply State.Ok.flashWf (pend := pend)
    | with_reducible apply ite_keeps | split

theorem State.mapTimeout_keeps (s : State) (hs : s.Ok pend) :
    (State.mapTimeout s).Ok pend := by
  unfold State.mapTimeout
  try dsimp only
  repeat' first
    | with_reducible assumption | with_reducible apply State.setLoad_keeps | with_reducible apply ite_optOk
    | with_reducible apply ite_optOk1 | with_reducible apply State.Ok.memWf (pend := pend)
    | with_reducible apply State.Ok.queue | with_reducible apply State.Ok.flashWf (pend := pend)
    | with_reducible apply ite_keeps | with_reducible apply ite_keeps1 | split

theorem State.loadFence_keeps (s : State) (t : Nat) (hs : s.Ok pend) :
    (State.loadFence s t).Ok pend := by
  unfold State.loadFence
  try dsimp only
  repeat' first
    | with_reducible assumption | with_reducible apply State.count_keeps | with_reducible apply State.report_keeps
    | with_reducible apply State.tileFence_keeps

theorem State.startTiles_keeps (s : State) (l : Load) (hs : s.Ok pend) :
    (State.startTiles s l).Ok pend := by
  unfold State.startTiles
  try dsimp only
  repeat' first
    | with_reducible assumption | (intro) | with_reducible apply ite_optOk | with_reducible apply ite_optOk1
    | with_reducible apply State.zeroRange_keeps | with_reducible apply State.put_keeps
    | with_reducible apply State.tileStart_keeps | with_reducible apply State.haltBoot_keeps
    | with_reducible apply State.setLoad_keeps | with_reducible apply foldl_keeps
    | with_reducible apply State.Ok.memWf (pend := pend) | with_reducible apply State.Ok.queue
    | with_reducible apply State.Ok.flashWf (pend := pend) | with_reducible apply ite_keeps

theorem State.passDone_keeps (s : State) (hs : s.Ok pend) :
    (State.passDone s).Ok pend := by
  unfold State.passDone
  try dsimp only
  repeat' first
    | with_reducible assumption | (intro) | with_reducible apply ite_optOk | with_reducible apply ite_optOk1
    | with_reducible apply State.put_keeps | with_reducible apply State.setLoad_keeps
    | with_reducible apply State.loadFence_keeps | with_reducible apply State.startTiles_keeps
    | with_reducible apply foldl_keeps | with_reducible apply foldl_keeps2
    | with_reducible apply State.Ok.memWf (pend := pend) | with_reducible apply State.Ok.queue
    | with_reducible apply State.Ok.flashWf (pend := pend) | with_reducible apply ite_keeps
    | with_reducible apply ite_keeps1 | split

theorem State.startupCheck_keeps (s : State) (t : Nat) (late : Bool) (hs : s.Ok pend) :
    (State.startupCheck s t late).Ok pend := by
  unfold State.startupCheck
  try dsimp only
  repeat' first
    | with_reducible assumption | with_reducible apply State.put_keeps | with_reducible apply ite_optOk
    | with_reducible apply ite_optOk1 | with_reducible apply State.readMem_keeps
    | with_reducible apply State.tileHalt_keeps | with_reducible apply State.tileHaltDone_keeps
    | with_reducible apply State.setLoad_keeps | with_reducible apply State.loadFence_keeps
    | with_reducible apply State.Ok.memWf (pend := pend) | with_reducible apply State.Ok.queue
    | with_reducible apply State.Ok.flashWf (pend := pend) | with_reducible apply ite_keeps
    | with_reducible apply ite_keeps1 | split

theorem State.stepTiles_keeps (s : State) (hs : s.Ok pend) :
    (State.stepTiles s).Ok pend := by
  unfold State.stepTiles
  try dsimp only
  repeat' first
    | with_reducible assumption | (intro) | with_reducible apply ite_optOk | with_reducible apply ite_optOk1
    | with_reducible apply State.haltBoot_keeps | with_reducible apply State.stepDone_keeps
    | with_reducible apply State.setLoad_keeps | with_reducible apply State.beginLoad_keeps
    | with_reducible apply foldl_keeps | with_reducible apply ite_keeps | split

theorem State.reload_keeps (s : State) (hs : s.Ok pend) :
    (State.reload s).Ok pend := by
  unfold State.reload
  try dsimp only
  repeat' first
    | with_reducible assumption | with_reducible apply State.put_keeps | with_reducible apply State.putFlag_keeps
    | with_reducible apply State.beginLoad_keeps | with_reducible apply ite_keeps

theorem State.reloadDone_keeps (s : State) (hs : s.Ok pend) :
    (State.reloadDone s).Ok pend := by
  unfold State.reloadDone
  try dsimp only
  repeat' first
    | with_reducible assumption | with_reducible apply State.put_keeps | with_reducible apply ite_optOk
    | with_reducible apply ite_optOk1 | with_reducible apply State.putFlag_keeps
    | with_reducible apply State.report_keeps | with_reducible apply State.finish_keeps
    | with_reducible apply State.setLoad_keeps | with_reducible apply State.reload_keeps
    | with_reducible apply ite_keeps | split

theorem State.checkTopology_keeps (s : State) (hs : s.Ok pend) :
    (State.checkTopology s).Ok pend := by
  unfold State.checkTopology
  try dsimp only
  repeat' first
    | with_reducible assumption | (intro) | with_reducible apply State.put_keeps
    | with_reducible apply State.putFlag_keeps | with_reducible apply State.report_keeps
    | with_reducible apply State.portOff_keeps | with_reducible apply State.stepDone_keeps
    | with_reducible apply foldl_keeps | with_reducible apply foldl_keeps2 | with_reducible apply ite_keeps

theorem State.stepTopology_keeps (s : State) (hs : s.Ok pend) :
    (State.stepTopology s).Ok pend := by
  unfold State.stepTopology
  try dsimp only
  repeat' first
    | with_reducible assumption | with_reducible apply State.checkTopology_keeps | with_reducible apply ite_keeps

theorem State.nbrTimeout_keeps (s : State) (hs : s.Ok pend) :
    (State.nbrTimeout s).Ok pend := by
  unfold State.nbrTimeout
  try dsimp only
  repeat' first
    | with_reducible assumption | with_reducible apply State.stepTopology_keeps
    | with_reducible apply State.Ok.memWf (pend := pend) | with_reducible apply State.Ok.queue
    | with_reducible apply State.Ok.flashWf (pend := pend) | with_reducible apply ite_keeps | split
    | (simp only [ok_mk]; refine ⟨?_, ?_, ?_⟩)

theorem State.acceptHold_keeps (s : State) (hs : s.Ok pend) :
    (State.acceptHold s).Ok pend := by
  unfold State.acceptHold
  try dsimp only
  repeat' first
    | with_reducible assumption | with_reducible apply State.putFlag_keeps | with_reducible apply State.stepDone_keeps
    | with_reducible apply ite_keeps

theorem State.takeLocks_keeps (s : State) (hs : s.Ok pend) :
    (State.takeLocks s).Ok pend := by
  unfold State.takeLocks
  try dsimp only
  repeat' first
    | with_reducible assumption | (intro) | with_reducible apply State.putFlag_keeps
    | with_reducible apply State.listSkip_keeps | with_reducible apply foldl_keeps | with_reducible apply foldl_keeps2
    | with_reducible apply ite_keeps

theorem State.stepLast_keeps (s : State) (hs : s.Ok pend) :
    (State.stepLast s).Ok pend := by
  unfold State.stepLast
  try dsimp only
  repeat' first
    | with_reducible assumption | with_reducible apply State.put_keeps | with_reducible apply State.putFlag_keeps
    | with_reducible apply State.stepDone_keeps | with_reducible apply State.takeLocks_keeps
    | with_reducible apply ite_keeps

theorem State.clockFail_keeps (s : State) (c : ClockFail) (hs : s.Ok pend) : (s.clockFail c).Ok pend := by
  unfold State.clockFail
  dsimp only
  repeat' first
    | with_reducible assumption | with_reducible apply State.haltBoot_keeps
    | with_reducible apply State.requestReset_keeps | with_reducible apply State.putFlag_keeps
    | with_reducible apply State.put_keeps | with_reducible apply State.free_keeps | split

theorem State.snapCounter_keeps (s : State) (b d : Nat) (hs : s.Ok pend) :
    (State.snapCounter s b d).Ok pend := by
  unfold State.snapCounter
  try dsimp only
  repeat' first
    | with_reducible assumption | with_reducible apply State.free_keeps | with_reducible apply State.put_keeps
    | with_reducible apply ite_keeps

theorem State.snap_keeps (s : State) (hs : s.Ok pend) :
    (State.snap s).Ok pend := by
  unfold State.snap
  try dsimp only
  repeat' first
    | with_reducible assumption | (intro) | with_reducible apply State.putFlag_keeps
    | with_reducible apply State.snapCounter_keeps | with_reducible apply foldl_keeps

end Sys2Proof.Machine
end

