-- ==== Sys2Proof/Laws/KeepSoftReset.lean ====
section
/-! SUPPORT. Every operation of `Machine/SoftReset.lean` leaves the queue and keeps the canonical form of memory
and flash (`State.Ok`). -/

namespace Sys2Proof.Machine

variable {pend : List Instr}

theorem State.softKeep_keeps (s : State) (p : PageRef) (extra : List Field) (hs : s.Ok pend) :
    (State.softKeep s p extra).Ok pend := by
  unfold State.softKeep
  try dsimp only
  repeat' first
    | with_reducible assumption | (intro) | with_reducible apply State.put_keeps
    | with_reducible apply State.softPage_keeps | with_reducible apply foldl_keeps

theorem State.cutEngines_keeps (s : State) (l : List Nat) (hs : s.Ok pend) :
    (State.cutEngines s l).Ok pend := by
  unfold State.cutEngines
  try dsimp only
  repeat' first
    | with_reducible assumption | (intro) | with_reducible apply State.rowCut_keeps | with_reducible apply foldl_keeps

theorem State.scrubAfresh_keeps (s : State) (n m : Nat) (hs : s.Ok pend) :
    (State.scrubAfresh s n m).Ok pend := by
  unfold State.scrubAfresh
  try dsimp only
  repeat' first
    | with_reducible assumption | with_reducible apply State.Ok.memWf (pend := pend)
    | with_reducible apply State.Ok.queue | with_reducible apply State.Ok.flashWf (pend := pend)
    | with_reducible apply ite_keeps | split | (simp only [ok_mk]; refine ⟨?_, ?_, ?_⟩)

theorem State.softRoutes_keeps (s : State) (b : Nat) (hs : s.Ok pend) :
    (State.softRoutes s b).Ok pend := by
  unfold State.softRoutes
  try dsimp only
  repeat' first
    | with_reducible assumption | (intro) | with_reducible apply State.Ok.memWf (pend := pend)
    | with_reducible apply State.Ok.queue | with_reducible apply State.Ok.flashWf (pend := pend)
    | with_reducible apply ite_keeps | with_reducible apply ite_keeps1 | split
    | (simp only [ok_mk]; refine ⟨?_, ?_, ?_⟩)

theorem State.softBlock_keeps (s : State) (t : PType) (i : Nat) (hs : s.Ok pend) :
    (State.softBlock s t i).Ok pend := by
  unfold State.softBlock
  try dsimp only
  repeat' first
    | with_reducible assumption | (intro) | with_reducible apply State.cutEngines_keeps
    | with_reducible apply State.cutFlash_keeps | with_reducible apply State.dropRegion_keeps
    | with_reducible apply State.resetArb_keeps | with_reducible apply State.scrubAfresh_keeps
    | with_reducible apply State.softRoutes_keeps | with_reducible apply State.tileSoftReset_keeps
    | with_reducible apply State.zeroRange_keeps | with_reducible apply State.Ok.memWf (pend := pend)
    | with_reducible apply State.Ok.queue | with_reducible apply State.Ok.flashWf (pend := pend)
    | with_reducible apply foldl_keeps | with_reducible apply foldl_keeps1 | with_reducible apply foldl_keeps2
    | with_reducible apply ite_keeps | with_reducible apply ite_keeps1 | split
    | (simp only [ok_mk]; refine ⟨?_, ?_, ?_⟩)

theorem State.softFollow_keeps (s : State) (p : PageRef) (t : PType) (i : Nat) (hs : s.Ok pend) :
    (State.softFollow s p t i).Ok pend := by
  unfold State.softFollow
  try dsimp only
  repeat' first
    | with_reducible assumption | with_reducible apply State.writeLattol_keeps
    | with_reducible apply State.setStride_keeps | with_reducible apply State.fallBack_keeps
    | with_reducible apply State.refreshRate_keeps | with_reducible apply ite_keeps | split

theorem State.softEffect_keeps (s : State) (p : PageRef) (t : PType) (i : Nat) (hs : s.Ok pend) :
    (State.softEffect s p t i).Ok pend := by
  unfold State.softEffect
  try dsimp only
  repeat' first
    | with_reducible assumption | with_reducible apply State.portSoft_keeps | with_reducible apply State.winSoft_keeps
    | with_reducible apply State.dmaSoft_keeps | with_reducible apply State.ropeSoft_keeps
    | with_reducible apply State.softKeep_keeps | with_reducible apply State.softBlock_keeps
    | with_reducible apply State.softFollow_keeps | split

theorem State.dropRetained_keeps (s : State) (p : PageRef) (hs : s.Ok pend) :
    (State.dropRetained s p).Ok pend := by
  unfold State.dropRetained
  try dsimp only
  repeat' first
    | with_reducible assumption | with_reducible apply State.domLost_keeps | with_reducible apply ite_optOk
    | with_reducible apply ite_optOk1 | with_reducible apply ite_keeps | split

theorem State.softRun_keeps (s : State) (p : PageRef) (t : PType) (i : Nat) (hs : s.Ok pend) :
    (State.softRun s p t i).Ok pend := by
  unfold State.softRun
  try dsimp only
  repeat' first
    | with_reducible assumption | with_reducible apply State.putFlag_keeps
    | with_reducible apply State.softEffect_keeps | with_reducible apply State.dropRetained_keeps

theorem State.softReset_keeps (s : State) (p : PageRef) (hs : s.Ok pend) :
    (State.softReset s p).Ok pend := by
  unfold State.softReset
  try dsimp only
  repeat' first
    | with_reducible assumption | with_reducible apply State.softStart_keeps | with_reducible apply ite_optOk
    | with_reducible apply ite_optOk1 | with_reducible apply State.softRun_keeps
    | with_reducible apply State.Ok.memWf (pend := pend) | with_reducible apply State.Ok.queue
    | with_reducible apply State.Ok.flashWf (pend := pend) | with_reducible apply ite_keeps | split
    | (simp only [ok_mk]; refine ⟨?_, ?_, ?_⟩)

theorem State.settleSoft_keeps (s : State) (hs : s.Ok pend) :
    (State.settleSoft s).Ok pend := by
  unfold State.settleSoft
  try dsimp only
  repeat' first
    | with_reducible assumption | (intro) | with_reducible apply ite_optOk | with_reducible apply ite_optOk1
    | with_reducible apply State.softRun_keeps | with_reducible apply foldl_keeps
    | with_reducible apply State.Ok.memWf (pend := pend) | with_reducible apply State.Ok.queue
    | with_reducible apply State.Ok.flashWf (pend := pend) | split | (simp only [ok_mk]; refine ⟨?_, ?_, ?_⟩)

theorem State.softDone_keeps (s : State) (p : PageRef) (hs : s.Ok pend) :
    (State.softDone s p).Ok pend := by
  unfold State.softDone
  try dsimp only
  repeat' first
    | with_reducible assumption | with_reducible apply State.putFlag_keeps | with_reducible apply ite_keeps

end Sys2Proof.Machine
end

