-- ==== Sys2Proof/Laws/KeepAccess.lean ====
section
/-! SUPPORT. Every operation of `Machine/Access.lean` leaves the queue and keeps the canonical form of memory
and flash (`State.Ok`). -/

namespace Sys2Proof.Machine

variable {pend : List Instr}

theorem State.readReg_keeps (s : State) (who : Nat) (p : PageRef) (off : Nat) (hs : s.Ok pend) :
    (State.readReg s who p off).1.Ok pend := by
  unfold State.readReg
  try dsimp only
  repeat' first
    | with_reducible assumption | with_reducible apply State.Ok.memWf (pend := pend) | with_reducible apply ite_optOk
    | with_reducible apply ite_optOk1 | with_reducible apply State.Ok.queue
    | with_reducible apply State.Ok.flashWf (pend := pend) | with_reducible apply ite_keeps
    | with_reducible apply ite_keeps1 | split | (simp only [ok_mk]; refine ⟨?_, ?_, ?_⟩)

theorem State.pairLoRead_keeps (s : State) (who a : Nat) (hs : s.Ok pend) :
    (State.pairLoRead s who a).Ok pend := by
  unfold State.pairLoRead
  try dsimp only
  repeat' first
    | with_reducible assumption | with_reducible apply State.readReg_keeps | with_reducible apply ite_keeps

theorem State.writeField_keeps (s : State) (p : PageRef) (f : Field) (v : Nat) (hs : s.Ok pend) :
    (State.writeField s p f v).Ok pend := by
  unfold State.writeField
  try dsimp only
  repeat' first
    | with_reducible assumption | with_reducible apply State.put_keeps | with_reducible apply State.putRwl_keeps
    | split

theorem State.writeFields_keeps (s : State) (p : PageRef) (t : PType) (off v : Nat) (hs : s.Ok pend) :
    (State.writeFields s p t off v).Ok pend := by
  unfold State.writeFields
  try dsimp only
  repeat' first
    | with_reducible assumption | (intro) | with_reducible apply State.writeField_keeps
    | with_reducible apply foldl_keeps

theorem State.heldFields_keeps (s : State) (p : PageRef) (t : PType) (off v : Nat) (hs : s.Ok pend) :
    (State.heldFields s p t off v).Ok pend := by
  unfold State.heldFields
  try dsimp only
  repeat' first
    | with_reducible assumption | (intro) | with_reducible apply State.heldField_keeps
    | with_reducible apply State.Ok.memWf (pend := pend) | with_reducible apply State.Ok.queue
    | with_reducible apply State.Ok.flashWf (pend := pend) | with_reducible apply foldl_keeps

theorem State.writeEn_keeps (s : State) (p : PageRef) (t : PType) (i : Nat) (on : Bool) (hs : s.Ok pend) :
    (State.writeEn s p t i on).Ok pend := by
  unfold State.writeEn
  try dsimp only
  repeat' first
    | with_reducible assumption | with_reducible apply State.putFlag_keeps
    | with_reducible apply State.emcEnabled_keeps | with_reducible apply State.portOn_keeps
    | with_reducible apply State.portOff_keeps | with_reducible apply State.winEnable_keeps
    | with_reducible apply State.winDisable_keeps | with_reducible apply ite_keeps | split

theorem State.writeLock_keeps (s : State) (p : PageRef) (v : Bool) (hs : s.Ok pend) :
    (State.writeLock s p v).Ok pend := by
  unfold State.writeLock
  try dsimp only
  repeat' first
    | with_reducible assumption | with_reducible apply State.putFlag_keeps | with_reducible apply ite_keeps

theorem State.ackC_keeps (s : State) (p : PageRef) (hs : s.Ok pend) :
    (State.ackC s p).Ok pend := by
  unfold State.ackC
  try dsimp only
  repeat' first | with_reducible assumption | with_reducible apply State.put_keeps

theorem State.ackU_keeps (s : State) (p : PageRef) (hs : s.Ok pend) :
    (State.ackU s p).Ok pend := by
  unfold State.ackU
  try dsimp only
  repeat' first | with_reducible assumption | with_reducible apply State.put_keeps

theorem State.when_keeps (s : State) (v b : Nat) (f : State → State) (hs : s.Ok pend) (hf : ∀ s, s.Ok pend → (f s).Ok pend) :
    (s.when v b f).Ok pend := by
  unfold State.when
  split
  · exact hf _ hs
  · exact hs

theorem State.writeHeader_keeps (s : State) (p : PageRef) (t : PType) (i off v : Nat) (hs : s.Ok pend) :
    (State.writeHeader s p t i off v).Ok pend := by
  unfold State.writeHeader
  try dsimp only
  repeat' first
    | with_reducible assumption | (intro) | with_reducible apply State.putFlag_keeps
    | with_reducible apply State.ackFirst_keeps | with_reducible apply State.writeReq_keeps
    | with_reducible apply State.writeLattol_keeps | with_reducible apply State.softReset_keeps
    | with_reducible apply State.writeEn_keeps | with_reducible apply State.writeLock_keeps
    | with_reducible apply State.ackC_keeps | with_reducible apply State.ackU_keeps
    | with_reducible apply State.when_keeps | with_reducible apply ite_keeps

theorem State.pmbStart_keeps (s : State) (v : Nat) (hs : s.Ok pend) :
    (State.pmbStart s v).Ok pend := by
  unfold State.pmbStart
  try dsimp only
  repeat' first
    | with_reducible assumption | with_reducible apply State.put_keeps | with_reducible apply ite_optOk
    | with_reducible apply ite_optOk1 | with_reducible apply State.putFlag_keeps
    | with_reducible apply State.emit_keeps | with_reducible apply State.Ok.memWf (pend := pend)
    | with_reducible apply State.Ok.queue | with_reducible apply State.Ok.flashWf (pend := pend)
    | with_reducible apply ite_keeps | split | (simp only [ok_mk]; refine ⟨?_, ?_, ?_⟩)

theorem State.flashWrite_keeps (s : State) (v : Nat) (hs : s.Ok pend) :
    (State.flashWrite s v).Ok pend := by
  unfold State.flashWrite
  try dsimp only
  repeat' first | with_reducible assumption | with_reducible apply State.flashStart_keeps | split

theorem State.tileCtl_keeps (s : State) (t v : Nat) (hs : s.Ok pend) :
    (State.tileCtl s t v).Ok pend := by
  unfold State.tileCtl
  try dsimp only
  repeat' first
    | with_reducible assumption | (intro) | with_reducible apply State.tileStart_keeps
    | with_reducible apply State.tileHalt_keeps | with_reducible apply State.when_keeps
    | with_reducible apply ite_keeps

theorem State.tileErrCtl_keeps (s : State) (t v : Nat) (hs : s.Ok pend) :
    (State.tileErrCtl s t v).Ok pend := by
  unfold State.tileErrCtl
  try dsimp only
  repeat' first
    | with_reducible assumption | (intro) | with_reducible apply State.tileFence_keeps
    | with_reducible apply State.tileErrClr_keeps | with_reducible apply State.when_keeps

theorem State.writeBlock_keeps (s : State) (who : Nat) (p : PageRef) (t : PType) (i off v : Nat) (hs : s.Ok pend) :
    (State.writeBlock s who p t i off v).Ok pend := by
  unfold State.writeBlock
  try dsimp only
  repeat' first
    | with_reducible assumption | (intro) | with_reducible apply State.acceptHold_keeps
    | with_reducible apply State.attStart_keeps | with_reducible apply State.calLoad_keeps
    | with_reducible apply State.calSwitch_keeps | with_reducible apply State.checkStart_keeps
    | with_reducible apply State.checkStop_keeps | with_reducible apply State.clearFault_keeps
    | with_reducible apply State.clearPortCounters_keeps | with_reducible apply State.clrLate_keeps
    | with_reducible apply State.clrScrub_keeps | with_reducible apply State.cqHead_keeps
    | with_reducible apply State.dmaFlush_keeps | with_reducible apply State.dmaResume_keeps
    | with_reducible apply State.fallBack_keeps | with_reducible apply State.flashWrite_keeps
    | with_reducible apply State.groupLoad_keeps | with_reducible apply State.logSelect_keeps
    | with_reducible apply State.logTail_keeps | with_reducible apply State.pkgResetWrite_keeps
    | with_reducible apply State.pmbStart_keeps | with_reducible apply State.prstBegin_keeps
    | with_reducible apply State.prstFree_keeps | with_reducible apply State.put_keeps
    | with_reducible apply State.refreshRate_keeps | with_reducible apply State.reload_keeps
    | with_reducible apply State.retrainPort_keeps | with_reducible apply State.ropeSelect_keeps
    | with_reducible apply State.seamRetrains_keeps | with_reducible apply State.setStride_keeps
    | with_reducible apply State.snap_keeps | with_reducible apply State.summitMode_keeps
    | with_reducible apply State.tileCtl_keeps | with_reducible apply State.tileErrCtl_keeps
    | with_reducible apply State.when_keeps | with_reducible apply State.writeCairnCfg_keeps
    | with_reducible apply State.writeFields_keeps | with_reducible apply State.writeLayTag_keeps
    | with_reducible apply State.writeLayout_keeps | with_reducible apply State.writeRing_keeps
    | with_reducible apply State.writeRopeCfg_keeps | with_reducible apply State.Ok.memWf (pend := pend)
    | with_reducible apply State.Ok.queue | with_reducible apply State.Ok.flashWf (pend := pend)
    | with_reducible apply ite_keeps | with_reducible apply ite_keeps1 | split

theorem State.writeReg_keeps (s : State) (who : Nat) (p : PageRef) (off v : Nat) (hs : s.Ok pend) :
    (State.writeReg s who p off v).Ok pend := by
  unfold State.writeReg
  try dsimp only
  repeat' first
    | with_reducible assumption | (intro) | with_reducible apply State.heldFields_keeps
    | with_reducible apply State.writeBlock_keeps | with_reducible apply State.writeFields_keeps
    | with_reducible apply State.writeHeader_keeps | with_reducible apply State.Ok.memWf (pend := pend)
    | with_reducible apply State.Ok.queue | with_reducible apply State.Ok.flashWf (pend := pend)
    | with_reducible apply ite_keeps | with_reducible apply ite_keeps1 | split
    | (simp only [ok_mk]; refine ⟨?_, ?_, ?_⟩)

theorem State.hostTry_keeps (s : State) (i : Nat) (q : HostHead) (data : List (List Byte)) (bad : Bool) (hs : s.Ok
    pend) :
    (State.hostTry s i q data bad).Ok pend := by
  unfold State.hostTry
  try dsimp only
  repeat' first
    | with_reducible assumption | (intro) | with_reducible apply State.complete_keeps
    | with_reducible apply State.hostAccess_keeps | with_reducible apply State.readReg_keeps
    | with_reducible apply State.refuseHost_keeps | with_reducible apply State.writeReg_keeps
    | with_reducible apply State.Ok.memWf (pend := pend) | with_reducible apply State.Ok.queue
    | with_reducible apply State.Ok.flashWf (pend := pend) | with_reducible apply ite_keeps

theorem State.hostServe_keeps (s : State) (i : Nat) (q : HostHead) (data : List (List Byte)) (bad : Bool) (hs : s.Ok
    pend) :
    (State.hostServe s i q data bad).Ok pend := by
  unfold State.hostServe
  try dsimp only
  repeat' first
    | with_reducible assumption | (intro) | with_reducible apply State.hostTry_keeps
    | with_reducible apply State.Ok.memWf (pend := pend) | with_reducible apply State.Ok.queue
    | with_reducible apply State.Ok.flashWf (pend := pend) | with_reducible apply ite_keeps
    | with_reducible apply ite_keeps1 | split | (simp only [ok_mk]; refine ⟨?_, ?_, ?_⟩)

theorem State.hostArrives_keeps (s : State) (i : Nat) (q : HostHead) (data : List (List Byte)) (hs : s.Ok pend) :
    (State.hostArrives s i q data).Ok pend := by
  unfold State.hostArrives
  try dsimp only
  repeat' first
    | with_reducible assumption | (intro) | with_reducible apply State.hostCompletion_keeps
    | with_reducible apply State.hostServe_keeps | with_reducible apply State.Ok.memWf (pend := pend)
    | with_reducible apply State.Ok.queue | with_reducible apply State.Ok.flashWf (pend := pend)
    | with_reducible apply ite_keeps

theorem State.settleHost_keeps (s : State) (hs : s.Ok pend) :
    (State.settleHost s).Ok pend := by
  unfold State.settleHost
  try dsimp only
  repeat' first
    | with_reducible assumption | (intro) | with_reducible apply State.hostServe_keeps
    | with_reducible apply State.Ok.memWf (pend := pend) | with_reducible apply State.Ok.queue
    | with_reducible apply State.Ok.flashWf (pend := pend) | with_reducible apply foldl_keeps
    | with_reducible apply foldl_keeps1 | with_reducible apply foldl_keeps2 | split
    | (simp only [ok_mk]; refine ⟨?_, ?_, ?_⟩)

theorem State.settle_keeps (s : State) (hs : s.Ok pend) :
    (State.settle s).Ok pend := by
  unfold State.settle
  try dsimp only
  repeat' first
    | with_reducible assumption | (intro) | with_reducible apply State.acceptsEnd_keeps
    | with_reducible apply State.attnSettle_keeps | with_reducible apply State.settleAccs_keeps
    | with_reducible apply State.settleHost_keeps | with_reducible apply State.settleParked_keeps
    | with_reducible apply State.settleXfers_keeps

theorem State.afterPower_keeps (s : State) (hs : s.Ok pend) :
    (State.afterPower s).Ok pend := by
  unfold State.afterPower
  try dsimp only
  repeat' first
    | with_reducible assumption | (intro) | with_reducible apply State.settle_keeps
    | with_reducible apply State.settleSoft_keeps

theorem State.regWrite_keeps (s : State) (who a v : Nat) (hs : s.Ok pend) :
    (State.regWrite s who a v).Ok pend := by
  unfold State.regWrite
  try dsimp only
  repeat' first
    | with_reducible assumption | with_reducible apply State.writeReg_keeps | with_reducible apply ite_keeps

theorem State.dmaReplies_keeps (s : State) (d : Nat) (l : List HostReply) (hs : s.Ok pend) :
    (State.dmaReplies s d l).Ok pend := by
  unfold State.dmaReplies
  try dsimp only
  repeat' first
    | with_reducible assumption | (intro) | with_reducible apply State.afterPower_keeps
    | with_reducible apply State.hostArrives_keeps | with_reducible apply State.Ok.memWf (pend := pend)
    | with_reducible apply State.Ok.queue | with_reducible apply State.Ok.flashWf (pend := pend)
    | with_reducible apply foldl_keeps

end Sys2Proof.Machine
end

