-- ==== Sys2Proof/Laws/KeepBoard.lean ====
section
/-! SUPPORT. Every operation of `Machine/Board.lean` leaves the queue and keeps the canonical form of memory
and flash (`State.Ok`). -/

namespace Sys2Proof.Machine

variable {pend : List Instr}

theorem State.smbRead_keeps (s : State) (off : Nat) (pec : Bool) (hs : s.Ok pend) :
    (State.smbRead s off pec).Ok pend := by
  unfold State.smbRead
  try dsimp only
  repeat' first
    | with_reducible assumption | with_reducible apply State.free_keeps | with_reducible apply State.emit_keeps
    | with_reducible apply State.readReg_keeps | with_reducible apply ite_keeps

theorem State.smbWrite_keeps (s : State) (off v : Nat) (pec : Bool) (hs : s.Ok pend) :
    (State.smbWrite s off v pec).Ok pend := by
  unfold State.smbWrite
  try dsimp only
  repeat' first
    | with_reducible assumption | with_reducible apply State.writeReg_keeps
    | with_reducible apply State.afterPower_keeps | with_reducible apply State.Ok.memWf (pend := pend)
    | with_reducible apply State.Ok.queue | with_reducible apply State.Ok.flashWf (pend := pend)
    | with_reducible apply ite_keeps | split | (simp only [ok_mk]; refine ⟨?_, ?_, ?_⟩)

theorem State.smbStatusOut_keeps (s : State) (pec : Bool) (hs : s.Ok pend) :
    (State.smbStatusOut s pec).Ok pend := by
  unfold State.smbStatusOut
  try dsimp only
  repeat' first | with_reducible assumption | with_reducible apply State.emit_keeps | with_reducible apply ite_keeps

theorem State.pmbEnd_keeps (s : State) (r : PmbEnd) (data : Nat) (hs : s.Ok pend) :
    (State.pmbEnd s r data).Ok pend := by
  unfold State.pmbEnd
  try dsimp only
  repeat' first
    | with_reducible assumption | with_reducible apply State.put_keeps | with_reducible apply ite_optOk
    | with_reducible apply ite_optOk1 | with_reducible apply State.putFlag_keeps
    | with_reducible apply State.Ok.memWf (pend := pend) | with_reducible apply State.Ok.queue
    | with_reducible apply State.Ok.flashWf (pend := pend) | with_reducible apply ite_keeps | split
    | (simp only [ok_mk]; refine ⟨?_, ?_, ?_⟩)

theorem State.setTap_keeps (s : State) (k : Nat) (hs : s.Ok pend) :
    (State.setTap s k).Ok pend := by
  unfold State.setTap
  try dsimp only
  repeat' first
    | with_reducible assumption | with_reducible apply State.Ok.memWf (pend := pend)
    | with_reducible apply State.Ok.queue | with_reducible apply State.Ok.flashWf (pend := pend)
    | (simp only [ok_mk]; refine ⟨?_, ?_, ?_⟩)

end Sys2Proof.Machine
end

