-- ==== Sys2Proof/Laws/Settle.lean ====
section
/-! SUPPORT. What a command leaves to settle: on a state in which nothing waits, the two closing steps of a command change
nothing. -/

namespace Sys2Proof.Machine

/-- Transfers none of which is refused stay. -/
theorem State.settleXfers_none (s : State) (h : ∀ e ∈ s.tiles, ∀ x ∈ e.2.xfers, s.xferRefused x = false) :
    s.settleXfers = s := by
  have hn : s.tiles.filter (fun e => e.2.xfers.any s.xferRefused) = [] := by
    rw [List.filter_eq_nil_iff]
    intro e he
    simpa using fun x hx => h e he x hx
  simp [State.settleXfers, hn]

/-- Without packets held, nothing goes through a router again. -/
theorem State.settleParked_none (s : State) (h : s.net.parked = []) : s.settleParked = s := by
  have e : { s.net with parked := [] } = s.net := by rw [← h]
  simp [State.settleParked, State.rerun, h, e]

/-- Without accesses under way, none ends. -/
theorem State.settleAccs_none (s : State) (h : s.bridge.accs = []) : s.settleAccs = s := by
  have e : { s.bridge with accs := [] } = s.bridge := by rw [← h]
  simp [State.settleAccs, State.accsMoving, h, e]

/-- Without host requests that wait, none is taken up. -/
theorem State.settleHost_none (s : State) (h : s.bridge.hostReqs = []) : s.settleHost = s := by
  have e : { s.bridge with hostReqs := [] } = s.bridge := by rw [← h]
  simp [State.settleHost, h, e]

/-- Without attention commands and ended outputs, attention stays. -/
theorem State.attnSettle_none (s : State) (h : s.attn.cmds = []) (ho : ∀ e ∈ s.tiles, e.2.outEnded = []) :
    s.attnSettle = s := by
  have hn : s.tiles.flatMap (fun e => e.2.outEnded) = [] := by
    rw [List.flatMap_eq_nil_iff]
    exact ho
  simp [State.attnSettle, State.hearOutputs, hn, h]

/-- Where nothing waits, a command has nothing to settle. -/
theorem State.settle_none (s : State) (hp : s.net.parked = []) (ha : s.bridge.accs = []) (hh : s.bridge.hostReqs = [])
    (hc : s.attn.cmds = []) (he : s.attn.accepts = []) (ho : ∀ e ∈ s.tiles, e.2.outEnded = [])
    (hx : ∀ e ∈ s.tiles, ∀ x ∈ e.2.xfers, s.xferRefused x = false) : s.settle = s := by
  simp only [State.settle, State.settleParked_none s hp, State.settleXfers_none s hx, State.settleAccs_none s ha,
    State.settleHost_none s hh, State.attnSettle_none s hc ho]
  simp [State.acceptsEnd, he]

/-- Without soft resets that wait, none starts. -/
theorem State.settleSoft_none (s : State) (h : s.softWait = []) : s.settleSoft = s := by
  obtain ⟨⟩ := s
  simp_all [State.settleSoft]

end Sys2Proof.Machine
end

