-- ==== Sys2Proof/Laws/State.lean ====
section
/-! SUPPORT. What each update of the state leaves, field by field, and what each accessor reads after it. Every lemma about
another field is true by `rfl`; with them no later proof unfolds an update of the record. -/

namespace Sys2Proof.Machine

variable (s : State)

/-! ## `put` -/

@[simp] theorem State.put_pending (p : PageRef) (f : Field) (v : Nat) : (s.put p f v).pending = s.pending := rfl
@[simp] theorem State.put_out (p : PageRef) (f : Field) (v : Nat) : (s.put p f v).out = s.out := rfl
@[simp] theorem State.put_mg (p : PageRef) (f : Field) (v : Nat) : (s.put p f v).mg = s.mg := rfl
@[simp] theorem State.put_fresh (p : PageRef) (f : Field) (v : Nat) : (s.put p f v).fresh = s.fresh := rfl
@[simp] theorem State.put_staged (p : PageRef) (f : Field) (v : Nat) : (s.put p f v).staged = s.staged := rfl
@[simp] theorem State.put_latched (p : PageRef) (f : Field) (v : Nat) : (s.put p f v).latched = s.latched := rfl
@[simp] theorem State.put_mem (p : PageRef) (f : Field) (v : Nat) : (s.put p f v).mem = s.mem := rfl
@[simp] theorem State.put_log (p : PageRef) (f : Field) (v : Nat) : (s.put p f v).log = s.log := rfl
@[simp] theorem State.put_tiles (p : PageRef) (f : Field) (v : Nat) : (s.put p f v).tiles = s.tiles := rfl
@[simp] theorem State.put_found (p : PageRef) (f : Field) (v : Nat) : (s.put p f v).found = s.found := rfl
@[simp] theorem State.put_res (p : PageRef) (f : Field) (v : Nat) : (s.put p f v).res = s.res := rfl
@[simp] theorem State.put_arbs (p : PageRef) (f : Field) (v : Nat) : (s.put p f v).arbs = s.arbs := rfl
@[simp] theorem State.put_refresh (p : PageRef) (f : Field) (v : Nat) : (s.put p f v).refresh = s.refresh := rfl
@[simp] theorem State.put_engines (p : PageRef) (f : Field) (v : Nat) : (s.put p f v).engines = s.engines := rfl
@[simp] theorem State.put_emclk (p : PageRef) (f : Field) (v : Nat) : (s.put p f v).emclk = s.emclk := rfl
@[simp] theorem State.put_checkers (p : PageRef) (f : Field) (v : Nat) : (s.put p f v).checkers = s.checkers := rfl
@[simp] theorem State.put_cache (p : PageRef) (f : Field) (v : Nat) : (s.put p f v).cache = s.cache := rfl
@[simp] theorem State.put_cacheHits (p : PageRef) (f : Field) (v : Nat) : (s.put p f v).cacheHits = s.cacheHits := rfl
@[simp] theorem State.put_links (p : PageRef) (f : Field) (v : Nat) : (s.put p f v).links = s.links := rfl
@[simp] theorem State.put_net (p : PageRef) (f : Field) (v : Nat) : (s.put p f v).net = s.net := rfl
@[simp] theorem State.put_moves (p : PageRef) (f : Field) (v : Nat) : (s.put p f v).moves = s.moves := rfl
@[simp] theorem State.put_boot (p : PageRef) (f : Field) (v : Nat) : (s.put p f v).boot = s.boot := rfl
@[simp] theorem State.put_red (p : PageRef) (f : Field) (v : Nat) : (s.put p f v).red = s.red := rfl
@[simp] theorem State.put_ports (p : PageRef) (f : Field) (v : Nat) : (s.put p f v).ports = s.ports := rfl
@[simp] theorem State.put_wins (p : PageRef) (f : Field) (v : Nat) : (s.put p f v).wins = s.wins := rfl
@[simp] theorem State.put_bridge (p : PageRef) (f : Field) (v : Nat) : (s.put p f v).bridge = s.bridge := rfl
@[simp] theorem State.put_dmas (p : PageRef) (f : Field) (v : Nat) : (s.put p f v).dmas = s.dmas := rfl
@[simp] theorem State.put_softWait (p : PageRef) (f : Field) (v : Nat) : (s.put p f v).softWait = s.softWait := rfl
@[simp] theorem State.put_thermal (p : PageRef) (f : Field) (v : Nat) : (s.put p f v).thermal = s.thermal := rfl
@[simp] theorem State.put_flash (p : PageRef) (f : Field) (v : Nat) : (s.put p f v).flash = s.flash := rfl
@[simp] theorem State.put_flashCmd (p : PageRef) (f : Field) (v : Nat) : (s.put p f v).flashCmd = s.flashCmd := rfl
@[simp] theorem State.put_ident (p : PageRef) (f : Field) (v : Nat) : (s.put p f v).ident = s.ident := rfl
@[simp] theorem State.put_board (p : PageRef) (f : Field) (v : Nat) : (s.put p f v).board = s.board := rfl
@[simp] theorem State.put_ropes (p : PageRef) (f : Field) (v : Nat) : (s.put p f v).ropes = s.ropes := rfl
@[simp] theorem State.put_kv (p : PageRef) (f : Field) (v : Nat) : (s.put p f v).kv = s.kv := rfl
@[simp] theorem State.put_attn (p : PageRef) (f : Field) (v : Nat) : (s.put p f v).attn = s.attn := rfl

/-! ## `setTile` -/

@[simp] theorem State.setTile_pending (t : Nat) (u : Tile) : (s.setTile t u).pending = s.pending := rfl
@[simp] theorem State.setTile_out (t : Nat) (u : Tile) : (s.setTile t u).out = s.out := rfl
@[simp] theorem State.setTile_mg (t : Nat) (u : Tile) : (s.setTile t u).mg = s.mg := rfl
@[simp] theorem State.setTile_fresh (t : Nat) (u : Tile) : (s.setTile t u).fresh = s.fresh := rfl
@[simp] theorem State.setTile_regs (t : Nat) (u : Tile) : (s.setTile t u).regs = s.regs := rfl
@[simp] theorem State.setTile_staged (t : Nat) (u : Tile) : (s.setTile t u).staged = s.staged := rfl
@[simp] theorem State.setTile_latched (t : Nat) (u : Tile) : (s.setTile t u).latched = s.latched := rfl
@[simp] theorem State.setTile_mem (t : Nat) (u : Tile) : (s.setTile t u).mem = s.mem := rfl
@[simp] theorem State.setTile_log (t : Nat) (u : Tile) : (s.setTile t u).log = s.log := rfl
@[simp] theorem State.setTile_found (t : Nat) (u : Tile) : (s.setTile t u).found = s.found := rfl
@[simp] theorem State.setTile_res (t : Nat) (u : Tile) : (s.setTile t u).res = s.res := rfl
@[simp] theorem State.setTile_arbs (t : Nat) (u : Tile) : (s.setTile t u).arbs = s.arbs := rfl
@[simp] theorem State.setTile_refresh (t : Nat) (u : Tile) : (s.setTile t u).refresh = s.refresh := rfl
@[simp] theorem State.setTile_engines (t : Nat) (u : Tile) : (s.setTile t u).engines = s.engines := rfl
@[simp] theorem State.setTile_emclk (t : Nat) (u : Tile) : (s.setTile t u).emclk = s.emclk := rfl
@[simp] theorem State.setTile_checkers (t : Nat) (u : Tile) : (s.setTile t u).checkers = s.checkers := rfl
@[simp] theorem State.setTile_cache (t : Nat) (u : Tile) : (s.setTile t u).cache = s.cache := rfl
@[simp] theorem State.setTile_cacheHits (t : Nat) (u : Tile) : (s.setTile t u).cacheHits = s.cacheHits := rfl
@[simp] theorem State.setTile_links (t : Nat) (u : Tile) : (s.setTile t u).links = s.links := rfl
@[simp] theorem State.setTile_net (t : Nat) (u : Tile) : (s.setTile t u).net = s.net := rfl
@[simp] theorem State.setTile_moves (t : Nat) (u : Tile) : (s.setTile t u).moves = s.moves := rfl
@[simp] theorem State.setTile_boot (t : Nat) (u : Tile) : (s.setTile t u).boot = s.boot := rfl
@[simp] theorem State.setTile_red (t : Nat) (u : Tile) : (s.setTile t u).red = s.red := rfl
@[simp] theorem State.setTile_ports (t : Nat) (u : Tile) : (s.setTile t u).ports = s.ports := rfl
@[simp] theorem State.setTile_wins (t : Nat) (u : Tile) : (s.setTile t u).wins = s.wins := rfl
@[simp] theorem State.setTile_bridge (t : Nat) (u : Tile) : (s.setTile t u).bridge = s.bridge := rfl
@[simp] theorem State.setTile_dmas (t : Nat) (u : Tile) : (s.setTile t u).dmas = s.dmas := rfl
@[simp] theorem State.setTile_softWait (t : Nat) (u : Tile) : (s.setTile t u).softWait = s.softWait := rfl
@[simp] theorem State.setTile_thermal (t : Nat) (u : Tile) : (s.setTile t u).thermal = s.thermal := rfl
@[simp] theorem State.setTile_flash (t : Nat) (u : Tile) : (s.setTile t u).flash = s.flash := rfl
@[simp] theorem State.setTile_flashCmd (t : Nat) (u : Tile) : (s.setTile t u).flashCmd = s.flashCmd := rfl
@[simp] theorem State.setTile_ident (t : Nat) (u : Tile) : (s.setTile t u).ident = s.ident := rfl
@[simp] theorem State.setTile_board (t : Nat) (u : Tile) : (s.setTile t u).board = s.board := rfl
@[simp] theorem State.setTile_ropes (t : Nat) (u : Tile) : (s.setTile t u).ropes = s.ropes := rfl
@[simp] theorem State.setTile_kv (t : Nat) (u : Tile) : (s.setTile t u).kv = s.kv := rfl
@[simp] theorem State.setTile_attn (t : Nat) (u : Tile) : (s.setTile t u).attn = s.attn := rfl

/-! ## `setRes` -/

@[simp] theorem State.setRes_pending (i : Nat) (x : Res) : (s.setRes i x).pending = s.pending := rfl
@[simp] theorem State.setRes_out (i : Nat) (x : Res) : (s.setRes i x).out = s.out := rfl
@[simp] theorem State.setRes_mg (i : Nat) (x : Res) : (s.setRes i x).mg = s.mg := rfl
@[simp] theorem State.setRes_fresh (i : Nat) (x : Res) : (s.setRes i x).fresh = s.fresh := rfl
@[simp] theorem State.setRes_regs (i : Nat) (x : Res) : (s.setRes i x).regs = s.regs := rfl
@[simp] theorem State.setRes_staged (i : Nat) (x : Res) : (s.setRes i x).staged = s.staged := rfl
@[simp] theorem State.setRes_latched (i : Nat) (x : Res) : (s.setRes i x).latched = s.latched := rfl
@[simp] theorem State.setRes_mem (i : Nat) (x : Res) : (s.setRes i x).mem = s.mem := rfl
@[simp] theorem State.setRes_log (i : Nat) (x : Res) : (s.setRes i x).log = s.log := rfl
@[simp] theorem State.setRes_tiles (i : Nat) (x : Res) : (s.setRes i x).tiles = s.tiles := rfl
@[simp] theorem State.setRes_found (i : Nat) (x : Res) : (s.setRes i x).found = s.found := rfl
@[simp] theorem State.setRes_arbs (i : Nat) (x : Res) : (s.setRes i x).arbs = s.arbs := rfl
@[simp] theorem State.setRes_refresh (i : Nat) (x : Res) : (s.setRes i x).refresh = s.refresh := rfl
@[simp] theorem State.setRes_engines (i : Nat) (x : Res) : (s.setRes i x).engines = s.engines := rfl
@[simp] theorem State.setRes_emclk (i : Nat) (x : Res) : (s.setRes i x).emclk = s.emclk := rfl
@[simp] theorem State.setRes_checkers (i : Nat) (x : Res) : (s.setRes i x).checkers = s.checkers := rfl
@[simp] theorem State.setRes_cache (i : Nat) (x : Res) : (s.setRes i x).cache = s.cache := rfl
@[simp] theorem State.setRes_cacheHits (i : Nat) (x : Res) : (s.setRes i x).cacheHits = s.cacheHits := rfl
@[simp] theorem State.setRes_links (i : Nat) (x : Res) : (s.setRes i x).links = s.links := rfl
@[simp] theorem State.setRes_net (i : Nat) (x : Res) : (s.setRes i x).net = s.net := rfl
@[simp] theorem State.setRes_moves (i : Nat) (x : Res) : (s.setRes i x).moves = s.moves := rfl
@[simp] theorem State.setRes_boot (i : Nat) (x : Res) : (s.setRes i x).boot = s.boot := rfl
@[simp] theorem State.setRes_red (i : Nat) (x : Res) : (s.setRes i x).red = s.red := rfl
@[simp] theorem State.setRes_ports (i : Nat) (x : Res) : (s.setRes i x).ports = s.ports := rfl
@[simp] theorem State.setRes_wins (i : Nat) (x : Res) : (s.setRes i x).wins = s.wins := rfl
@[simp] theorem State.setRes_bridge (i : Nat) (x : Res) : (s.setRes i x).bridge = s.bridge := rfl
@[simp] theorem State.setRes_dmas (i : Nat) (x : Res) : (s.setRes i x).dmas = s.dmas := rfl
@[simp] theorem State.setRes_softWait (i : Nat) (x : Res) : (s.setRes i x).softWait = s.softWait := rfl
@[simp] theorem State.setRes_thermal (i : Nat) (x : Res) : (s.setRes i x).thermal = s.thermal := rfl
@[simp] theorem State.setRes_flash (i : Nat) (x : Res) : (s.setRes i x).flash = s.flash := rfl
@[simp] theorem State.setRes_flashCmd (i : Nat) (x : Res) : (s.setRes i x).flashCmd = s.flashCmd := rfl
@[simp] theorem State.setRes_ident (i : Nat) (x : Res) : (s.setRes i x).ident = s.ident := rfl
@[simp] theorem State.setRes_board (i : Nat) (x : Res) : (s.setRes i x).board = s.board := rfl
@[simp] theorem State.setRes_ropes (i : Nat) (x : Res) : (s.setRes i x).ropes = s.ropes := rfl
@[simp] theorem State.setRes_kv (i : Nat) (x : Res) : (s.setRes i x).kv = s.kv := rfl
@[simp] theorem State.setRes_attn (i : Nat) (x : Res) : (s.setRes i x).attn = s.attn := rfl

/-! ## `setArb` -/

@[simp] theorem State.setArb_pending (a : Nat) (x : Arb) : (s.setArb a x).pending = s.pending := rfl
@[simp] theorem State.setArb_out (a : Nat) (x : Arb) : (s.setArb a x).out = s.out := rfl
@[simp] theorem State.setArb_mg (a : Nat) (x : Arb) : (s.setArb a x).mg = s.mg := rfl
@[simp] theorem State.setArb_fresh (a : Nat) (x : Arb) : (s.setArb a x).fresh = s.fresh := rfl
@[simp] theorem State.setArb_regs (a : Nat) (x : Arb) : (s.setArb a x).regs = s.regs := rfl
@[simp] theorem State.setArb_staged (a : Nat) (x : Arb) : (s.setArb a x).staged = s.staged := rfl
@[simp] theorem State.setArb_latched (a : Nat) (x : Arb) : (s.setArb a x).latched = s.latched := rfl
@[simp] theorem State.setArb_mem (a : Nat) (x : Arb) : (s.setArb a x).mem = s.mem := rfl
@[simp] theorem State.setArb_log (a : Nat) (x : Arb) : (s.setArb a x).log = s.log := rfl
@[simp] theorem State.setArb_tiles (a : Nat) (x : Arb) : (s.setArb a x).tiles = s.tiles := rfl
@[simp] theorem State.setArb_found (a : Nat) (x : Arb) : (s.setArb a x).found = s.found := rfl
@[simp] theorem State.setArb_res (a : Nat) (x : Arb) : (s.setArb a x).res = s.res := rfl
@[simp] theorem State.setArb_refresh (a : Nat) (x : Arb) : (s.setArb a x).refresh = s.refresh := rfl
@[simp] theorem State.setArb_engines (a : Nat) (x : Arb) : (s.setArb a x).engines = s.engines := rfl
@[simp] theorem State.setArb_emclk (a : Nat) (x : Arb) : (s.setArb a x).emclk = s.emclk := rfl
@[simp] theorem State.setArb_checkers (a : Nat) (x : Arb) : (s.setArb a x).checkers = s.checkers := rfl
@[simp] theorem State.setArb_cache (a : Nat) (x : Arb) : (s.setArb a x).cache = s.cache := rfl
@[simp] theorem State.setArb_cacheHits (a : Nat) (x : Arb) : (s.setArb a x).cacheHits = s.cacheHits := rfl
@[simp] theorem State.setArb_links (a : Nat) (x : Arb) : (s.setArb a x).links = s.links := rfl
@[simp] theorem State.setArb_net (a : Nat) (x : Arb) : (s.setArb a x).net = s.net := rfl
@[simp] theorem State.setArb_moves (a : Nat) (x : Arb) : (s.setArb a x).moves = s.moves := rfl
@[simp] theorem State.setArb_boot (a : Nat) (x : Arb) : (s.setArb a x).boot = s.boot := rfl
@[simp] theorem State.setArb_red (a : Nat) (x : Arb) : (s.setArb a x).red = s.red := rfl
@[simp] theorem State.setArb_ports (a : Nat) (x : Arb) : (s.setArb a x).ports = s.ports := rfl
@[simp] theorem State.setArb_wins (a : Nat) (x : Arb) : (s.setArb a x).wins = s.wins := rfl
@[simp] theorem State.setArb_bridge (a : Nat) (x : Arb) : (s.setArb a x).bridge = s.bridge := rfl
@[simp] theorem State.setArb_dmas (a : Nat) (x : Arb) : (s.setArb a x).dmas = s.dmas := rfl
@[simp] theorem State.setArb_softWait (a : Nat) (x : Arb) : (s.setArb a x).softWait = s.softWait := rfl
@[simp] theorem State.setArb_thermal (a : Nat) (x : Arb) : (s.setArb a x).thermal = s.thermal := rfl
@[simp] theorem State.setArb_flash (a : Nat) (x : Arb) : (s.setArb a x).flash = s.flash := rfl
@[simp] theorem State.setArb_flashCmd (a : Nat) (x : Arb) : (s.setArb a x).flashCmd = s.flashCmd := rfl
@[simp] theorem State.setArb_ident (a : Nat) (x : Arb) : (s.setArb a x).ident = s.ident := rfl
@[simp] theorem State.setArb_board (a : Nat) (x : Arb) : (s.setArb a x).board = s.board := rfl
@[simp] theorem State.setArb_ropes (a : Nat) (x : Arb) : (s.setArb a x).ropes = s.ropes := rfl
@[simp] theorem State.setArb_kv (a : Nat) (x : Arb) : (s.setArb a x).kv = s.kv := rfl
@[simp] theorem State.setArb_attn (a : Nat) (x : Arb) : (s.setArb a x).attn = s.attn := rfl

/-! ## `setRefr` -/

@[simp] theorem State.setRefr_pending (i m : Nat) (x : Refresh) : (s.setRefr i m x).pending = s.pending := rfl
@[simp] theorem State.setRefr_out (i m : Nat) (x : Refresh) : (s.setRefr i m x).out = s.out := rfl
@[simp] theorem State.setRefr_mg (i m : Nat) (x : Refresh) : (s.setRefr i m x).mg = s.mg := rfl
@[simp] theorem State.setRefr_fresh (i m : Nat) (x : Refresh) : (s.setRefr i m x).fresh = s.fresh := rfl
@[simp] theorem State.setRefr_regs (i m : Nat) (x : Refresh) : (s.setRefr i m x).regs = s.regs := rfl
@[simp] theorem State.setRefr_staged (i m : Nat) (x : Refresh) : (s.setRefr i m x).staged = s.staged := rfl
@[simp] theorem State.setRefr_latched (i m : Nat) (x : Refresh) : (s.setRefr i m x).latched = s.latched := rfl
@[simp] theorem State.setRefr_mem (i m : Nat) (x : Refresh) : (s.setRefr i m x).mem = s.mem := rfl
@[simp] theorem State.setRefr_log (i m : Nat) (x : Refresh) : (s.setRefr i m x).log = s.log := rfl
@[simp] theorem State.setRefr_tiles (i m : Nat) (x : Refresh) : (s.setRefr i m x).tiles = s.tiles := rfl
@[simp] theorem State.setRefr_found (i m : Nat) (x : Refresh) : (s.setRefr i m x).found = s.found := rfl
@[simp] theorem State.setRefr_res (i m : Nat) (x : Refresh) : (s.setRefr i m x).res = s.res := rfl
@[simp] theorem State.setRefr_arbs (i m : Nat) (x : Refresh) : (s.setRefr i m x).arbs = s.arbs := rfl
@[simp] theorem State.setRefr_engines (i m : Nat) (x : Refresh) : (s.setRefr i m x).engines = s.engines := rfl
@[simp] theorem State.setRefr_emclk (i m : Nat) (x : Refresh) : (s.setRefr i m x).emclk = s.emclk := rfl
@[simp] theorem State.setRefr_checkers (i m : Nat) (x : Refresh) : (s.setRefr i m x).checkers = s.checkers := rfl
@[simp] theorem State.setRefr_cache (i m : Nat) (x : Refresh) : (s.setRefr i m x).cache = s.cache := rfl
@[simp] theorem State.setRefr_cacheHits (i m : Nat) (x : Refresh) : (s.setRefr i m x).cacheHits = s.cacheHits := rfl
@[simp] theorem State.setRefr_links (i m : Nat) (x : Refresh) : (s.setRefr i m x).links = s.links := rfl
@[simp] theorem State.setRefr_net (i m : Nat) (x : Refresh) : (s.setRefr i m x).net = s.net := rfl
@[simp] theorem State.setRefr_moves (i m : Nat) (x : Refresh) : (s.setRefr i m x).moves = s.moves := rfl
@[simp] theorem State.setRefr_boot (i m : Nat) (x : Refresh) : (s.setRefr i m x).boot = s.boot := rfl
@[simp] theorem State.setRefr_red (i m : Nat) (x : Refresh) : (s.setRefr i m x).red = s.red := rfl
@[simp] theorem State.setRefr_ports (i m : Nat) (x : Refresh) : (s.setRefr i m x).ports = s.ports := rfl
@[simp] theorem State.setRefr_wins (i m : Nat) (x : Refresh) : (s.setRefr i m x).wins = s.wins := rfl
@[simp] theorem State.setRefr_bridge (i m : Nat) (x : Refresh) : (s.setRefr i m x).bridge = s.bridge := rfl
@[simp] theorem State.setRefr_dmas (i m : Nat) (x : Refresh) : (s.setRefr i m x).dmas = s.dmas := rfl
@[simp] theorem State.setRefr_softWait (i m : Nat) (x : Refresh) : (s.setRefr i m x).softWait = s.softWait := rfl
@[simp] theorem State.setRefr_thermal (i m : Nat) (x : Refresh) : (s.setRefr i m x).thermal = s.thermal := rfl
@[simp] theorem State.setRefr_flash (i m : Nat) (x : Refresh) : (s.setRefr i m x).flash = s.flash := rfl
@[simp] theorem State.setRefr_flashCmd (i m : Nat) (x : Refresh) : (s.setRefr i m x).flashCmd = s.flashCmd := rfl
@[simp] theorem State.setRefr_ident (i m : Nat) (x : Refresh) : (s.setRefr i m x).ident = s.ident := rfl
@[simp] theorem State.setRefr_board (i m : Nat) (x : Refresh) : (s.setRefr i m x).board = s.board := rfl
@[simp] theorem State.setRefr_ropes (i m : Nat) (x : Refresh) : (s.setRefr i m x).ropes = s.ropes := rfl
@[simp] theorem State.setRefr_kv (i m : Nat) (x : Refresh) : (s.setRefr i m x).kv = s.kv := rfl
@[simp] theorem State.setRefr_attn (i m : Nat) (x : Refresh) : (s.setRefr i m x).attn = s.attn := rfl

/-! ## `setLink` -/

@[simp] theorem State.setLink_pending (i : Nat) (x : Link) : (s.setLink i x).pending = s.pending := rfl
@[simp] theorem State.setLink_out (i : Nat) (x : Link) : (s.setLink i x).out = s.out := rfl
@[simp] theorem State.setLink_mg (i : Nat) (x : Link) : (s.setLink i x).mg = s.mg := rfl
@[simp] theorem State.setLink_fresh (i : Nat) (x : Link) : (s.setLink i x).fresh = s.fresh := rfl
@[simp] theorem State.setLink_regs (i : Nat) (x : Link) : (s.setLink i x).regs = s.regs := rfl
@[simp] theorem State.setLink_staged (i : Nat) (x : Link) : (s.setLink i x).staged = s.staged := rfl
@[simp] theorem State.setLink_latched (i : Nat) (x : Link) : (s.setLink i x).latched = s.latched := rfl
@[simp] theorem State.setLink_mem (i : Nat) (x : Link) : (s.setLink i x).mem = s.mem := rfl
@[simp] theorem State.setLink_log (i : Nat) (x : Link) : (s.setLink i x).log = s.log := rfl
@[simp] theorem State.setLink_tiles (i : Nat) (x : Link) : (s.setLink i x).tiles = s.tiles := rfl
@[simp] theorem State.setLink_found (i : Nat) (x : Link) : (s.setLink i x).found = s.found := rfl
@[simp] theorem State.setLink_res (i : Nat) (x : Link) : (s.setLink i x).res = s.res := rfl
@[simp] theorem State.setLink_arbs (i : Nat) (x : Link) : (s.setLink i x).arbs = s.arbs := rfl
@[simp] theorem State.setLink_refresh (i : Nat) (x : Link) : (s.setLink i x).refresh = s.refresh := rfl
@[simp] theorem State.setLink_engines (i : Nat) (x : Link) : (s.setLink i x).engines = s.engines := rfl
@[simp] theorem State.setLink_emclk (i : Nat) (x : Link) : (s.setLink i x).emclk = s.emclk := rfl
@[simp] theorem State.setLink_checkers (i : Nat) (x : Link) : (s.setLink i x).checkers = s.checkers := rfl
@[simp] theorem State.setLink_cache (i : Nat) (x : Link) : (s.setLink i x).cache = s.cache := rfl
@[simp] theorem State.setLink_cacheHits (i : Nat) (x : Link) : (s.setLink i x).cacheHits = s.cacheHits := rfl
@[simp] theorem State.setLink_net (i : Nat) (x : Link) : (s.setLink i x).net = s.net := rfl
@[simp] theorem State.setLink_moves (i : Nat) (x : Link) : (s.setLink i x).moves = s.moves := rfl
@[simp] theorem State.setLink_boot (i : Nat) (x : Link) : (s.setLink i x).boot = s.boot := rfl
@[simp] theorem State.setLink_red (i : Nat) (x : Link) : (s.setLink i x).red = s.red := rfl
@[simp] theorem State.setLink_ports (i : Nat) (x : Link) : (s.setLink i x).ports = s.ports := rfl
@[simp] theorem State.setLink_wins (i : Nat) (x : Link) : (s.setLink i x).wins = s.wins := rfl
@[simp] theorem State.setLink_bridge (i : Nat) (x : Link) : (s.setLink i x).bridge = s.bridge := rfl
@[simp] theorem State.setLink_dmas (i : Nat) (x : Link) : (s.setLink i x).dmas = s.dmas := rfl
@[simp] theorem State.setLink_softWait (i : Nat) (x : Link) : (s.setLink i x).softWait = s.softWait := rfl
@[simp] theorem State.setLink_thermal (i : Nat) (x : Link) : (s.setLink i x).thermal = s.thermal := rfl
@[simp] theorem State.setLink_flash (i : Nat) (x : Link) : (s.setLink i x).flash = s.flash := rfl
@[simp] theorem State.setLink_flashCmd (i : Nat) (x : Link) : (s.setLink i x).flashCmd = s.flashCmd := rfl
@[simp] theorem State.setLink_ident (i : Nat) (x : Link) : (s.setLink i x).ident = s.ident := rfl
@[simp] theorem State.setLink_board (i : Nat) (x : Link) : (s.setLink i x).board = s.board := rfl
@[simp] theorem State.setLink_ropes (i : Nat) (x : Link) : (s.setLink i x).ropes = s.ropes := rfl
@[simp] theorem State.setLink_kv (i : Nat) (x : Link) : (s.setLink i x).kv = s.kv := rfl
@[simp] theorem State.setLink_attn (i : Nat) (x : Link) : (s.setLink i x).attn = s.attn := rfl

/-! ## `setPort` -/

@[simp] theorem State.setPort_pending (i : Nat) (x : Port) : (s.setPort i x).pending = s.pending := rfl
@[simp] theorem State.setPort_out (i : Nat) (x : Port) : (s.setPort i x).out = s.out := rfl
@[simp] theorem State.setPort_mg (i : Nat) (x : Port) : (s.setPort i x).mg = s.mg := rfl
@[simp] theorem State.setPort_fresh (i : Nat) (x : Port) : (s.setPort i x).fresh = s.fresh := rfl
@[simp] theorem State.setPort_regs (i : Nat) (x : Port) : (s.setPort i x).regs = s.regs := rfl
@[simp] theorem State.setPort_staged (i : Nat) (x : Port) : (s.setPort i x).staged = s.staged := rfl
@[simp] theorem State.setPort_latched (i : Nat) (x : Port) : (s.setPort i x).latched = s.latched := rfl
@[simp] theorem State.setPort_mem (i : Nat) (x : Port) : (s.setPort i x).mem = s.mem := rfl
@[simp] theorem State.setPort_log (i : Nat) (x : Port) : (s.setPort i x).log = s.log := rfl
@[simp] theorem State.setPort_tiles (i : Nat) (x : Port) : (s.setPort i x).tiles = s.tiles := rfl
@[simp] theorem State.setPort_found (i : Nat) (x : Port) : (s.setPort i x).found = s.found := rfl
@[simp] theorem State.setPort_res (i : Nat) (x : Port) : (s.setPort i x).res = s.res := rfl
@[simp] theorem State.setPort_arbs (i : Nat) (x : Port) : (s.setPort i x).arbs = s.arbs := rfl
@[simp] theorem State.setPort_refresh (i : Nat) (x : Port) : (s.setPort i x).refresh = s.refresh := rfl
@[simp] theorem State.setPort_engines (i : Nat) (x : Port) : (s.setPort i x).engines = s.engines := rfl
@[simp] theorem State.setPort_emclk (i : Nat) (x : Port) : (s.setPort i x).emclk = s.emclk := rfl
@[simp] theorem State.setPort_checkers (i : Nat) (x : Port) : (s.setPort i x).checkers = s.checkers := rfl
@[simp] theorem State.setPort_cache (i : Nat) (x : Port) : (s.setPort i x).cache = s.cache := rfl
@[simp] theorem State.setPort_cacheHits (i : Nat) (x : Port) : (s.setPort i x).cacheHits = s.cacheHits := rfl
@[simp] theorem State.setPort_links (i : Nat) (x : Port) : (s.setPort i x).links = s.links := rfl
@[simp] theorem State.setPort_net (i : Nat) (x : Port) : (s.setPort i x).net = s.net := rfl
@[simp] theorem State.setPort_moves (i : Nat) (x : Port) : (s.setPort i x).moves = s.moves := rfl
@[simp] theorem State.setPort_boot (i : Nat) (x : Port) : (s.setPort i x).boot = s.boot := rfl
@[simp] theorem State.setPort_red (i : Nat) (x : Port) : (s.setPort i x).red = s.red := rfl
@[simp] theorem State.setPort_wins (i : Nat) (x : Port) : (s.setPort i x).wins = s.wins := rfl
@[simp] theorem State.setPort_bridge (i : Nat) (x : Port) : (s.setPort i x).bridge = s.bridge := rfl
@[simp] theorem State.setPort_dmas (i : Nat) (x : Port) : (s.setPort i x).dmas = s.dmas := rfl
@[simp] theorem State.setPort_softWait (i : Nat) (x : Port) : (s.setPort i x).softWait = s.softWait := rfl
@[simp] theorem State.setPort_thermal (i : Nat) (x : Port) : (s.setPort i x).thermal = s.thermal := rfl
@[simp] theorem State.setPort_flash (i : Nat) (x : Port) : (s.setPort i x).flash = s.flash := rfl
@[simp] theorem State.setPort_flashCmd (i : Nat) (x : Port) : (s.setPort i x).flashCmd = s.flashCmd := rfl
@[simp] theorem State.setPort_ident (i : Nat) (x : Port) : (s.setPort i x).ident = s.ident := rfl
@[simp] theorem State.setPort_board (i : Nat) (x : Port) : (s.setPort i x).board = s.board := rfl
@[simp] theorem State.setPort_ropes (i : Nat) (x : Port) : (s.setPort i x).ropes = s.ropes := rfl
@[simp] theorem State.setPort_kv (i : Nat) (x : Port) : (s.setPort i x).kv = s.kv := rfl
@[simp] theorem State.setPort_attn (i : Nat) (x : Port) : (s.setPort i x).attn = s.attn := rfl

/-! ## `setWin` -/

@[simp] theorem State.setWin_pending (w : Nat) (x : Win) : (s.setWin w x).pending = s.pending := rfl
@[simp] theorem State.setWin_out (w : Nat) (x : Win) : (s.setWin w x).out = s.out := rfl
@[simp] theorem State.setWin_mg (w : Nat) (x : Win) : (s.setWin w x).mg = s.mg := rfl
@[simp] theorem State.setWin_fresh (w : Nat) (x : Win) : (s.setWin w x).fresh = s.fresh := rfl
@[simp] theorem State.setWin_regs (w : Nat) (x : Win) : (s.setWin w x).regs = s.regs := rfl
@[simp] theorem State.setWin_staged (w : Nat) (x : Win) : (s.setWin w x).staged = s.staged := rfl
@[simp] theorem State.setWin_latched (w : Nat) (x : Win) : (s.setWin w x).latched = s.latched := rfl
@[simp] theorem State.setWin_mem (w : Nat) (x : Win) : (s.setWin w x).mem = s.mem := rfl
@[simp] theorem State.setWin_log (w : Nat) (x : Win) : (s.setWin w x).log = s.log := rfl
@[simp] theorem State.setWin_tiles (w : Nat) (x : Win) : (s.setWin w x).tiles = s.tiles := rfl
@[simp] theorem State.setWin_found (w : Nat) (x : Win) : (s.setWin w x).found = s.found := rfl
@[simp] theorem State.setWin_res (w : Nat) (x : Win) : (s.setWin w x).res = s.res := rfl
@[simp] theorem State.setWin_arbs (w : Nat) (x : Win) : (s.setWin w x).arbs = s.arbs := rfl
@[simp] theorem State.setWin_refresh (w : Nat) (x : Win) : (s.setWin w x).refresh = s.refresh := rfl
@[simp] theorem State.setWin_engines (w : Nat) (x : Win) : (s.setWin w x).engines = s.engines := rfl
@[simp] theorem State.setWin_emclk (w : Nat) (x : Win) : (s.setWin w x).emclk = s.emclk := rfl
@[simp] theorem State.setWin_checkers (w : Nat) (x : Win) : (s.setWin w x).checkers = s.checkers := rfl
@[simp] theorem State.setWin_cache (w : Nat) (x : Win) : (s.setWin w x).cache = s.cache := rfl
@[simp] theorem State.setWin_cacheHits (w : Nat) (x : Win) : (s.setWin w x).cacheHits = s.cacheHits := rfl
@[simp] theorem State.setWin_links (w : Nat) (x : Win) : (s.setWin w x).links = s.links := rfl
@[simp] theorem State.setWin_net (w : Nat) (x : Win) : (s.setWin w x).net = s.net := rfl
@[simp] theorem State.setWin_moves (w : Nat) (x : Win) : (s.setWin w x).moves = s.moves := rfl
@[simp] theorem State.setWin_boot (w : Nat) (x : Win) : (s.setWin w x).boot = s.boot := rfl
@[simp] theorem State.setWin_red (w : Nat) (x : Win) : (s.setWin w x).red = s.red := rfl
@[simp] theorem State.setWin_ports (w : Nat) (x : Win) : (s.setWin w x).ports = s.ports := rfl
@[simp] theorem State.setWin_bridge (w : Nat) (x : Win) : (s.setWin w x).bridge = s.bridge := rfl
@[simp] theorem State.setWin_dmas (w : Nat) (x : Win) : (s.setWin w x).dmas = s.dmas := rfl
@[simp] theorem State.setWin_softWait (w : Nat) (x : Win) : (s.setWin w x).softWait = s.softWait := rfl
@[simp] theorem State.setWin_thermal (w : Nat) (x : Win) : (s.setWin w x).thermal = s.thermal := rfl
@[simp] theorem State.setWin_flash (w : Nat) (x : Win) : (s.setWin w x).flash = s.flash := rfl
@[simp] theorem State.setWin_flashCmd (w : Nat) (x : Win) : (s.setWin w x).flashCmd = s.flashCmd := rfl
@[simp] theorem State.setWin_ident (w : Nat) (x : Win) : (s.setWin w x).ident = s.ident := rfl
@[simp] theorem State.setWin_board (w : Nat) (x : Win) : (s.setWin w x).board = s.board := rfl
@[simp] theorem State.setWin_ropes (w : Nat) (x : Win) : (s.setWin w x).ropes = s.ropes := rfl
@[simp] theorem State.setWin_kv (w : Nat) (x : Win) : (s.setWin w x).kv = s.kv := rfl
@[simp] theorem State.setWin_attn (w : Nat) (x : Win) : (s.setWin w x).attn = s.attn := rfl

/-! ## `setRope` -/

@[simp] theorem State.setRope_pending (r : Nat) (x : Rope) : (s.setRope r x).pending = s.pending := rfl
@[simp] theorem State.setRope_out (r : Nat) (x : Rope) : (s.setRope r x).out = s.out := rfl
@[simp] theorem State.setRope_mg (r : Nat) (x : Rope) : (s.setRope r x).mg = s.mg := rfl
@[simp] theorem State.setRope_fresh (r : Nat) (x : Rope) : (s.setRope r x).fresh = s.fresh := rfl
@[simp] theorem State.setRope_regs (r : Nat) (x : Rope) : (s.setRope r x).regs = s.regs := rfl
@[simp] theorem State.setRope_staged (r : Nat) (x : Rope) : (s.setRope r x).staged = s.staged := rfl
@[simp] theorem State.setRope_latched (r : Nat) (x : Rope) : (s.setRope r x).latched = s.latched := rfl
@[simp] theorem State.setRope_mem (r : Nat) (x : Rope) : (s.setRope r x).mem = s.mem := rfl
@[simp] theorem State.setRope_log (r : Nat) (x : Rope) : (s.setRope r x).log = s.log := rfl
@[simp] theorem State.setRope_tiles (r : Nat) (x : Rope) : (s.setRope r x).tiles = s.tiles := rfl
@[simp] theorem State.setRope_found (r : Nat) (x : Rope) : (s.setRope r x).found = s.found := rfl
@[simp] theorem State.setRope_res (r : Nat) (x : Rope) : (s.setRope r x).res = s.res := rfl
@[simp] theorem State.setRope_arbs (r : Nat) (x : Rope) : (s.setRope r x).arbs = s.arbs := rfl
@[simp] theorem State.setRope_refresh (r : Nat) (x : Rope) : (s.setRope r x).refresh = s.refresh := rfl
@[simp] theorem State.setRope_engines (r : Nat) (x : Rope) : (s.setRope r x).engines = s.engines := rfl
@[simp] theorem State.setRope_emclk (r : Nat) (x : Rope) : (s.setRope r x).emclk = s.emclk := rfl
@[simp] theorem State.setRope_checkers (r : Nat) (x : Rope) : (s.setRope r x).checkers = s.checkers := rfl
@[simp] theorem State.setRope_cache (r : Nat) (x : Rope) : (s.setRope r x).cache = s.cache := rfl
@[simp] theorem State.setRope_cacheHits (r : Nat) (x : Rope) : (s.setRope r x).cacheHits = s.cacheHits := rfl
@[simp] theorem State.setRope_links (r : Nat) (x : Rope) : (s.setRope r x).links = s.links := rfl
@[simp] theorem State.setRope_net (r : Nat) (x : Rope) : (s.setRope r x).net = s.net := rfl
@[simp] theorem State.setRope_moves (r : Nat) (x : Rope) : (s.setRope r x).moves = s.moves := rfl
@[simp] theorem State.setRope_boot (r : Nat) (x : Rope) : (s.setRope r x).boot = s.boot := rfl
@[simp] theorem State.setRope_red (r : Nat) (x : Rope) : (s.setRope r x).red = s.red := rfl
@[simp] theorem State.setRope_ports (r : Nat) (x : Rope) : (s.setRope r x).ports = s.ports := rfl
@[simp] theorem State.setRope_wins (r : Nat) (x : Rope) : (s.setRope r x).wins = s.wins := rfl
@[simp] theorem State.setRope_bridge (r : Nat) (x : Rope) : (s.setRope r x).bridge = s.bridge := rfl
@[simp] theorem State.setRope_dmas (r : Nat) (x : Rope) : (s.setRope r x).dmas = s.dmas := rfl
@[simp] theorem State.setRope_softWait (r : Nat) (x : Rope) : (s.setRope r x).softWait = s.softWait := rfl
@[simp] theorem State.setRope_thermal (r : Nat) (x : Rope) : (s.setRope r x).thermal = s.thermal := rfl
@[simp] theorem State.setRope_flash (r : Nat) (x : Rope) : (s.setRope r x).flash = s.flash := rfl
@[simp] theorem State.setRope_flashCmd (r : Nat) (x : Rope) : (s.setRope r x).flashCmd = s.flashCmd := rfl
@[simp] theorem State.setRope_ident (r : Nat) (x : Rope) : (s.setRope r x).ident = s.ident := rfl
@[simp] theorem State.setRope_board (r : Nat) (x : Rope) : (s.setRope r x).board = s.board := rfl
@[simp] theorem State.setRope_kv (r : Nat) (x : Rope) : (s.setRope r x).kv = s.kv := rfl
@[simp] theorem State.setRope_attn (r : Nat) (x : Rope) : (s.setRope r x).attn = s.attn := rfl

/-! ## `emit` -/

@[simp] theorem State.emit_pending (m : OutMsg) : (s.emit m).pending = s.pending := rfl
@[simp] theorem State.emit_mg (m : OutMsg) : (s.emit m).mg = s.mg := rfl
@[simp] theorem State.emit_fresh (m : OutMsg) : (s.emit m).fresh = s.fresh := rfl
@[simp] theorem State.emit_regs (m : OutMsg) : (s.emit m).regs = s.regs := rfl
@[simp] theorem State.emit_staged (m : OutMsg) : (s.emit m).staged = s.staged := rfl
@[simp] theorem State.emit_latched (m : OutMsg) : (s.emit m).latched = s.latched := rfl
@[simp] theorem State.emit_mem (m : OutMsg) : (s.emit m).mem = s.mem := rfl
@[simp] theorem State.emit_log (m : OutMsg) : (s.emit m).log = s.log := rfl
@[simp] theorem State.emit_tiles (m : OutMsg) : (s.emit m).tiles = s.tiles := rfl
@[simp] theorem State.emit_found (m : OutMsg) : (s.emit m).found = s.found := rfl
@[simp] theorem State.emit_res (m : OutMsg) : (s.emit m).res = s.res := rfl
@[simp] theorem State.emit_arbs (m : OutMsg) : (s.emit m).arbs = s.arbs := rfl
@[simp] theorem State.emit_refresh (m : OutMsg) : (s.emit m).refresh = s.refresh := rfl
@[simp] theorem State.emit_engines (m : OutMsg) : (s.emit m).engines = s.engines := rfl
@[simp] theorem State.emit_emclk (m : OutMsg) : (s.emit m).emclk = s.emclk := rfl
@[simp] theorem State.emit_checkers (m : OutMsg) : (s.emit m).checkers = s.checkers := rfl
@[simp] theorem State.emit_cache (m : OutMsg) : (s.emit m).cache = s.cache := rfl
@[simp] theorem State.emit_cacheHits (m : OutMsg) : (s.emit m).cacheHits = s.cacheHits := rfl
@[simp] theorem State.emit_links (m : OutMsg) : (s.emit m).links = s.links := rfl
@[simp] theorem State.emit_net (m : OutMsg) : (s.emit m).net = s.net := rfl
@[simp] theorem State.emit_moves (m : OutMsg) : (s.emit m).moves = s.moves := rfl
@[simp] theorem State.emit_boot (m : OutMsg) : (s.emit m).boot = s.boot := rfl
@[simp] theorem State.emit_red (m : OutMsg) : (s.emit m).red = s.red := rfl
@[simp] theorem State.emit_ports (m : OutMsg) : (s.emit m).ports = s.ports := rfl
@[simp] theorem State.emit_wins (m : OutMsg) : (s.emit m).wins = s.wins := rfl
@[simp] theorem State.emit_bridge (m : OutMsg) : (s.emit m).bridge = s.bridge := rfl
@[simp] theorem State.emit_dmas (m : OutMsg) : (s.emit m).dmas = s.dmas := rfl
@[simp] theorem State.emit_softWait (m : OutMsg) : (s.emit m).softWait = s.softWait := rfl
@[simp] theorem State.emit_thermal (m : OutMsg) : (s.emit m).thermal = s.thermal := rfl
@[simp] theorem State.emit_flash (m : OutMsg) : (s.emit m).flash = s.flash := rfl
@[simp] theorem State.emit_flashCmd (m : OutMsg) : (s.emit m).flashCmd = s.flashCmd := rfl
@[simp] theorem State.emit_ident (m : OutMsg) : (s.emit m).ident = s.ident := rfl
@[simp] theorem State.emit_board (m : OutMsg) : (s.emit m).board = s.board := rfl
@[simp] theorem State.emit_ropes (m : OutMsg) : (s.emit m).ropes = s.ropes := rfl
@[simp] theorem State.emit_kv (m : OutMsg) : (s.emit m).kv = s.kv := rfl
@[simp] theorem State.emit_attn (m : OutMsg) : (s.emit m).attn = s.attn := rfl

/-! ## `putCodeWord` -/

@[simp] theorem State.putCodeWord_pending (a : Nat) (w : List Byte) : (s.putCodeWord a w).pending = s.pending := rfl
@[simp] theorem State.putCodeWord_out (a : Nat) (w : List Byte) : (s.putCodeWord a w).out = s.out := rfl
@[simp] theorem State.putCodeWord_mg (a : Nat) (w : List Byte) : (s.putCodeWord a w).mg = s.mg := rfl
@[simp] theorem State.putCodeWord_fresh (a : Nat) (w : List Byte) : (s.putCodeWord a w).fresh = s.fresh := rfl
@[simp] theorem State.putCodeWord_regs (a : Nat) (w : List Byte) : (s.putCodeWord a w).regs = s.regs := rfl
@[simp] theorem State.putCodeWord_staged (a : Nat) (w : List Byte) : (s.putCodeWord a w).staged = s.staged := rfl
@[simp] theorem State.putCodeWord_latched (a : Nat) (w : List Byte) : (s.putCodeWord a w).latched = s.latched := rfl
@[simp] theorem State.putCodeWord_log (a : Nat) (w : List Byte) : (s.putCodeWord a w).log = s.log := rfl
@[simp] theorem State.putCodeWord_tiles (a : Nat) (w : List Byte) : (s.putCodeWord a w).tiles = s.tiles := rfl
@[simp] theorem State.putCodeWord_found (a : Nat) (w : List Byte) : (s.putCodeWord a w).found = s.found := rfl
@[simp] theorem State.putCodeWord_res (a : Nat) (w : List Byte) : (s.putCodeWord a w).res = s.res := rfl
@[simp] theorem State.putCodeWord_arbs (a : Nat) (w : List Byte) : (s.putCodeWord a w).arbs = s.arbs := rfl
@[simp] theorem State.putCodeWord_refresh (a : Nat) (w : List Byte) : (s.putCodeWord a w).refresh = s.refresh := rfl
@[simp] theorem State.putCodeWord_engines (a : Nat) (w : List Byte) : (s.putCodeWord a w).engines = s.engines := rfl
@[simp] theorem State.putCodeWord_emclk (a : Nat) (w : List Byte) : (s.putCodeWord a w).emclk = s.emclk := rfl
@[simp] theorem State.putCodeWord_checkers (a : Nat) (w : List Byte) : (s.putCodeWord a w).checkers = s.checkers := rfl
@[simp] theorem State.putCodeWord_cache (a : Nat) (w : List Byte) : (s.putCodeWord a w).cache = updateLines s.cache a w := rfl
@[simp] theorem State.putCodeWord_cacheHits (a : Nat) (w : List Byte) : (s.putCodeWord a w).cacheHits = s.cacheHits := rfl
@[simp] theorem State.putCodeWord_links (a : Nat) (w : List Byte) : (s.putCodeWord a w).links = s.links := rfl
@[simp] theorem State.putCodeWord_net (a : Nat) (w : List Byte) : (s.putCodeWord a w).net = s.net := rfl
@[simp] theorem State.putCodeWord_moves (a : Nat) (w : List Byte) : (s.putCodeWord a w).moves = s.moves := rfl
@[simp] theorem State.putCodeWord_boot (a : Nat) (w : List Byte) : (s.putCodeWord a w).boot = s.boot := rfl
@[simp] theorem State.putCodeWord_red (a : Nat) (w : List Byte) : (s.putCodeWord a w).red = s.red := rfl
@[simp] theorem State.putCodeWord_ports (a : Nat) (w : List Byte) : (s.putCodeWord a w).ports = s.ports := rfl
@[simp] theorem State.putCodeWord_wins (a : Nat) (w : List Byte) : (s.putCodeWord a w).wins = s.wins := rfl
@[simp] theorem State.putCodeWord_bridge (a : Nat) (w : List Byte) : (s.putCodeWord a w).bridge = s.bridge := rfl
@[simp] theorem State.putCodeWord_dmas (a : Nat) (w : List Byte) : (s.putCodeWord a w).dmas = s.dmas := rfl
@[simp] theorem State.putCodeWord_softWait (a : Nat) (w : List Byte) : (s.putCodeWord a w).softWait = s.softWait := rfl
@[simp] theorem State.putCodeWord_thermal (a : Nat) (w : List Byte) : (s.putCodeWord a w).thermal = s.thermal := rfl
@[simp] theorem State.putCodeWord_flash (a : Nat) (w : List Byte) : (s.putCodeWord a w).flash = s.flash := rfl
@[simp] theorem State.putCodeWord_flashCmd (a : Nat) (w : List Byte) : (s.putCodeWord a w).flashCmd = s.flashCmd := rfl
@[simp] theorem State.putCodeWord_ident (a : Nat) (w : List Byte) : (s.putCodeWord a w).ident = s.ident := rfl
@[simp] theorem State.putCodeWord_board (a : Nat) (w : List Byte) : (s.putCodeWord a w).board = s.board := rfl
@[simp] theorem State.putCodeWord_ropes (a : Nat) (w : List Byte) : (s.putCodeWord a w).ropes = s.ropes := rfl
@[simp] theorem State.putCodeWord_kv (a : Nat) (w : List Byte) : (s.putCodeWord a w).kv = s.kv := rfl
@[simp] theorem State.putCodeWord_attn (a : Nat) (w : List Byte) : (s.putCodeWord a w).attn = s.attn := rfl

/-! ## `zeroRange` -/

@[simp] theorem State.zeroRange_pending (a n : Nat) : (s.zeroRange a n).pending = s.pending := rfl
@[simp] theorem State.zeroRange_out (a n : Nat) : (s.zeroRange a n).out = s.out := rfl
@[simp] theorem State.zeroRange_mg (a n : Nat) : (s.zeroRange a n).mg = s.mg := rfl
@[simp] theorem State.zeroRange_fresh (a n : Nat) : (s.zeroRange a n).fresh = s.fresh := rfl
@[simp] theorem State.zeroRange_regs (a n : Nat) : (s.zeroRange a n).regs = s.regs := rfl
@[simp] theorem State.zeroRange_staged (a n : Nat) : (s.zeroRange a n).staged = s.staged := rfl
@[simp] theorem State.zeroRange_latched (a n : Nat) : (s.zeroRange a n).latched = s.latched := rfl
@[simp] theorem State.zeroRange_log (a n : Nat) : (s.zeroRange a n).log = s.log := rfl
@[simp] theorem State.zeroRange_tiles (a n : Nat) : (s.zeroRange a n).tiles = s.tiles := rfl
@[simp] theorem State.zeroRange_found (a n : Nat) : (s.zeroRange a n).found = s.found := rfl
@[simp] theorem State.zeroRange_res (a n : Nat) : (s.zeroRange a n).res = s.res := rfl
@[simp] theorem State.zeroRange_arbs (a n : Nat) : (s.zeroRange a n).arbs = s.arbs := rfl
@[simp] theorem State.zeroRange_refresh (a n : Nat) : (s.zeroRange a n).refresh = s.refresh := rfl
@[simp] theorem State.zeroRange_engines (a n : Nat) : (s.zeroRange a n).engines = s.engines := rfl
@[simp] theorem State.zeroRange_emclk (a n : Nat) : (s.zeroRange a n).emclk = s.emclk := rfl
@[simp] theorem State.zeroRange_checkers (a n : Nat) : (s.zeroRange a n).checkers = s.checkers := rfl
@[simp] theorem State.zeroRange_cache (a n : Nat) : (s.zeroRange a n).cache = zeroLines s.cache a n := rfl
@[simp] theorem State.zeroRange_cacheHits (a n : Nat) : (s.zeroRange a n).cacheHits = s.cacheHits := rfl
@[simp] theorem State.zeroRange_links (a n : Nat) : (s.zeroRange a n).links = s.links := rfl
@[simp] theorem State.zeroRange_net (a n : Nat) : (s.zeroRange a n).net = s.net := rfl
@[simp] theorem State.zeroRange_moves (a n : Nat) : (s.zeroRange a n).moves = s.moves := rfl
@[simp] theorem State.zeroRange_boot (a n : Nat) : (s.zeroRange a n).boot = s.boot := rfl
@[simp] theorem State.zeroRange_red (a n : Nat) : (s.zeroRange a n).red = s.red := rfl
@[simp] theorem State.zeroRange_ports (a n : Nat) : (s.zeroRange a n).ports = s.ports := rfl
@[simp] theorem State.zeroRange_wins (a n : Nat) : (s.zeroRange a n).wins = s.wins := rfl
@[simp] theorem State.zeroRange_bridge (a n : Nat) : (s.zeroRange a n).bridge = s.bridge := rfl
@[simp] theorem State.zeroRange_dmas (a n : Nat) : (s.zeroRange a n).dmas = s.dmas := rfl
@[simp] theorem State.zeroRange_softWait (a n : Nat) : (s.zeroRange a n).softWait = s.softWait := rfl
@[simp] theorem State.zeroRange_thermal (a n : Nat) : (s.zeroRange a n).thermal = s.thermal := rfl
@[simp] theorem State.zeroRange_flash (a n : Nat) : (s.zeroRange a n).flash = s.flash := rfl
@[simp] theorem State.zeroRange_flashCmd (a n : Nat) : (s.zeroRange a n).flashCmd = s.flashCmd := rfl
@[simp] theorem State.zeroRange_ident (a n : Nat) : (s.zeroRange a n).ident = s.ident := rfl
@[simp] theorem State.zeroRange_board (a n : Nat) : (s.zeroRange a n).board = s.board := rfl
@[simp] theorem State.zeroRange_ropes (a n : Nat) : (s.zeroRange a n).ropes = s.ropes := rfl
@[simp] theorem State.zeroRange_kv (a n : Nat) : (s.zeroRange a n).kv = s.kv := rfl
@[simp] theorem State.zeroRange_attn (a n : Nat) : (s.zeroRange a n).attn = s.attn := rfl

/-! ## Register fields -/

/-- A field read back: the value stored, cut to its width. -/
@[simp] theorem State.get_put_self (p : PageRef) (f : Field) (v : Nat) :
    (s.put p f v).get p f = v % 2 ^ (f.hi + 1 - f.lo) := by
  simp [State.get, State.put]

/-- A field with another key is left. -/
theorem State.get_put_ne (p q : PageRef) (f g : Field) (v : Nat) (h : fieldKey q g ≠ fieldKey p f) :
    (s.put p f v).get q g = s.get q g := by
  exact mapGet_mapSet_ne _ _ _ _ _ _ h

/-- A field read back that fits its width. -/
theorem State.get_put_of_lt (p : PageRef) (f : Field) (v : Nat) (h : v < 2 ^ (f.hi + 1 - f.lo)) :
    (s.put p f v).get p f = v := by
  rw [State.get_put_self, Nat.mod_eq_of_lt h]

/-- A field reads by the stored registers alone. -/
theorem State.get_congr {s t : State} (h : s.regs = t.regs) (p : PageRef) (f : Field) : s.get p f = t.get p f := by
  simp [State.get, h]

@[simp] theorem State.get_setTile (t : Nat) (u : Tile) (q : PageRef) (g : Field) : (s.setTile t u).get q g = s.get q g := rfl
@[simp] theorem State.get_setRes (i : Nat) (x : Res) (q : PageRef) (g : Field) : (s.setRes i x).get q g = s.get q g := rfl
@[simp] theorem State.get_setArb (a : Nat) (x : Arb) (q : PageRef) (g : Field) : (s.setArb a x).get q g = s.get q g := rfl
@[simp] theorem State.get_setRefr (i m : Nat) (x : Refresh) (q : PageRef) (g : Field) : (s.setRefr i m x).get q g = s.get q g := rfl
@[simp] theorem State.get_setLink (i : Nat) (x : Link) (q : PageRef) (g : Field) : (s.setLink i x).get q g = s.get q g := rfl
@[simp] theorem State.get_setPort (i : Nat) (x : Port) (q : PageRef) (g : Field) : (s.setPort i x).get q g = s.get q g := rfl
@[simp] theorem State.get_setWin (w : Nat) (x : Win) (q : PageRef) (g : Field) : (s.setWin w x).get q g = s.get q g := rfl
@[simp] theorem State.get_setRope (r : Nat) (x : Rope) (q : PageRef) (g : Field) : (s.setRope r x).get q g = s.get q g := rfl
@[simp] theorem State.get_emit (m : OutMsg) (q : PageRef) (g : Field) : (s.emit m).get q g = s.get q g := rfl
@[simp] theorem State.get_putCodeWord (a : Nat) (w : List Byte) (q : PageRef) (g : Field) : (s.putCodeWord a w).get q g = s.get q g := rfl
@[simp] theorem State.get_zeroRange (a n : Nat) (q : PageRef) (g : Field) : (s.zeroRange a n).get q g = s.get q g := rfl

/-! ## The maps behind the registers -/

@[simp] theorem State.tile_setTile_self (t : Nat) (x : Tile) : (s.setTile t x).tile t = x := by
  exact mapGet_mapSet_self _ _ _ _

theorem State.tile_setTile_ne (t j : Nat) (x : Tile) (h : j ≠ t) : (s.setTile t x).tile j = s.tile j := by
  exact mapGet_mapSet_ne _ _ _ _ _ _ h

@[simp] theorem State.resAt_setRes_self (i : Nat) (x : Res) : (s.setRes i x).resAt i = x := by
  exact mapGet_mapSet_self _ _ _ _

theorem State.resAt_setRes_ne (i j : Nat) (x : Res) (h : j ≠ i) : (s.setRes i x).resAt j = s.resAt j := by
  exact mapGet_mapSet_ne _ _ _ _ _ _ h

@[simp] theorem State.arb_setArb_self (a : Nat) (x : Arb) : (s.setArb a x).arb a = x := by
  exact mapGet_mapSet_self _ _ _ _

theorem State.arb_setArb_ne (a j : Nat) (x : Arb) (h : j ≠ a) : (s.setArb a x).arb j = s.arb j := by
  exact mapGet_mapSet_ne _ _ _ _ _ _ h

theorem State.engine_setEngineQ_self (e : Nat) (x : List RowCmd) :
    (s.setEngineQ e x).engine e = { s.engine e with queue := x } := by
  exact mapGet_mapSet_self _ _ _ _

theorem State.engine_setEngineQ_ne (e j : Nat) (x : List RowCmd) (h : j ≠ e) : (s.setEngineQ e x).engine j = s.engine j := by
  exact mapGet_mapSet_ne _ _ _ _ _ _ h

@[simp] theorem State.engineQ_setEngineQ_self (e : Nat) (x : List RowCmd) : (s.setEngineQ e x).engineQ e = x := by
  rw [State.engineQ, State.engine_setEngineQ_self]

theorem State.engineQ_setEngineQ_ne (e j : Nat) (x : List RowCmd) (h : j ≠ e) : (s.setEngineQ e x).engineQ j = s.engineQ j := by
  rw [State.engineQ, State.engine_setEngineQ_ne _ _ _ _ h, State.engineQ]

@[simp] theorem State.engine_setReady_self (e n : Nat) : (s.setReady e n).engine e = { s.engine e with ready := n } := by
  exact mapGet_mapSet_self _ _ _ _

theorem State.engine_setReady_ne (e j n : Nat) (h : j ≠ e) : (s.setReady e n).engine j = s.engine j := by
  exact mapGet_mapSet_ne _ _ _ _ _ _ h

@[simp] theorem State.link_setLink_self (i : Nat) (x : Link) : (s.setLink i x).link i = x := by
  exact mapGet_mapSet_self _ _ _ _

theorem State.link_setLink_ne (i j : Nat) (x : Link) (h : j ≠ i) : (s.setLink i x).link j = s.link j := by
  exact mapGet_mapSet_ne _ _ _ _ _ _ h

@[simp] theorem State.port_setPort_self (i : Nat) (x : Port) : (s.setPort i x).port i = x := by
  exact mapGet_mapSet_self _ _ _ _

theorem State.port_setPort_ne (i j : Nat) (x : Port) (h : j ≠ i) : (s.setPort i x).port j = s.port j := by
  exact mapGet_mapSet_ne _ _ _ _ _ _ h

@[simp] theorem State.win_setWin_self (w : Nat) (x : Win) : (s.setWin w x).win w = x := by
  exact mapGet_mapSet_self _ _ _ _

theorem State.win_setWin_ne (w j : Nat) (x : Win) (h : j ≠ w) : (s.setWin w x).win j = s.win j := by
  exact mapGet_mapSet_ne _ _ _ _ _ _ h

@[simp] theorem State.dma_setDma_self (d : Nat) (x : Dma) : (s.setDma d x).dma d = x := by
  exact mapGet_mapSet_self _ _ _ _

theorem State.dma_setDma_ne (d j : Nat) (x : Dma) (h : j ≠ d) : (s.setDma d x).dma j = s.dma j := by
  exact mapGet_mapSet_ne _ _ _ _ _ _ h

@[simp] theorem State.rope_setRope_self (r : Nat) (x : Rope) : (s.setRope r x).rope r = x := by
  exact mapGet_mapSet_self _ _ _ _

theorem State.rope_setRope_ne (r j : Nat) (x : Rope) (h : j ≠ r) : (s.setRope r x).rope j = s.rope j := by
  exact mapGet_mapSet_ne _ _ _ _ _ _ h

@[simp] theorem State.tile_put (p : PageRef) (f : Field) (v j : Nat) : (s.put p f v).tile j = s.tile j := rfl
@[simp] theorem State.resAt_put (p : PageRef) (f : Field) (v j : Nat) : (s.put p f v).resAt j = s.resAt j := rfl
@[simp] theorem State.arb_put (p : PageRef) (f : Field) (v j : Nat) : (s.put p f v).arb j = s.arb j := rfl
@[simp] theorem State.engineQ_put (p : PageRef) (f : Field) (v j : Nat) : (s.put p f v).engineQ j = s.engineQ j := rfl
@[simp] theorem State.link_put (p : PageRef) (f : Field) (v j : Nat) : (s.put p f v).link j = s.link j := rfl
@[simp] theorem State.port_put (p : PageRef) (f : Field) (v j : Nat) : (s.put p f v).port j = s.port j := rfl
@[simp] theorem State.win_put (p : PageRef) (f : Field) (v j : Nat) : (s.put p f v).win j = s.win j := rfl
@[simp] theorem State.dma_put (p : PageRef) (f : Field) (v j : Nat) : (s.put p f v).dma j = s.dma j := rfl
@[simp] theorem State.rope_put (p : PageRef) (f : Field) (v j : Nat) : (s.put p f v).rope j = s.rope j := rfl

/-- A tile changed by a function. -/
@[simp] theorem State.tile_modTile_self (t : Nat) (f : Tile → Tile) : (s.modTile t f).tile t = f (s.tile t) := by
  simp [State.modTile]

theorem State.tile_modTile_ne (t j : Nat) (f : Tile → Tile) (h : j ≠ t) : (s.modTile t f).tile j = s.tile j := by
  simp [State.modTile, State.tile_setTile_ne, h]

@[simp] theorem State.get_modTile (t : Nat) (f : Tile → Tile) (q : PageRef) (g : Field) : (s.modTile t f).get q g = s.get q g := rfl

/-- A change of a tile touches nothing but the tiles. -/
theorem State.modTile_frame (t : Nat) (f : Tile → Tile) : s.modTile t f = { s with tiles := (s.modTile t f).tiles } := rfl

/-- A write of a field touches nothing but the stored registers. -/
theorem State.put_frame (p : PageRef) (f : Field) (v : Nat) : s.put p f v = { s with regs := (s.put p f v).regs } := rfl

end Sys2Proof.Machine
end

