-- ==== Sys2Proof/Tests/Slice0.lean ====
section
/-! SUPPORT. Tests. First the shapes that the wires cannot carry, each refused by its check; then commands with results
worked out from the manual; then, for each statement with hypotheses, states and operands that meet them
(`witness_<Statement>`). -/

namespace Sys2Proof.Tests

set_option Elab.async false

open Sys2Proof Sys2Proof.Machine Sys2Proof.Say

/-! ## Small states -/

/-- A part at READY with one tile in service on die 0: physical position 0 of that die is logical tile 0. -/
def ready : State :=
  { ((((((State.reset.put pgBoot BOOT_STAT.READY 1).put pgBoot BOOT_STAT.STEP 9).put (pgTmap 0) (TMAP_PHYS.STATE.at 0) 0).put
      (pgTmap 0) (TMAP_PHYS.LOGICAL.at 0) 0).put (pgTmap 0) (TMAP_LOG.VALID.at 0) 1).put (pgTmap 0) TMAP_SUMMARY.ENABLED
      1) with
    found := { clocked := 1, seams := 0, dies := 1, stackBits := 1 }
    boot := { Boot.init with fw := fwMain } }

/-- That part with tile 0 running. -/
def running : State := ready.put (pgTile 0) TILE_STAT.RUN 1

/-- The running tile 0 with these contents. -/
def runs (u : Tile) : State := running.setTile 0 u

/-- A vector operation V1 with operands V2 and V3. -/
def vop : VecOp := { vd := 1, va := 2, vb := 3, vc := 0, men := false, msk := 0, xb := false, sat := false }

/-- In empty memory no sector holds an error. -/
theorem clean_of_empty {s : State} (h : s.mem = []) (a n : Nat) : Clean s a n := by
  intro x _
  have e : ∀ k, memRead [] k 36 = List.replicate 36 0 := by intro k; rfl
  have d : (decodeSector (List.replicate 36 0)).1 = .good := by decide +kernel
  rw [State.sector, State.codeWordAt, h, e, d]

/-! ## Ill-formed terms -/

/-- A command that its check refuses, and that stops by name. -/
def refusedShape (c : Instr) : Bool :=
  !c.wellFormed && match exec c State.reset with
    | .fault .illFormed => true
    | _ => false

/-- A flit has 37 bytes, a packet a head, at most 1,024 data flits of its class, and a tail (07 R197). -/
theorem test_short_flit_head : refusedShape (.flitHeadRoute ⟨.base 0 0, 0⟩ [] []) = true := by decide +kernel
theorem test_short_flit_body :
    refusedShape (.flitHeadRoute ⟨.base 0 0, 0⟩ (List.replicate 37 0) [List.replicate 35 0 ++ [2]]) = true := by decide +kernel
theorem test_packet_without_tail :
    refusedShape (.flitHeadRoute ⟨.base 0 0, 0⟩ (List.replicate 37 0) [List.replicate 36 0 ++ [1]]) = true := by decide +kernel
theorem test_packet_of_two_classes :
    refusedShape (.flitHeadRoute ⟨.base 0 0, 0⟩ (List.replicate 37 0) [List.replicate 36 0 ++ [6]]) = true := by decide +kernel
/-- A die-to-die frame has 42 bytes (07 R205). -/
theorem test_short_d2d_frame : refusedShape (.d2dFrameReceive (.drop 0 0 0) ⟨0, List.replicate 41 0⟩) = true := by
  decide +kernel
/-- A Jodar Link frame has 156 bytes (11 R318). -/
theorem test_short_jodar_frame : refusedShape (.fabricFrameReceive (.host 0) (List.replicate 155 0) ⟨false, 0, 0⟩) = true := by
  decide +kernel
/-- The code words of a fabric packet have 36 bytes (11 R336). -/
theorem test_short_packet_head : refusedShape (.fabricPacketReceive 0 (List.replicate 35 0) []) = true := by
  decide +kernel
theorem test_short_packet_body : refusedShape (.fabricPacketReceive 0 (List.replicate 36 0) [[]]) = true := by
  decide +kernel
/-- A host write carries code words of 36 bytes (12 R346). -/
theorem test_short_host_data :
    refusedShape (.hostMemoryWrite 0 ⟨2, 0, 0, 0, 0, 0, 32, 0, 0, 0⟩ [List.replicate 32 0]) = true := by decide +kernel
/-- So does a host's completion (12 R346, R348). -/
theorem test_short_completion :
    refusedShape (.hostCompletionReceive 0 ⟨⟨0x11, 0, 0, 0, 0, 0, 32, 0, 0, 0⟩, [List.replicate 37 0]⟩) = true := by decide +kernel
/-- And so do the answers that come with a descriptor (12 R346). -/
theorem test_short_answer :
    refusedShape (.dmaDescriptor 0 [⟨⟨0x11, 0, 0, 0, 0, 0, 32, 0, 0, 0⟩, [List.replicate 37 0]⟩]) = true := by decide +kernel
/-- A chunk of the tile image has 128 flits of 37 bytes (16 R435). -/
theorem test_short_chunk : refusedShape (.bootChunkReceive 0 0 [] 0) = true := by decide +kernel
theorem test_short_chunk_flit :
    refusedShape (.bootChunkReceive 0 0 (List.replicate 128 (List.replicate 36 0)) 0) = true := by decide +kernel

/-! ## The manual's worked examples -/

/-- 02, *Worked decodes*: the start of stack 5, scratchpad region 7 of B2, an address that names nothing. -/
theorem test_worked_addresses :
    targetOf 0x00A000000000 = .edge 5 0 ∧ targetOf 0x018047000000 = .summit 2 7 0 ∧ targetOf 0x015000000000 = .reserved ∧
    targetOf 0x011AB8000000 = .near 570 0 ∧ targetOf 0x01C047400000 = .sram 570 0 := by decide +kernel

/-- 02, *Worked decodes*: the pages of fabric port F7, of DMA channel 5 and of the tile at C4, position 60. -/
theorem test_worked_pages :
    pageOf 0x01F000881010 = pgFprt 7 ∧ pageOf 0x01F000145000 = pgDma 5 ∧ pageOf 0x01F00523C000 = pgTile 636 ∧
    pageOf 0x01F005000000 = pgCdie 4 ∧ pageOf 0x01F005001000 = pgTmap 4 := by decide +kernel

/-- 02, *Worked decodes*: what `PAGE_ID` of the first and the last of them reads. -/
theorem test_worked_page_ids :
    (ready.readReg 0 (pgDma 5) 0).2 = 0x00420005 ∧ (ready.readReg 0 (pgTile 636) 0).2 = 0x0104027C ∧
    (ready.readReg 0 (pgCdie 4) 0).2 = 0x01000004 := by decide +kernel

/-- 06, *Worked decode*: channel, bank, row, bank set and resource ID of an edge address. -/
theorem test_worked_edge_decode :
    edgePseudo 0x3456789C0 = 0 ∧ edgeChannel 0x3456789C0 = 17 ∧ edgeBank 0x3456789C0 = 39 ∧ edgeRow 0x3456789C0 = 3349 ∧
    bankSet 39 = 13 ∧ bankSet 40 = 8 ∧ emchId 5 17 = 0x02110031 := by decide +kernel

/-- 03 R68: a value midway below the smallest normal rounds to it; the next one down is written as zero. -/
theorem test_round_to_normal :
    round32 150 false (2 ^ 24 - 1) = (0x00800000, false) ∧ round32 150 false (2 ^ 24 - 4) = (0, false) ∧
    round32 150 false (-(2 ^ 24 - 4)) = (0x80000000, false) := by decide +kernel

/-- The reference layout of 08: 72 layers, 8 heads, 4 to a page, MXFP4, twelve dies. -/
def d77 : Lay := { layers := 72, heads := 8, hpg := 4, fp4 := true, dies := 0xFFF }

/-- 08, *Example: finding one position*: pairs, die, rows and the offsets of head 2 at slot 63; the handle of the frame. -/
theorem test_worked_position :
    d77.groups = 2 ∧ d77.pairs = 144 ∧ d77.rows = 17 ∧ d77.dieOf 75 = 3 ∧ d77.keyAt 2 63 = 12224 ∧ d77.valueAt 2 63 = 28608 ∧
    d77.scaleAt 63 = 34784 ∧ nearHandle 425 1000 = 0x9A9003E8 ∧ digit 624 2 = 2 ∧ digit 624 1 = 112 := by decide +kernel

/-- 10, *Example: six candidates across a block boundary*: the accepted path. -/
theorem test_worked_draft :
    ({ token := [501, 77, 88, 12, 40, 9], pred := [88, 12, 40, 6, 9, 300], tree := [0xFF, 0, 0, 1, 2, 4] } : Draft).path 501 6
      = [0, 2, 4, 5] := by decide +kernel

/-- FIPS 202 and RFC 3720: the first bytes of SHAKE256 of no message, the CRC-32C of the digits 1 to 9. -/
theorem test_shake_of_nothing : (shake256 []).take 4 = [0x46, 0xB9, 0xDD, 0x2B] := by decide +kernel
theorem test_crc32c_check : crc32c ((List.range 9).map (fun i => BitVec.ofNat 8 (0x31 + i))) = 0xE3069283 := by decide +kernel

/-! ## Witnesses: the block, sectors, the vector slot -/

theorem witness_StepRunsTheFrontCommand :
    ({ State.reset with pending := [.flowTachPulse] } : State).pending = .flowTachPulse :: [] ∧ State.reset.pending = [] :=
  by decide

theorem witness_EveryStepKeepsStoresCanonical :
    StoresCanonical State.reset ∧ step State.reset = .next State.reset.idleTick := ⟨by unfold StoresCanonical; decide, rfl⟩

theorem witness_CommandsLeaveTheQueue :
    exec (.jtagBypass) State.reset = .next { State.reset with board := { State.reset.board with tap := 1 } } := rfl

theorem witness_WellFormedCommandsComplete :
    Instr.wellFormed .clkSnap = true ∧ (Instr.d2dFrameReceive (.drop 0 0 0) ⟨0, []⟩).wellFormed = false := by decide

theorem witness_StoredSectorReadsBack : (List.replicate 32 0xA5#8).length = 32 ∧ 31 / 32 ≠ 32 / 32 := by decide

/-- The first and the last symbol of a sector, and two and three wrong symbols. -/
theorem witness_SymbolErrorsInSectors :
    let d := List.replicate 32 0x5A#8
    let two := ((codeWord d).set 0 0).set 35 0
    let three := two.set 1 0
    d.length = 32 ∧ (0 < 36 ∧ 35 < 36) ∧ (0xFF#8 ≠ 0) ∧ two.length = 36 ∧ three.length = 36 ∧
    (List.range 36).countP (fun i => two.getD i 0 != (codeWord d).getD i 0) = 2 ∧
    (List.range 36).countP (fun i => three.getD i 0 != (codeWord d).getD i 0) = 3 := by decide +kernel

theorem witness_LaneOperationsWriteActiveLanes :
    (∀ e ∈ laneForms (running.tile 0) 0 vop, vop.sat = false ∨ e.1 = .vcvtInt32 0 vop) ∧ running.issues 0 = true ∧
    (vecValue 0x7F800001).isNaN = true ∧ (vecValue 0xFFFFFFFF).isNaN = true := by decide +kernel

theorem witness_ComparisonsReductionsAndCopies :
    running.issues 0 = true ∧ vop.sat = false ∧ (running.tile 0).flight.all (fun f => f.q != vop.va.toNat) = true ∧
    (running.tile 0).flight.all (fun f => f.q != vop.vd.toNat) = true := by decide +kernel

/-- Both directions of `VCVT` and `VQMX`, with the first and last code of the scaled formats. -/
theorem witness_ConversionsPackTheirElements :
    let to32 : VecOp := { vop with vc := 0xB }
    let from32 : VecOp := { vop with vc := 0x1B }
    running.issues 0 = true ∧ vcvtFormat (to32.vc.toNat % 16) = true ∧ to32.vc.toNat < 16 ∧
    vcvtFormat (from32.vc.toNat % 16) = true ∧ 16 ≤ from32.vc.toNat ∧ fmtScaled 4 = true ∧ fmtScaled 9 = true ∧
    vop.sat = false := by decide +kernel

/-- Each reserved form; `TKINS` of 0 and of 65 lanes. -/
theorem witness_ReservedVectorFormsTrap :
    let s := runs { Tile.init with x := [(5, 65)] }
    s.issues 0 = true ∧ (s.tile 0).intrap = false ∧ { vop with sat := true }.sat = true ∧
    { vop with men := true }.men = true ∧ vcvtFormat (0x4 % 16) = false ∧ fmtScaled (0xA % 16) = false ∧
    ((s.tile 0).xr 0).toNat = 0 ∧ 64 < ((s.tile 0).xr 5).toNat := by decide +kernel

/-- A tile whose top-k list holds two entries in order. -/
theorem witness_OffersKeepTheBest64 :
    ListOrdered { Tile.init with tk := [⟨1, 0⟩, ⟨2, 1⟩] } := by
  refine ⟨by decide, ?_, by decide +kernel⟩
  decide +kernel

/-- One lane and 64 lanes of `TKINS`; images at the lowest and the highest place of SRAM. -/
theorem witness_TopKListsAreKeptAndMoved :
    let s := runs { Tile.init with x := [(4, 1), (5, 64), (6, 0x1FFE00)] }
    let u := s.tile 0
    let top := (u.xr 6).toNat
    (s.issues 0 = true ∧ vop.sat = false ∧ vop.men = false ∧ (1 ≤ (u.xr 4).toNat ∧ (u.xr 4).toNat ≤ 64) ∧
      (1 ≤ (u.xr 5).toNat ∧ (u.xr 5).toNat ≤ 64) ∧ (u.xr 0).toNat % 32 = 0 ∧ (u.xr 0).toNat + 512 ≤ top ∧ top % 32 = 0 ∧
      top + 512 ≤ sramSize) ∧ Clean s (s.sramAt 0 0) 512 ∧ Clean s (s.sramAt 0 top) 512 :=
  ⟨by decide +kernel, clean_of_empty rfl _ _, clean_of_empty rfl _ _⟩

/-! ## Witnesses: loads, stores, transfers -/

/-- A load and a store of V1 at the address in x2. -/
def lop : LsOp := { a := 1, b := 2, n := 0, imm := 0 }

/-- The last place for a vector in SRAM; a poisoned sector under a load, with a rope to taint and without one. -/
theorem witness_VectorLoadsAndStores :
    let s := runs { Tile.init with x := [(2, 0x1FFF00)] }
    let a := (s.tile 0).sramAddr lop.b lop.imm
    let bad := s.poisonSector (s.sramAt 0 a + 224)
    let badR := (runs { Tile.init with x := [(2, 0x1FFF00)], trope := 0x80000FFF }).poisonSector (s.sramAt 0 a + 224)
    s.issues 0 = true ∧ a % 32 = 0 ∧ a + 256 = sramSize ∧ Clean s (s.sramAt 0 a) 256 ∧
    bad.issues 0 = true ∧ (bad.tile 0).intrap = false ∧ (bad.sector (bad.sramAt 0 a + 32 * 7)).1.damaged = true ∧
    bit (bad.tile 0).trope.toNat 31 = false ∧
    badR.issues 0 = true ∧ (badR.tile 0).intrap = false ∧ (badR.sector (badR.sramAt 0 a + 32 * 7)).1.damaged = true ∧
    bit (badR.tile 0).trope.toNat 31 = true := by unfold Clean; decide +kernel

/-- Calendars in which logical tile 0 owns slots: of its drop, of its own slice's first bank group, and of the row engine
that lies there, whose bank group also gives a row engine 48 slots. -/
def slotted : State :=
  { running with res := [(nmbgId 0 0 0, { Res.init with cal := [(0, 16), (ownROWE, 48)] }),
      (nmbgId 0 0 1, { Res.init with cal := [(0, 16), (ownROWE, 48)] }),
      (nrowId 0 0 0, { Res.init with cal := [(0, 1)] }), (injId 0 0, { Res.init with cal := [(0, 1)] })] }

/-- The command bytes of a FILL with zeros of the first row of slice 0. -/
def fillBytes : List Byte := [0x12] ++ List.replicate 7 0 ++ leBytes 8 (nearBase 0) ++ List.replicate 16 0

/-- Operands of each kind of transfer: its own slice, a package address on the die and off it, a message to a tile and to
a group number, a row command; and a tile with sixteen transfers. -/
theorem witness_TransfersAndRowCommandsStart :
    let x : List (Nat × Word) := [(4, BitVec.ofNat 32 (nearBase 0)), (5, BitVec.ofNat 32 (nearBase 0 / 2 ^ 32)), (6, 0),
      (7, 32), (8, 0xE0000000)]
    let s := (slotted.putSector (slotted.sramAt 0 0) fillBytes).setTile 0 { Tile.init with x := x }
    let u := s.tile 0
    let own : LsOp := { lop with a := 6, b := 6 }
    let pkg : LsOp := { lop with a := 6, b := 4 }
    let cmd := (List.range 32).map (fun j => s.dataByte (s.sramAt 0 0 + j))
    let full : Xfer := newXfer .nsnd 0 0 1 0 [] true 2 0 0
    let busy := s.setTile 0 { u with xfers := List.replicate 16 full }
    s.issues 0 = true ∧ u.live.length < 16 ∧ u.sramAddr own.a own.imm % 32 = 0 ∧ u.sramAddr own.a own.imm + 32 ≤ sramSize ∧
    (u.xr own.b.toNat).toNat % 32 = 0 ∧ (u.xr own.b.toNat).toNat + 32 ≤ sliceSize ∧
    s.pkgStatus 0 (nearBase (s.logical 0) + (u.xr own.b.toNat).toNat) 32 ≠ stDestDown ∧
    pkg.b.toNat % 2 = 0 ∧ u.pkgAddr pkg.b = nearBase 0 ∧ s.pkgStatus 0 (u.pkgAddr pkg.b) 32 = stOk ∧
    offDie 0 (u.pkgAddr pkg.b) = false ∧ offDie 0 (nearBase 128) = true ∧
    (u.xr 7).toNat % 2 ^ 21 = 32 ∧ s.nsndStatus 0 (u.xr 7).toNat 1 = stOk ∧ 0x600 ≤ (u.xr 8).toNat / 2 ^ 21 ∧
    s.nsndStatus 0 (u.xr 8).toNat 1 = stNoTarget ∧
    Clean s (s.sramAt 0 0) 32 ∧ s.rowStatus cmd (some (u.pkgAddr pkg.b)) = stOk ∧
    (s.portOf (u.pkgAddr pkg.b)).any (fun p => s.ownsSlot 0 p) = true ∧ mayInject s 0 0 = true ∧
    busy.issues 0 = true ∧ 16 ≤ (busy.tile 0).live.length ∧ (busy.tile 0).lsTrap lopNMRD own = none ∧
    (busy.tile 0).lsTrap lopXRD pkg = none ∧ (busy.tile 0).lsTrap lopROWC pkg = none := by
  unfold Clean; decide +kernel

/-- A transfer with nothing left and one with something left; a fence that goes on, one that waits, one that meets a
failure, and its release. -/
theorem witness_TransfersCompleteAndFencesWait :
    let x : Xfer := newXfer .nmrd 0 0 1 0 [] false 0 0 0
    let y : Xfer := newXfer .nsnd 0 0 1 0 [] true 2 0 1
    let u : Tile := { Tile.init with xfers := [x, y] }
    let s := runs u
    let bad := runs { Tile.init with fault := true }
    let waits := runs { Tile.init with fenceWait := some 0 }
    let failed := runs { Tile.init with fenceWait := some 0, fault := true }
    (s.tile 0).nth 0 = some x ∧ (x.waits || x.inject != 0 || !x.todo.isEmpty) = false ∧ (s.tile 0).nth 1 = some y ∧
    (y.waits || y.inject != 0 || !y.todo.isEmpty) = true ∧ (y.sent.isNone || y.out.isSome) = true ∧ s.issues 0 = true ∧
    (s.tile 0).live.length ≤ 2 ∧ (s.tile 0).fault = false ∧ 1 < (s.tile 0).live.length ∧
    bad.issues 0 = true ∧ (bad.tile 0).live.length ≤ 0 ∧ (bad.tile 0).fault = true ∧ (bad.tile 0).intrap = false ∧
    (waits.tile 0).fenceWait = some 0 ∧ (waits.tile 0).live.length ≤ 0 ∧ (waits.tile 0).fault = false ∧
    (failed.tile 0).fenceWait = some 0 ∧ (failed.tile 0).live.length ≤ 0 ∧ (failed.tile 0).fault = true ∧ (failed.tile 0).intrap = false := by
  decide +kernel

/-! ## Witnesses: the array -/

def aop : ArrOp :=
  { q := 0, plane := 0, rs1 := 1, rs2 := 2, fn := 0, fmtx := 0, fmtw := 0, selx := false, selw := false, ow := true }

/-- INT8 operands and a scaled format at the last place of SRAM, with the ramp up; `ADIST` for each of its forms. -/
theorem witness_ArrayOperationsIssue :
    let s := ((runs { Tile.init with x := [(1, 0x1FFFC0), (2, 0x1FFFFC)] }).put (pgTile 0) TILE_ARR_STAT.STATE rampOn).put
      pgIdnt IDNT_FEATURES.FEAT (2 ^ featDist)
    let u := s.tile 0
    let mx : ArrOp := { aop with fmtx := 4, fmtw := 4 }
    let ham : ArrOp := { aop with fn := 2, fmtx := 0xC, fmtw := 0xC }
    s.issues 0 = true ∧ (u.xr 1).toNat % 64 = 0 ∧ (u.xr 1).toNat + 64 = sramSize ∧ Clean s (s.sramAt 0 (u.xr 1).toNat) 64 ∧
    s.arrState 0 = rampOn ∧ u.arrHeld aop .i = false ∧ amacIllegal aop = false ∧ fmtScaled aop.fmtx.toNat = false ∧
    amacIllegal mx = false ∧ fmtScaled mx.fmtx.toNat = true ∧ (u.xr 2).toNat % 4 = 0 ∧
    (u.xr 2).toNat + scaleBytes mx.fmtx.toNat ≤ sramSize ∧ Clean s (s.sramAt 0 (u.xr 2).toNat) (scaleBytes mx.fmtx.toNat) ∧
    (∀ fn ∈ [0, 1, 3, 4], s.adistIllegal { aop with fn := fn } = false) ∧ s.adistIllegal ham = false := by
  unfold Clean; decide +kernel

theorem witness_ArrayResultsAreWritten :
    let f : ArrFlight := { q := 0, cls := .i, comb := .addInt, ow := true, lanes := List.replicate 64 (.int 1) }
    ((runs { Tile.init with flight := [f] }).tile 0).flight = f :: [] ∧
    ((runs { Tile.init with flight := [f, f] }).tile 0).flight = f :: [f] := by decide +kernel

/-- Loads of a plane from SRAM and from the slice, with scales and without, and one that has ended; every state of the
ramp. -/
theorem witness_PlanesAreLoadedAndTheRampMoves :
    let s := runs { Tile.init with x := [(1, 0x1FF000), (2, 0x1FFF00), (3, 0xBFFF000)] }
    let u := s.tile 0
    let l : PlaneLoad :=
      { id := 0, plane := 1, src := false, sc := true, base := 0, scale := 0, todo := [], data := [(4351, 1)],
        damaged := false, rope := 0 }
    let f : ArrFlight := { q := 0, cls := .i, comb := .addInt, ow := true, lanes := [] }
    let ramp (st g : Nat) : State := ((s.put (pgTile 0) TILE_ARR_STAT.STATE st).put (pgTile 0) TILE_ARR_STAT.GROUPS g)
    s.issues 0 = true ∧ (u.xr 1).toNat % 4096 = 0 ∧ (u.xr 1).toNat + 4096 = sramSize ∧
    (u.xr 2).toNat % 256 = 0 ∧ (u.xr 2).toNat + 256 = sramSize ∧
    (u.xr 3).toNat % 4096 = 0 ∧ (u.xr 3).toNat + 4096 = sliceSize ∧ slotted.issues 0 = true ∧ slotted.holdsSlice 0 = true ∧
    [l].find? (fun m => m.plane == 1 && m.todo.isEmpty) = some l ∧ (∀ e ∈ l.data, e.1 < 4352) ∧
    (∀ st ∈ [rampOff, rampUp, rampOn, rampDown], (ramp st 7).arrState 0 = st ∧ (ramp st 7).issues 0 = true) ∧
    (ramp rampUp 7).arrGroups 0 < 8 ∧ 8 ≤ (ramp rampUp 8).arrGroups 0 ∧ 0 < (ramp rampDown 7).arrGroups 0 ∧
    (ramp rampDown 0).arrGroups 0 = 0 ∧ ((ramp rampOn 8).tile 0).flight = [] ∧
    (((ramp rampOn 8).setTile 0 { u with flight := [f] }).tile 0).flight ≠ [] ∧
    ((ramp rampOn 8).put (pgTile 0) TILE_ARR_CFG.IDLE 1).get (pgTile 0) TILE_ARR_CFG.IDLE ≠ 0 := by
  decide +kernel

theorem witness_PlanesAreLoadedAndTheRampMoves_clean :
    Clean running (running.sramAt 0 0x1FF000) 4096 ∧ Clean running (running.sramAt 0 0x1FFF00) 256 :=
  ⟨clean_of_empty rfl _ _, clean_of_empty rfl _ _⟩

/-! ## Witnesses: the control core -/

/-- Tile 0 with these words stored at SRAM address 0. -/
def stored (u : Tile) (ws : List Nat) : State :=
  let s := (running.setTile 0 u)
  s.putBytes (s.sramAt 0 0) (ws.flatMap (leBytes 4))

/-- Targets in bundle mode and one that is not a multiple of 16; instructions of each form in scalar mode: addi x1, x0, 5;
add x1, x2, x3; mul x1, x2, x3; lui x1, 1; beq x0, x0, 16; lw x1, 0(x2) at the last word; sw x1, 0(x4) to the scratch. -/
theorem witness_ModeSwitchesAndScalarInstructions :
    let x : List (Nat × Word) := [(2, 0x1FFFFC), (4, 0x200000), (5, 8)]
    let s := stored { Tile.init with x := x } [0x00500093]
    let u := s.tile 0
    let holds (w : Nat) : Prop :=
      let r := stored { Tile.init with x := x } [w]
      r.issues 0 = true ∧ (r.tile 0).bmode = false ∧ Clean r (r.sramAt 0 0) 4 ∧ dataNat r (r.sramAt 0 0) 4 = w
    u.pc + 4 ≤ sramSize ∧ (u.xr 0 + (16 : BitVec 12).signExtend 32).toNat % 16 = 0 ∧
    (u.xr 5 + (0 : BitVec 12).signExtend 32).toNat % 16 ≠ 0 ∧ u.intrap = false ∧ (u.csrGet csrMepc).toNat % 16 = 0 ∧
    (holds 0x00500093 ∧ 0x00500093 % 128 = 0x13 ∧ bits 0x00500093 14 12 ∉ [1, 5]) ∧
    (holds 0x003100B3 ∧ 0x003100B3 % 128 = 0x33 ∧ bits 0x003100B3 31 25 = 0) ∧
    (holds 0x023100B3 ∧ 0x023100B3 % 128 = 0x33 ∧ bits 0x023100B3 31 25 = 1) ∧ (holds 0x000010B7 ∧ 0x000010B7 % 128 = 0x37) ∧
    (holds 0x00000863 ∧ 0x00000863 % 128 = 0x63 ∧ branchTaken (bits 0x00000863 14 12) (u.xr 0) (u.xr 0) = some true) ∧
    (holds 0x00012083 ∧ 0x00012083 % 128 = 0x03 ∧ bits 0x00012083 14 12 = 2 ∧ (u.xr 2 + immI 0x00012083).toNat % 4 = 0 ∧
      (u.xr 2 + immI 0x00012083).toNat + 4 = sramSize ∧ Clean s (s.sramAt 0 (u.xr 2).toNat) 4) ∧
    (holds 0x00122023 ∧ 0x00122023 % 128 = 0x23 ∧ bits 0x00122023 14 12 = 2 ∧
      (u.xr 4 + immS 0x00122023).toNat = 0x200000) := by
  unfold Clean; decide +kernel

/-- A bundle of addi x1, x2, 5 and VADD V1, V2, x3, and one of a reserved vector operation; a tile that may start, one that
runs, one that has come to rest after a halt. -/
theorem witness_BundlesIssueAndTilesStart :
    let w := 0x00510093
    let v := 0x0422182E / 64 * 64 + 2
    let s := stored { Tile.init with bmode := true } [w, 0, 0, v]
    let bad := stored { Tile.init with bmode := true } [w, 0, 0, 0xFC000000]
    let base := s.sramAt 0 0
    let rest := runs { Tile.init with halting := true }
    s.issues 0 = true ∧ (s.tile 0).bmode = true ∧ (s.tile 0).pc = 0 ∧ 0 + 16 ≤ sramSize ∧ Clean s base 16 ∧
    dataNat s base 4 = w ∧ w % 128 = 0x13 ∧ bits w 14 12 = 0 ∧ dataNat s (base + 4) 4 = 0 ∧ dataNat s (base + 8) 4 = 0 ∧
    dataNat s (base + 12) 4 = v ∧ bits v 31 26 = 0x01 ∧ bit v 1 = true ∧ bit v 0 = false ∧ bit v 5 = false ∧
    Clean bad base 16 ∧ (bad.tile 0).intrap = false ∧ w = dataNat bad base 4 ∧ w % 4 = 3 ∧
    bundleTraps bad (bad.tile 0) (bad.ctl 0 (bad.tile 0) w 16 w) [lsOfWord (dataNat bad (base + 4) 4),
      arrOfWord (dataNat bad (base + 8) 4), vecOfWord (dataNat bad (base + 12) 4)] = [(causeIllegal, 0xFC000000)] ∧
    State.reset.get (pgTile 0) PAGE_PWR.STATE = 0 ∧ State.reset.tileRun 0 = 0 ∧ running.tileRun 0 = 1 ∧
    (rest.tile 0).halting = true ∧ (rest.tile 0).live = [] ∧ (rest.tile 0).flight = [] ∧ (rest.tile 0).loads = [] := by
  unfold Clean; decide +kernel

/-! ## Witnesses: register pages, errors, the log -/

/-- Every page of the clauses answers, on a tile, an arbiter and a port; a locked page; another requester. -/
theorem witness_RegistersAreWrittenAndReadInPairs :
    let locked := ready.put (pgTile 0) PAGE_CTRL.LOCK 1
    NothingWaits ready ∧ ready.pageStatus (pgTile 0) = stOk ∧ ready.blockHidden (pgTile 0) .tile 0 = false ∧
    ready.flag (pgTile 0) PAGE_CTRL.LOCK = false ∧ NothingWaits locked ∧ locked.pageStatus (pgTile 0) = stOk ∧
    locked.blockHidden (pgTile 0) .tile 0 = false ∧ locked.flag (pgTile 0) PAGE_CTRL.LOCK = true ∧
    ready.pageStatus (pgArb 4) = stOk ∧ ready.blockHidden (pgArb 4) .arb 4 = false ∧ Requester.h1 ≠ .h0 ∧
    mapGet 0 ready.staged (pairKey (pgArb 4) 0x080 (requesterNumber .h1)) = 0 ∧ ready.pageStatus (pgFprt 0) = stOk := by
  unfold NothingWaits OnlyTransfersWait; decide +kernel

theorem witness_PageLockAndErrorAcknowledge :
    ready.pageStatus (pgNmem 0 3) = stOk ∧ ready.flag (pgNmem 0 3) PAGE_CTRL.LOCK = false ∧
    (ready.put pgHbrg PAGE_CTRL.LOCK 1).pageStatus pgHbrg = stOk ∧
    (ready.put pgHbrg PAGE_CTRL.LOCK 1).flag pgHbrg PAGE_CTRL.LOCK = true := by decide +kernel

theorem witness_ErrorsAreCountedAndTheFirstCaptured :
    255 < 256 ∧ 65535 < 65536 ∧ ready.get pgHbrg PAGE_ERR_FIRST.VALID = 0 ∧
    (ready.put pgHbrg PAGE_ERR_FIRST.VALID 1).get pgHbrg PAGE_ERR_FIRST.VALID = 1 := by decide +kernel

/-- Records that wait for a die, with the ring at its last place; a tail that moves and one that would pass the head; the
management core that runs its image, and that restarts. -/
theorem witness_LogRecordsAndRestarts :
    let s : State := ((ready.put pgMgmt MGMT_LOG_HEAD.COUNT 65535).put pgMgmt MGMT_LOG_TAIL.COUNT 65280)
    let q := { s with log := { s.log with waiting := [(0x10, [List.replicate 8 0])] } }
    let ahead (x : Nat) : Nat := (x % 65536 + 65536 - 65280) % 65536
    let boots : State := { ready with boot := { ready.boot with fw := fwBoot } }
    let hurt (it : B0Item) (both : Bool) : State := { ready with boot := { ready.boot with damaged := [(it, both)] } }
    (∀ it ∈ [.ropes, .window 63, .bridge, .bringUp], ∀ b ∈ [false, true], (hurt it b).boot.damaged = [(it, b)] ∧
      (hurt it b).flag pgMgmt MGMT_RSTREQ.REQ = false) ∧
    q.pathDown 0x10 = false ∧ q.get pgMgmt MGMT_LOG_HEAD.COUNT = 65535 ∧ q.get pgMgmt MGMT_LOG_TAIL.COUNT = 65280 ∧
    (mapGet [] q.log.waiting 0x10).length + (65535 + 65536 - 65280) % 65536 = 256 ∧ ahead 65535 ≤ ahead 65535 ∧
    ahead 65535 < ahead 0 ∧ ready.boot.fw = fwMain ∧ ready.get pgBoot BOOT_STAT.STEP ≠ 8 ∧ boots.boot.fw = fwBoot ∧
    ready.flag pgMgmt MGMT_RSTREQ.REQ = false ∧
    ({ ready with boot := { ready.boot with fw := fwRestarting } } : State).boot.fw = fwRestarting := by decide +kernel

/-- A fence of each cause, and one that waits for a transfer. -/
theorem witness_TilesAreFenced :
    let due (n : Nat) : State := runs { Tile.init with fenceDue := n }
    let busy := runs { Tile.init with xfers := [newXfer .nsnd 0 0 1 0 [] true 2 0 0] }
    running.tmapState 0 = 0 ∧ (running.tile 0).live = [] ∧ (running.tile 0).loads = [] ∧ (due 1).tmapState 0 = 0 ∧
    ((due 1).tile 0).fenceDue = 1 ∧ (due 2).tmapState 0 = 0 ∧ ((due 2).tile 0).fenceDue = 2 ∧ busy.tmapState 0 = 0 ∧ (busy.tile 0).live ≠ [] := by
  decide +kernel

/-! ## Witnesses: calendars, refresh, edge channels, the summit -/

/-- A slot without an owner; slots of a tile with nothing queued, of a row engine's port and of its drop; a flit to send. -/
theorem witness_CalendarSlotsServeTheirOwner :
    let idle := { ready with res := [(nmbgId 0 0 0, { Res.init with cal := [(ownIDLE, 1)] })] }
    let x : Xfer := newXfer .nsnd 0 0 1 0 [] true 2 0 0
    let sends := slotted.setTile 0 { Tile.init with xfers := [x] }
    let on (s : State) (id : Nat) : Prop := id ∈ s.resourcesOf (arbOfSlot (resSlot id)) ∧ s.slotRuns id = true ∧
      resKind id ≠ kindEMCH
    (∀ s ∈ [idle, slotted, sends], s.boot.damaged = [] ∧ OnlyTransfersWait s) ∧ on idle (nmbgId 0 0 0) ∧ (idle.calOf (nmbgId 0 0 0)).owner 0 = ownIDLE ∧
    on slotted (injId 0 0) ∧ (slotted.calOf (injId 0 0)).owner 0 = 0 ∧ slotted.physOf 0 = some 0 ∧ 0 < 0x600 ∧
    resKind (injId 0 0) = kindINJ ∧ on slotted (nrowId 0 0 0) ∧ (slotted.calOf (nrowId 0 0 0)).owner 0 = 0 ∧
    resKind (nrowId 0 0 0) = kindNROW ∧ (slotted.tile 0).loads = [] ∧ (slotted.tile 0).xfers = [] ∧ on sends (injId 0 0) ∧ sends.injOf 0 = injId 0 0 ∧
    (sends.tile 0).xfers.find? (fun x => decide (0 < x.inject)) = some x := by
  unfold OnlyTransfersWait; decide +kernel

/-- The first and the last channel of a die, with no checker, whose slots pass: the lower ones have had theirs. -/
theorem witness_CalendarSlotsServeTheirOwner_edge :
    let idle : Res := { Res.init with cal := [(ownIDLE, 1945)] }
    let s : State := { ready with
      found := { clocked := 15, seams := 15, dies := 1, stackBits := 1 }
      res := [(emchId 6 0, idle)] }
    let late : State := { s with res := (emchId 7 31, idle) :: (List.range 63).map (fun i => (resIdOf 3 kindEMCH i, { Res.init with slots := 1 })) }
    (∀ i ∈ [emchId 6 0, emchId 7 31], i ∈ s.resourcesOf (arbOfSlot (resSlot i)) ∧ s.slotRuns i = true ∧
      resKind i = kindEMCH) ∧
    (s.boot.damaged = [] ∧ (s.calOf (emchId 6 0)).owner 0 = ownIDLE ∧ s.checking 6 0 = false ∧ resInst (emchId 6 0) = 0 ∧
      (s.resAt (emchId 6 0)).slots ≤ s.emclkOf (resSlot (emchId 6 0))) ∧
    (late.boot.damaged = [] ∧ late.slotRuns (emchId 7 31) = true ∧ (late.calOf (emchId 7 31)).owner 0 = ownIDLE ∧
      late.checking 7 31 = false ∧ (late.resAt (emchId 7 31)).slots ≤ late.emclkOf (resSlot (emchId 7 31)) ∧
      ∀ i < resInst (emchId 7 31), late.emclkOf (resSlot (emchId 7 31)) < (late.resAt (resIdOf 3 kindEMCH i)).slots) := by
  decide +kernel

/-- A holder that is served, a requester that backs off, and a contest. -/
theorem witness_TheArbiterFollowsItsSteps :
    let c : RowCmd := rowOfBytes fillBytes (.device 0)
    let id := nrowId 0 0 0
    let two : State := ready.setRes id { Res.init with openQ := [(0, c), (1, c)], backoff := [(1, 1)] }
    let held : State := ready.setRes id { two.resAt id with holder := some 0 }
    two.pendingAt id = [0, 1] ∧ (∀ i ∈ two.pendingAt id, i ∈ requesters) ∧ 0 < mapGet 0 (two.resAt id).backoff 1 ∧
    (two.resAt id).holder = none ∧ mapGet 0 (two.resAt id).backoff 0 = 0 ∧ (held.resAt id).holder = some 0 ∧
    0 ∈ held.pendingAt id ∧ mapGet 0 (held.resAt id).backoff 0 = 0 ∧ (∀ i ∈ held.pendingAt id, i ∈ requesters) ∧
    ready.pendingAt id = [] := by decide +kernel

/-- A calendar set of a header alone at the start of tile 0's SRAM. -/
def setImage (version : Nat) : State :=
  let s := ready.putBytes (sramBase 0) (leBytes 4 version ++ leBytes 4 7 ++ leBytes 4 0 ++ leBytes 4 32 ++ List.replicate 16 0)
  s.setArb 4 { Arb.init with loading := some (sramBase 0) }

/-- A set that loads, one of another version, one that cannot be read; a set to switch to and its last resource. -/
theorem witness_CalendarSetsAreLoadedAndSwitched :
    let s := setImage 1
    let bad := setImage 2
    let hole := ready.setArb 4 { Arb.init with loading := some 0x1FFFF0000000 }
    let c : Calendar := [(0, 1)]
    let id := injId 0 0
    let stagedS := ready.setArb 4 { Arb.init with staged := some (7, [(id, c)]) }
    let turning := stagedS.setRes id { Res.init with next := some c }
    (ready.flag (pgArb 4) ARB_CAL_STAT.BUSY = false ∧ (s.arb 4).loading = some (sramBase 0) ∧
      s.rangeStatus (sramBase 0) 32 = stOk ∧ sramBase 0 % 32 = 0) ∧
    (dataNat s (sramBase 0) 4 = 1 ∧ dataNat s (sramBase 0 + 8) 4 = 0 ∧ dataNat s (sramBase 0 + 12) 4 = 32 ∧
      dataNat s (sramBase 0 + 16) 16 = 0 ∧ dataNat bad (sramBase 0) 4 ≠ 1 ∧ dataNat bad (sramBase 0 + 8) 4 = 0) ∧
    Clean s (sramBase 0) 32 ∧ Clean bad (sramBase 0) 32 ∧
    ((hole.arb 4).loading = some 0x1FFFF0000000 ∧ hole.rangeStatus 0x1FFFF0000000 32 ≠ stOk ∧
      (stagedS.arb 4).staged = some (7, [(id, c)]) ∧ stagedS.flag (pgArb 4) ARB_CAL_STAT.BUSY = false ∧
      arbOfSlot (resSlot id) = 4 ∧ (turning.resAt id).next = some c ∧ (turning.resAt id).idx = 0 ∧ c ≠ [] ∧
      (turning.arb 4).switching.filter (· != id) = []) := by
  unfold Clean; decide +kernel

/-- That switch meets no runtime command, whether or not the new calendar has OPEN slots. -/
theorem witness_CalendarSetsAreLoadedAndSwitched_turning :
    let c : Calendar := [(0, 1)]
    let turning := ready.setRes (injId 0 0) { Res.init with next := some c }
    OnlyTransfersWait turning ∧ (turning.resAt (injId 0 0)).openQ = [] ∧ c.has ownOPEN = false ∧
    Calendar.has [(ownOPEN, 1)] ownOPEN = true := by unfold OnlyTransfersWait; decide +kernel

/-- A layer that is on, at a debt of 3 and below, and one that is not; a visit of bank set 0 of edge channel 0, where tile
0's oldest access waits for row 0 of bank 0. -/
theorem witness_RefreshAndBankVisits :
    let id := nmbgId 0 0 0
    let owing := ready.setRefr id 0 { Refresh.init with debt := 3 }
    let off := ready.setDom (.quarter 0 0 0) 1
    let x : Xfer := newXfer .xrd 0 0 1 0 [0] false 0 0 0
    let ch := emchId 0 0
    let s := { (running.setTile 0 { Tile.init with xfers := [x] }) with
      res := [(ch, { Res.init with cal := [(0, 1945)] })] }
    ready.quarterOn id 0 = true ∧ (ready.refr id 0).debt ≠ 3 ∧ owing.quarterOn id 0 = true ∧ (owing.refr id 0).debt = 3 ∧
    off.quarterOn id 0 = false ∧
    let q : EdgeEntry := { work := .xfer 0 x, a := 0, whole := true }
    (s.resAt ch).slots % 3 = 0 ∧ (s.resAt ch).visited ≠ (s.resAt ch).slots + 1 ∧ s.visitBlocked ch = false ∧
    s.slotClient ch = some (.tile 0) ∧
    (s.edgeQueue (.tile 0) ch).filter (fun e => bankSet (edgeBank (edgeOffset e.a)) == (s.resAt ch).slots / 3 % 16) = [q] ∧
    q.whole = true ∧ (s.resAt ch).rows = [] ∧ ready.slotClient ch = none := by decide +kernel

/-- A region that changes its mode, its stack alone or neither; a busy one; a checker to start, one that runs, one at its
count; the channels of a stack to enable. -/
theorem witness_SummitModesAndCheckers :
    let busy := ready.put (pgSumt 0) (SUMT_REG.BUSY.at 19) 1
    let init := (ready.put (pgEstk 0) ESTK_STAT.INIT 2).put (pgEmc 0) PAGE_CTRL.EN 0
    let on := (init.put (pgEmc 0) PAGE_CTRL.EN 1)
    let y : Checker := { next := 4, queue := [], prbs0 := 1, prbs1 := 1, stop := false }
    let x : Nat × Checker := (checkerKey 0 31, y)
    let entry (n off : Nat) : CheckEntry := { n := n, off := off, write := true, pat := List.replicate 32 0 }
    let moving (q : List CheckEntry) : Nat × Checker := (checkerKey 0 31, { y with queue := q })
    let with_ (e : Nat × Checker) : State := { (init.put (pgEchk 0 31) ECHK_COUNT.COUNT 4) with checkers := [e] }
    let tests := with_ x
    let whole := (List.range 8).map (fun i => entry 3 (32 * i))
    busy.get (pgSumt 0) (SUMT_REG.BUSY.at 19) = 1 ∧ ready.get (pgSumt 0) (SUMT_REG.BUSY.at 19) ≠ 1 ∧
    ready.get (pgSumt 0) (SUMT_REG.MODE.at 19) = 0 ∧ ready.get (pgSumt 0) (SUMT_REG.STACK.at 19) = 0 ∧
    (1 % 4 < 2 ∧ 1 % 4 ≠ 0) ∧ (4 % 4 = 0 ∧ 4 / 4 % 2 ≠ 0) ∧
    init.flag (pgEmc 0) PAGE_CTRL.EN = false ∧ init.checking 0 31 = false ∧ init.stackUsed 0 = true ∧
    on.flag (pgEmc 0) PAGE_CTRL.EN = true ∧ tests.checking 0 31 = true ∧
    tests.checkers.find? (fun e => e.1 == checkerKey 0 31) = some x ∧ tests.get (pgEchk 0 31) ECHK_COUNT.COUNT ≠ 0 ∧
    tests.get (pgEchk 0 31) ECHK_COUNT.COUNT ≤ y.next ∧
    (with_ (moving whole)).checkers.find? (fun e => e.1 == checkerKey 0 31) = some (moving whole) ∧
    (∀ e ∈ whole, ¬(whole.filter (fun f => f.n == e.n)).length < 8) ∧
    (with_ (moving whole.tail)).checkers.find? (fun e => e.1 == checkerKey 0 31) = some (moving whole.tail) ∧
    (∃ e ∈ whole.tail, (whole.tail.filter (fun f => f.n == e.n)).length < 8) ∧
    tests.get (pgEchk 0 31) ECHK_CFG.OP ≠ 2 ∧ tests.get (pgEchk 0 31) ECHK_CFG.PATH = 0 ∧ init.flag (pgEmc 0) PAGE_CAPS.LIC_OFF = false := by
  decide +kernel

/-! ## Witnesses: row engines -/

/-- A row operation of every form between rows of slice 0: sources at rows 0 and 1, destination row 16; and the queue of an
engine with a command before its read step and one before its last. -/
theorem witness_RowOperationsWriteWholeRows :
    let a := nearBase 0
    let b := nearBase 0 + 2048
    let e := nearEngine 0 0 0
    let c : RowCmd := { rowOfBytes fillBytes (.device 5) with op := 1, z := false, srcA := a, dst := b }
    let r : Nat := nmbgId 0 0 (nearGroup 0)
    let s := { ready with res := [(nmbgId 0 0 0, { Res.init with cal := [(ownROWE, 48)] }),
      (nmbgId 0 0 1, { Res.init with cal := [(ownROWE, 48)] })] }
    let d : RowCmd := { c with steps := 1 }
    let q0 := s.setEngineQ e [c]
    let q1 := s.setEngineQ e [d]
    (a % 2048 = 0 ∧ b % 2048 = 0 ∧ isNear a = true ∧ isNear b = true ∧ s.engineAt a = some e ∧ s.engineAt b = some e ∧
      engineUp s e = true ∧ (s.calOf (rowRes a)).hasRun ownROWE 48 = true ∧ (s.calOf (rowRes b)).hasRun ownROWE 48 = true ∧
      s.winsTouched b 2048 = []) ∧
    s.engineQ e = [] ∧ (s.resAt (enginePort e)).openQ = [] ∧
    rowRes a = r ∧ q0.engineQ e = c :: [] ∧ c.rows = [a, b] ∧ q0.stepReady e (decide (c.rows.length ≤ c.steps + 1)) a = true ∧
    q0.engineDown e = false ∧ q0.asleep a 2048 = false ∧ c.steps + 1 < c.rows.length ∧
    q1.engineQ e = d :: [] ∧ q1.stepReady e (decide (d.rows.length ≤ d.steps + 1)) b = true ∧ q1.asleep b 2048 = false ∧
    d.rows.length ≤ d.steps + 1 ∧ q1.winsTouched d.dst 2048 = [] ∧ d.dst % 2048 = 0 ∧ d.issuer = .device 5 := by
  decide +kernel

/-! ## Witnesses: the network, reductions, soft resets -/

/-- All four base dies with their seams, beside die 0. -/
def four : State := { ready with found := { clocked := 15, seams := 15, dies := 1, stackBits := 1 } }

/-- A read request of a node for another. -/
def headOf (dst src : Nat) : List Byte := headFlit 0 dst src 1 0 0 0

/-- A head that travels east and one that goes down at a tile router, one that has arrived; one between base routers; a
damaged one, one of a reserved type and one with an absent node. -/
theorem witness_FlitHeadsAndRouteTables_heads :
    let ok (s : State) (h : List Byte) : Prop :=
      (Instr.flitHeadRoute ⟨.tile 0 0 0, 15⟩ h []).wellFormed = true ∧ lenFits h [] = true ∧ (decodeSector (h.take 36)).1.damaged = false ∧
      typeClass false (hdType (decodeSector (h.take 36)).2) = some 0 ∧
      s.nodePresent (nodeOf (hdSrc (decodeSector (h.take 36)).2)) = true ∧
      s.nodePresent (nodeOf (hdDst (decodeSector (h.take 36)).2)) = true
    ready.loading = false ∧ ok ready (headOf (tileNode 5) (tileNode 0)) ∧ nodeOf (tileNode 5) = .tile 0 5 ∧ 0 ≠ 5 % 6 ∧
    ok ready (headOf (tileNode 138) (tileNode 0)) ∧ 0 = 138 % 6 ∧ 0 ≠ 138 / 6 ∧ ok ready (headOf (tileNode 0) (tileNode 0)) := by
  decide +kernel

theorem witness_FlitHeadsAndRouteTables :
    let head := headOf (tileNode 0) (tileNode 0)
    let d := (decodeSector (head.take 36)).2
    let base := headOf 0x5807 0x4007
    let bd := (decodeSector (base.take 36)).2
    let bad := List.replicate 36 0x01#8 ++ [3]
    let waits := { four with net := { four.net with stalled := [(2048 + 8 * 7, [head])] } }
    (∀ dom, ready.tileDomain 0 d = some dom → ready.domState dom = 0) ∧
    (four.nodePresent (nodeOf (hdSrc bd)) = true ∧ four.nodePresent (nodeOf (hdDst bd)) = true ∧ four.loading = false ∧
      lenFits base [] = true ∧ (decodeSector (base.take 36)).1.damaged = false ∧ typeClass false (hdType bd) = some 0 ∧
      nodeOf (hdDst bd) = .base 3 0 7 ∧ (0 < 4 ↔ 3 < 4) ∧ nodeOf 0x4007 = .base 0 0 7) ∧
    (decodeSector (bad.take 36)).1.damaged = true ∧ lenFits bad [] = true ∧
    (Instr.flitHeadRoute ⟨.base 0 0, 0⟩ bad []).wellFormed = true ∧ typeClass false 0x0C = none ∧ ready.nodePresent (nodeOf 0xFFFF) = false ∧
    four.boot.fw = fwMain ∧
    four.net.stalled.any (fun e => routerBase e.1 == 0) = false ∧
    waits.net.stalled.any (fun e => routerBase e.1 == 0) = true := by
  refine ⟨?_, by decide +kernel⟩
  decide +kernel

/-- A frame with a bad CRC; the next flit frame and another; a NAK of a frame in the buffer; the eighth NAK of one number
on a seam link; an end that waits. -/
theorem witness_LinkFramesAreTakenInOrder :
    let i := linkNumber (.seam 0 0 0 0)
    let flit (fk : Byte) : List Byte := List.replicate 36 0 ++ [fk]
    let f := d2dFrame ltFlit 0 9 (flit 0)
    let g := d2dFrame ltFlit 1 9 (flit 1)
    let begun := ready.setLink i { Link.init with last := 0, rx := [(0, [flit 0])] }
    let up := ready.put (pgSeam 0) (SEAM_LINK.STATE.at 0) smUp
    let bad := f.set 0 1
    let s := ready.setLink i { Link.init with replay := [(0, List.replicate 37 0), (1, List.replicate 37 0)] }
    let r := (ready.put (pgSeam 0) (SEAM_LINK.STATE.at 0) smUp).setLink i { Link.init with naks := 7, nakSeq := 1 }
    (f.length = 42 ∧ g.length = 42 ∧ bad.length = 42 ∧ leBytes 2 (crc16 (bad.take 40)) ≠ slice bad 40 2 ∧
      leBytes 2 (crc16 (f.take 40)) = slice f 40 2 ∧ leBytes 2 (crc16 (g.take 40)) = slice g 40 2 ∧
      field f 39 1 % 16 = ltFlit ∧ field g 39 1 % 16 = ltFlit ∧ (∀ e ∈ (ready.link i).replay, e.1 ≠ field f 38 1) ∧
      field f 37 1 = ((ready.link i).last + 1) % 256 ∧ field g 37 1 ≠ ((ready.link i).last + 1) % 256) ∧
    (i % 2 = 0 ∧ up.linkOpen (i + 1 - 2 * (i % 2)) = true ∧ ready.linkOpen (i + 1 - 2 * (i % 2)) = false ∧
      field g 37 1 = ((begun.link i).last + 1) % 256 ∧ mapGet [] (begun.link i).rx (flitClass (flit 1)) = [flit 0] ∧
      mapGet [] (ready.link i).rx 0 = [] ∧ (∀ k ∈ [0, 1, 2, 3], flitKind (flit (BitVec.ofNat 8 k)) = k) ∧
      ready.linkOpen (dropLink 0 0 1) = true ∧ ready.linkOpen (dropLink 0 0 0) = true) ∧
    (s.link i).replay.findIdx? (fun e => e.1 == (0 : Byte).toNat) = some 0 ∧ (s.link i).queue = [] ∧ (s.link i).active = [] ∧
    (r.link i).naks = 7 ∧ (r.link i).nakSeq = ((0 : Byte).toNat + 1) % 256 ∧ (r.link i).replay = [] ∧
    r.seamState 0 0 = smUp ∧ (ready.link i).waiting = false ∧
    ((ready.setLink i { Link.init with waiting := true }).link i).waiting = true := by decide +kernel

/-- A link in each state, with no attempt and with two; proposals that agree and that do not. -/
theorem witness_SeamLinksTrain :
    let at_ (st : Nat) : State := ready.put (pgSeam 3) (SEAM_LINK.STATE.at 3) st
    let exch := (State.reset.put (pgSeam 3) (SEAM_LINK.STATE.at 3) smExchange)
    (∀ st ∈ [smDown, smExchange, smTest, smUp, smHeld], (at_ st).seamState 3 3 = st) ∧
    (8#4).getLsbD 3 = true ∧ narrower 3 1 ≠ 0 ∧ exch.isReady = false ∧ exch.seamState 3 3 = smExchange ∧
    narrower 1 2 = 0 ∧ exch.get (pgSeam 3) (SEAM_LINK.ATTEMPTS.at 3) < 2 ∧
    (exch.put (pgSeam 3) (SEAM_LINK.ATTEMPTS.at 3) 2).get (pgSeam 3) (SEAM_LINK.ATTEMPTS.at 3) = 2 ∧
    (at_ smTest).net.stalled = [] ∧ 1 = narrower 1 1 ∧ (at_ smExchange).isReady = true ∧
    (at_ smExchange).get (pgSeam 3) (SEAM_LINK.WIDTH.at 3) ≠ 1 := by decide +kernel

/-- A die in each state of its reset. -/
theorem witness_PartitionResetFollowsItsStates :
    let at_ (st : Nat) : State := ready.put (pgCdie 0) CDIE_PRST_STAT.STATE st
    NothingWaits ready ∧ ready.prst 0 = prstUp ∧ (ready.isReady || ready.flag pgBoot BOOT_STAT.HALT) = true ∧
    NothingWaits (at_ prstDrain) ∧ (at_ prstDrain).prst 0 = prstDrain ∧ (at_ prstReset).prst 0 = prstReset ∧
    (∀ y < 24, (ready.link (dropLink 0 y 0)).queue = []) ∧
    (∀ i < 16, (at_ prstDrain).engineQ i = [] ∧ ((at_ prstDrain).resAt (enginePort i)).openQ = []) ∧
    (∀ i < 144, ((at_ prstDrain).tile i).xfers = []) ∧
    (∀ y < 24, ((at_ prstDrain).link (dropLink 0 y 0)).replay = [] ∧ ((at_ prstDrain).link (dropLink 0 y 0)).active = []) ∧
    (at_ prstReset).isReady = true ∧ (at_ prstReleasing).prst 0 = prstReleasing ∧ (at_ prstReleasing).net.stalled = [] ∧
    State.reset.isReady = false ∧ State.reset.flag pgBoot BOOT_STAT.HALT = false := by
  unfold NothingWaits OnlyTransfersWait; decide +kernel

/-- The flits that a die's drop has taken over: a queue with a response, which a request to reset drops and counts. -/
theorem witness_PartitionResetFollowsItsStates_queue :
    let flit : List Byte := List.replicate 36 0 ++ [7]
    let s := ready.setLink (dropLink 0 23 0) { Link.init with queue := [(8, [flit])] }
    NothingWaits s ∧ s.prst 0 = prstUp ∧ s.isReady = true ∧
    (∀ e ∈ (s.link (dropLink 0 23 0)).queue, flitClass (e.2.headD []) ≠ clsRequest) := by
  unfold NothingWaits OnlyTransfersWait; decide +kernel

/-- A message to the tile itself; one whose die has gone down. -/
theorem witness_MessagesAreDelivered :
    let x : Xfer := newXfer .nsnd 0 32 1 0 [] true 0 0 0
    let s := runs { Tile.init with xfers := [x] }
    let down := s.put (pgCdie 0) CDIE_PRST_STAT.STATE prstReset
    let y : Xfer := { newXfer .nsnd 0 32 1 0 [] true 0 0 1 with sent := some [codeWord (List.replicate 32 7)] }
    let two := runs { Tile.init with xfers := [x, { y with sent := none }] }
    let left := runs { Tile.init with xfers := [y] }
    (two.tile 0).nth 1 = some { y with sent := none } ∧ (two.tile 0).firstFor { y with sent := none } = false ∧
    (left.tile 0).nth 0 = some y ∧ (left.tile 0).firstFor y = true ∧ x.sent = none ∧ (codeWord (List.replicate 32 7)).length = 36 ∧
    left.rangeRefused (sramBase 0 + 32) 32 = false ∧ left.asleep (sramBase 0 + 32) 32 = false ∧ left.dieDown 0 = false ∧
    (s.tile 0).nth 0 = some x ∧ x.kind = .nsnd ∧ x.waits = true ∧ x.inject = 0 ∧ x.target / 2 ^ 21 < 0x600 ∧
    (s.tile 0).firstFor x = true ∧ (sramBase 0 + 32) % 32 = 0 ∧ s.dieDown 0 = false ∧ s.rangeRefused (sramBase 0 + 32) 32 = false ∧
    s.asleep (sramBase 0 + 32) 32 = false ∧ Clean s (s.sramAt 0 0) 32 ∧ (down.tile 0).nth 0 = some x ∧
    (down.tile 0).firstFor x = true ∧ down.dieDown 0 = true := by unfold Clean; decide +kernel

/-- A table to load, one that loads without a group, one that lies in a hole; the contribution of the one member of a group
and the first of two; a round that waits. -/
theorem witness_GroupTablesAndContributions :
    let d : Group := { kind := 0, op := 2, xpkg := 0, root := 0, len := 0, addr := 32, members := [0] }
    let two : Group := { d with members := [0, 1] }
    let x : Xfer := newXfer .nsnd 0 (0x700 * 2 ^ 21) 1 0 [] true 0 0 0
    let with_ (g : Group) : State :=
      { runs { Tile.init with xfers := [x] } with red := { groups := [(0, g)], rounds := [], loading := none, late := [] } }
    let loads (a : Nat) : State := { ready with red := { ready.red with loading := some a } }
    let s := with_ d
    let data := (List.range x.sectors).map (fun i => (s.sector (s.sramAt 0 (x.sram + 32 * i))).2)
    let waits := (with_ two).setRound 0 { Round.init with got := [(0, [List.replicate 32 0])] }
    (ready.flag (pgBnet 0) BNET_RG_STAT.BUSY = false ∧ (loads (sramBase 0)).red.loading = some (sramBase 0) ∧
      sramBase 0 % 32 = 0 ∧ (loads (sramBase 0)).rangeStatus (sramBase 0) 16384 = stOk ∧
      (loads 0x1FFFF0000000).rangeStatus 0x1FFFF0000000 16384 ≠ stOk ∧
      (loads (sramBase 0)).red.rounds.any (fun e => e.2.running) = false) ∧
    ((s.tile 0).nth 0 = some x ∧ x.kind = .nsnd ∧ x.waits = true ∧ x.inject = 0 ∧ x.sent = none ∧
      (s.tile 0).firstFor x = true ∧ 0x700 ≤ x.target / 2 ^ 21 ∧
      s.group 0 = some d ∧ s.groupFailed 0 = false ∧ x.sectors = d.len + 1 ∧ s.logical 0 ∈ d.members ∧
      (s.round 0).got = [] ∧ Clean s (s.sramAt 0 0) 32 ∧ d.members.length ≤ ((s.round 0).got ++ [(0, data)]).length ∧
      (s.foldRound d [(0, data)]).isSome = true ∧ ({ Round.init with num := 1, taken := [] } : Round).damaged = false ∧ d.xpkg = 0 ∧ d.kind = 0 ∧ s.assigned d.root = true ∧
      s.prst 0 = prstUp ∧ s.rangeRefused (sramBase 0 + 32) 32 = false ∧ s.asleep (sramBase 0 + 32) 32 = false ∧
      d.addr + 32 * (foldOutput 2 ((s.foldRound d [(0, data)]).getD [])).length ≤ sramSize) ∧
    ((with_ two).group 0 = some two ∧ (((with_ two).round 0).got ++ [(0, data)]).length < two.members.length ∧
      (waits.round 0).got ≠ [] ∧ (∃ e ∈ (waits.round 0).got, e.1 = waits.logical 0) ∧ waits.groupFailed 0 = false ∧ (s.round 0).got = [] ∧
      waits.get (pgBnet 0) BNET_RED_FAIL_LO.FAILED < 2 ^ 32) := by
  unfold Clean; decide +kernel

/-- A table of zeros: readable, clean and without a valid descriptor. -/
theorem witness_GroupTablesAndContributions_table :
    Clean ready (sramBase 0) 16384 ∧
    ((List.range 64).filter (fun g => bit (field ((List.range 16384).map (fun i => ready.dataByte (sramBase 0 + i))) (256 * g)
      1) 7)).length ≤ 16 := by
  refine ⟨clean_of_empty rfl _ _, ?_⟩
  have z : ∀ (l : List Byte), (∀ b ∈ l, b = 0) → ∀ i, l.getD i 0 = 0 := by
    intro l h i
    rw [List.getD_eq_getElem?_getD]
    cases e : l[i]? with
    | none => rfl
    | some b => exact h b (List.mem_of_getElem? e)
  have f : ∀ g ∈ List.range 64,
      bit (field ((List.range 16384).map (fun i => ready.dataByte (sramBase 0 + i))) (256 * g) 1) 7 = false := by
    intro g _
    have e : slice ((List.range 16384).map (fun i => ready.dataByte (sramBase 0 + i))) (256 * g) 1 = [0] := by
      have := z ((List.range 16384).map (fun i => ready.dataByte (sramBase 0 + i))) (by intro b hb; obtain ⟨i, -, rfl⟩ := List.mem_map.mp hb; rfl) (256 * g + 0)
      exact congrArg (fun b => [b]) this
    rw [field, e]; rfl
  rw [List.filter_eq_nil_iff.mpr (fun g hg => by rw [f g hg]; exact Bool.false_ne_true)]
  exact Nat.zero_le _

/-- A ring of two packages over the ports F0 (NEXT) and F1 (PREV), and a group that spans it. -/
def ringed : State :=
  let p := pgFprt 0
  let q := pgFprt 1
  let l : List (PageRef × Field × Nat) := [(p, PAGE_CTRL.EN, 1), (p, FPRT_STAT.STATE, ptUp), (q, PAGE_CTRL.EN, 1),
    (q, FPRT_STAT.STATE, ptUp), (p, FPRT_RING_N.VALID, 1), (p, FPRT_RING_N.NM1, 1), (q, FPRT_RING_P.VALID, 1),
    (q, FPRT_RING_P.NM1, 1), (p, FPRT_NBR_RING_P.RING, 0x80000101), (q, FPRT_NBR_RING_N.RING, 0x80000101)]
  let s := l.foldl (fun (s : State) e => s.put e.1 e.2.1 e.2.2) ready
  let g : Group := { kind := 1, op := 2, xpkg := 0x8000, root := 0, len := 0, addr := 32, members := [0] }
  { s with red := { groups := [(0, g)], rounds := [], loading := none, late := [] } }

/-- A stage packet of round n of that group. -/
def stagePacket (n : Nat) : List Byte :=
  codeWord ([0x11, 0, BitVec.ofNat 8 n, 0x20, 2, 0, 0, 0, 1, 1] ++ List.replicate 22 0)

/-- A packet of the round under way, one of the next round, a damaged one, and one that names no group. -/
theorem witness_FabricPacketsAreJudged :
    let w := codeWord (List.replicate 32 7)
    let judge (h : List Byte) : Option Nat := ringed.fabricRefusal 1 (decodeSector (slice h 0 36)) 1
    let now := stagePacket 0
    let next := stagePacket 1
    (Instr.fabricPacketReceive 1 now [w]).wellFormed = true ∧ (Instr.fabricPacketReceive 1 now [poisonWord]).wellFormed = true ∧
    judge now = none ∧ judge next = none ∧ (decodeSector w).1.damaged = false ∧ (decodeSector poisonWord).1.damaged = true ∧
    field (decodeSector (slice next 0 36)).2 2 1 ≠ (ringed.round 0).num % 256 ∧
    field (decodeSector (slice now 0 36)).2 2 1 = (ringed.round 0).num % 256 ∧ (ringed.round 0).value = none ∧
    ringed.get (pgBnet 0) BNET_RED_FAIL_LO.FAILED < 2 ^ 32 ∧ judge poisonWord = some 1 ∧ (ringed.round 0).taken = [] ∧
    judge (stagePacket 2) = some 6 := by decide +kernel

/-- Pages that take a soft reset: on, in transition, locked; one that does not; one under way. -/
theorem witness_SoftResetsReturnPageAndBlock :
    let moving := ready.setDom (.fport 0) 3
    let under := ready.put (pgClk 0) PAGE_STAT.SRST_BUSY 1
    softForm (.softReset (pgFprt 0)) (pgFprt 0) ∧ pageAt (pgFprt 0) = some (.fprt, 0) ∧
    ready.softTaken (pgFprt 0) .fprt 0 = true ∧ ready.pagePower (pgFprt 0) ≠ 3 ∧
    moving.softTaken (pgFprt 0) .fprt 0 = true ∧ moving.pagePower (pgFprt 0) = 3 ∧
    softForm (.softReset pgMgmt) pgMgmt ∧ pageAt pgMgmt = some (.mgmt, 0) ∧ ready.softTaken pgMgmt .mgmt 0 = false ∧
    under.flag (pgClk 0) PAGE_STAT.SRST_BUSY = true ∧ under.softHeld (pgClk 0) = false ∧
    ({ moving with softWait := [pgFprt 0] } : State).softHeld (pgFprt 0) = true ∧
    running.softTaken (pgTile 0) .tile 0 = true ∧ running.pagePower (pgTile 0) = 0 ∧ running.tileServes 0 = true ∧
    ready.softTaken (pgNmem 0 3) .nmem 3 = true ∧ ready.softTaken (pgErow 7) .erow 7 = true ∧
    ready.softTaken (pgSubw 63) .subw 63 = true ∧ ready.softTaken (pgDma 31) .dma 31 = true ∧
    ready.softTaken pgRope .rope 0 = true ∧ (ready.dma 31).run = none ∧
    (let d : Dma := { queue := [⟨0, 0, 0⟩], run := some { moved := 0, piece := 32, data := [], storing := false }, stop := false }
     let s : State := { ready with dmas := [(31, d)] }
     s.softTaken (pgDma 31) .dma 31 = true ∧ (s.dma 31).run ≠ none) := by
  refine ⟨.inl rfl, ?_⟩
  refine ⟨by decide +kernel, by decide +kernel, by decide +kernel, by decide +kernel, by decide +kernel, .inl rfl, ?_⟩
  decide +kernel

/-! ## Witnesses: Jodar Link ports -/

/-- A port in each state; half a host port locked, allowed and not; exchanges with a common version and without one. -/
theorem witness_PortsTrain :
    let at_ (i st : Nat) : State := ready.setPortState i st
    let half := (at_ 12 ptPhy).setPort 12 { Port.init with locked := 2 }
    let lic := ready.put (pgFprt 0) PAGE_CAPS.LIC_OFF 1
    (∀ st ∈ [ptDisabled, ptPhy, ptExchange, ptUp, ptWait], (at_ 0 st).portState 0 = st ∧ (at_ 12 st).portState 12 = st) ∧
    (ready.flag (pgFprt 0) PAGE_CAPS.LIC_OFF = false ∧ ready.portPower 0 ≠ 2 ∧ lic.flag (pgFprt 0) PAGE_CAPS.LIC_OFF = true) ∧
    (NothingOut ready 0 ∧ NothingOut half 12) ∧ ((half.port 12).locked = 2 ^ (1 : Fin 2).val ∧
      (half.put (pgHprt 0) HPRT_CFG.HALF 1).flag (pgHprt 0) HPRT_CFG.HALF = true ∧
      (half.put (pgHprt 0) HPRT_CFG.HALF 0).flag (pgHprt 0) HPRT_CFG.HALF = false) ∧
    ((at_ 0 ptPhy).port 0).locked = 0 ∧ ((at_ 0 ptExchange).port 0).queue = [] ∧ ready.bridge.devWait = [] ∧
    bit (ready.portVers 0 &&& 3) 1 = true ∧ ready.portVers 0 &&& 0 = 0 ∧ ready.portPower 0 = 0 ∧
    ((ready.setDom (.fport 0) 1).portPower 0 = 1) := by unfold NothingOut; decide +kernel

/-- A port that meets its neighbour again, with two frames out of which one is acknowledged; a new neighbour. -/
theorem witness_PortsTrain_again :
    let q : Port := { Port.init with beenUp := true, peer := (7, 3), replay := [⟨1, []⟩, ⟨2, []⟩], nextSeq := 3 }
    let s := (ready.setPortState 0 ptExchange).setPort 0 q
    let t := (ready.setPortState 0 ptExchange).setPort 0 { q with replay := [] }
    s.portState 0 = ptExchange ∧ isHostPort 0 = false ∧ (s.port 0).beenUp = true ∧ (s.port 0).peer = (7, 3) ∧
    s.red.rounds = [] ∧ (s.port 0).queue = [] ∧ (s.port 0).replay.findIdx? (fun e => e.seq == 1) = some 0 ∧
    t.portState 0 = ptExchange ∧ NothingOut t 0 ∧ (t.port 0).queue = [] ∧ t.bridge.devWait = [] ∧
    (t.port 0).beenUp = true ∧ (t.port 0).peer ≠ (8, 3) := by unfold NothingOut; decide +kernel

/-- Frames with an FEC failure and a wrong CRC; the next data frame and another; a NAK; a port that waits; one that may
sleep, one that may not, one that sleeps; an unlocked port. -/
theorem witness_JodarFramesRingsAndSleep :
    let s := ready.setPortState 0 ptUp
    let next := jodarFrame ftData 0 4095 0 []
    let other := jodarFrame ftData 1 4095 0 []
    let bad := next.set 1 1
    let r := s.setPort 0 { Port.init with replay := [⟨7, []⟩], waiting := true }
    let slow := s.put (pgFprt 0) PAGE_LATTOL.TOL_NS 4999
    let ready2 := s.put (pgFprt 0) PAGE_LATTOL.TOL_NS 5000
    let allows (s : State) : Bool := s.portState 0 == ptUp && s.portPower 0 == 0 && s.get (pgFprt 0) PAGE_PWR.REQ == 0 &&
      decide (5000 ≤ s.get (pgFprt 0) PAGE_LATTOL.TOL_NS) && s.portIdle 0 && !s.shutDown (.fport 0)
    (s.portState 0 = ptUp ∧ next.length = 156 ∧ other.length = 156 ∧ bad.length = 156 ∧ crc32c (bad.take 152) ≠ field bad 152 4 ∧
      crc32c (next.take 152) = field next 152 4 ∧ crc32c (other.take 152) = field other 152 4 ∧
      field next 0 1 % 16 = ftData ∧ field other 0 1 % 16 = ftData ∧ s.bridge.devWait = [] ∧ s.portPower 0 = 0 ∧
      (Instr.fabricFrameReceive (.fabric 0) next ⟨false, 0, 0⟩).wellFormed = true ∧ NothingOut s 0 ∧ (s.port 0).queue = [] ∧
      field next 1 2 % 4096 = ((s.port 0).last + 1) % 4096 ∧ field other 1 2 % 4096 ≠ ((s.port 0).last + 1) % 4096) ∧
    ((r.port 0).replay.findIdx? (fun e => e.seq == (7 : BitVec 12).toNat) = some 0 ∧ s.red.rounds = [] ∧
      (r.port 0).waiting = true ∧ (s.port 0).waiting = false) ∧
    (allows ready2 = true ∧ allows slow = false ∧ (s.setPort 0 { Port.init with lpAsked := true }).portState 0 = ptUp ∧
      ((s.setPort 0 { Port.init with lpAsked := true }).port 0).lpAsked = true ∧
      (ready.setPortState 0 ptLowPower).portState 0 = ptLowPower ∧ s.flag (pgFprt 0) PAGE_CTRL.LOCK = false) := by
  unfold NothingOut; decide +kernel

/-! ## Witnesses: the host link, the windows, the DMA channels -/

/-- A host request head. -/
def req (ht : Byte) (a n : Nat) : HostHead :=
  { ht := ht, flags := 0, status := 0, rsv3 := 0, tag := 9, addr := BitVec.ofNat 64 a, len := BitVec.ofNat 16 (n - 1),
    eaddr := 0, rdata := 0x00200010, rsv28 := 0 }

/-- Requests of each kind for tile 0's slice and page, one past the data limit and one to a hole; a completion that is
awaited, and one that is not; a request and a packet that have waited too long. -/
theorem witness_HostRequestsAndTimeouts :
    let a := nearBase 0
    let e := (regAddr (pgTile 0) 0x044).toNat
    let w := codeWord (List.replicate 32 3)
    let awaited := { ready with bridge := { ready.bridge with devReqs := [(12, 9, .record)] } }
    let r : HostReq := { port := 12, head := req 1 a 32, data := [], bad := false }
    let waits := { ready with bridge := { ready.bridge with hostReqs := [r] } }
    let d : DevPacket := { port := 12, words := [w], record := none, req := none }
    let parked := { ready with bridge := { ready.bridge with devWait := [d] } }
    (NothingWaits ready ∧ (Instr.hostMemoryWrite 0 (req 2 a 32) [w]).wellFormed = true ∧ ready.hostBad 12 (req 1 a 8192) [] = true ∧
      ready.hostBad 12 (req 1 a 4096) [] = false ∧ ready.hostBad 12 (req 2 a 32) [w] = false ∧
      ready.hostBad 12 (req 3 e 4) [] = false ∧ ready.hostBad 12 (req 4 e 4) [] = false) ∧
    (ready.runtimeStatus a 4096 = stOk ∧ ready.asleep a 4096 = false ∧ ready.winsTouched a 32 = [] ∧
      (decodeSector w).1 = .good ∧ ready.hostBad 12 (req 1 (2 ^ 47) 32) [] = false ∧
      ready.rangeStatus (2 ^ 47) 32 = stNoTarget ∧ ready.regStatus e = stOk ∧ (req 4 e 4).addr.toNat = e ∧
      ready.pageStatus (pgTile 0) = stOk ∧ ready.blockHidden (pgTile 0) .tile 0 = false) ∧
    (NothingWaits awaited ∧ awaited.requestOf 12 (req 0x13 0 1).tag.toNat = some .record ∧
      ready.requestOf 12 (req 0x13 0 1).tag.toNat = none ∧ waits.bridge.hostReqs = [r] ∧ r.port = 12 ∧ r.head.tag = 9 ∧
      NothingWaits { waits with bridge := { waits.bridge with hostReqs := [] } } ∧ parked.portOpen 12 = false ∧
      parked.bridge.devWait = d :: [] ∧ d.port = 12 ∧ d.req = none) := by
  unfold NothingWaits OnlyTransfersWait; decide +kernel

/-- The largest read and a write of one sector in slots, one without a slot, one of a die in reset; accesses of a host with
nothing left to move: a read in order, one with a damaged sector, a write, one refused; a hole as a register's address. -/
theorem witness_HostRequestsAndTimeouts_accesses :
    let a := nearBase 0
    let idle : Res := { Res.init with cal := [(ownIDLE, 1)] }
    let shut : State := { ready with res := [(nmbgId 0 0 0, idle), (nmbgId 0 0 1, idle)] }
    let down := ready.put (pgCdie 0) CDIE_PRST_STAT.STATE prstReset
    let x : MemAccess :=
      { id := 0, who := 0, use := .host 12 (req 1 a 32), addr := a, len := 32, words := none, todo := [],
        got := [(a, codeWord (List.replicate 32 3))], up := [], status := stOk }
    let holding (y : MemAccess) : State := { ready with bridge := { ready.bridge with accs := [y] } }
    let bad : MemAccess := { x with got := [(a, poisonWord)] }
    InSlots ready a 4096 ∧ shut.runtimeStatus a 32 = stNoSlot ∧ shut.hostBad 12 (req 1 a 32) [] = false ∧
    down.runtimeStatus a 32 = stDestDown ∧ down.rangeStatus a 32 ≠ stNoTarget ∧ NothingWaits shut ∧ NothingWaits down ∧
    NothingWaits { holding x with bridge := { (holding x).bridge with accs := [] } } ∧ (holding x).bridge.accs = [x] ∧
    x.firstBad = none ∧ bad.firstBad = some a ∧ (∀ y ∈ [x, bad], (holding y).regStatus (2 ^ 47) ≠ stOk) := by
  unfold InSlots NothingWaits OnlyTransfersWait; decide +kernel

/-- Window 0 in region 0 of B0's summit: 16 slots, its ring of 16 records behind them in device memory. -/
def windowed : State :=
  let p := pgSubw 0
  let a := summitBase 0 0
  let l : List (PageRef × Field × Nat) := [(p, SUBW_CFG.SIZE, 4), (p, SUBW_CFG.CQSIZE, 4), (p, SUBW_CFG.CQLOC, 1),
    (p, SUBW_BASE_LO.ADDR, a / 2 ^ SUBW_BASE_LO.ADDR.lo), (p, SUBW_BASE_HI.ADDR, a / 2 ^ 32),
    (p, SUBW_CQ_LO.ADDR, (a + 4096) / 2 ^ SUBW_CQ_LO.ADDR.lo), (p, SUBW_CQ_HI.ADDR, a / 2 ^ 32), (pgHprt 0, PAGE_CTRL.EN, 1)]
  l.foldl (fun s e => s.put e.1 e.2.1 e.2.2) ready

/-- A window that may be enabled and one that may not; a command at its `CONS`; a `CQ_HEAD` at the tail and beyond it; NOPs
in flight with a record and without one. -/
theorem witness_WindowsTakeCommandsAndRecord :
    let p := pgSubw 0
    let s := (windowed.put p PAGE_CTRL.EN 1).put p SUBW_PTR.TAIL 1
    let b := (List.range 64).map (fun j => s.dataByte (s.winBase 0 + j))
    let f := s.slotCommand 0 b
    let g : InFlight := { count := 5, order := 0, cls := 0, tag := 1, body := 0, noRecord := false, discard := false }
    let fly (g : InFlight) : State := (windowed.put p SUBW_CQ_TAIL.PHASE 1).setWin 0 { flags := [], flight := [g] }
    let quiet := { g with noRecord := true }
    (windowed.winEnabled 0 = false ∧ windowed.winCheck 0 = 0 ∧ ready.winEnabled 0 = false ∧ ready.winCheck 0 ≠ 0 ∧
      ready.get p SUBW_CQ_HEAD.COUNT < 65536 ∧ ready.get p SUBW_CQ_TAIL.COUNT = 0) ∧
    (s.boot.damaged = [] ∧ (State.reset).boot.damaged = [] ∧ s.bridgeOpen = true ∧ (0 : Win).val = (s.bridge.lastWin + 1) % 64 ∧ s.winPending 0 ≠ 0 ∧
      s.asleep (s.winBase 0) 64 = false ∧ s.winCons 0 % s.winSlots 0 = 0 ∧ (State.reset).bridgeOpen = false) ∧
    ((fly g).inFlight 0 5 = some g ∧ g.cls = 0 ∧ (fly quiet).inFlight 0 5 = some quiet ∧
      (fly g).get p SUBW_CFG.CQLOC = 1 ∧ (fly g).rangeStatus ((fly g).cqBase 0) 32 = stOk ∧
      (fly g).rangeRefused ((fly g).cqBase 0) 32 = false ∧ (fly g).winsTouched ((fly g).cqBase 0) 32 = [] ∧ (fly g).cqWaiting 0 = 0 ∧
      (fly g).get p SUBW_CQ_TAIL.PHASE ≤ 1 ∧ (fly g).get p SUBW_CQ_TAIL.COUNT < 65536) ∧
    (f.cls = 0 ∧ field b 1 1 < 4 ∧ field b 2 2 = 0 ∧ field b 8 24 = 0 ∧ s.cqTaken 0 < s.cqSize 0 ∧
      (field b 1 1 % 2 = 1 → (s.win 0).flight = [])) := by decide +kernel

theorem witness_WindowsTakeCommandsAndRecord_clean :
    Clean ((windowed.put (pgSubw 0) PAGE_CTRL.EN 1).put (pgSubw 0) SUBW_PTR.TAIL 1) (summitBase 0 0) 64 :=
  clean_of_empty rfl _ _

/-- A descriptor that copies 4,096 bytes from tile 0's slice to its SRAM, and one whose operation is reserved. -/
theorem witness_DmaChannelsCopy :
    let body (op : Nat) : List Byte := leBytes 1 op ++ [0, 0, 0] ++ leBytes 4 4096 ++ leBytes 8 (nearBase 0) ++
      leBytes 8 (sramBase 0) ++ List.replicate 8 0
    let j (op : Nat) : DmaJob := { win := 0, count := 0, body := leNat (body op) }
    let x (op : Nat) (r : Option DmaRun) : Dma := { queue := [j op], run := r, stop := false }
    let s (op : Nat) (r : Option DmaRun) : State := { ready with dmas := [(31, x op r)] }
    let t (r : DmaRun) : State := s 1 (some r)
    let b := leBytes 32 (j 1).body
    let first : DmaRun := { moved := 0, piece := 4096, data := [], storing := false }
    let stopped : Bool := (s 1 none).flag (pgDma 31) DMA_STAT.HALT || (s 1 none).flag (pgDma 31) PAGE_STAT.SRST_BUSY ||
      ((s 1 none).dma 31).run.isSome || ((s 1 none).dma 31).queue.isEmpty
    NothingWaits (s 1 none) ∧ stopped = false ∧ NothingWaits (t first) ∧ ((t first).dma 31).run.isSome = true ∧
    (s 0 none).dmaCheck 31 (leBytes 32 (j 0).body) ≠ stOk ∧ (s 1 none).dmaCheck 31 b = stOk ∧ dmaOp b = 1 ∧
    (s 1 none).dmaPiece 31 b 0 = 4096 ∧ dmaDst b % 4096 + dmaLen b = 4096 ∧ (t first).runtimeStatus (dmaSrc b) 4096 = stOk ∧
    (s 1 none).inFlight 0 0 = none := by unfold NothingWaits OnlyTransfersWait; decide +kernel

/-- A copy of two sectors of the slice, under way: its read is over, in order or with a damaged sector, its write is over, its
target refuses it; a soft reset waits for its end; a request of the host link that belongs to it. -/
theorem witness_DmaChannelsCopy_pieces :
    let a := nearBase 0
    let body : List Byte := leBytes 1 1 ++ [0, 0, 0] ++ leBytes 4 8192 ++ leBytes 8 a ++ leBytes 8 (a + 8192) ++ List.replicate 8 0
    let b := leBytes 32 (leNat body)
    let j : DmaJob := { win := 0, count := 0, body := leNat body }
    let r : DmaRun := { moved := 0, piece := 4096, data := [], storing := false }
    let y : MemAccess :=
      { id := 0, who := 0x3F, use := .dma 31, addr := a, len := 4096, words := none, todo := [],
        got := (sectorsOf a 4096).map (fun x => (x, codeWord (List.replicate 32 0))), up := [], status := stOk }
    let s (r : DmaRun) (y : MemAccess) (stop : Bool) : State := { ready with
      dmas := [(31, { queue := [j], run := some r, stop := stop })], bridge := { ready.bridge with accs := [y] } }
    let t : State := { ready with dmas := [(31, { queue := [j], run := some { r with data := y.bytes, storing := true }, stop := false })] }
    let bad : MemAccess := { y with got := [(a, poisonWord)] ++ y.got.tail }
    let last : DmaRun := { r with moved := 4096, storing := true }
    let asked := { s r y false with bridge := { ready.bridge with devReqs := [(12, 9, .dma 31)] } }
    NothingWaits { s r y false with bridge := { (s r y false).bridge with accs := [] } } ∧
    (s r y false).regStatus (2 ^ 47) ≠ stOk ∧ dmaOp b = 1 ∧ y.firstBad = none ∧ y.bytes.length = r.piece ∧
    t.runtimeStatus (dmaDst b + r.moved) r.piece = stOk ∧ bad.firstBad = some a ∧ dmaLen b ≤ last.moved + last.piece ∧
    r.moved + r.piece < dmaLen b ∧ (s r y true).inFlight 0 0 = none ∧ asked.requestOf 12 9 = some (.dma 31) := by
  unfold NothingWaits OnlyTransfersWait; decide +kernel

/-- An answer may come with a descriptor. -/
theorem witness_DmaChannelsCopy_replies :
    (match exec (.dmaDescriptor 31 []) ready with | .next t => t.dmaPort 31 == 12 | _ => false) = true ∧
    (Instr.hostCompletionReceive 0 ⟨⟨0x13, 0, 0, 0, 9, 0, 0, 0, 0, 0⟩, []⟩).wellFormed = true := by decide +kernel

/-- Every sector of the pieces lies in slots. -/
theorem witness_DmaChannelsCopy_slots : InSlots ready (nearBase 0) 4096 ∧ InSlots ready (nearBase 0 + 8192) 4096 := by
  unfold InSlots; decide +kernel

/-! ## Witnesses: power domains -/

/-- A domain on that may sleep and one that may go off, a port that asks; moves of each kind; a port asleep that a request
wakes, by its line, by `HOLD_ON` and by a shorter tolerance; a port on. -/
theorem witness_DomainsEnterAndLeave :
    let d : Domain := .summit 0 19
    let tol := ready.put (pgSumt 0) PAGE_LATTOL.TOL_NS 500
    let f : Domain := .fport 0
    let off := ready.put (pgFprt 0) PAGE_PWR.REQ 2
    let port := (ready.put (pgFprt 0) PAGE_LATTOL.TOL_NS 5000).setPortState 0 ptUp
    let long := ready.put (pgFprt 0) PAGE_LATTOL.TOL_NS 40000000
    (tol.domIdle d = true ∧ tol.domFixed d = false ∧ domainPort d = none ∧ tol.domState d = 0 ∧ tol.pwrReq d = 0 ∧
      (tol.exitNs d).1 ≤ tol.get (groupPage d) PAGE_LATTOL.TOL_NS) ∧
    (off.domIdle f = true ∧ off.domFixed f = false ∧ off.domState f = 0 ∧ off.pwrReq f = 2) ∧
    (long.domIdle f = true ∧ long.pwrReq f = 0 ∧ long.autoOff f = true ∧
      (long.exitNs f).2 ≤ long.get (groupPage f) PAGE_LATTOL.TOL_NS) ∧
    (port.domIdle f = true ∧ domainPort f = some 0 ∧ port.pwrReq f = 0 ∧
      (port.exitNs f).1 ≤ port.get (groupPage f) PAGE_LATTOL.TOL_NS ∧ port.portState 0 = ptUp) := by decide +kernel

theorem witness_DomainsEnterAndLeave_moves :
    let d : Domain := .summit 0 19
    let f : Domain := .fport 0
    let moves (m : PwrMove) : State := { ready.setDom m.dom 3 with moves := [m] }
    (∀ t ∈ [0, 1, 2], ∀ w ∈ [false, true], (moves ⟨d, t, w⟩).moveOf d = some ⟨d, t, w⟩ ∧ (moves ⟨d, t, w⟩).domState d = 3 ∧
      NothingWaits (moves ⟨d, t, w⟩)) ∧
    (moves ⟨d, 0, false⟩).net.parked = [] ∧ (moves ⟨d, 0, false⟩).red.late = [] ∧ ready.isCache 0 19 = false ∧
    (moves ⟨f, 2, false⟩).ringKeeps f = false ∧ (moves ⟨d, 2, false⟩).ringKeeps d = false := by
  unfold NothingWaits OnlyTransfersWait; decide +kernel

theorem witness_DomainsEnterAndLeave_wakes :
    let f : Domain := .fport 0
    let sleeps := ready.setDom f 1
    let dark := (ready.setDom f 2).setPort 0 { Port.init with sensed := true }
    NothingWaits dark ∧ dark.domFixed f = false ∧ dark.domState f = 2 ∧
    (lineDomains 0 6).filter (dark.flagged dark.wanted) = [f] ∧
    NothingWaits sleeps ∧ sleeps.domState f = 1 ∧ pageDomain (pgFprt 0) = some f ∧ hasLattol (pgFprt 0) = true ∧
    groupDomains (pgFprt 0) = [f] ∧ sleeps.pwrReq f = 0 ∧ 4999 % 2 ^ 28 < (sleeps.exitNs f).1 ∧
    ready.reqDomain (pgFprt 0) = some f ∧ ready.domState f = 0 := by
  unfold NothingWaits OnlyTransfersWait; decide +kernel

/-- A tile and a stack on their way to off. -/
theorem witness_DomainsEnterAndLeave_off :
    let moves (m : PwrMove) : State := { ready.setDom m.dom 3 with moves := [m] }
    (moves ⟨.tile 0, 2, false⟩).moveOf (.tile 0) = some ⟨.tile 0, 2, false⟩ ∧
    (moves ⟨.tile 0, 2, false⟩).domState (.tile 0) = 3 ∧ (moves ⟨.tile 0, 2, false⟩).logicalOf 0 = some 0 ∧
    (moves ⟨.stack 7, 2, false⟩).moveOf (.stack 7) = some ⟨.stack 7, 2, false⟩ ∧
    (moves ⟨.stack 7, 2, false⟩).domState (.stack 7) = 3 ∧ NothingWaits (moves ⟨.tile 0, 2, false⟩) ∧
    NothingWaits (moves ⟨.stack 7, 2, false⟩) := by unfold NothingWaits OnlyTransfersWait; decide +kernel

/-! ## Witnesses: heat and coolant. Whether a stride meets the bounds is the model's free forecast. -/

/-- A reading of a tile's sensor without the model, and one of the outlet below its range and above it; a sensor that is
faulty. -/
theorem witness_SensorReadingsAndForecasts :
    let on := ready.putFlag pgThrm THRM_STAT.MODEL true
    let bad := (ready.setSensor outletSensor { Sensor.init with why := 1 }).put pgThrm THRM_SEL.SENSOR outletSensor
    ready.modelOn = false ∧ (1727#12).toNat < 1728 ∧ on.modelOn = true ∧ (BitVec.ofNat 12 outletSensor).toNat = outletSensor ∧
    (on.sensor outletSensor).why = 0 ∧ (0xFFFF#16).toInt < 0 ∧ 1280 < (1281#16).toInt ∧
    bad.get pgThrm THRM_SEL.SENSOR = outletSensor ∧ (bad.sensor outletSensor).why ≠ 0 ∧
    ready.get pgThrm THRM_SEL.SENSOR = 0 ∧ (ready.sensor 0).why = 0 ∧ on.get pgThrm THRM_STAT.COOL < 2 ∧
    (∀ c < 12, on.get (pgCdie c) CDIE_THROT_STAT.DEV_STRIDE < 16) ∧ on.siteRaises 31 = false ∧
    (on.setSensor 0xA3E { Sensor.init with temp := 1700, samples := 1 }).siteRaises 31 = true := by decide +kernel

/-- Flow that stops, that is too little and that is enough; a stop of 2 s and a shorter one; the shutdown; a trip. -/
theorem witness_CoolantIsWatched :
    let cool (c : Nat) (s : State) : State := s.put pgThrm THRM_STAT.COOL c
    let flow (l : List Nat) : State :=
      { ready.put pgThrm THRM_FLOW_CFG.K 200 with thermal := { Thermal.init with buckets := l } }
    let quiet (ms phase : Nat) : State := { flow [] with thermal := { Thermal.init with silent := ms, phase := phase } }
    let bad := ready.putFlag pgThrm THRM_STAT.FLOW_INV true
    let good : State := { bad with thermal := { Thermal.init with flowGood := 199 } }
    let calm : State := { ready.putFlag pgThrm THRM_STAT.MODEL true with
      thermal := { Thermal.init with stopGood := 21, lowGood := 101 } }
    let n (s : State) : Nat := s.thermal.bucket + ((s.thermal.buckets).take 19).sum
    let quietFor (s : State) : Nat := if s.thermal.pulsed then 0 else min 50 (s.thermal.silent + 1)
    (ready.flag pgThrm THRM_STAT.FLOW_INV = false ∧ bad.flag pgThrm THRM_STAT.FLOW_INV = true ∧ 20 < (21#8).toNat ∧
      (20#8).toNat ≤ 20 ∧ 199 ≤ good.thermal.flowGood ∧ ready.get pgThrm THRM_STAT.COOL = 0 ∧ quietFor ready < 50 ∧
      quietFor good < 50 ∧ good.get pgThrm THRM_STAT.COOL ≠ 2) ∧
    (quietFor (quiet 48 0) < 50 ∧ quietFor (quiet 49 8) = 50 ∧ min 11 ((quiet 49 8).thermal.phase + 1) ≠ 10 ∧
      min 11 ((quiet 49 9).thermal.phase + 1) = 10 ∧ (quiet 49 9).flag pgThrm THRM_STAT.FLOW_INV = false ∧
      (quiet 50 0).thermal.silent = 50 ∧ (quiet 50 0).thermal.pulsed = false ∧ (quiet 50 0).get pgThrm THRM_STAT.COOL < 2) ∧
    ((flow [0]).thermal.rises = [] ∧ 0 < (flow []).get pgThrm THRM_FLOW_CFG.K ∧ (flow []).thermal.silent ≠ 50 ∧
      (flow []).get pgThrm THRM_STAT.COOL = 0 ∧ n (flow []) * 200 < 200 ∧ 200 ≤ n (flow [1]) * 200 ∧
      (cool 2 (flow [1])).get pgThrm THRM_STAT.COOL = 2) ∧
    ((cool 2 calm).get pgThrm THRM_STAT.COOL = 2 ∧ (cool 2 calm).get pgThrm THRM_STOP_MS.MS < 2000 ∧
      21 ≤ calm.thermal.stopGood ∧ calm.modelOn = true ∧ (cool 1 calm).get pgThrm THRM_STAT.COOL = 1 ∧
      101 ≤ calm.thermal.lowGood ∧ 2000 ≤ ((cool 2 calm).put pgThrm THRM_STOP_MS.MS 2000).get pgThrm THRM_STOP_MS.MS ∧
      ready.isReady = true ∧ (cool 3 ready).get pgThrm THRM_STAT.COOL = 3 ∧ NothingWaits (cool 3 ready) ∧
      hasTrip 0x800 = true ∧ hasTrip 0xA3E = true) := by unfold NothingWaits OnlyTransfersWait; decide +kernel

/-! ## Witnesses: resets and bring-up -/

/-- A part that stands at a step of bring-up. -/
def standing (k : Nat) : State :=
  { State.reset.put pgBoot BOOT_STAT.STEP k with boot := { Boot.init with por := false, fw := fwMain } }

theorem witness_ResetsReturnThePackage :
    let due := { ready with boot := { ready.boot with due := 3 } }
    let held := { ready with boot := { ready.boot with por := true }, board := { ready.board with pwrOk := true } }
    let low := { ready with board := { ready.board with pwrOk := false } }
    ready.boot.due = 0 ∧ due.boot.due ≠ 0 ∧ due.flashCmd = none ∧ ready.boot.por = false ∧ held.boot.por = true ∧
    held.board.pwrOk = true ∧ low.board.pwrOk = false ∧ ready.flag pgMgmt MGMT_RSTREQ.REQ = false ∧
    ready.atStep 2 = false ∧ (standing 2).atStep 2 = true := by decide +kernel

theorem witness_ResetsReturnThePackage_flash : NoFlashWrite ready := by intro c h; cases h

/-- Each step of bring-up, with what its clauses need; that the main image is good is left to the vendor's signature, which
is the model's constant. -/
theorem witness_BringUpGoesStepByStep :
    let l : Load := ⟨1, 0, false, [], 6, false, [], 0, [], []⟩
    let loads (m : Load) : State := { standing 7 with boot := { (standing 7).boot with load := some m } }
    let done := { standing 8 with boot := { (standing 8).boot with nbrDone := true } }
    let hold := (standing 8).putFlag pgBoot BOOT_STAT.HOLD true
    (∀ k ∈ List.range 9, (standing (k + 1)).atStep (k + 1) = true ∧ (standing (k + 1)).atStep (k + 2) = false ∧
      (standing (k + 1)).atStep k = false) ∧
    (imageGood ((standing 6).itemOf itMain) 1 = false ∧ (standing 7).boot.load = none ∧ (loads l).atStep 7 = true ∧
      (loads l).loadOver l = true ∧ (loads { l with pass := 5 }).loadOver { l with pass := 5 } = false) ∧
    (done.atStep 8 = true ∧ done.flag pgBoot BOOT_STAT.HOLD = false ∧ done.boot.fw = fwMain ∧ done.boot.nbrDone = true ∧
      hold.atStep 8 = true ∧ hold.flag pgBoot BOOT_STAT.HOLD = true) ∧
    ((standing 5).stackTried 0 = false ∧ ({ standing 5 with found := ⟨1, 0, 1, 1⟩ } : State).stackTried 0 = true) := by
  decide +kernel

/-- Loads at each pass: chunks, the end marker, the maps; the first pass with chunks missing, the last, repair; a tile that is
done and one that is not; `RELOAD` of a die in service, of one that is not and of one that runs. -/
theorem witness_TileImagesAreLoaded :
    let l : Load := ⟨1, 1, true, [0], 0, false, [], 0, [], []⟩
    let with_ (m : Load) (s : State) : State := { s with boot := { s.boot with load := some m } }
    let maps (v : BitVec 64) (p : Nat) : Load := { l with pass := p, marker := true, maps := [(0, v)] }
    let up : Load := { l with pass := 6, started := [0] }
    let s := with_ l ready
    let one := (ready.putSector (ready.sramAt 0 0x1FFFE0) ([1] ++ List.replicate 31 0))
    let dies (d : Nat) (s : State) : State := s.put pgBoot BOOT_RELOAD.DIES d
    (ready.boot.load = none ∧ s.boot.load = some l ∧ 0 ∈ l.parts ∧ l.pass < 6 ∧ s.bootReachable 0 = true ∧
      s.missing 0 < 2 ^ 64 ∧ (Instr.bootChunkReceive 0 63 (List.replicate 128 (List.replicate 37 0)) 0).wellFormed = true ∧
      l.marker = false ∧ l.pass < 5) ∧
    ((maps 1 0).marker = true ∧ (∀ k ∈ (maps 1 0).parts, ∃ e ∈ (maps 1 0).maps, e.1 = k) ∧
      ((maps 1 0).maps.map (·.2)).foldl (· ||| ·) 0 ≠ 0 ∧ (maps 1 3).pass < 4 ∧ (maps 1 4).pass = 4 ∧
      ((maps 0 0).maps.map (·.2)).foldl (· ||| ·) 0 = 0 ∧ imageGood ((with_ (maps 0 0) ready).itemOf itTile) 2 = false) ∧
    (up.pass = 6 ∧ 0 ∈ up.started ∧ dataNat (with_ up one) ((with_ up one).sramAt 0 0x1FFFE0) 4 = 1 ∧
      dataNat (with_ up ready) ((with_ up ready).sramAt 0 0x1FFFE0) 4 ≠ 1 ∧
      (with_ up ready).tmapState 0 = 0 ∧ ((with_ up ready).tile 0).xfers = [] ∧ ((with_ up ready).tile 0).loads = []) ∧
    (Clean (with_ up one) ((with_ up one).sramAt 0 0x1FFFE0) 32 ∧
      Clean (with_ up ready) ((with_ up ready).sramAt 0 0x1FFFE0) 32) ∧
    ((with_ { l with pass := 6 } ready).loadOver { l with pass := 6 } = true ∧ State.reset.isReady = false ∧
      ready.isReady = true ∧ (dies 2 ready).dieInService 1 = false ∧ (dies 1 ready).dieInService 0 = true ∧
      (dies 1 ready).prst 0 = prstUp ∧ (dies 1 running).tileRun 0 = runRunning ∧
      (∀ p < 144, (dies 1 ready).tileRun p ≠ runRunning)) := by unfold Clean; decide +kernel

/-! ## Witnesses: the flash, attestation, the board -/

/-- Commands in order and not; each operation at work; reports to memory, to a hole, and without an index left. -/
theorem witness_FlashCommandsAndReportsRun :
    let works (op len src : Nat) : State := { ready with flashCmd := some ⟨op, 0, len, src⟩ }
    let odd := ready.put pgFlsh FLSH_OFF.BYTES 1
    let a := sramBase 0
    let reports (a : Nat) : State := { ready with ident := { ready.ident with report := some ([], a) } }
    (ready.isReady = true ∧ ready.flag pgFlsh FLSH_CSTAT.BUSY = false ∧ State.reset.isReady = false ∧
      State.reset.flag pgBoot BOOT_STAT.HALT = false) ∧
    (∀ op ∈ [flErase, flProgram, flCheck], ready.flashArgsOk op = true) ∧
    (ready.put pgFlsh FLSH_SRC_LO.ADDR 1).flashArgsOk flRead = true ∧
    (∀ op ∈ [flErase, flProgram, flRead], odd.flashArgsOk op = false) ∧
    (ready.flashCmd = none ∧ (works flErase 4096 0).flashCmd = some ⟨flErase, 0, 4096, 0⟩ ∧
      (works flProgram 1024 0).flashCmd = some ⟨flProgram, 0, 1024, 0⟩ ∧ 1024 % 256 = 0 ∧
      (works flRead 256 a).asleep a 256 = false ∧ (works flRead 256 a).coreStatus a 256 = stOk ∧ a % 32 = 0 ∧
      (works flRead 256 a).winsTouched a 256 = []) ∧
    (ready.flag pgIdnt IDNT_ATT_STAT.BUSY = false ∧ ready.ident.report = none ∧ (reports a).ident.report = some ([], a) ∧
      (reports a).coreStatus a 3104 = stOk ∧ (reports a).winPartial a 3104 = false ∧ (reports a).asleep a 3104 = false ∧
      (reports a).get pgIdnt IDNT_SIG.IN_BLOCK = 0 ∧
      ((reports a).put pgIdnt IDNT_SIG.IN_BLOCK 1024).get pgIdnt IDNT_SIG.IN_BLOCK = 1024 ∧
      (reports (2 ^ 47)).coreStatus (2 ^ 47) 3104 ≠ stOk ∧ (reports (2 ^ 47)).coreStatus (2 ^ 47) 3104 < 256) := by
  decide +kernel

theorem witness_FlashCommandsAndReportsRun_budget :
    ({ ready with ident := { blown := 1024, report := none } } : State).blocksLeft = 0 :=
  Nat.sub_eq_zero_of_le (Nat.le_of_lt_succ Config.fuseBlocks.isLt)

/-- Offsets that the target takes, that are not aligned, and beyond the page range; the PMBus controller free and at work. -/
theorem witness_TheBoardIsServed :
    let clocks := ready.put (pgClk 0) CLK_STAT.LOCK 15
    let v := 0x90000
    let works := { ready with board := { ready.board with pmb := some v } }
    clocks.smbCheck 0x3FC = stOk ∧ clocks.smbCheck 1 ≠ stOk ∧ 1 % 4 ≠ 0 ∧ 2 ^ 22 % 4 = 0 ∧ 2 ^ 22 ≤ (0x400000 : BitVec 24).toNat ∧
    ready.flag (pgBdie 0) PAGE_STAT.SRST_BUSY = false ∧ ready.flag (pgBdie 0) BDIE_PMB_STAT.BUSY = false ∧
    bits (0x40000 : Word).toNat 18 16 ≤ 4 ∧ ready.board.pmb = none ∧ works.board.pmb = some v ∧
    (bits v 18 16 == 1 || bits v 18 16 == 2) = true ∧ bit v 19 = true := by decide +kernel

/-! ## Witnesses: ropes, cairns and attention -/

/-- The part with stack 0 in use and one streaming window over its first 128 MiB, where the rope logic may start. -/
def poolable : State :=
  let l : List (PageRef × Field × Nat) := [(pgEstk 0, ESTK_STAT.INIT, 2), (pgEmc 0, EMC_CFG.SWIN_EN, 1),
    (pgEmc 0, EMC_SWIN.SIZE.at 0, 63), (pgRope, ROPE_META_LEN.MIB, 65), (pgRope, ROPE_EPOOL.OFF, 100),
    (pgRope, ROPE_NPOOL_ROWS.ROWS, 18), (pgRope, ROPE_CFG.FRAME_ROWS, 9), (pgTile 0, TILE_BOOT_STAT.DONE, 1)]
  l.foldl (fun s e => s.put e.1 e.2.1 e.2.2) ready

/-- The rope logic at work over pools of two near frames and stack 0, with a layout of one pair in slot 0. -/
def roped : State :=
  let l : List (PageRef × Field × Nat) := [(pgRope, ROPE_CFG.ON, 1), (pgRope, ROPE_STAT.ACTIVE, 1),
    (pgRope, ROPE_LAY_CFG.VALID.at 0, 1), (pgRope, ROPE_LAY_CFG.DIES.at 0, 1), (pgRope, ROPE_LAY_CFG.HEADS.at 0, 0),
    (pgRope, ROPE_LAY_CFG.LAYERS.at 0, 0), (pgRope, ROPE_LAY_CFG.HPG.at 0, 0)]
  { l.foldl (fun (s : State) e => s.put e.1 e.2.1 e.2.2) poolable with
    kv := { Kv.init with nearTiles := [0], edgeStacks := [0] } }

/-- That part with rope 0 open and empty. -/
def opened : State := { roped with ropes := [(0, { Rope.init with state := ropeIsOpen })] }

/-- A command of 32 bytes given outright. -/
def outright (b : List Byte) : CmdSrc := .body (BitVec.ofNat 256 (leNat b))

/-- A rope command: operation, rope, source, position, layout slot. -/
def ropeBody (op r src pos lay : Nat) : List Byte :=
  leBytes 1 op ++ [0] ++ leBytes 2 r ++ leBytes 2 src ++ [0, 0] ++ leBytes 4 pos ++ leBytes 4 0 ++ leBytes 1 lay ++
    List.replicate 15 0

/-- The rope logic off, startable and not, on, with a rope open; layouts taken and refused; a taint notice for an open rope
and for a free one. -/
theorem witness_RopesAreConfigured :
    let notice (s : State) : State := s.setTile 0 { Tile.init with taintWait := [0] }
    (ready.flag pgRope PAGE_CTRL.LOCK = false ∧ ready.ropesOn = false ∧
      ((ready.put pgRope ROPE_CFG.FRAME_ROWS 9).put pgRope ROPE_CFG.FREEZE 0).ropeCheck ≠ 0 ∧ poolable.ropesOn = false ∧
      ((poolable.put pgRope ROPE_CFG.FRAME_ROWS 9).put pgRope ROPE_CFG.FREEZE 0).ropeCheck = 0 ∧
      poolable.winsTouched poolable.metaBase (tableBytes (poolable.newNearTiles.length * poolable.nearPer +
        poolable.newEdgeStacks.length * poolable.edgePer)) = []) ∧
    (roped.ropesOn = true ∧ roped.allRopesFree = true ∧ roped.flag pgCairn CAIRN_STAT.ACTIVE = false ∧
      opened.ropesOn = true ∧ opened.allRopesFree = false) ∧
    (opened.slotNamed 0 = true ∧ roped.slotNamed 0 = false ∧ roped.layCheck (layOf 0x80010000) = 0 ∧
      roped.layCheck (layOf 0x80000000) ≠ 0) ∧
    ((roped.tile 0).taintWait = [] ∧ ((notice opened).tile 0).taintWait = 0 :: [] ∧ (notice opened).ropeOpenAt 0 = true ∧
      ((notice roped).tile 0).taintWait = 0 :: [] ∧ (notice roped).ropeOpenAt 0 = false) := by decide +kernel

/-- Each rope command in its turn and out of it; rope states, layouts and the logic that fail it. -/
theorem witness_RopeCommandsActOnTheirRope :
    let bytes (b : List Byte) : List Byte := ((opened.cmdBytes (outright b) 3).getD [])
    let turn (s : State) (b : List Byte) : Bool := s.turn (s.cmdOrder (outright b)) none (if ropeOp b = 3 then [0, 1] else [0])
    let f : InFlight := { count := 0, order := 0, cls := 3, tag := 0, body := leNat (ropeBody 2 0 0 0 0), noRecord := false, discard := false }
    let late : State := { opened.setWin 0 { flags := [], flight := [f] } with bridge := { opened.bridge with accepted := 1 } }
    opened.boot.damaged = [] ∧ roped.boot.damaged = [] ∧
    (∀ b ∈ [ropeBody 2 0 0 0 0, ropeBody 4 0 0 0 0, ropeBody 5 0 0 0 0], bytes b = b ∧ turn opened b = true ∧
      turn late b = false ∧ opened.ropeStatus b = stOk ∧ ready.ropesOn = false ∧ ropeMalformed b = false ∧
      (roped.rope 0).state ≠ ropeIsOpen ∧ turn roped b = true) ∧
    (bytes (ropeBody 1 0 0 0 0) = ropeBody 1 0 0 0 0 ∧ roped.ropeStatus (ropeBody 1 0 0 0 0) = stOk ∧
      turn roped (ropeBody 1 0 0 0 0) = true ∧ ropeMalformed (ropeBody 1 0 0 0 15) = false ∧
      (roped.rope 0).state = ropeFree ∧ roped.layValid 15 = false) ∧
    (bytes (ropeBody 3 1 0 0 0) = ropeBody 3 1 0 0 0 ∧ turn opened (ropeBody 3 1 0 0 0) = true ∧
      opened.ropeStatus (ropeBody 3 1 0 0 0) = stOk ∧ (opened.doFork (ropeBody 3 1 0 0 0)).isSome = true) := by decide +kernel

/-- A full page in near frame 0 of tile 0, whose score is 1. -/
def paged (near : Bool) : State :=
  let h := if near then nearHandle 0 0 else edgeHandle 0 0
  { roped with kv := { roped.kv with held := [(h, 0)], seen := [nearHandle 0 0, nearHandle 0 1] } }.setPage 0
    { loc := h, refs := 1, score := 1, stamp := 0, state := pageLive, mslot := 0, full := true, cairn := false, layer := 0,
      group := 0 }

/-- A frame that waits to be zeroed and one that does not; the walk and the epoch on and off; a die short of frames and one
that is not. -/
theorem witness_PagesMoveBetweenTheTiers :
    let h := nearHandle 0 1
    let waits := { roped with kv := { roped.kv with zeroing := [h] } }
    let down := waits.put (pgCdie 0) CDIE_PRST_STAT.STATE prstReset
    let short := { roped with kv := { roped.kv with held := [(nearHandle 0 0, 0), (nearHandle 0 1, 1)] } }
    let left (s : State) : List Nat := (s.frameRowsAt h).filter (fun a => !s.rowServed (.zero h) a)
    let held (s : State) : Bool :=
      !s.jobsOver (.zero h) || (!(left s).isEmpty && handleNear h && s.dieDown (handleTile h / 128))
    (h ∈ waits.kv.zeroing ∧ held waits = false ∧ left waits ≠ [] ∧ (∀ a ∈ left waits, waits.winsTouched a 2048 = []) ∧
      h ∉ roped.kv.zeroing ∧ held down = true) ∧
    (ready.ropesOn = false ∧ (paged true).ropesOn = true ∧ (paged true).livePages = [0] ∧
      (paged true).winsTouched (paged true).metaBase (tableBytes (paged true).pageCount) = []) ∧
    (roped.flag pgRope ROPE_CFG.FREEZE = false ∧ roped.prst 0 = prstUp ∧ roped.lowMark 0 ≤ roped.nfree 0 ∧
      short.nfree 0 < short.lowMark 0) := by decide +kernel

/-- A page that moves up, one that is refused, one that moves down; a move that is over, and one that waits for its die. -/
theorem witness_PagesMoveBetweenTheTiers_moves :
    let up := { paged false with kv := { (paged false).kv with queue := [0] } }
    let full := { up with kv := { up.kv with zeroing := [nearHandle 0 0] } }
    let dn := { paged true with kv := { (paged true).kv with demote := [0] } }
    let e := up.page 0
    let mv := { up with kv := { up.kv with held := up.kv.held ++ [(nearHandle 0 0, 0)], moves := [(0, nearHandle 0 0)], queue := [] } }
    let down := mv.put (pgCdie 0) CDIE_PRST_STAT.STATE prstReset
    (0 ∈ up.livePages ∧ e.state = pageLive ∧ handleNear e.loc = false ∧ up.pageDie e = 0 ∧ up.prst 0 = prstUp ∧
      up.flag pgRope ROPE_CFG.FREEZE = false ∧ up.moveRoom 0 = true ∧ 0 ∈ up.kv.queue ∧ up.lowMark 0 < up.nfree 0 ∧ up.copies 0 = false ∧
      up.winsTouched (32 * ((up.metaBase + 16 * 0) / 32)) 32 = []) ∧
    (full.nfree 0 ≤ full.lowMark 0 ∧ 0 ∈ full.kv.queue ∧ 0 ∈ full.livePages ∧ (full.page 0).state = pageLive) ∧
    (0 ∈ dn.kv.demote ∧ 0 ∈ dn.livePages ∧ (dn.page 0).state = pageLive ∧
      (handleNear (dn.page 0).loc && dn.fencedTile (handleTile (dn.page 0).loc)) = false) ∧
    (roped.livePages = [] ∧ roped.kv.moves = [] ∧ mv.kv.moves.find? (fun m => m.1 == 0) = some (0, nearHandle 0 0) ∧
      (handleNear (mv.page 0).loc && mv.dieDown (handleTile (mv.page 0).loc / 128)) = false ∧
      (handleNear (nearHandle 0 0) && mv.dieDown 0) = false ∧ mv.readersOf 0 = [] ∧ mv.copies 0 = false ∧
      (handleNear (nearHandle 0 0) && down.dieDown 0) = true) ∧
    Clean up (up.metaBase + 16 * 0) 16 := by unfold Clean; decide +kernel

/-- Whatever frame of the two is taken for the promotion, it has been zeroed before. -/
theorem witness_PagesMoveBetweenTheTiers_frame :
    let up := { paged false with kv := { (paged false).kv with queue := [0] } }
    ∃ h, up.newNear 0 = some h ∧ h ∈ up.kv.seen := by
  intro up
  have b : ∀ h, (h = nearHandle 0 0 ∨ h = nearHandle 0 1) → h ∈ up.kv.seen := by
    intro h e; rcases e with rfl | rfl <;> decide +kernel
  have n : up.nearPer = 2 ∧ up.tileBusy 0 = [] := by decide +kernel
  have m : (up.poolTiles 0).filter (fun l => up.canTakePart l && 0 < up.tileFree l) = [0] := by decide +kernel
  have k : up.newNear 0 = up.pickNear 0 none := by unfold State.newNear; rw [m]; simp
  have f : up.pickFree 2 1 (fun _ => true) [] = some (Config.allocStart up.fresh % 2) := by
    simp [State.pickFree, firstFree, List.range_succ]
  have e : up.newNear 0 = some (nearHandle 0 (Config.allocStart up.fresh % 2)) := by
    rw [k, State.pickNear, n.1, n.2, f]; rfl
  rcases Nat.mod_two_eq_zero_or_one (Config.allocStart up.fresh) with h | h
  · exact ⟨nearHandle 0 0, by rw [e, h], b _ (.inl rfl)⟩
  · exact ⟨nearHandle 0 1, by rw [e, h], b _ (.inr rfl)⟩

/-- The part with the rope logic at work, a region for the store chosen, and rope 0 open with entry 0 as its anchor. -/
def storable : State :=
  let s := (opened.put pgCairn CAIRN_BASE_LO.ADDR 0x100).put pgCairn CAIRN_CAP.PAGES 1
  { s with ropes := [(0, { Rope.init with state := ropeIsOpen, av := true, anchor := 0 })] }

/-- The code word of entry 0's header: LIVE, a root of its chain, one page, no score; pinned or not. -/
def headCells (pin : Bool) : List Host.Cell :=
  (604274688, if pin then 0x31 else 0x21) :: (604274710, 1) ::
    (if pin then [(604274720, 0x97), (604274721, 0x32), (604274722, 0xB8), (604274723, 0x2D)]
      else [(604274720, 0x3F), (604274721, 0xE2), (604274722, 0x42), (604274723, 0xBF)])

/-- That part with the store at work; entry 0 is live, of one page, and its header pinned or not. -/
def cairned (pin : Bool) : State :=
  let s := (((storable.put pgCairn CAIRN_CFG.ON 1).put pgCairn CAIRN_STAT.ACTIVE 1).put pgCairn CAIRN_ENTRIES.COUNT 1).put
    pgCairn CAIRN_PAGES.COUNT 1
  { s with mem := headCells pin }

/-- A cairn command: operation, rope, count of tokens. -/
def cairnBody (op r n : Nat) : List Byte :=
  leBytes 1 op ++ [0] ++ leBytes 2 r ++ List.replicate 4 0 ++ leBytes 4 n ++ List.replicate 20 0

/-- The store off, startable and not, still emptying, on; an emptying that is over; a cap that is met, one that an entry with
no score left stands against, and one with no entry to evict. -/
theorem witness_CairnCommandsActOnTheStore :
    let off (s : State) : State := (s.put pgCairn CAIRN_CFG.SIZE 0).put pgCairn CAIRN_CFG.VERIFY 0
    let lag := storable.put pgCairn CAIRN_STAT.ACTIVE 1
    let bare := { cairned false with mem := storable.mem }
    (storable.flag pgCairn PAGE_CTRL.LOCK = false ∧ storable.flag pgCairn CAIRN_CFG.ON = false ∧
      storable.flag pgCairn CAIRN_STAT.ACTIVE = false ∧ (off storable).cairnCheck = 0 ∧
      storable.winsTouched ((off storable).headAt 0) (64 * (off storable).cairnSize) = [] ∧ (off ready).cairnCheck ≠ 0 ∧
      ready.flag pgCairn CAIRN_STAT.ACTIVE = false ∧ lag.flag pgCairn CAIRN_STAT.ACTIVE = true ∧
      lag.flag pgCairn CAIRN_CFG.ON = false ∧ (cairned false).flag pgCairn CAIRN_CFG.ON = true) ∧
    ((lag.put pgCairn CAIRN_STAT.SWEEP 1).flag pgCairn CAIRN_STAT.SWEEP = true ∧ lag.flag pgCairn CAIRN_STAT.SWEEP = false) ∧
    ((cairned false).capMet 0 = true ∧ (cairned false).flag pgCairn CAIRN_STAT.ACTIVE = true ∧
      (cairned false).flag pgCairn CAIRN_STAT.SWEEP = false ∧ (cairned false).capMet 1 = false ∧
      (cairned false).sweepList ((cairned false).get pgCairn CAIRN_CURSOR.NEXT % (cairned false).cairnSize) = 0 :: [] ∧
      ((cairned false).headOf 0).any (fun h => h.evictable && (cairned false).effScore h.score h.stamp == 0) = true ∧
      bare.capMet 1 = false ∧ bare.usedEntries = []) := by decide +kernel

theorem witness_CairnCommandsActOnTheStore_cap :
    (((cairned false).evict 0).put pgCairn CAIRN_CURSOR.NEXT ((0 + 1) % (cairned false).cairnSize)).capMet 1 = true := by
  decide +kernel

theorem witness_CairnCommandsActOnTheStore_head : Clean (cairned false) ((cairned false).headAt 0) 64 := by
  unfold Clean; decide +kernel

/-- Each command of the store in its turn, out of it, while the store is off and with a wrong rope; tokens asleep; a rope
with and without an anchor; the anchor's header pinned and not. -/
theorem witness_CairnCommandsActOnTheStore_commands :
    let turn (s : State) (b : List Byte) : Bool := s.turn (s.cmdOrder (outright b)) none (if cairnOp b ≤ 4 then [0] else [])
    let bare := { cairned false with ropes := opened.ropes }
    let shut := { cairned false with ropes := [] }
    let f : InFlight := { count := 0, order := 0, cls := 3, tag := 0, body := leNat (ropeBody 2 0 0 0 0), noRecord := false, discard := false }
    let late : State := { (cairned false).setWin 0 { flags := [], flight := [f] } with bridge := { storable.bridge with accepted := 1 } }
    (∀ b ∈ [cairnBody 1 0 64, cairnBody 2 0 64, cairnBody 3 0 0, cairnBody 4 0 0, cairnBody 5 0 0],
      bare.cmdBytes (outright b) 4 = some b ∧ bare.flag pgCairn CAIRN_STAT.SWEEP = false ∧ turn bare b = true ∧
      bare.cairnStatus b = stOk ∧ bare.tokensAsleep b = false ∧ storable.flag pgCairn CAIRN_STAT.ACTIVE = false ∧
      storable.flag pgCairn CAIRN_STAT.SWEEP = false ∧ turn storable b = true) ∧
    (∀ b ∈ [cairnBody 1 0 64, cairnBody 2 0 64, cairnBody 3 0 0, cairnBody 4 0 0],
      turn late b = false ∧ shut.cairnStatus b ≠ stOk ∧ turn shut b = true) ∧
    (bare.setDom (.stack 0) 1).tokensAsleep (cairnBody 1 0 64) = true ∧
    (bare.setDom (.stack 0) 1).cairnStatus (cairnBody 1 0 64) = stOk ∧
    ((bare.rope 0).av = false ∧ ∀ v ∈ [false, true], ((cairned v).rope 0).av = true ∧
      (cairnHeadOf ((cairned v).metaBytes ((cairned v).headAt ((cairned v).rope 0).anchor) 64)).pin = v) ∧
    (∀ v ∈ [false, true], (cairned v).winsTouched ((cairned v).headAt ((cairned v).rope 0).anchor) 64 = []) ∧
    bare.usedEntries = [0] ∧ storable.usedEntries = [] := by decide +kernel

theorem witness_CairnCommandsActOnTheStore_anchor : ∀ v ∈ [false, true],
    Clean (cairned v) ((cairned v).headAt ((cairned v).rope 0).anchor) 64 := by unfold Clean; decide +kernel

/-! ## Witnesses: attention -/

/-- The code word of the page table's first entry (a LIVE, full page of score 1 in near frame 0), and that of a root whose
first entry names the block record at 4096. -/
def pageCells : List Host.Cell :=
  [(3, 0x80), (4, 1), (6, 1), (10, 1), (11, 1), (32, 0xED), (33, 0x12), (34, 0xC8), (35, 0xB7)]
def nodeCells : List Host.Cell :=
  [(2305, 0x10), (2311, 0x80), (2336, 0xF4), (2337, 0x71), (2338, 0xE6), (2339, 0xF3)]

/-- Rope 0 with one block, whose page of pair 0 lies in near frame 0 of tile 0; the tile owns slots of its slice, where the
runtime has slots too. -/
def attended : State :=
  let cal : Res := { Res.init with cal := [(0, 1), (ownOPEN, 1)] }
  let s0 := paged true
  { s0 with
    res := [(nmbgId 0 0 0, cal), (nmbgId 0 0 1, cal), (injId 0 0, cal),
      (emchId 0 (edgeChannel 0), { Res.init with cal := [(0, 1)] })]
    kv := { s0.kv with nodes := [(0, { rope := 0, level := 1, block := 0 }), (1, { rope := 0, level := 0, block := 0 })] }
    ropes := [(0, { Rope.init with state := ropeIsOpen, depth := 1, root := 2048 })]
    mem := pageCells ++ nodeCells }

/-- The page table is one row long, so the first node lies right after it. -/
theorem test_first_node : (paged true).nodeAddr 0 = 2048 ∧ (paged true).nodeAddr 1 = 4096 := by decide +kernel

/-- A fork of its block, where no node is left for the record. -/
theorem witness_RopeCommandsActOnTheirRope_noNode :
    let s : State := { attended.put pgRope ROPE_META_LEN.MIB 0 with ropes := [(0, { attended.rope 0 with len := 64 })] }
    let b := ropeBody 3 1 0 64 0
    s.cmdBytes (outright b) 3 = some b ∧ s.turn (s.cmdOrder (outright b)) none [1, 0] = true ∧ s.ropeStatus b = stOk ∧
    (s.doFork b).isNone = true := by decide +kernel

/-- An ATTN of one row with 12 as its `CSEQ`, its table at `t` and its done sector in tile 0. -/
def attnBody (t : Nat) : List Byte :=
  [1, 0] ++ leBytes 2 1 ++ [0, 0, 1, 0] ++ leBytes 4 0 ++ leBytes 4 12 ++ leBytes 6 t ++ leBytes 6 (sramBase 0 + 0x8000) ++
    leBytes 4 0

/-- A row of one query of rope 0, with its query at `a` and its KV in tile 0. -/
def attnRow (a : Nat) : List Byte :=
  leBytes 2 0 ++ [0, 1] ++ leBytes 4 1 ++ leBytes 4 0 ++ leBytes 4 0 ++ leBytes 6 a ++ leBytes 6 (sramBase 0) ++
    List.replicate 36 0

/-- That command in progress, with this row. -/
def attnCmdOf (x : AttnRow) (lost : Bool) : AttnCmd :=
  { id := 0, order := 0, src := outright (attnBody (sramBase 0)), body := attnBody (sramBase 0), parts := [0], called := [],
    ended := [], lost := lost, rows := [x] }

def attending (x : AttnRow) (lost : Bool) : State :=
  { attended with attn := { attended.attn with cmds := [attnCmdOf x lost], next := 1 } }

/-- A command whose table sleeps, one for another tile's missing memory, one that passes; rows that fail their checks, are
served, find no slot, are done and are not. -/
theorem witness_AttentionServesItsRows :
    let b := attnBody (sramBase 0)
    let sleeps := attended.setDom (.stack 0) 1
    let good := rowOf (attnRow (sramBase 0))
    let far := rowOf (attnRow 0)
    let bad := rowOf (List.replicate 64 0)
    let s (x : AttnRow) : State := attending x false
    let a (x : AttnRow) : AttnCmd := attnCmdOf x false
    (attended.cmdBytes (outright b) 5 = some b ∧ field b 0 1 % 16 ≠ 2 ∧ attended.attn.cmds = [] ∧
      attended.attnStatus b = stOk ∧ attended.asleep (attnTable b) 64 = false ∧ attnRows b = 1 ∧
      attended.attnStatus (attnBody 32) = stBadCmd ∧ stBadCmd ≠ stOk ∧ stBadCmd ≠ stTableUE ∧
      attended.attnMalformed (attnBody 32) = true ∧ sleeps.attnMalformed (attnBody 0) = false ∧
      sleeps.reachable (attnTable (attnBody 0)) 64 = true ∧ sleeps.asleep (attnTable (attnBody 0)) 64 = true) ∧
    (∀ x ∈ [good, far, bad, { good with phase := .done }], (s x).attnCmd 0 = some (a x) ∧ (a x).rows[0]? = some x ∧
      (s x).turn (a x).order (some (a x).id) [x.rope] = true) ∧
    (bad.phase = .waiting ∧ (s bad).rowCheck (a bad) bad = stBadCmd ∧ stBadCmd ≠ stOk ∧ stBadCmd ≠ stTableUE) ∧
    (∀ x ∈ [good, far], x.phase = .waiting ∧ (s x).rowCheck (a x) x = stOk ∧
      ∀ e ∈ (s x).rowRanges (a x) x, (s x).asleep e.1 e.2 = false) := by decide +kernel

/-- The row with the state it is served from: its length and tree are taken over. -/
def attnBegun (q : Nat) : AttnRow :=
  let x := rowOf (attnRow q)
  { x with len := ((attending x false).rope x.rope).len, tree := (attending x false).rowTree x }

def attnWrites (q : Nat) : State × KvEnd :=
  let x := rowOf (attnRow q)
  (attending x false).rowWrites (attnCmdOf x false) (attnBegun q)

def attnWork (q : Nat) : Bool :=
  let a := attnCmdOf (rowOf (attnRow q)) false
  let x := { attnBegun q with root := some ((attnWrites q).1.rope (rowOf (attnRow q)).rope).root }
  ((((attnWrites q).1.meetPages x.rope x.blocks (a.pairs ((attnWrites q).1.lay a.mslot))).workItems a x 0)).isSome

/-- The KV of two rows is written; the work of one can be handed out, that of the other meets a resource without a slot. -/
theorem witness_AttentionServesItsRows_near : (attnWrites (sramBase 0)).2 = .done := by decide +kernel

theorem witness_AttentionServesItsRows_far : (attnWrites 0).2 = .done := by decide +kernel

theorem witness_AttentionServesItsRows_work : attnWork (sramBase 0) = true := by decide +kernel

theorem witness_AttentionServesItsRows_noSlot : attnWork 0 = false := by decide +kernel

/-- The sectors those commands read are clean. -/
theorem witness_AttentionServesItsRows_clean :
    Clean attended (attnTable (attnBody (sramBase 0))) 64 ∧
    ∀ q ∈ [sramBase 0, 0], let x := rowOf (attnRow q)
      ∀ e ∈ (attending x false).rowRanges (attnCmdOf x false) x, Clean (attending x false) e.1 e.2 := by
  unfold Clean; decide +kernel

/-- A participant at its call, with work, without, of a lost command, owed an answer; a command with a row left and one
without. -/
theorem witness_AttentionServesItsRows_calls :
    let at_ (s : State) : State :=
      (s.put (pgTile 0) TILE_STAT.RUN 1).setTile 0 { Tile.init with pc := kernelEntry, bmode := true, x := [(10, 12)] }
    let done : AttnRow := { rowOf (attnRow 0) with phase := .done }
    let wait := rowOf (attnRow 0)
    let owed := at_ { attended with attn := { attended.attn with owed := [(0, 12, 2)] } }
    (∀ s ∈ [at_ attended, owed, at_ (attending done false), at_ (attending done true)],
      s.logicalOf 0 = some 0 ∧ s.atKernel 0 12 = true) ∧
    ((at_ attended).callFor 0 12 = none ∧ (at_ attended).owedCall 0 12 = none ∧ owed.owedCall 0 12 = some (0, 12, 2)) ∧
    (∀ v ∈ [false, true], (at_ (attending done v)).callFor 0 12 = some (attnCmdOf done v) ∧
      (at_ (attending done v)).owedCall 0 12 = none ∧ (attnCmdOf done v).lost = v) ∧
    ((attending wait false).attnSettle.attnCmd 0 = some (attnCmdOf wait false) ∧ wait.phase ≠ .done) ∧
    (let s := attending done false
     s.attnSettle.attnCmd 0 = some (attnCmdOf done false) ∧ s.attnSettle.physOf 0 = some 0 ∧
      (s.attnSettle.tile 0).taintWait = [] ∧ (attnCmdOf done false).called = [] ∧ s.attnSettle.asleep (attnTable (attnCmdOf done false).body) 64 = false ∧
      s.attnSettle.asleep (bodyDone (attnCmdOf done false).body) 32 = false) := by decide +kernel

/-- An ACCEPT for rope 0 of the draft at `t`. -/
def acceptBody (t : Nat) : List Byte :=
  [2, 0] ++ leBytes 2 0 ++ leBytes 4 5 ++ leBytes 4 0 ++ leBytes 4 12 ++ leBytes 6 t ++ leBytes 6 (sramBase 0 + 0x8000) ++
    leBytes 4 0

/-- The code words of a draft table at key `k`: the first candidate is 5, its parent 0xFF. -/
def draftCells (k : Nat) : List Host.Cell :=
  [(k, 5), (k + 32, 0xAE), (k + 33, 0x39), (k + 34, 0x9C), (k + 35, 0x0E), (k + 576, 0xFF), (k + 608, 0xB9), (k + 609, 0x8F),
    (k + 610, 0xE6), (k + 611, 0x2F)]

/-- Rope 0 with a draft of one position, written for the one pair; draft tables in stack 0 and in tile 0. -/
def drafted : State := { attended with
  mem := pageCells ++ nodeCells ++ draftCells (sectorKey 0x8000000) ++ draftCells (sectorKey (sramBase 0))
  ropes := [(0, { attended.rope 0 with xlen := 1, draft := [(0, 0)] })] }

/-- A draft in its turn and out of it; a body that breaks its format, a rope without a draft; a table asleep; a draft that
is judged. -/
def draftTurn (s : State) (b : List Byte) : Bool := s.turn (s.cmdOrder (outright b)) none [field b 2 2 % 4096]

theorem witness_DraftsAreAccepted :
    let b := acceptBody (sramBase 0)
    drafted.cmdBytes (outright b) 5 = some b ∧ field b 0 1 % 16 = 2 ∧ draftTurn drafted b = true ∧
      drafted.acceptStatus b = stOk ∧ drafted.asleep (acceptTable b) 576 = false ∧ drafted.asleep (bodyDone b) 32 = false := by
  decide +kernel

theorem witness_DraftsAreAccepted_stopped :
    let b := acceptBody (sramBase 0)
    let f : InFlight := { count := 0, order := 0, cls := 3, tag := 0, body := leNat (ropeBody 2 0 0 0 0), noRecord := false, discard := false }
    let late : State := { drafted.setWin 0 { flags := [], flight := [f] } with bridge := { drafted.bridge with accepted := 1 } }
    draftTurn late b = false ∧
    (draftTurn drafted (acceptBody 8) = true ∧ drafted.acceptStatus (acceptBody 8) = stBadCmd) ∧
    (draftTurn attended b = true ∧ attended.acceptStatus b = stRopeState ∧ stRopeState ≠ stOk ∧ stRopeState ≠ stTokenUE ∧
      attended.asleep (acceptTable b) 576 = false ∧ attended.asleep (bodyDone b) 32 = false) := by decide +kernel

theorem witness_DraftsAreAccepted_asleep :
    let sleeps := drafted.setDom (.stack 0) 1
    let b := acceptBody 0x8000000
    draftTurn sleeps b = true ∧ sleeps.acceptStatus b = stOk ∧
      sleeps.reachable (acceptTable b) 576 = true ∧ sleeps.asleep (acceptTable b) 576 = true := by
  decide +kernel

theorem witness_DraftsAreAccepted_pages :
    drafted.acceptsEnd.attn.accepts = [] ∧ (drafted.lay (drafted.rope 0).mslot).pairs = 1 ∧
    (∀ e ∈ drafted.pagesBetween 0 0 ((drafted.rope 0).len / 64) (((drafted.rope 0).len + (drafted.rope 0).xlen - 1) / 64),
      (drafted.page e.2).state ≠ pageMoving ∧ drafted.copies e.2 = false ∧
      (handleNear (drafted.page e.2).loc && drafted.dieDown (handleTile (drafted.page e.2).loc / 128)) = false) := by
  decide +kernel

theorem witness_DraftsAreAccepted_busy :
    let s : State := { drafted with kv := { drafted.kv with copies := [⟨0, 0, 0, 0, 1⟩] } }
    let b := acceptBody (sramBase 0)
    draftTurn s b = true ∧ s.acceptStatus b = stOk ∧ s.asleep (acceptTable b) 576 = false ∧
    s.asleep (bodyDone b) 32 = false ∧ s.copies 0 = true ∧
    (s.pagesBetween 0 0 0 0).map (·.2) = [0] := by decide +kernel

theorem witness_DraftsAreAccepted_clean : Clean drafted (acceptTable (acceptBody (sramBase 0))) 576 := by
  unfold Clean; decide +kernel

end Sys2Proof.Tests
end

section
/-! The queue of commands: one equation of `step` for each shape of the queue. -/

namespace Sys2Proof.Machine

theorem step_of_pending_cons {s : State} {c : Instr} {rest : List Instr} (h : s.pending = c :: rest) :
    step s = exec c { s with pending := rest } := by
  unfold step
  rw [h]

theorem step_of_pending_nil {s : State} (h : s.pending = []) : step s = .next s.idleTick := by
  unfold step
  rw [h]

/-- Settles O1: `step` splits on the queue, and the idle tick is the one that advances MGCLK alone (assumption log 1). -/
theorem stepRunsTheFrontCommand : Obligations.StepRunsTheFrontCommand := by
  unfold Obligations.StepRunsTheFrontCommand
  constructor
  · intro c rest s hfront
    exact step_of_pending_cons hfront
  · intro s hempty
    rw [step_of_pending_nil hempty, State.idleTick]

end Sys2Proof.Machine
end

section
/-! The byte stores stay in canonical form: every command's meaning keeps `State.Ok`, so every step does. -/

namespace Sys2Proof.Machine

variable {pend : List Instr}

/-- An outcome answers a state with the queue `pend` and canonical byte stores, if it answers a state. -/
def OutcomeOk (pend : List Instr) : Host.Outcome State Fault Refusal → Prop
  | .next s => s.Ok pend
  | _ => True

theorem outcomeOk_guard {c : Prop} [Decidable c] {s : State} (h : s.Ok pend) :
    OutcomeOk pend (if c then .next s else .fault .illFormed) := by
  split
  · exact h
  · trivial

theorem exec_keeps {s : State} (hs : s.Ok pend) (c : Instr) : OutcomeOk pend (exec c s) :=
  match c with
  | .registerWrite .. => State.afterPower_keeps _ (s.regWrite_keeps _ _ _ hs)
  | .pairLoRead .. => s.pairLoRead_keeps _ _ hs
  | .pageLock .. => ite_keeps (s.writeLock_keeps _ _ hs) hs
  | .softReset .. | .tileSoftReset .. | .nmemSoftReset .. | .erowSoftReset .. | .ropeSoftReset | .hprtSoftReset ..
    | .hbrgSoftReset | .subwSoftReset .. | .dmaSoftReset .. => s.softReset_keeps _ hs
  | .softResetDone .. => ite_keeps (s.softDone_keeps _ hs) hs
  | .errAckFirst .. => ite_keeps (s.ackFirst_keeps _ hs) hs
  | .errAckClrC .. => ite_keeps (s.ackC_keeps _ hs) hs
  | .errAckClrU .. => ite_keeps (s.ackU_keeps _ hs) hs
  | .dieLogFlush .. => s.flushLog_keeps _ hs
  | .bundleIssue .. => ite_keeps (s.bundleStep_keeps _ hs) hs
  | .scalarInstruction .. => ite_keeps (s.scalarStep_keeps _ hs) hs
  | .mret .. => s.runCtl_keeps _ _ hs (s.ctlMret_keeps _ _ hs)
  | .bndl .. | .sclr .. => s.runCtl_keeps _ _ hs (s.ctlJump_keeps _ _ _ _ _ hs)
  | .fenceT .. => s.runCtl_keeps _ _ hs (Tile.ctlFence_keeps _ _ _ hs)
  | .fenceTRelease .. => s.fenceRelease_keeps _ hs
  | .vld .. | .vst .. | .nmrd .. | .nmwr .. | .xrd .. | .xwr .. | .nsnd .. | .rowc .. | .amac .. | .adist ..
    | .apld .. | .awarm .. | .acool .. | .vadd .. | .vsub .. | .vmul .. | .vfma .. | .vmin .. | .vmax .. | .vabs ..
    | .vneg .. | .vcmpEq .. | .vcmpLt .. | .vcmpLe .. | .vsel .. | .vexp2 .. | .vexp .. | .vrcp .. | .vrsqrt ..
    | .vrsum .. | .vrmax .. | .vacc .. | .vtoa .. | .vcvt .. | .vcvtInt32 .. | .vqmx .. | .tkclr .. | .tkins ..
    | .tkmrg .. | .tkrd .. | .tkswap .. => s.runOp_keeps _ _ hs
  | .transferComplete .. => s.xferComplete_keeps _ _ hs
  | .transferLost .. => s.xferLost_keeps _ _ hs
  | .apldComplete .. => s.loadDone_keeps _ _ hs
  | .rampStep .. => s.rampStep_keeps _ hs
  | .arrayIdleTimeout .. => s.arrayIdle_keeps _ hs
  | .arrayResultWrite .. => s.arrayResult_keeps _ hs
  | .tileStart .. => s.tileStart_keeps _ hs
  | .tileHalt .. => s.tileHalt_keeps _ hs
  | .tileHaltDone .. => s.tileHaltDone_keeps _ hs
  | .calendarSlot .. => State.settle_keeps _ (State.calendarSlot_keeps _ _ (s.meetCopies_keeps _ hs))
  | .arbCalLoad .. => s.calLoad_keeps _ hs
  | .arbCalLoadDone .. => s.calLoadDone_keeps _ hs
  | .arbCalSwitch .. => s.calSwitch_keeps _ hs
  | .calResourceSwitch .. => State.settle_keeps _ (s.resSwitch_keeps _ hs)
  | .refreshDebtTick .. => s.debtTick_keeps _ _ _ _ hs
  | .nmemClrLate .. => s.clrLate_keeps _ _ hs
  | .nmemClrScrub .. => s.clrScrub_keeps _ _ hs
  | .rowCopy .. | .rowFill .. | .rowAnd .. | .rowOr .. | .rowXor .. | .rowNot .. => s.rowDirect_keeps _ _ hs
  | .rowStep .. => s.rowStep_keeps _ hs
  | .bankSetVisit .. => s.bankVisit_keeps _ _ hs
  | .edgeRowClose .. => s.edgeClose_keeps _ _ _ _ hs
  | .sumtModeWrite .. => s.summitMode_keeps _ _ _ hs
  | .sumtModeDone .. | .mgmtClrTaint | .mgmtClrLost => s.put_keeps _ _ _ hs
  | .emcEnable .. => s.emcEnabled_keeps _ hs
  | .echkStart .. => s.checkStart_keeps _ _ hs
  | .echkStop .. => s.checkStop_keeps _ _ hs
  | .echkDone .. => s.checkDone_keeps _ _ hs
  | .flitHeadRoute .. => outcomeOk_guard (s.routePacket_keeps _ _ _ _ hs)
  | .nsndDeliver .. => s.deliver_keeps _ _ hs
  | .d2dFrameReceive .. => outcomeOk_guard (s.linkFrame_keeps _ _ _ hs)
  | .d2dNakReceive .. => s.linkNak_keeps _ _ hs
  | .d2dNakRepeat .. => ite_keeps (s.sendNak_keeps _ hs) hs
  | .seamRetrain .. => s.seamRetrains_keeps _ _ hs
  | .trainingFrameReceive .. => s.seamRetrain_keeps _ _ hs
  | .seamProposalsKnown .. => s.seamProposals_keeps _ _ _ _ hs
  | .seamTestDone .. => s.seamTested_keeps _ _ hs
  | .seamAttemptTimeout .. => s.seamTimeout_keeps _ _ hs
  | .routeTableRewrite .. => s.rewriteRoutes_keeps _ hs
  | .stallDrop .. => s.dropStalled_keeps _ hs
  | .prstReq .. => State.afterPower_keeps _ (s.prstBegin_keeps _ hs)
  | .prstDrainEnd .. => State.afterPower_keeps _ (s.prstDrained_keeps _ hs)
  | .prstRelease .. => s.prstFree_keeps _ hs
  | .prstReleasingDone .. => s.prstFreed_keeps _ _ hs
  | .bnetRgLoad => s.groupLoad_keeps hs
  | .bnetRgLoadDone => s.groupLoaded_keeps hs
  | .reductionContribution .. => s.contribute_keeps _ _ hs
  | .reductionRoundTimeout .. => s.roundTimeout_keeps _ hs
  | .ropeOn .. | .ropeOff .. => s.writeRopeCfg_keeps _ hs
  | .layoutValidWrite .. => s.writeLayout_keeps _ _ hs
  | .ropeSelWrite .. => s.ropeSelect_keeps _ _ hs
  | .ropeOpen .. => State.ropeCommand_keeps _ _ _ (s.meetCopies_keeps _ hs)
  | .ropeClose .. | .ropeFork .. | .ropeTrunc .. | .ropeSet .. => s.ropeCommand_keeps _ _ hs
  | .frameZeroDone .. => s.frameZeroed_keeps _ hs
  | .agingWalk => s.agingWalk_keeps hs
  | .ropeEpochEnd => s.epochEnd_keeps hs
  | .demotionSweep .. => s.demotionSweep_keeps _ hs
  | .pageMoveStart .. => s.moveStart_keeps _ _ hs
  | .pageMoveComplete .. => s.moveDone_keeps _ hs
  | .taintNotice .. => s.taintNotice_keeps _ hs
  | .cairnOn .. | .cairnOff .. => s.writeCairnCfg_keeps _ hs
  | .cairnEmptyDone => s.cairnEmptied_keeps hs
  | .cairnMatch .. | .cairnPublish .. | .cairnPin .. | .cairnUnpin .. | .cairnFlush .. => s.cairnCommand_keeps _ _ hs
  | .cairnSweep need =>
    match need with
    | .cap p => s.sweep_keeps (fun t => t.capMet p.toNat) none hs
    | .frame n => s.frameSweep_keeps true n none hs
  | .attn .. => s.attnAccept_keeps _ hs
  | .attnRowCheck .. => s.attnRowCheck_keeps _ _ hs
  | .attnKernelCall .. => s.kernelCall_keeps _ _ hs
  | .attnKernelTimeout .. => s.kernelTimeout_keeps _ _ hs
  | .attnRowTimeout .. => s.rowTimeout_keeps _ _ hs
  | .attnComplete .. => State.attnComplete_keeps _ _ (s.attnSettle_keeps hs)
  | .accept .. => State.acceptRun_keeps _ _ (s.acceptsEnd_keeps hs)
  | .fprtEnable .. => s.portOn_keeps _ hs
  | .fprtDisable .. => s.portOff_keeps _ hs
  | .fecLock .. => s.portLock_keeps _ _ hs
  | .phyTimeout .. => s.phyExpired_keeps _ hs
  | .halfLockTimeout .. => s.halfLocked_keeps _ _ hs
  | .waitTimeout .. => s.waitExpired_keeps _ hs
  | .exchangeSendTimer .. | .ringUpdateTimer .. => ite_keeps (s.sendControl_keeps _ _ hs) hs
  | .exchangeReceive .. => s.exchanged_keeps _ _ _ hs
  | .fecLockLoss .. | .fprtRetrain .. | .hprtRetrain .. => s.retrainPort_keeps _ hs
  | .fprtClr .. | .hprtClr .. => s.clearPortCounters_keeps _ hs
  | .fabricFrameReceive .. => outcomeOk_guard (s.portFrameIn_keeps _ _ _ _ _ hs)
  | .fabricNakReceive .. => s.portNaked_keeps _ _ hs
  | .fabricNakRepeat .. => ite_keeps (s.portNak_keeps _ hs) hs
  | .lpReq .. => s.lpAsked_keeps _ hs
  | .lpAck .. => s.lpAgreed_keeps _ hs
  | .lpNak .. => s.lpRefused_keeps _ hs
  | .lpExit .. => s.lpExited_keeps _ hs
  | .ringUpdate .. => s.ringUpdated_keeps _ _ hs
  | .fprtRingWrite .. => s.writeRing_keeps _ _ _ hs
  | .fabricPacketReceive .. => outcomeOk_guard (s.fabricPacket_keeps _ _ _ hs)
  | .hostMemoryRead .. | .hostRegisterRead .. | .hostRegisterWrite .. =>
    State.afterPower_keeps _ (s.hostArrives_keeps _ _ _ hs)
  | .hostMemoryWrite .. | .hostCompletionReceive .. =>
    outcomeOk_guard (State.afterPower_keeps _ (s.hostArrives_keeps _ _ _ hs))
  | .hostRequestTimeout .. => State.afterPower_keeps _ (s.hostTimeout_keeps _ _ hs)
  | .deviceRequestTimeout .. => s.requestLost_keeps _ _ hs
  | .devicePacketPortTimeout .. => s.packetTimeout_keeps _ hs
  | .subwEnable .. => s.winEnable_keeps _ hs
  | .subwDisable .. => s.winDisable_keeps _ hs
  | .commandAccept => State.commandAccept_keeps _ (s.meetCopies_keeps _ hs)
  | .nopCommand .. => s.nopRun_keeps _ _ hs
  | .subwCqHeadWrite .. => s.cqHead_keeps _ _ hs
  | .dmaDescriptor .. =>
    outcomeOk_guard (State.dmaReplies_keeps _ _ _ (State.settle_keeps _ (s.dmaDescriptor_keeps _ hs)))
  | .dmaResume .. => s.dmaResume_keeps _ hs
  | .dmaFlush .. => s.dmaFlush_keeps _ hs
  | .tileFence .. => s.tileFence_keeps _ _ hs
  | .tileErrClr .. => s.tileErrClr_keeps _ hs
  | .mgmtLogSelWrite .. => s.logSelect_keeps _ _ hs
  | .mgmtLogTailWrite .. => s.logTail_keeps _ hs
  | .mgmtRestart .. => s.mgmtRestart_keeps _ _ hs
  | .mgmtRestartDone => s.mgmtRestarted_keeps hs
  | .domainEntry .. => s.domainEntry_keeps _ _ hs
  | .wakeComparatorTrip .. => State.afterPower_keeps _ (s.wakeTrip_keeps _ _ hs)
  | .domainExitComplete .. => State.afterPower_keeps _ (s.domainExited_keeps _ hs)
  | .pwrReqHoldOn .. | .pwrReqOff .. | .pwrReqAuto .. => State.afterPower_keeps _ (s.writeReq_keeps _ _ hs)
  | .lattolWrite .. => State.afterPower_keeps _ (s.writeLattol_keeps _ _ hs)
  | .sensorSample .. => s.sensorSample_keeps _ _ hs
  | .thrmClrFault => s.clearFault_keeps hs
  | .forecastDecision => s.forecastDecision_keeps hs
  | .flowTachPulse => s.tachPulse_keeps hs
  | .flowInputCheck .. => s.flowCheck_keeps _ _ hs
  | .flowUpdate => s.flowUpdate_keeps hs
  | .stopCleared => s.stopCleared_keeps hs
  | .lowCleared => s.lowCleared_keeps hs
  | .shutdown => s.shutdownBegin_keeps hs
  | .shutdownComplete => State.afterPower_keeps _ (s.shutdownEnd_keeps hs)
  | .thermTrip .. => s.thermTrip_keeps _ hs
  | .clkSnap => s.snap_keeps hs
  | .clockFailure .. => s.clockFail_keeps _ hs
  | .pkgReset => s.pkgResetWrite_keeps hs
  | .packageReset => s.dueReset_keeps hs
  | .resetNAssert => s.resetPin_keeps hs
  | .pwrOkChange .. => s.pwrOkPin_keeps _ hs
  | .powerOnResetRelease => s.porRelease_keeps hs
  | .resetRelease .. => s.stepRelease_keeps _ hs
  | .b0Clocks .. => s.stepClocks_keeps _ _ _ hs
  | .dieDiscovery .. => s.stepDiscovery_keeps _ hs
  | .linkTraining .. => s.stepTraining_keeps _ hs
  | .edgeInit .. => s.stepEdge_keeps _ hs
  | .mgmtFw .. => s.stepMain_keeps _ hs
  | .tileFw => s.stepTiles_keeps hs
  | .topology => s.stepTopology_keeps hs
  | .ready => s.stepLast_keeps hs
  | .bootChunkReceive .. => outcomeOk_guard (s.chunkIn_keeps _ _ _ _ hs)
  | .bootEndMarker => s.endMarker_keeps hs
  | .bootBitmapTimeout => s.mapTimeout_keeps hs
  | .bootPassDone => s.passDone_keeps hs
  | .tileStartupCheck .. => s.startupCheck_keeps _ _ hs
  | .bootReload => s.reload_keeps hs
  | .bootReloadDone => s.reloadDone_keeps hs
  | .bootAccept => s.acceptHold_keeps hs
  | .nbrWaitTimeout => s.nbrTimeout_keeps hs
  | .flashErase | .flashProgram | .flashCheck | .flashRead => s.flashStart_keeps _ hs
  | .flashCommandDone .. => s.flashDone_keeps _ hs
  | .attGo => s.attStart_keeps hs
  | .attReportDone => s.attDone_keeps hs
  | .smbRegisterRead .. => s.smbRead_keeps _ _ hs
  | .smbRegisterWrite .. => s.smbWrite_keeps _ _ _ hs
  | .smbStatusRead .. => s.smbStatusOut_keeps _ hs
  | .smbClockTimeout => hs
  | .pmbGo .. => s.writeReg_keeps _ _ _ _ hs
  | .pmbDone .. => s.pmbEnd_keeps _ _ hs
  | .jtagBypass | .trstNAssert => s.setTap_keeps _ hs
  | .jtagIdcode | .jtagExtest | .jtagClamp | .jtagHighz => State.emit_keeps _ _ (s.setTap_keeps _ hs)
  | .jtagSamplePreload .. => State.emit_keeps _ _ (s.setTap_keeps tapSample hs)
  | .domainEntryComplete .. => State.afterPower_keeps _ (s.domainEntered_keeps _ hs)
  | .vddAonOrVio18Low => s.powerOnReset_keeps _ hs

/-- A step takes one command from the queue and keeps the byte stores canonical. -/
theorem step_keeps {s : State} (hmem : memWf s.mem = true) (hflash : memWf s.flash = true) :
    OutcomeOk s.pending.tail (step s) := by
  cases hp : s.pending with
  | nil =>
    rw [step_of_pending_nil hp]
    exact s.idleTick_keeps ⟨hp, hmem, hflash⟩
  | cons c rest =>
    rw [step_of_pending_cons hp, List.tail_cons]
    have hs : State.Ok rest { s with pending := rest } := ⟨rfl, hmem, hflash⟩
    exact exec_keeps hs c

/-- Settles O4: no command's meaning leaves the canonical form (`exec_keeps`), and no more does the idle tick. -/
theorem everyStepKeepsStoresCanonical : Obligations.EveryStepKeepsStoresCanonical := by
  unfold Obligations.EveryStepKeepsStoresCanonical
  intro s s' ⟨hmem, hflash⟩ hstep
  have hok := step_keeps hmem hflash
  rw [hstep] at hok
  exact ⟨hok.memWf, hok.flashWf⟩

/-- Settles O3: both stores list nothing at reset. -/
theorem resetStoresAreCanonical : Obligations.ResetStoresAreCanonical := by
  unfold Obligations.ResetStoresAreCanonical
  exact ⟨memWf_nil, memWf_nil⟩

end Sys2Proof.Machine
end

section
/-! The state after reset: every map is empty, so every accessor gives its default. -/

namespace Sys2Proof.Machine

theorem get_reset (p : PageRef) (f : Field) : State.reset.get p f = resetOf p f := rfl

/-- A field other than `PAGE_CTRL.EN` has the reset value of its table on every page. -/
theorem resetOf_of_ne {p : PageRef} {f : Field} (h : f ≠ PAGE_CTRL.EN) : resetOf p f = f.reset := if_neg h

theorem tileRun_reset (t : Nat) : State.reset.tileRun t = runIdle :=
  resetOf_of_ne (p := pgTile t) (f := TILE_STAT.RUN) (by decide)

theorem issues_reset (t : Nat) : State.reset.issues t = false := by
  have hrun : (runIdle == runRunning) = false := by decide
  simp [State.issues, tileRun_reset, hrun]

theorem codeWordAt_reset (a : Nat) : State.reset.codeWordAt a = List.replicate 36 0 := by
  rw [State.codeWordAt, memRead_eq]
  exact List.map_const' ..

theorem decodeSector_zeros : decodeSector (List.replicate 36 0) = (.good, List.replicate 32 0) := by
  decide +kernel

/-- Settles O2: each accessor reads the default of an empty map, and a code word of zeros is a good sector. -/
theorem resetLeavesResetValues : Obligations.ResetLeavesResetValues := by
  unfold Obligations.ResetLeavesResetValues
  refine ⟨get_reset, fun _ => rfl, fun t => ⟨tileRun_reset t, issues_reset t⟩, fun a => ?_, fun _ => rfl, rfl, rfl⟩
  rw [State.sector, codeWordAt_reset, decodeSector_zeros]

end Sys2Proof.Machine
end

section
/-! Register fields by their places: which writes of fields meet, and what a run of writes leaves. -/

namespace Sys2Proof.Machine

/-- The place of a field on its page: its register's offset in bits, and its lowest bit. -/
def Field.place (f : Field) : Nat := 32 * f.off + f.lo

/-- The number of a page within the register range. -/
def pageNumber (p : PageRef) : Nat := 2 ^ 10 * p.slot.toNat + p.page.toNat

theorem fieldKey_eq (p : PageRef) (f : Field) : fieldKey p f = 2 ^ 17 * pageNumber p + f.place := by
  simp only [fieldKey, pageKey, pageNumber, Field.place]
  omega

/-- Two fields lie apart on their pages, whichever pages those are. -/
def Field.apart (f g : Field) : Bool := f.place != g.place && decide (f.place < 2 ^ 17) && decide (g.place < 2 ^ 17)

theorem fieldKey_ne_of_apart {f g : Field} (p q : PageRef) (h : f.apart g = true) : fieldKey q g ≠ fieldKey p f := by
  simp only [Field.apart, Bool.and_eq_true, bne_iff_ne, decide_eq_true_eq] at h
  rw [fieldKey_eq, fieldKey_eq]
  omega

/-- A field that lies apart from the one written keeps its value. -/
theorem State.get_put_apart (s : State) (p q : PageRef) (f g : Field) (v : Nat) (h : f.apart g = true) :
    (s.put p f v).get q g = s.get q g :=
  s.get_put_ne p q f g v (fieldKey_ne_of_apart p q h)

/-- A counter raised by one stops at all ones. -/
theorem State.get_count_self (s : State) (p : PageRef) (f : Field) (n : Nat) :
    (s.count p f n).get p f = min (s.get p f + n) (2 ^ (f.hi + 1 - f.lo) - 1) := by
  rw [State.count, State.get_put_of_lt]
  have : 0 < 2 ^ (f.hi + 1 - f.lo) := by positivity
  omega

theorem State.get_count_apart (s : State) (p q : PageRef) (f g : Field) (n : Nat) (h : f.apart g = true) :
    (s.count p f n).get q g = s.get q g :=
  s.get_put_apart p q f g _ h

@[simp] theorem State.flag_putFlag_self (s : State) (p : PageRef) (f : Field) (b : Bool) (h : f.lo ≤ f.hi) :
    (s.putFlag p f b).flag p f = b := by
  have hw : 2 ^ 1 ≤ 2 ^ (f.hi + 1 - f.lo) := Nat.pow_le_pow_right (by decide) (by omega)
  rw [State.flag, State.putFlag, State.get_put_of_lt]
  · cases b <;> rfl
  · exact Nat.lt_of_lt_of_le (by cases b <;> decide) hw

end Sys2Proof.Machine

namespace Sys2Proof.Say

open Sys2Proof.Machine

/-! ## What changes at most -/

theorem RegsBut.of_regs {l : Fields} {s t : State} (h : t.regs = s.regs) : RegsBut l s t :=
  fun q g _ => State.get_congr h q g

theorem RegsBut.of_put (s : State) (p : PageRef) (f : Field) (v : Nat) : RegsBut [(p, f)] s (s.put p f v) :=
  fun q g h => s.get_put_ne p q f g v (h (p, f) List.mem_cons_self)

theorem RegsBut.mono {l m : Fields} {s t : State} (h : RegsBut l s t) (hsub : l ⊆ m) : RegsBut m s t :=
  fun q g hk => h q g (fun e he => hk e (hsub he))

theorem RegsBut.trans {l : Fields} {s t u : State} (h : RegsBut l s t) (h' : RegsBut l t u) : RegsBut l s u :=
  fun q g hk => (h' q g hk).trans (h q g hk)

/-- One more field written. -/
theorem RegsBut.put {l : Fields} {s t : State} (h : RegsBut l s t) {p : PageRef} {f : Field} (hf : (p, f) ∈ l) (v : Nat) :
    RegsBut l s (t.put p f v) :=
  h.trans ((RegsBut.of_put t p f v).mono (by simpa using hf))

theorem OnlyRegs.refl (l : Fields) (s : State) : OnlyRegs l s s := ⟨rfl, RegsBut.of_regs rfl⟩

/-- One more field written, and still nothing but the listed fields has changed. -/
theorem OnlyRegs.put {l : Fields} {s t : State} (h : OnlyRegs l s t) {p : PageRef} {f : Field}
    (hf : (p, f) ∈ l) (v : Nat) : OnlyRegs l s (t.put p f v) := by
  obtain ⟨heq, hbut⟩ := h
  refine ⟨?_, hbut.put hf v⟩
  rw [State.put_frame t, heq]

end Sys2Proof.Say
end

section
/-! The lock and the error registers of a page (02 R35, R39, R42, R46, R47). -/

namespace Sys2Proof.Machine

open Sys2Proof.Say

/-! ## The lock -/

theorem writeLock_true_of_unlocked {s : State} {p : PageRef} (h : s.flag p PAGE_CTRL.LOCK = false) :
    s.writeLock p true = s.putFlag p PAGE_CTRL.LOCK true := by
  simp [State.writeLock, h]

theorem writeLock_true_of_locked {s : State} {p : PageRef} (h : s.flag p PAGE_CTRL.LOCK = true) :
    s.writeLock p true = s := by
  simp [State.writeLock, h]

/-! ## The acknowledgement -/

/-- The registers that `PAGE_ERR_ACK.FIRST` clears in the header. -/
def firstErrorFields (p : PageRef) : Fields :=
  [(p, PAGE_ERR_FIRST.VALID), (p, PAGE_ERR_FIRST.CODE), (p, PAGE_ERR_FIRST.SYNDROME), (p, PAGE_ERR_NEXT.COUNT)]

/-- The registers of the captured address, on a page that has them. -/
def capturedAddrFields (p : PageRef) : Fields :=
  match pageAt p with
  | some (.nmem, _) => [(p, NMEM_ERR_ADDR_LO.ADDR), (p, NMEM_ERR_ADDR_HI.ADDR), (p, NMEM_ERR_ADDR_HI.SRC)]
  | some (.emc, _) => [(p, EMC_ERR_ADDR_LO.ADDR), (p, EMC_ERR_ADDR_HI.ADDR), (p, EMC_ERR_ADDR_HI.SRC)]
  | _ => []

/-- The state with every listed field at zero. -/
def State.zeroFields (s : State) (l : Fields) : State := l.foldl (fun s e => s.put e.1 e.2 0) s

theorem OnlyRegs.zeroFields_of_subset {m : Fields} {s t : State} (h : OnlyRegs m s t) (l : Fields) (hl : l ⊆ m) :
    OnlyRegs m s (t.zeroFields l) := by
  induction l generalizing t with
  | nil => exact h
  | cons e l ih =>
    obtain ⟨he, hl⟩ := List.cons_subset.mp hl
    exact ih (h.put he 0) hl

theorem onlyRegs_zeroFields (s : State) (l : Fields) : OnlyRegs l s (s.zeroFields l) :=
  OnlyRegs.zeroFields_of_subset (OnlyRegs.refl l s) l (List.Subset.refl l)

theorem get_zeroFields_of_apart (s : State) (l : Fields) (p : PageRef) (f : Field)
    (h : ∀ e ∈ l, e.2.apart f = true) : (s.zeroFields l).get p f = s.get p f := by
  induction l generalizing s with
  | nil => rfl
  | cons e l ih =>
    obtain ⟨he, hl⟩ := List.forall_mem_cons.mp h
    exact (ih (s.put e.1 e.2 0) hl).trans (s.get_put_apart e.1 p e.2 f 0 he)

/-- Fields that lie apart from one another all read zero. -/
theorem get_zeroFields_of_mem (s : State) (l : Fields) (h : l.Pairwise (fun a b => b.2.apart a.2 = true)) :
    ∀ e ∈ l, (s.zeroFields l).get e.1 e.2 = 0 := by
  induction l generalizing s with
  | nil => simp
  | cons a l ih =>
    obtain ⟨ha, hl⟩ := List.pairwise_cons.mp h
    refine List.forall_mem_cons.mpr ⟨?_, ih _ hl⟩
    calc (s.zeroFields (a :: l)).get a.1 a.2
        = (s.put a.1 a.2 0).get a.1 a.2 := get_zeroFields_of_apart _ l a.1 a.2 ha
      _ = 0 := by simp

/-- `ackFirst` clears the first error, its count and the captured address. -/
theorem ackFirst_eq_zeroFields (s : State) (p : PageRef) :
    s.ackFirst p = s.zeroFields (firstErrorFields p ++ capturedAddrFields p) := by
  unfold State.ackFirst capturedAddrFields
  cases hp : pageAt p with
  | none => rfl
  | some e =>
    obtain ⟨t, i⟩ := e
    cases t <;> rfl

theorem firstError_fields_apart (p : PageRef) :
    (firstErrorFields p ++ capturedAddrFields p).Pairwise (fun a b => b.2.apart a.2 = true) := by
  unfold capturedAddrFields
  split <;> simp only [firstErrorFields, List.cons_append, List.nil_append, List.append_nil, List.pairwise_cons,
    List.forall_mem_cons, List.not_mem_nil, false_implies, implies_true, List.Pairwise.nil, and_true] <;> decide

theorem exec_pageLock {s : State} {p : PageRef} (hok : s.pageStatus p = stOk) :
    exec (.pageLock p) s = .next (s.writeLock p true) :=
  congrArg Host.Outcome.next (if_pos hok)

theorem exec_errAckFirst {s : State} {p : PageRef} (hok : s.pageStatus p = stOk) :
    exec (.errAckFirst p) s = .next (s.ackFirst p) :=
  congrArg Host.Outcome.next (if_pos hok)

theorem exec_errAckClrC {s : State} {p : PageRef} (hok : s.pageStatus p = stOk) :
    exec (.errAckClrC p) s = .next (s.ackC p) :=
  congrArg Host.Outcome.next (if_pos hok)

theorem exec_errAckClrU {s : State} {p : PageRef} (hok : s.pageStatus p = stOk) :
    exec (.errAckClrU p) s = .next (s.ackU p) :=
  congrArg Host.Outcome.next (if_pos hok)

/-- Settles O24: each command is one or several writes of the fields it names. -/
theorem pageLockAndErrorAcknowledge : Obligations.PageLockAndErrorAcknowledge := by
  unfold Obligations.PageLockAndErrorAcknowledge
  intro p s hok
  refine ⟨fun hopen => ?_, fun hlocked => ?_, ?_, ?_, ?_⟩
  · rw [Gives, exec_pageLock hok, writeLock_true_of_unlocked hopen]
    exact ⟨_, rfl, s.flag_putFlag_self _ _ _ (by decide), (OnlyRegs.refl _ s).put List.mem_cons_self _⟩
  · rw [exec_pageLock hok, writeLock_true_of_locked hlocked]
  · rw [Gives, exec_errAckFirst hok, ackFirst_eq_zeroFields]
    exact ⟨_, rfl, onlyRegs_zeroFields s _, get_zeroFields_of_mem s _ (firstError_fields_apart p)⟩
  · exact ⟨_, exec_errAckClrC hok, s.get_put_self p _ 0, (OnlyRegs.refl _ s).put List.mem_cons_self _⟩
  · exact ⟨_, exec_errAckClrU hok, s.get_put_self p _ 0, (OnlyRegs.refl _ s).put List.mem_cons_self _⟩

/-! ## Errors reported -/

/-- The fields by which the error log shows its length and what it lost. -/
def logFields : Fields := [(pgMgmt, MGMT_LOG_HEAD.COUNT), (pgMgmt, MGMT_LOG_LOST.COUNT)]

/-- A state that differs in the log and in two of its fields. -/
def LogOnly (s t : State) : Prop := t = { s with regs := t.regs, log := t.log } ∧ RegsBut logFields s t

theorem logEnter_logOnly (s : State) (r : LogRec) : LogOnly s (s.logEnter r) := by
  unfold State.logEnter
  dsimp only
  split
  · exact ⟨rfl, RegsBut.put (RegsBut.of_regs rfl) (by simp [logFields]) _⟩
  · exact ⟨rfl, RegsBut.put (RegsBut.of_regs rfl) (by simp [logFields]) _⟩

theorem logRecord_logOnly (s : State) (slot : Nat) (r : LogRec) : LogOnly s (s.logRecord slot r) := by
  unfold State.logRecord
  dsimp only
  split
  · split
    · exact ⟨rfl, RegsBut.of_regs rfl⟩
    · exact ⟨rfl, RegsBut.of_regs rfl⟩
  · exact logEnter_logOnly s r

/-- The counter of a kind of error. -/
def errCounter (k : ErrKind) : Field := if k = .c then PAGE_ERR_CNT_C.COUNT else PAGE_ERR_CNT_U.COUNT

/-- What a reported error does to its page: it counts, and is captured or counted behind the first one (02 R46). -/
def State.countError (s : State) (p : PageRef) (k : ErrKind) (code syn : Nat) : State :=
  let s1 := s.count p (errCounter k) 1
  if s1.get p PAGE_ERR_FIRST.VALID = 0 then
    ((s1.put p PAGE_ERR_FIRST.VALID 1).put p PAGE_ERR_FIRST.CODE code).put p PAGE_ERR_FIRST.SYNDROME syn
  else s1.count p PAGE_ERR_NEXT.COUNT 1

section
variable (s : State) (p : PageRef) (k : ErrKind) (code syn addr src : Nat)

/-- A report is the page's counting, with or without a log record. -/
theorem report_cases : s.report p k code syn addr src = s.countError p k code syn ∨
    ∃ slot r, s.report p k code syn addr src = (s.countError p k code syn).logRecord slot r := by
  by_cases h : k = .c ∧ (s.countError p k code syn).get pgMgmt MGMT_LOG_CFG.NO_CE = 1
  · exact .inl (if_pos h)
  · exact .inr ⟨_, _, if_neg h⟩

theorem report_logOnly : LogOnly (s.countError p k code syn) (s.report p k code syn addr src) := by
  obtain h | ⟨slot, r, h⟩ := report_cases s p k code syn addr src
  · rw [h]
    exact ⟨rfl, RegsBut.of_regs rfl⟩
  · rw [h]
    exact logRecord_logOnly _ slot r

/-- A field that lies apart from the log's reads after a report as the page's counting leaves it. -/
theorem get_report (q : PageRef) (f : Field) (h : MGMT_LOG_HEAD.COUNT.apart f = true)
    (h' : MGMT_LOG_LOST.COUNT.apart f = true) :
    (s.report p k code syn addr src).get q f = (s.countError p k code syn).get q f := by
  refine (report_logOnly s p k code syn addr src).2 q f ?_
  simp only [logFields, List.forall_mem_cons, List.not_mem_nil, false_implies, implies_true, and_true]
  exact ⟨fieldKey_ne_of_apart _ _ h, fieldKey_ne_of_apart _ _ h'⟩

theorem get_count_errCounter (f : Field) (h : PAGE_ERR_CNT_C.COUNT.apart f = true)
    (h' : PAGE_ERR_CNT_U.COUNT.apart f = true) : (s.count p (errCounter k) 1).get p f = s.get p f := by
  cases k
  · exact s.get_count_apart p p _ f 1 h
  · exact s.get_count_apart p p _ f 1 h'

theorem countError_of_first (h : s.get p PAGE_ERR_FIRST.VALID = 0) : s.countError p k code syn =
    (((s.count p (errCounter k) 1).put p PAGE_ERR_FIRST.VALID 1).put p PAGE_ERR_FIRST.CODE code).put p
      PAGE_ERR_FIRST.SYNDROME syn :=
  if_pos ((get_count_errCounter s p k _ (by decide) (by decide)).trans h)

theorem countError_of_later (h : s.get p PAGE_ERR_FIRST.VALID ≠ 0) :
    s.countError p k code syn = (s.count p (errCounter k) 1).count p PAGE_ERR_NEXT.COUNT 1 :=
  if_neg (fun hv => h ((get_count_errCounter s p k _ (by decide) (by decide)).symm.trans hv))

theorem countError_onlyRegs : OnlyRegs (errFields p) s (s.countError p k code syn) := by
  have hcount : OnlyRegs (errFields p) s (s.count p (errCounter k) 1) :=
    (OnlyRegs.refl _ s).put (by cases k <;> simp [errFields, errCounter]) _
  by_cases h : s.get p PAGE_ERR_FIRST.VALID = 0
  · rw [countError_of_first s p k code syn h]
    exact OnlyRegs.put (OnlyRegs.put (OnlyRegs.put hcount (by simp [errFields]) 1) (by simp [errFields]) code)
      (by simp [errFields]) syn
  · rw [countError_of_later s p k code syn h]
    exact OnlyRegs.put hcount (by simp [errFields]) _

/-- Behind the counter of the error's kind, the two error counters read as that counter leaves them. -/
theorem get_countError_counter (f : Field) (h : PAGE_ERR_FIRST.VALID.apart f = true)
    (h1 : PAGE_ERR_FIRST.CODE.apart f = true) (h2 : PAGE_ERR_FIRST.SYNDROME.apart f = true)
    (h3 : PAGE_ERR_NEXT.COUNT.apart f = true) :
    (s.countError p k code syn).get p f = (s.count p (errCounter k) 1).get p f := by
  by_cases hv : s.get p PAGE_ERR_FIRST.VALID = 0
  · rw [countError_of_first s p k code syn hv, State.get_put_apart _ p p _ f _ h2, State.get_put_apart _ p p _ f _ h1,
      State.get_put_apart _ p p _ f _ h]
  · rw [countError_of_later s p k code syn hv, State.get_count_apart _ p p _ f _ h3]

end

/-- Settles O25: the report is the page's counting and a log record, which touches only fields of the log. -/
theorem errorsAreCountedAndTheFirstCaptured : Obligations.ErrorsAreCountedAndTheFirstCaptured := by
  unfold Obligations.ErrorsAreCountedAndTheFirstCaptured
  intro s p k code syn addr src hcode hsyn
  dsimp only
  have hget (f : Field) := get_report s p k code syn addr src p f
  have hcounter (f : Field) := get_countError_counter s p k code syn f
  refine ⟨fun hk => ?_, fun hk => ?_, fun hfirst => ?_, fun hlater => ?_, ?_, ?_⟩
  · subst hk
    rw [hget _ (by decide) (by decide), hcounter _ (by decide) (by decide) (by decide) (by decide),
      hget _ (by decide) (by decide), hcounter _ (by decide) (by decide) (by decide) (by decide)]
    exact ⟨s.get_count_self p PAGE_ERR_CNT_C.COUNT 1, s.get_count_apart p p PAGE_ERR_CNT_C.COUNT _ 1 (by decide)⟩
  · subst hk
    rw [hget _ (by decide) (by decide), hcounter _ (by decide) (by decide) (by decide) (by decide),
      hget _ (by decide) (by decide), hcounter _ (by decide) (by decide) (by decide) (by decide)]
    exact ⟨s.get_count_self p PAGE_ERR_CNT_U.COUNT 1, s.get_count_apart p p PAGE_ERR_CNT_U.COUNT _ 1 (by decide)⟩
  · have hcode' : code < 2 ^ (PAGE_ERR_FIRST.CODE.hi + 1 - PAGE_ERR_FIRST.CODE.lo) := hcode
    have hsyn' : syn < 2 ^ (PAGE_ERR_FIRST.SYNDROME.hi + 1 - PAGE_ERR_FIRST.SYNDROME.lo) := hsyn
    rw [hget _ (by decide) (by decide), hget _ (by decide) (by decide), hget _ (by decide) (by decide),
      hget _ (by decide) (by decide), countError_of_first s p k code syn hfirst]
    refine ⟨?_, ?_, State.get_put_of_lt _ _ _ _ hsyn', ?_⟩
    · simp (disch := decide) only [State.get_put_apart, State.get_put_of_lt]
    · rw [State.get_put_apart _ _ _ _ _ _ (by decide), State.get_put_of_lt _ _ _ _ hcode']
    · simp (disch := decide) only [State.get_put_apart, get_count_errCounter]
  · rw [hget _ (by decide) (by decide), hget _ (by decide) (by decide), hget _ (by decide) (by decide),
      hget _ (by decide) (by decide), countError_of_later s p k code syn (by omega), State.get_count_self]
    simp (disch := decide) only [State.get_count_apart, get_count_errCounter]
    exact ⟨hlater, trivial, trivial, rfl⟩
  · obtain ⟨hframe, -⟩ := report_logOnly s p k code syn addr src
    obtain ⟨hframe', -⟩ := countError_onlyRegs s p k code syn
    rw [hframe, hframe']
  · obtain ⟨-, hbut⟩ := report_logOnly s p k code syn addr src
    obtain ⟨-, hbut'⟩ := countError_onlyRegs s p k code syn
    exact hbut'.trans (hbut.mono (by simp [logFields, errFields]))

end Sys2Proof.Machine
end

section
/-! Register accesses by address (02 R27, R34 to R38): what a write and a read of a register do, by access type, by pair
and by requester. -/

namespace Sys2Proof.Machine

open Sys2Proof.Say

/-! ## Addresses -/

theorem regAddr_toNat (p : PageRef) (off : Nat) (h : off < 4096) : (regAddr p off).toNat = regBase + pageKey p + off := by
  have := p.slot.isLt
  have := p.page.isLt
  simp only [regAddr, BitVec.toNat_ofNat, pageKey, regBase]
  omega

theorem offOf_regAddr (p : PageRef) (off : Nat) (h : off < 4096) : offOf (regAddr p off).toNat = off := by
  rw [regAddr_toNat p off h]
  simp only [offOf, pageKey, regBase]
  omega

theorem pageOf_regAddr (p : PageRef) (off : Nat) (h : off < 4096) : pageOf (regAddr p off).toNat = p := by
  have hs := p.slot.isLt
  have hp := p.page.isLt
  rw [regAddr_toNat p off h]
  have hslot : (regBase + pageKey p + off - regBase) / 2 ^ 22 = p.slot.toNat := by
    simp only [pageKey, regBase]; omega
  have hpage : (regBase + pageKey p + off) / 2 ^ 12 % 2 ^ 10 = p.page.toNat := by
    simp only [pageKey, regBase]; omega
  rw [pageOf, hslot, hpage, mkPage, BitVec.ofNat_toNat, BitVec.ofNat_toNat, BitVec.setWidth_eq, BitVec.setWidth_eq]

theorem regStatus_regAddr (s : State) (p : PageRef) (off : Nat) (h : off < 4096) (h4 : off % 4 = 0) :
    s.regStatus (regAddr p off).toNat = s.pageStatus p := by
  have hs := p.slot.isLt
  have hp := p.page.isLt
  have hin : inRegs (regAddr p off).toNat 4 = true := by
    rw [regAddr_toNat p off h]
    have hlow : regBase ≤ regBase + pageKey p + off := by omega
    have hhigh : regBase + pageKey p + off + 4 ≤ regBase + 0x4000_0000 := by simp only [pageKey]; omega
    simp only [inRegs, hlow, hhigh, decide_true, Bool.and_self]
  have hal : (regAddr p off).toNat % 4 = 0 := by
    rw [regAddr_toNat p off h]
    simp only [pageKey, regBase]; omega
  simp [State.regStatus, hal, hin, pageOf_regAddr p off h]

theorem regWrite_regAddr {s : State} {p : PageRef} {off : Nat} (hok : s.pageStatus p = stOk) (h : off < 4096)
    (h4 : off % 4 = 0) (who v : Nat) : s.regWrite who (regAddr p off).toNat v = s.writeReg who p off v := by
  simp [State.regWrite, regStatus_regAddr s p off h h4, hok, pageOf_regAddr p off h, offOf_regAddr p off h]

/-! ## Pages by name -/

theorem pageAt_pgTile (t : TileId) : pageAt (pgTile t) = some (.tile, t.val) := by
  have ht := t.isLt
  have hslot : (pgTile t).slot.toNat = 0x10 + t.val / 144 := by
    simp only [pgTile, mkPage, BitVec.toNat_ofNat]; omega
  have hpage : (pgTile t).page.toNat = 0x200 + t.val % 144 := by
    simp only [pgTile, mkPage, BitVec.toNat_ofNat]; omega
  have hi : 144 * (0x10 + t.val / 144 - 0x10) + (0x200 + t.val % 144 - 0x200) = t.val := by omega
  simp only [pageAt, hslot, hpage, hi]
  repeat rw [if_neg (by omega)]
  rw [if_pos (by omega)]
  repeat rw [if_neg (by omega)]
  rw [if_pos (by omega)]

theorem pageAt_pgArb : ∀ a : ArbId, pageAt (pgArb a) = some (.arb, a.val) := by decide

theorem pageAt_pgFprt : ∀ i : FPort, pageAt (pgFprt i) = some (.fprt, i.val) := by decide

/-! ## Commands that leave nothing to settle -/

/-- Where nothing waits, nothing waits after a change of registers and pair buffers either. -/
theorem nothingWaits_of_registers {s t : State} (h : NothingWaits s)
    (ht : t = { s with regs := t.regs, staged := t.staged }) : NothingWaits t := by
  obtain ⟨hsoft, ⟨hparked, haccs, hhost, hcmds, haccepts, htiles⟩, htodo⟩ := h
  rw [ht]
  refine ⟨hsoft, ⟨hparked, haccs, hhost, hcmds, haccepts, fun e he => ⟨(htiles e he).1, fun x hx => ?_⟩⟩, htodo⟩
  simp [State.xferRefused, htodo e he x hx]

theorem afterPower_of_nothingWaits {s : State} (h : NothingWaits s) : s.afterPower = s := by
  obtain ⟨hsoft, ⟨hparked, haccs, hhost, hcmds, haccepts, htiles⟩, htodo⟩ := h
  rw [State.afterPower, State.settleSoft_none s hsoft]
  exact State.settle_none s hparked haccs hhost hcmds haccepts (fun e he => (htiles e he).1)
    (fun e he => (htiles e he).2)

/-- A register write that changes registers and pair buffers alone, where nothing waits. -/
theorem exec_registerWrite {s t : State} {p : PageRef} {off : Nat} {r : Requester} {v : Word} (hw : NothingWaits s)
    (hok : s.pageStatus p = stOk) (hoff : off < 4096) (h4 : off % 4 = 0)
    (hwrite : s.writeReg (requesterNumber r) p off v.toNat = t)
    (hframe : t = { s with regs := t.regs, staged := t.staged }) :
    exec (.registerWrite r (regAddr p off) v) s = .next t := by
  have hsettled := afterPower_of_nothingWaits (nothingWaits_of_registers hw hframe)
  calc exec (.registerWrite r (regAddr p off) v) s
      = .next (s.regWrite (requesterNumber r) (regAddr p off).toNat v.toNat).afterPower := rfl
    _ = .next t := by rw [regWrite_regAddr hok hoff h4, hwrite, hsettled]

/-! ## Fields by their access type (02 R34, R35) -/

theorem writeReg_of_block {s : State} {p : PageRef} {t : PType} {i off : Nat} (hp : pageAt p = some (t, i))
    (hoff : 0x40 ≤ off) (hshown : s.blockHidden p t i = false) (hlo : off ∉ rwPairs t) (hhi : off - 4 ∉ rwPairs t)
    (hheld : s.writeHeld t i off = false) (who v : Nat) :
    s.writeReg who p off v = s.writeBlock who p t i off v := by
  simp [State.writeReg, hp, Nat.not_lt.mpr hoff, hshown, hlo, hhi, hheld]

theorem bits_lt (v hi lo : Nat) : bits v hi lo < 2 ^ (hi + 1 - lo) := Nat.mod_lt _ (by positivity)

theorem bits_mod_width (v : Nat) (f : Field) : bits v f.hi f.lo % 2 ^ (f.hi + 1 - f.lo) = bits v f.hi f.lo :=
  Nat.mod_eq_of_lt (bits_lt v f.hi f.lo)

/-- A field written with its bits of a word holds them. -/
theorem State.get_put_bits (s : State) (p : PageRef) (f : Field) (v : Nat) :
    (s.put p f (bits v f.hi f.lo)).get p f = bits v f.hi f.lo :=
  s.get_put_of_lt p f _ (bits_lt v f.hi f.lo)

theorem putRwl_of_unlocked {s : State} {p : PageRef} (h : s.flag p PAGE_CTRL.LOCK = false) (f : Field) (v : Nat) :
    s.putRwl p f v = s.put p f (v % 2 ^ (f.hi + 1 - f.lo)) := by
  simp [State.putRwl, h]

/-- A write of a locked field is ignored, and `LOCK_HIT` shows one that would have changed it. -/
theorem putRwl_of_locked {s : State} {p : PageRef} (h : s.flag p PAGE_CTRL.LOCK = true) (f : Field) (v : Nat) :
    s.putRwl p f v = if s.get p f = v % 2 ^ (f.hi + 1 - f.lo) then s else s.putFlag p PAGE_STAT.LOCK_HIT true := by
  simp [State.putRwl, h]

theorem writeFields_tileEntry (s : State) (p : PageRef) (v : Nat) : s.writeFields p .tile 0x044 v =
    (s.put p TILE_ENTRY.ADDR (bits v 20 4)).put p TILE_ENTRY.BMODE (bits v 0 0) := by
  have hfields : fieldsAt .tile 0x044 = [TILE_ENTRY.ADDR, TILE_ENTRY.BMODE] := by decide
  rw [State.writeFields, hfields]
  rfl

theorem writeFields_tileArrCfg (s : State) (p : PageRef) (v : Nat) : s.writeFields p .tile 0x100 v =
    (s.put p TILE_ARR_CFG.IDLE (bits v 15 8)).putRwl p TILE_ARR_CFG.RAMP (bits v 2 0) := by
  have hfields : fieldsAt .tile 0x100 = [TILE_ARR_CFG.IDLE, TILE_ARR_CFG.RAMP] := by decide
  rw [State.writeFields, hfields]
  rfl

theorem writeFields_tileStat (s : State) (p : PageRef) (v : Nat) : s.writeFields p .tile 0x048 v = s := by
  have hfields : fieldsAt .tile 0x048 = [TILE_STAT.CAUSE, TILE_STAT.RUN] := by decide
  rw [State.writeFields, hfields]
  rfl

/-- The registers of a tile page that are written field by field. -/
theorem writeReg_tile {s : State} {t : TileId} {off : Nat} (hshown : s.blockHidden (pgTile t) .tile t = false)
    (hoff : off ∈ [0x044, 0x048, 0x100]) (who v : Nat) :
    s.writeReg who (pgTile t) off v = s.writeFields (pgTile t) .tile off v := by
  simp only [List.mem_cons, List.not_mem_nil, or_false] at hoff
  rw [writeReg_of_block (pageAt_pgTile t) (by omega) hshown (List.not_mem_nil) (List.not_mem_nil) rfl]
  obtain rfl | rfl | rfl := hoff <;> rfl

/-! ## Pairs (02 R37, R38) -/

theorem writeReg_arb_lo {s : State} {a : ArbId} (hshown : s.blockHidden (pgArb a) .arb a = false) (who v : Nat) :
    s.writeReg who (pgArb a) 0x080 v =
      { s with staged := mapSet 0 s.staged (pairKey (pgArb a) 0x080 who) (v + 1) } := by
  simp [State.writeReg, pageAt_pgArb, hshown, rwPairs]

/-- The second half of a write to `ARB_CAL_ADDR`: with a first half of the same requester both halves take effect. -/
theorem writeReg_arb_hi_of_staged {s : State} {a : ArbId} (hshown : s.blockHidden (pgArb a) .arb a = false)
    {who lo : Nat} (hlo : mapGet 0 s.staged (pairKey (pgArb a) 0x080 who) = lo + 1) (v : Nat) :
    s.writeReg who (pgArb a) 0x084 v =
      ({ s with staged := mapSet 0 s.staged (pairKey (pgArb a) 0x080 who) 0 }.put (pgArb a) ARB_CAL_ADDR_LO.ADDR
        (bits lo 31 5)).put (pgArb a) ARB_CAL_ADDR_HI.ADDR (bits v 15 0) := by
  have hfields : fieldsAt .arb 0x080 = [ARB_CAL_ADDR_LO.ADDR] ∧ fieldsAt .arb 0x084 = [ARB_CAL_ADDR_HI.ADDR] := by decide
  simp only [State.writeReg, pageAt_pgArb, hshown, rwPairs, hlo, State.writeHeld, State.writeFields, hfields]
  rfl

/-- Without one, the second half alone does. -/
theorem writeReg_arb_hi_of_not_staged {s : State} {a : ArbId} (hshown : s.blockHidden (pgArb a) .arb a = false)
    {who : Nat} (hlo : mapGet 0 s.staged (pairKey (pgArb a) 0x080 who) = 0) (v : Nat) :
    s.writeReg who (pgArb a) 0x084 v =
      { s with staged := mapSet 0 s.staged (pairKey (pgArb a) 0x080 who) 0 }.put (pgArb a) ARB_CAL_ADDR_HI.ADDR
        (bits v 15 0) := by
  have hfields : fieldsAt .arb 0x084 = [ARB_CAL_ADDR_HI.ADDR] := by decide
  simp only [State.writeReg, pageAt_pgArb, hshown, rwPairs, hlo, State.writeHeld, State.writeFields, hfields]
  rfl

theorem requesterNumber_injective : Function.Injective requesterNumber := by
  intro q r h
  cases q <;> cases r <;> simp_all [requesterNumber]

theorem pairKey_ne_of_requester {q r : Requester} (h : q ≠ r) (p : PageRef) (off : Nat) :
    pairKey p off (requesterNumber q) ≠ pairKey p off (requesterNumber r) := by
  have hn : requesterNumber q ≠ requesterNumber r := fun hqr => h (requesterNumber_injective hqr)
  simp only [pairKey]
  omega

/-- No register shows a pair latch. -/
theorem regWord_latched (s : State) (l : List (Nat × Nat)) (who : Nat) (p : PageRef) (off : Nat) :
    State.regWord { s with latched := l } who p off = s.regWord who p off := rfl

theorem readReg_roLo {s : State} {p : PageRef} {t : PType} {i off : Nat} (hp : pageAt p = some (t, i))
    (hlo : off ∈ roPairs t) (who : Nat) : (s.readReg who p off).1 =
      { s with latched := mapSet 0 s.latched (pairKey p (off + 4) who) (s.regWord who p (off + 4) + 1) } := by
  simp [State.readReg, hp, hlo]

/-- A read of the high half with a latched value takes that value. -/
theorem readReg_roHi_of_latched {s : State} {p : PageRef} {t : PType} {i off w : Nat} (hp : pageAt p = some (t, i))
    (hoff : 4 ≤ off) (hnot : off ∉ roPairs t) (hhi : off - 4 ∈ roPairs t) {who : Nat}
    (hw : mapGet 0 s.latched (pairKey p off who) = w + 1) :
    s.readReg who p off = ({ s with latched := mapSet 0 s.latched (pairKey p off who) 0 }, w) := by
  simp [State.readReg, hp, hnot, hhi, hoff, hw]

theorem readReg_of_not_latched {s : State} {p : PageRef} {t : PType} {i off : Nat} (hp : pageAt p = some (t, i))
    (hnot : off ∉ roPairs t) {who : Nat} (hw : mapGet 0 s.latched (pairKey p off who) = 0) :
    s.readReg who p off = (s, s.regWord who p off) := by
  simp [State.readReg, hp, hnot, hw]

theorem exec_pairLoRead {s : State} {p : PageRef} {t : PType} {i off : Nat} (hok : s.pageStatus p = stOk)
    (hp : pageAt p = some (t, i)) (hlo : off ∈ roPairs t) (hoff : off < 4096) (h4 : off % 4 = 0) (r : Requester) :
    exec (.pairLoRead r (regAddr p off)) s = .next (s.readReg (requesterNumber r) p off).1 := by
  have hisLo : isRoLo p off = true := by simpa [isRoLo, hp] using hlo
  have hread : s.pairLoRead (requesterNumber r) (regAddr p off).toNat = (s.readReg (requesterNumber r) p off).1 := by
    rw [State.pairLoRead, regStatus_regAddr s p off hoff h4, pageOf_regAddr p off hoff, offOf_regAddr p off hoff,
      hok, hisLo]
    rfl
  exact congrArg Host.Outcome.next hread

/-! ## O23 -/

section
variable {s : State} {t : TileId} (hw : NothingWaits s) (hok : s.pageStatus (pgTile t) = stOk)
  (hshown : s.blockHidden (pgTile t) .tile t = false) (r : Requester) (v : Word)

include hw hok hshown

/-- A write of `TILE_ENTRY`, both of whose fields are RW. -/
theorem write_tileEntry_gives : Gives (.registerWrite r (regAddr (pgTile t) 0x044) v) s (fun s' =>
    OnlyRegs [(pgTile t, TILE_ENTRY.ADDR), (pgTile t, TILE_ENTRY.BMODE)] s s' ∧
      s'.get (pgTile t) TILE_ENTRY.ADDR = bits v.toNat 20 4 ∧ s'.get (pgTile t) TILE_ENTRY.BMODE = bits v.toNat 0 0) := by
  refine ⟨_, exec_registerWrite hw hok (by decide) (by decide) (writeReg_tile hshown (by decide) _ _) ?_, ?_⟩
  · rw [writeFields_tileEntry]
    rfl
  · rw [writeFields_tileEntry]
    refine ⟨((OnlyRegs.refl _ s).put (by simp) _).put (by simp) _, ?_, State.get_put_bits _ _ TILE_ENTRY.BMODE _⟩
    rw [State.get_put_apart _ _ _ _ _ _ (by decide)]
    exact State.get_put_bits _ _ TILE_ENTRY.ADDR _

/-- A write of `TILE_ARR_CFG` on an unlocked page: the RW field and the RWL field. -/
theorem write_tileArrCfg_gives_of_unlocked (hopen : s.flag (pgTile t) PAGE_CTRL.LOCK = false) :
    Gives (.registerWrite r (regAddr (pgTile t) 0x100) v) s (fun s' =>
      OnlyRegs [(pgTile t, TILE_ARR_CFG.IDLE), (pgTile t, TILE_ARR_CFG.RAMP)] s s' ∧
        s'.get (pgTile t) TILE_ARR_CFG.IDLE = bits v.toNat 15 8 ∧
        s'.get (pgTile t) TILE_ARR_CFG.RAMP = bits v.toNat 2 0) := by
  have hwrite : s.writeFields (pgTile t) .tile 0x100 v.toNat =
      (s.put (pgTile t) TILE_ARR_CFG.IDLE (bits v.toNat 15 8)).put (pgTile t) TILE_ARR_CFG.RAMP (bits v.toNat 2 0) := by
    have hopen' : (s.put (pgTile t) TILE_ARR_CFG.IDLE (bits v.toNat 15 8)).flag (pgTile t) PAGE_CTRL.LOCK = false := by
      rwa [State.flag, State.get_put_apart _ _ _ _ _ _ (by decide)]
    have hfit := bits_mod_width v.toNat TILE_ARR_CFG.RAMP
    rw [writeFields_tileArrCfg, putRwl_of_unlocked hopen']
    exact congrArg _ hfit
  refine ⟨_, exec_registerWrite hw hok (by decide) (by decide) (writeReg_tile hshown (by decide) _ _) ?_, ?_⟩
  · rw [hwrite]
    rfl
  · rw [hwrite]
    refine ⟨((OnlyRegs.refl _ s).put (by simp) _).put (by simp) _, ?_, State.get_put_bits _ _ TILE_ARR_CFG.RAMP _⟩
    rw [State.get_put_apart _ _ _ _ _ _ (by decide)]
    exact State.get_put_bits _ _ TILE_ARR_CFG.IDLE _

/-- The same on a locked page: the RWL field stays, and `LOCK_HIT` shows a write that would have changed it. -/
theorem write_tileArrCfg_gives_of_locked (hlocked : s.flag (pgTile t) PAGE_CTRL.LOCK = true) :
    Gives (.registerWrite r (regAddr (pgTile t) 0x100) v) s (fun s' =>
      OnlyRegs [(pgTile t, TILE_ARR_CFG.IDLE), (pgTile t, PAGE_STAT.LOCK_HIT)] s s' ∧
        s'.get (pgTile t) TILE_ARR_CFG.IDLE = bits v.toNat 15 8 ∧
        s'.get (pgTile t) PAGE_STAT.LOCK_HIT =
          if s.get (pgTile t) TILE_ARR_CFG.RAMP = bits v.toNat 2 0 then s.get (pgTile t) PAGE_STAT.LOCK_HIT else 1) := by
  let s1 := s.put (pgTile t) TILE_ARR_CFG.IDLE (bits v.toNat 15 8)
  have hs1 : OnlyRegs [(pgTile t, TILE_ARR_CFG.IDLE), (pgTile t, PAGE_STAT.LOCK_HIT)] s s1 :=
    (OnlyRegs.refl _ s).put (by simp) _
  have hidle : s1.get (pgTile t) TILE_ARR_CFG.IDLE = bits v.toNat 15 8 := State.get_put_bits _ _ TILE_ARR_CFG.IDLE _
  have hwrite : s.writeFields (pgTile t) .tile 0x100 v.toNat =
      if s.get (pgTile t) TILE_ARR_CFG.RAMP = bits v.toNat 2 0 then s1
      else s1.putFlag (pgTile t) PAGE_STAT.LOCK_HIT true := by
    have hlocked' : s1.flag (pgTile t) PAGE_CTRL.LOCK = true := by
      rwa [State.flag, State.get_put_apart _ _ _ _ _ _ (by decide)]
    have hfit : bits v.toNat 2 0 % 2 ^ (TILE_ARR_CFG.RAMP.hi + 1 - TILE_ARR_CFG.RAMP.lo) = bits v.toNat 2 0 :=
      bits_mod_width v.toNat TILE_ARR_CFG.RAMP
    rw [writeFields_tileArrCfg, putRwl_of_locked hlocked', hfit, State.get_put_apart _ _ _ _ _ _ (by decide)]
  refine ⟨_, exec_registerWrite hw hok (by decide) (by decide) (writeReg_tile hshown (by decide) _ _) ?_, ?_⟩
  · rw [hwrite]
    split <;> rfl
  · rw [hwrite]
    split
    · exact ⟨hs1, hidle, State.get_put_apart _ _ _ _ _ _ (by decide)⟩
    · refine ⟨hs1.put (by simp) _, ?_, State.get_put_of_lt _ _ _ _ (by decide)⟩
      rw [State.putFlag, State.get_put_apart _ _ _ _ _ _ (by decide), hidle]

/-- A write of `TILE_STAT`, both of whose fields are RO. -/
theorem write_tileStat_nothing : exec (.registerWrite r (regAddr (pgTile t) 0x048) v) s = .next s := by
  refine exec_registerWrite hw hok (by decide) (by decide) ?_ rfl
  rw [writeReg_tile hshown (by decide), writeFields_tileStat]

end

section
variable {s : State} {a : ArbId} (hw : NothingWaits s) (hok : s.pageStatus (pgArb a) = stOk)
  (hshown : s.blockHidden (pgArb a) .arb a = false) (lo hi : Word)

include hw hok hshown

/-- A write of the low half is staged; nothing else changes. -/
theorem write_arbCalAddrLo (r : Requester) : exec (.registerWrite r (regAddr (pgArb a) 0x080) lo) s =
    .next { s with staged := mapSet 0 s.staged (pairKey (pgArb a) 0x080 (requesterNumber r)) (lo.toNat + 1) } :=
  exec_registerWrite hw hok (by decide) (by decide) (writeReg_arb_lo hshown _ _) rfl

/-- A write of the high half by a requester that has staged the low half: both halves take effect. -/
theorem write_arbCalAddrHi_gives_of_staged (r : Requester) (st : List (Nat × Nat))
    (hlo : mapGet 0 st (pairKey (pgArb a) 0x080 (requesterNumber r)) = lo.toNat + 1) :
    Gives (.registerWrite r (regAddr (pgArb a) 0x084) hi) { s with staged := st } (fun s' =>
      s' = { s with staged := s'.staged, regs := s'.regs } ∧
        RegsBut [(pgArb a, ARB_CAL_ADDR_LO.ADDR), (pgArb a, ARB_CAL_ADDR_HI.ADDR)] s s' ∧
        s'.get (pgArb a) ARB_CAL_ADDR_LO.ADDR = bits lo.toNat 31 5 ∧
        s'.get (pgArb a) ARB_CAL_ADDR_HI.ADDR = bits hi.toNat 15 0) := by
  have hw' : NothingWaits { s with staged := st } := nothingWaits_of_registers hw rfl
  have hshown' : State.blockHidden { s with staged := st } (pgArb a) .arb a = false := hshown
  refine ⟨_, exec_registerWrite hw' hok (by decide) (by decide) (writeReg_arb_hi_of_staged hshown' hlo _) rfl, rfl,
    ?_, ?_, State.get_put_bits _ _ ARB_CAL_ADDR_HI.ADDR _⟩
  · exact ((RegsBut.of_regs rfl).put (by simp) _).put (by simp) _
  · rw [State.get_put_apart _ _ _ _ _ _ (by decide)]
    exact State.get_put_bits _ _ ARB_CAL_ADDR_LO.ADDR _

/-- The same by a requester that has staged none: the high half alone takes effect. -/
theorem write_arbCalAddrHi_gives_of_not_staged (q : Requester) (st : List (Nat × Nat))
    (hlo : mapGet 0 st (pairKey (pgArb a) 0x080 (requesterNumber q)) = 0) :
    Gives (.registerWrite q (regAddr (pgArb a) 0x084) hi) { s with staged := st } (fun s' =>
      RegsBut [(pgArb a, ARB_CAL_ADDR_HI.ADDR)] s s' ∧
        s'.get (pgArb a) ARB_CAL_ADDR_HI.ADDR = bits hi.toNat 15 0) :=
  have hw' : NothingWaits { s with staged := st } := nothingWaits_of_registers hw rfl
  have hshown' : State.blockHidden { s with staged := st } (pgArb a) .arb a = false := hshown
  ⟨_, exec_registerWrite hw' hok (by decide) (by decide) (writeReg_arb_hi_of_not_staged hshown' hlo _) rfl,
    (RegsBut.of_regs rfl).put (by simp) _, State.get_put_bits _ _ ARB_CAL_ADDR_HI.ADDR _⟩

end

/-- A read of the low half of the neighbour's device number latches the high half for its requester alone, whose next read
of that half takes the latched value, and the read after it the current one. -/
theorem pairLoRead_neighbour_gives (r : Requester) (i : FPort) {s : State} (hok : s.pageStatus (pgFprt i) = stOk) :
    Gives (.pairLoRead r (regAddr (pgFprt i) 0x058)) s (fun s' => s' = { s with latched := s'.latched } ∧
      (∀ k, k ≠ pairKey (pgFprt i) 0x05C (requesterNumber r) → mapGet 0 s'.latched k = mapGet 0 s.latched k) ∧
      ∀ regs, let t : State := { s' with regs := regs }
        (t.readReg (requesterNumber r) (pgFprt i) 0x05C).2 = s.regWord (requesterNumber r) (pgFprt i) 0x05C ∧
        ((t.readReg (requesterNumber r) (pgFprt i) 0x05C).1.readReg (requesterNumber r) (pgFprt i) 0x05C).2 =
          t.regWord (requesterNumber r) (pgFprt i) 0x05C) := by
  have hp := pageAt_pgFprt i
  have hnot : (0x05C : Nat) ∉ roPairs .fprt := by decide
  have hhi : (0x05C : Nat) - 4 ∈ roPairs .fprt := by decide
  refine ⟨_, exec_pairLoRead hok hp (by decide) (by decide) (by decide) r, ?_⟩
  rw [readReg_roLo hp (by decide)]
  refine ⟨rfl, fun k hk => mapGet_mapSet_ne _ _ _ _ _ _ hk, fun regs => ?_⟩
  dsimp only
  rw [readReg_roHi_of_latched hp (by decide) hnot hhi (mapGet_mapSet_self _ _ _ _)]
  refine ⟨rfl, ?_⟩
  rw [readReg_of_not_latched hp hnot (mapGet_mapSet_self _ _ _ _)]
  exact regWord_latched _ _ _ _ _

/-- Settles O23: field by field for `TILE_ENTRY`, `TILE_ARR_CFG` and `TILE_STAT`, half by half for the two pairs. -/
theorem registersAreWrittenAndReadInPairs : Obligations.RegistersAreWrittenAndReadInPairs := by
  unfold Obligations.RegistersAreWrittenAndReadInPairs
  refine ⟨⟨fun r t v s hw => ?_, fun r q a lo hi s hw => ?_⟩, fun r i s => ?_⟩
  · dsimp only
    intro hok hshown
    exact ⟨write_tileEntry_gives hw hok hshown r v, write_tileArrCfg_gives_of_unlocked hw hok hshown r v,
      write_tileArrCfg_gives_of_locked hw hok hshown r v, write_tileStat_nothing hw hok hshown r v⟩
  · dsimp only
    intro hok hshown
    refine ⟨_, write_arbCalAddrLo hw hok hshown lo r, rfl, ?_, fun hq hnone => ?_⟩
    · exact write_arbCalAddrHi_gives_of_staged hw hok hshown lo hi r _ (mapGet_mapSet_self _ _ _ _)
    · refine write_arbCalAddrHi_gives_of_not_staged hw hok hshown hi q _ ?_
      exact (mapGet_mapSet_ne _ _ _ _ _ _ (pairKey_ne_of_requester hq _ _)).trans hnone
  · dsimp only
    intro hok
    exact pairLoRead_neighbour_gives r i hok

end Sys2Proof.Machine
end

section
/-! Side effects: what ports, routers, power domains, row engines and completions change beside the block that a command
names. They write certain status fields (`SideField`) and no other register, no tile and no engine's queue (`Aside`). -/

namespace Sys2Proof.Machine

open Sys2Proof.Say

/-! ## The fields -/

/-- The fields of a port's page that show its link (11 R322, R323, 12 R344, R368). -/
def linkFields : List Field :=
  [FPRT_STAT.STATE, HPRT_STAT.STATE, FPRT_STAT.VER, HPRT_STAT.VER, FPRT_DOWN.COUNT, FPRT_DROP.COUNT, FPRT_PKT_DROP.COUNT,
   HPRT_STAT.WIDTH, PAGE_STAT.DEGRADED, HPRT_REFUSED.COUNT]

/-- The fields of a window's page that show its commands and records (12 R357, R358, R360). -/
def windowFields : List Field :=
  [SUBW_STAT.INFLIGHT, SUBW_PTR.TAIL, SUBW_CQ_TAIL.COUNT, SUBW_CQ_TAIL.PHASE]

/-- The counters of the bridge that dropped and refused records raise (12 R357, R361). -/
def bridgeFields : List Field := [HBRG_WIN_BUSY.COUNT, HBRG_CPL_DROP.COUNT]

/-- A register field that a side effect may write; `win` says whether completions of windows are among the effects. -/
inductive SideField (win : Bool) : PageRef → Field → Prop where
  | portError {q f} (i : Nat) (h : (q, f) ∈ errFields (portPage i)) : SideField win q f
  | cnetError {q f} (n : Nat) (h : (q, f) ∈ errFields (pgCnet n)) : SideField win q f
  | bnetError {q f} (b : Nat) (h : (q, f) ∈ errFields (pgBnet b)) : SideField win q f
  | cnetDrop (n : Nat) : SideField win (pgCnet n) CNET_HDR_DROP.COUNT
  | bnetDrop (b : Nat) : SideField win (pgBnet b) BNET_HDR_DROP.COUNT
  | dieDrop (n : Nat) : SideField win (pgCdie n) CDIE_DD_CNT.COUNT
  | link {f} (i : Nat) (h : f ∈ linkFields) : SideField win (portPage i) f
  | power (d : Domain) : SideField win (stateField d).1 (stateField d).2
  | window {f} (w : Nat) (hwin : win = true) (h : f ∈ windowFields) : SideField win (pgSubw w) f
  | bridge {f} (hwin : win = true) (h : f ∈ bridgeFields) : SideField win pgHbrg f

/-- From `s` to `t` only side effects have happened. -/
structure Aside (win : Bool) (s t : State) : Prop where
  tiles : t.tiles = s.tiles
  engines : t.engines = s.engines
  regs : ∀ q g, (∀ p f, SideField win p f → fieldKey q g ≠ fieldKey p f) → t.get q g = s.get q g

section
variable {win : Bool} {s t u : State}

theorem Aside.refl : Aside win s s := ⟨rfl, rfl, fun _ _ _ => rfl⟩

theorem Aside.trans (h : Aside win s t) (h' : Aside win t u) : Aside win s u :=
  ⟨h'.tiles.trans h.tiles, h'.engines.trans h.engines, fun q g hq => (h'.regs q g hq).trans (h.regs q g hq)⟩

/-- A change of other parts of the state. -/
theorem Aside.other (h : Aside win s t) (hsame : (u.tiles, u.engines, u.regs) = (t.tiles, t.engines, t.regs)) :
    Aside win s u := by
  simp only [Prod.mk.injEq] at hsame
  obtain ⟨htiles, hengines, hregs⟩ := hsame
  exact h.trans ⟨htiles, hengines, fun q g _ => State.get_congr hregs q g⟩

theorem Aside.put (h : Aside win s t) {p : PageRef} {f : Field} (hf : SideField win p f) (v : Nat) :
    Aside win s (t.put p f v) :=
  h.trans ⟨rfl, rfl, fun q g hq => t.get_put_ne p q f g v (hq p f hf)⟩

theorem Aside.count (h : Aside win s t) {p : PageRef} {f : Field} (hf : SideField win p f) (n : Nat) :
    Aside win s (t.count p f n) := h.put hf _

theorem Aside.putFlag (h : Aside win s t) {p : PageRef} {f : Field} (hf : SideField win p f) (b : Bool) :
    Aside win s (t.putFlag p f b) := h.put hf _

theorem Aside.foldl_mem {α : Type} {f : State → α → State} {l : List α}
    (hf : ∀ t, ∀ x ∈ l, Aside win s t → Aside win s (f t x)) (h : Aside win s t) : Aside win s (l.foldl f t) := by
  induction l generalizing t with
  | nil => exact h
  | cons x l ih => exact ih (fun u y hy => hf u y (List.mem_cons_of_mem x hy)) (hf t x List.mem_cons_self h)

theorem Aside.foldl {α : Type} {f : State → α → State} (hf : ∀ t x, Aside win s t → Aside win s (f t x))
    (h : Aside win s t) (l : List α) : Aside win s (l.foldl f t) := Aside.foldl_mem (fun u x _ => hf u x) h

theorem Aside.ite {c : Prop} [Decidable c] (ht : Aside win s t) (hu : Aside win s u) :
    Aside win s (if c then t else u) := by
  split
  · exact ht
  · exact hu

/-- A reported error writes the fields of its page and of the log. -/
theorem Aside.report (h : Aside win s t) {p : PageRef} (hp : ∀ e ∈ errFields p, SideField win e.1 e.2) (k : ErrKind)
    (code syn addr src : Nat) : Aside win s (t.report p k code syn addr src) := by
  obtain ⟨hframe, hbut⟩ := report_logOnly t p k code syn addr src
  obtain ⟨hframe', hbut'⟩ := countError_onlyRegs t p k code syn
  have hreport : RegsBut (errFields p) t (t.report p k code syn addr src) :=
    hbut'.trans (hbut.mono (by simp [logFields, errFields]))
  have heq : t.report p k code syn addr src = { t with regs := (t.report p k code syn addr src).regs,
                                                       log := (t.report p k code syn addr src).log } := by
    rw [hframe, hframe']
  exact h.trans ⟨by rw [heq], by rw [heq], fun q g hq => hreport q g (fun e he => hq e.1 e.2 (hp e he))⟩

/-! ## Ports -/

variable (h : Aside win s t) (i : Nat)
include h

theorem setPortState_aside (v : Nat) : Aside win s (t.setPortState i v) := by
  unfold State.setPortState portField
  split <;> exact h.put (.link i (by simp [linkFields])) v

theorem setPortVer_aside (v : Nat) : Aside win s (t.setPortVer i v) := by
  unfold State.setPortVer portField
  split <;> exact h.put (.link i (by simp [linkFields])) v

theorem sendJodar_aside (f : List Byte) : Aside win s (t.sendJodar i f) := by
  unfold State.sendJodar
  exact .ite (h.other (by rfl)) (.ite (h.other (by rfl)) (h.other (by rfl)))

theorem sendFrame_aside : Aside win s (t.sendFrame i) := by
  unfold State.sendFrame
  exact .ite h (sendJodar_aside (h.other (by rfl)) i _)

theorem pump_aside : Aside win s (t.pump i) := Aside.foldl (fun _ _ hu => sendFrame_aside hu i) h _

theorem queuePacket_aside (words : List (List Byte)) : Aside win s (t.queuePacket i words) :=
  pump_aside (h.other (by rfl)) i

theorem sendFabric_aside (words : List (List Byte)) : Aside win s (t.sendFabric i words) := by
  unfold State.sendFabric
  exact .ite (queuePacket_aside h i words) (h.count (.link i (by simp [linkFields])) 1)

theorem countDown_aside : Aside win s (t.countDown i) := by
  unfold State.countDown
  exact .ite (h.count (.link i (by simp [linkFields])) 1) h

theorem discardReplay_aside : Aside win s (t.discardReplay i) := by
  have hleft : Aside win s ((t.setPort i { t.port i with replay := [], queue := [], rx := [] }).leavingWords i 0 true) :=
    h.other (by rfl)
  have hcounted := Aside.ite (c := isHostPort i = true) hleft
    ((hleft.count (.link (f := FPRT_DROP.COUNT) i (by simp [linkFields])) (t.port i).replay.length).count
      (.link (f := FPRT_PKT_DROP.COUNT) i (by simp [linkFields])) (wholePackets (t.port i).queue))
  unfold State.discardReplay
  dsimp only
  split
  · exact hcounted
  · exact Aside.foldl (fun _ _ hu => hu.report (fun _ he => .portError i he) _ _ _ _ _) hcounted _

theorem unlockPort_aside : Aside win s (t.unlockPort i) := setPortVer_aside (h.other (by rfl)) i 0

theorem setWidth_aside (v : Nat) : Aside win s (t.setWidth i v) := by
  unfold State.setWidth
  exact .ite ((h.put (.link i (by simp [linkFields])) v).putFlag (.link i (by simp [linkFields])) _) h

theorem disablePort_aside : Aside win s (t.disablePort i) :=
  setWidth_aside (unlockPort_aside (setPortState_aside (discardReplay_aside (countDown_aside h i) i) i _) i) i 0

theorem enablePort_aside : Aside win s (t.enablePort i) := by
  unfold State.enablePort
  exact .ite (setPortState_aside h i _) h

theorem wakePort_aside : Aside win s (t.wakePort i) := by
  unfold State.wakePort
  exact .ite (pump_aside ((setPortState_aside h i _).other (by rfl)) i) h

/-! ## Windows and the host path -/

theorem cqAdvance_aside (hwin : win = true) (w : Nat) : Aside win s (t.cqAdvance w) := by
  have hcount := h.put (.window (f := SUBW_CQ_TAIL.COUNT) w hwin (by simp [windowFields]))
    (t.get (pgSubw w) SUBW_CQ_TAIL.COUNT + 1)
  exact .ite (hcount.put (.window w hwin (by simp [windowFields])) _) hcount

theorem hostWrite_aside (addr : Nat) (d : List Byte) : Aside win s (t.hostWrite i addr d) :=
  queuePacket_aside (h.other (by rfl)) i _

theorem sendRecord_aside (hwin : win = true) (r : WaitRecord) : Aside win s (t.sendRecord i r) := by
  have hsent := hostWrite_aside h i r.addr r.phased
  exact .ite (cqAdvance_aside hsent hwin r.win) hsent

theorem sendHost_aside (words : List (List Byte)) : Aside win s (t.sendHost i words) := by
  have hsent := queuePacket_aside h i words
  exact .ite (hsent.count (.link i (by simp [linkFields])) 1) hsent

theorem flushOne_aside (hwin : win = true) : Aside win s (t.flushOne i) := by
  unfold State.flushOne
  split
  · exact h
  · refine .ite h ?_
    dsimp only
    split
    · exact sendRecord_aside (h.other (by rfl)) i hwin _
    · exact sendHost_aside (h.other (by rfl)) i _

theorem flushPort_aside (hwin : win = true) : Aside win s (t.flushPort i) :=
  Aside.foldl (fun _ _ hu => flushOne_aside hu i hwin) h _

theorem portGo_aside (hwin : isHostPort i = true → win = true) : Aside win s (t.portGo i) := by
  unfold State.portGo
  dsimp only
  split
  case isTrue hi => exact flushPort_aside (pump_aside h i) i (hwin hi)
  case isFalse => exact pump_aside h i

theorem winAdvance_aside (hwin : win = true) (w : Nat) : Aside win s (t.winAdvance w) :=
  .ite (Aside.put (h.other (by rfl)) (.window w hwin (by simp [windowFields])) _) h

theorem winMark_aside (hwin : win = true) (a n : Nat) : Aside win s (t.winMark a n) :=
  Aside.foldl (fun _ w hu => Aside.foldl (fun _ _ hv => winAdvance_aside hv hwin w) (hu.other (by rfl)) _) h _

omit h in
theorem foldl_putCodeWord_aside (l : List (List Byte)) (r : State × Nat) (h : Aside win s r.1) :
    Aside win s (l.foldl (fun (r : State × Nat) w => (r.1.putCodeWord r.2 w, r.2 + 32)) r).1 := by
  induction l generalizing r with
  | nil => exact h
  | cons w l ih => exact ih _ (h.other (by rfl))

theorem storeWords_aside (a : Nat) (l : List (List Byte)) : Aside win s (t.storeWords a l) :=
  foldl_putCodeWord_aside l (t, a) h

theorem guardedWrite_aside (hwin : win = true) (part a : Nat) (l : List (List Byte)) :
    Aside win s (t.guardedWrite part a l).1 := by
  unfold State.guardedWrite
  dsimp only
  split
  · exact h
  · split
    · exact h.count (.bridge hwin (by simp [bridgeFields])) 1
    · exact winMark_aside (storeWords_aside h a l) hwin a _

theorem storeRecord_aside (hwin : win = true) (w : Nat) (r : WaitRecord) : Aside win s (t.storeRecord w r) := by
  have hdrop (u : State) (hu : Aside win s u) : Aside win s (u.count pgHbrg HBRG_CPL_DROP.COUNT 1) :=
    hu.count (.bridge hwin (by simp [bridgeFields])) 1
  have hstored := guardedWrite_aside h hwin stBadCmd r.addr [codeWord r.phased]
  exact .ite (hdrop t h) (.ite (cqAdvance_aside hstored hwin w) (hdrop _ hstored))

theorem sendOrWait_aside (hwin : win = true) (d : DevPacket) : Aside win s (t.sendOrWait d) :=
  flushPort_aside (h.other (by rfl)) d.port hwin

theorem writeRecord_aside (hwin : win = true) (w : Nat) (b : List Byte) : Aside win s (t.writeRecord w b) :=
  .ite (storeRecord_aside h hwin w _) (sendOrWait_aside h hwin _)

theorem completeCmd_aside (hwin : win = true) (w c status res0 res1 eaddr : Nat) (taint : Bool) :
    Aside win s (t.completeCmd w c status res0 res1 eaddr taint) := by
  unfold State.completeCmd
  split
  · exact h
  · have hbooked (x : Win) (n : Nat) : Aside win s ((t.setWin w x).put (pgSubw w) SUBW_STAT.INFLIGHT n) :=
      Aside.put (h.other (by rfl)) (.window w hwin (by simp [windowFields])) n
    exact .ite (hbooked _ _) (writeRecord_aside (hbooked _ _) hwin w _)

/-! ## Routers and links -/

theorem linkSend_aside : Aside win s (t.linkSend i) := by
  unfold State.linkSend
  refine .ite h ?_
  split
  · exact h
  · exact h.other (by rfl)

theorem linkPump_aside : Aside win s (t.linkPump i) := Aside.foldl (fun _ _ hu => linkSend_aside hu i) h _

theorem linkPacket_aside (inp cls : Nat) (flits : List (List Byte)) : Aside win s (t.linkPacket i inp cls flits) :=
  linkPump_aside (h.other (by rfl)) i

theorem dropHead_aside (r reason : Nat) : Aside win s (t.dropHead r reason) :=
  .ite ((h.report (fun _ he => .cnetError _ he) _ _ _ _ _).count (.cnetDrop _) 1)
    ((h.report (fun _ he => .bnetError _ he) _ _ _ _ _).count (.bnetDrop _) 1)

theorem leaveTile_aside (r inp src : Nat) (flits : List (List Byte)) (cls dir : Nat) (detour : Bool) :
    Aside win s (t.leaveTile r inp src flits cls dir detour) :=
  .ite (linkPacket_aside (h.other (by rfl)) _ _ _ _) (h.other (by rfl))

theorem routeTile_aside (r inp : Nat) (d : List Byte) (flits : List (List Byte)) (cls dir : Nat) (detour : Bool) :
    Aside win s (t.routeTile r inp d flits cls dir detour) := by
  have hleave (inp src : Nat) (flits : List (List Byte)) (cls dir : Nat) (detour : Bool) :
      Aside win s (t.leaveTile r inp src flits cls dir detour) := leaveTile_aside h r inp src flits cls dir detour
  unfold State.routeTile
  split
  · exact hleave _ _ _ _ _ _
  · exact .ite (.ite (hleave _ _ _ _ _ _) h) (.ite (h.other (by rfl)) (hleave _ _ _ _ _ _))

theorem countDownDrop_aside (n : Nat) : Aside win s (t.countDownDrop n) := .ite h (h.count (.dieDrop n) 1)

theorem leavePort_aside (r inp src : Nat) (flits : List (List Byte)) (cls port : Nat) :
    Aside win s (t.leavePort r inp src flits cls port) := by
  unfold State.leavePort
  dsimp only
  split
  · exact .ite (countDownDrop_aside h _) (.ite (h.other (by rfl)) (linkPacket_aside (h.other (by rfl)) _ _ _ _))
  · exact sendFabric_aside (h.other (by rfl)) _ _
  · exact h.other (by rfl)

theorem leaveBase_aside (r inp src : Nat) (flits : List (List Byte)) (cls : Nat) (w : Way) :
    Aside win s (t.leaveBase r inp src flits cls w) := by
  cases w with
  | stuck => exact h.other (by rfl)
  | go dir detour => exact .ite (leavePort_aside h r inp src flits cls _) (h.other (by rfl))
  | cross sm l dir => exact .ite (h.other (by rfl)) (linkPacket_aside (h.other (by rfl)) _ _ _ _)

theorem routeBase_aside (r inp : Nat) (d : List Byte) (flits : List (List Byte)) (cls : Nat) (w : Way) :
    Aside win s (t.routeBase r inp d flits cls w) := by
  unfold State.routeBase
  dsimp only
  split
  · exact .ite (leaveBase_aside (countDownDrop_aside h _) _ _ _ _ _ _) (countDownDrop_aside h _)
  · exact leaveBase_aside h r inp _ flits cls w

theorem routePacket_aside (r inp : Nat) (head : List Byte) (body : List (List Byte)) :
    Aside win s (t.routePacket r inp head body) := by
  unfold State.routePacket
  dsimp only
  refine .ite (dropHead_aside h r 0) ?_
  split
  · exact dropHead_aside h r 1
  · refine .ite ?_ (.ite (dropHead_aside h r 2)
      (.ite (routeTile_aside h r inp _ _ _ _ _) (routeBase_aside h r inp _ _ _ _)))
    exact Aside.foldl (fun _ _ hu => .ite (routeTile_aside hu r inp _ _ _ _ _) (routeBase_aside hu r inp _ _ _ _)) h _

theorem rerun_aside (l : List (Nat × List (List Byte))) : Aside win s (t.rerun l) :=
  Aside.foldl (fun _ e hu => routePacket_aside hu e.1 inpSelf _ _) h _

/-! ## Power domains -/

variable (d : Domain)

theorem setDom_aside (v : Nat) : Aside win s (t.setDom d v) := h.put (.power d) v

theorem beginMove_aside (target : Nat) : Aside win s (t.beginMove d target) := by
  have hmoved (moves : List PwrMove) : Aside win s { t.setDom d 3 with moves := moves } :=
    (setDom_aside h d 3).other (by rfl)
  unfold State.beginMove
  dsimp only
  split
  · exact .ite (enablePort_aside (hmoved _) _) (hmoved _)
  · exact hmoved _

theorem deliverTo_aside (l addr : Nat) (words : List (List Byte)) : Aside win s (t.deliverTo l addr words) :=
  .ite h (.ite (h.count (.dieDrop _) 1) (.ite h (.ite (h.other (by rfl)) (storeWords_aside h _ _))))

theorem portResumes_aside (hwin : isHostPort i = true → win = true) : Aside win s (t.portResumes i) :=
  portGo_aside ((Aside.ite (c := t.portState i = ptLowPower) (wakePort_aside h i) h).other (by rfl)) i hwin

omit h in
/-- Whether the completions of windows are among what follows where domain `d` wakes: it is a host port's. -/
def WakesWindows (win : Bool) (d : Domain) : Prop := ∀ i, domainPort d = some i → isHostPort i = true → win = true

theorem domOn_aside (hwin : WakesWindows win d) : Aside win s (t.domOn d) := by
  have hon : Aside win s ({ t with moves := t.moves.filter (fun m => m.dom != d) }.setDom d 0) :=
    setDom_aside (h.other (by rfl)) d 0
  have hgone {u : State} (hu : Aside win s u) (net : Net) (l : List (Nat × List (List Byte))) (red : Reduction) :
      Aside win s { ({ u with net := net }).rerun l with red := red } :=
    (rerun_aside (t := { u with net := net }) (hu.other (by rfl)) l).other (by rfl)
  unfold State.domOn
  dsimp only
  refine Aside.foldl (fun _ e hu => deliverTo_aside hu e.1 e.2.1 e.2.2) (hgone ?_ _ _ _) _
  split
  case h_1 i hi => exact portResumes_aside hon i (hwin i hi)
  case h_2 => exact hon

theorem wakeOne_aside (hwin : WakesWindows win d) : Aside win s (t.wakeOne d) := by
  unfold State.wakeOne
  refine .ite h ?_
  split
  · exact h
  · split
    · exact h
    · exact .ite h (.ite (domOn_aside (h.other (by rfl)) d hwin) (h.other (by rfl)))
  · exact beginMove_aside h d 0

omit h in
theorem domainPort_of_mem_quartersOver {p : Nat} {d : Domain} (hd : d ∈ quartersOver p) : domainPort d = none := by
  obtain ⟨m, -, hm⟩ := List.mem_flatMap.mp hd
  unfold quarterDom at hm
  split_ifs at hm <;> simp_all [domainPort]

theorem wakeDomain_aside (hwin : WakesWindows win d) : Aside win s (t.wakeDomain d) := by
  have hone := wakeOne_aside h d hwin
  cases d with
  | tile p =>
    have hquarter (e : Domain) (he : e ∈ quartersOver p) : WakesWindows win e := by
      simp [WakesWindows, domainPort_of_mem_quartersOver he]
    exact .ite hone (Aside.foldl_mem (fun _ e he hu => wakeOne_aside hu e (hquarter e he)) hone)
  | quarter n m q => exact hone
  | summit b r => exact hone
  | stack k => exact hone
  | fport j => exact hone
  | hport j => exact hone

end

end Sys2Proof.Machine
end

section
/-! The registers of a page after its soft reset (02 R43): which fields keep their values, and which return to their reset
values. -/

namespace Sys2Proof.Machine

/-! ## Several fields of a page written -/

/-- Fields of a page written one after another. -/
def State.putAll (s : State) (p : PageRef) (l : List (Field × Nat)) : State := l.foldl (fun s e => s.put p e.1 e.2) s

theorem State.putAll_frame (s : State) (p : PageRef) (l : List (Field × Nat)) :
    s.putAll p l = { s with regs := (s.putAll p l).regs } := by
  induction l generalizing s with
  | nil => rfl
  | cons e l ih =>
    change (s.put p e.1 e.2).putAll p l = { s with regs := ((s.put p e.1 e.2).putAll p l).regs }
    rw [ih, State.put_frame]

theorem State.get_putAll_of_ne (s : State) (p q : PageRef) (f : Field) (l : List (Field × Nat))
    (h : ∀ e ∈ l, fieldKey q f ≠ fieldKey p e.1) : (s.putAll p l).get q f = s.get q f := by
  induction l generalizing s with
  | nil => rfl
  | cons e l ih =>
    calc ((s.put p e.1 e.2).putAll p l).get q f = (s.put p e.1 e.2).get q f :=
          ih _ (fun g hg => h g (List.mem_cons_of_mem e hg))
      _ = s.get q f := s.get_put_ne p q e.1 f e.2 (h e List.mem_cons_self)

/-- Fields that lie apart from each other are each written, whatever their order. -/
theorem State.get_putAll_of_mem (s : State) (p : PageRef) {l : List (Field × Nat)}
    (hl : l.Pairwise (fun a b => a.1.apart b.1)) {e : Field × Nat} (he : e ∈ l) :
    (s.putAll p l).get p e.1 = e.2 % 2 ^ (e.1.hi + 1 - e.1.lo) := by
  induction l generalizing s with
  | nil => simp at he
  | cons x l ih =>
    obtain ⟨hx, hl⟩ := List.pairwise_cons.mp hl
    rcases List.mem_cons.mp he with rfl | he
    · calc ((s.put p e.1 e.2).putAll p l).get p e.1 = (s.put p e.1 e.2).get p e.1 :=
            State.get_putAll_of_ne _ p p e.1 l (fun g hg => (fieldKey_ne_of_apart p p (hx g hg)).symm)
        _ = e.2 % 2 ^ (e.1.hi + 1 - e.1.lo) := s.get_put_self p e.1 e.2
    · exact ih (s.put p x.1 x.2) hl he

/-! ## The fields of a page type -/

theorem acc_of_mem_each {f g : Field} (h : f ∈ g.each) : f.acc = g.acc := by
  simp only [Field.each, List.mem_flatMap, List.mem_range] at h
  obtain ⟨i, -, h⟩ := h
  have hat : (if g.stride = 0 then g else g.at i).acc = g.acc := by split <;> rfl
  generalize (if g.stride = 0 then g else g.at i) = k at h hat
  split at h
  · rw [List.mem_singleton.mp h, hat]
  · obtain ⟨j, -, rfl⟩ := List.mem_map.mp h
    exact hat

/-- The fields with an access type, repetitions one by one. -/
def fieldsWith (t : PType) (a : Access) : List Field := ((fieldsOf t).filter (fun f => f.acc == a)).flatMap Field.each

theorem mem_fieldsWith {t : PType} {a : Access} {f : Field} :
    f ∈ fieldsWith t a ↔ f ∈ (fieldsOf t).flatMap Field.each ∧ f.acc = a := by
  simp only [fieldsWith, List.mem_flatMap, List.mem_filter, beq_iff_eq]
  constructor
  · rintro ⟨g, ⟨hg, ha⟩, hf⟩
    exact ⟨⟨g, hg, hf⟩, (acc_of_mem_each hf).trans ha⟩
  · rintro ⟨⟨g, hg, hf⟩, ha⟩
    exact ⟨g, ⟨hg, (acc_of_mem_each hf).symm.trans ha⟩, hf⟩

/-- The pair that captures the address of a memory error, as a list. -/
def addrFields (t : PType) : List Field :=
  match errAddrFields t with
  | some (lo, hi, src) => [lo, hi, src]
  | none => []

/-- The fields that a soft reset keeps on a locked page. -/
def lockedFields (t : PType) : List Field := keptHeader ++ addrFields t ++ fieldsWith t .rwl

theorem keptFields_of_pageAt {s : State} {p : PageRef} {t : PType} {i : Nat} (hp : pageAt p = some (t, i)) :
    s.keptFields p = keptHeader ++ addrFields t ++ (if s.flag p PAGE_CTRL.LOCK then fieldsWith t .rwl else []) := by
  simp only [State.keptFields, hp]
  rfl

/-- The error registers of a page's header. -/
def errorHeader : List Field :=
  [PAGE_ERR_CNT_C.COUNT, PAGE_ERR_CNT_U.COUNT, PAGE_ERR_FIRST.VALID, PAGE_ERR_FIRST.CODE, PAGE_ERR_FIRST.SYNDROME,
    PAGE_ERR_NEXT.COUNT]

/-- The registers of a page that its soft reset leaves on its own account: the lock, its hit, and, where no port discards
frames, the error registers. -/
def heldHeader (t : PType) : List Field :=
  [PAGE_CTRL.LOCK, PAGE_STAT.LOCK_HIT] ++ if t = .fprt ∨ t = .hprt then [] else errorHeader

/-- The registers of a page whose values a soft reset determines: those that it leaves, and the configuration. -/
def softFields (t : PType) : List Field := heldHeader t ++ fieldsWith t .rw ++ fieldsWith t .rwl

theorem heldHeader_subset (t : PType) : heldHeader t ⊆ keptHeader := by
  unfold heldHeader
  split <;> decide

theorem softFields_subset (t : PType) : softFields t ⊆ lockedFields t ++ fieldsWith t .rw := by
  intro f hf
  simp only [softFields, lockedFields, List.mem_append] at hf ⊢
  rcases hf with (hf | hf) | hf
  · exact .inl (.inl (.inl (heldHeader_subset t hf)))
  · exact .inr hf
  · exact .inl (.inr hf)

/-! ## The fields of a page lie apart -/

/-- Whether the numbers of a list differ from each other and from those marked in `seen`, one bit for each number. -/
def distinctFrom : List Nat → Nat → Bool
  | [], _ => true
  | n :: l, seen => !seen.testBit n && distinctFrom l (seen ||| 2 ^ n)

theorem nodup_of_distinctFrom {l : List Nat} {seen : Nat} (h : distinctFrom l seen = true) :
    l.Nodup ∧ ∀ n ∈ l, seen.testBit n = false := by
  induction l generalizing seen with
  | nil => simp
  | cons n l ih =>
    simp only [distinctFrom, Bool.and_eq_true, Bool.not_eq_true'] at h
    obtain ⟨hnodup, hseen⟩ := ih h.2
    simp only [Nat.testBit_lor, Bool.or_eq_false_iff] at hseen
    refine ⟨List.nodup_cons.mpr ⟨fun hn => ?_, hnodup⟩, fun m hm => ?_⟩
    · simpa using (hseen n hn).2
    · rcases List.mem_cons.mp hm with rfl | hm
      · exact h.1
      · exact (hseen m hm).1

/-- The fields that a soft reset of a page keeps, those that it returns, and those that it keeps under rules of their
own. -/
def layout (t : PType) : List Field := lockedFields t ++ fieldsWith t .rw ++ (liveFields t).flatMap Field.each

theorem layout_distinct {t : PType} (ht : t ≠ .hdr) : distinctFrom ((layout t).map Field.place) 0 = true ∧
    ∀ f ∈ layout t, f.place < 2 ^ 17 := by
  revert ht
  cases t <;> decide +kernel

theorem layout_apart {t : PType} (ht : t ≠ .hdr) : (layout t).Pairwise (fun f g => f.apart g) := by
  obtain ⟨hdistinct, hplace⟩ := layout_distinct ht
  have hne := List.pairwise_map.mp (nodup_of_distinctFrom hdistinct).1
  refine hne.imp_of_mem (fun hf hg h => ?_)
  simp only [Field.apart, Bool.and_eq_true, bne_iff_ne, decide_eq_true_eq]
  exact ⟨⟨h, hplace _ hf⟩, hplace _ hg⟩

/-- The fields of a page that a soft reset keeps and those that it returns lie apart from each other, and from those that
it keeps under rules of their own. -/
def Separated (t : PType) : Prop :=
  (lockedFields t ++ fieldsWith t .rw).Pairwise (fun f g => f.apart g) ∧
  (∀ f ∈ softFields t, ∀ g ∈ (liveFields t).flatMap Field.each, g.apart f) ∧
  (∀ f ∈ softFields t ++ lockedFields t ++ (liveFields t).flatMap Field.each, f.place < 2 ^ 17)

theorem apart_comm (f g : Field) : f.apart g = g.apart f := by
  simp only [Field.apart, bne_comm (a := f.place), Bool.and_right_comm]

theorem separated {t : PType} (ht : t ≠ .hdr) : Separated t := by
  obtain ⟨hpair, -, hlive⟩ := List.pairwise_append.mp (layout_apart ht)
  refine ⟨hpair, fun f hf g hg => ?_, fun f hf => (layout_distinct ht).2 f ?_⟩
  · rw [apart_comm]
    exact hlive f (softFields_subset t hf) g hg
  · simp only [List.mem_append] at hf
    rcases hf with (hf | hf) | hf
    · exact List.mem_append_left _ (softFields_subset t hf)
    · exact List.mem_append_left _ (List.mem_append_left _ hf)
    · exact List.mem_append_right _ hf

end Sys2Proof.Machine
end

section
/-! Soft resets of pages: where each page lies, and the values that its registers take. -/

namespace Sys2Proof.Machine

/-! ## Pages by type and number -/

/-- The die slot and the index of the page of a type and number (02 R49). -/
def homeOf (t : PType) (i : Nat) : Nat × Nat :=
  match t with
  | .hdr => (0, 0)
  | .bdie => (i, 0x000)
  | .clk => (i, 0x001)
  | .pwr => (i, 0x002)
  | .bnet => (i, 0x008)
  | .arb => (i + 12 * min (i / 4) 1, 0x009)
  | .sumt => (i, 0x010)
  | .emc => (i / 2, 0x020 + i % 2)
  | .echk => (i / 64, 0x040 + i % 64)
  | .fprt => (i / 3, 0x080 + i % 3)
  | .hprt => (3 * min i 1, 0x088)
  | .boot => (0, 0x0B0)
  | .mgmt => (0, 0x0B1)
  | .thrm => (0, 0x0B2)
  | .flsh => (0, 0x0B3)
  | .idnt => (0, 0x0B4)
  | .hbrg => (0, 0x0C0)
  | .subw => (0, 0x100 + i)
  | .dma => (0, 0x140 + i)
  | .rope => (0, 0x0D0)
  | .cairn => (0, 0x0D1)
  | .seam => (0x08 + i, 0)
  | .cdie => (0x10 + i, 0x000)
  | .tmap => (0x10 + i, 0x001)
  | .nmem => (0x10 + i / 4, 0x002 + i % 4)
  | .cnet => (0x10 + i, 0x008)
  | .tile => (0x10 + i / 144, 0x200 + i % 144)
  | .estk => (0x20 + i, 0)
  | .erow => (0x20 + i, 1)

/-- A page found at a slot and an index lies there; a fabric port's number is below those of the host ports. -/
def FoundAt (sl x : Nat) (e : Option (PType × Nat)) : Prop :=
  ∀ t i, e = some (t, i) → t ≠ .hdr ∧ homeOf t i = (sl, x) ∧ (t = .fprt → i < 12)

theorem FoundAt.ite {c : Prop} [Decidable c] {sl x : Nat} {a b : Option (PType × Nat)} (ha : c → FoundAt sl x a) (hb : ¬c → FoundAt sl x b) :
    FoundAt sl x (if c then a else b) := by
  split
  · exact ha ‹_›
  · exact hb ‹_›

theorem FoundAt.some {sl x i : Nat} {t : PType} (ht : t ≠ .hdr) (h : homeOf t i = (sl, x)) (hi : t = .fprt → i < 12) :
    FoundAt sl x (some (t, i)) := by
  rintro _ _ ⟨⟩
  exact ⟨ht, h, hi⟩

theorem FoundAt.none {sl x : Nat} : FoundAt sl x none := by rintro _ _ ⟨⟩

theorem foundAt_pageAt (p : PageRef) : FoundAt p.slot.toNat p.page.toNat (pageAt p) := by
  unfold pageAt
  generalize p.slot.toNat = sl
  generalize p.page.toNat = x
  dsimp only
  repeat' refine FoundAt.ite (fun _ => ?_) (fun _ => ?_)
  any_goals exact FoundAt.none
  all_goals
    refine FoundAt.some (by decide) (Prod.ext ?_ ?_) ?_
    · dsimp only [homeOf] <;> omega
    · dsimp only [homeOf]
      omega
    · simp <;> omega

theorem ne_hdr_of_pageAt {p : PageRef} {t : PType} {i : Nat} (hp : pageAt p = some (t, i)) : t ≠ .hdr :=
  (foundAt_pageAt p t i hp).1

theorem home_of_pageAt {p : PageRef} {t : PType} {i : Nat} (hp : pageAt p = some (t, i)) :
    homeOf t i = (p.slot.toNat, p.page.toNat) :=
  (foundAt_pageAt p t i hp).2.1

theorem page_of_pageAt {p : PageRef} {t : PType} {i : Nat} (hp : pageAt p = some (t, i)) :
    p = mkPage (homeOf t i).1 (homeOf t i).2 := by
  rw [home_of_pageAt hp]
  simp [mkPage]

/-! ## Keys of fields -/

/-- A key names a page and a place. -/
theorem eq_of_fieldKey_eq {p q : PageRef} {f g : Field} (hf : f.place < 2 ^ 17) (hg : g.place < 2 ^ 17)
    (h : fieldKey p f = fieldKey q g) : p = q ∧ f.place = g.place := by
  rw [fieldKey_eq, fieldKey_eq] at h
  have hp := p.page.isLt
  have hq := q.page.isLt
  simp only [pageNumber] at h
  have hslot : p.slot.toNat = q.slot.toNat := by omega
  have hpage : p.page.toNat = q.page.toNat := by omega
  obtain ⟨_, _⟩ := p
  obtain ⟨_, _⟩ := q
  exact ⟨congrArg₂ PageRef.mk (BitVec.eq_of_toNat_eq hslot) (BitVec.eq_of_toNat_eq hpage), by omega⟩

/-- The keys of the fields of a page. -/
theorem fieldKey_mem_page {p : PageRef} {f : Field} (hf : f.place < 2 ^ 17) :
    32 * pageKey p ≤ fieldKey p f ∧ fieldKey p f < 32 * (4096 + pageKey p) := by
  simp only [Field.place] at hf
  simp only [fieldKey]
  omega

/-! ## The registers after a soft reset -/

theorem State.get_clearPage (s : State) {p : PageRef} {f : Field} (hf : f.place < 2 ^ 17) :
    (s.clearPage p).get p f = resetOf p f := by
  obtain ⟨hlo, hhi⟩ := fieldKey_mem_page (p := p) hf
  have hgone : (s.clearPage p).regs.find? (fun e => e.1 == fieldKey p f) = none := by
    simp only [State.clearPage, List.find?_eq_none, List.mem_filter, Bool.or_eq_true, decide_eq_true_eq, beq_iff_eq]
    omega
  rw [State.get, mapGet, hgone]

theorem State.get_clearPage_of_outside (s : State) {p q : PageRef} {f : Field}
    (h : fieldKey q f < 32 * pageKey p ∨ 32 * (4096 + pageKey p) ≤ fieldKey q f) :
    (s.clearPage p).get q f = s.get q f := by
  refine mapGet_filter _ _ _ _ (fun e he => ?_)
  simpa [he] using h

/-- The value that a soft reset gives a register field: the one it had, cut to its width, where it is kept. -/
def State.softValue (s : State) (p : PageRef) (f : Field) : Nat :=
  if f ∈ s.keptFields p then s.get p f % 2 ^ (f.hi + 1 - f.lo) else resetOf p f

/-- The fields that a soft reset of a page writes after it has dropped them all, with their values. -/
def State.keptValues (s : State) (p : PageRef) (l : List Field) : List (Field × Nat) := l.map (fun f => (f, s.get p f))

/-- The stored fields of a page, its staged halves and its latches dropped. -/
def State.emptyPage (s : State) (p : PageRef) : State :=
  let inPage (k : Nat) : Bool := 32 * pageKey p ≤ k && k < 32 * (4096 + pageKey p)
  { s.clearPage p with staged := s.staged.filter (fun e => !inPage (e.1 / 4)),
                       latched := s.latched.filter (fun e => !inPage (e.1 / 4)) }

theorem State.softPage_eq (s : State) (p : PageRef) :
    s.softPage p = (s.emptyPage p).putAll p (s.keptValues p (s.keptFields p)) := rfl

theorem State.softKeep_eq (s : State) (p : PageRef) (l : List Field) :
    s.softKeep p l = (s.softPage p).putAll p (s.keptValues p (l.flatMap Field.each)) := rfl

/-- A soft reset of a page's registers changes nothing else. -/
theorem State.softPage_frame (s : State) (p : PageRef) : s.softPage p =
    { s with regs := (s.softPage p).regs, staged := (s.emptyPage p).staged, latched := (s.emptyPage p).latched } := by
  rw [State.softPage_eq, State.putAll_frame]
  rfl

theorem State.softKeep_frame (s : State) (p : PageRef) (l : List Field) : s.softKeep p l =
    { s with regs := (s.softKeep p l).regs, staged := (s.emptyPage p).staged, latched := (s.emptyPage p).latched } := by
  rw [State.softKeep_eq, State.putAll_frame, State.softPage_frame]

section
variable {s : State} {p : PageRef} {t : PType} {i : Nat} (hp : pageAt p = some (t, i))
include hp

theorem keptFields_sublist : (s.keptFields p).Sublist (lockedFields t) := by
  rw [keptFields_of_pageAt hp, lockedFields]
  refine List.Sublist.append_left ?_ _
  split
  · exact List.Sublist.refl _
  · exact List.nil_sublist _

theorem keptFields_apart : (s.keptFields p).Pairwise (fun f g => f.apart g) :=
  ((List.pairwise_append.mp (separated (ne_hdr_of_pageAt hp)).1).1).sublist (keptFields_sublist hp)

theorem heldHeader_subset_keptFields : heldHeader t ⊆ s.keptFields p := by
  rw [keptFields_of_pageAt hp]
  intro f hf
  simp [heldHeader_subset t hf]

/-- What a soft reset does not keep lies apart from what it keeps. -/
theorem apart_of_not_mem_keptFields {f : Field} (hf : f ∈ softFields t) (hkept : f ∉ s.keptFields p) :
    ∀ g ∈ s.keptFields p, g.apart f := by
  have hall := (separated (ne_hdr_of_pageAt hp)).1
  intro g hg
  have hlocked := (keptFields_sublist (s := s) hp).subset hg
  obtain ⟨hkeep, -, hacross⟩ := List.pairwise_append.mp hall
  simp only [softFields, List.mem_append] at hf
  rcases hf with (hf | hf) | hf
  · exact absurd (heldHeader_subset_keptFields hp hf) hkept
  · exact hacross g hlocked f hf
  · have hopen : g ∈ keptHeader ++ addrFields t := by
      rw [keptFields_of_pageAt hp] at hg hkept
      split at hg
      case isTrue hlock => simp [hlock, hf] at hkept
      case isFalse => simpa using hg
    exact (List.pairwise_append.mp hkeep).2.2 g hopen f hf

theorem place_lt_of_mem_softFields {f : Field} (hf : f ∈ softFields t) : f.place < 2 ^ 17 :=
  (separated (ne_hdr_of_pageAt hp)).2.2 f (List.mem_append_left _ (List.mem_append_left _ hf))

theorem place_lt_of_mem_keptFields {f : Field} (hf : f ∈ s.keptFields p) : f.place < 2 ^ 17 :=
  (separated (ne_hdr_of_pageAt hp)).2.2 f
    (List.mem_append_left _ (List.mem_append_right _ ((keptFields_sublist hp).subset hf)))

/-- The registers of a page after its soft reset (02 R43). -/
theorem get_softPage {f : Field} (hf : f ∈ softFields t) : (s.softPage p).get p f = s.softValue p f := by
  rw [State.softPage_eq, State.softValue]
  split
  case isTrue hkept =>
    have hpair : (s.keptValues p (s.keptFields p)).Pairwise (fun a b => a.1.apart b.1) :=
      List.pairwise_map.mpr (keptFields_apart hp)
    exact State.get_putAll_of_mem _ p hpair (e := (f, s.get p f)) (List.mem_map.mpr ⟨f, hkept, rfl⟩)
  case isFalse hkept =>
    rw [State.get_putAll_of_ne]
    · exact s.get_clearPage (place_lt_of_mem_softFields hp hf)
    · intro e he
      obtain ⟨g, hg, rfl⟩ := List.mem_map.mp he
      exact fieldKey_ne_of_apart p p (apart_of_not_mem_keptFields hp hf hkept g hg)

/-- A soft reset that leaves the fields of a page type's own rules beside. -/
theorem get_softKeep {f : Field} (hf : f ∈ softFields t) : (s.softKeep p (liveFields t)).get p f = s.softValue p f := by
  rw [State.softKeep_eq, State.get_putAll_of_ne, get_softPage hp hf]
  intro e he
  obtain ⟨g, hg, rfl⟩ := List.mem_map.mp he
  exact fieldKey_ne_of_apart p p ((separated (ne_hdr_of_pageAt hp)).2.1 f hf g hg)

/-- The registers outside a page are left. -/
theorem get_softPage_of_outside {q : PageRef} {f : Field}
    (h : fieldKey q f < 32 * pageKey p ∨ 32 * (4096 + pageKey p) ≤ fieldKey q f) :
    (s.softPage p).get q f = s.get q f := by
  rw [State.softPage_eq, State.get_putAll_of_ne]
  · exact s.get_clearPage_of_outside h
  · intro e he
    obtain ⟨g, hg, rfl⟩ := List.mem_map.mp he
    obtain ⟨hlo, hhi⟩ := fieldKey_mem_page (p := p) (place_lt_of_mem_keptFields hp hg)
    dsimp only
    omega

theorem get_softKeep_of_outside {q : PageRef} {f : Field}
    (h : fieldKey q f < 32 * pageKey p ∨ 32 * (4096 + pageKey p) ≤ fieldKey q f) :
    (s.softKeep p (liveFields t)).get q f = s.get q f := by
  rw [State.softKeep_eq, State.get_putAll_of_ne, get_softPage_of_outside hp h]
  intro e he
  obtain ⟨g, hg, rfl⟩ := List.mem_map.mp he
  obtain ⟨hlo, hhi⟩ := fieldKey_mem_page (p := p)
    ((separated (ne_hdr_of_pageAt hp)).2.2 g (List.mem_append_right _ hg))
  dsimp only
  omega

/-- Which fields a soft reset keeps depends on the lock alone. -/
theorem softValue_congr {u : State} (h : ∀ f ∈ softFields t, u.get p f = s.get p f) {f : Field} (hf : f ∈ softFields t) :
    u.softValue p f = s.softValue p f := by
  have hlock : u.flag p PAGE_CTRL.LOCK = s.flag p PAGE_CTRL.LOCK := by
    rw [State.flag, State.flag, h PAGE_CTRL.LOCK (by simp [softFields, heldHeader])]
  rw [State.softValue, State.softValue, h f hf, keptFields_of_pageAt hp, keptFields_of_pageAt hp, hlock]

end

end Sys2Proof.Machine
end

section
/-! The fields that side effects write and the fields that a soft reset determines: no field is one of both. -/

namespace Sys2Proof.Machine

open Sys2Proof.Say

/-- Where a side effect writes: on the pages of routers, of the log, of the bridge and of domains over base dies; the power
state of a page; what a die's drops turn away; a port's link and errors; a window's records. -/
inductive SidePlace (win : Bool) (q : PageRef) (g : Field) : Prop where
  | router (h : q.page.toNat = 0x008)
  | log (h : q.page.toNat = 0x0B1)
  | bridge (h : q.page.toNat = 0x0C0)
  | domains (h : q.page.toNat = 0x002) (hslot : q.slot.toNat < 4)
  | power (h : g = PAGE_PWR.STATE)
  | die (h : q.page.toNat = 0x000) (hg : g = CDIE_DD_CNT.COUNT)
  | port (h : 0x080 ≤ q.page.toNat ∧ q.page.toNat ≤ 0x088) (hg : g ∈ errorHeader ++ linkFields)
  | window (hwin : win = true) (h : q.slot.toNat = 0) (hg : g ∈ windowFields)

theorem place_lt_of_mem_portFields : ∀ g ∈ errorHeader ++ linkFields, g.place < 2 ^ 17 := by decide

theorem mem_errFields {q p : PageRef} {g : Field} (h : (q, g) ∈ errFields p) :
    g.place < 2 ^ 17 ∧ (q = p ∧ g ∈ errorHeader ∨ q = pgMgmt) := by
  simp only [errFields, List.mem_cons, Prod.mk.injEq, List.not_mem_nil, or_false] at h
  rcases h with ⟨rfl, rfl⟩ | ⟨rfl, rfl⟩ | ⟨rfl, rfl⟩ | ⟨rfl, rfl⟩ | ⟨rfl, rfl⟩ | ⟨rfl, rfl⟩ | ⟨rfl, rfl⟩ | ⟨rfl, rfl⟩ <;>
    simp [errorHeader] <;> decide

theorem page_portPage (i : Nat) : 0x080 ≤ (portPage i).page.toNat ∧ (portPage i).page.toNat ≤ 0x088 := by
  unfold portPage
  split
  · simp [pgHprt, mkPage]
  · simp only [pgFprt, mkPage, BitVec.toNat_ofNat]
    omega

theorem sidePlace_of_mem_errFields {win : Bool} {q p : PageRef} {g : Field} (h : (q, g) ∈ errFields p)
    (hp : g ∈ errorHeader → SidePlace win p g) : SidePlace win q g := by
  rcases (mem_errFields h).2 with ⟨rfl, hg⟩ | rfl
  · exact hp hg
  · exact .log (by decide)

theorem place_stateField (d : Domain) : (stateField d).2.place < 2 ^ 17 := by
  cases d with
  | summit b r =>
    have hlow : ∀ k < 16, ((PWR_SUMT_STAT.R.at 0).sub k).place < 2 ^ 17 := by decide
    have hhigh : ∀ k < 4, ((PWR_SUMT_STAT.R.at 1).sub k).place < 2 ^ 17 := by decide
    simp only [stateField]
    split
    case isTrue h => exact hlow _ h
    case isFalse => exact hhigh _ (by omega)
  | quarter n m k =>
    change 32 * (PWR_NMQ_STAT.Q.off + PWR_NMQ_STAT.Q.stride * (n.val % 3)) +
      (PWR_NMQ_STAT.Q.lo + PWR_NMQ_STAT.Q.subWidth * (4 * m.val + k.val)) < _
    have hoff : PWR_NMQ_STAT.Q.off ≤ 1000 ∧ PWR_NMQ_STAT.Q.stride = 4 := by decide
    have hlo : PWR_NMQ_STAT.Q.lo = 0 ∧ PWR_NMQ_STAT.Q.subWidth = 2 := by decide
    rw [hoff.2, hlo.1, hlo.2]
    omega
  | _ => exact (by decide : PAGE_PWR.STATE.place < 2 ^ 17)

theorem SideField.place_lt {win : Bool} {q : PageRef} {g : Field} (h : SideField win q g) : g.place < 2 ^ 17 := by
  cases h with
  | portError i h => exact (mem_errFields h).1
  | cnetError n h => exact (mem_errFields h).1
  | bnetError b h => exact (mem_errFields h).1
  | cnetDrop n => decide
  | bnetDrop b => decide
  | dieDrop n => decide
  | link i h => exact place_lt_of_mem_portFields g (List.mem_append_right _ h)
  | power d => exact place_stateField d
  | window w hwin h => revert g; decide
  | bridge hwin h => revert g; decide

theorem SideField.sidePlace {win : Bool} {q : PageRef} {g : Field} (h : SideField win q g) : SidePlace win q g := by
  cases h with
  | portError i h => exact sidePlace_of_mem_errFields h (fun hg => .port (page_portPage i) (List.mem_append_left _ hg))
  | cnetError n h => exact sidePlace_of_mem_errFields h (fun _ => .router (by simp [pgCnet, mkPage]))
  | bnetError b h => exact sidePlace_of_mem_errFields h (fun _ => .router (by simp [pgBnet, mkPage]))
  | cnetDrop n => exact .router (by simp [pgCnet, mkPage])
  | bnetDrop b => exact .router (by simp [pgBnet, mkPage])
  | dieDrop n => exact .die (by simp [pgCdie, mkPage]) rfl
  | link i h => exact .port (page_portPage i) (List.mem_append_right _ h)
  | power d =>
    cases d with
    | quarter n m k => exact .domains (by simp [stateField, pgPwr, mkPage]) (by simp [stateField, pgPwr, mkPage]; omega)
    | summit b r => exact .domains (by simp [stateField, pgPwr, mkPage]) (by simp [stateField, pgPwr, mkPage]; omega)
    | _ => exact .power rfl
  | window w hwin h => exact .window hwin (by simp [pgSubw, mkPage]) h
  | bridge hwin h => exact .bridge (by simp [pgHbrg, mkPage])

/-! ## Fields that no side effect writes -/

/-- The types of the pages whose soft reset has side effects, and whether completions of windows are among them. -/
def sideTypes : List (PType × Bool) :=
  [(.sumt, false), (.fprt, false), (.hprt, true), (.dma, true), (.cdie, false), (.nmem, true), (.estk, false),
    (.erow, true)]

/-- Where a page may be one that a side effect writes, the fields written have places of their own. -/
theorem places_apart :
    (∀ t ∈ sideTypes, ∀ f ∈ softFields t.1, f.place ≠ PAGE_PWR.STATE.place) ∧
    (∀ t ∈ [PType.cdie, .estk], ∀ f ∈ softFields t, f.place ≠ CDIE_DD_CNT.COUNT.place) ∧
    (∀ t ∈ [PType.fprt, .hprt], ∀ f ∈ softFields t, ∀ g ∈ errorHeader ++ linkFields, f.place ≠ g.place) ∧
    (∀ t ∈ [PType.hprt, .dma], ∀ f ∈ softFields t, ∀ g ∈ windowFields, f.place ≠ g.place) := by decide +kernel

theorem homeOf_sideTypes (i : Nat) : ∀ e ∈ sideTypes,
    ((homeOf e.1 i).2 ≠ 0x008 ∧ (homeOf e.1 i).2 ≠ 0x0B1 ∧ (homeOf e.1 i).2 ≠ 0x0C0) ∧
    ((homeOf e.1 i).2 = 0x002 → 4 ≤ (homeOf e.1 i).1) ∧
    ((homeOf e.1 i).2 = 0x000 → e.1 ∈ [PType.cdie, .estk]) ∧
    (0x080 ≤ (homeOf e.1 i).2 ∧ (homeOf e.1 i).2 ≤ 0x088 → e.1 ∈ [PType.fprt, .hprt]) ∧
    (e.2 = true → (homeOf e.1 i).1 = 0 → e.1 ∈ [PType.hprt, .dma]) := by
  simp only [sideTypes, List.forall_mem_cons, homeOf]
  simp
  omega

/-- No side effect writes a field that a soft reset determines. -/
theorem fieldKey_ne_of_sideField {p q : PageRef} {t : PType} {i : Nat} {win : Bool} {f g : Field}
    (hp : pageAt p = some (t, i)) (ht : (t, win) ∈ sideTypes) (hf : f ∈ softFields t) (hg : SideField win q g) :
    fieldKey p f ≠ fieldKey q g := by
  intro hkey
  obtain ⟨rfl, hplace⟩ := eq_of_fieldKey_eq (place_lt_of_mem_softFields hp hf) hg.place_lt hkey
  have hhome := homeOf_sideTypes i (t, win) ht
  simp only [home_of_pageAt hp] at hhome
  obtain ⟨⟨hrouter, hlog, hbridge⟩, hdomains, hdie, hport, hwindow⟩ := hhome
  obtain ⟨hnePower, hneDie, hnePort, hneWindow⟩ := places_apart
  cases hg.sidePlace with
  | router h => exact hrouter h
  | log h => exact hlog h
  | bridge h => exact hbridge h
  | domains h hslot => exact absurd (hdomains h) (by omega)
  | power h => exact hnePower _ ht f hf (h ▸ hplace)
  | die h h' => exact hneDie t (hdie h) f hf (h' ▸ hplace)
  | port h h' => exact hnePort t (hport h) f hf g h' hplace
  | window hwin h h' => exact hneWindow t (hwindow hwin h) f hf g h' hplace

/-- Side effects leave the registers that a soft reset determines. -/
theorem Aside.get_softFields {s u : State} {p : PageRef} {t : PType} {i : Nat} {win : Bool} (h : Aside win s u)
    (hp : pageAt p = some (t, i)) (ht : (t, win) ∈ sideTypes) {f : Field} (hf : f ∈ softFields t) :
    u.get p f = s.get p f :=
  h.regs p f (fun _ _ hg => fieldKey_ne_of_sideField hp ht hf hg)

end Sys2Proof.Machine
end

section
/-! Row engines cut off (05 R492): what ends, for whom, and what a cut leaves. -/

namespace Sys2Proof.Machine

/-- The fields in which an engine shows its queue and its completions. -/
def engineShows (e : Nat) : List Field :=
  [(engineFields e).1, (engineFields e).2.1, (engineFields e).2.2.1, (engineFields e).2.2.2.1]

theorem engineShows_near {e : Nat} (h : e < 192) : engineShows e = engineShows (e % 4) := by
  have h' : e % 4 < 192 := by omega
  simp only [engineShows, engineFields, h, h', if_true, Nat.mod_mod]

theorem engineShows_edge {e : Nat} (h : ¬e < 192) : engineShows e = engineShows (192 + (e - 192) % 32) := by
  simp [engineShows, engineFields, h]

/-- A register field that no cut of engine `e` writes. -/
def Uncut (e : Nat) (p : PageRef) (f : Field) : Prop :=
  (∀ g ∈ engineShows e, fieldKey p f ≠ fieldKey (enginePage e) g) ∧
  ∀ q g, SideField true q g → fieldKey p f ≠ fieldKey q g

theorem place_ne_near : ∀ k < 4, ∀ g ∈ engineShows k, g.place < 2 ^ 17 ∧
    ∀ t ∈ [PType.nmem, .erow], ∀ f ∈ softFields t, f.place ≠ g.place := by decide +kernel

theorem place_ne_edge : ∀ c < 32, ∀ g ∈ engineShows (192 + c), g.place < 2 ^ 17 ∧
    ∀ f ∈ softFields .erow, f.place ≠ g.place := by decide +kernel

/-- The registers that a soft reset of a page of row engines determines. -/
theorem uncut_of_mem_softFields {p : PageRef} {t : PType} {i : Nat} (hp : pageAt p = some (t, i))
    (ht : t ∈ [PType.nmem, .erow]) {f : Field} (hf : f ∈ softFields t) (e : Nat) : Uncut e p f := by
  have hwin := (by decide : ∀ u ∈ [PType.nmem, .erow], (u, true) ∈ sideTypes) t ht
  refine ⟨fun g hg hkey => ?_, fun q g => fieldKey_ne_of_sideField hp hwin hf⟩
  have hplace := place_lt_of_mem_softFields hp hf
  by_cases he : e < 192
  · rw [engineShows_near he] at hg
    obtain ⟨hlt, hne⟩ := place_ne_near (e % 4) (by omega) g hg
    exact hne t ht f hf (eq_of_fieldKey_eq hplace hlt hkey).2
  · rw [engineShows_edge he] at hg
    obtain ⟨hlt, hne⟩ := place_ne_edge ((e - 192) % 32) (by omega) g hg
    obtain ⟨rfl, hsame⟩ := eq_of_fieldKey_eq hplace hlt hkey
    simp only [List.mem_cons, List.not_mem_nil, or_false] at ht
    rcases ht with rfl | rfl
    · have hpage := (Prod.ext_iff.mp (home_of_pageAt hp)).2
      simp [homeOf, enginePage, he, pgErow, mkPage] at hpage
      omega
    · exact hne f hf hsame

/-- Every transfer of a tile with an id has ended with the status of an engine that is cut off. -/
def CutOff (s : State) (t id : Nat) : Prop :=
  ∀ x ∈ (s.tile t).xfers, x.id = id → x.waits = false ∧ x.status = stDisabled

/-- A transfer that an engine cut off has ended. -/
def Xfer.cut (x : Xfer) : Xfer := { x with waits := false, status := stDisabled }

section
variable (s : State) (e : Nat) (c : RowCmd)

theorem rowAnswer_of_tile {t id : Nat} (h : c.issuer = .tile t id) :
    s.rowAnswer c stDisabled = s.modXfer t id Xfer.cut := by
  simp [State.rowAnswer, State.rowReply, h]
  rfl

/-- An answer to a window or to the device. -/
theorem rowAnswer_aside (h : ∀ t id, c.issuer ≠ .tile t id) : Aside true s (s.rowAnswer c stDisabled) := by
  unfold State.rowAnswer
  split
  · exact Aside.refl.other (by rfl)
  · unfold State.rowReply
    split
    case h_1 t id hc => exact absurd hc (h t id)
    case h_2 => exact completeCmd_aside .refl rfl _ _ _ _ _ _ _
    case h_3 => exact Aside.refl.other (by rfl)

theorem rowAnswer_cases : (∃ t id, c.issuer = .tile t id) ∨ ∀ t id, c.issuer ≠ .tile t id := by
  by_cases h : ∃ t id, c.issuer = .tile t id
  · exact .inl h
  · exact .inr (fun t id hc => h ⟨t, id, hc⟩)

theorem rowAnswer_engines : (s.rowAnswer c stDisabled).engines = s.engines := by
  rcases rowAnswer_cases c with ⟨t, id, h⟩ | h
  · rw [rowAnswer_of_tile s c h]
    rfl
  · exact (rowAnswer_aside s c h).engines

theorem get_rowAnswer {p : PageRef} {f : Field} (hf : ∀ q g, SideField true q g → fieldKey p f ≠ fieldKey q g) :
    (s.rowAnswer c stDisabled).get p f = s.get p f := by
  rcases rowAnswer_cases c with ⟨t, id, h⟩ | h
  · rw [rowAnswer_of_tile s c h]
    rfl
  · exact (rowAnswer_aside s c h).regs p f hf

theorem cutOff_modXfer (t id : Nat) : CutOff (s.modXfer t id Xfer.cut) t id := by
  intro x hx hid
  simp only [State.modXfer, State.tile_modTile_self, List.mem_map] at hx
  obtain ⟨y, -, rfl⟩ := hx
  split at hid
  · simp [*, Xfer.cut]
  · contradiction

theorem CutOff.modXfer {s : State} {t id : Nat} (h : CutOff s t id) (u j : Nat) : CutOff (s.modXfer u j Xfer.cut) t id := by
  intro x hx hid
  rw [State.modXfer] at hx
  by_cases hu : t = u
  · subst hu
    simp only [State.tile_modTile_self, List.mem_map] at hx
    obtain ⟨y, hy, rfl⟩ := hx
    by_cases hj : y.id = j
    · simp [hj, Xfer.cut]
    · simp only [hj, if_false] at hid ⊢
      exact h y hy hid
  · rw [State.tile_modTile_ne _ _ _ _ hu] at hx
    exact h x hx hid

theorem CutOff.congr {s u : State} {t id : Nat} (h : CutOff s t id) (htiles : u.tiles = s.tiles) : CutOff u t id := by
  unfold CutOff State.tile
  rw [htiles]
  exact h

theorem CutOff.rowAnswer {s : State} {t id : Nat} (h : CutOff s t id) : CutOff (s.rowAnswer c stDisabled) t id := by
  rcases rowAnswer_cases c with ⟨u, j, hc⟩ | hc
  · rw [rowAnswer_of_tile s c hc]
    exact h.modXfer u j
  · exact h.congr (rowAnswer_aside s c hc).tiles

/-- A cut of one engine empties its queue alone. -/
theorem rowCut_engineQ (j : Nat) : (s.rowCut e stDisabled).engineQ j = if j = e then [] else s.engineQ j := by
  have hengines : (s.rowCut e stDisabled).engines = (s.setEngineQ e []).engines := by
    unfold State.rowCut
    generalize s.setEngineQ e [] = u
    induction s.engineQ e generalizing u with
    | nil => rfl
    | cons c l ih => exact (ih _).trans (rowAnswer_engines (u.rowBook e stDisabled) c)
  rw [State.engineQ, State.engine, hengines]
  split
  case isTrue h => exact h ▸ State.engineQ_setEngineQ_self s e []
  case isFalse h => exact State.engineQ_setEngineQ_ne s e j [] h

theorem get_rowCut {p : PageRef} {f : Field} (h : Uncut e p f) : (s.rowCut e stDisabled).get p f = s.get p f := by
  obtain ⟨hshows, hside⟩ := h
  have hput (u : State) {g : Field} (v : Nat) (hg : g ∈ engineShows e) : (u.put (enginePage e) g v).get p f = u.get p f :=
    u.get_put_ne _ p g f v (hshows g hg)
  have hbook (u : State) : (u.rowBook e stDisabled).get p f = u.get p f :=
    (hput _ _ (by simp [engineShows])).trans (hput u _ (by simp [engineShows]))
  have hset : (s.setEngineQ e []).get p f = s.get p f :=
    (hput _ _ (by simp [engineShows])).trans (hput _ _ (by simp [engineShows]))
  rw [← hset]
  unfold State.rowCut
  generalize s.setEngineQ e [] = u
  induction s.engineQ e generalizing u with
  | nil => rfl
  | cons c l ih => exact (ih _).trans ((get_rowAnswer _ c hside).trans (hbook u))

theorem foldl_rowComplete_cutOff {t id : Nat} (l : List RowCmd) (u : State)
    (h : CutOff u t id ∨ ∃ c ∈ l, c.issuer = .tile t id) :
    CutOff (l.foldl (fun s c => s.rowComplete e c stDisabled) u) t id := by
  induction l generalizing u with
  | nil => simpa using h
  | cons c l ih =>
    refine ih _ ?_
    rcases h with h | ⟨d, hd, hissuer⟩
    · exact .inl (CutOff.rowAnswer c (h.congr rfl))
    · rcases List.mem_cons.mp hd with rfl | hd
      · refine .inl ?_
        change CutOff ((u.rowBook e stDisabled).rowAnswer d stDisabled) t id
        rw [rowAnswer_of_tile _ d hissuer]
        exact cutOff_modXfer _ t id
      · exact .inr ⟨d, hd, hissuer⟩

/-- A cut of one engine ends the transfers that wait for its commands, and those that have ended stay so. -/
theorem rowCut_cutOff {t id : Nat} (h : CutOff s t id ∨ ∃ c ∈ s.engineQ e, c.issuer = .tile t id) :
    CutOff (s.rowCut e stDisabled) t id :=
  foldl_rowComplete_cutOff e _ _ (h.imp_left (fun h => h.congr rfl))

end

/-! ## Several engines -/

theorem cutEngines_engineQ (s : State) (l : List Nat) (j : Nat) :
    (s.cutEngines l).engineQ j = if j ∈ l then [] else s.engineQ j := by
  unfold State.cutEngines
  induction l generalizing s with
  | nil => simp
  | cons e l ih =>
    rw [List.foldl_cons, ih, rowCut_engineQ]
    by_cases hl : j ∈ l <;> by_cases he : j = e <;> simp [hl, he]

theorem get_cutEngines (s : State) {l : List Nat} {p : PageRef} {f : Field} (h : ∀ e ∈ l, Uncut e p f) :
    (s.cutEngines l).get p f = s.get p f := by
  unfold State.cutEngines
  induction l generalizing s with
  | nil => rfl
  | cons e l ih =>
    exact (ih _ (fun j hj => h j (List.mem_cons_of_mem e hj))).trans (get_rowCut s e (h e List.mem_cons_self))

theorem cutEngines_cutOff (s : State) {l : List Nat} {t id : Nat}
    (h : CutOff s t id ∨ ∃ e ∈ l, ∃ c ∈ s.engineQ e, c.issuer = .tile t id) : CutOff (s.cutEngines l) t id := by
  unfold State.cutEngines
  induction l generalizing s with
  | nil => simpa using h
  | cons e l ih =>
    refine ih _ ?_
    rcases h with h | ⟨j, hj, c, hc, hissuer⟩
    · exact .inl (rowCut_cutOff s e (.inl h))
    · by_cases hje : j = e
      · exact .inl (rowCut_cutOff s e (.inr ⟨c, hje ▸ hc, hissuer⟩))
      · refine .inr ⟨j, (List.mem_cons.mp hj).resolve_left hje, c, ?_, hissuer⟩
        rwa [rowCut_engineQ, if_neg hje]

end Sys2Proof.Machine
end

section
/-! The registers of a page through its soft reset: what goes before leaves the values that it keeps, and what follows
leaves those that it has given. -/

namespace Sys2Proof.Machine

/-! ## States whose pages agree -/

/-- Two states agree on the registers of a page that its soft reset determines. -/
def Alike (p : PageRef) (t : PType) (s u : State) : Prop := ∀ f ∈ softFields t, u.get p f = s.get p f

/-- A field that lies apart from those that a soft reset of a page type determines. -/
abbrev Clear (t : PType) (g : Field) : Prop := ∀ f ∈ softFields t, g.apart f

section
variable {p : PageRef} {t : PType} {s u v : State}

theorem Alike.refl : Alike p t s s := fun _ _ => rfl

theorem Alike.trans (h : Alike p t s u) (h' : Alike p t u v) : Alike p t s v :=
  fun f hf => (h' f hf).trans (h f hf)

theorem Alike.other (h : Alike p t s u) (hregs : v.regs = u.regs) : Alike p t s v :=
  h.trans (fun f _ => State.get_congr hregs p f)

theorem Alike.put (h : Alike p t s u) {g : Field} (hg : Clear t g) (q : PageRef) (n : Nat) : Alike p t s (u.put q g n) :=
  h.trans (fun f hf => u.get_put_apart q p g f n (hg f hf))

/-- A field of another page. -/
theorem Alike.put_ne (h : Alike p t s u) {i : Nat} (hp : pageAt p = some (t, i)) {q : PageRef} (hq : p ≠ q) {g : Field}
    (hg : g.place < 2 ^ 17) (n : Nat) : Alike p t s (u.put q g n) :=
  h.trans (fun f hf => u.get_put_ne q p g f n
    (fun hkey => hq (eq_of_fieldKey_eq (place_lt_of_mem_softFields hp hf) hg hkey).1))

theorem Alike.ite {c : Prop} [Decidable c] (hu : Alike p t s u) (hv : Alike p t s v) :
    Alike p t s (if c then u else v) := by
  split
  · exact hu
  · exact hv

theorem Alike.foldl {α : Type} {g : State → α → State} (hg : ∀ u x, Alike p t s u → Alike p t s (g u x))
    (h : Alike p t s u) (l : List α) : Alike p t s (l.foldl g u) := by
  induction l generalizing u with
  | nil => exact h
  | cons x l ih => exact ih (hg u x h)

theorem Alike.aside (h : Alike p t s u) {i : Nat} {win : Bool} (hp : pageAt p = some (t, i)) (ht : (t, win) ∈ sideTypes)
    (hv : Aside win u v) : Alike p t s v :=
  h.trans (fun _ hf => hv.get_softFields hp ht hf)

end

/-! ## The block -/

/-- The status fields that a soft reset of a page type writes beside the page's own registers. -/
def statusFields (t : PType) : List Field :=
  [PAGE_STAT.SRST_BUSY, PAGE_LATTOL.TOL_NS] ++ match t with
  | .tile => [TILE_PC.PC, TILE_STAT.CAUSE, TILE_STAT.RUN, TILE_ARR_STAT.STATE, TILE_ARR_STAT.GROUPS, TILE_ZERO_CNT.COUNT,
      TILE_NOROPE_CNT.COUNT]
  | .cdie | .thrm => [CDIE_THROT_STAT.DEV_STRIDE, CDIE_THROT_STAT.STRIDE, CDIE_THROT_STAT.CAUSE]
  | .nmem => [NMEM_REFR_STAT.X2]
  | .subw => [SUBW_PTR.TAIL, SUBW_PTR.CONS, SUBW_CQ_TAIL.COUNT, SUBW_CQ_TAIL.PHASE, SUBW_STAT.INFLIGHT]
  | .dma => [DMA_STAT.LAST, DMA_STAT.QUEUED, DMA_STAT.BUSY, DMA_DONE.COUNT]
  | _ => []

theorem clear_of_mem {t : PType} (ht : t ≠ .hdr) {g : Field} (hg : g ∈ statusFields t) : Clear t g := by
  revert g
  revert ht
  cases t <;> decide +kernel

theorem tileSoftReset_alike (s : State) (p : PageRef) (n : Nat) : Alike p .tile s (s.tileSoftReset n) := by
  unfold State.tileSoftReset State.setArr
  refine .ite .refl ?_
  refine Alike.put (.put (.put (.put (.put (.put (.put ?_ ?_ _ _) ?_ _ _) ?_ _ _) ?_ _ _) ?_ _ _) ?_ _ _) ?_ _ _
  case refine_1 => exact Alike.refl.other (by rfl)
  all_goals exact clear_of_mem (by decide) (by simp [statusFields])

/-- What a soft reset does to the block of a page leaves the page. -/
theorem softBlock_alike (s : State) {p : PageRef} {t : PType} {i : Nat} (hp : pageAt p = some (t, i)) :
    Alike p t s (s.softBlock t i) := by
  cases t with
  | bdie => exact .ite (Alike.refl.other (by rfl)) .refl
  | bnet => exact .ite (Alike.refl.other (by rfl)) (Alike.refl.other (by rfl))
  | sumt => exact Alike.foldl (fun _ _ hu => hu.other (by rfl)) .refl _
  | flsh =>
    simp only [State.softBlock, State.cutFlash]
    split
    · exact .ite (Alike.refl.other (by rfl)) (Alike.refl.other (by rfl))
    · exact .refl
  | nmem =>
    have hcut : Alike p .nmem s (s.cutEngines ((List.range 4).map (nearEngine (i / 4) (i % 4)))) :=
      fun f hf => get_cutEngines s (fun e _ => uncut_of_mem_softFields hp (by simp) hf e)
    have hscrub (u : State) : (u.scrubAfresh (i / 4) (i % 4)).regs = u.regs := rfl
    exact hcut.other (hscrub _)
  | erow => exact fun f hf => get_cutEngines s (fun e _ => uncut_of_mem_softFields hp (by simp) hf e)
  | tile => exact tileSoftReset_alike s p i
  | _ => exact Alike.refl.other (by rfl)

/-! ## What follows -/

theorem Alike.setStride {p : PageRef} {t : PType} {s u : State} (h : Alike p t s u) (ht : t = .cdie ∨ t = .thrm)
    (n dev : Nat) : Alike p t s (u.setStride n dev) := by
  have hclear {g : Field} (hg : g ∈ [CDIE_THROT_STAT.DEV_STRIDE, CDIE_THROT_STAT.STRIDE, CDIE_THROT_STAT.CAUSE]) :
      Clear t g := by
    rcases ht with rfl | rfl <;> exact clear_of_mem (by decide) (List.mem_append_right _ hg)
  exact ((h.put (hclear (by simp)) _ _).put (hclear (by simp)) _ _).put (hclear (by simp)) _ _

theorem domainPort_lineDomains {b k n : Nat} {d : Domain} (hd : d ∈ lineDomains b k) (hk : k < 9)
    (hn : domainPort d = some n) : isHostPort n = false := by
  cases d with
  | hport j =>
    exfalso
    unfold lineDomains tileDom quarterDom at hd
    split_ifs at hd <;> simp at hd
  | fport j =>
    obtain rfl : j.val = n := by simpa [domainPort] using hn
    simp [isHostPort]
  | _ => simp [domainPort] at hn

/-- Which wakes of a group's domains bring completions of windows. -/
theorem wakesWindows_of_mem_groupDomains {p : PageRef} {t : PType} {i : Nat} {win : Bool} {d : Domain}
    (hp : pageAt p = some (t, i)) (ht : (t, win) ∈ sideTypes) (hd : d ∈ groupDomains p) : WakesWindows win d := by
  intro n hn hhost
  cases win with
  | true => rfl
  | false =>
    have hline (b k : Nat) (hk : k < 9) : d ∉ lineDomains b k :=
      fun hline => by simp [domainPort_lineDomains hline hk hn] at hhost
    simp only [groupDomains, hp] at hd
    cases t with
    | cdie => exact absurd hd (hline _ _ (by omega))
    | sumt => exact absurd hd (hline _ _ (by omega))
    | estk => exact absurd hd (hline _ _ (by omega))
    | fprt => exact absurd hd (hline _ _ (by omega))
    | hprt => simp [sideTypes] at ht
    | _ => simp at hd

theorem writeLattol_alike {p : PageRef} {t : PType} {i : Nat} {win : Bool} {s u : State} (h : Alike p t s u)
    (hp : pageAt p = some (t, i)) (ht : (t, win) ∈ sideTypes) (v : Nat) : Alike p t s (u.writeLattol p v) := by
  have hclear : Clear t PAGE_LATTOL.TOL_NS := clear_of_mem (ne_hdr_of_pageAt hp) (by simp [statusFields])
  refine .ite h (Alike.aside (h.put hclear _ _) hp ht (Aside.foldl_mem (fun w d hd hw => ?_) .refl))
  exact wakeDomain_aside hw d (wakesWindows_of_mem_groupDomains hp ht (List.mem_filter.mp hd).1)

/-- The strides and refresh rates that follow from the registers of a page. -/
def State.freshRates (s : State) (t : PType) (i : Nat) : State :=
  match t with
  | .cdie => s.setStride i (s.freshStride)
  | .nmem => s.refreshRate (i / 4) (i % 4)
  | .thrm => if s.modelOn then s else s.fallBack
  | _ => s

theorem softFollow_eq (s : State) (p : PageRef) (t : PType) (i : Nat) :
    s.softFollow p t i = if hasLattol p then (s.freshRates t i).writeLattol p 0 else s.freshRates t i := rfl

theorem freshRates_alike (s : State) (p : PageRef) (t : PType) (i : Nat) : Alike p t s (s.freshRates t i) := by
  cases t with
  | cdie => exact Alike.refl.setStride (by simp) i _
  | nmem => exact Alike.refl.put (clear_of_mem (by decide) (by simp [statusFields])) _ _
  | thrm => exact .ite .refl (.ite .refl (Alike.foldl (fun _ n hu => hu.setStride (by simp) n _) .refl _))
  | _ => exact .refl

/-- A page with a tolerance is one whose soft reset has side effects. -/
theorem mem_sideTypes_of_hasLattol {p : PageRef} {t : PType} {i : Nat} (hp : pageAt p = some (t, i))
    (h : hasLattol p = true) : ∃ win, (t, win) ∈ sideTypes := by
  simp only [hasLattol, hp] at h
  revert h
  cases t <;> decide

theorem softFollow_alike (s : State) {p : PageRef} {t : PType} {i : Nat} (hp : pageAt p = some (t, i)) :
    Alike p t s (s.softFollow p t i) := by
  have hrates := freshRates_alike s p t i
  rw [softFollow_eq]
  split
  case isTrue h =>
    obtain ⟨win, ht⟩ := mem_sideTypes_of_hasLattol hp h
    exact writeLattol_alike hrates hp ht 0
  case isFalse => exact hrates

/-- What a block in retention loses is not on its page. -/
theorem dropRetained_alike (s : State) {p : PageRef} {t : PType} {i : Nat} (hp : pageAt p = some (t, i)) :
    Alike p t s (s.dropRetained p) := by
  unfold State.dropRetained pageDomain
  simp only [hp]
  cases t with
  | estk => exact .ite (Alike.refl.other (by rfl)) .refl
  | fprt => exact .ite (Alike.refl.aside (win := false) hp (by decide) (disablePort_aside .refl _)) .refl
  | hprt => exact .ite (Alike.refl.aside (win := true) hp (by decide) (disablePort_aside .refl _)) .refl
  | tile =>
    by_cases h : i < 1728
    · simpa [tileDom, h] using Alike.refl
    · simpa [tileDom, h] using Alike.refl
  | _ => exact .refl

/-! ## The effect of a soft reset -/

theorem get_portSoft (s : State) {p : PageRef} {t : PType} {i : Nat} {win : Bool} (hp : pageAt p = some (t, i))
    (ht : (t, win) ∈ sideTypes) {n : Nat} (hn : portPage n = p) {f : Field} (hf : f ∈ softFields t) :
    (s.portSoft n).get p f = s.softValue p f := by
  subst hn
  have hdown : Alike (portPage n) t s ((s.disablePort n).setPort n Port.init) :=
    Alike.other (Alike.refl.aside hp ht (disablePort_aside .refl n)) (by rfl)
  have hpage : (((s.disablePort n).setPort n Port.init).softPage (portPage n)).get (portPage n) f =
      s.softValue (portPage n) f := by
    rw [get_softPage hp hf, softValue_congr hp hdown hf]
  rw [← hpage]
  refine Alike.ite ?_ Alike.refl f hf
  exact Alike.refl.aside hp ht (enablePort_aside .refl n)

theorem get_ropeSoft (s : State) {p : PageRef} {i : Nat} (hp : pageAt p = some (.rope, i)) {f : Field}
    (hf : f ∈ softFields .rope) : s.ropeSoft.get p f = s.softValue p f := by
  obtain rfl : p = pgRope := page_of_pageAt hp
  have hclear : Alike pgRope .rope s s.clearRopes := by
    have hne : pgRope ≠ pgCairn := by decide
    exact ((((((Alike.refl.other (by rfl)).put_ne hp hne (by decide) _).put_ne hp hne (by decide) _).put_ne hp hne (by decide)
      _).put_ne hp hne (by decide) _).put_ne hp hne (by decide) _).put_ne hp hne (by decide) _
  rw [State.ropeSoft, get_softPage hp hf, softValue_congr hp hclear hf]

/-- The ring's head is a register that a soft reset returns. -/
theorem cqHead_returned : SUBW_CQ_HEAD.COUNT ∈ softFields .subw ∧ SUBW_CQ_HEAD.COUNT ∉ lockedFields .subw ∧
    ∀ f ∈ softFields .subw, f = SUBW_CQ_HEAD.COUNT ∨ SUBW_CQ_HEAD.COUNT.apart f := by decide +kernel

theorem clear_subw {g : Field} (hg : g ∈ [SUBW_PTR.TAIL, SUBW_PTR.CONS, SUBW_CQ_TAIL.COUNT, SUBW_CQ_TAIL.PHASE,
    SUBW_STAT.INFLIGHT]) : Clear .subw g := clear_of_mem (by decide) (List.mem_append_right _ hg)

/-- Where the ring's head is at zero, clearing a window's counts leaves its registers. -/
theorem winClear_alike (u : State) (i : Nat) (hu : u.get (pgSubw i) SUBW_CQ_HEAD.COUNT = 0) :
    Alike (pgSubw i) .subw u (u.winClear i) := by
  have hpointers : Alike (pgSubw i) .subw u (((u.setWin i { u.win i with flags := [] }).put (pgSubw i) SUBW_PTR.TAIL
      0).put (pgSubw i) SUBW_PTR.CONS 0) :=
    (Alike.put (.other .refl (by rfl)) (clear_subw (by simp)) _ _).put (clear_subw (by simp)) _ _
  have hhead (v : State) (hv : v.get (pgSubw i) SUBW_CQ_HEAD.COUNT = 0) :
      Alike (pgSubw i) .subw v (v.put (pgSubw i) SUBW_CQ_HEAD.COUNT 0) := by
    intro g hg
    rcases cqHead_returned.2.2 g hg with rfl | hapart
    · rw [State.get_put_self, hv, Nat.zero_mod]
    · exact v.get_put_apart _ _ _ g 0 hapart
  have hzero := (hpointers _ cqHead_returned.1).trans hu
  exact ((hpointers.trans (hhead _ hzero)).put (clear_subw (by simp)) _ _).put (clear_subw (by simp)) _ _

theorem get_winSoft (s : State) {p : PageRef} {i : Nat} (hp : pageAt p = some (.subw, i)) {f : Field}
    (hf : f ∈ softFields .subw) : (s.winSoft i).get p f = s.softValue p f := by
  obtain rfl : p = pgSubw i := page_of_pageAt hp
  have hhead : s.softValue (pgSubw i) SUBW_CQ_HEAD.COUNT = 0 :=
    if_neg (fun h => cqHead_returned.2.1 ((keptFields_sublist hp).subset h))
  have hpage (u : State) (hu : Alike (pgSubw i) .subw s u) {g : Field} (hg : g ∈ softFields .subw) :
      (u.softPage (pgSubw i)).get (pgSubw i) g = s.softValue (pgSubw i) g := by
    rw [get_softPage hp hg, softValue_congr hp hu hg]
  rw [State.winSoft, Alike.refl.put (clear_subw (by simp)) _ _ f hf, winClear_alike _ _ _ f hf]
  · exact hpage _ (.other .refl (by rfl)) hf
  · exact (hpage _ (.other .refl (by rfl)) cqHead_returned.1).trans hhead

theorem clear_dma {g : Field} (hg : g ∈ [DMA_STAT.LAST, DMA_STAT.QUEUED, DMA_STAT.BUSY, DMA_DONE.COUNT]) :
    Clear .dma g := clear_of_mem (by decide) (List.mem_append_right _ hg)

theorem setDma_alike (s : State) (p : PageRef) (d : Nat) (x : Dma) : Alike p .dma s (s.setDma d x) :=
  (Alike.put (.other .refl (by rfl)) (clear_dma (by simp)) _ _).put (clear_dma (by simp)) _ _

theorem dmaFlush_alike (s : State) {p : PageRef} {i : Nat} (hp : pageAt p = some (.dma, i)) (d : Nat) :
    Alike p .dma s (s.dmaFlush d) := by
  refine Alike.foldl (fun u j hu => ?_) (setDma_alike s p d _) _
  exact Alike.aside ((hu.put (clear_dma (by simp)) _ _).put (clear_dma (by simp)) _ _) hp (win := true) (by decide)
    (completeCmd_aside .refl rfl _ _ _ _ _ _ _)

theorem get_dmaClear (s : State) {p : PageRef} {i : Nat} (hp : pageAt p = some (.dma, i)) {f : Field}
    (hf : f ∈ softFields .dma) : (s.dmaClear i).get p f = s.softValue p f := by
  obtain rfl : p = pgDma i := page_of_pageAt hp
  have hlast (u : State) (n : Nat) : (u.put (pgDma i) DMA_STAT.LAST n).get (pgDma i) f = u.get (pgDma i) f :=
    Alike.refl.put (clear_dma (by simp)) _ _ f hf
  rw [State.dmaClear, setDma_alike _ (pgDma i) i Dma.init f hf, hlast, get_softPage hp hf,
    softValue_congr hp (dmaFlush_alike s hp i) hf]

end Sys2Proof.Machine
end

section
/-! A soft reset that a page takes (02 R43 to R45): its registers, and what it leaves outside its page. -/

namespace Sys2Proof.Machine

open Sys2Proof.Say

/-! ## The cases of a soft reset -/

theorem exec_of_softForm {c : Instr} {p : PageRef} (h : softForm c p) (s : State) : exec c s = .next (s.softReset p) := by
  rcases h with rfl | ⟨_, rfl, rfl⟩ | ⟨_, _, rfl, rfl⟩ | ⟨_, rfl, rfl⟩ | ⟨rfl, rfl⟩ | ⟨_, rfl, rfl⟩ | ⟨rfl, rfl⟩ |
    ⟨_, rfl, rfl⟩ | ⟨_, rfl, rfl⟩ <;> rfl

section
variable {s : State} {p : PageRef} {t : PType} {i : Nat} (hp : pageAt p = some (t, i))
include hp

theorem softReset_of_not_taken (h : s.softTaken p t i = false) : s.softReset p = s := by
  simp [State.softReset, hp, h]

theorem softReset_of_moving (h : s.softTaken p t i = true) (hpower : s.pagePower p = 3) :
    s.softReset p = { s.softStart p with softWait := s.softWait ++ [p] } := by
  simp [State.softReset, hp, h, hpower]

theorem softReset_of_taken (h : s.softTaken p t i = true) (hpower : s.pagePower p ≠ 3) :
    s.softReset p = s.softRun p t i := by
  simp [State.softReset, hp, h, hpower]

theorem dropRetained_of_no_domain (ht : t ∉ [PType.estk, .fprt, .hprt]) : s.dropRetained p = s := by
  unfold State.dropRetained pageDomain
  simp only [hp]
  cases t with
  | estk => simp at ht
  | fprt => simp at ht
  | hprt => simp at ht
  | tile => by_cases h : i < 1728 <;> simp [tileDom, h]
  | _ => rfl

/-! ## The registers of the page -/

theorem get_softEffect (hidle : t = .dma → (s.dma i).run = none) {f : Field} (hf : f ∈ softFields t) :
    (s.softEffect p t i).get p f = s.softValue p f := by
  have hfollow (u : State) : (u.softFollow p t i).get p f = u.get p f := softFollow_alike u hp f hf
  cases t with
  | rope => exact get_ropeSoft s hp hf
  | subw => exact get_winSoft s hp hf
  | dma =>
    rw [State.softEffect, State.dmaSoft, if_neg (by simp [hidle rfl])]
    exact get_dmaClear s hp hf
  | fprt =>
    have hi : isHostPort i = false := by simpa [isHostPort] using (foundAt_pageAt _ _ _ hp).2.2 rfl
    have hpage : portPage i = p := by rw [portPage, hi, page_of_pageAt hp]; rfl
    exact (hfollow _).trans (get_portSoft s hp (win := false) (by decide) hpage hf)
  | hprt =>
    have hpage : portPage (12 + i) = p := by
      rw [page_of_pageAt hp]
      cases i <;> simp [portPage, isHostPort, pgHprt, homeOf]
    exact (hfollow _).trans (get_portSoft s hp (win := true) (by decide) hpage hf)
  | _ => exact (hfollow _).trans ((get_softKeep hp hf).trans (softValue_congr hp (softBlock_alike s hp) hf))

theorem get_softRun (hidle : t = .dma → (s.dma i).run = none) {f : Field} (hf : f ∈ softFields t) :
    (s.softRun p t i).get p f = s.softValue p f := by
  have hidle' (h : t = .dma) : ((s.dropRetained p).dma i).run = none := by
    rw [dropRetained_of_no_domain hp (by simp [h])]
    exact hidle h
  rw [State.softRun, State.putFlag, Alike.refl.put (clear_of_mem (ne_hdr_of_pageAt hp) (by simp [statusFields])) _ _ f hf, get_softEffect hp hidle' hf,
    softValue_congr hp (dropRetained_alike s hp) hf]

omit hp in
theorem not_apart_self (f : Field) : ¬f.apart f = true := by simp [Field.apart]

theorem softValue_of_returned {f : Field} (hf : f ∈ (fieldsOf t).flatMap Field.each)
    (h : f.acc = .rw ∨ f.acc = .rwl ∧ s.flag p PAGE_CTRL.LOCK = false) : s.softValue p f = resetOf p f := by
  refine if_neg (fun hkept => not_apart_self f ?_)
  obtain ⟨hlocked, -, hacross⟩ := List.pairwise_append.mp (separated (ne_hdr_of_pageAt hp)).1
  rcases h with hacc | ⟨hacc, hlock⟩
  · exact hacross f ((keptFields_sublist hp).subset hkept) f (mem_fieldsWith.mpr ⟨hf, hacc⟩)
  · rw [keptFields_of_pageAt hp, hlock] at hkept
    exact (List.pairwise_append.mp hlocked).2.2 f (by simpa using hkept) f (mem_fieldsWith.mpr ⟨hf, hacc⟩)

theorem softValue_of_locked {f : Field} (hf : f ∈ (fieldsOf t).flatMap Field.each) (hacc : f.acc = .rwl)
    (hlock : s.flag p PAGE_CTRL.LOCK = true) : s.softValue p f = s.get p f % 2 ^ (f.hi + 1 - f.lo) := by
  refine if_pos ?_
  rw [keptFields_of_pageAt hp, hlock]
  simp [mem_fieldsWith.mpr ⟨hf, hacc⟩]

theorem softValue_of_header {f : Field} (hf : f ∈ heldHeader t) : s.softValue p f = s.get p f % 2 ^ (f.hi + 1 - f.lo) :=
  if_pos (heldHeader_subset_keptFields hp hf)

omit hp in
theorem mem_softFields_of_acc {f : Field} (hf : f ∈ (fieldsOf t).flatMap Field.each) (h : f.acc = .rw ∨ f.acc = .rwl) :
    f ∈ softFields t := by
  rcases h with h | h <;> simp [softFields, mem_fieldsWith.mpr ⟨hf, h⟩]

omit hp in
/-- Under way where the block is on. -/
theorem softRun_busy : (s.softRun p t i).flag p PAGE_STAT.SRST_BUSY = true ↔ s.pagePower p = 0 := by
  rw [State.softRun, State.flag_putFlag_self _ _ _ _ (by decide), beq_iff_eq]

/-! ## Pages of registers only -/

/-- The types of the pages that hold registers only. -/
def plainTypes : List PType := [.hbrg, .clk, .pwr, .seam, .cnet]

theorem softRun_of_plain (ht : t ∈ plainTypes) :
    s.softRun p t i = (s.softKeep p (liveFields t)).putFlag p PAGE_STAT.SRST_BUSY (s.pagePower p == 0) := by
  have hno : t ∉ [PType.estk, .fprt, .hprt] := by revert ht; cases t <;> decide
  have hlat : hasLattol p = false := by
    simp only [hasLattol, hp]
    revert ht
    cases t <;> decide
  rw [State.softRun, dropRetained_of_no_domain hp hno]
  congr 1
  revert ht
  cases t <;> simp [plainTypes, State.softEffect, softFollow_eq, State.freshRates, State.softBlock, hlat]

theorem softRun_frame_of_plain (ht : t ∈ plainTypes) : s.softRun p t i =
    { s with regs := (s.softRun p t i).regs, staged := (s.softRun p t i).staged, latched := (s.softRun p t i).latched } := by
  rw [softRun_of_plain hp ht, State.softKeep_frame]
  rfl

theorem get_softRun_of_outside (ht : t ∈ plainTypes) {q : PageRef} {f : Field}
    (h : fieldKey q f < 32 * pageKey p ∨ 32 * (4096 + pageKey p) ≤ fieldKey q f) :
    (s.softRun p t i).get q f = s.get q f := by
  have hbusy := fieldKey_mem_page (p := p) (f := PAGE_STAT.SRST_BUSY) (by decide)
  rw [softRun_of_plain hp ht, State.putFlag, State.get_put_ne _ _ _ _ _ _ (by omega)]
  exact get_softKeep_of_outside hp h

end

/-! ## The clauses on every page -/

section
variable {c : Instr} {s : State} {p : PageRef} {t : PType} {i : Nat} (hform : softForm c p) (hp : pageAt p = some (t, i))
include hform hp

/-- A soft reset that takes effect. -/
theorem gives_softRun (h : s.softTaken p t i = true) (hpower : s.pagePower p ≠ 3) {P : State → Prop}
    (hP : P (s.softRun p t i)) : Gives c s P :=
  ⟨_, (exec_of_softForm hform s).trans (by rw [softReset_of_taken hp h hpower]), hP⟩

/-- A soft reset that waits for the end of a transition. -/
theorem gives_softWait (h : s.softTaken p t i = true) (hpower : s.pagePower p = 3) :
    Gives c s (fun s' => s'.flag p PAGE_STAT.SRST_BUSY = true ∧
      s' = { s with regs := s'.regs, softWait := s.softWait ++ [p] } ∧ RegsBut [(p, PAGE_STAT.SRST_BUSY)] s s') := by
  refine ⟨_, exec_of_softForm hform s, ?_⟩
  rw [softReset_of_moving hp h hpower]
  exact ⟨State.flag_putFlag_self s p PAGE_STAT.SRST_BUSY true (by decide), rfl, RegsBut.of_put s p PAGE_STAT.SRST_BUSY _⟩

theorem exec_of_not_taken (h : s.softTaken p t i = false) : exec c s = .next s := by
  rw [exec_of_softForm hform, softReset_of_not_taken hp h]

end

theorem softResetDone_gives {s : State} {p : PageRef} (hbusy : s.flag p PAGE_STAT.SRST_BUSY = true)
    (h : s.softHeld p = false) : Gives (.softResetDone p) s (fun s' =>
      s'.flag p PAGE_STAT.SRST_BUSY = false ∧ OnlyRegs [(p, PAGE_STAT.SRST_BUSY)] s s') := by
  have hexec : exec (.softResetDone p) s = .next (s.putFlag p PAGE_STAT.SRST_BUSY false) := by
    change execSoftResetDone p s = _
    simp [execSoftResetDone, State.softDone, hbusy, h]
  exact ⟨_, hexec, State.flag_putFlag_self _ _ _ _ (by decide), (OnlyRegs.refl _ s).put (by simp) _⟩

theorem softResetDone_of_held {s : State} {p : PageRef} (h : s.softHeld p = true) :
    exec (.softResetDone p) s = .next s := by
  change execSoftResetDone p s = _
  simp [execSoftResetDone, State.softDone, h]

end Sys2Proof.Machine
end

section
/-! What a soft reset empties (04 R487, 05 R492, 08 R234, 12 R361, R367), and the obligation on soft resets. -/

namespace Sys2Proof.Machine

open Sys2Proof.Say

/-! ## Beside the page's registers -/

section
variable (s : State) (p : PageRef)

@[simp] theorem State.softPage_tiles : (s.softPage p).tiles = s.tiles := by rw [State.softPage_frame]
@[simp] theorem State.softPage_mem : (s.softPage p).mem = s.mem := by rw [State.softPage_frame]
@[simp] theorem State.win_softPage (w : Nat) : (s.softPage p).win w = s.win w := by rw [State.softPage_frame]; rfl
@[simp] theorem State.softKeep_tiles (l : List Field) : (s.softKeep p l).tiles = s.tiles := by rw [State.softKeep_frame]
@[simp] theorem State.softKeep_engines (l : List Field) : (s.softKeep p l).engines = s.engines := by
  rw [State.softKeep_frame]

end

section
variable {s : State} {p : PageRef} {t : PType} {i : Nat} (hp : pageAt p = some (t, i))
include hp

/-- A page without a power domain counts as on. -/
theorem pagePower_of_no_domain (ht : t ∉ [PType.erow, .nmem, .sumt, .tile, .estk, .fprt, .hprt]) : s.pagePower p = 0 := by
  have hnone : blockDomains p = [] := by
    simp only [blockDomains, pageDomain, hp]
    revert ht
    cases t <;> simp
  simp [State.pagePower, hnone]

/-- A field that is neither kept nor under rules of its own returns to its reset value. -/
theorem get_softKeep_of_apart {f : Field} (hplace : f.place < 2 ^ 17) (hlocked : ∀ g ∈ lockedFields t, g.apart f)
    (hlive : ∀ g ∈ (liveFields t).flatMap Field.each, g.apart f) :
    (s.softKeep p (liveFields t)).get p f = resetOf p f := by
  rw [State.softKeep_eq, State.get_putAll_of_ne, State.softPage_eq, State.get_putAll_of_ne]
  · exact s.get_clearPage hplace
  · intro e he
    obtain ⟨g, hg, rfl⟩ := List.mem_map.mp he
    exact fieldKey_ne_of_apart p p (hlocked g ((keptFields_sublist hp).subset hg))
  · intro e he
    obtain ⟨g, hg, rfl⟩ := List.mem_map.mp he
    exact fieldKey_ne_of_apart p p (hlive g hg)

/-- A field under rules of its own keeps its value. -/
theorem get_softKeep_of_live {f : Field} (hf : f ∈ (liveFields t).flatMap Field.each) :
    (s.softKeep p (liveFields t)).get p f = s.get p f % 2 ^ (f.hi + 1 - f.lo) :=
  have hlive := (List.pairwise_append.mp (layout_apart (ne_hdr_of_pageAt hp))).2.1
  State.get_putAll_of_mem _ p (List.pairwise_map.mpr hlive) (e := (f, s.get p f)) (List.mem_map.mpr ⟨f, hf, rfl⟩)

end

/-! ## A tile -/

theorem tileRun_live : TILE_STAT.RUN ∈ (liveFields .tile).flatMap Field.each := by decide

theorem tile_returned : ∀ f ∈ [TILE_PC.PC, TILE_STAT.CAUSE, TILE_ARR_STAT.STATE, TILE_ZERO_CNT.COUNT],
    f.place < 2 ^ 17 ∧ f ≠ PAGE_CTRL.EN ∧ f.reset = 0 ∧ (∀ g ∈ lockedFields .tile, g.apart f) ∧
      ∀ g ∈ (liveFields .tile).flatMap Field.each, g.apart f := by decide +kernel

theorem softRun_tile (s : State) (t : TileId) : s.softRun (pgTile t) .tile t =
    ((s.tileSoftReset t).softKeep (pgTile t) (liveFields .tile)).putFlag (pgTile t) PAGE_STAT.SRST_BUSY
      (s.pagePower (pgTile t) == 0) := by
  have hlat : hasLattol (pgTile t) = false := by simp only [hasLattol, pageAt_pgTile]; rfl
  rw [State.softRun, dropRetained_of_no_domain (pageAt_pgTile t) (by simp)]
  simp [State.softEffect, softFollow_eq, State.freshRates, State.softBlock, hlat]

/-- Nothing but registers and tiles changed. -/
def OnlyPageAndTiles (s u : State) : Prop :=
  u = { s with regs := u.regs, tiles := u.tiles, staged := u.staged, latched := u.latched }

theorem OnlyPageAndTiles.putFlag {s u : State} (h : OnlyPageAndTiles s u) (p : PageRef) (f : Field) (b : Bool) :
    OnlyPageAndTiles s (u.putFlag p f b) := by
  rw [OnlyPageAndTiles] at h
  rw [OnlyPageAndTiles, State.putFlag, State.put_frame]
  generalize (u.put p f (b2n b)).regs = regs
  conv_lhs => rw [h]

/-- The status that a tile in service shows after its soft reset. -/
def State.tileResets (s : State) (t : Nat) : List (Field × Nat) :=
  [(TILE_PC.PC, 0), (TILE_STAT.CAUSE, 0), (TILE_STAT.RUN, if s.tileRun t = runFenced then runFenced else runIdle),
    (TILE_ARR_STAT.STATE, rampOff), (TILE_ARR_STAT.GROUPS, 0), (TILE_ZERO_CNT.COUNT, 0), (TILE_NOROPE_CNT.COUNT, 0)]

theorem tileResets_apart (s : State) (t : Nat) : (s.tileResets t).Pairwise (fun a b => a.1.apart b.1) := by
  have hfields : ((s.tileResets t).map Prod.fst).Pairwise (fun f g => f.apart g) := by
    change [TILE_PC.PC, TILE_STAT.CAUSE, TILE_STAT.RUN, TILE_ARR_STAT.STATE, TILE_ARR_STAT.GROUPS, TILE_ZERO_CNT.COUNT,
      TILE_NOROPE_CNT.COUNT].Pairwise (fun f g => f.apart g)
    decide
  exact List.pairwise_map.mp hfields

theorem tileSoftReset_of_serves (s : State) (t : Nat) (h : s.tileServes t = true) :
    s.tileSoftReset t = (s.modTile t (fun u => u.fresh (s.sentOff t))).putAll (pgTile t) (s.tileResets t) := by
  simp [State.tileSoftReset, State.setArr, State.putAll, State.tileResets, h]

theorem tileRun_tileSoftReset (s : State) (t : Nat) (h : s.tileServes t = true) :
    (s.tileSoftReset t).tileRun t = if s.tileRun t = runFenced then runFenced else runIdle := by
  rw [tileSoftReset_of_serves s t h, State.tileRun, State.get_putAll_of_mem _ _ (tileResets_apart s t)
    (e := (TILE_STAT.RUN, if s.tileRun t = runFenced then runFenced else runIdle)) (by simp [State.tileResets])]
  split <;> rfl

theorem softKeep_tileSoftReset_tiles (s : State) (t : Nat) (h : s.tileServes t = true) (p : PageRef) (l : List Field) :
    ((s.tileSoftReset t).softKeep p l).tiles = (s.modTile t (fun u => u.fresh (s.sentOff t))).tiles := by
  rw [State.softKeep_tiles, tileSoftReset_of_serves s t h, State.putAll_frame]

/-- A soft reset of a tile in service changes its page and its units alone. -/
theorem softKeep_tileSoftReset_frame (s : State) (t : Nat) (h : s.tileServes t = true) (p : PageRef) (l : List Field) :
    OnlyPageAndTiles s ((s.tileSoftReset t).softKeep p l) := by
  rw [OnlyPageAndTiles, State.softKeep_frame, tileSoftReset_of_serves s t h, State.putAll_frame]
  rfl

/-- The soft reset of a tile in service (04 R487). -/
theorem tileSoftReset_gives (t : TileId) (s : State) (htaken : s.softTaken (pgTile t) .tile t = true)
    (hpower : s.pagePower (pgTile t) = 0) (hserves : s.tileServes t = true) :
    Gives (.tileSoftReset t) s (fun s' => s'.tile t = { Tile.init with
        scratch := (s.tile t).scratch, scratchBad := (s.tile t).scratchBad, nextId := (s.tile t).nextId,
        xfers := s.sentOff t, taintWait := (s.tile t).taintWait, outEnded := (s.tile t).outEnded } ∧
      s'.tileRun t = (if s.tileRun t = runFenced then runFenced else runIdle) ∧
      (∀ f ∈ [TILE_PC.PC, TILE_STAT.CAUSE, TILE_ARR_STAT.STATE, TILE_ZERO_CNT.COUNT], s'.get (pgTile t) f = 0) ∧
      TilesBut t s s' ∧
      s' = { s with regs := s'.regs, tiles := s'.tiles, staged := s'.staged, latched := s'.latched }) := by
  have hform : softForm (.tileSoftReset t) (pgTile t) := .inr (.inl ⟨t, rfl, rfl⟩)
  refine gives_softRun hform (pageAt_pgTile t) htaken (by omega) ?_
  rw [softRun_tile]
  have htile (j : Nat) : (((s.tileSoftReset t).softKeep (pgTile t) (liveFields .tile)).putFlag (pgTile t)
      PAGE_STAT.SRST_BUSY (s.pagePower (pgTile t) == 0)).tile j =
      (s.modTile t (fun u => u.fresh (s.sentOff t))).tile j := by
    rw [State.putFlag, State.tile_put, State.tile, softKeep_tileSoftReset_tiles s t hserves, ← State.tile]
  have hbusy (f : Field) (h : PAGE_STAT.SRST_BUSY.apart f = true) (u : State) (b : Bool) :
      (u.putFlag (pgTile t) PAGE_STAT.SRST_BUSY b).get (pgTile t) f = u.get (pgTile t) f :=
    u.get_put_apart _ _ _ f _ h
  refine ⟨(htile t).trans (State.tile_modTile_self _ _ _), ?_, fun f hf => ?_,
    fun j hj => (htile j).trans (State.tile_modTile_ne _ _ _ _ hj),
    (softKeep_tileSoftReset_frame s t hserves (pgTile t) (liveFields .tile)).putFlag _ _ _⟩
  · have hrun := tileRun_tileSoftReset s t hserves
    rw [State.tileRun] at hrun
    rw [State.tileRun, hbusy _ (by decide), get_softKeep_of_live (pageAt_pgTile t) tileRun_live, hrun]
    split <;> rfl
  · obtain ⟨hplace, hen, hzero, hlocked, hlive⟩ := tile_returned f hf
    have hapart := (by decide : ∀ g ∈ [TILE_PC.PC, TILE_STAT.CAUSE, TILE_ARR_STAT.STATE, TILE_ZERO_CNT.COUNT],
      PAGE_STAT.SRST_BUSY.apart g = true) f hf
    rw [hbusy f hapart, get_softKeep_of_apart (pageAt_pgTile t) hplace hlocked hlive, resetOf_of_ne hen, hzero]

end Sys2Proof.Machine
end

section
/-! What a soft reset empties: row engines (05 R492), windows (12 R361), DMA channels (12 R367) and ropes (08 R234). -/

namespace Sys2Proof.Machine

open Sys2Proof.Say

/-! ## Row engines -/

theorem pageAt_pgNmem : ∀ (n : Die) (m : Fin 4), pageAt (pgNmem n m) = some (.nmem, 4 * n.val + m.val) := by decide

theorem pageAt_pgErow : ∀ k : Stack, pageAt (pgErow k) = some (.erow, k.val) := by decide

/-- The engines `l` have lost their commands, those that waited for them have their answer, and no other engine has
changed. -/
def EnginesCut (l : List Nat) (s u : State) : Prop :=
  (∀ e ∈ l, u.engineQ e = [] ∧ ∀ c ∈ s.engineQ e, ∀ t id, c.issuer = .tile t id →
    ∀ x ∈ (u.tile t).xfers, x.id = id → x.waits = false ∧ x.status = 0x2B) ∧
  ∀ e, e ∉ l → u.engineQ e = s.engineQ e

theorem enginesCut_cutEngines (s : State) (l : List Nat) : EnginesCut l s (s.cutEngines l) := by
  refine ⟨fun e he => ⟨?_, fun c hc t id hissuer => ?_⟩, fun e he => ?_⟩
  · rw [cutEngines_engineQ, if_pos he]
  · exact cutEngines_cutOff s (.inr ⟨e, he, c, hc, hissuer⟩)
  · rw [cutEngines_engineQ, if_neg he]

theorem EnginesCut.other {l : List Nat} {s u v : State} (h : EnginesCut l s u) (hengines : v.engines = u.engines)
    (htiles : v.tiles = u.tiles) : EnginesCut l s v := by
  have hqueue (e : Nat) : v.engineQ e = u.engineQ e := by rw [State.engineQ, State.engine, hengines]; rfl
  have htile (t : Nat) : v.tile t = u.tile t := by rw [State.tile, htiles]; rfl
  simpa only [EnginesCut, hqueue, htile] using h

/-- The row engines of a page after its soft reset (05 R492). -/
theorem enginesCut_softRun {s : State} {p : PageRef} {t : PType} {i : Nat} {l : List Nat} (hp : pageAt p = some (t, i))
    (ht : t ∈ [PType.nmem, .erow]) (hblock : EnginesCut l s (s.softBlock t i)) : EnginesCut l s (s.softRun p t i) := by
  have hno : t ∉ [PType.estk, .fprt, .hprt] := by revert ht; cases t <;> decide
  have hlat : hasLattol p = false := by
    simp only [hasLattol, hp]
    revert ht
    cases t <;> decide
  have heffect : s.softEffect p t i = ((s.softBlock t i).softKeep p (liveFields t)).freshRates t i := by
    revert ht
    cases t <;> simp [State.softEffect, softFollow_eq, hlat]
  have hrates (u : State) : (u.freshRates t i).engines = u.engines ∧ (u.freshRates t i).tiles = u.tiles := by
    revert ht
    cases t <;> simp [State.freshRates, State.refreshRate]
  rw [State.softRun, dropRetained_of_no_domain hp hno, heffect]
  refine hblock.other ?_ ?_
  · exact (hrates _).1.trans (State.softKeep_engines _ _ _)
  · exact (hrates _).2.trans (State.softKeep_tiles _ _ _)

theorem nmemSoftReset_gives (n : Die) (m : Fin 4) (s : State)
    (h : s.softTaken (pgNmem n m) .nmem (4 * n + m) = true) (hpower : s.pagePower (pgNmem n m) ≠ 3) :
    Gives (.nmemSoftReset n m) s (EnginesCut ((List.range 4).map (nearEngine n m)) s) := by
  have hp := pageAt_pgNmem n m
  have hform : softForm (.nmemSoftReset n m) (pgNmem n m) := .inr (.inr (.inl ⟨n, m, rfl, rfl⟩))
  refine gives_softRun hform hp h hpower (enginesCut_softRun hp (by simp) ?_)
  have hn : (4 * n.val + m.val) / 4 = n.val ∧ (4 * n.val + m.val) % 4 = m.val := by omega
  have hscrub (u : State) : (u.scrubAfresh n m).engines = u.engines ∧ (u.scrubAfresh n m).tiles = u.tiles := ⟨rfl, rfl⟩
  simp only [State.softBlock, hn.1, hn.2]
  exact (enginesCut_cutEngines s _).other (hscrub _).1 (hscrub _).2

theorem erowSoftReset_gives (k : Stack) (s : State) (h : s.softTaken (pgErow k) .erow k = true)
    (hpower : s.pagePower (pgErow k) ≠ 3) :
    Gives (.erowSoftReset k) s (EnginesCut ((List.range 32).map (edgeEngine k)) s) := by
  have hp := pageAt_pgErow k
  have hform : softForm (.erowSoftReset k) (pgErow k) := .inr (.inr (.inr (.inl ⟨k, rfl, rfl⟩)))
  exact gives_softRun hform hp h hpower (enginesCut_softRun hp (by simp) (enginesCut_cutEngines s _))

/-! ## Windows -/

theorem pageAt_pgSubw : ∀ w : Sys2Proof.Win, pageAt (pgSubw w) = some (.subw, w.val) := by decide

theorem win_winSoft (s : State) (w : Nat) : (s.winSoft w).win w =
    { flags := [], flight := (s.win w).flight.map (fun f => { f with discard := true }) } := by
  unfold State.winSoft State.winClear
  simp only [State.win_put, State.win_setWin_self, State.win_softPage]
  exact congrArg (fun x : Win => { x with flags := [] }) (State.win_setWin_self s w _)

theorem get_tail_winSoft (s : State) (w : Nat) : (s.winSoft w).get (pgSubw w) SUBW_PTR.TAIL = 0 := by
  unfold State.winSoft State.winClear
  rw [State.get_put_apart _ _ _ _ _ _ (by decide), State.get_put_apart _ _ _ _ _ _ (by decide),
    State.get_put_apart _ _ _ _ _ _ (by decide), State.get_put_apart _ _ _ _ _ _ (by decide),
    State.get_put_apart _ _ _ _ _ _ (by decide), State.get_put_self, Nat.zero_mod]

/-- A window's soft reset discards what waits and the records of what runs (12 R361). -/
theorem subwSoftReset_gives (w : Sys2Proof.Win) (s : State) (h : s.softTaken (pgSubw w) .subw w = true) :
    Gives (.subwSoftReset w) s (fun s' =>
      s'.win w = { flags := [], flight := (s.win w).flight.map (fun f => { f with discard := true }) } ∧
      s'.get (pgSubw w) SUBW_PTR.TAIL = 0 ∧ s'.mem = s.mem ∧ s'.tiles = s.tiles) := by
  have hp := pageAt_pgSubw w
  have hform : softForm (.subwSoftReset w) (pgSubw w) :=
    .inr (.inr (.inr (.inr (.inr (.inr (.inr (.inl ⟨w, rfl, rfl⟩)))))))
  have hpower : s.pagePower (pgSubw w) ≠ 3 := by rw [pagePower_of_no_domain hp (by simp)]; decide
  have heffect : s.softEffect (pgSubw w) .subw w = s.winSoft w := rfl
  refine gives_softRun hform hp h hpower ?_
  rw [State.softRun, dropRetained_of_no_domain hp (by simp), heffect, State.putFlag]
  refine ⟨?_, ?_, ?_, ?_⟩
  · rw [State.win_put, win_winSoft]
  · rw [State.get_put_apart _ _ _ _ _ _ (by decide), get_tail_winSoft]
  · simp [State.winSoft, State.winClear]
  · simp [State.winSoft, State.winClear]

/-! ## DMA channels -/

theorem pageAt_pgDma : ∀ d : Chan, pageAt (pgDma d) = some (.dma, d.val) := by decide

theorem foldl_dmaComplete_tiles (d : Nat) (l : List DmaJob) (u : State) :
    (l.foldl (fun s j => s.dmaComplete d j stHalted 0 0) u).tiles = u.tiles := by
  induction l generalizing u with
  | nil => rfl
  | cons j l ih => exact (ih _).trans (completeCmd_aside (win := true) .refl rfl _ _ _ _ _ _ _).tiles

theorem dmaClear_tiles (s : State) (d : Nat) : (s.dmaClear d).tiles = s.tiles := by
  have hset (u : State) (x : Dma) : (u.setDma d x).tiles = u.tiles := rfl
  unfold State.dmaClear State.dmaFlush
  simp only [hset, State.put_tiles, State.softPage_tiles, foldl_dmaComplete_tiles]

section
variable (d : Chan) (s : State) (h : s.softTaken (pgDma d) .dma d = true)
include h

theorem dmaSoftReset_gives {P : State → Prop}
    (hP : P ((s.dmaSoft d).putFlag (pgDma d) PAGE_STAT.SRST_BUSY true)) : Gives (.dmaSoftReset d) s P := by
  have hp := pageAt_pgDma d
  have hform : softForm (.dmaSoftReset d) (pgDma d) :=
    .inr (.inr (.inr (.inr (.inr (.inr (.inr (.inr ⟨d, rfl, rfl⟩)))))))
  have hpower : s.pagePower (pgDma d) = 0 := pagePower_of_no_domain hp (by simp)
  have heffect : s.softEffect (pgDma d) .dma d = s.dmaSoft d := rfl
  refine gives_softRun hform hp h (by omega) ?_
  rw [State.softRun, dropRetained_of_no_domain hp (by simp), heffect, hpower]
  exact hP

theorem dmaSoftReset_gives_of_idle (hidle : (s.dma d).run = none) :
    Gives (.dmaSoftReset d) s (fun s' => s'.dma d = Dma.init ∧ s'.tiles = s.tiles) := by
  refine dmaSoftReset_gives d s h ?_
  rw [State.dmaSoft, if_neg (by simp [hidle]), State.putFlag, State.dma_put, State.put_tiles, dmaClear_tiles]
  exact ⟨State.dma_setDma_self _ _ _, rfl⟩

/-- With a piece under way a channel goes on to the piece's end and stays busy (12 R367). -/
theorem dmaSoftReset_gives_of_running (hrun : (s.dma d).run ≠ none) :
    Gives (.dmaSoftReset d) s (fun s' => s'.dma d = { s.dma d with stop := true } ∧
      s'.flag (pgDma d) PAGE_STAT.SRST_BUSY = true ∧ s'.softHeld (pgDma d) = true ∧
      (∀ e, e ≠ d.val → s'.dma e = s.dma e) ∧ s' = { s with regs := s'.regs, dmas := s'.dmas } ∧
      RegsBut [(pgDma d, DMA_STAT.QUEUED), (pgDma d, DMA_STAT.BUSY), (pgDma d, PAGE_STAT.SRST_BUSY)] s s') := by
  have hsome : (s.dma d).run.isSome = true := Option.isSome_iff_ne_none.mpr hrun
  refine dmaSoftReset_gives d s h ?_
  rw [State.dmaSoft, if_pos hsome]
  have hdma (e : Nat) (x : Dma) : ((s.setDma d x).putFlag (pgDma d) PAGE_STAT.SRST_BUSY true).dma e =
      (s.setDma d x).dma e := State.dma_put _ _ _ _ _
  refine ⟨?_, State.flag_putFlag_self _ _ _ _ (by decide), ?_, fun e he => ?_, ?_, ?_⟩
  · rw [hdma, State.dma_setDma_self]
  · simp [State.softHeld, pageAt_pgDma, hdma, hsome]
  · rw [hdma, State.dma_setDma_ne _ _ _ _ he]
  · rfl
  · exact (((RegsBut.of_regs rfl).put (by simp) _).put (by simp) _).put (by simp) _

end

/-! ## Ropes -/

@[simp] theorem State.softPage_ropes (s : State) (p : PageRef) : (s.softPage p).ropes = s.ropes := by
  rw [State.softPage_frame]
@[simp] theorem State.softPage_kv (s : State) (p : PageRef) : (s.softPage p).kv = s.kv := by rw [State.softPage_frame]
@[simp] theorem State.softPage_attn (s : State) (p : PageRef) : (s.softPage p).attn = s.attn := by
  rw [State.softPage_frame]

/-- No rope is open, no attention runs, and nothing of a tile or of memory has changed. -/
theorem clearRopes_rest (s : State) : s.clearRopes.ropes = [] ∧ s.clearRopes.kv = { Kv.init with nextJob := s.kv.nextJob } ∧
    s.clearRopes.attn.cmds = [] ∧ s.clearRopes.attn.accepts = [] ∧ s.clearRopes.mem = s.mem ∧
    s.clearRopes.tiles = s.tiles := by
  refine ⟨?_, ?_, ?_, ?_, ?_, ?_⟩ <;> simp [State.clearRopes, State.putFlag]

theorem flag_active_ropeSoft (s : State) : s.ropeSoft.flag pgCairn CAIRN_STAT.ACTIVE = false := by
  have hp : pageAt pgRope = some (.rope, 0) := by decide
  have hclear : s.clearRopes.get pgCairn CAIRN_STAT.ACTIVE = 0 := by
    simp only [State.clearRopes, State.putFlag]
    rw [State.get_put_apart _ _ _ _ _ _ (by decide), State.get_put_apart _ _ _ _ _ _ (by decide),
      State.get_put_apart _ _ _ _ _ _ (by decide), State.get_put_apart _ _ _ _ _ _ (by decide), State.get_put_self]
    rfl
  rw [State.flag, State.ropeSoft, get_softPage_of_outside hp (by decide), hclear]
  rfl

/-- The soft reset of the ropes (08 R234). -/
theorem ropeSoftReset_gives (s : State) (h : s.softTaken pgRope .rope 0 = true) : Gives .ropeSoftReset s (fun s' =>
    s'.ropes = [] ∧ s'.kv = { Kv.init with nextJob := s.kv.nextJob } ∧ s'.attn.cmds = [] ∧ s'.attn.accepts = [] ∧
    s'.flag pgCairn CAIRN_STAT.ACTIVE = false ∧ s'.mem = s.mem ∧ s'.tiles = s.tiles) := by
  have hp : pageAt pgRope = some (.rope, 0) := by decide
  have hform : softForm .ropeSoftReset pgRope := .inr (.inr (.inr (.inr (.inl ⟨rfl, rfl⟩))))
  have hpower : s.pagePower pgRope ≠ 3 := by rw [pagePower_of_no_domain hp (by simp)]; decide
  have heffect : s.softEffect pgRope .rope 0 = s.ropeSoft := rfl
  refine gives_softRun hform hp h hpower ?_
  rw [State.softRun, dropRetained_of_no_domain hp (by simp), heffect]
  have hbusy (b : Bool) : (s.ropeSoft.putFlag pgRope PAGE_STAT.SRST_BUSY b).flag pgCairn CAIRN_STAT.ACTIVE = false := by
    rw [State.flag, State.putFlag, State.get_put_apart _ _ _ _ _ _ (by decide)]
    exact flag_active_ropeSoft s
  simp only [State.putFlag, State.put_ropes, State.put_kv, State.put_attn, State.put_mem, State.put_tiles, State.ropeSoft,
    State.softPage_ropes, State.softPage_kv, State.softPage_attn, State.softPage_mem, State.softPage_tiles] at hbusy ⊢
  obtain ⟨hropes, hkv, hcmds, haccepts, hmem, htiles⟩ := clearRopes_rest s
  exact ⟨hropes, hkv, hcmds, haccepts, hbusy _, hmem, htiles⟩

end Sys2Proof.Machine
end

section
/-! The obligation on soft resets (02 R43 to R45, 04 R487, 05 R492, 08 R234, 12 R361, R367, R489). -/

namespace Sys2Proof.Machine

open Sys2Proof.Say

/-- Settles O41: the page's clauses from `softValue`, which says what a soft reset leaves in a register whatever its block's
side effects, and the blocks' clauses one by one. -/
theorem softResetsReturnPageAndBlock : Obligations.SoftResetsReturnPageAndBlock := by
  unfold Obligations.SoftResetsReturnPageAndBlock
  refine ⟨fun c p t i s hform hp => ⟨fun htaken hpower hidle => ?_, gives_softWait hform hp, exec_of_not_taken hform hp,
    softResetDone_gives, softResetDone_of_held⟩, fun t s => tileSoftReset_gives t s, fun n m k s => ?_,
    subwSoftReset_gives, fun d s h => ⟨dmaSoftReset_gives_of_idle d s h, dmaSoftReset_gives_of_running d s h⟩,
    ropeSoftReset_gives⟩
  · refine gives_softRun hform hp htaken hpower ⟨softRun_busy, fun f hf => ⟨fun hacc => ?_, fun hacc hlock => ?_⟩,
      fun f hf => ?_, fun hfprt hhprt f hf => ?_, fun ht => ⟨softRun_frame_of_plain hp ht, fun q f hq => ?_⟩⟩
    · rw [get_softRun hp hidle (mem_softFields_of_acc hf (hacc.imp_right And.left)), softValue_of_returned hp hf hacc]
    · rw [get_softRun hp hidle (mem_softFields_of_acc hf (.inr hacc)), softValue_of_locked hp hf hacc hlock]
    · have hheld : f ∈ heldHeader t := List.mem_append_left _ hf
      have hwidth : f.hi + 1 - f.lo = 1 :=
        (by decide : ∀ f ∈ [PAGE_CTRL.LOCK, PAGE_STAT.LOCK_HIT], f.hi + 1 - f.lo = 1) f hf
      rw [get_softRun hp hidle (by simp [softFields, hheld]), softValue_of_header hp hheld, hwidth, pow_one]
    · have hheld : f ∈ heldHeader t := by
        rw [heldHeader, if_neg (by simp [hfprt, hhprt])]
        exact List.mem_append_right _ hf
      rw [get_softRun hp hidle (by simp [softFields, hheld]), softValue_of_header hp hheld]
    · exact get_softRun_of_outside hp ht hq
  · exact ⟨nmemSoftReset_gives n m s, erowSoftReset_gives k s⟩

end Sys2Proof.Machine
end

section
/-! Operations of a tile at issue (03 R63, R82, 04 R92, R97, R100): an operation that traps nothing and is not held back takes
effect, and what it changes is its tile. -/

namespace Sys2Proof.Machine

open Sys2Proof.Say

theorem onlyTile_modTile (s : State) (t : Nat) (f : Tile → Tile) : OnlyTile t s (s.modTile t f) :=
  ⟨s.modTile_frame t f, fun k hk => s.tile_modTile_ne t k f hk⟩

/-- An operation without a trap, with the lanes ON where it needs them, and not held back takes effect. -/
theorem runOp_of_ready {s : State} {t : Nat} {op : SlotOp} (hissues : s.issues t = true)
    (htrap : s.opTrap (s.tile t) op = none) (hlanes : op.lanes = true → s.arrState t = rampOn)
    (hheld : (s.tile t).opHeld op = false) : s.runOp t op = s.opApply t (s.tile t) op := by
  have hon : (op.lanes && s.arrState t != rampOn) = false := by
    cases hop : op.lanes with
    | false => rfl
    | true => simp [hlanes hop]
  simp [State.runOp, hissues, htrap, hon, hheld]

/-- The opcodes of the vector slot whose operations trap only where `SAT` must be 0 (04 R100). -/
def lanesCode (vop : Nat) : Bool := vop != 0 && vop != 0x1C && vop != 0x1E && decide (vop < 0x20) && vecDefined vop

theorem vecTrap_of_lanesCode {u : Tile} {vop : Nat} {o : VecOp} (hcode : lanesCode vop = true)
    (hsat : o.sat = false ∨ vop = 0x1D) : u.vecTrap vop o = none := by
  simp only [lanesCode, Bool.and_eq_true, bne_iff_ne, decide_eq_true_eq] at hcode
  obtain ⟨⟨⟨⟨hnop, hcvt⟩, hqmx⟩, hlt⟩, hdef⟩ := hcode
  have hill : (o.sat && vop != 0x1C && vop != 0x1D) = false := by
    rcases hsat with h | h <;> simp [h]
  have hmen : (decide (0x20 ≤ vop) && o.men) = false := by simp [Nat.not_le.mpr hlt]
  simp only [Tile.vecTrap, hnop, hdef, hill, hmen, hcvt, hqmx, Bool.not_true, Bool.false_eq_true, if_false]
  repeat rw [if_neg (by omega)]

/-- A vector operation that traps nothing and is not held back takes effect. -/
theorem runOp_vec {s : State} {t vop : Nat} {o : VecOp} (hissues : s.issues t = true)
    (htrap : (s.tile t).vecTrap vop o = none) (hheld : (s.tile t).vecHeld vop o = false) :
    s.runOp t (.vec vop o) = s.vecApply t (s.tile t) vop o :=
  runOp_of_ready hissues htrap nofun hheld

theorem vecHeld_of_ne {u : Tile} {vop : Nat} {o : VecOp} (hacc : vop ≠ 0x18) (htoa : vop ≠ 0x19) :
    u.vecHeld vop o = false := by
  simp [Tile.vecHeld, hacc, htoa]

end Sys2Proof.Machine
end

section
/-! Lanes written (03 R78, 04 R100): the registers of a tile after a write of its active lanes, and the sticky bits of
`ASTAT`. -/

namespace Sys2Proof.Machine

open Sys2Proof.Say

/-! ## Runs of writes -/

/-- A map after the chosen ones of `n` neighbouring keys are written. -/
theorem mapGet_foldl_lanes {α : Type} [DecidableEq α] (d : α) (p : Nat → Bool) (g : Nat → α) (m : List (Nat × α))
    (b n k : Nat) :
    mapGet d ((List.range n).foldl (fun m i => if p i then mapSet d m (b + i) (g i) else m) m) k =
      if b ≤ k ∧ k < b + n ∧ p (k - b) = true then g (k - b) else mapGet d m k := by
  induction n with
  | zero => simp; omega
  | succ n ih =>
    rw [List.range_succ, List.foldl_append, List.foldl_cons, List.foldl_nil]
    by_cases hk : k = b + n
    · subst hk
      cases hp : p n <;> simp [hp, ih]
    · have hrange : (b ≤ k ∧ k < b + (n + 1)) ↔ b ≤ k ∧ k < b + n := by omega
      simp only [← and_assoc, hrange] at ih ⊢
      split <;> simp only [mapGet_mapSet_ne, hk, ih, ne_eq, not_false_eq_true]

/-- Sticky bits gathered from the chosen members of a list. -/
theorem testBit_foldl_flagOr {ι : Type} (l : List ι) (p : ι → Bool) (g : ι → Nat) (a b : Nat) :
    (l.foldl (fun a i => if p i then flagOr a (g i) else a) a).testBit b =
      (a.testBit b || l.any (fun i => p i && (g i).testBit b)) := by
  induction l generalizing a with
  | nil => simp
  | cons i l ih =>
    rw [List.foldl_cons, ih, List.any_cons]
    cases p i <;> simp [flagOr, Bool.or_assoc]

theorem any_range_congr {n : Nat} {p q : Nat → Bool} (h : ∀ i < n, p i = q i) :
    (List.range n).any p = (List.range n).any q := by
  rw [Bool.eq_iff_iff, List.any_eq_true, List.any_eq_true]
  exact exists_congr fun i => and_congr_right fun hi => by rw [h i (List.mem_range.mp hi)]

theorem getD_map_range {α : Type} (f : Nat → α) (d : α) {n i : Nat} (h : i < n) :
    ((List.range n).map f).getD i d = f i := by
  simp [List.getD_eq_getElem?_getD, h]

/-! ## Registers -/

theorem Tile.vec_setVec_self (u : Tile) (o : VecOp) (r : Nat) (ws : List Word) {l : Nat} (h : l < 64) :
    (u.setVec o r ws).vec r l = if u.active o l then ws.getD l 0 else u.vec r l := by
  have hk : 64 * r ≤ 64 * r + l ∧ 64 * r + l < 64 * r + 64 := by omega
  simp [Tile.vec, Tile.setVec, mapGet_foldl_lanes, hk]

theorem Tile.vec_setVec_ne (u : Tile) (o : VecOp) (r : Nat) (ws : List Word) {q l : Nat} (hq : q ≠ r) (h : l < 64) :
    (u.setVec o r ws).vec q l = u.vec q l := by
  have hk : ¬(64 * r ≤ 64 * q + l ∧ 64 * q + l < 64 * r + 64 ∧ u.active o (64 * q + l - 64 * r) = true) := by omega
  rw [Tile.vec, Tile.setVec, mapGet_foldl_lanes, if_neg hk, Tile.vec]

theorem Tile.accum_setAcc_self (u : Tile) (o : VecOp) (q : Nat) (ws : List Word) {l : Nat} (h : l < 64) :
    (u.setAcc o q ws).accum q l = if u.active o l then ws.getD l 0 else u.accum q l := by
  have hk : 64 * q ≤ 64 * q + l ∧ 64 * q + l < 64 * q + 64 := by omega
  simp [Tile.accum, Tile.setAcc, mapGet_foldl_lanes, hk]

theorem Tile.accum_setAcc_ne (u : Tile) (o : VecOp) (r : Nat) (ws : List Word) {q l : Nat} (hq : q ≠ r) (h : l < 64) :
    (u.setAcc o r ws).accum q l = u.accum q l := by
  have hk : ¬(64 * r ≤ 64 * q + l ∧ 64 * q + l < 64 * r + 64 ∧ u.active o (64 * q + l - 64 * r) = true) := by omega
  rw [Tile.accum, Tile.setAcc, mapGet_foldl_lanes, if_neg hk, Tile.accum]

@[simp] theorem Tile.vec_raise (u : Tile) (f r l : Nat) : (u.raise f).vec r l = u.vec r l := rfl

@[simp] theorem Tile.active_setVec (u : Tile) (o o' : VecOp) (r : Nat) (ws : List Word) (l : Nat) :
    (u.setVec o r ws).active o' l = u.active o' l := rfl

theorem Tile.testBit_raise (u : Tile) (f b : Nat) : (u.raise f).astat.testBit b = (u.astat.testBit b || f.testBit b) :=
  Nat.testBit_or ..

theorem writesVector_setVec (u : Tile) (o : VecOp) (r : Nat) (ws : List Word) (f : Nat → Word)
    (h : ∀ l < 64, ws.getD l 0 = f l) : WritesVector u (u.setVec o r ws) o r f :=
  ⟨fun l hl => by rw [u.vec_setVec_self o r ws hl, h l hl], fun _ _ hq hl => u.vec_setVec_ne o r ws hq hl⟩

/-! ## Lane operations -/

theorem vecLanes_writes (u : Tile) (o : VecOp) (f : Nat → Word × Nat) :
    WritesVector u (u.vecLanes u o f) o o.vd.toNat (fun l => (f l).1) :=
  writesVector_setVec u o _ _ _ fun l hl => by rw [Tile.lanes, List.map_map, getD_map_range _ _ hl, Function.comp]

theorem vecLanes_flags (u : Tile) (o : VecOp) (f : Nat → Word × Nat) : StickyFlags u (u.vecLanes u o f) o f := by
  intro b
  rw [Tile.vecLanes, Tile.testBit_raise, Tile.lanes, testBit_foldl_flagOr, Nat.zero_testBit, Bool.false_or]
  exact congrArg _ (any_range_congr fun i hi => by rw [getD_map_range _ _ hi])

end Sys2Proof.Machine
end

section
/-! The obligation on the lane operations of the vector slot (03 R77 to R80, 04 R100). -/

namespace Sys2Proof.Machine

open Sys2Proof.Say

/-- Each lane operation is an opcode of the vector slot, and its effect is its function in every lane. -/
theorem laneForm_runs {t : TileId} {o : VecOp} {s : State} {c : Instr} {f : Nat → Word × Nat}
    (h : (c, f) ∈ laneForms (s.tile t) t o) (hsat : o.sat = false ∨ c = .vcvtInt32 t o) :
    ∃ vop, lanesCode vop = true ∧ vop ≠ 0x18 ∧ vop ≠ 0x19 ∧ (o.sat = false ∨ vop = 0x1D) ∧
      exec c s = .next (s.runOp t (.vec vop o)) ∧
      s.vecApply t (s.tile t) vop o = s.modTile t (fun w => w.vecLanes (s.tile t) o f) := by
  simp only [laneForms, List.mem_cons, List.not_mem_nil, or_false, Prod.mk.injEq] at h
  rcases h with ⟨rfl, rfl⟩ | ⟨rfl, rfl⟩ | ⟨rfl, rfl⟩ | ⟨rfl, rfl⟩ | ⟨rfl, rfl⟩ | ⟨rfl, rfl⟩ | ⟨rfl, rfl⟩ | ⟨rfl, rfl⟩ |
    ⟨rfl, rfl⟩ | ⟨rfl, rfl⟩ | ⟨rfl, rfl⟩ | ⟨rfl, rfl⟩ | ⟨rfl, rfl⟩ | ⟨rfl, rfl⟩
  · exact ⟨0x01, by decide, by decide, by decide, hsat.imp_right nofun, rfl, rfl⟩
  · exact ⟨0x02, by decide, by decide, by decide, hsat.imp_right nofun, rfl, rfl⟩
  · exact ⟨0x03, by decide, by decide, by decide, hsat.imp_right nofun, rfl, rfl⟩
  · exact ⟨0x04, by decide, by decide, by decide, hsat.imp_right nofun, rfl, rfl⟩
  · exact ⟨0x05, by decide, by decide, by decide, hsat.imp_right nofun, rfl, rfl⟩
  · exact ⟨0x06, by decide, by decide, by decide, hsat.imp_right nofun, rfl, rfl⟩
  · exact ⟨0x07, by decide, by decide, by decide, hsat.imp_right nofun, rfl, rfl⟩
  · exact ⟨0x08, by decide, by decide, by decide, hsat.imp_right nofun, rfl, rfl⟩
  · exact ⟨0x0C, by decide, by decide, by decide, hsat.imp_right nofun, rfl, rfl⟩
  · exact ⟨0x10, by decide, by decide, by decide, hsat.imp_right nofun, rfl, rfl⟩
  · exact ⟨0x11, by decide, by decide, by decide, hsat.imp_right nofun, rfl, rfl⟩
  · exact ⟨0x12, by decide, by decide, by decide, hsat.imp_right nofun, rfl, rfl⟩
  · exact ⟨0x13, by decide, by decide, by decide, hsat.imp_right nofun, rfl, rfl⟩
  · exact ⟨0x1D, by decide, by decide, by decide, .inr rfl, rfl, rfl⟩

theorem laneForm_gives {t : TileId} {o : VecOp} {s : State} {c : Instr} {f : Nat → Word × Nat}
    (h : (c, f) ∈ laneForms (s.tile t) t o) (hissues : s.issues t = true) (hsat : o.sat = false ∨ c = .vcvtInt32 t o) :
    exec c s = .next (s.modTile t (fun w => w.vecLanes (s.tile t) o f)) := by
  obtain ⟨vop, hcode, hacc, htoa, hsat, hexec, happly⟩ := laneForm_runs h hsat
  rw [hexec, runOp_vec hissues (vecTrap_of_lanesCode hcode hsat) (vecHeld_of_ne hacc htoa), happly]

/-! ## NaN operands (03 R78) -/

theorem vecValue_of_isNaN {a : Word} (h : (vecValue a).isNaN = true) : vecValue a = .nan := by
  cases hv : vecValue a with
  | nan => rfl
  | inf | fin => rw [hv] at h; cases h

theorem vecValue_eq_nan_iff (a : Word) : vecValue a = .nan ↔ bits a.toNat 30 23 = 255 ∧ a.toNat % 2 ^ 23 ≠ 0 := by
  simp only [vecValue, value32]
  split
  · rename_i h; simp [h]
  · split
    · split <;> simp_all
    · simp_all

/-- Turning the sign leaves the other 31 bits. -/
theorem flipSign_mod (a : Word) : (flipSign a).toNat % 2 ^ 31 = a.toNat % 2 ^ 31 := by
  have hsign : (0x80000000#32).toNat % 2 ^ 31 = 0 := by decide
  rw [flipSign, BitVec.toNat_xor, Nat.xor_mod_two_pow, hsign, Nat.xor_zero]

theorem vecValue_flipSign_of_nan {a : Word} (h : vecValue a = .nan) : vecValue (flipSign a) = .nan := by
  rw [vecValue_eq_nan_iff] at *
  have hmod := flipSign_mod a
  simp only [bits] at *
  omega

theorem laneAdd_of_nan {a b : Word} (h : vecValue a = .nan ∨ vecValue b = .nan) : laneAdd a b = (canonNaN, flagNanIn) := by
  unfold laneAdd
  rcases h with h | h
  · rw [h]
  · rw [h]; split <;> simp_all

theorem mulFV_of_nan {x y : FV} (h : x = .nan ∨ y = .nan) : mulFV x y = some .nan := by
  rcases h with rfl | rfl
  · rfl
  · cases x <;> rfl

theorem laneMul_of_nan {a b : Word} (h : vecValue a = .nan ∨ vecValue b = .nan) : laneMul a b = (canonNaN, flagNanIn) := by
  rw [laneMul, mulFV_of_nan h]

theorem laneFma_of_nan {a b c : Word} (h : vecValue a = .nan ∨ vecValue b = .nan ∨ vecValue c = .nan) :
    laneFma a b c = (canonNaN, flagNanIn) := by
  rw [← or_assoc] at h
  simp only [laneFma]
  rcases h with h | h
  · rw [mulFV_of_nan h]
  · rw [h]; split <;> simp_all

theorem laneExtreme_of_nan {a b : Word} (most : Bool) (h : (vecValue a).isNaN = true ∨ (vecValue b).isNaN = true) :
    laneExtreme most a b = (canonNaN, flagNanIn) :=
  if_pos (by simpa using h)

theorem laneCmp_of_nan {a b : Word} (k : Cmp) (x : Bool) (h : (vecValue a).isNaN = true ∨ (vecValue b).isNaN = true) :
    laneCmp k x a b = (x, flagNanIn) :=
  if_pos (by simpa using h)

theorem binary_of_nan {a : Word} (b : Word) (h : (vecValue a).isNaN = true) :
    ∀ f ∈ [laneAdd, laneSub, laneMul, laneMin, laneMax], f a b = (canonNaN, flagNanIn) ∧ f b a = (canonNaN, flagNanIn) := by
  have hnan := vecValue_of_isNaN h
  simp only [List.forall_mem_cons, List.not_mem_nil, false_imp_iff, implies_true, and_true]
  exact ⟨⟨laneAdd_of_nan (.inl hnan), laneAdd_of_nan (.inr hnan)⟩,
    ⟨laneAdd_of_nan (.inl hnan), laneAdd_of_nan (.inr (vecValue_flipSign_of_nan hnan))⟩,
    ⟨laneMul_of_nan (.inl hnan), laneMul_of_nan (.inr hnan)⟩,
    ⟨laneExtreme_of_nan false (.inl h), laneExtreme_of_nan false (.inr h)⟩,
    ⟨laneExtreme_of_nan true (.inl h), laneExtreme_of_nan true (.inr h)⟩⟩

theorem unary_of_nan {a : Word} (h : (vecValue a).isNaN = true) :
    ∀ f ∈ [laneAbs, laneNeg, laneExp2, laneExp, laneRcp, laneRsqrt], f a = (canonNaN, flagNanIn) := by
  have hnan := vecValue_of_isNaN h
  simp only [List.forall_mem_cons, List.not_mem_nil, false_imp_iff, implies_true, and_true]
  exact ⟨if_pos h, if_pos h, by rw [laneExp2, hnan], by rw [laneExp, hnan], by rw [laneRcp, hnan], by rw [laneRsqrt, hnan]⟩

/-- Settles O9: an issuing tile runs each form as `Tile.vecLanes` of its function (`laneForm_gives`), and every lane function
tests its operands for NaN first. -/
theorem laneOperationsWriteActiveLanes : Obligations.LaneOperationsWriteActiveLanes := by
  unfold Obligations.LaneOperationsWriteActiveLanes
  refine ⟨fun t o s c f hform hissues hsat => ?_, fun a b c h => ?_⟩
  · refine ⟨_, laneForm_gives hform hissues hsat, onlyTile_modTile s t _, ?_⟩
    rw [State.tile_modTile_self]
    exact ⟨rfl, vecLanes_writes (s.tile t) o f, vecLanes_flags (s.tile t) o f⟩
  · have hnan := vecValue_of_isNaN h
    exact ⟨binary_of_nan b h, laneFma_of_nan (.inl hnan), laneFma_of_nan (.inr (.inl hnan)),
      laneFma_of_nan (.inr (.inr hnan)), unary_of_nan h,
      fun k x => ⟨laneCmp_of_nan k x (.inl h), laneCmp_of_nan k x (.inr h)⟩⟩

end Sys2Proof.Machine
end

section
/-! The obligation on comparisons, reductions and copies of accumulators (03 R77, R78, 04 R100). -/

namespace Sys2Proof.Machine

open Sys2Proof.Say

/-- The tile after a change of it and of the count of free values is the tile changed. -/
theorem tile_modTile_fresh (s : State) (t n : Nat) (f : Tile → Tile) :
    State.tile { s.modTile t f with fresh := n } t = f (s.tile t) :=
  s.tile_modTile_self t f

theorem tilesBut_modTile_fresh (s : State) (t n : Nat) (f : Tile → Tile) :
    TilesBut t s { s.modTile t f with fresh := n } :=
  fun k hk => s.tile_modTile_ne t k f hk

/-! ## Comparisons -/

/-- The number whose bits below `n` are those of `p`, as `Tile.vecCompare` forms it. -/
theorem foldl_bits (p : Nat → Bool) (n : Nat) :
    let v := (List.range n).foldl (fun a l => a + if p l then 2 ^ l else 0) 0
    v < 2 ^ n ∧ ∀ l < n, v.testBit l = p l := by
  induction n with
  | zero => simp
  | succ n ih =>
    obtain ⟨hlt, hbit⟩ := ih
    simp only [List.range_succ, List.foldl_append, List.foldl_cons, List.foldl_nil]
    generalize (List.range n).foldl (fun a l => a + if p l then 2 ^ l else 0) 0 = v at hlt hbit
    have hpow : 2 ^ (n + 1) = 2 * 2 ^ n := by ring
    refine ⟨by split <;> omega, fun l hl => ?_⟩
    rcases Nat.lt_succ_iff_lt_or_eq.mp hl with hl | rfl
    · cases p n
      · simpa using hbit l hl
      · simpa [Nat.add_comm v, Nat.testBit_two_pow_add_gt hl] using hbit l hl
    · cases hp : p l
      · simpa using Nat.testBit_lt_two_pow hlt
      · simpa [Nat.add_comm v, Nat.testBit_two_pow_add_eq] using Nat.testBit_lt_two_pow hlt

section

variable (u : Tile) (o : VecOp) (k : Cmp) (n : Nat)

/-- What a comparison gives in a lane. -/
def Tile.cmpLane (l : Nat) : Bool × Nat :=
  laneCmp k ((Config.freeValue (n + l)).getLsbD 0) (u.vec o.va.toNat l) (u.opB o l)

theorem vecCompare_mask_self {l : Nat} (hl : l < 64) :
    ((u.vecCompare u o k n).mask (o.vd.toNat % 8)).getLsbD l =
      if u.active o l then (u.cmpLane o k n l).1 else (u.mask (o.vd.toNat % 8)).getLsbD l := by
  obtain ⟨-, hbit⟩ := foldl_bits (fun l => if u.active o l then
    (((List.range 64).map (u.cmpLane o k n)).getD l (false, 0)).1 else (u.mask (o.vd.toNat % 8)).getLsbD l) 64
  rw [← getD_map_range (u.cmpLane o k n) (false, 0) hl, ← hbit l hl]
  simp only [Tile.mask, Tile.vecCompare, Tile.raise, mapGet_mapSet_self, BitVec.getLsbD_ofNat, hl, decide_true,
    Bool.true_and]
  rfl

theorem vecCompare_mask_ne {m : Nat} (hm : m ≠ o.vd.toNat % 8) : (u.vecCompare u o k n).mask m = u.mask m :=
  mapGet_mapSet_ne _ _ _ _ _ _ hm

theorem vecCompare_flags : StickyFlags u (u.vecCompare u o k n) o (fun l => (0, (u.cmpLane o k n l).2)) := by
  intro b
  rw [Tile.vecCompare, Tile.testBit_raise, testBit_foldl_flagOr, Nat.zero_testBit, Bool.false_or]
  exact congrArg _ (any_range_congr fun i hi => by rw [getD_map_range _ _ hi]; rfl)

end

theorem compare_gives {t : TileId} {o : VecOp} {s : State} {c : Instr} {k : Cmp}
    (h : (c, k) ∈ [(Instr.vcmpEq t o, Cmp.eq), (.vcmpLt t o, .lt), (.vcmpLe t o, .le)]) (hissues : s.issues t = true)
    (hsat : o.sat = false) :
    exec c s = .next { s.modTile t (fun w => w.vecCompare (s.tile t) o k s.fresh) with fresh := s.fresh + 64 } := by
  have hrun : ∃ vop, lanesCode vop = true ∧ vop ≠ 0x18 ∧ vop ≠ 0x19 ∧ exec c s = .next (s.runOp t (.vec vop o)) ∧
      s.vecApply t (s.tile t) vop o =
        { s.modTile t (fun w => w.vecCompare (s.tile t) o k s.fresh) with fresh := s.fresh + 64 } := by
    simp only [List.mem_cons, List.not_mem_nil, or_false, Prod.mk.injEq] at h
    rcases h with ⟨rfl, rfl⟩ | ⟨rfl, rfl⟩ | ⟨rfl, rfl⟩
    · exact ⟨0x09, by decide, by decide, by decide, rfl, rfl⟩
    · exact ⟨0x0A, by decide, by decide, by decide, rfl, rfl⟩
    · exact ⟨0x0B, by decide, by decide, by decide, rfl, rfl⟩
  obtain ⟨vop, hcode, hacc, htoa, hexec, happly⟩ := hrun
  rw [hexec, runOp_vec hissues (vecTrap_of_lanesCode hcode (.inl hsat)) (vecHeld_of_ne hacc htoa), happly]

/-! ## Reductions -/

/-- A list that holds its default but for its head. -/
theorem getD_cons_replicate {α : Type} (a d : α) (n l : Nat) :
    (a :: List.replicate n d).getD l d = if l = 0 then a else d := by
  cases l <;> simp

theorem vecReduce_writes (u : Tile) (o : VecOp) (f : List Word → Word × Nat) :
    WritesVector u (u.vecReduce u o f) o o.vd.toNat (fun l => if l = 0 then (f (u.vecAll o.va.toNat)).1 else 0) :=
  writesVector_setVec u o _ _ _ fun l _ => getD_cons_replicate _ _ 63 l

theorem reduce_gives {t : TileId} {o : VecOp} {s : State} {c : Instr} {f : List Word → Word × Nat}
    (h : (c, f) ∈ [(Instr.vrsum t o, sumTree), (.vrmax t o, maxAll)]) (hissues : s.issues t = true)
    (hsat : o.sat = false) : exec c s = .next (s.modTile t (fun w => w.vecReduce (s.tile t) o f)) := by
  have hrun : ∃ vop, lanesCode vop = true ∧ vop ≠ 0x18 ∧ vop ≠ 0x19 ∧ exec c s = .next (s.runOp t (.vec vop o)) ∧
      s.vecApply t (s.tile t) vop o = s.modTile t (fun w => w.vecReduce (s.tile t) o f) := by
    simp only [List.mem_cons, List.not_mem_nil, or_false, Prod.mk.injEq] at h
    rcases h with ⟨rfl, rfl⟩ | ⟨rfl, rfl⟩
    · exact ⟨0x14, by decide, by decide, by decide, rfl, rfl⟩
    · exact ⟨0x15, by decide, by decide, by decide, rfl, rfl⟩
  obtain ⟨vop, hcode, hacc, htoa, hexec, happly⟩ := hrun
  rw [hexec, runOp_vec hissues (vecTrap_of_lanesCode hcode (.inl hsat)) (vecHeld_of_ne hacc htoa), happly]

/-! ## Accumulators -/

section

variable {u : Tile} {o : VecOp}

/-- No operation in flight writes accumulator `q`, so none holds a copy of it back (03 R63). -/
theorem flight_any_of_all {q : Nat} (h : u.flight.all (fun f => f.q != q) = true) :
    u.flight.any (fun f => f.q == q) = false := by
  rw [List.any_eq_false]
  intro f hf
  simpa using List.all_eq_true.mp h f hf

theorem vecHeld_vacc (h : u.flight.all (fun f => f.q != o.va.toNat) = true) : u.vecHeld 0x18 o = false := by
  simp [Tile.vecHeld, flight_any_of_all h]

theorem vecHeld_vtoa (h : u.flight.all (fun f => f.q != o.vd.toNat) = true) : u.vecHeld 0x19 o = false := by
  simp [Tile.vecHeld, flight_any_of_all h]

end

theorem vacc_gives {t : TileId} {o : VecOp} {s : State} (hissues : s.issues t = true) (hsat : o.sat = false)
    (hfree : (s.tile t).flight.all (fun f => f.q != o.va.toNat) = true) :
    exec (.vacc t o) s = .next (s.modTile t (fun w => w.vecAcc (s.tile t) o)) :=
  congrArg Host.Outcome.next (runOp_vec hissues (vecTrap_of_lanesCode (by decide) (.inl hsat)) (vecHeld_vacc hfree))

theorem vtoa_gives {t : TileId} {o : VecOp} {s : State} (hissues : s.issues t = true) (hsat : o.sat = false)
    (hfree : (s.tile t).flight.all (fun f => f.q != o.vd.toNat) = true) :
    exec (.vtoa t o) s = .next (s.modTile t (fun w => w.accVec (s.tile t) o)) :=
  congrArg Host.Outcome.next (runOp_vec hissues (vecTrap_of_lanesCode (by decide) (.inl hsat)) (vecHeld_vtoa hfree))

/-- Settles O10: each command runs as one change of its tile, and the laws of `setVec`, `setAcc` and of the mask's bits say
what the change leaves. -/
theorem comparisonsReductionsAndCopies : Obligations.ComparisonsReductionsAndCopies := by
  unfold Obligations.ComparisonsReductionsAndCopies
  refine ⟨fun t o s c k hform hissues hsat => ?_, fun t o s hissues hsat => ⟨fun c f hform => ?_, fun hfree => ?_,
    fun hfree => ?_⟩⟩
  · refine ⟨_, compare_gives hform hissues hsat, ?_⟩
    simp only [tile_modTile_fresh]
    exact ⟨rfl, tilesBut_modTile_fresh s t _ _, rfl, fun l hl => vecCompare_mask_self _ o k _ hl,
      fun m hm => vecCompare_mask_ne _ o k _ hm, vecCompare_flags _ o k _⟩
  · refine ⟨_, reduce_gives hform hissues hsat, onlyTile_modTile s t _, ?_⟩
    rw [State.tile_modTile_self]
    exact ⟨rfl, vecReduce_writes _ o f, fun b => Tile.testBit_raise ..⟩
  · refine ⟨_, vacc_gives hissues hsat hfree, onlyTile_modTile s t _, ?_⟩
    rw [State.tile_modTile_self]
    exact ⟨rfl, writesVector_setVec _ o _ _ _ fun l hl => getD_map_range _ _ hl⟩
  · refine ⟨_, vtoa_gives hissues hsat hfree, onlyTile_modTile s t _, ?_⟩
    rw [State.tile_modTile_self]
    refine ⟨rfl, fun l hl => ?_, fun q l hq hl => Tile.accum_setAcc_ne _ o _ _ hq hl⟩
    rw [Tile.accVec, Tile.accum_setAcc_self _ _ _ _ hl, Tile.vecAll, getD_map_range _ _ hl]

end Sys2Proof.Machine
end

section
/-! Packed numbers (03 R53): the bytes, words and elements of a register or a stored range read as one little-endian number. -/

namespace Sys2Proof.Machine

/-! ## Bytes -/

theorem leNat_append (l r : List Byte) : leNat (l ++ r) = leNat l + 256 ^ l.length * leNat r := by
  induction l with
  | nil => simp [leNat]
  | cons b l ih => simp only [List.cons_append, leNat, ih, List.length_cons, pow_succ]; ring

/-- The bytes of a number, one by one. -/
theorem leNat_map_digits (v n : Nat) : leNat ((List.range n).map (fun i => BitVec.ofNat 8 (v / 256 ^ i))) = v % 256 ^ n := by
  induction n with
  | zero => simp [leNat, Nat.mod_one]
  | succ n ih =>
    rw [List.range_succ, List.map_append, leNat_append, ih, List.length_map, List.length_range, pow_succ, Nat.mod_mul]
    simp [leNat]

theorem leBytes_eq_map (n v : Nat) : leBytes n v = (List.range n).map (fun i => BitVec.ofNat 8 (v / 256 ^ i)) := by
  induction n generalizing v with
  | zero => rfl
  | succ n ih =>
    rw [leBytes, ih, List.range_succ_eq_map, List.map_cons, List.map_map]
    simp [Function.comp_def, pow_succ', Nat.div_div_eq_div_mul]

@[simp] theorem length_leBytes (n v : Nat) : (leBytes n v).length = n := by simp [leBytes_eq_map]

theorem leNat_leBytes (n v : Nat) : leNat (leBytes n v) = v % 256 ^ n := by rw [leBytes_eq_map, leNat_map_digits]

/-- A field of the bytes of a number. -/
theorem field_leBytes (v : Nat) {n off k : Nat} (h : off + k ≤ n) :
    field (leBytes n v) off k = v / 256 ^ off % 256 ^ k := by
  rw [← leNat_map_digits, field, slice]
  refine congrArg leNat (List.map_congr_left fun i hi => ?_)
  have hi := List.mem_range.mp hi
  rw [leBytes_eq_map, getD_map_range _ _ (by omega), pow_add, Nat.div_div_eq_div_mul]

/-! ## Words -/

theorem vecNat_append (l r : List Word) : vecNat (l ++ r) = vecNat l + 2 ^ (32 * l.length) * vecNat r := by
  induction l with
  | nil => simp [vecNat]
  | cons w l ih =>
    have hcons : ∀ m : List Word, vecNat (w :: m) = w.toNat + 2 ^ 32 * vecNat m := fun _ => rfl
    rw [List.cons_append, hcons, hcons, ih, List.length_cons, Nat.mul_succ, pow_add]
    ring

theorem vecNat_map_digits (v n : Nat) :
    vecNat ((List.range n).map (fun i => BitVec.ofNat 32 (v / 2 ^ (32 * i)))) = v % 2 ^ (32 * n) := by
  induction n with
  | zero => simp [vecNat, Nat.mod_one]
  | succ n ih =>
    rw [List.range_succ, List.map_append, vecNat_append, ih, List.length_map, List.length_range, Nat.mul_succ, pow_add,
      Nat.mod_mul]
    simp [vecNat]

/-- The words of the 256 bytes of a number. -/
theorem vecNat_bytesToWords (v : Nat) : vecNat (bytesToWords (leBytes 256 v)) = v % 2 ^ 2048 := by
  rw [show 2048 = 32 * 64 from rfl, ← vecNat_map_digits, bytesToWords]
  refine congrArg vecNat (List.map_congr_left fun i hi => ?_)
  have hi := List.mem_range.mp hi
  rw [field_leBytes v (by omega), show 256 ^ (4 * i) = 2 ^ (32 * i) by rw [show 256 = 2 ^ 8 from rfl, ← pow_mul]; ring_nf]
  apply BitVec.eq_of_toNat_eq
  simp

theorem length_bytesToWords (l : List Byte) : (bytesToWords l).length = 64 := by simp [bytesToWords]

/-- A bit of the words of a register lies in its word. -/
theorem testBit_vecNat (l : List Word) (k : Nat) : (vecNat l).testBit k = (l.getD (k / 32) 0).getLsbD (k % 32) := by
  induction l generalizing k with
  | nil => simp [vecNat]
  | cons w l ih =>
    have hcons : vecNat (w :: l) = 2 ^ 32 * vecNat l + w.toNat := Nat.add_comm ..
    rw [hcons, Nat.testBit_two_pow_mul_add _ w.isLt]
    split
    · rw [Nat.div_eq_of_lt (by omega), Nat.mod_eq_of_lt (by omega)]; rfl
    · obtain ⟨j, rfl⟩ : ∃ j, k = j + 32 := ⟨k - 32, by omega⟩
      rw [Nat.add_sub_cancel, ih, Nat.add_div_right _ (by decide), Nat.add_mod_right, List.getD_cons_succ]

/-! ## Elements -/

/-- Elements of `w` bits packed into one number, as `packElems` packs them. -/
def packed (w : Nat) (l : List Nat) : Nat := l.foldr (fun e r => e % 2 ^ w + 2 ^ w * r) 0

theorem packElems_eq (w : Nat) (l : List Nat) (n : Nat) : packElems w l n = leBytes n (packed w l) := rfl

theorem packed_lt (w : Nat) (l : List Nat) : packed w l < 2 ^ (w * l.length) := by
  induction l with
  | nil => simp [packed]
  | cons e l ih =>
    have hcons : packed w (e :: l) = e % 2 ^ w + 2 ^ w * packed w l := rfl
    have he : e % 2 ^ w < 2 ^ w := Nat.mod_lt _ (by positivity)
    rw [hcons, List.length_cons, Nat.mul_succ, Nat.add_comm (w * _), pow_add]
    calc e % 2 ^ w + 2 ^ w * packed w l < 2 ^ w * (packed w l + 1) := by rw [Nat.mul_succ]; omega
      _ ≤ 2 ^ w * 2 ^ (w * l.length) := Nat.mul_le_mul_left _ ih

theorem unpackAt_packed (w : Nat) (l : List Nat) (i : Nat) : unpackAt (packed w l) w i = l.getD i 0 % 2 ^ w := by
  induction l generalizing i with
  | nil => simp [packed, unpackAt]
  | cons e l ih =>
    have hcons : packed w (e :: l) = e % 2 ^ w + 2 ^ w * packed w l := rfl
    have hpos : 0 < 2 ^ w := by positivity
    cases i with
    | zero => simp [unpackAt, hcons]
    | succ i =>
      rw [List.getD_cons_succ, ← ih, unpackAt, unpackAt, hcons, Nat.mul_succ, Nat.add_comm (w * i), pow_add,
        ← Nat.div_div_eq_div_mul, Nat.add_mul_div_left _ _ hpos, Nat.div_eq_of_lt (Nat.mod_lt _ hpos), Nat.zero_add]

theorem testBit_unpackAt (n w i j : Nat) : (unpackAt n w i).testBit j = (decide (j < w) && n.testBit (w * i + j)) := by
  rw [unpackAt, Nat.testBit_mod_two_pow, Nat.testBit_div_two_pow, Nat.add_comm j]

theorem fmtWidth_le (f : Nat) : fmtWidth f ≤ 16 := by
  unfold fmtWidth
  split <;> decide

/-- The elements packed into a register are the elements of its words' number. -/
theorem vecNat_packElems (f : Nat) {l : List Nat} (h : l.length = 64) :
    vecNat (bytesToWords (packElems (fmtWidth f) l 256)) = packed (fmtWidth f) l := by
  have hwidth := fmtWidth_le f
  have hbits : fmtWidth f * l.length ≤ 2048 := by rw [h]; omega
  rw [packElems_eq, vecNat_bytesToWords,
    Nat.mod_eq_of_lt ((packed_lt _ l).trans_le (Nat.pow_le_pow_right (by decide) hbits))]

/-! ## Open bytes -/

theorem toNat_openWord (a b : Word) {m : Nat} (h : m ≤ 4) :
    (BitVec.ofNat 32 (a.toNat % 2 ^ (8 * m) + b.toNat / 2 ^ (8 * m) * 2 ^ (8 * m))).toNat =
      2 ^ (8 * m) * (b.toNat / 2 ^ (8 * m)) + a.toNat % 2 ^ (8 * m) := by
  have hpos : 0 < 2 ^ (8 * m) := by positivity
  have hmod : a.toNat % 2 ^ (8 * m) < 2 ^ (8 * m) := Nat.mod_lt _ hpos
  have hdiv : b.toNat / 2 ^ (8 * m) < 2 ^ (32 - 8 * m) := by
    rw [Nat.div_lt_iff_lt_mul hpos, ← pow_add, Nat.sub_add_cancel (by omega)]
    exact b.isLt
  have hlt : 2 ^ (8 * m) * (b.toNat / 2 ^ (8 * m) + 1) ≤ 2 ^ (8 * m) * 2 ^ (32 - 8 * m) := Nat.mul_le_mul_left _ hdiv
  rw [← pow_add, Nat.add_sub_cancel' (by omega), Nat.mul_succ] at hlt
  rw [BitVec.toNat_ofNat, Nat.add_comm, Nat.mul_comm _ (2 ^ (8 * m)), Nat.mod_eq_of_lt (by omega)]

/-- Words whose bytes from byte `n` on are left open hold the bits of the bytes before. -/
theorem testBit_openAfter (n fresh : Nat) (l : List Word) {k : Nat} (hn : k < 8 * n) (hk : k < 2048) :
    (vecNat (openAfter n fresh l)).testBit k = (vecNat l).testBit k := by
  have hword : k / 32 < 64 := by omega
  rw [testBit_vecNat, testBit_vecNat, openAfter, getD_map_range _ _ hword, BitVec.getLsbD, toNat_openWord _ _ (by omega),
    Nat.testBit_two_pow_mul_add _ (Nat.mod_lt _ (by positivity)), if_pos (by omega), Nat.testBit_mod_two_pow,
    decide_eq_true (by omega), Bool.true_and]
  rfl

theorem unpackAt_openAfter {n fresh : Nat} {l : List Word} {w i : Nat} (hn : w * (i + 1) ≤ 8 * n) (hn' : n ≤ 256) :
    unpackAt (vecNat (openAfter n fresh l)) w i = unpackAt (vecNat l) w i := by
  refine Nat.eq_of_testBit_eq fun j => ?_
  rw [testBit_unpackAt, testBit_unpackAt]
  by_cases hj : j < w
  · rw [Nat.mul_succ] at hn
    rw [testBit_openAfter _ _ _ (by omega) (by omega)]
  · simp [hj]

end Sys2Proof.Machine
end

section
/-! The obligation on conversions and quantisation (03 R80, R81, 04 R100). -/

namespace Sys2Proof.Machine

open Sys2Proof.Say

/-! ## `VCVT` -/

theorem vcvt_gives {t : TileId} {o : VecOp} {s : State} (hissues : s.issues t = true)
    (hformat : vcvtFormat (o.vc.toNat % 16) = true) :
    exec (.vcvt t o) s =
      .next { s.modTile t (fun w => w.vecCvt (s.tile t) o s.fresh) with fresh := s.fresh + 64 } := by
  have htrap : (s.tile t).vecTrap 0x1C o = none := by simp [Tile.vecTrap, vecDefined, hformat]
  exact congrArg Host.Outcome.next (runOp_vec hissues htrap (vecHeld_of_ne (by decide) (by decide)))

/-- What lane `l` gives in a conversion from FP32. -/
def Tile.narrowLane (u : Tile) (o : VecOp) (fresh l : Nat) : Nat × Nat :=
  narrow (o.vc.toNat % 16) o.sat (Config.freeValue (fresh + l)).toNat (u.vec o.va.toNat l)

/-- The elements of a conversion from FP32. -/
def Tile.narrowLanes (u : Tile) (o : VecOp) (fresh : Nat) : List Nat :=
  (List.range 64).map (fun l => (u.narrowLane o fresh l).1)

theorem vecCvt_wide {u : Tile} {o : VecOp} (h : o.vc.toNat < 16) (fresh : Nat) : u.vecCvt u o fresh = u.vecLanes u o
    (fun l => widen (o.vc.toNat % 16) (unpackAt (vecNat (u.vecAll o.va.toNat)) (fmtWidth (o.vc.toNat % 16)) l)) :=
  if_pos h

theorem vecCvt_narrow {u : Tile} {o : VecOp} (h : 16 ≤ o.vc.toNat) (fresh : Nat) : u.vecCvt u o fresh =
    (u.setVec o o.vd.toNat (bytesToWords (packElems (fmtWidth (o.vc.toNat % 16)) (u.narrowLanes o fresh) 256))).raise
      ((List.range 64).foldl (fun a l => flagOr a (u.narrowLane o fresh l).2) 0) := by
  rw [Tile.vecCvt]
  simp only [if_neg (Nat.not_lt.mpr h), List.map_map, List.foldl_map]
  rfl

/-! ## `VQMX` -/

theorem vqmx_gives {t : TileId} {o : VecOp} {s : State} (hissues : s.issues t = true)
    (hformat : fmtScaled (o.vc.toNat % 16) = true) (hsat : o.sat = false) :
    exec (.vqmx t o) s =
      .next { s.modTile t (fun w => w.vecQmx (s.tile t) o s.fresh) with fresh := s.fresh + 128 } := by
  have htrap : (s.tile t).vecTrap 0x1E o = none := by simp [Tile.vecTrap, vecDefined, hformat, hsat]
  exact congrArg Host.Outcome.next (runOp_vec hissues htrap (vecHeld_of_ne (by decide) (by decide)))

theorem clampInt_bounds {lo hi : Int} (h : lo ≤ hi) (v : Int) : lo ≤ (clampInt lo hi v).1 ∧ (clampInt lo hi v).1 ≤ hi := by
  unfold clampInt
  split_ifs <;> constructor <;> dsimp only <;> omega

/-- A block's scale is one byte, and it has an element for each lane. -/
theorem quantBlock_shape (f : Nat) (l : List Word) : (quantBlock f l).1 < 256 ∧ (quantBlock f l).2.1.length = l.length := by
  have hscale : ∀ v, ((clampInt (-127) 127 v).1 + 127).toNat < 256 := fun v => by
    have := clampInt_bounds (show (-127 : Int) ≤ 127 by decide) v
    omega
  simp only [quantBlock]
  split_ifs
  · simp
  · simp
  · simp
  all_goals exact ⟨hscale _, by simp⟩

/-- The words that quantisation leaves in V[VD] (03 R81). -/
def qmxWords (f : Nat) (l : List Word) (fresh : Nat) : List Word :=
  openAfter (8 * fmtWidth f) fresh (bytesToWords (packElems (fmtWidth f)
    ((quantBlock f (l.take 32)).2.1 ++ (quantBlock f (l.drop 32)).2.1) 256))

/-- The elements of the two blocks lie one after another in those words. -/
theorem unpackAt_qmxWords (f : Nat) {l : List Word} (hl : l.length = 64) (fresh : Nat) {i : Nat} (hi : i < 32) :
    unpackAt (vecNat (qmxWords f l fresh)) (fmtWidth f) i = (quantBlock f (l.take 32)).2.1.getD i 0 % 2 ^ fmtWidth f ∧
    unpackAt (vecNat (qmxWords f l fresh)) (fmtWidth f) (32 + i) =
      (quantBlock f (l.drop 32)).2.1.getD i 0 % 2 ^ fmtWidth f := by
  have hwidth := fmtWidth_le f
  have hfirst : (quantBlock f (l.take 32)).2.1.length = 32 := by simp [quantBlock_shape, hl]
  have hboth : ((quantBlock f (l.take 32)).2.1 ++ (quantBlock f (l.drop 32)).2.1).length = 64 := by
    simp [quantBlock_shape, hl]
  have hpacked : ∀ i < 64, unpackAt (vecNat (qmxWords f l fresh)) (fmtWidth f) i =
      ((quantBlock f (l.take 32)).2.1 ++ (quantBlock f (l.drop 32)).2.1).getD i 0 % 2 ^ fmtWidth f := fun i hi => by
    have hbits : fmtWidth f * (i + 1) ≤ 8 * (8 * fmtWidth f) := by
      calc fmtWidth f * (i + 1) ≤ fmtWidth f * 64 := Nat.mul_le_mul_left _ hi
        _ = 8 * (8 * fmtWidth f) := by ring
    rw [qmxWords, unpackAt_openAfter hbits (by omega), vecNat_packElems f hboth, unpackAt_packed]
  constructor
  · rw [hpacked _ (by omega), List.getD_append _ _ _ _ (by omega)]
  · rw [hpacked _ (by omega), List.getD_append_right _ _ _ _ (by omega), hfirst, Nat.add_sub_cancel_left]

/-- The words that quantisation leaves in V[VB]: the two scales in the first two bytes. -/
def qmxScales (fresh a b : Nat) : List Word :=
  openAfter 2 (fresh + 64) (BitVec.ofNat 32 (a + 256 * b) :: List.replicate 63 0)

theorem qmxScales_head (fresh : Nat) {a b : Nat} (ha : a < 256) (hb : b < 256) :
    ((qmxScales fresh a b).getD 0 0).toNat % 65536 = a + 256 * b := by
  have hkept : 8 * min 4 (2 - 4 * 0) = 16 := rfl
  rw [qmxScales, openAfter, getD_map_range _ _ (by decide), toNat_openWord _ _ (by decide), List.getD_cons_zero,
    BitVec.toNat_ofNat, hkept]
  omega

/-- Of two registers written one after the other, the second holds what was written last, in its active lanes. -/
theorem Tile.vec_setVec_setVec (u : Tile) (o : VecOp) (d b : Nat) (ws sc : List Word) {l : Nat} (hl : l < 64) :
    ((u.setVec o d ws).setVec o b sc).vec b l = if u.active o l then sc.getD l 0 else u.vec b l := by
  rw [Tile.vec_setVec_self _ _ _ _ hl, Tile.active_setVec]
  split
  · rfl
  · rename_i hoff
    by_cases hbd : b = d
    · rw [hbd, Tile.vec_setVec_self _ _ _ _ hl, if_neg hoff]
    · rw [Tile.vec_setVec_ne _ _ _ _ hbd hl]

/-- Two registers written and flags raised: nothing else of the tile changes. -/
theorem Tile.setVec_setVec_raise_frame (u : Tile) (o : VecOp) (d b : Nat) (ws sc : List Word) (f : Nat) :
    let w := ((u.setVec o d ws).setVec o b sc).raise f
    w = { u with v := w.v, astat := w.astat } := rfl

theorem vecQmx_eq (u : Tile) (o : VecOp) (fresh : Nat) :
    let f := o.vc.toNat % 16
    let a := quantBlock f ((u.vecAll o.va.toNat).take 32)
    let b := quantBlock f ((u.vecAll o.va.toNat).drop 32)
    u.vecQmx u o fresh = ((u.setVec o o.vd.toNat (qmxWords f (u.vecAll o.va.toNat) fresh)).setVec o o.vb.toNat
      (qmxScales fresh a.1 b.1)).raise (flagOr a.2.2 b.2.2) := rfl

/-- Settles O11: a conversion to FP32 is a lane operation; one from FP32, and a quantisation, write words that spell the packed
elements (`vecNat_packElems`, `unpackAt_qmxWords`). -/
theorem conversionsPackTheirElements : Obligations.ConversionsPackTheirElements := by
  unfold Obligations.ConversionsPackTheirElements
  intro t o s hissues f u
  refine ⟨fun hformat hwide => ?_, fun hformat hnarrow => ?_, fun hscaled hsat => ?_⟩
  · refine ⟨_, vcvt_gives hissues hformat, ?_⟩
    simp only [tile_modTile_fresh, vecCvt_wide hwide]
    exact ⟨rfl, tilesBut_modTile_fresh s t _ _, rfl, vecLanes_writes _ o _, vecLanes_flags _ o _⟩
  · refine ⟨_, vcvt_gives hissues hformat, ?_⟩
    simp only [tile_modTile_fresh, vecCvt_narrow hnarrow]
    have hlen : (u.narrowLanes o s.fresh).length = 64 := by simp [Tile.narrowLanes]
    have hlt := packed_lt (fmtWidth f) (u.narrowLanes o s.fresh)
    rw [hlen, Nat.mul_comm] at hlt
    refine ⟨rfl, tilesBut_modTile_fresh s t _ _, rfl,
      ⟨bytesToWords (packElems (fmtWidth f) (u.narrowLanes o s.fresh) 256), length_bytesToWords _, ?_, fun l hl => ?_, ?_⟩,
      fun b => ?_⟩
    · rw [vecNat_packElems f hlen]
      exact hlt
    · rw [vecNat_packElems f hlen, unpackAt_packed, Tile.narrowLanes, getD_map_range _ _ hl]
      rfl
    · exact writesVector_setVec _ o _ _ _ fun _ _ => rfl
    · have hflags := testBit_foldl_flagOr (List.range 64) (fun _ => true) (fun l => (u.narrowLane o s.fresh l).2) 0 b
      simp only [if_true, Nat.zero_testBit, Bool.false_or, Bool.true_and] at hflags
      rw [Tile.testBit_raise, hflags]
      rfl
  · refine ⟨_, vqmx_gives hissues hscaled hsat, ?_⟩
    simp only [tile_modTile_fresh, vecQmx_eq]
    have hall : (u.vecAll o.va.toNat).length = 64 := by simp [Tile.vecAll]
    have hscale := (quantBlock_shape f ((u.vecAll o.va.toNat).take 32)).1
    have hscale' := (quantBlock_shape f ((u.vecAll o.va.toNat).drop 32)).1
    have hne : ∀ {a b : BitVec 5}, a ≠ b → a.toNat ≠ b.toNat := fun h he => h (BitVec.eq_of_toNat_eq he)
    refine ⟨rfl, tilesBut_modTile_fresh s t _ _, Tile.setVec_setVec_raise_frame ..,
      ⟨qmxWords f (u.vecAll o.va.toNat) s.fresh, ?_, fun l hl => unpackAt_qmxWords f hall _ hl, fun hbd l hl => ?_⟩, ?_,
      fun l hl hoff => ?_, fun q l hd hb hl => ?_, fun i => ?_⟩
    · simp [qmxWords, openAfter]
    · rw [Tile.vec_raise, Tile.vec_setVec_ne _ _ _ _ (hne hbd.symm) hl, Tile.vec_setVec_self _ _ _ _ hl]
    · rw [Tile.vec_raise, Tile.vec_setVec_setVec _ _ _ _ _ _ (by decide)]
      split
      · exact qmxScales_head _ hscale hscale'
      · exact fun _ => rfl
    · have hinactive : ¬u.active o l = true := by rw [hoff]; decide
      rw [Tile.vec_raise, Tile.vec_setVec_setVec _ _ _ _ _ _ hl, if_neg hinactive]
    · rw [Tile.vec_raise, Tile.vec_setVec_ne _ _ _ _ hb hl, Tile.vec_setVec_ne _ _ _ _ hd hl]
    · rw [Tile.testBit_raise, flagOr, Nat.testBit_or, Bool.or_assoc]
      rfl

end Sys2Proof.Machine
end

section
/-! The top-k list (03 R73, R74): the order of its entries, entries put in their places, and offers as places in a list cut to
the best 64. -/

namespace Sys2Proof.Machine

open Sys2Proof.Say

/-! ## The order -/

/-- Where a finite value stands among the infinities. -/
def finRank (v : ℤ) : WithBot (WithTop ℤ) := ((v : WithTop ℤ) : WithBot (WithTop ℤ))

theorem finRank_lt {v w : ℤ} : finRank v < finRank w ↔ v < w := by simp [finRank]

theorem bot_lt_finRank (v : ℤ) : ⊥ < finRank v := WithBot.bot_lt_coe _

theorem finRank_lt_top (v : ℤ) : finRank v < ⊤ := WithBot.coe_lt_coe.mpr (WithTop.coe_lt_top v)

/-- Where a value stands, the best first: low values under MIN, high ones under MAX. -/
def FV.rank (most : Bool) : FV → WithBot (WithTop ℤ)
  | .nan => ⊥
  | .inf neg => if neg = most then ⊤ else ⊥
  | .fin neg m => finRank (if most then -signed neg m else signed neg m)

theorem ltNum_iff_rank_min {a b : FV} (ha : a.isNaN = false) (hb : b.isNaN = false) :
    a.ltNum b = true ↔ a.rank false < b.rank false := by
  cases a with
  | nan => cases ha
  | inf x => cases b with
    | nan => cases hb
    | inf y => cases x <;> cases y <;> simp [FV.ltNum, FV.below, FV.rank]
    | fin y k => cases x <;> simp [FV.ltNum, FV.below, FV.rank, bot_lt_finRank]
  | fin x m => cases b with
    | nan => cases hb
    | inf y => cases y <;> simp [FV.ltNum, FV.below, FV.rank, finRank_lt_top]
    | fin y k => simp [FV.ltNum, FV.rank, finRank_lt]

theorem rank_max_lt_iff {a b : FV} (ha : a.isNaN = false) (hb : b.isNaN = false) :
    a.rank true < b.rank true ↔ b.rank false < a.rank false := by
  cases a with
  | nan => cases ha
  | inf x => cases b with
    | nan => cases hb
    | inf y => cases x <;> cases y <;> simp [FV.rank]
    | fin y k => cases x <;> simp [FV.rank, bot_lt_finRank, finRank_lt_top]
  | fin x m => cases b with
    | nan => cases hb
    | inf y => cases y <;> simp [FV.rank, bot_lt_finRank, finRank_lt_top]
    | fin y k => simp [FV.rank, finRank_lt]

/-- A candidate that the list takes: not marked as unused and no NaN. -/
def Tile.tkGood (u : Tile) (e : TkEntry) : Bool := decide (e.idx ≠ tkNone) && !(u.tkFloat && (value32 e.val).isNaN)

theorem tkGood_iff {u : Tile} {e : TkEntry} :
    u.tkGood e = true ↔ e.idx ≠ tkNone ∧ (u.tkFloat && (value32 e.val).isNaN) = false := by
  rw [Tile.tkGood, Bool.and_eq_true, decide_eq_true_eq, Bool.not_eq_true']

/-- Where an entry stands: by its value, and among equal values by its index (03 R74). -/
def Tile.tkKey (u : Tile) (e : TkEntry) : WithBot (WithTop ℤ) ×ₗ ℕ :=
  toLex (if u.tkFloat then (value32 e.val).rank u.tkMax else finRank (if u.tkMax then -e.val.toInt else e.val.toInt),
    e.idx.toNat)

variable {u : Tile} {a b e : TkEntry}

theorem tkBetter_iff (ha : u.tkGood a = true) (hb : u.tkGood b = true) :
    u.tkBetter a.val b.val = true ↔ (ofLex (u.tkKey a)).1 < (ofLex (u.tkKey b)).1 := by
  obtain ⟨-, ha⟩ := tkGood_iff.mp ha
  obtain ⟨-, hb⟩ := tkGood_iff.mp hb
  cases hf : u.tkFloat with
  | false => cases hm : u.tkMax <;> simp [Tile.tkBetter, Tile.tkKey, hf, hm, finRank_lt]
  | true =>
    rw [hf, Bool.true_and] at ha hb
    cases hm : u.tkMax
    · simp [Tile.tkBetter, Tile.tkKey, hf, hm, ltNum_iff_rank_min ha hb]
    · simp [Tile.tkBetter, Tile.tkKey, hf, hm, ltNum_iff_rank_min hb ha, rank_max_lt_iff ha hb]

theorem tkBefore_iff (ha : u.tkGood a = true) (hb : u.tkGood b = true) :
    u.tkBefore a b = true ↔ u.tkKey a < u.tkKey b := by
  rw [Tile.tkBefore, Bool.or_eq_true, Bool.and_eq_true, Bool.not_eq_true', ← Bool.not_eq_true, decide_eq_true_eq,
    tkBetter_iff ha hb, tkBetter_iff hb ha, Prod.Lex.lt_iff, not_lt, le_iff_lt_or_eq]
  constructor
  · rintro (h | ⟨h | h, hidx⟩)
    · exact .inl h
    · exact .inl h
    · exact .inr ⟨h, hidx⟩
  · exact Or.imp_right fun ⟨h, hidx⟩ => ⟨.inr h, hidx⟩

theorem tkBefore_eq_false_iff (ha : u.tkGood a = true) (hb : u.tkGood b = true) :
    u.tkBefore b a = false ↔ u.tkKey a ≤ u.tkKey b := by
  rw [← Bool.not_eq_true, tkBefore_iff hb ha, not_lt]

/-! ## Places -/

theorem tkPlace_perm (l : List TkEntry) : (u.tkPlace e l).Perm (e :: l) := by
  induction l with
  | nil => exact .refl _
  | cons a l ih =>
    rw [Tile.tkPlace]
    split
    · exact .refl _
    · exact (ih.cons a).trans (.swap e a l)

theorem tkPlace_pairwise (he : u.tkGood e = true) {l : List TkEntry} (hgood : ∀ x ∈ l, u.tkGood x = true)
    (h : l.Pairwise (fun a b => u.tkBefore b a = false)) :
    (u.tkPlace e l).Pairwise (fun a b => u.tkBefore b a = false) := by
  induction l with
  | nil => exact List.pairwise_singleton ..
  | cons a l ih =>
    obtain ⟨ha, hl⟩ := List.pairwise_cons.mp h
    obtain ⟨hgooda, hgoodl⟩ := List.forall_mem_cons.mp hgood
    rw [Tile.tkPlace]
    split
    · rename_i hea
      refine List.pairwise_cons.mpr ⟨fun x hx => ?_, h⟩
      have hlt := (tkBefore_iff he hgooda).mp hea
      rw [tkBefore_eq_false_iff he (hgood x hx)]
      rcases List.mem_cons.mp hx with rfl | hx
      · exact hlt.le
      · exact hlt.le.trans ((tkBefore_eq_false_iff hgooda (hgoodl x hx)).mp (ha x hx))
    · rename_i hea
      refine List.pairwise_cons.mpr ⟨fun x hx => ?_, ih hgoodl hl⟩
      rcases List.mem_cons.mp ((tkPlace_perm l).mem_iff.mp hx) with rfl | hx
      · exact Bool.not_eq_true _ ▸ hea
      · exact ha x hx

/-- What a list beyond its first `n` entries holds does not matter for the first `n` after an entry is placed. -/
theorem take_tkPlace_take (l : List TkEntry) (n : Nat) : (u.tkPlace e (l.take n)).take n = (u.tkPlace e l).take n := by
  induction l generalizing n with
  | nil => simp
  | cons a l ih =>
    cases n with
    | zero => simp
    | succ n =>
      rw [List.take_succ_cons, Tile.tkPlace, Tile.tkPlace]
      split
      · rw [List.take_succ_cons, List.take_succ_cons]
        cases n <;> simp [List.take_take]
      · rw [List.take_succ_cons, List.take_succ_cons, ih]

/-- The candidates of `l` that the list takes, put in their places one after another. -/
def Tile.tkPlaceAll (u : Tile) (l m : List TkEntry) : List TkEntry :=
  (l.filter u.tkGood).foldl (fun m e => u.tkPlace e m) m

theorem tkPlaceAll_cons (e : TkEntry) (l m : List TkEntry) :
    u.tkPlaceAll (e :: l) m = u.tkPlaceAll l (if u.tkGood e then u.tkPlace e m else m) := by
  cases h : u.tkGood e <;> simp [Tile.tkPlaceAll, h]

theorem tkPlaceAll_perm (l m : List TkEntry) : (u.tkPlaceAll l m).Perm (m ++ l.filter u.tkGood) := by
  induction l generalizing m with
  | nil => simp [Tile.tkPlaceAll]
  | cons e l ih =>
    rw [tkPlaceAll_cons]
    refine (ih _).trans ?_
    cases h : u.tkGood e with
    | false => simp [h]
    | true =>
      rw [if_pos rfl, List.filter_cons_of_pos h]
      exact ((tkPlace_perm m).append_right _).trans List.perm_middle.symm

theorem tkPlaceAll_good {l m : List TkEntry} (hgood : ∀ x ∈ m, u.tkGood x = true) :
    ∀ x ∈ u.tkPlaceAll l m, u.tkGood x = true := by
  intro x hx
  rcases List.mem_append.mp ((tkPlaceAll_perm l m).mem_iff.mp hx) with hx | hx
  · exact hgood x hx
  · exact (List.mem_filter.mp hx).2

theorem tkPlaceAll_pairwise (l : List TkEntry) {m : List TkEntry} (hgood : ∀ x ∈ m, u.tkGood x = true)
    (h : m.Pairwise (fun a b => u.tkBefore b a = false)) :
    (u.tkPlaceAll l m).Pairwise (fun a b => u.tkBefore b a = false) := by
  induction l generalizing m with
  | nil => exact h
  | cons e l ih =>
    rw [tkPlaceAll_cons]
    split
    · rename_i he
      refine ih (fun x hx => ?_) (tkPlace_pairwise he hgood h)
      rcases List.mem_cons.mp ((tkPlace_perm m).mem_iff.mp hx) with rfl | hx
      · exact he
      · exact hgood x hx
    · exact ih hgood h

theorem take_tkPlaceAll_take (l m : List TkEntry) (n : Nat) :
    (u.tkPlaceAll l (m.take n)).take n = (u.tkPlaceAll l m).take n := by
  induction l generalizing m with
  | nil => simp [Tile.tkPlaceAll, List.take_take]
  | cons e l ih =>
    rw [tkPlaceAll_cons, tkPlaceAll_cons]
    split
    · rw [← ih, take_tkPlace_take, ih]
    · exact ih m

/-! ## Offers -/

/-- One offer: a NaN sets its flag, a candidate marked as unused changes nothing, any other is placed. -/
theorem tkOffer_cases (u : Tile) (e : TkEntry) :
    (u.tkOffer e).tk = (if u.tkGood e then (u.tkPlace e u.tk).take 64 else u.tk) ∧
    u.tkOffer e = { u with tk := (u.tkOffer e).tk, astat := (u.tkOffer e).astat } ∧
    ∀ b, (u.tkOffer e).astat.testBit b = (u.astat.testBit b || (b == 5 && (u.tkFloat && (value32 e.val).isNaN))) := by
  have hflag : ∀ b, flagTopkNan.testBit b = (b == 5) := fun b => by
    rw [show flagTopkNan = 2 ^ 5 from rfl, Nat.testBit_two_pow, Bool.beq_comm]; rfl
  unfold Tile.tkOffer
  cases hnan : u.tkFloat && (value32 e.val).isNaN with
  | true => exact ⟨by simp [Tile.tkGood, hnan, Tile.raise], rfl, fun b => by simp [Tile.testBit_raise, hflag]⟩
  | false =>
    by_cases hidx : e.idx = tkNone
    · simp [Tile.tkGood, hidx]
    · simp [Tile.tkGood, hidx, hnan]

/-- The order of a list does not depend on the entries that it holds. -/
theorem tkPlaceAll_congr {u w : Tile} (hmax : w.tkMax = u.tkMax) (hfloat : w.tkFloat = u.tkFloat) (l m : List TkEntry) :
    w.tkPlaceAll l m = u.tkPlaceAll l m := by
  have hbefore : w.tkBefore = u.tkBefore := by
    funext a b
    simp only [Tile.tkBefore, Tile.tkBetter, hmax, hfloat]
  have hplace : ∀ e m, w.tkPlace e m = u.tkPlace e m := fun e m => by
    induction m with
    | nil => rfl
    | cons a m ih => simp only [Tile.tkPlace, hbefore, ih]
  have hgood : w.tkGood = u.tkGood := by
    funext e
    simp only [Tile.tkGood, hfloat]
  simp only [Tile.tkPlaceAll, hplace, hgood]

/-- Offers in turn: the list takes the best 64 of its entries and the good candidates, and each NaN sets its flag. -/
theorem tkOfferAll_cases (l : List TkEntry) (hlen : u.tk.length ≤ 64) :
    (u.tkOfferAll l).tk = (u.tkPlaceAll l u.tk).take 64 ∧
    u.tkOfferAll l = { u with tk := (u.tkOfferAll l).tk, astat := (u.tkOfferAll l).astat } ∧
    ∀ b, (u.tkOfferAll l).astat.testBit b =
      (u.astat.testBit b || (b == 5 && l.any (fun e => u.tkFloat && (value32 e.val).isNaN))) := by
  induction l generalizing u with
  | nil => exact ⟨(List.take_of_length_le hlen).symm, rfl, by simp [Tile.tkOfferAll]⟩
  | cons e l ih =>
    obtain ⟨htk, hframe, hflags⟩ := tkOffer_cases u e
    have hmax : (u.tkOffer e).tkMax = u.tkMax := by rw [hframe]
    have hfloat : (u.tkOffer e).tkFloat = u.tkFloat := by rw [hframe]
    have hlen' : (u.tkOffer e).tk.length ≤ 64 := by
      rw [htk]
      split
      · exact List.length_take_le ..
      · exact hlen
    obtain ⟨htk', hframe', hflags'⟩ := ih hlen'
    have hcons : u.tkOfferAll (e :: l) = (u.tkOffer e).tkOfferAll l := rfl
    refine ⟨?_, ?_, fun b => ?_⟩
    · rw [hcons, htk', tkPlaceAll_congr hmax hfloat, tkPlaceAll_cons, htk]
      split
      · exact take_tkPlaceAll_take ..
      · rfl
    · rw [hcons, hframe', hframe]
    · rw [hcons, hflags', hflags, hfloat, List.any_cons, Bool.or_assoc, ← Bool.and_or_distrib_left]

end Sys2Proof.Machine
end

section
/-! The obligation on offers to the top-k list (03 R74). -/

namespace Sys2Proof.Machine

open Sys2Proof.Say

/-- The order of entries as 03 R74 words it. -/
theorem tkBefore_spec (u : Tile) (a b : TkEntry) :
    u.tkBefore a b = true ↔
      (if u.tkFloat then
        (if u.tkMax then (value32 b.val).ltNum (value32 a.val) else (value32 a.val).ltNum (value32 b.val)) = true ∨
          ((value32 a.val).ltNum (value32 b.val) = false ∧ (value32 b.val).ltNum (value32 a.val) = false ∧
            a.idx.toNat < b.idx.toNat)
       else (if u.tkMax then b.val.toInt < a.val.toInt else a.val.toInt < b.val.toInt) ∨
          (a.val = b.val ∧ a.idx.toNat < b.idx.toNat)) := by
  cases hf : u.tkFloat with
  | true =>
    cases hm : u.tkMax <;> simp only [Tile.tkBefore, Tile.tkBetter, hf, hm, if_true, if_false, Bool.false_eq_true] <;>
      cases (value32 a.val).ltNum (value32 b.val) <;> cases (value32 b.val).ltNum (value32 a.val) <;> simp
  | false =>
    rw [← BitVec.toInt_inj]
    cases hm : u.tkMax <;> simp only [Tile.tkBefore, Tile.tkBetter, hf, hm, if_true, if_false, Bool.false_eq_true,
      Bool.or_eq_true, Bool.and_eq_true, Bool.not_eq_true', decide_eq_true_eq, decide_eq_false_iff_not] <;> omega

/-- Settles O13: the list after offers is the first 64 entries of everything offered in its place (`tkOfferAll_cases`), so what
it leaves out stands behind all that it holds. -/
theorem offersKeepTheBest64 : Obligations.OffersKeepTheBest64 := by
  unfold Obligations.OffersKeepTheBest64
  refine ⟨fun u l ⟨hlen, hsorted, hgood⟩ => ?_, tkBefore_spec, by decide +kernel, by decide +kernel⟩
  obtain ⟨htk, hframe, hflags⟩ := tkOfferAll_cases l hlen
  have hgood : ∀ x ∈ u.tk, u.tkGood x = true := fun x hx => tkGood_iff.mpr (hgood x hx)
  have hall := tkPlaceAll_good (l := l) hgood
  have hperm := tkPlaceAll_perm (u := u) l u.tk
  have hpair := tkPlaceAll_pairwise l hgood hsorted
  have hmem : ∀ e, e ∈ u.tkPlaceAll l u.tk ↔ e ∈ u.tk ∨ (e ∈ l ∧ e.idx ≠ tkNone ∧ (u.tkFloat && (value32 e.val).isNaN) = false) :=
    fun e => by rw [hperm.mem_iff, List.mem_append, List.mem_filter, tkGood_iff]
  have hbefore : (u.tkOfferAll l).tkBefore = u.tkBefore := by rw [hframe]; rfl
  have hfloat : (u.tkOfferAll l).tkFloat = u.tkFloat := by rw [hframe]
  refine ⟨⟨?_, ?_, fun e he => ?_⟩, hframe, fun e he => ?_, fun e he hout => ?_, ?_, hflags⟩
  · rw [htk]
    exact List.length_take_le ..
  · rw [htk, hbefore]
    exact hpair.sublist (List.take_sublist ..)
  · rw [htk] at he
    rw [hfloat]
    exact tkGood_iff.mp (hall e (List.mem_of_mem_take he))
  · rw [htk] at he
    exact (hmem e).mp (List.mem_of_mem_take he)
  · rw [htk] at hout ⊢
    have hdrop : e ∈ (u.tkPlaceAll l u.tk).drop 64 := by
      have he := (hmem e).mpr he
      rw [← List.take_append_drop 64 (u.tkPlaceAll l u.tk), List.mem_append] at he
      exact he.resolve_left hout
    rw [← List.take_append_drop 64 (u.tkPlaceAll l u.tk), List.pairwise_append] at hpair
    refine ⟨?_, fun k hk => hpair.2.2 k hk e hdrop⟩
    have hpos := List.length_pos_of_mem hdrop
    rw [List.length_drop] at hpos
    rw [List.length_take]
    omega
  · rw [htk, List.length_take, hperm.length_eq, List.length_append, List.countP_eq_length_filter]
    rfl

end Sys2Proof.Machine
end

section
/-! Sectors of memory (05 R131 to R133): a sector stored with its check bytes reads back good, and what whole sectors written in
a row leave. -/

namespace Sys2Proof.Machine

open Sys2Proof.Say

/-! ## The field GF(2^8) -/

/-- Multiplication by x in the field. -/
def gfDouble (r : Byte) : Byte := if r.getMsbD 0 then (r <<< 1) ^^^ 0x1D#8 else r <<< 1

theorem byte_xor_left_comm (a b c : Byte) : a ^^^ (b ^^^ c) = b ^^^ (a ^^^ c) := by
  rw [← BitVec.xor_assoc, BitVec.xor_comm a, BitVec.xor_assoc]

theorem gfDouble_xor (a b : Byte) : gfDouble (a ^^^ b) = gfDouble a ^^^ gfDouble b := by
  simp only [gfDouble, BitVec.getMsbD_xor, BitVec.shiftLeft_xor_distrib]
  cases a.getMsbD 0 <;> cases b.getMsbD 0 <;>
    simp [BitVec.xor_assoc, BitVec.xor_comm, byte_xor_left_comm]

theorem gfMul_xor (a a' b : Byte) : gfMul (a ^^^ a') b = gfMul a b ^^^ gfMul a' b := by
  have hfold : ∀ (a b : Byte), gfMul a b =
      (List.range 8).foldr (fun i r => if b.getLsbD i then gfDouble r ^^^ a else gfDouble r) 0 := fun _ _ => rfl
  simp only [hfold]
  induction List.range 8 with
  | nil => simp
  | cons i l ih =>
    simp only [List.foldr_cons, ih, gfDouble_xor]
    split
    · ac_rfl
    · rfl

theorem byte_xor_zero (a : Byte) : a ^^^ 0 = a := BitVec.xor_zero

theorem gfMul_zero (b : Byte) : gfMul 0 b = 0 := by
  have h := gfMul_xor 0 0 b
  rwa [BitVec.xor_self, BitVec.xor_self] at h

/-- The generator's value at `x` times `f`, with the coefficients of `rsCheck`. -/
def generatorAt (x f : Byte) : Byte :=
  gfMul (gfMul (gfMul (gfMul f x ^^^ gfMul f 15#8) x ^^^ gfMul f 54#8) x ^^^ gfMul f 120#8) x ^^^ gfMul f 64#8

theorem generatorAt_xor (x a b : Byte) : generatorAt x (a ^^^ b) = generatorAt x a ^^^ generatorAt x b := by
  simp only [generatorAt, gfMul_xor]
  ac_rfl

/-- A byte is the sum of its bits. -/
theorem byte_eq_bits : ∀ f : Byte,
    f = (List.range 8).foldr (fun i r => if f.getLsbD i then BitVec.twoPow 8 i ^^^ r else r) 0 := by
  decide +kernel

/-- The roots of the generator are 1, 2, 4 and 8: it is enough to evaluate it on the bits of a byte. -/
theorem generatorAt_root {x : Byte} (hx : x ∈ [1#8, 2#8, 4#8, 8#8]) (f : Byte) : generatorAt x f = 0 := by
  have hbits : ∀ x ∈ [1#8, 2#8, 4#8, 8#8], ∀ i ∈ List.range 8, generatorAt x (BitVec.twoPow 8 i) = 0 := by decide +kernel
  have hfold : ∀ l ⊆ List.range 8,
      generatorAt x (l.foldr (fun i r => if f.getLsbD i then BitVec.twoPow 8 i ^^^ r else r) 0) = 0 := by
    intro l hl
    induction l with
    | nil => simp only [List.foldr_nil, generatorAt, gfMul_zero, byte_xor_zero]
    | cons i l ih =>
      obtain ⟨hi, hl⟩ := List.cons_subset.mp hl
      rw [List.foldr_cons]
      split
      · rw [generatorAt_xor, hbits x hx i hi, ih hl, byte_xor_zero]
      · exact ih hl
  rw [byte_eq_bits f]
  exact hfold _ (List.Subset.refl _)

/-! ## Good code words -/

/-- One step of the division by the generator, as `rsCheck` does it. -/
def rsStep (r : Byte × Byte × Byte × Byte) (c : Byte) : Byte × Byte × Byte × Byte :=
  let f := c ^^^ r.1
  (r.2.1 ^^^ gfMul f 15#8, r.2.2.1 ^^^ gfMul f 54#8, r.2.2.2 ^^^ gfMul f 120#8, gfMul f 64#8)

/-- The value at `x` of a polynomial with value `e` and four more coefficients. -/
def hornerFour (x e : Byte) (r : Byte × Byte × Byte × Byte) : Byte :=
  gfMul (gfMul (gfMul (gfMul e x ^^^ r.1) x ^^^ r.2.1) x ^^^ r.2.2.1) x ^^^ r.2.2.2

theorem hornerFour_rsStep {x : Byte} (hroot : ∀ f, generatorAt x f = 0) (e c : Byte) (r : Byte × Byte × Byte × Byte) :
    hornerFour x (gfMul e x ^^^ c) (rsStep r c) = gfMul (hornerFour x e r) x := by
  have hstep : ∀ p q u v : Byte, gfMul (p ^^^ q) x ^^^ (u ^^^ v) = (gfMul p x ^^^ u) ^^^ (gfMul q x ^^^ v) :=
    fun p q u v => by rw [gfMul_xor]; ac_rfl
  have hfirst : gfMul e x ^^^ c = (gfMul e x ^^^ r.1) ^^^ (c ^^^ r.1) := by
    rw [BitVec.xor_comm c, BitVec.xor_assoc, ← BitVec.xor_assoc r.1, BitVec.xor_self, BitVec.zero_xor]
  have hsum : hornerFour x (gfMul e x ^^^ c) (rsStep r c) = gfMul (hornerFour x e r) x ^^^ generatorAt x (c ^^^ r.1) := by
    simp only [hornerFour, rsStep, generatorAt]
    rw [hfirst, hstep _ _ r.2.1, hstep _ _ r.2.2.1, hstep _ _ r.2.2.2, gfMul_xor, BitVec.xor_assoc]
  rw [hsum, hroot]
  exact BitVec.xor_zero

theorem syndrome_codeWord {x : Byte} (hroot : ∀ f, generatorAt x f = 0) (d : List Byte) : gfEval x (codeWord d) = 0 := by
  have hfold : ∀ (d : List Byte) (e : Byte) (r : Byte × Byte × Byte × Byte), hornerFour x e r = 0 →
      hornerFour x (d.foldl (fun r c => gfMul r x ^^^ c) e) (d.foldl rsStep r) = 0 := by
    intro d
    induction d with
    | nil => exact fun _ _ h => h
    | cons c d ih =>
      intro e r h
      exact ih _ _ (by rw [hornerFour_rsStep hroot, h, gfMul_zero])
  have hstart : hornerFour x 0 (0, 0, 0, 0) = 0 := by
    simp only [hornerFour, byte_xor_zero, gfMul_zero]
  rw [gfEval, codeWord, List.foldl_append]
  exact hfold d 0 (0, 0, 0, 0) hstart

/-- A code word with its own check bytes decodes good. -/
theorem decodeSector_codeWord {d : List Byte} (h : d.length = 32) : decodeSector (codeWord d) = (.good, d) := by
  have hsyn : syndromes (codeWord d) = [0, 0, 0, 0] := by
    rw [syndromes, syndrome_codeWord (generatorAt_root (by simp)), syndrome_codeWord (generatorAt_root (by simp)),
      syndrome_codeWord (generatorAt_root (by simp)), syndrome_codeWord (generatorAt_root (by simp))]
  have hdata : (codeWord d).take 32 = d := by rw [codeWord, ← h, List.take_left]
  rw [decodeSector, hsyn, hdata]
  rfl

theorem length_codeWord (d : List Byte) : (codeWord d).length = d.length + 4 := by simp [codeWord, rsCheck]

@[simp] theorem length_slice (l : List Byte) (off n : Nat) : (slice l off n).length = n := by simp [slice]

theorem getD_slice (l : List Byte) (off : Nat) {n i : Nat} (h : i < n) : (slice l off n).getD i 0 = l.getD (off + i) 0 :=
  getD_map_range _ _ h

/-- A good sector's data is its first 32 bytes as they are stored. -/
theorem decodeSector_of_good {w : List Byte} (h : (decodeSector w).1 = .good) : (decodeSector w).2 = w.take 32 := by
  simp only [decodeSector] at h ⊢
  split
  · rfl
  · rw [if_neg ‹_›] at h
    split at h
    · cases h
    · split at h <;> cases h

/-! ## One sector stored -/

theorem codeWordAt_eq (s : State) (x : Nat) : s.codeWordAt x = (List.range 36).map (fun j => memByte s.mem (sectorKey x + j)) :=
  memRead_eq ..

theorem sector_data_of_good {s : State} {x : Nat} (h : (s.sector x).1 = .good) :
    (s.sector x).2 = (List.range 32).map (fun j => memByte s.mem (sectorKey x + j)) := by
  rw [State.sector, decodeSector_of_good h, codeWordAt_eq, ← List.map_take, List.take_range]
  rfl

section

variable (s : State) (a : Nat) {d : List Byte} {x : Nat}

theorem sector_putSector_self (h : x / 32 = a / 32) : (s.putSector a d).sector x = (.good, slice d 0 32) := by
  have hlen : (codeWord (slice d 0 32)).length = 36 := by simp [length_codeWord]
  have hmem : (s.putSector a d).mem = memWrite s.mem (sectorKey x) (codeWord (slice d 0 32)) := by
    rw [State.putSector, State.putCodeWord, List.take_of_length_le hlen.le, sectorKey, sectorKey, h]
  have hword : (s.putSector a d).codeWordAt x = codeWord (slice d 0 32) := by
    rw [State.codeWordAt, hmem]
    exact hlen ▸ memRead_memWrite ..
  rw [State.sector, hword, decodeSector_codeWord (length_slice ..)]

theorem memByte_putSector (k : Nat) : memByte (s.putSector a d).mem k =
    if sectorKey a ≤ k ∧ k < sectorKey a + 36 then (codeWord (slice d 0 32)).getD (k - sectorKey a) 0 else memByte s.mem k := by
  have hlen : (codeWord (slice d 0 32)).length = 36 := by simp [length_codeWord]
  simp only [State.putSector, State.putCodeWord, List.take_of_length_le hlen.le, memByte_memWrite, hlen]

theorem sector_putSector_ne (h : x / 32 ≠ a / 32) : (s.putSector a d).sector x = s.sector x := by
  rw [State.sector, State.sector, codeWordAt_eq, codeWordAt_eq]
  refine congrArg decodeSector (List.map_congr_left fun j hj => ?_)
  have hj := List.mem_range.mp hj
  rw [memByte_putSector, if_neg (by simp only [sectorKey]; omega)]

theorem dataByte_putSector (x : Nat) : (s.putSector a d).dataByte x =
    if x / 32 = a / 32 then d.getD (x % 32) 0 else s.dataByte x := by
  have hmod : x % 32 < 32 := Nat.mod_lt _ (by decide)
  rw [State.dataByte, memByte_putSector]
  split
  · rw [if_pos (by simp only [sectorKey] at *; omega),
      show sectorKey x + x % 32 - sectorKey a = x % 32 by simp only [sectorKey] at *; omega, codeWord,
      List.getD_append _ _ _ _ (by simpa using hmod), getD_slice _ _ hmod, Nat.zero_add]
  · rw [if_neg (by simp only [sectorKey] at *; omega), State.dataByte]

end

end Sys2Proof.Machine

namespace Sys2Proof.Say

open Sys2Proof.Machine

/-! ## What a change of memory leaves -/

theorem LinesBut.refl (a m : Nat) {s t : State} (h : t.cache = s.cache) : LinesBut a m s t :=
  ⟨fun _ v => v, fun _ _ _ => rfl, by simp [h]⟩

theorem LinesBut.trans {a m : Nat} {s t r : State} (h : LinesBut a m s t) (h' : LinesBut a m t r) : LinesBut a m s r := by
  obtain ⟨f, hf, hcache⟩ := h
  obtain ⟨g, hg, hcache'⟩ := h'
  refine ⟨fun b v => g b (f b v), fun b v hb => by simp only [hf b v hb, hg b v hb], ?_⟩
  rw [hcache', hcache]
  simp [Function.comp_def]

/-- A range of sectors that takes in another, from sector `i` of the greater on. -/
theorem LinesBut.mono {a m i n : Nat} {s t : State} (h : LinesBut (a + 32 * i) (32 * n) s t) (hle : i + n ≤ m) :
    LinesBut a (32 * m) s t := by
  obtain ⟨f, hf, hcache⟩ := h
  exact ⟨f, fun b v hb => hf b v (by omega), hcache⟩

theorem MemBut.mono {a m i n : Nat} {s t : State} (h : MemBut (a + 32 * i) (32 * n) s t) (hle : i + n ≤ m) :
    MemBut a (32 * m) s t :=
  fun k hk => h k (by simp only [sectorKey] at *; omega)

theorem OnlyMem.refl (a m : Nat) (s : State) : OnlyMem a m s s := ⟨rfl, fun _ _ => rfl, .refl a m rfl⟩

theorem OnlyMem.trans {a m : Nat} {s t r : State} (h : OnlyMem a m s t) (h' : OnlyMem a m t r) : OnlyMem a m s r := by
  obtain ⟨heq, hmem, hlines⟩ := h
  obtain ⟨heq', hmem', hlines'⟩ := h'
  exact ⟨by rw [heq', heq], fun k hk => (hmem' k hk).trans (hmem k hk), hlines.trans hlines'⟩

theorem OnlyMem.mono {a m i n : Nat} {s t : State} (h : OnlyMem (a + 32 * i) (32 * n) s t) (hle : i + n ≤ m) :
    OnlyMem a (32 * m) s t :=
  ⟨h.1, h.2.1.mono hle, h.2.2.mono hle⟩

section

variable {a m : Nat} {s t : State} (h : OnlyMem a m s t)
include h

/-- A change of memory leaves the tiles, and where each tile's SRAM lies. -/
theorem OnlyMem.tile (k : Nat) : t.tile k = s.tile k := by
  rw [h.1]
  rfl

theorem OnlyMem.sramAt (k o : Nat) : t.sramAt k o = s.sramAt k o := by
  rw [h.1]
  rfl

/-- A change of memory and then of a tile. -/
theorem OnlyMem.modTile_frame (n : Nat) (f : Tile → Tile) : t.modTile n f =
    { s with mem := (t.modTile n f).mem, cache := (t.modTile n f).cache, tiles := (t.modTile n f).tiles } := by
  rw [State.modTile_frame, h.1]

theorem OnlyMem.memBut_modTile (n : Nat) (f : Tile → Tile) : MemBut a m s (t.modTile n f) := h.2.1

theorem OnlyMem.linesBut_modTile (n : Nat) (f : Tile → Tile) : LinesBut a m s (t.modTile n f) := h.2.2

end

/-- Stored numbers lie in memory alone. -/
theorem dataNat_congr {s t : State} (h : t.mem = s.mem) (a n : Nat) : dataNat t a n = dataNat s a n := by
  simp only [dataNat, State.dataByte, h]

theorem onlyMem_putSector (s : State) (a : Nat) (d : List Byte) : OnlyMem a 32 s (s.putSector a d) := by
  refine ⟨rfl, fun k hk => ?_, fun b v => if b = 32 * (a / 32) then (codeWord (slice d 0 32)).take 36 else v,
    fun b v hb => if_neg (by omega), ?_⟩
  · rw [memByte_putSector, if_neg (by omega)]
  · refine List.map_congr_left fun e _ => ?_
    refine congrArg (fun w => (e.1, { e.2 with ways := w })) (List.map_congr_left fun x _ => ?_)
    cases x <;> rfl

end Sys2Proof.Say

namespace Sys2Proof.Machine

open Sys2Proof.Say

/-! ## Sectors stored in a row -/

@[simp] theorem State.modTile_mem (s : State) (n : Nat) (f : Tile → Tile) : (s.modTile n f).mem = s.mem := rfl

/-- The first `n` sectors of `d` written from address `a` on. -/
def State.putSectors (s : State) (a : Nat) (d : List Byte) (n : Nat) : State :=
  (List.range n).foldl (fun s i => s.putSector (a + 32 * i) (slice d (32 * i) 32)) s

theorem putBytes_eq (s : State) (a : Nat) {d : List Byte} {n : Nat} (h : d.length = 32 * n) :
    s.putBytes a d = s.putSectors a d n := by
  rw [State.putBytes, h, show (32 * n + 31) / 32 = n by omega, State.putSectors]

section

variable (s : State) (a : Nat) (d : List Byte)

theorem putSectors_succ (n : Nat) :
    s.putSectors a d (n + 1) = (s.putSectors a d n).putSector (a + 32 * n) (slice d (32 * n) 32) := by
  rw [State.putSectors, List.range_succ, List.foldl_append]
  rfl

theorem onlyMem_putSectors (n : Nat) : OnlyMem a (32 * n) s (s.putSectors a d n) := by
  induction n with
  | zero => exact .refl ..
  | succ n ih =>
    rw [putSectors_succ]
    exact (OnlyMem.mono (i := 0) ih (by omega)).trans ((onlyMem_putSector _ (a + 32 * n) _).mono (n := 1) (by omega))

theorem sector_putSectors_self {n x : Nat} (h : a / 32 ≤ x / 32) (h' : x / 32 < a / 32 + n) :
    ((s.putSectors a d n).sector x).1 = .good := by
  induction n with
  | zero => omega
  | succ n ih =>
    rw [putSectors_succ]
    by_cases hx : x / 32 = (a + 32 * n) / 32
    · rw [sector_putSector_self _ _ hx]
    · rw [sector_putSector_ne _ _ hx]
      exact ih (by omega)

theorem sector_putSectors_ne {n x : Nat} (h : x / 32 < a / 32 ∨ a / 32 + n ≤ x / 32) :
    (s.putSectors a d n).sector x = s.sector x := by
  induction n with
  | zero => rfl
  | succ n ih =>
    rw [putSectors_succ, sector_putSector_ne _ _ (by omega), ih (by omega)]

theorem dataByte_putSectors (ha : a % 32 = 0) (n x : Nat) : (s.putSectors a d n).dataByte x =
    if a ≤ x ∧ x < a + 32 * n then d.getD (x - a) 0 else s.dataByte x := by
  induction n with
  | zero => rw [if_neg (by omega)]; rfl
  | succ n ih =>
    rw [putSectors_succ, dataByte_putSector, ih]
    by_cases hx : x / 32 = (a + 32 * n) / 32
    · rw [if_pos hx, if_pos (by omega), getD_slice _ _ (by omega)]
      congr 1
      omega
    · rw [if_neg hx]
      exact if_congr (by omega) rfl rfl

end

theorem clean_putSectors (s : State) {a : Nat} (ha : a % 32 = 0) (d : List Byte) (n : Nat) :
    Clean (s.putSectors a d n) a (32 * n) := by
  intro x hx
  simp only [sectorsOf] at hx
  split at hx
  · cases hx
  · obtain ⟨i, hi, rfl⟩ := List.mem_map.mp hx
    have hi := List.mem_range.mp hi
    exact sector_putSectors_self _ _ _ (by omega) (by omega)

/-! ## Reading clean sectors -/

theorem getD_flatMap_blocks {ι α : Type} (l : List ι) (f : ι → List α) (d : α) {k : Nat} (hk : ∀ x, (f x).length = k)
    {i j : Nat} (hi : i < l.length) (hj : j < k) : (l.flatMap f).getD (k * i + j) d = (f l[i]).getD j d := by
  induction l generalizing i with
  | nil => exact absurd hi (Nat.not_lt_zero _)
  | cons x l ih =>
    rw [List.flatMap_cons]
    cases i with
    | zero => rw [List.getD_append _ _ _ _ (by rw [hk]; omega)]; simp
    | succ i =>
      rw [List.getD_append_right _ _ _ _ (by rw [hk, Nat.mul_succ]; omega), hk,
        show k * (i + 1) + j - k = k * i + j by rw [Nat.mul_succ]; omega, ih (Nat.lt_of_succ_lt_succ hi)]
      rfl

/-- The stored bytes of the sector that holds an address. -/
def State.sectorBytes (s : State) (x : Nat) : List Byte := (List.range 32).map (fun j => memByte s.mem (sectorKey x + j))

theorem slice_sectors (s : State) (a n : Nat) :
    slice ((sectorsOf a n).flatMap s.sectorBytes) (a % 32) n = (List.range n).map (fun j => s.dataByte (a + j)) := by
  refine List.map_congr_left fun j hj => ?_
  have hj := List.mem_range.mp hj
  have hn : n ≠ 0 := by omega
  have hlen : (a % 32 + j) / 32 < (sectorsOf a n).length := by
    rw [sectorsOf, if_neg hn, List.length_map, List.length_range]; omega
  have hget : (sectorsOf a n)[(a % 32 + j) / 32] = 32 * (a / 32 + (a % 32 + j) / 32) := by simp [sectorsOf, hn]
  rw [← Nat.div_add_mod (a % 32 + j) 32,
    getD_flatMap_blocks _ _ _ (fun x => by simp [State.sectorBytes]) hlen (Nat.mod_lt _ (by decide)), hget,
    State.sectorBytes, getD_map_range _ _ (Nat.mod_lt _ (by decide)), State.dataByte]
  congr 1
  simp only [sectorKey]
  omega

/-- A tile data load of sectors that hold no error reads the stored bytes and changes nothing. -/
theorem tileLoad_of_clean {s : State} {t o n : Nat} (h : Clean s (s.sramAt t o) n) :
    s.tileLoad t o n = (s, (List.range n).map (fun j => s.dataByte (s.sramAt t o + j))) := by
  have hgood : ∀ x ∈ sectorsOf (s.sramAt t o) n, s.sector x = (.good, s.sectorBytes x) := fun x hx =>
    Prod.ext (h x hx) (sector_data_of_good (h x hx))
  have hreport : s.reportAll (fun _ => pgTile t) 0 (sectorsOf (s.sramAt t o) n) = s := by
    have horder : s.errOrder (sectorsOf (s.sramAt t o) n) = [] := by
      have hranks : (sectorsOf (s.sramAt t o) n).filterMap (fun a => (s.sector a).1.errRank.map (fun r => (r, a))) = [] :=
        List.filterMap_eq_nil_iff.mpr fun x hx => by rw [hgood x hx]; rfl
      rw [State.errOrder, hranks]
      rfl
    rw [State.reportAll, horder]
    rfl
  have hzero : s.zeroLoads t (s.tile t).trope (s.sramAt t o) n = s := by
    have hnone : (sectorsOf (s.sramAt t o) n).filter (fun x => (s.sector x).1.damaged) = [] :=
      List.filter_eq_nil_iff.mpr fun x hx => by rw [hgood x hx]; exact Bool.false_ne_true
    rw [State.zeroLoads, hnone]
    rfl
  have huncorrected : ((sectorsOf (s.sramAt t o) n).map (fun x => s.sector x)).any (fun d => d.1 == .uncorrectable) = false :=
    List.any_eq_false.mpr fun d hd => by
      obtain ⟨x, hx, rfl⟩ := List.mem_map.mp hd
      rw [hgood x hx]
      exact Bool.false_ne_true
  have hbytes : ((sectorsOf (s.sramAt t o) n).map (fun x => s.sector x)).flatMap
      (fun d => if d.1.damaged then List.replicate 32 0 else d.2) = (sectorsOf (s.sramAt t o) n).flatMap s.sectorBytes := by
    rw [List.flatMap_map]
    exact List.flatMap_congr fun x hx => by rw [hgood x hx]; rfl
  simp only [State.tileLoad, State.readSectors, hreport, hzero, huncorrected, hbytes, slice_sectors, Bool.false_and,
    Bool.false_eq_true, if_false]

/-- The number that a clean load reads. -/
theorem leNat_tileLoad_of_clean {s : State} {t o n : Nat} (h : Clean s (s.sramAt t o) n) :
    leNat (s.tileLoad t o n).2 = dataNat s (s.sramAt t o) n := by
  rw [tileLoad_of_clean h, dataNat]

end Sys2Proof.Machine
end

section
/-! The images of the top-k list in tile SRAM (03 R75), and the obligation on the operations of the top-k unit (03 R73 to R75). -/

namespace Sys2Proof.Machine

open Sys2Proof.Say

/-! ## Fields of stored ranges -/

/-- A field of bytes given one by one. -/
theorem field_map_range (f : Nat → Byte) {n off k : Nat} (h : off + k ≤ n) :
    field ((List.range n).map f) off k = leNat ((List.range k).map (fun j => f (off + j))) := by
  refine congrArg leNat (List.map_congr_left fun j hj => ?_)
  have hj := List.mem_range.mp hj
  exact getD_map_range f 0 (by omega)

/-- A stored number is the field of the bytes written. -/
theorem dataNat_putSectors (s : State) {a : Nat} (ha : a % 32 = 0) (d : List Byte) {m x n : Nat} (h : x + n ≤ 32 * m) :
    dataNat (s.putSectors a d m) (a + x) n = field d x n := by
  refine congrArg leNat (List.map_congr_left fun j hj => ?_)
  have hj := List.mem_range.mp hj
  rw [dataByte_putSectors _ _ _ ha, if_pos (by omega), Nat.add_assoc, Nat.add_sub_cancel_left]

/-- A stored number apart from the sectors written stays. -/
theorem dataNat_putSectors_apart (s : State) {a : Nat} (ha : a % 32 = 0) (d : List Byte) {m x n : Nat}
    (h : x + n ≤ a ∨ a + 32 * m ≤ x) : dataNat (s.putSectors a d m) x n = dataNat s x n := by
  refine congrArg leNat (List.map_congr_left fun j hj => ?_)
  have hj := List.mem_range.mp hj
  rw [dataByte_putSectors _ _ _ ha, if_neg (by omega)]

/-- Clean sectors apart from the sectors written stay clean. -/
theorem clean_putSectors_apart {s : State} {a b : Nat} (ha : a % 32 = 0) (hb : b % 32 = 0) (d : List Byte) {m n : Nat}
    (h : b + 32 * n ≤ a ∨ a + 32 * m ≤ b) (hclean : Clean s b (32 * n)) : Clean (s.putSectors a d m) b (32 * n) := by
  intro x hx
  rw [sector_putSectors_ne, hclean x hx]
  simp only [sectorsOf] at hx
  split at hx
  · cases hx
  · obtain ⟨i, hi, rfl⟩ := List.mem_map.mp hx
    have hi := List.mem_range.mp hi
    omega

/-! ## Images -/

section

variable (s : State) {a : Nat} (ha : a % 32 = 0) (d : List Byte)

theorem onlyMem_putImage (a : Nat) : OnlyMem a 512 s (s.putSectors a d 16) := onlyMem_putSectors s a d 16

include ha

theorem clean_putImage : Clean (s.putSectors a d 16) a 512 := clean_putSectors s ha d 16

theorem clean_putImage_apart {b : Nat} (hb : b % 32 = 0) (h : b + 512 ≤ a ∨ a + 512 ≤ b) (hclean : Clean s b 512) :
    Clean (s.putSectors a d 16) b 512 :=
  clean_putSectors_apart (m := 16) (n := 16) ha hb d h hclean

end

/-- The entry that an image holds in place `i` (03 R75). -/
def Tile.tkShown (u : Tile) (i : Nat) : TkEntry := u.tk.getD i ⟨u.tkWorst, tkNone⟩

theorem length_tkImage (u : Tile) : u.tkImage.length = 32 * 16 := by
  rw [Tile.tkImage, List.length_flatMap]
  simp

theorem field_tkImage (u : Tile) {i : Nat} (hi : i < 64) :
    field u.tkImage (8 * i) 4 = (u.tkShown i).val.toNat ∧ field u.tkImage (8 * i + 4) 4 = (u.tkShown i).idx.toNat := by
  have hi' : i < (List.range 64).length := by simpa using hi
  have hbyte : ∀ j < 8, u.tkImage.getD (8 * i + j) 0 =
      (leBytes 4 (u.tkShown i).val.toNat ++ leBytes 4 (u.tkShown i).idx.toNat).getD j 0 := fun j hj => by
    rw [Tile.tkImage, getD_flatMap_blocks _ _ _ (fun x => by simp) hi' hj, List.getElem_range]
    rfl
  have hbytes : ∀ (w : Word), leNat ((List.range 4).map (fun j => BitVec.ofNat 8 (w.toNat / 256 ^ j))) = w.toNat := fun w => by
    rw [leNat_map_digits]
    exact Nat.mod_eq_of_lt w.isLt
  constructor
  · rw [← hbytes (u.tkShown i).val]
    refine congrArg leNat (List.map_congr_left fun j hj => ?_)
    have hj := List.mem_range.mp hj
    rw [hbyte j (by omega), List.getD_append _ _ _ _ (by simpa using hj), leBytes_eq_map, getD_map_range _ _ hj]
  · rw [← hbytes (u.tkShown i).idx]
    refine congrArg leNat (List.map_congr_left fun j hj => ?_)
    have hj := List.mem_range.mp hj
    rw [Nat.add_assoc, hbyte (4 + j) (by omega), List.getD_append_right _ _ _ _ (by simp), length_leBytes,
      Nat.add_sub_cancel_left, leBytes_eq_map, getD_map_range _ _ hj]

/-- The entries of the image at an address. -/
def State.tkImageAt (s : State) (a : Nat) : List TkEntry :=
  (List.range 64).map (fun i =>
    ⟨BitVec.ofNat 32 (dataNat s (a + 8 * i) 4), BitVec.ofNat 32 (dataNat s (a + 8 * i + 4) 4)⟩)

theorem tkEntries_load (s : State) (a : Nat) :
    tkEntries ((List.range 512).map (fun j => s.dataByte (a + j))) = s.tkImageAt a := by
  refine List.map_congr_left fun i hi => ?_
  have hi := List.mem_range.mp hi
  rw [field_map_range _ (by omega), field_map_range _ (by omega)]
  simp only [dataNat, Nat.add_assoc]

/-! ## The operations at issue -/

theorem imageTrap_of_legal (word : Word) {a : Nat} (c : Nat) (halign : a % 32 = 0) (hin : a + 512 ≤ sramSize) :
    imageTrap word a c = none := by
  simp [imageTrap, leavesSram, halign, hin]

theorem sramAt_mod (s : State) (t : Nat) {o : Nat} (h : o % 32 = 0) : s.sramAt t o % 32 = 0 := by
  simp only [State.sramAt, sramBase]
  omega

theorem tileStore_image (s : State) (t o : Nat) (u : Tile) :
    s.tileStore t o u.tkImage = s.putSectors (s.sramAt t o) u.tkImage 16 :=
  putBytes_eq s _ (length_tkImage u)

section

variable {t : TileId} {o : VecOp} {s : State} (hissues : s.issues t = true) (hsat : o.sat = false) (hmen : o.men = false)
include hissues hsat hmen

theorem tkclr_gives : exec (.tkclr t o) s = .next (s.modTile t (fun w => w.tkClear o)) := by
  have htrap : (s.tile t).vecTrap 0x20 o = none := by simp [Tile.vecTrap, vecDefined, hsat, hmen]
  exact congrArg Host.Outcome.next (runOp_vec hissues htrap (vecHeld_of_ne (by decide) (by decide)))

theorem tkins_gives (hpos : 1 ≤ ((s.tile t).xr o.vc.toNat).toNat) (hle : ((s.tile t).xr o.vc.toNat).toNat ≤ 64) :
    exec (.tkins t o) s = .next (s.modTile t (fun w => w.tkInsert (s.tile t) o)) := by
  have htrap : (s.tile t).vecTrap 0x21 o = none := by simp [Tile.vecTrap, vecDefined, hsat, hmen, hpos, hle]
  exact congrArg Host.Outcome.next (runOp_vec hissues htrap (vecHeld_of_ne (by decide) (by decide)))

variable (halign : ((s.tile t).xr o.vb.toNat).toNat % 32 = 0) (hin : ((s.tile t).xr o.vb.toNat).toNat + 512 ≤ sramSize)
include halign hin

theorem tkrd_gives : exec (.tkrd t o) s =
    .next (s.putSectors (s.sramAt t ((s.tile t).xr o.vb.toNat).toNat) (s.tile t).tkImage 16) := by
  have htrap : (s.tile t).vecTrap 0x23 o = none := by
    simp [Tile.vecTrap, vecDefined, hsat, hmen, imageTrap_of_legal _ _ halign hin]
  rw [← tileStore_image]
  exact congrArg Host.Outcome.next (runOp_vec hissues htrap (vecHeld_of_ne (by decide) (by decide)))

theorem tkmrg_gives : exec (.tkmrg t o) s = .next (s.tkMerge t (s.tile t) o) := by
  have htrap : (s.tile t).vecTrap 0x22 o = none := by
    simp [Tile.vecTrap, vecDefined, hsat, hmen, imageTrap_of_legal _ _ halign hin]
  exact congrArg Host.Outcome.next (runOp_vec hissues htrap (vecHeld_of_ne (by decide) (by decide)))

theorem tkswap_gives (halign' : ((s.tile t).xr o.vc.toNat).toNat % 32 = 0)
    (hin' : ((s.tile t).xr o.vc.toNat).toNat + 512 ≤ sramSize) :
    exec (.tkswap t o) s = .next (s.tkSwap t (s.tile t) o) := by
  have htrap : (s.tile t).vecTrap 0x24 o = none := by
    simp [Tile.vecTrap, vecDefined, hsat, hmen, imageTrap_of_legal _ _ halign hin, imageTrap_of_legal _ _ halign' hin']
  exact congrArg Host.Outcome.next (runOp_vec hissues htrap (vecHeld_of_ne (by decide) (by decide)))

end

/-! ## The images moved -/

theorem tkMerge_of_clean {s : State} {t : Nat} {u : Tile} {o : VecOp}
    (h : Clean s (s.sramAt t (u.xr o.vb.toNat).toNat) 512) : s.tkMerge t u o =
      s.modTile t (fun w => w.tkOfferAll (s.tkImageAt (s.sramAt t (u.xr o.vb.toNat).toNat))) := by
  simp only [State.tkMerge, tileLoad_of_clean h, tkEntries_load]

theorem tkSwap_of_clean {s : State} {t : Nat} {o : VecOp} {b c : Nat} (hb : ((s.tile t).xr o.vb.toNat).toNat = b)
    (hc : ((s.tile t).xr o.vc.toNat).toNat = c) (hbalign : b % 32 = 0) (hcalign : c % 32 = 0)
    (hapart : b + 512 ≤ c ∨ c + 512 ≤ b) (h : Clean s (s.sramAt t c) 512) : s.tkSwap t (s.tile t) o =
      (s.putSectors (s.sramAt t b) (s.tile t).tkImage 16).modTile t
        (fun w => { w with tk := [] }.tkOfferAll (s.tkImageAt (s.sramAt t c))) := by
  have hplaces : s.sramAt t c + 512 ≤ s.sramAt t b ∨ s.sramAt t b + 512 ≤ s.sramAt t c := by
    simp only [State.sramAt]
    omega
  have hwritten := onlyMem_putImage s (s.tile t).tkImage (s.sramAt t b)
  have hsram : (s.putSectors (s.sramAt t b) (s.tile t).tkImage 16).sramAt t c = s.sramAt t c :=
    OnlyMem.sramAt hwritten t c
  have hclean := clean_putImage_apart s (sramAt_mod s t hbalign) (s.tile t).tkImage (sramAt_mod s t hcalign) hplaces h
  have himage : (s.putSectors (s.sramAt t b) (s.tile t).tkImage 16).tkImageAt (s.sramAt t c) =
      s.tkImageAt (s.sramAt t c) := by
    refine List.map_congr_left fun i hi => ?_
    have hi := List.mem_range.mp hi
    rw [dataNat_putSectors_apart _ (sramAt_mod s t hbalign) _ (by omega),
      dataNat_putSectors_apart _ (sramAt_mod s t hbalign) _ (by omega)]
  rw [← hsram] at hclean
  simp only [State.tkSwap, hb, hc, tileStore_image, tileLoad_of_clean hclean, tkEntries_load, hsram, himage]

/-- Settles O14: the operations on the list change the tile alone; images are written as 16 good sectors (`field_tkImage` says
what they hold) and read back as their entries (`tkEntries_load`). -/
theorem topKListsAreKeptAndMoved : Obligations.TopKListsAreKeptAndMoved := by
  unfold Obligations.TopKListsAreKeptAndMoved
  refine ⟨fun t o s hissues hsat hmen => ⟨?_, fun hpos hle => ?_⟩, fun t o s hissues hsat hmen => ?_⟩
  · refine ⟨_, tkclr_gives hissues hsat hmen, onlyTile_modTile s t _, ?_⟩
    rw [State.tile_modTile_self, Tile.tkClear]
  · refine ⟨_, tkins_gives hissues hsat hmen hpos hle, onlyTile_modTile s t _, ?_⟩
    rw [State.tile_modTile_self, Tile.tkInsert]
  · intro u b c image holdsList halign hin
    have ha := sramAt_mod s t halign
    have hwritten := onlyMem_putImage s u.tkImage (s.sramAt t b)
    have hholds : ∀ r : State, r.mem = (s.putSectors (s.sramAt t b) u.tkImage 16).mem → holdsList r (s.sramAt t b) := by
      intro r hr i hi
      obtain ⟨hval, hidx⟩ := field_tkImage u hi
      rw [dataNat_congr hr, dataNat_congr hr, Nat.add_assoc, dataNat_putSectors _ ha _ (by omega),
        dataNat_putSectors _ ha _ (by omega)]
      exact ⟨hval, hidx⟩
    refine ⟨⟨_, tkrd_gives hissues hsat hmen halign hin, hwritten, hholds _ rfl, clean_putImage s ha _⟩,
      fun hclean => ?_, fun halign' hin' hapart hclean => ?_⟩
    · refine ⟨_, tkmrg_gives hissues hsat hmen halign hin, ?_⟩
      rw [tkMerge_of_clean hclean]
      exact ⟨onlyTile_modTile s t _, s.tile_modTile_self t _⟩
    · refine ⟨_, tkswap_gives hissues hsat hmen halign hin halign' hin', ?_⟩
      rw [tkSwap_of_clean rfl rfl halign halign' hapart hclean]
      refine ⟨OnlyMem.modTile_frame hwritten t _, fun k hk => ?_, hwritten.memBut_modTile t _, hwritten.linesBut_modTile t _,
        hholds _ (State.modTile_mem _ t _), ?_⟩
      · rw [State.tile_modTile_ne _ _ _ _ hk, hwritten.tile]
      · rw [State.tile_modTile_self, hwritten.tile]
        rfl

end Sys2Proof.Machine
end

section
/-! Array operations at issue (03 R51 to R60, R65 to R72, 04 R99): what legal operands are, the elements that a clean input and a
plane give, and the operation put into flight. -/

namespace Sys2Proof.Machine

open Sys2Proof.Say

/-! ## Legal operands -/

/-- The formats of each class (03 R51). -/
theorem fmtClass_cases {f : Nat} {c : ArrClass} (h : fmtClass f = some c) :
    (c = .i ∧ f ≤ 1) ∨ (c = .f ∧ 2 ≤ f ∧ f ≤ 9) ∨ (c = .h ∧ 10 ≤ f ∧ f ≤ 11) ∨ (c = .b ∧ f = fmtBin) := by
  simp only [fmtClass] at h
  split_ifs at h with hi hf hh hb <;> cases h
  · exact .inl ⟨rfl, hi⟩
  · exact .inr (.inl ⟨rfl, by omega, hf⟩)
  · exact .inr (.inr (.inl ⟨rfl, by omega, hh⟩))
  · exact .inr (.inr (.inr ⟨rfl, hb⟩))

/-- Legal operands are of one class, and the second half of an operand is taken only where that is allowed (03 R59, R60). -/
theorem arrIllegal_false {o : ArrOp} (h : arrIllegal o = false) : ∃ c, fmtClass o.fmtx.toNat = some c ∧
    fmtClass o.fmtw.toNat = some c ∧
    (o.selx = true → selAllowed o.fmtx.toNat (arrK o.fmtx.toNat o.fmtw.toNat) = true) := by
  simp only [arrIllegal] at h
  split at h
  · rename_i cx cw hx hw
    simp only [Bool.or_eq_false_iff, bne_eq_false_iff_eq, Bool.and_eq_false_imp, Bool.not_eq_false'] at h
    obtain ⟨⟨hclass, hselx⟩, -⟩ := h
    exact ⟨cx, hx, hclass ▸ hw, hselx⟩
  · cases h

/-- The elements of an operand with scales lie in the blocks that its scales are read for (03 R54, R58, R59). -/
theorem block_lt_scaleBytes {fx fw i : Nat} {sel : Bool} (hx : fx ≠ fmtBin)
    (hsel : sel = true → selAllowed fx (arrK fx fw) = true) (hi : i < arrK fx fw) :
    (selBase sel + i) / 32 < scaleBytes fx := by
  have hk : arrK fx fw ≤ 128 ∧ (fmtWidth fx ≠ 4 → arrK fx fw ≤ 64) := by
    rw [arrK, if_neg hx]
    split_ifs <;> omega
  cases sel with
  | false =>
    simp only [selBase, scaleBytes, Bool.false_eq_true, if_false]
    split <;> omega
  | true =>
    have hallowed := hsel rfl
    simp only [selAllowed, Bool.and_eq_true, beq_iff_eq] at hallowed
    simp only [selBase, scaleBytes, if_true, hallowed]
    omega

/-! ## Elements -/

/-- The integers of an operand of a class: those of an integer format, or none. -/
theorem opInts_of_class {f : Nat} {c : ArrClass} (h : fmtClass f = some c) (k : Nat) (sel : Bool) (n : Nat) :
    (if c == .b then (List.range k).map (fun i => (unpackAt n 1 i : Int))
      else if c == .i || c == .b then intElems f k sel n else []) = opInts f k sel n := by
  rcases fmtClass_cases h with ⟨rfl, hf⟩ | ⟨rfl, hf, hf'⟩ | ⟨rfl, hf, hf'⟩ | ⟨rfl, hf⟩
  · have hne : f ≠ fmtBin := by simp only [fmtBin]; omega
    simp [opInts, hf, hne]
  · have hne : f ≠ fmtBin := by simp only [fmtBin]; omega
    simp [opInts, hne, Nat.not_le.mpr (show 1 < f by omega)]
  · have hne : f ≠ fmtBin := by simp only [fmtBin]; omega
    simp [opInts, hne, Nat.not_le.mpr (show 1 < f by omega)]
  · simp [opInts, hf, unpackAt]

theorem opFloats_of_class {f : Nat} {c : ArrClass} (h : fmtClass f = some c) (k : Nat) (sel : Bool) (n : Nat)
    (scales : Nat → Nat) : (if c == .i || c == .b then [] else floatElems f k sel n scales) = opFloats f k sel n scales := by
  rcases fmtClass_cases h with ⟨rfl, hf⟩ | ⟨rfl, hf, hf'⟩ | ⟨rfl, hf, hf'⟩ | ⟨rfl, hf⟩
  · simp [opFloats, hf]
  · have hnot : ¬(f ≤ 1 ∨ f = fmtBin) := by simp only [fmtBin]; omega
    simp [opFloats, hnot]
  · have hnot : ¬(f ≤ 1 ∨ f = fmtBin) := by simp only [fmtBin]; omega
    simp [opFloats, hnot]
  · simp [opFloats, hf]

/-- Scales count only where the format has them, and only in the blocks of the elements. -/
theorem floatElems_congr {f k : Nat} {sel : Bool} {n : Nat} {g g' : Nat → Nat}
    (h : fmtScaled f = true → ∀ i < k, g ((selBase sel + i) / 32) = g' ((selBase sel + i) / 32)) :
    floatElems f k sel n g = floatElems f k sel n g' := by
  refine List.map_congr_left fun i hi => ?_
  cases hf : fmtScaled f with
  | false => rfl
  | true => simp only [h hf i (List.mem_range.mp hi)]

theorem opFloats_congr {f k : Nat} {sel : Bool} {n : Nat} {g g' : Nat → Nat}
    (h : fmtScaled f = true → ∀ i < k, g ((selBase sel + i) / 32) = g' ((selBase sel + i) / 32)) :
    opFloats f k sel n g = opFloats f k sel n g' := by
  rw [opFloats, opFloats, floatElems_congr h]

/-! ## Issue -/

/-- The operation that a tile puts into flight, from an input at SRAM offset `a` with its scales at `b`. -/
def State.arrFlight (s : State) (t : Nat) (u : Tile) (o : ArrOp) (comb : ArrCombine) (a b : Nat)
    (lane : List Int → List Int → List FV → List FV → Partial) : ArrFlight :=
  let fx := o.fmtx.toNat
  let fw := o.fmtw.toNat
  let k := arrK fx fw
  let p := o.plane.toNat
  let x := dataNat s (s.sramAt t a) 64
  { q := o.q.toNat, cls := (fmtClass fx).getD .i, comb := comb, ow := o.ow,
    lanes := (List.range 64).map (fun l => lane (opInts fx k o.selx x) (opInts fw k o.selw (u.planeRow p l))
      (opFloats fx k o.selx x (fun i => (s.dataByte (s.sramAt t b + i)).toNat))
      (opFloats fw k o.selw (u.planeRow p l) (fun i => (u.planeByte p (4096 + 4 * l + i)).toNat))) }

theorem arrIssue_of_clean {s : State} {t : Nat} {u : Tile} {o : ArrOp} {a b : Nat} (ha : (u.xr o.rs1.toNat).toNat = a)
    (hb : (u.xr o.rs2.toNat).toNat = b) (hlegal : arrIllegal o = false) (hclean : Clean s (s.sramAt t a) 64)
    (hscales : fmtScaled o.fmtx.toNat = true → Clean s (s.sramAt t b) (scaleBytes o.fmtx.toNat)) (comb : ArrCombine)
    (lane : List Int → List Int → List FV → List FV → Partial) : s.arrIssue t u o comb lane =
      s.modTile t (fun w => { w with idle := 0, flight := w.flight ++ [s.arrFlight t u o comb a b lane] }) := by
  obtain ⟨c, hx, hw, hselx⟩ := arrIllegal_false hlegal
  have hloads : (if fmtScaled o.fmtx.toNat then s.tileLoad t b (scaleBytes o.fmtx.toNat) else (s, [])) =
      (s, if fmtScaled o.fmtx.toNat then
        (List.range (scaleBytes o.fmtx.toNat)).map (fun j => s.dataByte (s.sramAt t b + j)) else []) := by
    cases hf : fmtScaled o.fmtx.toNat with
    | false => rfl
    | true => exact tileLoad_of_clean (hscales hf)
  have hfloats : ∀ x, opFloats o.fmtx.toNat (arrK o.fmtx.toNat o.fmtw.toNat) o.selx x (fun i => ((if fmtScaled o.fmtx.toNat
      then (List.range (scaleBytes o.fmtx.toNat)).map (fun j => s.dataByte (s.sramAt t b + j)) else []).getD i 0).toNat) =
      opFloats o.fmtx.toNat (arrK o.fmtx.toNat o.fmtw.toNat) o.selx x (fun i => (s.dataByte (s.sramAt t b + i)).toNat) := by
    refine fun x => opFloats_congr fun hf i hi => ?_
    have hne : o.fmtx.toNat ≠ fmtBin := fun he => by rw [he] at hf; exact absurd hf (by decide)
    rw [if_pos hf, getD_map_range _ _ (block_lt_scaleBytes hne hselx hi)]
  simp only [State.arrIssue, ha, hb, tileLoad_of_clean hclean, hloads, hx, Option.getD_some, opInts_of_class hx,
    opInts_of_class hw, opFloats_of_class hx, opFloats_of_class hw, hfloats]
  simp only [State.arrFlight, hx, Option.getD_some, dataNat]

theorem arrayIssued_modTile {s : State} {t : Nat} {o : ArrOp} {a : Nat} (ha : ((s.tile t).xr o.rs1.toNat).toNat = a)
    (comb : ArrCombine) (b : Nat) (lane : List Int → List Int → List FV → List FV → Partial) :
    ArrayIssued t o comb b lane s (s.modTile t (fun w =>
      { w with idle := 0, flight := w.flight ++ [s.arrFlight t (s.tile t) o comb a b lane] })) := by
  subst ha
  refine ⟨onlyTile_modTile s t _, _, s.tile_modTile_self t _, rfl, rfl, rfl, rfl, ?_, fun l hl => ?_⟩
  · simp [State.arrFlight]
  · simp [State.arrFlight, hl]

theorem readTrap_of_legal {a align n : Nat} (halign : a % align = 0) (hin : a + n ≤ sramSize) : readTrap a align n = none := by
  simp [readTrap, leavesSram, halign, hin]

/-- A distance is never taken of a format with scales (03 R71). -/
theorem fmtScaled_of_distFormat {f : Nat} (h : distFormat f = true) : fmtScaled f = false := by
  simp only [distFormat, Bool.or_eq_true, decide_eq_true_eq] at h
  simp only [fmtScaled, Bool.and_eq_false_imp, decide_eq_true_eq, decide_eq_false_iff_not]
  omega

theorem adistIllegal_false {s : State} {o : ArrOp} (h : s.adistIllegal o = false) :
    arrIllegal o = false ∧ fmtScaled o.fmtx.toNat = false := by
  simp only [State.adistIllegal, Bool.or_eq_false_iff] at h
  obtain ⟨⟨-, hlegal⟩, hformat⟩ := h
  refine ⟨hlegal, ?_⟩
  split at hformat
  · rw [bne_eq_false_iff_eq] at hformat
    rw [hformat]
    decide
  · rw [Bool.or_eq_false_iff, Bool.not_eq_false', Bool.not_eq_false'] at hformat
    exact fmtScaled_of_distFormat hformat.1

section

variable {t : TileId} {o : ArrOp} {s : State} {a b : Nat} (hissues : s.issues t = true)
  (ha : ((s.tile t).xr o.rs1.toNat).toNat = a) (hb : ((s.tile t).xr o.rs2.toNat).toNat = b) (halign : a % 64 = 0)
  (hin : a + 64 ≤ sramSize) (hclean : Clean s (s.sramAt t a) 64) (hon : s.arrState t = rampOn)
  (hheld : (s.tile t).arrHeld o ((fmtClass o.fmtx.toNat).getD .i) = false)
include hissues ha hb halign hin hclean hon hheld

theorem amac_gives (hlegal : amacIllegal o = false) (hscales : fmtScaled o.fmtx.toNat = true →
      b % 4 = 0 ∧ b + scaleBytes o.fmtx.toNat ≤ sramSize ∧ Clean s (s.sramAt t b) (scaleBytes o.fmtx.toNat)) :
    Gives (.amac t o) s (ArrayIssued t o (if o.fmtx.toNat ≤ 1 then .addInt else .addFloat) b
      (dotLane ((fmtClass o.fmtx.toNat).getD .i)) s) := by
  have htrap : (s.tile t).amacTrap o = none := by
    simp only [Tile.amacTrap, hlegal, ha, hb, readTrap_of_legal halign hin, Bool.false_eq_true, if_false]
    split
    · rename_i hf
      obtain ⟨hbalign, hbin, -⟩ := hscales hf
      exact readTrap_of_legal hbalign hbin
    · rfl
  rw [amacIllegal, Bool.or_eq_false_iff, beq_eq_false_iff_ne] at hlegal
  obtain ⟨hlegal, hnotbin⟩ := hlegal
  have hcomb : (if (fmtClass o.fmtx.toNat).getD .i = .i then ArrCombine.addInt else .addFloat) =
      if o.fmtx.toNat ≤ 1 then .addInt else .addFloat := by
    obtain ⟨c, hx, -⟩ := arrIllegal_false hlegal
    refine if_congr ?_ rfl rfl
    rw [hx, Option.getD_some]
    rcases fmtClass_cases hx with ⟨rfl, hf⟩ | ⟨rfl, hf, -⟩ | ⟨rfl, hf, -⟩ | ⟨rfl, hf⟩
    · exact iff_of_true rfl hf
    · exact iff_of_false nofun (by omega)
    · exact iff_of_false nofun (by omega)
    · exact absurd hf hnotbin
  have hrun : s.runOp t (.amac o) = s.amacIssue t (s.tile t) o := runOp_of_ready hissues htrap (fun _ => hon) hheld
  refine ⟨_, congrArg Host.Outcome.next hrun, ?_⟩
  rw [State.amacIssue, hcomb, arrIssue_of_clean ha hb hlegal hclean fun hf => (hscales hf).2.2]
  exact arrayIssued_modTile ha _ b _

theorem adist_gives (hlegal : s.adistIllegal o = false) :
    Gives (.adist t o) s (ArrayIssued t o (distCombine o.fn.toNat ((fmtClass o.fmtx.toNat).getD .i)) b
      (distLane o.fn.toNat ((fmtClass o.fmtx.toNat).getD .i)) s) := by
  have htrap : s.adistTrap (s.tile t) o = none := by
    simp only [State.adistTrap, hlegal, ha, readTrap_of_legal halign hin, Bool.false_eq_true, if_false]
  obtain ⟨hlegal, hplain⟩ := adistIllegal_false hlegal
  have hrun : s.runOp t (.adist o) = s.adistIssue t (s.tile t) o := runOp_of_ready hissues htrap (fun _ => hon) hheld
  refine ⟨_, congrArg Host.Outcome.next hrun, ?_⟩
  rw [State.adistIssue, arrIssue_of_clean ha hb hlegal hclean fun hf => absurd hf (by simp [hplain])]
  exact arrayIssued_modTile ha _ b _

end

end Sys2Proof.Machine
end

section
/-! The obligation on array operations at issue (03 R61, R65, R66, R70, 04 R99), and the exact lanes of integers. -/

namespace Sys2Proof.Machine

open Sys2Proof.Say

/-! ## Sums and extremes of lists -/

theorem sumInt_map_range (f : Nat → Int) (n : Nat) : sumInt ((List.range n).map f) = ∑ i ∈ Finset.range n, f i := by
  induction n with
  | zero => rfl
  | succ n ih =>
    rw [List.range_succ, List.map_append, sumInt, List.foldl_append, Finset.sum_range_succ, ← ih]
    rfl

/-- Ones and zeros added count the ones. -/
theorem sumInt_map_ite {ι : Type} (l : List ι) (p : ι → Bool) : sumInt (l.map (fun i => if p i then 1 else 0)) = l.countP p := by
  have hfold : ∀ a : Int, (l.map (fun i => if p i then (1 : Int) else 0)).foldl (· + ·) a = a + l.countP p := by
    induction l with
    | nil => simp
    | cons i l ih =>
      intro a
      rw [List.map_cons, List.foldl_cons, ih, List.countP_cons]
      split <;> push_cast <;> ring
  rw [sumInt, hfold, zero_add]

theorem foldl_max_spec {α : Type} [LinearOrder α] (l : List α) (a : α) :
    (∀ x ∈ l, x ≤ l.foldl max a) ∧ a ≤ l.foldl max a ∧ (l.foldl max a = a ∨ l.foldl max a ∈ l) := by
  induction l generalizing a with
  | nil => simp
  | cons x l ih =>
    obtain ⟨hall, hstart, hmem⟩ := ih (max a x)
    rw [List.foldl_cons]
    refine ⟨fun y hy => ?_, (le_max_left a x).trans hstart, ?_⟩
    · rcases List.mem_cons.mp hy with rfl | hy
      · exact (le_max_right a y).trans hstart
      · exact hall y hy
    · rcases hmem with hmem | hmem
      · rcases max_choice a x with h | h
        · exact .inl (hmem.trans h)
        · exact .inr (List.mem_cons.mpr (.inl (hmem.trans h)))
      · exact .inr (List.mem_cons_of_mem x hmem)

/-- The greatest of values that all lie above the start; under the reversed order, the least. -/
theorem foldl_max_map_range {α : Type} [LinearOrder α] (f : Nat → α) (a : α) {n : Nat} (hn : 0 < n) (h : ∀ i, a < f i) :
    (∀ i < n, f i ≤ ((List.range n).map f).foldl max a) ∧ ∃ i < n, f i = ((List.range n).map f).foldl max a := by
  obtain ⟨hall, -, hmem⟩ := foldl_max_spec ((List.range n).map f) a
  have hle : ∀ i < n, f i ≤ ((List.range n).map f).foldl max a := fun i hi =>
    hall _ (List.mem_map_of_mem (List.mem_range.mpr hi))
  refine ⟨hle, ?_⟩
  rcases hmem with hmem | hmem
  · exact absurd (hmem ▸ hle 0 hn) (not_le_of_gt (h 0))
  · obtain ⟨i, hi, heq⟩ := List.mem_map.mp hmem
    exact ⟨i, List.mem_range.mp hi, heq⟩

/-! ## INT8 and binary lanes -/

/-- Byte `i` of a number as an INT8 element. -/
def int8At (x i : Nat) : Int := twos 8 (x / 256 ^ i)

theorem opInts_int8 (x : Nat) : opInts fmtInt8 64 false x = (List.range 64).map (int8At x) := by
  refine List.map_congr_left fun i _ => ?_
  have hpow : 2 ^ (8 * i) = 256 ^ i := by rw [pow_mul]; norm_num
  have hwidth : fmtWidth fmtInt8 = 8 := rfl
  simp only [hwidth, selBase, unpackAt, int8At, twos, Bool.false_eq_true, if_false, Nat.zero_add, hpow, Nat.mod_mod]

theorem int8At_bounds (x i : Nat) : -128 ≤ int8At x i ∧ int8At x i ≤ 127 := by
  simp only [int8At, twos]
  split <;> omega

theorem zipWith_map_range {α β γ : Type} (g : α → β → γ) (f : Nat → α) (h : Nat → β) (n : Nat) :
    ((List.range n).map f).zipWith g ((List.range n).map h) = (List.range n).map (fun i => g (f i) (h i)) := by
  rw [List.zipWith_map, List.zipWith_self]

variable (x w : Nat)

theorem dotLane_int8 : dotLane .i (opInts fmtInt8 64 false x) (opInts fmtInt8 64 false w) [] [] =
    .int (∑ i ∈ Finset.range 64, int8At x i * int8At w i) := by
  rw [dotLane, opInts_int8, opInts_int8, zipWith_map_range, sumInt_map_range]

theorem distLane_l1 : distLane 0 .i (opInts fmtInt8 64 false x) (opInts fmtInt8 64 false w) [] [] =
    .int (∑ i ∈ Finset.range 64, |int8At x i - int8At w i|) := by
  rw [distLane, opInts_int8, opInts_int8, zipWith_map_range, sumInt_map_range]
  simp only [Int.natCast_natAbs]

theorem distLane_l2sq : distLane 1 .i (opInts fmtInt8 64 false x) (opInts fmtInt8 64 false w) [] [] =
    .int (∑ i ∈ Finset.range 64, (int8At x i - int8At w i) ^ 2) := by
  rw [distLane, opInts_int8, opInts_int8, zipWith_map_range, sumInt_map_range]
  simp only [sq]

theorem distLane_maxp : ∃ m, distLane 3 .i (opInts fmtInt8 64 false x) (opInts fmtInt8 64 false w) [] [] = .int m ∧
    (∀ i < 64, int8At x i + int8At w i ≤ m) ∧ ∃ i < 64, int8At x i + int8At w i = m := by
  refine ⟨_, by rw [distLane, opInts_int8, opInts_int8, zipWith_map_range],
    foldl_max_map_range (fun i => int8At x i + int8At w i) (-1000) (by decide) fun i => ?_⟩
  have := int8At_bounds x i
  have := int8At_bounds w i
  omega

theorem distLane_minp : ∃ m, distLane 4 .i (opInts fmtInt8 64 false x) (opInts fmtInt8 64 false w) [] [] = .int m ∧
    (∀ i < 64, m ≤ int8At x i + int8At w i) ∧ ∃ i < 64, int8At x i + int8At w i = m := by
  refine ⟨((List.range 64).map (fun i => int8At x i + int8At w i)).foldl min 1000, ?_,
    foldl_max_map_range (α := ℤᵒᵈ) (fun i => int8At x i + int8At w i) 1000 (by decide) fun i => ?_⟩
  · rw [opInts_int8, opInts_int8]
    exact congrArg (fun l => Partial.int (l.foldl min 1000)) (zipWith_map_range ..)
  have hx := int8At_bounds x i
  have hw := int8At_bounds w i
  have hlt : int8At x i + int8At w i < 1000 := by omega
  exact hlt

theorem distLane_ham (sel : Bool) : distLane 2 .b (opInts fmtBin 512 sel x) (opInts fmtBin 512 sel w) [] [] =
    .int (((List.range 512).countP (fun i => x.testBit i != w.testBit i) : Nat) : Int) := by
  have hdiffer : ∀ i, (if ((x / 2 ^ i % 2 : Nat) : Int) = ((w / 2 ^ i % 2 : Nat) : Int) then (0 : Int) else 1) =
      if (x.testBit i != w.testBit i) = true then 1 else 0 := fun i => by
    have hx := Nat.mod_two_eq_zero_or_one (x / 2 ^ i)
    have hw := Nat.mod_two_eq_zero_or_one (w / 2 ^ i)
    simp only [Nat.testBit_eq_decide_div_mod_eq]
    rcases hx with hx | hx <;> rcases hw with hw | hw <;> simp [hx, hw]
  have hbits : ∀ n, opInts fmtBin 512 sel n = (List.range 512).map (fun i => ((n / 2 ^ i % 2 : Nat) : Int)) := fun _ => rfl
  rw [distLane, hbits, hbits, zipWith_map_range]
  simp only [hdiffer, sumInt_map_ite]

/-- Settles O18: clean loads leave the state and give the stored numbers, so the operation put into flight is the one the spec's
words describe; lanes of integers are sums and extremes over their lists. -/
theorem arrayOperationsIssue : Obligations.ArrayOperationsIssue := by
  unfold Obligations.ArrayOperationsIssue
  refine ⟨fun t o s hissues halign hin hclean hon hheld => ⟨fun hlegal hscales => ?_, fun hlegal => ?_⟩,
    fun x w sel => ?_⟩
  · exact amac_gives hissues rfl rfl halign hin hclean hon hheld hlegal hscales
  · exact adist_gives hissues rfl rfl halign hin hclean hon hheld hlegal
  · exact ⟨dotLane_int8 x w, distLane_l1 x w, distLane_l2sq x w, distLane_maxp x w, distLane_minp x w, distLane_ham x w sel⟩

end Sys2Proof.Machine
end

section
/-! The activity ramp of the array (03 R82 to R84): what a change of its state leaves. -/

namespace Sys2Proof.Machine

open Sys2Proof.Say

/-- The fields that show the ramp of a tile's array. -/
def rampFields (t : Nat) : Fields := [(pgTile t, TILE_ARR_STAT.STATE), (pgTile t, TILE_ARR_STAT.GROUPS)]

/-- The ramp of a tile shows a state and a count of groups, the tile is as given, and nothing else changed. -/
def RampIs (t : Nat) (s s' : State) (st groups : Nat) (w : Tile) : Prop :=
  s'.arrState t = st ∧ s'.arrGroups t = groups ∧ s'.tile t = w ∧ OnlyTileRegs t (rampFields t) s s'

variable {s : State} {t : Nat}

theorem rampIs_modTile (f : Tile → Tile) : RampIs t s (s.modTile t f) (s.arrState t) (s.arrGroups t) (f (s.tile t)) :=
  ⟨rfl, rfl, s.tile_modTile_self t f, rfl, fun k hk => s.tile_modTile_ne t k f hk, RegsBut.of_regs rfl⟩

/-- A state of the ramp and a count of groups set together with the tile. -/
theorem rampIs_setArr {st : Nat} (hst : st < 4) (groups : Nat) (f : Tile → Tile) :
    RampIs t s ((s.setArr t st groups).modTile t f) st (groups % 16) (f (s.tile t)) := by
  refine ⟨?_, ?_, (s.setArr t st groups).tile_modTile_self t f, rfl, fun k hk =>
    (s.setArr t st groups).tile_modTile_ne t k f hk, ?_⟩
  · rw [State.arrState, State.get_modTile, State.setArr, State.get_put_apart _ _ _ _ _ _ (by decide), State.get_put_of_lt]
    exact hst
  · rw [State.arrGroups, State.get_modTile, State.setArr, State.get_put_self]
    rfl
  · have hregs : RegsBut (rampFields t) s (s.setArr t st groups) :=
      ((RegsBut.of_put s _ _ st).mono (by simp [rampFields])).put (by simp [rampFields]) groups
    exact hregs

theorem RampIs.congr_tile {s' : State} {st groups groups' : Nat} {w w' : Tile} (h : RampIs t s s' st groups w)
    (hgroups : groups = groups') (hw : w = w') : RampIs t s s' st groups' w' :=
  hgroups ▸ hw ▸ h

/-- The tile as the ramp begins. -/
def State.begun (s : State) (t : Nat) (w : Tile) : Tile := { w with interval := s.rampInterval t, switched := 1 }

theorem rampIs_beginUp : RampIs t s (s.beginUp t) rampUp 1 (s.begun t (s.tile t)) := rampIs_setArr (by decide) 1 _

theorem rampIs_beginDown : RampIs t s (s.beginDown t) rampDown 7 (s.begun t { s.tile t with cool := false }) :=
  rampIs_setArr (by decide) 7 _

theorem rampIs_reverseUp :
    RampIs t s (s.reverseUp t) rampUp (min 8 (s.arrGroups t + 1)) { s.tile t with switched := 1 } :=
  (rampIs_setArr (by decide) _ _).congr_tile (Nat.mod_eq_of_lt (by omega)) rfl

theorem rampIs_reverseDown :
    RampIs t s (s.reverseDown t) rampDown ((s.arrGroups t - 1) % 16) { s.tile t with switched := 1 } :=
  rampIs_setArr (by decide) _ _

/-- A ramp that begins after a change of the tile. -/
theorem rampIs_modTile_beginDown (f : Tile → Tile) :
    RampIs t s ((s.modTile t f).beginDown t) rampDown 7 (s.begun t { f (s.tile t) with cool := false }) := by
  obtain ⟨hst, hgroups, htile, hframe, htiles, hregs⟩ := rampIs_beginDown (s := s.modTile t f) (t := t)
  rw [s.tile_modTile_self] at htile
  refine ⟨hst, hgroups, htile, ?_, fun k hk => ?_, hregs⟩
  · rw [hframe]
    rfl
  · rw [htiles k hk, s.tile_modTile_ne t k f hk]

/-! ## The commands of the ramp -/

theorem warm_of_off (h : s.arrState t = rampOff) : s.warm t = s.beginUp t := if_pos h

theorem warm_of_on (h : s.arrState t = rampOn) : s.warm t = s.modTile t (fun u => { u with idle := 0 }) := by
  rw [State.warm, h]
  rfl

theorem warm_of_down (h : s.arrState t = rampDown) : s.warm t = s.reverseUp t := by
  rw [State.warm, h]
  rfl

theorem warm_of_up (h : s.arrState t = rampUp) : s.warm t = s := by
  rw [State.warm, h]
  rfl

theorem coolDown_of_up (h : s.arrState t = rampUp) : s.coolDown t = s.reverseDown t := if_pos h

theorem coolDown_of_on (h : s.arrState t = rampOn) : s.coolDown t =
    if (s.tile t).flight.isEmpty then s.beginDown t else s.modTile t (fun u => { u with cool := true }) := by
  rw [State.coolDown, h]
  rfl

theorem coolDown_of_off_or_down (h : s.arrState t = rampOff ∨ s.arrState t = rampDown) : s.coolDown t = s := by
  rcases h with h | h <;> rw [State.coolDown, h] <;> rfl

theorem rampStep_of_up (h : s.arrState t = rampUp) : s.rampStep t =
    if s.arrGroups t < 8 then (s.setArr t rampUp (s.arrGroups t + 1)).modTile t (fun u => { u with switched := u.switched + 1 })
    else (s.setArr t rampOn 8).modTile t (fun u => { u with idle := 0, switched := 0 }) := if_pos h

theorem rampStep_of_down (h : s.arrState t = rampDown) : s.rampStep t =
    if 0 < s.arrGroups t then (s.setArr t rampDown (s.arrGroups t - 1)).modTile t (fun u => { u with switched := u.switched + 1 })
    else (s.setArr t rampOff 0).modTile t (fun u => { u with switched := 0 }) := by
  rw [State.rampStep, h]
  rfl

theorem awarm_gives {t : TileId} (hissues : s.issues t = true) : exec (.awarm t) s = .next (s.warm t) :=
  congrArg Host.Outcome.next (runOp_of_ready (op := .awarm) hissues rfl nofun rfl)

theorem acool_gives {t : TileId} (hissues : s.issues t = true) : exec (.acool t) s = .next (s.coolDown t) :=
  congrArg Host.Outcome.next (runOp_of_ready (op := .acool) hissues rfl nofun rfl)

end Sys2Proof.Machine
end

section
/-! The obligation on the results of the array (03 R61, R65, R70, R82). -/

namespace Sys2Proof.Machine

open Sys2Proof.Say

/-! ## The lanes written -/

/-- What an operation in flight gives in lane `l`, with the accumulators of `u`. -/
def Tile.resultLane (u : Tile) (f : ArrFlight) (l : Nat) : Word × Nat :=
  combineLane f.comb f.ow (f.lanes.getD l (.int 0)) (u.accum f.q l)

/-- One lane of a result written. -/
def Tile.writeLane (u : Tile) (f : ArrFlight) (l : Nat) : Tile :=
  { u with acc := mapSet 0 u.acc (64 * f.q + l) (u.resultLane f l).1 }.raise (u.resultLane f l).2

theorem accum_writeLane (u : Tile) (f : ArrFlight) (l q m : Nat) : (u.writeLane f l).accum q m =
    if 64 * q + m = 64 * f.q + l then (u.resultLane f l).1 else u.accum q m :=
  mapGet_mapSet ..

/-- The first `n` lanes of a result written: each from the accumulator as it was. -/
theorem writeLanes_spec (u : Tile) (f : ArrFlight) {n : Nat} (hn : n ≤ 64) :
    let w := (List.range n).foldl (fun u l => u.writeLane f l) u
    (∀ l < 64, w.accum f.q l = if l < n then (u.resultLane f l).1 else u.accum f.q l) ∧
    (∀ q l, q ≠ f.q → l < 64 → w.accum q l = u.accum q l) ∧
    (∀ b, w.astat.testBit b = (u.astat.testBit b || (List.range n).any (fun l => (u.resultLane f l).2.testBit b))) ∧
    w = { u with acc := w.acc, astat := w.astat } := by
  induction n with
  | zero => exact ⟨fun _ _ => rfl, fun _ _ _ _ => rfl, by simp, rfl⟩
  | succ n ih =>
    obtain ⟨hself, hother, hflags, hframe⟩ := ih (by omega)
    simp only [List.range_succ, List.foldl_append, List.foldl_cons, List.foldl_nil]
    generalize (List.range n).foldl (fun u l => u.writeLane f l) u = w at hself hother hflags hframe
    have hlane : w.resultLane f n = u.resultLane f n := by
      rw [Tile.resultLane, hself n (by omega), if_neg (Nat.lt_irrefl n), Tile.resultLane]
    refine ⟨fun l hl => ?_, fun q l hq hl => ?_, fun b => ?_, ?_⟩
    · rw [accum_writeLane, hlane, hself l hl]
      by_cases hln : l = n
      · rw [hln, if_pos rfl, if_pos (Nat.lt_succ_self n)]
      · rw [if_neg (by omega)]
        exact if_congr (by omega) rfl rfl
    · rw [accum_writeLane, if_neg (by omega), hother q l hq hl]
    · rw [Tile.writeLane, Tile.testBit_raise, hlane, hflags, List.any_append, Bool.or_assoc]
      simp
    · rw [Tile.writeLane, hframe]
      rfl

theorem writeResult_eq (u : Tile) (f : ArrFlight) :
    u.writeResult f = (List.range 64).foldl (fun u l => u.writeLane f l) u := rfl

/-- What a result leaves of its tile. -/
theorem writeResult_spec (u : Tile) (f : ArrFlight) :
    (∀ l < 64, (u.writeResult f).accum f.q l = (u.resultLane f l).1) ∧
    (∀ q l, q ≠ f.q → l < 64 → (u.writeResult f).accum q l = u.accum q l) ∧
    (∀ b, (u.writeResult f).astat.testBit b =
      (u.astat.testBit b || (List.range 64).any (fun l => (u.resultLane f l).2.testBit b))) ∧
    u.writeResult f = { u with acc := (u.writeResult f).acc, astat := (u.writeResult f).astat } := by
  obtain ⟨hself, hother, hflags, hframe⟩ := writeLanes_spec u f (le_refl 64)
  rw [← writeResult_eq] at hself hother hflags hframe
  exact ⟨fun l hl => by rw [hself l hl, if_pos hl], hother, hflags, hframe⟩

/-! ## The result and the ramp-down that waits for it -/

section

variable {s : State} {t : Nat} {f : ArrFlight} {rest : List ArrFlight} (h : (s.tile t).flight = f :: rest)
include h

/-- The tile after its oldest operation has written, and no ramp begins. -/
theorem arrayResult_of_not_ends (hends : (rest.isEmpty && (s.tile t).cool && s.arrState t == rampOn) = false) :
    s.arrayResult t = s.modTile t (fun u => { u.writeResult f with flight := rest }) := by
  have hcool : ((s.tile t).writeResult f).cool = (s.tile t).cool := by rw [(writeResult_spec (s.tile t) f).2.2.2]
  rw [State.arrayResult, h]
  refine if_neg ?_
  rw [s.tile_modTile_self]
  rw [← Bool.not_eq_true, ← hcool] at hends
  exact hends

theorem arrayResult_of_ends (hends : (rest.isEmpty && (s.tile t).cool && s.arrState t == rampOn) = true) :
    s.arrayResult t = (s.modTile t (fun u => { u.writeResult f with flight := rest })).beginDown t := by
  have hcool : ((s.tile t).writeResult f).cool = (s.tile t).cool := by rw [(writeResult_spec (s.tile t) f).2.2.2]
  rw [State.arrayResult, h]
  refine if_pos ?_
  rw [s.tile_modTile_self]
  rw [← hcool] at hends
  exact hends

/-- The ramp and the tile after a result. -/
theorem rampIs_arrayResult :
    let w : Tile := { (s.tile t).writeResult f with flight := rest }
    let ends := rest.isEmpty && (s.tile t).cool && s.arrState t == rampOn
    RampIs t s (s.arrayResult t) (if ends then rampDown else s.arrState t) (if ends then 7 else s.arrGroups t)
      (if ends then s.begun t { w with cool := false } else w) := by
  intro w ends
  cases hends : ends with
  | false =>
    rw [arrayResult_of_not_ends h hends]
    exact rampIs_modTile _
  | true =>
    rw [arrayResult_of_ends h hends]
    exact rampIs_modTile_beginDown _

end

/-! ## Saturation -/

theorem saturate32_spec (v : Int) : (saturate32 v).1.toInt = max (-2 ^ 31) (min (2 ^ 31 - 1) v) ∧
    ((saturate32 v).2 = true ↔ v < -2 ^ 31 ∨ 2 ^ 31 - 1 < v) := by
  unfold saturate32
  split
  · exact ⟨by rw [show (0x7FFFFFFF#32).toInt = 2 ^ 31 - 1 by decide]; omega, iff_of_true rfl (by omega)⟩
  · split
    · exact ⟨by rw [show (0x80000000#32).toInt = -2 ^ 31 by decide]; omega, iff_of_true rfl (by omega)⟩
    · refine ⟨?_, iff_of_false Bool.false_ne_true (by omega)⟩
      rw [BitVec.toInt_ofInt_eq_self (by decide) (by omega) (by omega)]
      omega

/-- Settles O19: the result is written lane by lane from the old accumulators (`writeResult_spec`), and then the ramp-down that
waited for it begins (`rampIs_arrayResult`). -/
theorem arrayResultsAreWritten : Obligations.ArrayResultsAreWritten := by
  unfold Obligations.ArrayResultsAreWritten
  refine ⟨fun t s f rest h => ?_, fun ow v aq => ?_⟩
  · obtain ⟨hself, hother, hflags, hframe⟩ := writeResult_spec (s.tile t) f
    obtain ⟨hst, hgroups, htile, honly⟩ := rampIs_arrayResult h
    refine ⟨_, rfl, ?_⟩
    simp only [htile, hst, hgroups]
    cases hends : rest.isEmpty && (s.tile t).cool && s.arrState t == rampOn with
    | false => exact ⟨hself, hother, hflags, by simp only [Bool.false_eq_true, if_false]; rw [hframe], trivial, trivial, honly⟩
    | true => exact ⟨hself, hother, hflags, by simp only [if_true, State.begun]; rw [hframe], trivial, trivial, honly⟩
  · obtain ⟨hval, hsat⟩ := saturate32_spec (if ow then v else aq.toInt + v)
    have hsum : (if ow then v else aq.toInt + v) = (if ow then 0 else aq.toInt) + v := by cases ow <;> simp
    rw [hsum] at hval hsat
    simp only [combineLane, hsum]
    refine ⟨hval, ?_⟩
    rw [← hsat]
    cases (saturate32 ((if ow then 0 else aq.toInt) + v)).2 <;> simp [flagIf, flagIntSat]

end Sys2Proof.Machine
end

section
/-! Loads of weight planes (03 R64, 04 R99, R113): the load that `APLD` starts and the plane that takes it. -/

namespace Sys2Proof.Machine

open Sys2Proof.Say

/-! ## A range of a map replaced -/

theorem mapGet_map_shift {α : Type} (d : α) (l : List (Nat × α)) (base i : Nat) :
    mapGet d (l.map (fun e => (base + e.1, e.2))) (base + i) = mapGet d l i := by
  have hkey : (fun e : Nat × α => e.1 == base + i) ∘ (fun e : Nat × α => (base + e.1, e.2)) = fun e => e.1 == i := by
    funext e
    simp
  rw [mapGet, List.find?_map, hkey, mapGet]
  cases l.find? (fun e => e.1 == i) <;> rfl

/-- A map whose keys from `base` on, `n` of them, take the entries of another. -/
theorem mapGet_replaceRange {α : Type} (d : α) (m l : List (Nat × α)) (base n k : Nat) (hl : ∀ e ∈ l, e.1 < n) :
    mapGet d (m.filter (fun e => e.1 < base) ++ l.map (fun e => (base + e.1, e.2)) ++ m.filter (fun e => base + n ≤ e.1)) k =
      if base ≤ k ∧ k < base + n then mapGet d l (k - base) else mapGet d m k := by
  have hbelow : ∀ e ∈ m.filter (fun e => e.1 < base), e.1 < base := fun e he => by simpa using (List.mem_filter.mp he).2
  have habove : ∀ e ∈ m.filter (fun e => base + n ≤ e.1), base + n ≤ e.1 := fun e he => by
    simpa using (List.mem_filter.mp he).2
  have hmid : ∀ e ∈ l.map (fun e => (base + e.1, e.2)), base ≤ e.1 ∧ e.1 < base + n := fun e he => by
    obtain ⟨e', he', rfl⟩ := List.mem_map.mp he
    have := hl e' he'
    exact ⟨Nat.le_add_right .., by dsimp only; omega⟩
  by_cases hlt : k < base
  · rw [if_neg (by omega), mapGet_append_left _ _ _ _ fun e he => by have := habove e he; omega,
      mapGet_append_left _ _ _ _ fun e he => by have := hmid e he; omega, mapGet_filter]
    exact fun e he => by simpa [he] using hlt
  · by_cases hin : k < base + n
    · obtain ⟨i, rfl⟩ := Nat.exists_eq_add_of_le (Nat.not_lt.mp hlt)
      rw [if_pos (by omega), mapGet_append_left _ _ _ _ fun e he => by have := habove e he; omega,
        mapGet_append _ _ _ _ fun e he => by have := hbelow e he; omega, mapGet_map_shift, Nat.add_sub_cancel_left]
    · rw [if_neg (by omega), mapGet_append _ _ _ _ fun e he => ?_, mapGet_filter]
      · exact fun e he => by simpa [he] using hin
      · rcases List.mem_append.mp he with he | he
        · have := hbelow e he
          omega
        · have := hmid e he
          omega

/-- What a plane holds after a finished load. -/
theorem planeByte_takeLoad (u : Tile) {l : PlaneLoad} (hl : ∀ e ∈ l.data, e.1 < if l.sc then 4352 else 4096) {q i : Nat}
    (hi : i < 4352) : (u.takeLoad l).planeByte q i =
      if q = l.plane ∧ i < (if l.sc then 4352 else 4096) then mapGet 0 l.data i else u.planeByte q i := by
  have hn : (if l.sc then 4352 else 4096) ≤ 4352 := by split <;> omega
  simp only [Tile.planeByte, Tile.takeLoad, mapGet_replaceRange _ _ _ _ _ _ hl]
  by_cases hq : q = l.plane
  · subst hq
    rw [Nat.add_sub_cancel_left]
    exact if_congr (by omega) rfl rfl
  · rw [if_neg (by omega), if_neg (by omega)]

/-! ## The load started -/

section

variable (s : State) (t : TileId) (o : PlaneOp) (a b : Nat)

/-- The bytes of the plane's image that `APLD` reads at issue: those in SRAM. -/
def State.apldPlane : List Byte := if o.src then [] else (List.range 4096).map (fun i => s.dataByte (s.sramAt t a + i))

/-- The bytes of the scale image that `APLD` reads at issue. -/
def State.apldScales : List Byte := if o.sc then (List.range 256).map (fun i => s.dataByte (s.sramAt t b + i)) else []

/-- The image of a load as it starts. -/
def State.apldData : List (Nat × Byte) := memCells 0 (s.apldPlane t o a) ++ memCells 4096 (s.apldScales t o b)

/-- The load that `APLD` starts. -/
def State.apldLoad : PlaneLoad :=
  { id := (s.tile t).nextId, plane := o.plane.toNat, src := o.src, sc := o.sc, base := a, scale := b,
    todo := if o.src then List.range (if o.sc then 68 else 64) else [], data := s.apldData t o a b, damaged := false,
    rope := (s.tile t).trope }

theorem length_apldPlane : (s.apldPlane t o a).length ≤ 4096 := by
  rw [State.apldPlane]
  split <;> simp

theorem mapGet_apldData_plane {i : Nat} (hi : i < 4096) : mapGet 0 (s.apldData t o a b) i =
    if o.src then 0 else s.dataByte (s.sramAt t a + i) := by
  rw [State.apldData, mapGet_append_left _ _ _ _ fun e he => by have := mem_memCells _ _ _ he; omega, mapGet_memCells,
    if_pos (Nat.zero_le i), State.apldPlane]
  split
  · rfl
  · exact getD_map_range _ _ hi

theorem mapGet_apldData_scales {i : Nat} (hi : i < 256) : mapGet 0 (s.apldData t o a b) (4096 + i) =
    if o.sc then s.dataByte (s.sramAt t b + i) else 0 := by
  have hplane : ∀ e ∈ memCells 0 (s.apldPlane t o a), e.1 ≠ 4096 + i := fun e he => by
    have := mem_memCells _ _ _ he
    have := length_apldPlane s t o a
    omega
  rw [State.apldData, mapGet_append _ _ _ _ hplane, mapGet_memCells, if_pos (by omega), Nat.add_sub_cancel_left,
    State.apldScales]
  split
  · exact getD_map_range _ _ hi
  · rfl

theorem apldData_keys : ∀ e ∈ s.apldData t o a b, e.1 < if o.sc then 4352 else 4096 := by
  intro e he
  rcases List.mem_append.mp he with he | he
  · have := mem_memCells _ _ _ he
    have := length_apldPlane s t o a
    split <;> omega
  · have hmem := mem_memCells _ _ _ he
    rw [State.apldScales] at hmem
    split
    · rename_i hsc
      rw [if_pos hsc, List.length_map, List.length_range] at hmem
      omega
    · rename_i hsc
      rw [if_neg hsc, List.length_nil] at hmem
      omega

end

section

variable {s : State} {t : TileId} {o : PlaneOp} {a b : Nat} (ha : ((s.tile t).xr o.rs1.toNat).toNat = a)
  (hb : ((s.tile t).xr o.rs2.toNat).toNat = b)
include ha hb

theorem apldTrap_of_legal (halign : a % 4096 = 0) (hin : a + 4096 ≤ (if o.src then sliceSize else sramSize))
    (hscale : o.sc = true → b % 256 = 0 ∧ b + 256 ≤ sramSize) : (s.tile t).apldTrap o = none := by
  have hinside : ¬(if o.src = true then 4096 + a > sliceSize else leavesSram a 4096 = true) := by
    cases hsrc : o.src with
    | true =>
      rw [hsrc, if_pos rfl] at hin
      simpa [Nat.add_comm] using hin
    | false =>
      rw [hsrc, if_neg Bool.false_ne_true] at hin
      simpa [leavesSram] using hin
  have hread : (if o.sc then readTrap b 256 256 else none) = none := by
    split
    · rename_i hsc
      exact readTrap_of_legal (hscale hsc).1 (hscale hsc).2
    · rfl
  simp only [Tile.apldTrap, ha, hb, halign, ne_eq, not_true_eq_false, if_false, if_neg hinside, hread]

theorem apldIssue_of_clean (hplane : o.src = false → Clean s (s.sramAt t a) 4096)
    (hscale : o.sc = true → Clean s (s.sramAt t b) 256) : s.apldIssue t (s.tile t) o =
      s.modTile t (fun w => { w with nextId := w.nextId + 1, loads := w.loads ++ [{ s.apldLoad t o a b with id := w.nextId }] }) := by
  have hfirst : (if o.src then (s, []) else s.tileLoad t a 4096) = (s, s.apldPlane t o a) := by
    rw [State.apldPlane]
    cases hsrc : o.src with
    | true => rfl
    | false => exact tileLoad_of_clean (hplane hsrc)
  have hsecond : (if o.sc then s.tileLoad t b 256 else (s, [])) = (s, s.apldScales t o b) := by
    rw [State.apldScales]
    cases hsc : o.sc with
    | false => rfl
    | true => exact tileLoad_of_clean (hscale hsc)
  simp only [State.apldIssue, ha, hb, hfirst, hsecond]
  rfl

end

end Sys2Proof.Machine
end

section
/-! The obligation on plane loads and the activity ramp (03 R64, R82 to R84, 04 R113). -/

namespace Sys2Proof.Machine

open Sys2Proof.Say

/-- `APLD` with legal operands and clean sources starts its load; one from the slice needs slots of both bank groups. -/
theorem apld_gives {s : State} {t : TileId} {o : PlaneOp} {a b : Nat} (hissues : s.issues t = true)
    (ha : ((s.tile t).xr o.rs1.toNat).toNat = a) (hb : ((s.tile t).xr o.rs2.toNat).toNat = b) (halign : a % 4096 = 0)
    (hin : a + 4096 ≤ (if o.src then sliceSize else sramSize)) (hplane : o.src = false → Clean s (s.sramAt t a) 4096)
    (hslice : o.src = true → s.holdsSlice t = true)
    (hscale : o.sc = true → b % 256 = 0 ∧ b + 256 ≤ sramSize ∧ Clean s (s.sramAt t b) 256) :
    exec (.apld t o) s = .next (s.modTile t (fun w =>
      { w with nextId := w.nextId + 1, loads := w.loads ++ [{ s.apldLoad t o a b with id := w.nextId }] })) := by
  have htrap : (s.tile t).apldTrap o = none :=
    apldTrap_of_legal ha hb halign hin fun hsc => ⟨(hscale hsc).1, (hscale hsc).2.1⟩
  have hslots : (o.src && !s.holdsSlice t) = false := by
    cases hsrc : o.src with
    | false => rfl
    | true => rw [hslice hsrc]; rfl
  have hstart : s.apldStart t (s.tile t) o = s.apldIssue t (s.tile t) o := by
    simp only [State.apldStart, hslots, Bool.false_eq_true, if_false]
  have hrun : s.runOp t (.apld o) = s.apldStart t (s.tile t) o := runOp_of_ready hissues htrap nofun rfl
  have hnext : exec (.apld t o) s = .next (s.runOp t (.apld o)) := rfl
  rw [hnext, hrun, hstart, apldIssue_of_clean ha hb hplane fun hsc => (hscale hsc).2.2]

/-! ## The load taken -/

section

variable {s : State} {t p : Nat} {l : PlaneLoad}
  (hfind : (s.tile t).loads.find? (fun m => m.plane == p && m.todo.isEmpty) = some l)
include hfind

theorem loadDone_of_find : s.loadDone t p =
    s.modTile t (fun u => { u.takeLoad l with loads := u.loads.filter (fun m => m.id != l.id) }) := by
  rw [State.loadDone, hfind]

theorem planeByte_loadDone (hkeys : ∀ e ∈ l.data, e.1 < if l.sc then 4352 else 4096) (q : Nat) {i : Nat} (hi : i < 4352) :
    ((s.loadDone t p).tile t).planeByte q i =
      if q = p ∧ i < (if l.sc then 4352 else 4096) then mapGet 0 l.data i else (s.tile t).planeByte q i := by
  have hplane := List.find?_some hfind
  simp only [Bool.and_eq_true, beq_iff_eq] at hplane
  rw [loadDone_of_find hfind, s.tile_modTile_self, ← hplane.1]
  exact planeByte_takeLoad (s.tile t) hkeys hi

end

/-! ## What each command of the ramp leaves -/

section

variable {s : State} {t : Nat}

theorem rampIs_warm_of_off (h : s.arrState t = rampOff) : RampIs t s (s.warm t) rampUp 1 (s.begun t (s.tile t)) :=
  warm_of_off h ▸ rampIs_beginUp

theorem rampIs_warm_of_on (h : s.arrState t = rampOn) :
    RampIs t s (s.warm t) rampOn (s.arrGroups t) { s.tile t with idle := 0 } :=
  warm_of_on h ▸ h ▸ rampIs_modTile _

theorem rampIs_warm_of_down (h : s.arrState t = rampDown) :
    RampIs t s (s.warm t) rampUp (min 8 (s.arrGroups t + 1)) { s.tile t with switched := 1 } :=
  warm_of_down h ▸ rampIs_reverseUp

theorem rampIs_coolDown_of_up (h : s.arrState t = rampUp) :
    RampIs t s (s.coolDown t) rampDown ((s.arrGroups t - 1) % 16) { s.tile t with switched := 1 } :=
  coolDown_of_up h ▸ rampIs_reverseDown

theorem rampIs_coolDown_of_idle (h : s.arrState t = rampOn) (hf : (s.tile t).flight = []) :
    RampIs t s (s.coolDown t) rampDown 7 (s.begun t { s.tile t with cool := false }) := by
  rw [coolDown_of_on h, if_pos (by rw [hf]; rfl)]
  exact rampIs_beginDown

theorem rampIs_coolDown_of_busy (h : s.arrState t = rampOn) (hf : (s.tile t).flight ≠ []) :
    RampIs t s (s.coolDown t) rampOn (s.arrGroups t) { s.tile t with cool := true } := by
  rw [coolDown_of_on h, if_neg (by simpa using hf)]
  exact h ▸ rampIs_modTile _

theorem rampIs_rampStep_up (h : s.arrState t = rampUp) (hg : s.arrGroups t < 8) :
    RampIs t s (s.rampStep t) rampUp (s.arrGroups t + 1) { s.tile t with switched := (s.tile t).switched + 1 } := by
  rw [rampStep_of_up h, if_pos hg]
  exact (rampIs_setArr (by decide) _ _).congr_tile (Nat.mod_eq_of_lt (by omega)) rfl

theorem rampIs_rampStep_on (h : s.arrState t = rampUp) (hg : 8 ≤ s.arrGroups t) :
    RampIs t s (s.rampStep t) rampOn 8 { s.tile t with idle := 0, switched := 0 } := by
  rw [rampStep_of_up h, if_neg (Nat.not_lt.mpr hg)]
  exact rampIs_setArr (by decide) 8 _

theorem rampIs_rampStep_down (h : s.arrState t = rampDown) (hg : 0 < s.arrGroups t) :
    RampIs t s (s.rampStep t) rampDown ((s.arrGroups t - 1) % 16)
      { s.tile t with switched := (s.tile t).switched + 1 } := by
  rw [rampStep_of_down h, if_pos hg]
  exact rampIs_setArr (by decide) _ _

theorem rampIs_rampStep_off (h : s.arrState t = rampDown) (hg : s.arrGroups t = 0) :
    RampIs t s (s.rampStep t) rampOff 0 { s.tile t with switched := 0 } := by
  rw [rampStep_of_down h, if_neg (Nat.not_lt.mpr hg.le)]
  exact rampIs_setArr (by decide) 0 _

theorem rampIs_arrayIdle (h : s.arrState t = rampOn) (hidle : s.get (pgTile t) TILE_ARR_CFG.IDLE ≠ 0)
    (hf : (s.tile t).flight = []) : RampIs t s (s.arrayIdle t) rampDown 7
      (s.begun t { s.tile t with idle := 8 * s.get (pgTile t) TILE_ARR_CFG.IDLE, cool := false }) := by
  rw [State.arrayIdle, if_pos ⟨h, hidle, by rw [hf]; rfl⟩]
  exact rampIs_modTile_beginDown _

end

/-- Settles O20: a load starts with the stored bytes of its sources (`apld_gives`) and replaces a range of its plane
(`planeByte_takeLoad`); each command of the ramp sets the ramp's fields and the tile once (`RampIs`). -/
theorem planesAreLoadedAndTheRampMoves : Obligations.PlanesAreLoadedAndTheRampMoves := by
  unfold Obligations.PlanesAreLoadedAndTheRampMoves
  refine ⟨⟨fun t o s hissues halign hin hplane hslice hscale => ?_, fun t p s l hfind hkeys => ?_⟩, fun t s => ?_⟩
  · exact ⟨_, apld_gives hissues rfl rfl halign hin hplane hslice hscale, onlyTile_modTile s t _,
      s.apldLoad t o _ _, s.tile_modTile_self t _, rfl, fun i hi => mapGet_apldData_plane s t o _ _ hi,
      fun i hi => mapGet_apldData_scales s t o _ _ hi, apldData_keys s t o _ _⟩
  · refine ⟨_, rfl, ?_, ?_, fun i hi => ?_, fun i hn hi => ?_, fun q i hq _ hi => ?_⟩
    · rw [loadDone_of_find hfind]
      exact onlyTile_modTile s t _
    · rw [loadDone_of_find hfind, s.tile_modTile_self]
      rfl
    · have hle : i < 4352 := by split at hi <;> omega
      rw [planeByte_loadDone hfind hkeys p hle, if_pos ⟨rfl, hi⟩]
    · rw [planeByte_loadDone hfind hkeys p hi, if_neg fun h => absurd h.2 (Nat.not_lt.mpr hn)]
    · rw [planeByte_loadDone hfind hkeys q hi, if_neg fun h => hq h.1]
  · exact ⟨fun hissues =>
      ⟨fun h => ⟨_, awarm_gives hissues, rampIs_warm_of_off h⟩, fun h => ⟨_, awarm_gives hissues, rampIs_warm_of_on h⟩,
        fun h => ⟨_, awarm_gives hissues, rampIs_warm_of_down h⟩, fun h => ⟨_, awarm_gives hissues, warm_of_up h⟩,
        fun h => ⟨_, acool_gives hissues, rampIs_coolDown_of_up h⟩,
        fun h hf => ⟨_, acool_gives hissues, rampIs_coolDown_of_idle h hf⟩,
        fun h hf => ⟨_, acool_gives hissues, rampIs_coolDown_of_busy h hf⟩,
        fun h => ⟨_, acool_gives hissues, coolDown_of_off_or_down h⟩⟩,
      fun h hg => ⟨_, rfl, rampIs_rampStep_up h hg⟩, fun h hg => ⟨_, rfl, rampIs_rampStep_on h hg⟩,
      fun h hg => ⟨_, rfl, rampIs_rampStep_down h hg⟩, fun h hg => ⟨_, rfl, rampIs_rampStep_off h hg⟩,
      fun h hidle hf => ⟨_, rfl, rampIs_arrayIdle h hidle hf⟩⟩

end Sys2Proof.Machine
end

section
/-! Traps taken outside a handler (04 R102, R103): what the trap leaves. -/

namespace Sys2Proof.Machine

open Sys2Proof.Say

@[simp] theorem Tile.csrGet_csrSet_self (u : Tile) (c : Nat) (v : Word) : (u.csrSet c v).csrGet c = v :=
  mapGet_mapSet_self ..

theorem Tile.csrGet_csrSet_ne (u : Tile) {c d : Nat} (v : Word) (h : d ≠ c) : (u.csrSet c v).csrGet d = u.csrGet d :=
  mapGet_mapSet_ne _ _ _ _ _ _ h

/-- The CSRs of a tile that has taken a trap. -/
def Tile.trapCsrs (u : Tile) (cause : Nat) (mtval : Word) : Tile :=
  (((u.csrSet csrMepc (BitVec.ofNat 32 u.pc)).csrSet csrMcause (BitVec.ofNat 32 cause)).csrSet csrMtval mtval).csrSet
    csrMstatus (trapStatus (u.csrGet csrMstatus))

/-- A tile that has taken a trap outside a handler (04 R102). -/
def Tile.trapped (u : Tile) (cause : Nat) (mtval : Word) : Tile :=
  { u with
    csr := (u.trapCsrs cause mtval).csr, pbm := u.bmode, intrap := true, bmode := false, pc := (u.csrGet csrMtvec).toNat / 4 * 4 }

theorem trap_of_outside {s : State} {n : Nat} (h : (s.tile n).intrap = false) (cause : Nat) (mtval : Word) :
    s.trap n cause mtval = (s.put (pgTile n) TILE_STAT.CAUSE cause).setTile n ((s.tile n).trapped cause mtval) := by
  simp only [State.trap, h, Bool.false_eq_true, if_false]
  generalize s.tile n = u
  rfl

/-- A trap outside a handler is taken. -/
theorem trapTaken_trap {s : State} {n : Nat} (h : (s.tile n).intrap = false) {cause : Nat} (hcause : cause < 256)
    (mtval : Word) : TrapTaken n cause mtval s (s.trap n cause mtval) := by
  rw [trap_of_outside h, TrapTaken, State.tile_setTile_self]
  have hget : ∀ c, ((s.tile n).trapped cause mtval).csrGet c = ((s.tile n).trapCsrs cause mtval).csrGet c := fun _ => rfl
  simp only [hget, Tile.trapCsrs]
  refine ⟨?_, ?_, ?_, ?_, ?_, fun c hepc hc hval hst => ?_, ?_, ?_, fun k hk => ?_, ?_⟩
  · rfl
  · simp (disch := decide) only [Tile.csrGet_csrSet_ne, Tile.csrGet_csrSet_self]
  · simp (disch := decide) only [Tile.csrGet_csrSet_ne, Tile.csrGet_csrSet_self]
  · simp (disch := decide) only [Tile.csrGet_csrSet_ne, Tile.csrGet_csrSet_self]
  · exact Tile.csrGet_csrSet_self ..
  · simp only [Tile.csrGet_csrSet_ne, hepc, hc, hval, hst, ne_eq, not_false_eq_true]
  · rw [State.get_setTile]
    exact s.get_put_of_lt _ _ _ hcause
  · rfl
  · rw [State.tile_setTile_ne _ _ _ _ hk, State.tile_put]
  · exact RegsBut.of_put s _ _ _

end Sys2Proof.Machine
end

section
/-! The obligation on the reserved forms of the vector slot (04 R100, R102, R103). -/

namespace Sys2Proof.Machine

open Sys2Proof.Say

/-- An operation that traps at issue takes its trap. -/
theorem runOp_of_trap {s : State} {t : Nat} {op : SlotOp} {cause : Nat} {mtval : Word} (hissues : s.issues t = true)
    (htrap : s.opTrap (s.tile t) op = some (cause, mtval)) : s.runOp t op = s.trap t cause mtval := by
  simp [State.runOp, hissues, htrap]

section

variable {u : Tile} {vop : Nat} {o : VecOp}

/-- The opcodes of the vector slot whose `SAT` must be 0 (04 R100). -/
def satReserved (vop : Nat) : Bool := vop != 0 && vecDefined vop && vop != 0x1C && vop != 0x1D

theorem vecTrap_of_sat (hcode : satReserved vop = true) (hsat : o.sat = true) :
    u.vecTrap vop o = some (causeIllegal, vecWord vop o) := by
  simp only [satReserved, Bool.and_eq_true, bne_iff_ne] at hcode
  obtain ⟨⟨⟨hnop, hdef⟩, hcvt⟩, hcvt'⟩ := hcode
  simp [Tile.vecTrap, hnop, hdef, hsat, hcvt, hcvt']

/-- The opcodes of the top-k operations, whose `MEN` must be 0 as well (04 R100). -/
def topkReserved (vop : Nat) : Bool := satReserved vop && decide (0x20 ≤ vop)

/-- A top-k operation with `MEN` 1 traps, whether or not its `SAT` is 0. -/
theorem vecTrap_of_men (hcode : topkReserved vop = true) (hmen : o.men = true) :
    u.vecTrap vop o = some (causeIllegal, vecWord vop o) := by
  obtain ⟨hcode, htopk⟩ := Bool.and_eq_true_iff.mp hcode
  cases hsat : o.sat with
  | true => exact vecTrap_of_sat hcode hsat
  | false =>
    simp only [satReserved, Bool.and_eq_true, bne_iff_ne] at hcode
    obtain ⟨⟨⟨hnop, hdef⟩, -⟩, -⟩ := hcode
    simp [Tile.vecTrap, hnop, hdef, hsat, of_decide_eq_true htopk, hmen]

theorem vecTrap_vcvt (hformat : vcvtFormat (o.vc.toNat % 16) = false) :
    u.vecTrap 0x1C o = some (causeIllegal, vecWord 0x1C o) := by
  simp [Tile.vecTrap, vecDefined, hformat]

theorem vecTrap_vqmx (hformat : fmtScaled (o.vc.toNat % 16) = false) :
    u.vecTrap 0x1E o = some (causeIllegal, vecWord 0x1E o) := by
  cases hsat : o.sat with
  | true => exact vecTrap_of_sat (by decide) hsat
  | false => simp [Tile.vecTrap, vecDefined, hsat, hformat]

theorem vecTrap_tkins (hcount : (u.xr o.vc.toNat).toNat = 0 ∨ 64 < (u.xr o.vc.toNat).toNat) :
    u.vecTrap 0x21 o = some (causeIllegal, vecWord 0x21 o) := by
  have hnot : ¬(1 ≤ (u.xr o.vc.toNat).toNat ∧ (u.xr o.vc.toNat).toNat ≤ 64) := by omega
  cases hsat : o.sat with
  | true => exact vecTrap_of_sat (by decide) hsat
  | false =>
    cases hmen : o.men with
    | true => exact vecTrap_of_men (by decide) hmen
    | false => simp only [Tile.vecTrap, vecDefined, hsat, hmen, if_neg hnot]; rfl

end

/-- A vector operation that traps as illegal gives the trap with its slot word. -/
theorem vecForm_gives_trap {t : TileId} {o : VecOp} {s : State} {c : Instr} {vop : Nat}
    (hexec : exec c s = .next (s.runOp t (.vec vop o))) (hissues : s.issues t = true) (hin : (s.tile t).intrap = false)
    (htrap : (s.tile t).vecTrap vop o = some (causeIllegal, vecWord vop o)) :
    Gives c s (TrapTaken t causeIllegal (vecWord vop o) s) :=
  ⟨_, hexec.trans (congrArg _ (runOp_of_trap hissues htrap)), trapTaken_trap hin (by decide) _⟩

/-- Settles O12: each reserved form is a case of `Tile.vecTrap`, and a trap outside a handler is `trapTaken_trap`. -/
theorem reservedVectorFormsTrap : Obligations.ReservedVectorFormsTrap := by
  unfold Obligations.ReservedVectorFormsTrap
  intro t o s hissues hin
  have hgives {c : Instr} {vop : Nat} (hexec : exec c s = .next (s.runOp t (.vec vop o))) :=
    vecForm_gives_trap hexec hissues hin
  refine ⟨fun hsat c w hmem => ?_, fun hmen c w hmem => ?_, fun hformat => hgives rfl (vecTrap_vcvt hformat),
    fun hformat => hgives rfl (vecTrap_vqmx hformat), fun hcount => hgives rfl (vecTrap_tkins hcount)⟩
  · have hform : exec c s = .next (s.runOp t (.vec w o)) ∧ satReserved w = true := by
      refine (?_ : ∀ e ∈ (_ : List (Instr × Nat)), exec e.1 s = .next (s.runOp t (.vec e.2 o)) ∧ satReserved e.2 = true)
        (c, w) hmem
      simp only [List.forall_mem_cons, List.not_mem_nil, false_imp_iff, implies_true, and_true]
      and_intros <;> rfl
    exact hgives hform.1 (vecTrap_of_sat hform.2 hsat)
  · have hform : exec c s = .next (s.runOp t (.vec w o)) ∧ topkReserved w = true := by
      refine (?_ : ∀ e ∈ (_ : List (Instr × Nat)), exec e.1 s = .next (s.runOp t (.vec e.2 o)) ∧
        topkReserved e.2 = true) (c, w) hmem
      simp only [List.forall_mem_cons, List.not_mem_nil, false_imp_iff, implies_true, and_true]
      and_intros <;> rfl
    exact hgives hform.1 (vecTrap_of_men hform.2 hmen)

end Sys2Proof.Machine
end

section
/-! The obligation on the end of transfers and on fences (04 R94, R97, R98, 07 R208). -/

namespace Sys2Proof.Machine

open Sys2Proof.Say

/-- A command that changes one tile. -/
theorem gives_modTile {c : Instr} {s r : State} {t : Nat} {f : Tile → Tile} (hexec : exec c s = .next r)
    (h : r = s.modTile t f) : Gives c s (fun s' => OnlyTile t s s' ∧ s'.tile t = f (s.tile t)) :=
  ⟨_, hexec.trans (congrArg _ h), onlyTile_modTile s t f, s.tile_modTile_self t f⟩

/-! ## Transfers that end -/

/-- A tile after its transfer `x` has left the list with a status (04 R98). -/
def Tile.retiredAs (u : Tile) (x : Xfer) (st : Nat) : Tile :=
  { u with
    xfers := u.xfers.filter (fun y => y.id != x.id), ue := u.ue || (x.ue && x.sent.isNone),
    fault := u.fault || (decide (st ≠ 0) && x.sent.isNone),
    xstatus := if u.fault = false ∧ st ≠ 0 ∧ x.sent.isNone = true then st else u.xstatus,
    outEnded := u.outEnded ++ (x.out.map (fun o => (o, st))).toList }

/-- Only a failure that the tile waits for is recorded, and only while `FAULT` is 0. -/
theorem retire_eq_retiredAs (u : Tile) (x : Xfer) (st : Nat) : u.retire x st = u.retiredAs x st := by
  have hok : stOk = 0 := rfl
  by_cases hst : st = 0
  · simp [Tile.retire, Tile.retiredAs, hok, hst]
  · cases hsent : x.sent with
    | some l => simp [Tile.retire, Tile.retiredAs, hsent]
    | none => cases hfault : u.fault <;> simp [Tile.retire, Tile.retiredAs, hok, hst, hsent, hfault]

section

variable {s : State} {t k : Nat} {x : Xfer} (hx : (s.tile t).nth k = some x)
include hx

theorem xferComplete_of_finished (hfinished : x.finished = true) :
    s.xferComplete t k = s.modTile t (fun u => u.retiredAs x x.status) := by
  simp only [State.xferComplete, hx, hfinished, if_true, retire_eq_retiredAs]

theorem xferLost_of_unfinished (hfinished : x.finished = false) (hheard : (x.sent.isNone || x.out.isSome) = true) :
    s.xferLost t k = s.modTile t (fun u => u.retiredAs x stLost) := by
  have hlost : (x.finished || (x.sent.isSome && x.out.isNone)) = false := by
    rw [hfinished]
    revert hheard
    cases x.sent <;> cases x.out <;> simp
  simp only [State.xferLost, hx, hlost, Bool.false_eq_true, if_false, retire_eq_retiredAs]

end

theorem finished_eq (x : Xfer) : x.finished = !(x.waits || x.inject != 0 || !x.todo.isEmpty) := by
  rw [Xfer.finished]
  cases x.todo.isEmpty <;> cases x.waits <;> cases h : x.inject == 0 <;> simp [bne, h]

/-! ## Fences -/

theorem endCtl_go (s r : State) (t : Nat) : s.endCtl t (.go r) = r.modTile t Tile.retired := rfl

theorem endCtl_wait (s : State) (t n : Nat) : s.endCtl t (.wait n) = s.modTile t (fun u => { u with fenceWait := some n }) :=
  rfl

theorem endCtl_trap (s : State) (t : Nat) {cause : Nat} (mtval : Word) (h : cause ≠ causeScratchParity) :
    s.endCtl t (.trap cause mtval) = s.trap t cause mtval := by
  simp only [State.endCtl, if_neg h]

section

variable {u : Tile} {n : Nat} (k : State)

theorem ctlFence_of_clear (hfew : u.live.length ≤ n) (hfault : u.fault = false) : u.ctlFence n k = .go k := by
  simp [Tile.ctlFence, Nat.not_lt.mpr hfew, hfault]

theorem ctlFence_of_failed (hfew : u.live.length ≤ n) (hfault : u.fault = true) :
    u.ctlFence n k = .trap causeTransferFault u.xstat := by
  simp [Tile.ctlFence, Nat.not_lt.mpr hfew, hfault]

theorem ctlFence_of_more (hmore : n < u.live.length) : u.ctlFence n k = .wait n := if_pos hmore

end

theorem fenceT_gives {s : State} {t : TileId} (hissues : s.issues t = true) (imm : BitVec 5) :
    exec (.fenceT t imm) s = .next (s.endCtl t ((s.tile t).ctlFence imm.toNat s)) :=
  congrArg Host.Outcome.next (if_pos hissues)

section

variable {s : State} {t n : Nat} (hwaits : (s.tile t).fenceWait = some n) (hfew : (s.tile t).live.length ≤ n)
include hwaits hfew

theorem fenceRelease_of_clear (hfault : (s.tile t).fault = false) :
    s.fenceRelease t = s.modTile t (fun u => { u with fenceWait := none }) := by
  simp [State.fenceRelease, hwaits, Nat.not_lt.mpr hfew, hfault]

theorem fenceRelease_of_failed (hfault : (s.tile t).fault = true) : s.fenceRelease t =
    (s.modTile t (fun u => { u with fenceWait := none })).trap t causeTransferFault (s.tile t).xstat := by
  simp [State.fenceRelease, hwaits, Nat.not_lt.mpr hfew, hfault]

end

/-- Settles O17: transfers leave the list by `Tile.retire`, and a fence is one of the three answers of `Tile.ctlFence`. -/
theorem transfersCompleteAndFencesWait : Obligations.TransfersCompleteAndFencesWait := by
  unfold Obligations.TransfersCompleteAndFencesWait
  refine ⟨fun t k s x hx => ⟨fun hleft => ?_, fun hleft hheard => ?_⟩,
    fun t imm s => ⟨fun hissues => ⟨fun hfew hfault => ?_, fun hmore => ?_, fun hfew hfault hin => ?_⟩,
      fun n hwaits => ⟨fun hfew hfault => ?_, fun hfew hfault hin => ?_⟩⟩⟩
  · exact gives_modTile rfl (xferComplete_of_finished hx (by rw [finished_eq, hleft]; rfl))
  · exact gives_modTile rfl (xferLost_of_unfinished hx (by rw [finished_eq, hleft]; rfl) hheard)
  · refine gives_modTile (f := Tile.retired) (fenceT_gives hissues imm) ?_
    rw [ctlFence_of_clear s hfew hfault, endCtl_go]
  · refine gives_modTile (f := fun u => { u with fenceWait := some imm.toNat }) (fenceT_gives hissues imm) ?_
    rw [ctlFence_of_more s hmore, endCtl_wait]
  · refine ⟨_, fenceT_gives hissues imm, ?_⟩
    rw [ctlFence_of_failed s hfew hfault, endCtl_trap s t _ (by decide)]
    exact trapTaken_trap hin (by decide) _
  · exact gives_modTile rfl (fenceRelease_of_clear hwaits hfew hfault)
  · refine ⟨_, congrArg Host.Outcome.next (fenceRelease_of_failed hwaits hfew hfault), _, onlyTile_modTile s t _,
      s.tile_modTile_self t _, trapTaken_trap ?_ (by decide) _⟩
    rw [State.tile_modTile_self]
    exact hin

end Sys2Proof.Machine
end

section
/-! Errors that a reader reports on a TILE page, and loads that deliver zeros (13 R370 to R374): what they leave. -/

namespace Sys2Proof.Say

open Sys2Proof.Machine

theorem RegsBut.get_of_apart {l : Fields} {s t : State} (h : RegsBut l s t) (p : PageRef) {f : Field}
    (hf : ∀ e ∈ l, e.2.apart f = true) : t.get p f = s.get p f :=
  h p f fun e he => fieldKey_ne_of_apart _ _ (hf e he)

end Sys2Proof.Say

namespace Sys2Proof.Machine

open Sys2Proof.Say

/-! ## Errors on a page -/

/-- A state that differs in the log and in the fields by which a page and the log show errors. -/
def ErrOnly (p : PageRef) (s r : State) : Prop := r = { s with regs := r.regs, log := r.log } ∧ RegsBut (errFields p) s r

theorem ErrOnly.refl (p : PageRef) (s : State) : ErrOnly p s s := ⟨rfl, .of_regs rfl⟩

theorem ErrOnly.trans {p : PageRef} {s r q : State} (h : ErrOnly p s r) (h' : ErrOnly p r q) : ErrOnly p s q :=
  ⟨by rw [h'.1, h.1], h.2.trans h'.2⟩

theorem errOnly_report (s : State) (p : PageRef) (k : ErrKind) (code syn addr src : Nat) :
    ErrOnly p s (s.report p k code syn addr src) := by
  obtain ⟨hframe, hbut⟩ := report_logOnly s p k code syn addr src
  obtain ⟨hframe', hbut'⟩ := countError_onlyRegs s p k code syn
  exact ⟨by rw [hframe, hframe'], hbut'.trans (hbut.mono (by simp [logFields, errFields]))⟩

/-- A field that lies apart from the error fields of one page lies apart from those of any. -/
theorem errFields_apart {f : Field} (h : ∀ e ∈ errFields pgMgmt, e.2.apart f = true) (p : PageRef) :
    ∀ e ∈ errFields p, e.2.apart f = true := by
  simpa only [errFields, List.forall_mem_cons] using h

theorem ErrOnly.get {p : PageRef} {s r : State} (h : ErrOnly p s r) (q : PageRef) {f : Field}
    (hf : ∀ e ∈ errFields pgMgmt, e.2.apart f = true) : r.get q f = s.get q f :=
  h.2.get_of_apart q (errFields_apart hf p)

theorem ErrOnly.mem {p : PageRef} {s r : State} (h : ErrOnly p s r) : r.mem = s.mem := by rw [h.1]

theorem sector_congr {s r : State} (h : r.mem = s.mem) (x : Nat) : r.sector x = s.sector x := by
  rw [State.sector, State.codeWordAt, h, State.sector, State.codeWordAt]

theorem errOnly_reportSector (s : State) (t : TileId) (st : SectorState) (a src : Nat) :
    ErrOnly (pgTile t) s (s.reportSector (pgTile t) st a src) := by
  have hpage := pageAt_pgTile t
  cases st with
  | good | poisoned => exact .refl _ s
  | corrected _ _ | uncorrectable =>
    simp only [State.reportSector, hpage, errAddrFields]
    exact errOnly_report ..

theorem errOnly_reportAll (s : State) (t : TileId) (src : Nat) (l : List Nat) :
    ErrOnly (pgTile t) s (s.reportAll (fun _ => pgTile t) src l) := by
  have hfold : ∀ (m : List Nat) (r : State), ErrOnly (pgTile t) s r →
      ErrOnly (pgTile t) s (m.foldl (fun r a => r.reportSector (pgTile t) (r.sector a).1 a src) r) := by
    intro m
    induction m with
    | nil => exact fun _ h => h
    | cons a m ih => exact fun r h => ih _ (h.trans (errOnly_reportSector r t _ a src))
  exact hfold _ s (.refl _ s)

/-! ## Loads that deliver zeros -/

/-- A counter of 32 bits that has counted `n` times. -/
def countedTo (g n : Nat) : Nat := if n = 0 then g else min (g + n) (2 ^ 32 - 1)

theorem countedTo_succ (g n : Nat) : countedTo g (n + 1) = min (countedTo g n + 1) (2 ^ 32 - 1) := by
  unfold countedTo
  split <;> split <;> omega

/-- The fields that a load with zeros may change. -/
def zeroLoadFields (p : PageRef) : Fields := errFields p ++ [(p, TILE_ZERO_CNT.COUNT), (p, TILE_NOROPE_CNT.COUNT)]

/-- What `n` tile data loads that deliver zeros under `TROPE` value `tr` leave (13 R371, R372). -/
structure ZeroLoads (t : Nat) (tr : Word) (n : Nat) (s r : State) : Prop where
  frame : r = { s with regs := r.regs, tiles := r.tiles, log := r.log }
  others : TilesBut t s r
  tile : r.tile t = { s.tile t with
    taintWait := if bit tr.toNat 31 = true then (s.tile t).taintWait ++ List.replicate n (tr.toNat % 4096)
      else (s.tile t).taintWait }
  zeros : r.get (pgTile t) TILE_ZERO_CNT.COUNT = countedTo (s.get (pgTile t) TILE_ZERO_CNT.COUNT) n
  norope : r.get (pgTile t) TILE_NOROPE_CNT.COUNT =
    if bit tr.toNat 31 = true then s.get (pgTile t) TILE_NOROPE_CNT.COUNT
    else countedTo (s.get (pgTile t) TILE_NOROPE_CNT.COUNT) n
  regs : RegsBut (zeroLoadFields (pgTile t)) s r

theorem ErrOnly.zeroLoads {t : Nat} {s r : State} (h : ErrOnly (pgTile t) s r) (tr : Word) : ZeroLoads t tr 0 s r where
  frame := by rw [h.1]
  others := fun k _ => by rw [h.1]; rfl
  tile := by rw [h.1]; cases bit tr.toNat 31 <;> simp <;> rfl
  zeros := h.get _ (by decide)
  norope := by rw [h.get _ (by decide)]; simp [countedTo]
  regs := h.2.mono (List.subset_append_left ..)

/-- The state in which a load that delivers zeros has been reported and counted. -/
def State.zeroCounted (r : State) (t : Nat) (tr : Word) : State :=
  (r.report (pgTile t) .u 0x05 (b2n (bit tr.toNat 31) * 32768 + tr.toNat % 4096) 0 0).count (pgTile t)
    TILE_ZERO_CNT.COUNT 1

theorem zeroLoad_of_valid {r : State} {t : Nat} {tr : Word} (h : bit tr.toNat 31 = true) : r.zeroLoad t tr =
    (r.zeroCounted t tr).modTile t (fun u => { u with taintWait := u.taintWait ++ [tr.toNat % 4096] }) := if_pos h

theorem zeroLoad_of_invalid {r : State} {t : Nat} {tr : Word} (h : bit tr.toNat 31 = false) :
    r.zeroLoad t tr = (r.zeroCounted t tr).count (pgTile t) TILE_NOROPE_CNT.COUNT 1 :=
  if_neg (by rw [h]; exact Bool.false_ne_true)

section

variable (r : State) (t : Nat) (tr : Word)

theorem zeroCounted_frame :
    r.zeroCounted t tr = { r with regs := (r.zeroCounted t tr).regs, log := (r.zeroCounted t tr).log } := by
  obtain ⟨hframe, -⟩ := errOnly_report r (pgTile t) .u 0x05 (b2n (bit tr.toNat 31) * 32768 + tr.toNat % 4096) 0 0
  rw [State.zeroCounted, State.count, State.put_frame, hframe]

theorem tile_zeroCounted (k : Nat) : (r.zeroCounted t tr).tile k = r.tile k := by rw [zeroCounted_frame]; rfl

theorem get_zeroCounted_self : (r.zeroCounted t tr).get (pgTile t) TILE_ZERO_CNT.COUNT =
    min (r.get (pgTile t) TILE_ZERO_CNT.COUNT + 1) (2 ^ 32 - 1) := by
  rw [State.zeroCounted, State.get_count_self, (errOnly_report ..).get _ (by decide)]
  rfl

theorem get_zeroCounted_norope :
    (r.zeroCounted t tr).get (pgTile t) TILE_NOROPE_CNT.COUNT = r.get (pgTile t) TILE_NOROPE_CNT.COUNT := by
  rw [State.zeroCounted, State.get_count_apart _ _ _ _ _ _ (by decide), (errOnly_report ..).get _ (by decide)]

theorem zeroCounted_regsBut : RegsBut (zeroLoadFields (pgTile t)) r (r.zeroCounted t tr) :=
  ((errOnly_report ..).2.mono (List.subset_append_left ..)).put (List.mem_append_right _ List.mem_cons_self) _

end

theorem ZeroLoads.step {t n : Nat} {tr : Word} {s r : State} (h : ZeroLoads t tr n s r) :
    ZeroLoads t tr (n + 1) s (r.zeroLoad t tr) := by
  obtain ⟨hframe, hothers, htile, hzeros, hnorope, hregs⟩ := h
  cases hvalid : bit tr.toNat 31 with
  | true =>
    rw [hvalid, if_pos rfl] at htile hnorope
    rw [zeroLoad_of_valid hvalid]
    refine ⟨?_, fun k hk => ?_, ?_, ?_, ?_, hregs.trans (zeroCounted_regsBut r t tr)⟩
    · rw [State.modTile_frame, zeroCounted_frame, hframe]
    · rw [State.tile_modTile_ne _ _ _ _ hk, tile_zeroCounted, hothers k hk]
    · rw [State.tile_modTile_self, tile_zeroCounted, htile, hvalid, if_pos rfl, List.replicate_succ', List.append_assoc]
    · rw [State.get_modTile, get_zeroCounted_self, hzeros, countedTo_succ]
    · rw [State.get_modTile, get_zeroCounted_norope, hnorope, hvalid, if_pos rfl]
  | false =>
    rw [hvalid, if_neg Bool.false_ne_true] at htile hnorope
    rw [zeroLoad_of_invalid hvalid]
    refine ⟨?_, fun k hk => ?_, ?_, ?_, ?_, (hregs.trans (zeroCounted_regsBut r t tr)).put (by simp [zeroLoadFields]) _⟩
    · rw [State.count, State.put_frame, zeroCounted_frame, hframe]
    · rw [State.count, State.tile_put, tile_zeroCounted, hothers k hk]
    · rw [State.count, State.tile_put, tile_zeroCounted, htile, hvalid, if_neg Bool.false_ne_true]
    · rw [State.get_count_apart _ _ _ _ _ _ (by decide), get_zeroCounted_self, hzeros, countedTo_succ]
    · rw [State.get_count_self, get_zeroCounted_norope, hnorope, hvalid, if_neg Bool.false_ne_true, countedTo_succ]
      rfl

theorem ZeroLoads.run {t n : Nat} {tr : Word} {s r : State} (h : ZeroLoads t tr n s r) (l : List Nat) :
    ZeroLoads t tr (n + l.length) s (l.foldl (fun r _ => r.zeroLoad t tr) r) := by
  induction l generalizing n r with
  | nil => exact h
  | cons a l ih => rw [List.length_cons, ← Nat.add_assoc, Nat.add_right_comm]; exact ih h.step

end Sys2Proof.Machine
end

section
/-! The obligation on vector loads and stores (04 R95, 13 R370 to R372). -/

namespace Sys2Proof.Machine

open Sys2Proof.Say

/-! ## Load/store operations at issue -/

theorem sramTrap_of_legal (st : Bool) {a n : Nat} (halign : a % 32 = 0) (hin : a + n ≤ sramSize) : sramTrap st a n = none := by
  simp [sramTrap, leavesSram, halign, hin]

/-- A load/store operation that traps nothing and is not held back takes effect. -/
theorem runOp_ls {s : State} {t lop : Nat} {o : LsOp} (hissues : s.issues t = true)
    (htrap : (s.tile t).lsTrap lop o = none) (hheld : (s.tile t).lsHeld lop = false) :
    s.runOp t (.ls lop o) = s.lsApply t (s.tile t) lop o :=
  runOp_of_ready hissues htrap nofun hheld

/-! ## A vector register loaded -/

/-- A tile with the 64 words `g` in vector register `r`. -/
def Tile.loadVec (u : Tile) (r : Nat) (g : Nat → Word) : Tile :=
  { u with v := (List.range 64).foldl (fun m l => mapSet 0 m (64 * r + l) (g l)) u.v }

theorem Tile.vec_loadVec (u : Tile) (r q l : Nat) (g : Nat → Word) (hl : l < 64) :
    (u.loadVec r g).vec q l = if q = r then g l else u.vec q l := by
  have hlanes := mapGet_foldl_lanes 0 (fun _ => true) g u.v (64 * r) 64 (64 * q + l)
  simp only [if_true, and_true] at hlanes
  rw [Tile.vec, Tile.loadVec, hlanes]
  split
  next h => rw [if_pos (by omega), show 64 * q + l - 64 * r = l by omega]
  next h => rw [if_neg (by omega), Tile.vec]

/-- The effect of `VLD` past its traps. -/
theorem lsApply_vld (s : State) (t : Nat) (u : Tile) (o : LsOp) : s.lsApply t u lopVLD o =
    (s.tileLoad t (u.sramAddr o.b o.imm) 256).1.modTile t (fun w => w.loadVec o.a.toNat
      (fun l => BitVec.ofNat 32 (field (s.tileLoad t (u.sramAddr o.b o.imm) 256).2 (4 * l) 4))) := rfl

/-- The bytes of the lanes of a vector register. -/
def Tile.vecBytes (u : Tile) (r : Nat) : List Byte := (u.vecAll r).flatMap (fun w => leBytes 4 w.toNat)

theorem length_vecBytes (u : Tile) (r : Nat) : (u.vecBytes r).length = 32 * 8 := by
  have hmap : (u.vecAll r).map (fun w => (leBytes 4 w.toNat).length) = List.replicate 64 4 := by
    refine List.eq_replicate_iff.mpr ⟨by simp [Tile.vecAll], fun b hb => ?_⟩
    obtain ⟨w, -, rfl⟩ := List.mem_map.mp hb
    exact length_leBytes 4 w.toNat
  rw [Tile.vecBytes, List.length_flatMap, hmap, List.sum_replicate]
  rfl

theorem field_vecBytes (u : Tile) (r : Nat) {l : Nat} (hl : l < 64) : field (u.vecBytes r) (4 * l) 4 = (u.vec r l).toNat := by
  have hlen : l < (u.vecAll r).length := by simpa [Tile.vecAll] using hl
  have hlane : (u.vecAll r)[l] = u.vec r l := by simp [Tile.vecAll]
  have hbytes : slice (u.vecBytes r) (4 * l) 4 = leBytes 4 (u.vec r l).toNat := by
    rw [leBytes_eq_map]
    refine List.map_congr_left fun j hj => ?_
    have hj := List.mem_range.mp hj
    rw [Tile.vecBytes, getD_flatMap_blocks _ _ _ (fun w => length_leBytes 4 w.toNat) hlen hj, hlane, leBytes_eq_map,
      getD_map_range _ _ hj]
  rw [field, hbytes, leNat_leBytes]
  exact Nat.mod_eq_of_lt (u.vec r l).isLt

theorem lsApply_vst (s : State) (t : Nat) (u : Tile) (o : LsOp) : s.lsApply t u lopVST o =
    s.putSectors (s.sramAt t (u.sramAddr o.b o.imm)) (u.vecBytes o.a.toNat) 8 :=
  putBytes_eq s _ (length_vecBytes u o.a.toNat)

section

variable {s : State} {t : TileId} {o : LsOp} (hissues : s.issues t = true)
  (halign : (s.tile t).sramAddr o.b o.imm % 32 = 0) (hin : (s.tile t).sramAddr o.b o.imm + 256 ≤ sramSize)
include hissues halign hin

theorem vld_gives : exec (.vld t o) s = .next (s.lsApply t (s.tile t) lopVLD o) :=
  congrArg Host.Outcome.next (runOp_ls hissues (sramTrap_of_legal false halign hin) rfl)

theorem vst_gives : exec (.vst t o) s =
    .next (s.putSectors (s.sramAt t ((s.tile t).sramAddr o.b o.imm)) ((s.tile t).vecBytes o.a.toNat) 8) := by
  rw [← lsApply_vst]
  exact congrArg Host.Outcome.next (runOp_ls hissues (sramTrap_of_legal true halign hin) rfl)

end

/-! ## Damaged sectors -/

theorem length_sector_data (s : State) (x : Nat) : (s.sector x).2.length = 32 := by
  have hword : (s.codeWordAt x).length = 36 := by simp [codeWordAt_eq]
  unfold State.sector decodeSector
  dsimp only
  split
  · simp [hword]
  · split
    · simp [hword]
    · split <;> simp [hword]

/-- What a reader delivers of a sector: its data, or zeros where it is damaged. -/
def State.delivered (s : State) (x : Nat) : List Byte :=
  if (s.sector x).1.damaged then List.replicate 32 0 else (s.sector x).2

theorem length_delivered (s : State) (x : Nat) : (s.delivered x).length = 32 := by
  unfold State.delivered
  split
  · simp
  · exact length_sector_data s x

theorem sector_of_sectorKey (s : State) {x y : Nat} (h : x / 32 = y / 32) : s.sector x = s.sector y := by
  rw [State.sector, State.codeWordAt, sectorKey, h, State.sector, State.codeWordAt, sectorKey]

theorem field_delivered (s : State) (x i : Nat) : BitVec.ofNat 32 (field (s.delivered x) i 4) =
    if (s.sector x).1.damaged then 0 else BitVec.ofNat 32 (field (s.sector x).2 i 4) := by
  unfold State.delivered
  split
  · have hzero : slice (List.replicate 32 (0 : Byte)) i 4 = List.replicate 4 0 := by
      refine List.eq_replicate_iff.mpr ⟨by simp, fun b hb => ?_⟩
      obtain ⟨j, -, rfl⟩ := List.mem_map.mp hb
      rw [List.getD_eq_getElem?_getD, List.getElem?_replicate]
      split <;> rfl
    rw [field, hzero]
    rfl
  · rfl

/-- The word that an aligned load of 256 bytes delivers at byte `4 l`. -/
theorem field_slice_delivered (s : State) {a l : Nat} (ha : a % 32 = 0) (hl : l < 64) :
    field (slice ((sectorsOf a 256).flatMap s.delivered) (a % 32) 256) (4 * l) 4 =
      field (s.delivered (a + 4 * l)) (4 * l % 32) 4 := by
  have hlen : 4 * l / 32 < (sectorsOf a 256).length := by
    rw [sectorsOf, if_neg (by decide), List.length_map, List.length_range]; omega
  have hget : (sectorsOf a 256)[4 * l / 32] = 32 * (a / 32 + 4 * l / 32) := by simp [sectorsOf]
  have hsame : s.delivered (32 * (a / 32 + 4 * l / 32)) = s.delivered (a + 4 * l) := by
    rw [State.delivered, State.delivered, sector_of_sectorKey s (show 32 * (a / 32 + 4 * l / 32) / 32 = (a + 4 * l) / 32 by omega)]
  refine congrArg leNat (List.map_congr_left fun j hj => ?_)
  have hj := List.mem_range.mp hj
  rw [getD_slice _ _ (by omega), ha, Nat.zero_add, show 4 * l + j = 32 * (4 * l / 32) + (4 * l % 32 + j) by omega,
    getD_flatMap_blocks _ _ _ (length_delivered s) hlen (by omega), hget, hsame]

/-- A tile data load outside a trap handler: what it delivers, and what its errors and its zeros leave. -/
theorem tileLoad_outside {s : State} {t : TileId} (hin : (s.tile t).intrap = false) (o n : Nat) :
    (s.tileLoad t o n).2 = slice ((sectorsOf (s.sramAt t o) n).flatMap s.delivered) (s.sramAt t o % 32) n ∧
    ZeroLoads t (s.tile t).trope ((sectorsOf (s.sramAt t o) n).countP (fun x => (s.sector x).1.damaged)) s
      (s.tileLoad t o n).1 := by
  have herr := errOnly_reportAll s t 0 (sectorsOf (s.sramAt t o) n)
  refine ⟨?_, ?_⟩
  · simp only [State.tileLoad, State.readSectors, List.flatMap_map]
    rfl
  · have hrun := (herr.zeroLoads (s.tile t).trope).run
      ((sectorsOf (s.sramAt t o) n).filter (fun x => ((s.reportAll (fun _ => pgTile t) 0 (sectorsOf (s.sramAt t o) n)).sector x).1.damaged))
    simp only [sector_congr herr.mem, ← List.countP_eq_length_filter, Nat.zero_add] at hrun
    simp only [State.tileLoad, State.readSectors, State.zeroLoads, hin, Bool.and_false, Bool.false_eq_true, if_false,
      sector_congr herr.mem]
    exact hrun

theorem countP_sectorsOf (p : Nat → Bool) {a : Nat} (ha : a % 32 = 0) :
    (sectorsOf a 256).countP p = (List.range 8).countP (fun i => p (a + 32 * i)) := by
  have hsectors : sectorsOf a 256 = (List.range 8).map (fun i => a + 32 * i) := by
    rw [sectorsOf, if_neg (by decide), show (a + 256 - 1) / 32 + 1 - a / 32 = 8 by omega]
    exact List.map_congr_left fun i _ => by omega
  rw [hsectors, List.countP_map]
  rfl

/-- Settles O15: a load reads its sectors as `tileLoad_of_clean` and `tileLoad_outside` say, and a store writes eight sectors
in a row. -/
theorem vectorLoadsAndStores : Obligations.VectorLoadsAndStores := by
  unfold Obligations.VectorLoadsAndStores
  refine ⟨fun t o s hissues => ?_, fun t o s hissues hintrap => ?_⟩
  · intro u a base halign hin
    refine ⟨fun hclean => ⟨_, vld_gives hissues halign hin, ?_⟩, _, vst_gives hissues halign hin, ?_, ?_, fun l hl => ?_⟩
    · rw [lsApply_vld, tileLoad_of_clean hclean]
      refine ⟨onlyTile_modTile s t _, ?_⟩
      rw [State.tile_modTile_self]
      refine ⟨rfl, fun l hl => ?_, fun q l hq hl => ?_⟩
      · rw [Tile.vec_loadVec _ _ _ _ _ hl, if_pos rfl, field_map_range _ (by omega), dataNat]
        simp only [Nat.add_assoc]
        rfl
      · rw [Tile.vec_loadVec _ _ _ _ _ hl, if_neg hq]
    · exact onlyMem_putSectors s base _ 8
    · exact clean_putSectors s (sramAt_mod s t halign) _ 8
    · rw [dataNat_putSectors s (sramAt_mod s t halign) _ (by omega), field_vecBytes _ _ hl]
  · intro u a base valid n halign hin hpos
    obtain ⟨hbytes, hzeros⟩ := tileLoad_outside hintrap a 256
    rw [countP_sectorsOf _ (sramAt_mod s t halign)] at hzeros
    obtain ⟨hframe, hothers, htile, hzero, hnorope, hregs⟩ := hzeros
    have hcounted : ∀ g, countedTo g n = min (g + n) (2 ^ 32 - 1) := fun g => if_neg (by omega)
    refine ⟨_, vld_gives hissues halign hin, ?_⟩
    rw [lsApply_vld]
    beta_reduce
    rw [State.tile_modTile_self, htile]
    refine ⟨fun l hl => ?_, rfl, ?_, ?_, ?_, fun k hk => ?_, hregs⟩
    · rw [Tile.vec_loadVec _ _ _ _ _ hl, if_pos rfl, hbytes, field_slice_delivered s (sramAt_mod s t halign) hl,
        field_delivered]
    · rw [State.get_modTile, hzero, hcounted]
    · rw [State.get_modTile, hnorope, hcounted]
    · rw [State.modTile_frame, hframe]
    · rw [State.tile_modTile_ne _ _ _ _ hk, hothers k hk]

end Sys2Proof.Machine
end

section
/-! The obligation on transfers and row commands that start (04 R95 to R98, 05 R142, 07 R194). -/

namespace Sys2Proof.Machine

open Sys2Proof.Say

/-! ## Sectors without errors -/

section

variable {s : State}

/-- Good sectors are not reported. -/
theorem reportAll_of_good {l : List Nat} (h : ∀ x ∈ l, (s.sector x).1 = .good) (page : Nat → PageRef) (src : Nat) :
    s.reportAll page src l = s := by
  have hranks : l.filterMap (fun a => (s.sector a).1.errRank.map (fun r => (r, a))) = [] :=
    List.filterMap_eq_nil_iff.mpr fun x hx => by rw [h x hx]; rfl
  rw [State.reportAll, State.errOrder, hranks]
  rfl

variable {a n : Nat} (h : Clean s a n)
include h

theorem any_damaged_of_clean : (sectorsOf a n).any (fun x => (s.sector x).1.damaged) = false :=
  List.any_eq_false.mpr fun x hx => by rw [h x hx]; exact Bool.false_ne_true

/-- The data of clean sectors are their stored bytes. -/
theorem sector_bytes_of_clean : (sectorsOf a n).flatMap (fun x => (s.sector x).2) = (sectorsOf a n).flatMap s.sectorBytes :=
  List.flatMap_congr fun x hx => sector_data_of_good (h x hx)

/-- A read of clean sectors changes nothing and delivers the stored bytes. -/
theorem readSectors_of_clean (page : Nat → PageRef) (src : Nat) : s.readSectors page src a n =
    (s, (List.range n).map (fun j => s.dataByte (a + j)), false, false) := by
  have hdelivered : (sectorsOf a n).flatMap (fun x => if (s.sector x).1.damaged then List.replicate 32 0 else (s.sector x).2) =
      (sectorsOf a n).flatMap s.sectorBytes :=
    List.flatMap_congr fun x hx => by rw [h x hx]; exact sector_data_of_good (h x hx)
  have huncorrectable : (sectorsOf a n).any (fun x => (s.sector x).1 == .uncorrectable) = false :=
    List.any_eq_false.mpr fun x hx => by rw [h x hx]; exact Bool.false_ne_true
  have hdamaged := any_damaged_of_clean h
  simp only [State.readSectors, reportAll_of_good h, List.flatMap_map, hdelivered, slice_sectors, List.any_map,
    Function.comp_def, huncorrectable, hdamaged]

end

/-! ## Transfers at issue -/

section

variable {s : State} {t : Nat}

/-- Whether a transfer with `k` flits to send up the drop may: the status with which it starts. -/
theorem startXfer_status (s : State) (t k status : Nat) :
    (if status = stOk ∧ 0 < k ∧ (!s.ownsSlot t (s.injOf t)) = true then stNoSlot else status) =
      if status = 0 ∧ mayInject s t k = false then stNoSlot else status := by
  have hmay : mayInject s t k = false ↔ 0 < k ∧ (!s.ownsSlot t (s.injOf t)) = true := by
    simp [mayInject, Nat.pos_iff_ne_zero]
  simp only [hmay]
  rfl

/-- A transfer whose target is not down starts, with the status of its target and its drop. -/
theorem started_startXfer {status : Nat} (hdown : status ≠ stDestDown) (kind : XferKind) (sram target n : Nat)
    (todo : List Nat) (waits : Bool) (inject body : Nat) :
    Started t (newXfer kind sram target n (if status = 0 ∧ mayInject s t inject = false then stNoSlot else status) todo
      waits inject body) s (s.startXfer t kind sram target n status todo waits inject body false) := by
  have hstarts : (if status = 0 ∧ mayInject s t inject = false then stNoSlot else status) ≠ stDestDown := by
    split
    · decide
    · exact hdown
  rw [State.startXfer]
  simp only [startXfer_status, if_pos hstarts]
  exact ⟨onlyTile_modTile s t _, s.tile_modTile_self t _⟩

theorem lsHeld_of_few {u : Tile} (lop : Nat) (hfew : u.live.length < 16) : u.lsHeld lop = false := by
  simp [Tile.lsHeld, hfew]

theorem sliceTrap_of_legal (st : Bool) {a n : Nat} (halign : a % 32 = 0) (hin : a + n ≤ sliceSize) :
    sliceTrap st a n = none := by
  simp [sliceTrap, halign, Nat.not_lt.mpr hin]

theorem pkgTrap_of_legal (st : Bool) (lop : Nat) {o : LsOp} {a : Nat} (heven : o.b.toNat % 2 = 0) (halign : a % 32 = 0) :
    pkgTrap st lop o a = none := by
  simp [pkgTrap, heven, halign]

/-- A load/store operation that is held back changes nothing (04 R97). -/
theorem runOp_of_held {lop : Nat} {o : LsOp} (hissues : s.issues t = true) (htrap : (s.tile t).lsTrap lop o = none)
    (hheld : (s.tile t).lsHeld lop = true) : s.runOp t (.ls lop o) = s := by
  simp [State.runOp, hissues, State.opTrap, htrap, SlotOp.lanes, Tile.opHeld, hheld]

end

/-- Neither side of a transfer traps. -/
theorem firstTrap_none {a b : Option (Nat × Word)} (ha : a = none) (hb : b = none) : firstTrap a b = none := by
  rw [ha, hb]
  rfl

/-- A load/store operation with a place for its transfer takes effect. -/
theorem transfer_gives {s : State} {t : TileId} {o : LsOp} {c : Instr} {lop : Nat} {r : State} {P : State → Prop}
    (hissues : s.issues t = true) (hfew : (s.tile t).live.length < 16) (hexec : exec c s = .next (s.runOp t (.ls lop o)))
    (htrap : (s.tile t).lsTrap lop o = none) (happly : s.lsApply t (s.tile t) lop o = r) (hr : P r) : Gives c s P :=
  ⟨r, by rw [hexec, runOp_ls hissues htrap (lsHeld_of_few lop hfew), happly], hr⟩

/-- A transfer that needs no slot of the drop starts with the status of its target. -/
theorem started_startXfer_onDie {s : State} {t status : Nat} (hdown : status ≠ stDestDown) (kind : XferKind)
    (sram target n : Nat) (todo : List Nat) (waits : Bool) (body : Nat) :
    Started t (newXfer kind sram target n status todo waits 0 body) s
      (s.startXfer t kind sram target n status todo waits 0 body false) := by
  have hstarted := started_startXfer hdown kind sram target n todo waits 0 body (s := s) (t := t)
  rwa [if_neg (fun h => Bool.noConfusion h.2)] at hstarted

/-! ## Messages -/

/-- Where a message goes to a tile, its place there is legal (04 R96). -/
theorem messageTrap_of_legal {xb n : Nat} (h : xb / 2 ^ 21 < 0x600 → xb % 32 = 0 ∧ xb % 2 ^ 21 + n ≤ sramSize) :
    (if xb / 2 ^ 21 < 0x600 then sramTrap true (xb % 2 ^ 21) n else none) = none := by
  split
  next hlocal =>
    obtain ⟨halign, hin⟩ := h hlocal
    exact sramTrap_of_legal true (by omega) hin
  next => rfl

/-- A message to a tile of the same die needs no drop (07 R194). -/
theorem lsApply_nsnd (s : State) (t : Nat) (u : Tile) (o : LsOp) : s.lsApply t u lopNSND o =
    s.startXfer t .nsnd (u.sramAddr o.a o.imm) (u.xr o.b.toNat).toNat (o.n.toNat + 1)
      (s.nsndStatus t (u.xr o.b.toNat).toNat (o.n.toNat + 1)) [] true
      (if (u.xr o.b.toNat).toNat / 2 ^ 21 < 0x600 ∧ (u.xr o.b.toNat).toNat / 2 ^ 21 / 128 = t / 144 then 0
        else 1 + (o.n.toNat + 1)) 0 false := by
  have hsame : ((u.xr o.b.toNat).toNat / 2 ^ 21 < 0x600 ∧ (u.xr o.b.toNat).toNat / 2 ^ 21 / 128 = t / 144) ↔
      (decide ((u.xr o.b.toNat).toNat / 2 ^ 21 < 0x600) && (u.xr o.b.toNat).toNat / 2 ^ 21 / 128 == t / 144) = true := by
    simp
  simp only [hsame]
  rfl

/-! ## Row commands -/

theorem rowcIssue_of_clean {s : State} {t sram target : Nat} (hclean : Clean s (s.sramAt t sram) 32)
    (hstatus : s.rowStatus ((List.range 32).map (fun j => s.dataByte (s.sramAt t sram + j))) (some target) = stOk)
    (howned : (s.portOf target).any (fun p => s.ownsSlot t p) = true) : s.rowcIssue t sram target =
      s.startXfer t .rowc sram target 1 stOk [target] false (if offDie t target then 2 else 0)
        (leNat ((List.range 32).map (fun j => s.dataByte (s.sramAt t sram + j)))) false := by
  simp only [State.rowcIssue, readSectors_of_clean hclean, Bool.false_eq_true, if_false, hstatus, howned, Bool.not_true,
    and_false, ne_eq, not_true_eq_false, false_and]

/-- Settles O16: past its traps each operation is one `State.startXfer`, which `started_startXfer` describes; with sixteen
transfers outstanding it is held back. -/
theorem transfersAndRowCommandsStart : Obligations.TransfersAndRowCommandsStart := by
  unfold Obligations.TransfersAndRowCommandsStart
  refine ⟨fun t o s hissues => ?_, fun t o s hissues => ?_, fun t o s hissues hmany c l hmem htrap => ?_⟩
  · intro u n sram xb own pkg hfew hsram hin
    refine ⟨fun hxb hslice hdown => ⟨?_, ?_⟩, fun heven hpkg hdown => ⟨?_, ?_⟩, fun hlocal hdown => ?_⟩
    · exact transfer_gives hissues hfew rfl (firstTrap_none (sliceTrap_of_legal false hxb hslice)
        (sramTrap_of_legal true hsram hin)) rfl (started_startXfer_onDie hdown ..)
    · exact transfer_gives hissues hfew rfl (firstTrap_none (sramTrap_of_legal false hsram hin)
        (sliceTrap_of_legal true hxb hslice)) rfl (started_startXfer_onDie hdown ..)
    · exact transfer_gives hissues hfew rfl (firstTrap_none (pkgTrap_of_legal false lopXRD heven hpkg)
        (sramTrap_of_legal true hsram hin)) rfl (started_startXfer hdown ..)
    · exact transfer_gives hissues hfew rfl (firstTrap_none (pkgTrap_of_legal true lopXWR heven hpkg)
        (sramTrap_of_legal false hsram hin)) rfl (started_startXfer hdown ..)
    · exact transfer_gives hissues hfew rfl (firstTrap_none (sramTrap_of_legal false hsram hin)
        (messageTrap_of_legal hlocal)) (lsApply_nsnd s t u o) (started_startXfer hdown ..)
  · intro u sram pkg bytes i hfew hsram hin heven hpkg hclean hstatus howned hmay
    refine transfer_gives hissues hfew rfl (firstTrap_none (pkgTrap_of_legal true lopROWC heven hpkg)
      (sramTrap_of_legal false hsram hin)) (rowcIssue_of_clean hclean hstatus howned) ?_
    have hstarted := started_startXfer (s := s) (t := t) (show stOk ≠ stDestDown by decide) .rowc sram pkg 1 [pkg] false i
      (leNat bytes)
    rwa [if_neg (fun h => Bool.noConfusion (hmay.symm.trans h.2))] at hstarted
  · have hform : exec c s = .next (s.runOp t (.ls l o)) ∧ lopTransfer l = true := by
      refine (?_ : ∀ e ∈ (_ : List (Instr × Nat)), exec e.1 s = .next (s.runOp t (.ls e.2 o)) ∧ lopTransfer e.2 = true)
        (c, l) hmem
      simp only [List.forall_mem_cons, List.not_mem_nil, false_imp_iff, implies_true, and_true]
      and_intros <;> rfl
    obtain ⟨hexec, htransfer⟩ := hform
    rw [hexec, runOp_of_held hissues htrap (by simp [Tile.lsHeld, htransfer, hmany])]

end Sys2Proof.Machine
end

section
/-! The control core (04 R88 to R94, R101 to R103): what a fetch of clean sectors gives, and what each kind of control
instruction leaves of its tile. -/

namespace Sys2Proof.Machine

open Sys2Proof.Say

/-! ## Two changes of one tile -/

/-- Of two values set at a key the later one stays. -/
theorem mapSet_mapSet {α : Type} [DecidableEq α] (d : α) (m : List (Nat × α)) (k : Nat) (v w : α) :
    mapSet d (mapSet d m k v) k w = mapSet d m k w := by
  have hmid : ∀ p : Nat × α → Bool, p (k, v) = false → (if v = d then [] else [(k, v)]).filter p = [] := by
    intro p hp
    split <;> simp [hp]
  have hlow : ∀ e : Nat × α, (decide (k < e.1) && decide (e.1 < k)) = false := fun e => by simp; omega
  have hhigh : ∀ e : Nat × α, (decide (e.1 < k) && decide (k < e.1)) = false := fun e => by simp; omega
  simp [mapSet, List.filter_append, List.filter_filter, hmid, hlow, hhigh]

theorem State.modTile_modTile (s : State) (t : Nat) (f g : Tile → Tile) :
    (s.modTile t f).modTile t g = s.modTile t (fun u => g (f u)) := by
  rw [State.modTile, State.tile_modTile_self, State.modTile, State.modTile, State.setTile, State.setTile, mapSet_mapSet]
  rfl

/-! ## Registers -/

theorem Tile.xr_setX (u : Tile) (i : Nat) (v : Word) (r : Nat) :
    (u.setX i v).xr r = if r = 0 then 0 else if r = i then v else u.xr r := by
  by_cases hr : r = 0
  · simp [Tile.xr, hr]
  · by_cases hi : i = 0
    · simp [Tile.setX, hi, hr]
    · simp [Tile.xr, Tile.setX, hi, hr, mapGet_mapSet]

theorem Tile.setX_eq (u : Tile) (i : Nat) (v : Word) : u.setX i v = { u with x := (u.setX i v).x } := by
  unfold Tile.setX
  split <;> rfl

theorem Tile.setX_zero (u : Tile) (v : Word) : u.setX 0 v = u := rfl

/-- A tile whose core goes to `pc` in a mode, with x[rd] written, its instruction retired. -/
def Tile.goes (u : Tile) (rd : Nat) (v : Word) (pc : Nat) (bundle : Bool) : Tile :=
  { u with x := (u.setX rd v).x, pc := pc, bmode := bundle, minstret := u.minstret + 1 }

theorem xr_goes (u : Tile) (rd : Nat) (v : Word) (pc : Nat) (bundle : Bool) (r : Nat) :
    (u.goes rd v pc bundle).xr r = if r = 0 then 0 else if r = rd then v else u.xr r :=
  u.xr_setX rd v r

/-! ## Jumps and the next instruction -/

theorem retired_setX (u : Tile) (rd : Nat) (v : Word) (pc : Nat) (bundle : Bool) :
    Tile.retired { u.setX rd v with pc := pc, bmode := bundle } = u.goes rd v pc bundle := by
  rw [u.setX_eq]
  rfl

section

variable (s : State) (t : Nat)

/-- The end of an instruction that goes on at the next address, in the mode it ran in. -/
theorem endCtl_ctlNext (r : State) {pc : Nat} (hpc : pc < 2 ^ 32) (rd : Nat) (v : Word) :
    s.endCtl t (.go (r.ctlNext t pc rd v)) = r.modTile t (fun u => u.goes rd v pc u.bmode) := by
  rw [endCtl_go, State.ctlNext, State.modTile_modTile, Nat.mod_eq_of_lt hpc]
  refine congrArg (r.modTile t) (funext fun u => ?_)
  rw [← retired_setX, u.setX_eq]

/-- The end of a jump into bundle mode, to a multiple of 16 (04 R94). -/
theorem endCtl_ctlJump_bundle {target : Word} (h : target.toNat % 16 = 0) (rd : Nat) (link : Word) :
    s.endCtl t (s.ctlJump t target true rd link) = s.modTile t (fun u => u.goes rd link target.toNat true) := by
  simp only [State.ctlJump, if_true, h, bne_self_eq_false, Bool.and_false, Bool.false_eq_true, if_false, endCtl_go,
    State.modTile_modTile, retired_setX]

/-- The end of a jump into scalar mode. -/
theorem endCtl_ctlJump_scalar {bundle : Bool} (h : bundle = false) (target : Word) (rd : Nat) (link : Word) :
    s.endCtl t (s.ctlJump t target bundle rd link) =
      s.modTile t (fun u => u.goes rd link (target.toNat / 2 * 2) bundle) := by
  subst h
  simp only [State.ctlJump, Bool.false_and, Bool.false_eq_true, if_false, endCtl_go, State.modTile_modTile, retired_setX]

/-- A jump into bundle mode to an address that is not a multiple of 16 (04 R94). -/
theorem ctlJump_of_misaligned {target : Word} (h : target.toNat % 16 ≠ 0) (rd : Nat) (link : Word) :
    s.ctlJump t target true rd link = .trap causeInstrMisaligned (BitVec.ofNat 32 target.toNat) := by
  simp [State.ctlJump, h]

/-- `MRET` where `PBM` and `mepc` agree (04 R102). -/
theorem endCtl_ctlMret {u : Tile} (h : u.pbm = true → (u.csrGet csrMepc).toNat % 16 = 0) :
    s.endCtl t (s.ctlMret t u) = s.modTile t (fun w => { w with
      csr := (w.csrSet csrMstatus (mretStatus (u.csrGet csrMstatus))).csr, pc := (u.csrGet csrMepc).toNat, bmode := u.pbm,
      intrap := false, minstret := w.minstret + 1 }) := by
  have hlegal : (u.pbm && (u.csrGet csrMepc).toNat % 16 != 0) = false := by
    cases hpbm : u.pbm with
    | false => rfl
    | true => simp [h hpbm]
  simp only [State.ctlMret, hlegal, Bool.false_eq_true, if_false, endCtl_go, State.modTile_modTile]
  rfl

end

/-! ## The forms of the 32-bit instructions -/

section

variable (s : State) (t : Nat) (u : Tile) {w : Nat} (len word : Nat)

theorem ctl_opImm (h : w % 128 = 0x13) (hf3 : bits w 14 12 ∉ [1, 5]) : s.ctl t u w len word =
    .go (s.ctlNext t (u.pc + len) (bits w 11 7) (aluOp (bits w 14 12) false (u.xr (bits w 19 15)) (immI w))) := by
  obtain ⟨hsll, hsrl⟩ : bits w 14 12 ≠ 1 ∧ bits w 14 12 ≠ 5 := by simpa using hf3
  simp [State.ctl, h, f3Of, rdOf, rs1Of, hsll, hsrl, beq_eq_false_iff_ne.mpr hsrl]

theorem ctl_op (h : w % 128 = 0x33) (hf7 : bits w 31 25 = 0) : s.ctl t u w len word =
    .go (s.ctlNext t (u.pc + len) (bits w 11 7)
      (aluOp (bits w 14 12) false (u.xr (bits w 19 15)) (u.xr (bits w 24 20)))) := by
  simp [State.ctl, h, f3Of, f7Of, rdOf, rs1Of, rs2Of, hf7]

theorem ctl_mul (h : w % 128 = 0x33) (hf7 : bits w 31 25 = 1) : s.ctl t u w len word =
    .go (s.ctlNext t (u.pc + len) (bits w 11 7) (mulOp (bits w 14 12) (u.xr (bits w 19 15)) (u.xr (bits w 24 20)))) := by
  simp [State.ctl, h, f3Of, f7Of, rdOf, rs1Of, rs2Of, hf7]

theorem ctl_lui (h : w % 128 = 0x37) :
    s.ctl t u w len word = .go (s.ctlNext t (u.pc + len) (bits w 11 7) (BitVec.ofNat 32 (w / 4096 * 4096))) := by
  simp [State.ctl, h, rdOf, immU]

theorem ctl_branch (h : w % 128 = 0x63) {taken : Bool}
    (htaken : branchTaken (bits w 14 12) (u.xr (bits w 19 15)) (u.xr (bits w 24 20)) = some taken) :
    s.ctl t u w len word = if taken then s.ctlJump t (BitVec.ofNat 32 u.pc + immB w) u.bmode 0 0
      else .go (s.ctlNext t (u.pc + len) 0 0) := by
  cases taken <;> simp [State.ctl, h, f3Of, rs1Of, rs2Of, htaken]

theorem ctl_loadWord (h : w % 128 = 0x03) (hf3 : bits w 14 12 = 2) : s.ctl t u w len word =
    s.ctlLoad t u (u.xr (bits w 19 15) + immI w).toNat 4
      (fun s v => s.ctlNext t (u.pc + len) (bits w 11 7) (BitVec.ofNat 32 v)) := by
  simp [State.ctl, h, f3Of, rdOf, rs1Of, hf3, accessWidth, extendLoad]

theorem ctl_storeWord (h : w % 128 = 0x23) (hf3 : bits w 14 12 = 2) : s.ctl t u w len word =
    s.ctlStore t (u.xr (bits w 19 15) + immS w).toNat 4 (u.xr (bits w 24 20)) (fun s => s.ctlNext t (u.pc + len) 0 0) := by
  simp [State.ctl, h, f3Of, rs1Of, rs2Of, hf3]

/-- A word loaded from clean SRAM. -/
theorem ctlLoad_of_clean {a : Nat} (halign : a % 4 = 0) (hin : a + 4 ≤ sramSize) (hclean : Clean s (s.sramAt t a) 4)
    (k : State → Nat → State) : s.ctlLoad t u a 4 k = .go (k s (dataNat s (s.sramAt t a) 4)) := by
  simp only [State.ctlLoad, halign, ne_eq, not_true_eq_false, if_false, if_pos hin, tileLoad_of_clean hclean, dataNat]

/-- A tile with a word stored in its scratch at offset `o` (04 R89). -/
def Tile.storeScratch (u : Tile) (o : Nat) (v : Word) : Tile :=
  { u with
    scratch := memWrite u.scratch o (leBytes 4 v.toNat),
    scratchBad := u.scratchBad.filter (fun i => i < o || o + 4 ≤ i) }

theorem ctlStore_scratch {a : Nat} (halign : a % 4 = 0) (hlow : 0x200000 ≤ a) (hhigh : a + 4 ≤ 0x202000) (v : Word)
    (k : State → State) : s.ctlStore t a 4 v k = .go (k (s.modTile t (fun u => u.storeScratch (a - 0x200000) v))) := by
  have hscratch : inScratch a 4 = true := by simp [inScratch, scratchBase, scratchSize, hlow, hhigh]
  simp only [State.ctlStore, halign, ne_eq, not_true_eq_false, if_false, hscratch, if_true]
  rfl

theorem memByte_storeScratch (o i : Nat) (v : Word) : memByte (u.storeScratch o v).scratch i =
    if o ≤ i ∧ i < o + 4 then BitVec.ofNat 8 (v.toNat / 256 ^ (i - o)) else memByte u.scratch i := by
  rw [Tile.storeScratch, memByte_memWrite, length_leBytes]
  split
  · rw [leBytes_eq_map, getD_map_range _ _ (by omega)]
  · rfl

end

/-! ## Fetch -/

theorem sectorsOf_subset (a : Nat) {n m : Nat} (h : n ≤ m) : sectorsOf a n ⊆ sectorsOf a m := by
  intro x hx
  unfold sectorsOf at *
  split at hx
  · cases hx
  · rw [if_neg (by omega)]
    obtain ⟨i, hi, rfl⟩ := List.mem_map.mp hx
    have hi := List.mem_range.mp hi
    exact List.mem_map.mpr ⟨i, List.mem_range.mpr (by omega), rfl⟩

theorem clean_mono {s : State} {a n m : Nat} (h : Clean s a m) (hle : n ≤ m) : Clean s a n :=
  fun x hx => h x (sectorsOf_subset a hle hx)

/-- A fetch of clean sectors within SRAM gives the stored bytes and changes nothing. -/
theorem fetch_of_clean {s : State} {t a n : Nat} (hin : a + n ≤ sramSize) (h : Clean s (s.sramAt t a) n) :
    s.fetch t a n = (s, some ((List.range n).map (fun j => s.dataByte (s.sramAt t a + j))), 0) := by
  simp only [State.fetch, if_neg (Nat.not_lt.mpr hin), reportAll_of_good h, any_damaged_of_clean h, Bool.false_eq_true,
    if_false, sector_bytes_of_clean h, slice_sectors]

end Sys2Proof.Machine
end

section
/-! The obligation on mode switches and scalar instructions (04 R88 to R91, R94, R102). -/

namespace Sys2Proof.Machine

open Sys2Proof.Say

/-! ## Mode switches -/

section

variable {s : State} {t : TileId} (hissues : s.issues t = true)
include hissues

theorem bndl_gives (rd rs1 : BitVec 5) (imm : BitVec 12) : exec (.bndl t rd rs1 imm) s = .next (s.endCtl t
    (s.ctlJump t ((s.tile t).xr rs1.toNat + imm.signExtend 32) true rd.toNat
      (BitVec.ofNat 32 ((s.tile t).pc + if (s.tile t).bmode then 16 else 4)))) :=
  congrArg Host.Outcome.next (if_pos hissues)

theorem sclr_gives (rd rs1 : BitVec 5) (imm : BitVec 12) : exec (.sclr t rd rs1 imm) s = .next (s.endCtl t
    (s.ctlJump t ((s.tile t).xr rs1.toNat + imm.signExtend 32) false rd.toNat (BitVec.ofNat 32 ((s.tile t).pc + 16)))) :=
  congrArg Host.Outcome.next (if_pos hissues)

theorem mret_gives : exec (.mret t) s = .next (s.endCtl t (s.ctlMret t (s.tile t))) :=
  congrArg Host.Outcome.next (if_pos hissues)

end

/-! ## One instruction in scalar mode -/

/-- The lowest byte decides whether an instruction has 32 bits. -/
theorem leNat_mod_four (f : Nat → Byte) (n : Nat) : leNat ((List.range (n + 1)).map f) % 4 = (f 0).toNat % 4 := by
  rw [List.range_succ_eq_map, List.map_cons, leNat]
  omega

theorem scalarStep_of_clean {s : State} {t : Nat} (hin : (s.tile t).pc + 4 ≤ sramSize)
    (hclean : Clean s (s.sramAt t (s.tile t).pc) 4) (hlong : dataNat s (s.sramAt t (s.tile t).pc) 4 % 4 = 3) :
    s.scalarStep t = s.endCtl t (s.ctl t (s.tile t) (dataNat s (s.sramAt t (s.tile t).pc) 4) 4
      (dataNat s (s.sramAt t (s.tile t).pc) 4)) := by
  have hhalf : leNat ((List.range 2).map (fun j => s.dataByte (s.sramAt t (s.tile t).pc + j))) % 4 = 3 := by
    rw [dataNat, leNat_mod_four] at hlong
    rwa [leNat_mod_four]
  simp only [State.scalarStep, fetch_of_clean (show (s.tile t).pc + 2 ≤ sramSize by omega) (clean_mono hclean (by decide)),
    fetch_of_clean hin hclean, hhalf, ne_eq, not_true_eq_false, if_false, dataNat]

theorem scalarInstruction_gives {s : State} {t : TileId} (hissues : s.issues t = true) (hmode : (s.tile t).bmode = false) :
    exec (.scalarInstruction t) s = .next (s.scalarStep t) :=
  congrArg Host.Outcome.next (if_pos (by rw [hissues, hmode]; rfl))

/-- Settles O21: a jump is `endCtl_ctlJump`, `MRET` is `endCtl_ctlMret`, and a scalar instruction fetched from clean sectors is
`State.ctl` of the word stored there, whose forms the `ctl_` lemmas give. -/
theorem modeSwitchesAndScalarInstructions : Obligations.ModeSwitchesAndScalarInstructions := by
  unfold Obligations.ModeSwitchesAndScalarInstructions
  refine ⟨fun t rd rs1 imm s hissues => ?_, fun t s w hissues hmode => ?_⟩
  · intro u target back linked
    have hlinked : ∀ (link pc : Nat) (b : Bool),
        linked (s.modTile t (fun u => u.goes rd.toNat (BitVec.ofNat 32 link) pc b)) link pc b := by
      intro link pc b
      refine ⟨onlyTile_modTile s t _, ?_, fun r _ => ?_⟩
      · rw [State.tile_modTile_self]; rfl
      · rw [State.tile_modTile_self, xr_goes]
    refine ⟨fun halign => ⟨_, bndl_gives hissues rd rs1 imm, ?_⟩, ⟨_, sclr_gives hissues rd rs1 imm, ?_⟩,
      fun hback => ?_, fun hmis hin => ⟨_, bndl_gives hissues rd rs1 imm, ?_⟩⟩
    · rw [endCtl_ctlJump_bundle s t halign]
      exact hlinked _ _ _
    · rw [endCtl_ctlJump_scalar s t rfl, Nat.mul_comm 2]
      exact hlinked _ _ _
    · refine ⟨_, mret_gives hissues, ?_⟩
      rw [endCtl_ctlMret s t hback]
      refine ⟨onlyTile_modTile s t _, ?_⟩
      rw [State.tile_modTile_self]
      exact ⟨rfl, Tile.csrGet_csrSet_self .., fun c hc => Tile.csrGet_csrSet_ne _ _ hc⟩
    · rw [ctlJump_of_misaligned s t hmis, endCtl_trap s t _ (by decide)]
      exact trapTaken_trap hin (by decide) _
  · intro u c a b runs hin hclean hw
    have hnext : u.pc + 4 < 2 ^ 32 := Nat.lt_of_le_of_lt hin (by decide)
    have hruns : ∀ (f : Tile → Tile) (pc rd : Nat) (v : Word), f u = u.goes rd v pc u.bmode → runs (s.modTile t f) pc rd v := by
      intro f pc rd v hf
      refine ⟨onlyTile_modTile s t _, ?_, fun r _ => ?_⟩
      · rw [State.tile_modTile_self, hf]; rfl
      · rw [State.tile_modTile_self, hf, xr_goes]
    have hgives : w % 4 = 3 → ∀ {P : State → Prop}, P (s.endCtl t (s.ctl t u w 4 w)) → Gives c s P := by
      intro hlong P hP
      refine ⟨_, scalarInstruction_gives hissues hmode, ?_⟩
      rw [scalarStep_of_clean hin hclean (by rw [hw]; exact hlong), hw]
      exact hP
    refine ⟨fun h hf3 => ?_, fun h hf7 => ?_, fun h hf7 => ?_, fun h => ?_, fun h taken htaken => ?_,
      fun h hf3 halign hsram hdata => ?_, fun h hf3 halign hlow hhigh => ?_⟩
    · refine hgives (by omega) ?_
      rw [ctl_opImm s t u 4 w h hf3, endCtl_ctlNext s t s hnext]
      exact hruns _ _ _ _ rfl
    · refine hgives (by omega) ?_
      rw [ctl_op s t u 4 w h hf7, endCtl_ctlNext s t s hnext]
      exact hruns _ _ _ _ rfl
    · refine hgives (by omega) ?_
      rw [ctl_mul s t u 4 w h hf7, endCtl_ctlNext s t s hnext]
      exact hruns _ _ _ _ rfl
    · refine hgives (by omega) ?_
      rw [ctl_lui s t u 4 w h, endCtl_ctlNext s t s hnext]
      exact hruns _ _ _ _ rfl
    · refine hgives (by omega) ?_
      rw [ctl_branch s t u 4 w h htaken]
      cases taken with
      | true =>
        rw [if_pos rfl, endCtl_ctlJump_scalar s t hmode]
        exact hruns _ _ _ _ rfl
      | false =>
        rw [if_neg Bool.false_ne_true, endCtl_ctlNext s t s hnext]
        exact hruns _ _ _ _ rfl
    · refine hgives (by omega) ?_
      rw [ctl_loadWord s t u 4 w h hf3, ctlLoad_of_clean s t u halign hsram hdata, endCtl_ctlNext s t s hnext]
      exact hruns _ _ _ _ rfl
    · refine hgives (by omega) ?_
      rw [ctl_storeWord s t u 4 w h hf3, ctlStore_scratch s t halign hlow hhigh, endCtl_ctlNext s t _ hnext,
        State.modTile_modTile]
      refine ⟨onlyTile_modTile s t _, ?_⟩
      rw [State.tile_modTile_self]
      exact ⟨fun i _ => memByte_storeScratch u _ i _, rfl⟩

end Sys2Proof.Machine
end

section
/-! The obligation on bundles and on tiles that start and halt (04 R92, R93, R101, R102, R105). -/

namespace Sys2Proof.Machine

open Sys2Proof.Say

/-! ## One bundle of clean sectors -/

section

variable {s : State} {t base : Nat} {ls arr vec : SlotOp} (hbase : s.sramAt t (s.tile t).pc = base)
  (hin : (s.tile t).pc + 16 ≤ sramSize) (hclean : Clean s base 16) (hlong : dataNat s base 4 % 4 = 3)
  (hls : lsOfWord (dataNat s (base + 4) 4) = ls) (harr : arrOfWord (dataNat s (base + 8) 4) = arr)
  (hvec : vecOfWord (dataNat s (base + 12) 4) = vec)

/-- The four slot words of a bundle of 16 stored bytes. -/
theorem field_bundle (s : State) (base : Nat) {k : Nat} (hk : k + 4 ≤ 16) :
    field ((List.range 16).map (fun j => s.dataByte (base + j))) k 4 = dataNat s (base + k) 4 := by
  rw [field_map_range _ hk, dataNat]
  simp only [Nat.add_assoc]

include hbase hin hclean hlong hls harr hvec

/-- A bundle in which one slot traps takes that trap, and no slot takes effect (04 R102). -/
theorem bundleStep_of_trap {cause : Nat} {mtval : Word}
    (htraps : bundleTraps s (s.tile t) (s.ctl t (s.tile t) (dataNat s base 4) 16 (dataNat s base 4)) [ls, arr, vec] =
      [(cause, mtval)]) : s.bundleStep t = s.endCtl t (.trap cause mtval) := by
  subst hbase hls harr hvec
  simp only [State.bundleStep, fetch_of_clean hin hclean, field_bundle s _ (show 0 + 4 ≤ 16 by decide),
    field_bundle s _ (show 4 + 4 ≤ 16 by decide), field_bundle s _ (show 8 + 4 ≤ 16 by decide),
    field_bundle s _ (show 12 + 4 ≤ 16 by decide), Nat.add_zero, hlong, ne_eq, not_true_eq_false, if_false, htraps,
    List.isEmpty_nil, if_true]

/-- A bundle that traps nothing, does not wait and is not held back: every slot acts with operands from before it (04
R92). -/
theorem bundleStep_of_ready {r : State}
    (hgo : s.ctl t (s.tile t) (dataNat s base 4) 16 (dataNat s base 4) = .go r)
    (htraps : bundleTraps s (s.tile t) (.go r) [ls, arr, vec] = []) (hlanes : arr.lanes = false)
    (hheld : ((s.tile t).opHeld ls || (s.tile t).opHeld arr || (s.tile t).opHeld vec) = false)
    (hlate : vecEarly vec = false) {q : State}
    (hq : ((s.opApply t (s.tile t) arr).opApply t (s.tile t) ls).opApply t (s.tile t) vec = q) :
    s.bundleStep t = q.endCtl t (q.ctl t (s.tile t) (dataNat s base 4) 16 (dataNat s base 4)) := by
  subst hbase hls harr hvec hq
  simp only [State.bundleStep, fetch_of_clean hin hclean, field_bundle s _ (show 0 + 4 ≤ 16 by decide),
    field_bundle s _ (show 4 + 4 ≤ 16 by decide), field_bundle s _ (show 8 + 4 ≤ 16 by decide),
    field_bundle s _ (show 12 + 4 ≤ 16 by decide), Nat.add_zero, hlong, ne_eq, not_true_eq_false, if_false, hgo, htraps,
    hlanes, Bool.false_and, Bool.false_eq_true, hheld, hlate]

end

theorem bundleIssue_gives {s : State} {t : TileId} (hissues : s.issues t = true) (hmode : (s.tile t).bmode = true) :
    exec (.bundleIssue t) s = .next (s.bundleStep t) :=
  congrArg Host.Outcome.next (if_pos (by rw [hissues, hmode]; rfl))

/-! ## An addition of lanes beside an addition of the control slot -/

/-- The operands of a vector slot word. -/
def vecOperands (v : Nat) : VecOp :=
  ⟨BitVec.ofNat 5 (bits v 25 21), BitVec.ofNat 5 (bits v 20 16), BitVec.ofNat 5 (bits v 15 11), BitVec.ofNat 5 (bits v 10 6),
    bit v 5, BitVec.ofNat 3 (bits v 4 2), bit v 1, bit v 0⟩

theorem vecOfWord_vadd {v : Nat} (h : bits v 31 26 = 0x01) : vecOfWord v = .vec 0x01 (vecOperands v) := by
  rw [vecOfWord, h]
  rfl

/-- A field of five bits as a register number. -/
theorem toNat_regField (v : Nat) {hi lo : Nat} (h : hi + 1 - lo = 5) : (BitVec.ofNat 5 (bits v hi lo)).toNat = bits v hi lo := by
  have hlt := bits_lt v hi lo
  rw [h] at hlt
  rw [BitVec.toNat_ofNat, Nat.mod_eq_of_lt hlt]

/-- The bundle of an `ADDI` and a `VADD` of all lanes: the tile takes both (04 R92). -/
theorem bundleStep_addi_vadd {s : State} {t base w v : Nat} (hbase : s.sramAt t (s.tile t).pc = base)
    (hin : (s.tile t).pc + 16 ≤ sramSize) (hclean : Clean s base 16) (hw : dataNat s base 4 = w) (hop : w % 128 = 0x13)
    (hf3 : bits w 14 12 = 0) (hls : dataNat s (base + 4) 4 = 0) (harr : dataNat s (base + 8) 4 = 0)
    (hv : dataNat s (base + 12) 4 = v) (hvop : bits v 31 26 = 0x01) (hsat : bit v 0 = false) :
    s.bundleStep t = s.modTile t (fun u => (u.vecBinary (s.tile t) (vecOperands v) laneAdd).goes (bits w 11 7)
      ((s.tile t).xr (bits w 19 15) + immI w) ((s.tile t).pc + 16) u.bmode) := by
  have hlong : dataNat s base 4 % 4 = 3 := by omega
  have hnext : (s.tile t).pc + 16 < 2 ^ 32 := Nat.lt_of_le_of_lt hin (by decide)
  have hplain : bits w 14 12 ∉ [1, 5] := by rw [hf3]; decide
  have hnone : (s.tile t).vecTrap 0x01 (vecOperands v) = none := vecTrap_of_lanesCode (by decide) (.inl hsat)
  have hadd : ∀ a b : Word, aluOp 0 false a b = a + b := fun _ _ => rfl
  have hgo := ctl_opImm s t (s.tile t) 16 w hop hplain
  rw [← hw] at hgo
  have hls' : lsOfWord (dataNat s (base + 4) 4) = .nop := by rw [hls]; rfl
  have harr' : arrOfWord (dataNat s (base + 8) 4) = .nop := by rw [harr]; rfl
  have hvec : vecOfWord (dataNat s (base + 12) 4) = .vec 0x01 (vecOperands v) := by rw [hv, vecOfWord_vadd hvop]
  have htraps : ∀ r, bundleTraps s (s.tile t) (.go r) [.nop, .nop, .vec 0x01 (vecOperands v)] = [] := fun r => by
    simp [bundleTraps, State.opTrap, hnone]
  rw [bundleStep_of_ready hbase hin hclean hlong hls' harr' hvec hgo (htraps _) rfl rfl rfl
    (q := s.modTile t (fun u => u.vecBinary (s.tile t) (vecOperands v) laneAdd)) rfl, hw,
    ctl_opImm _ t (s.tile t) 16 w hop hplain, endCtl_ctlNext _ t _ hnext, hf3, hadd, State.modTile_modTile]
  rfl

/-- Lanes added with an operand x[VB] by all lanes. -/
theorem vec_vadd_broadcast (u : Tile) {v : Nat} (hxb : bit v 1 = true) (hmen : bit v 5 = false) {q l : Nat} (hl : l < 64) :
    (u.vecBinary u (vecOperands v) laneAdd).vec q l = if q = bits v 25 21 then
      (laneAdd (u.vec (bits v 20 16) l) (u.xr (bits v 15 11))).1 else u.vec q l := by
  obtain ⟨hself, hother⟩ := vecLanes_writes u (vecOperands v)
    (fun l => laneAdd (u.vec (vecOperands v).va.toNat l) (u.opB (vecOperands v) l))
  have hvd : (vecOperands v).vd.toNat = bits v 25 21 := toNat_regField v rfl
  have hva : (vecOperands v).va.toNat = bits v 20 16 := toNat_regField v rfl
  have hvb : (vecOperands v).vb.toNat = bits v 15 11 := toNat_regField v rfl
  have hall : ∀ l, u.active (vecOperands v) l = true := fun l => by simp [Tile.active, vecOperands, hmen]
  have hb : ∀ l, u.opB (vecOperands v) l = u.xr (bits v 15 11) := fun l => by
    rw [Tile.opB, show (vecOperands v).xb = true from hxb, if_pos rfl, hvb]
  simp only [hvd, hva, hb, hall, if_true] at hself hother
  rw [Tile.vecBinary]
  simp only [hva, hb]
  split
  next hq => rw [hq, hself l hl]
  next hq => exact hother q l hq hl

/-! ## Starting and stopping -/

section

variable {s : State} {t : Nat}

theorem tileStart_of_stopped (hon : s.get (pgTile t) PAGE_PWR.STATE = 0) (hrun : s.tileRun t = 0 ∨ s.tileRun t = 2) :
    s.tileStart t = (s.put (pgTile t) TILE_STAT.RUN runRunning).modTile t (fun u => { u with
      pc := 16 * s.get (pgTile t) TILE_ENTRY.ADDR, bmode := s.flag (pgTile t) TILE_ENTRY.BMODE, fenceWait := none,
      halting := false }) := if_pos ⟨hon, hrun⟩

theorem tileStart_of_other (hidle : s.tileRun t ≠ 0) (hhalted : s.tileRun t ≠ 2) : s.tileStart t = s :=
  if_neg fun h => h.2.elim hidle hhalted

theorem tileHalt_of_running (hrun : s.tileRun t = 1) :
    s.tileHalt t = s.modTile t (fun u => { u with halting := true }) := if_pos hrun

theorem tileHalt_of_other (hrun : s.tileRun t ≠ 1) : s.tileHalt t = s := if_neg hrun

theorem issues_of_halting (h : (s.tile t).halting = true) : s.issues t = false := by
  simp [State.issues, h]

theorem tileHaltDone_of_quiet (hhalt : (s.tile t).halting = true) (hquiet : (s.tile t).quiet = true) :
    s.tileHaltDone t = ((s.put (pgTile t) TILE_PC.PC (s.tile t).pc).put (pgTile t) TILE_STAT.RUN runHalted).modTile t
      (fun u => { u with halting := false, fenceWait := none }) := if_pos (by rw [hhalt, hquiet]; rfl)

end

/-- Settles O22: bundles by `bundleStep_of_ready` and `bundleStep_of_trap`; starting and stopping by the cases of the three
commands. -/
theorem bundlesIssueAndTilesStart : Obligations.BundlesIssueAndTilesStart := by
  unfold Obligations.BundlesIssueAndTilesStart
  refine ⟨fun t s w v hissues hmode => ?_, fun t s => ?_⟩
  · intro u base halign hin hclean
    refine ⟨fun hw hop hf3 hls harr hvec hvop hxb hsat hmen => ⟨_, bundleIssue_gives hissues hmode, ?_⟩,
      fun cause mtval hintrap hw hlong htraps hcause hparity => ⟨_, bundleIssue_gives hissues hmode, ?_⟩⟩
    · rw [bundleStep_addi_vadd rfl hin hclean hw hop hf3 hls harr hvec hvop hsat]
      refine ⟨onlyTile_modTile s t _, ?_⟩
      rw [State.tile_modTile_self]
      refine ⟨fun r _ => xr_goes .., fun l hl => ?_, fun q l hq hl => ?_, ?_⟩
      · exact (vec_vadd_broadcast u hxb hmen hl).trans (if_pos rfl)
      · exact (vec_vadd_broadcast u hxb hmen hl).trans (if_neg hq)
      · rfl
    · rw [hw] at hlong htraps
      rw [bundleStep_of_trap rfl hin hclean hlong rfl rfl rfl htraps, endCtl_trap s t _ hparity]
      exact trapTaken_trap hintrap hcause _
  · intro u p
    refine ⟨fun hon hrun => ⟨_, congrArg Host.Outcome.next (tileStart_of_stopped hon hrun), ?_⟩,
      fun hidle hhalted => congrArg Host.Outcome.next (tileStart_of_other hidle hhalted),
      fun hrun => ⟨_, congrArg Host.Outcome.next (tileHalt_of_running hrun), onlyTile_modTile s t _, s.tile_modTile_self t _, ?_⟩,
      fun hrun => congrArg Host.Outcome.next (tileHalt_of_other hrun), fun hhalt hlive hflight hloads => ?_⟩
    · refine ⟨?_, ⟨rfl, fun k hk => State.tile_modTile_ne _ t k _ hk, .of_put s _ _ _⟩, State.tile_modTile_self ..⟩
      rw [State.tileRun, State.get_modTile]
      exact s.get_put_self _ _ _
    · exact issues_of_halting (by rw [State.tile_modTile_self])
    · have hquiet : u.quiet = true := by simp [Tile.quiet, hlive, hflight, hloads]
      refine ⟨_, congrArg Host.Outcome.next (tileHaltDone_of_quiet hhalt hquiet), ?_, ?_, ⟨rfl, fun k hk => ?_, ?_⟩,
        State.tile_modTile_self ..⟩
      · rw [State.get_modTile, State.get_put_apart _ _ _ _ _ _ (by decide)]
        exact s.get_put_self ..
      · rw [State.tileRun, State.get_modTile]
        exact State.get_put_self _ _ _ _
      · rw [State.tile_modTile_ne _ _ _ _ hk, State.tile_put, State.tile_put]
      · exact ((RegsBut.of_put s _ _ _).mono (by simp [p])).put (by simp [p]) _

end Sys2Proof.Machine
end

section

/-! # The arbiter of a resource's OPEN slots (04 R115) -/

namespace Sys2Proof.Machine
open Sys2Proof.Say

/-! ## The best of the pending requesters -/

/-- A requester is no better than another: a lower priority, or the same one and no lower ID (04 R115). -/
def State.PrioLe (s : State) (a i w : Nat) : Prop := s.prioOf a i < s.prioOf a w ∨ (s.prioOf a i = s.prioOf a w ∧ w ≤ i)

theorem State.PrioLe.refl (s : State) (a i : Nat) : s.PrioLe a i i := .inr ⟨rfl, Nat.le_refl i⟩

theorem State.PrioLe.trans {s : State} {a i j w : Nat} (hij : s.PrioLe a i j) (hjw : s.PrioLe a j w) : s.PrioLe a i w := by
  unfold State.PrioLe at *
  omega

/-- One step of the search for the best requester. -/
def State.prioStep (s : State) (a : Nat) (m : Option Nat) (r : Nat) : Option Nat :=
  match m with
  | some b => if s.prioOf a b < s.prioOf a r ∨ (s.prioOf a b = s.prioOf a r ∧ r < b) then some r else m
  | none => some r

theorem prioBest_eq (s : State) (a : Nat) (l : List Nat) : s.prioBest a l = l.foldl (s.prioStep a) none := rfl

/-- A step keeps the better of the two. -/
theorem prioStep_some (s : State) (a b r : Nat) :
    ∃ w ∈ [b, r], s.prioStep a (some b) r = some w ∧ s.PrioLe a b w ∧ s.PrioLe a r w := by
  rw [State.prioStep]
  split
  next h => exact ⟨r, by simp, rfl, h.imp_right fun h => ⟨h.1, h.2.le⟩, .refl s a r⟩
  next h => exact ⟨b, by simp, rfl, .refl s a b, by unfold State.PrioLe; omega⟩

/-- The search from a requester ends at one of those it met, and none of them is better. -/
theorem foldl_prioStep (s : State) (a : Nat) (l : List Nat) (b : Nat) :
    ∃ w ∈ b :: l, l.foldl (s.prioStep a) (some b) = some w ∧ ∀ i ∈ b :: l, s.PrioLe a i w := by
  induction l generalizing b with
  | nil => exact ⟨b, by simp, rfl, by simpa using State.PrioLe.refl s a b⟩
  | cons r l ih =>
    obtain ⟨c, hc, hstep, hb, hr⟩ := prioStep_some s a b r
    obtain ⟨w, hw, hfold, hle⟩ := ih c
    have hcw := hle c List.mem_cons_self
    refine ⟨w, ?_, by rw [List.foldl_cons, hstep, hfold], fun i hi => ?_⟩
    · simp only [List.mem_cons, List.not_mem_nil, or_false] at hw hc ⊢
      rcases hw with rfl | hw
      · tauto
      · exact .inr (.inr hw)
    · rcases List.mem_cons.mp hi with rfl | hi
      · exact hb.trans hcw
      · rcases List.mem_cons.mp hi with rfl | hi
        · exact hr.trans hcw
        · exact hle i (List.mem_cons_of_mem _ hi)

theorem prioBest_spec {s : State} {a w : Nat} {l : List Nat} (h : s.prioBest a l = some w) :
    w ∈ l ∧ ∀ i ∈ l, s.PrioLe a i w := by
  rw [prioBest_eq] at h
  cases l with
  | nil => cases h
  | cons b l =>
    obtain ⟨v, hv, hfold, hle⟩ := foldl_prioStep s a l b
    obtain rfl : v = w := Option.some.inj (hfold.symm.trans h)
    exact ⟨hv, hle⟩

theorem prioBest_eq_none {s : State} {a : Nat} {l : List Nat} : s.prioBest a l = none ↔ l = [] := by
  cases l with
  | nil => simp [State.prioBest]
  | cons b l =>
    obtain ⟨v, -, hfold, -⟩ := foldl_prioStep s a l b
    rw [prioBest_eq, show (b :: l).foldl (s.prioStep a) none = some v from hfold]
    simp

/-! ## Who is served -/

/-- The holder, where it has a request pending. -/
def State.keptHolder (s : State) (id : Nat) : Option Nat := (s.resAt id).holder.filter (fun h => (s.pendingAt id).contains h)

/-- The pending requesters that do not back off. -/
def State.readyAt (s : State) (id : Nat) : List Nat := (s.pendingAt id).filter (fun i => mapGet 0 (s.resAt id).backoff i == 0)

section

variable {s : State} {id i : Nat}

theorem mem_readyAt : i ∈ s.readyAt id ↔ i ∈ s.pendingAt id ∧ mapGet 0 (s.resAt id).backoff i = 0 := by
  simp [State.readyAt]

theorem keptHolder_eq_some {h : Nat} : s.keptHolder id = some h ↔ (s.resAt id).holder = some h ∧ h ∈ s.pendingAt id := by
  simp [State.keptHolder, Option.filter_eq_some_iff]

theorem keptHolder_eq_none : s.keptHolder id = none ↔ ¬∃ h, (s.resAt id).holder = some h ∧ h ∈ s.pendingAt id := by
  simp only [← keptHolder_eq_some]
  cases s.keptHolder id <;> simp

theorem winner_of_kept {h : Nat} (hkept : s.keptHolder id = some h) : (s.arbitrate id).2 = some h := by
  show (match s.keptHolder id with | some h => some h | none => _) = some h
  rw [hkept]

theorem winner_of_free (hkept : s.keptHolder id = none) :
    (s.arbitrate id).2 = s.prioBest (arbOfSlot (resSlot id)) (s.readyAt id) := by
  show (match s.keptHolder id with | some h => some h | none => s.prioBest _ (s.readyAt id)) = _
  rw [hkept]

/-- Whoever is served has a request pending and does not back off, where that is so of the holder. -/
theorem arbitrate_ready (hheld : ∀ h, (s.resAt id).holder = some h → h ∈ s.pendingAt id → mapGet 0 (s.resAt id).backoff h = 0)
    {w : Nat} (hw : (s.arbitrate id).2 = some w) : w ∈ s.readyAt id := by
  cases hkept : s.keptHolder id with
  | some h =>
    obtain ⟨hh, hp⟩ := keptHolder_eq_some.mp hkept
    obtain rfl : h = w := Option.some.inj ((winner_of_kept hkept).symm.trans hw)
    exact mem_readyAt.mpr ⟨hp, hheld h hh hp⟩
  | none => exact (prioBest_spec ((winner_of_free hkept).symm.trans hw)).1

/-! ## The loss counts and the back-off counts -/

/-- What an OPEN slot makes of a requester's loss count and back-off (04 R115). -/
def State.openCounts (s : State) (id i : Nat) : Nat × Nat :=
  let k := mapGet 0 (s.resAt id).losses i
  let b := mapGet 0 (s.resAt id).backoff i
  if 0 < b then (k, b - 1)
  else if i ∈ s.readyAt id ∧ (s.arbitrate id).2 ≠ some i then (min 15 (k + 1), min (2 ^ (min 15 (k + 1) - 1)) 1024)
  else if i ∉ s.pendingAt id ∨ ((s.arbitrate id).2 = some i ∧ s.keptHolder id = none) then (0, b)
  else (k, b)

theorem openCounts_of_backing (hb : 0 < mapGet 0 (s.resAt id).backoff i) :
    s.openCounts id i = (mapGet 0 (s.resAt id).losses i, mapGet 0 (s.resAt id).backoff i - 1) := if_pos hb

variable (hb : mapGet 0 (s.resAt id).backoff i = 0)
include hb

theorem openCounts_of_loser (hpend : i ∈ s.pendingAt id) (hloses : (s.arbitrate id).2 ≠ some i) :
    s.openCounts id i = (min 15 (mapGet 0 (s.resAt id).losses i + 1),
      min (2 ^ (min 15 (mapGet 0 (s.resAt id).losses i + 1) - 1)) 1024) :=
  (if_neg (by omega)).trans (if_pos ⟨mem_readyAt.mpr ⟨hpend, hb⟩, hloses⟩)

theorem openCounts_of_idle (hidle : i ∉ s.pendingAt id) : s.openCounts id i = (0, 0) := by
  have hready : i ∉ s.readyAt id := fun h => hidle (mem_readyAt.mp h).1
  simp [State.openCounts, hb, hready, hidle]

theorem openCounts_of_winner (hwins : (s.arbitrate id).2 = some i) (hfree : s.keptHolder id = none) :
    s.openCounts id i = (0, 0) := by
  simp [State.openCounts, hb, hwins, hfree]

theorem openCounts_of_holder (hkept : s.keptHolder id = some i) :
    s.openCounts id i = (mapGet 0 (s.resAt id).losses i, 0) := by
  simp [State.openCounts, hb, winner_of_kept hkept, hkept, (keptHolder_eq_some.mp hkept).2]

end

/-- A walk whose every step sets the two counts of its own key, and no other, leaves each key of the list with what its step
sets. -/
theorem foldl_ownKey {k b : Nat → Nat} {f : Nat → Nat × Nat}
    {step : List (Nat × Nat) × List (Nat × Nat) → Nat → List (Nat × Nat) × List (Nat × Nat)}
    (hself : ∀ m i, mapGet 0 m.1 i = k i → mapGet 0 m.2 i = b i →
      mapGet 0 (step m i).1 i = (f i).1 ∧ mapGet 0 (step m i).2 i = (f i).2)
    (hother : ∀ m i j, j ≠ i → mapGet 0 (step m i).1 j = mapGet 0 m.1 j ∧ mapGet 0 (step m i).2 j = mapGet 0 m.2 j)
    {l : List Nat} (hnodup : l.Nodup) {m : List (Nat × Nat) × List (Nat × Nat)}
    (hm : ∀ i ∈ l, mapGet 0 m.1 i = k i ∧ mapGet 0 m.2 i = b i) (j : Nat) :
    (j ∈ l → mapGet 0 (l.foldl step m).1 j = (f j).1 ∧ mapGet 0 (l.foldl step m).2 j = (f j).2) ∧
    (j ∉ l → mapGet 0 (l.foldl step m).1 j = mapGet 0 m.1 j ∧ mapGet 0 (l.foldl step m).2 j = mapGet 0 m.2 j) := by
  induction l generalizing m with
  | nil => simp
  | cons i l ih =>
    obtain ⟨hi, hnodup⟩ := List.nodup_cons.mp hnodup
    have hrest : ∀ j ∈ l, mapGet 0 (step m i).1 j = k j ∧ mapGet 0 (step m i).2 j = b j := fun j hj => by
      obtain ⟨h1, h2⟩ := hother m i j (fun h => hi (h ▸ hj))
      rw [h1, h2]
      exact hm j (List.mem_cons_of_mem _ hj)
    obtain ⟨hin, hout⟩ := ih hnodup hrest
    rw [List.foldl_cons]
    refine ⟨fun hj => ?_, fun hj => ?_⟩
    · rcases List.mem_cons.mp hj with rfl | hj
      · obtain ⟨h1, h2⟩ := hm j List.mem_cons_self
        rw [(hout hi).1, (hout hi).2]
        exact hself m j h1 h2
      · exact hin hj
    · obtain ⟨hne, hj⟩ := not_or.mp (mt List.mem_cons.mpr hj)
      rw [(hout hj).1, (hout hj).2]
      exact hother m i j hne

/-- The step of the arbiter's walk at a requester. -/
def State.openStep (s : State) (id : Nat) (m : List (Nat × Nat) × List (Nat × Nat)) (i : Nat) :
    List (Nat × Nat) × List (Nat × Nat) :=
  let k1 := min 15 (mapGet 0 (s.resAt id).losses i + 1)
  if 0 < mapGet 0 (s.resAt id).backoff i then (m.1, mapSet 0 m.2 i (mapGet 0 (s.resAt id).backoff i - 1))
  else if ((s.readyAt id).filter (fun i => (s.arbitrate id).2 != some i)).contains i then
    (mapSet 0 m.1 i k1, mapSet 0 m.2 i (min (2 ^ (k1 - 1)) 1024))
  else if !(s.pendingAt id).contains i ∨ ((s.arbitrate id).2 = some i ∧ s.keptHolder id = none) then (mapSet 0 m.1 i 0, m.2)
  else m

theorem arbitrate_counts (s : State) (id : Nat) : ((s.arbitrate id).1.losses, (s.arbitrate id).1.backoff) =
    requesters.foldl (s.openStep id) ((s.resAt id).losses, (s.resAt id).backoff) := by
  unfold State.openStep State.arbitrate
  generalize requesters = l
  rfl

theorem requesters_nodup : requesters.Nodup := by decide

/-- The counts of a requester after an OPEN slot. -/
theorem counts_arbitrate (s : State) (id : Nat) {i : Nat} (hi : i ∈ requesters) :
    mapGet 0 (s.arbitrate id).1.losses i = (s.openCounts id i).1 ∧
    mapGet 0 (s.arbitrate id).1.backoff i = (s.openCounts id i).2 := by
  have hwalk := (foldl_ownKey (k := fun i => mapGet 0 (s.resAt id).losses i) (b := fun i => mapGet 0 (s.resAt id).backoff i)
    (f := s.openCounts id) (step := s.openStep id) (fun m i hk hb => ?_) (fun m i j hj => ?_) requesters_nodup
    (m := ((s.resAt id).losses, (s.resAt id).backoff)) (fun _ _ => ⟨rfl, rfl⟩) i).1 hi
  · rwa [← arbitrate_counts] at hwalk
  · unfold State.openStep State.openCounts
    simp only [List.mem_filter, bne_iff_ne, Bool.not_eq_true', List.contains_eq_mem, decide_eq_false_iff_not, decide_eq_true_eq]
    split_ifs <;> simp [hk, hb]
  · unfold State.openStep
    dsimp only
    split_ifs <;> simp [mapGet_mapSet_ne _ _ _ _ _ _ hj]

/-- Settles O29: the winner by `prioBest_spec`, the counts by `counts_arbitrate`. -/
theorem theArbiterFollowsItsSteps : Obligations.TheArbiterFollowsItsSteps := by
  unfold Obligations.TheArbiterFollowsItsSteps
  intro s id a r pend k b g k' b'
  refine ⟨fun i hi => eq_of_beq (List.mem_filter.mp hi).2,
    fun i => mapGet_mapUpd_of 0 r.gaps (fun _ n => n - 1) i rfl, fun hknown hheld => ⟨rfl, rfl, ?_⟩⟩
  have hcounts : ∀ {i : Nat} {c : Nat × Nat}, i ∈ requesters → s.openCounts id i = c → k' i = c.1 ∧ b' i = c.2 :=
    fun hi hc => hc ▸ counts_arbitrate s id hi
  have hready : ∀ {w}, g.2 = some w → w ∈ s.readyAt id := arbitrate_ready hheld
  refine ⟨fun i hi hb => ?_, fun h hh hp => ?_, fun hfree => ⟨fun w hw => ?_, ?_⟩, fun i hp hb hloses => ?_, fun i hi hb hidle => ?_⟩
  · have hne : g.2 ≠ some i := fun h => hb.ne' (mem_readyAt.mp (hready h)).2
    obtain ⟨hk, hb'⟩ := hcounts hi (openCounts_of_backing hb)
    exact ⟨hb', hk, hne⟩
  · have hkept := keptHolder_eq_some.mpr ⟨hh, hp⟩
    exact ⟨winner_of_kept hkept, hcounts (hknown h hp) (openCounts_of_holder (hheld h hh hp) hkept)⟩
  · have hnone := keptHolder_eq_none.mpr hfree
    obtain ⟨hp, hb⟩ := mem_readyAt.mp (hready hw)
    obtain ⟨hk, hb'⟩ := hcounts (hknown w hp) (openCounts_of_winner hb hw hnone)
    obtain ⟨-, hbest⟩ := prioBest_spec ((winner_of_free hnone).symm.trans hw)
    exact ⟨hp, hb, hk, hb', fun i hi hbi => hbest i (mem_readyAt.mpr ⟨hi, hbi⟩)⟩
  · rw [winner_of_free (keptHolder_eq_none.mpr hfree), prioBest_eq_none, List.eq_nil_iff_forall_not_mem]
    simp only [mem_readyAt, not_and, Nat.pos_iff_ne_zero]
    rfl
  · exact hcounts (hknown i hp) (openCounts_of_loser hb hp hloses)
  · exact hcounts hi (openCounts_of_idle hb hidle)

end Sys2Proof.Machine
end

section
/-! What a command of a calendared resource has to settle (14 R397): nothing, where only transfers wait, as long as it
leaves power and addresses as they are and gives no transfer more to do. -/

namespace Sys2Proof.Machine

open Sys2Proof.Say

/-! ## The entries of a sparse map -/

section

variable {α : Type} [DecidableEq α] {d : α} {m : List (Nat × α)} {P : α → Prop}

theorem mem_mapSet {k : Nat} {v : α} {e : Nat × α} (h : e ∈ mapSet d m k v) : e = (k, v) ∨ e ∈ m := by
  simp only [mapSet, List.mem_append, List.mem_filter] at h
  obtain (⟨h, -⟩ | h) | ⟨h, -⟩ := h
  · exact .inr h
  · split at h
    · cases h
    · exact .inl (List.mem_singleton.mp h)
  · exact .inr h

theorem forall_mapSet (hm : ∀ e ∈ m, P e.2) {v : α} (hv : P v) (k : Nat) : ∀ e ∈ mapSet d m k v, P e.2 := by
  intro e he
  obtain rfl | he := mem_mapSet he
  · exact hv
  · exact hm e he

omit [DecidableEq α] in
/-- What holds of the default and of every entry holds of the value at every key. -/
theorem mapGet_of_forall (hd : P d) (hm : ∀ e ∈ m, P e.2) (k : Nat) : P (mapGet d m k) := by
  rw [mapGet]
  split
  next e h => exact hm e (List.mem_of_find?_eq_some h)
  next => exact hd

theorem forall_mapUpd (hd : P d) (hm : ∀ e ∈ m, P e.2) {f : Nat → α → α} (hf : ∀ k v, P v → P (f k v)) :
    ∀ e ∈ mapUpd d m f, P e.2 := by
  have hfold : ∀ (l r : List (Nat × α)), (∀ e ∈ r, P e.2) →
      ∀ e ∈ l.foldl (fun r e => mapSet d r e.1 (f e.1 (mapGet d m e.1))) r, P e.2 := by
    intro l
    induction l with
    | nil => exact fun _ h => h
    | cons a l ih => exact fun r h => ih _ (forall_mapSet h (hf _ _ (mapGet_of_forall hd hm a.1)) a.1)
  exact hfold m [] (by simp)

end

/-! ## Transfers that a domain refuses -/

/-- A field whose register lies where neither `ARB_CAL_STAT` nor `ARB_CAL_GEN` does on its page. -/
def Field.offCalendar (f : Field) : Bool :=
  decide (f.place < 32 * ARB_CAL_STAT.BUSY.off) || decide (32 * (ARB_CAL_GEN.ACTIVE.off + 4) ≤ f.place ∧ f.place < 2 ^ 17)

/-- The same power and the same addresses: no domain moves otherwise, and no register changed but those of `ARB_CAL_STAT` and
`ARB_CAL_GEN`. -/
def SamePower (s r : State) : Prop := r.moves = s.moves ∧ ∀ q g, g.offCalendar = true → r.get q g = s.get q g

theorem SamePower.of_regs {s r : State} (hmoves : r.moves = s.moves) (hregs : r.regs = s.regs) : SamePower s r :=
  ⟨hmoves, fun q g _ => State.get_congr hregs q g⟩

theorem SamePower.trans {s r q : State} (h : SamePower s r) (h' : SamePower r q) : SamePower s q :=
  ⟨h'.1.trans h.1, fun p g hg => (h'.2 p g hg).trans (h.2 p g hg)⟩

theorem tmapLog_offCalendar {i : Nat} (hi : i < 128) :
    (TMAP_LOG.VALID.at i).offCalendar = true ∧ (TMAP_LOG.PHYS.at i).offCalendar = true := by
  revert i
  decide

/-- The field that shows a domain's state. -/
theorem stateField_offCalendar (d : Domain) : (stateField d).2.offCalendar = true := by
  have hquarter : ∀ (n : Fin 3) (i : Fin 16), ((PWR_NMQ_STAT.Q.at n).sub i).offCalendar = true := by decide
  have hregion : ∀ r : Fin 20, (if r.val < 16 then (PWR_SUMT_STAT.R.at 0).sub r.val
    else (PWR_SUMT_STAT.R.at 1).sub (r.val - 16)).offCalendar = true := by decide
  cases d with
  | tile | stack | fport | hport => rfl
  | quarter n m q => exact hquarter ⟨n.val % 3, Nat.mod_lt _ (by decide)⟩ ⟨4 * m.val + q.val, by omega⟩
  | summit b r => exact hregion r

section

variable {s r : State} (h : SamePower s r)
include h

theorem SamePower.physOf (l : Nat) : r.physOf l = s.physOf l := by
  obtain ⟨hvalid, hphys⟩ := tmapLog_offCalendar (Nat.mod_lt l (by decide : 0 < 128))
  rw [State.physOf, h.2 _ _ hvalid, h.2 _ _ hphys, State.physOf]

theorem SamePower.domainAt : r.domainAt = s.domainAt := by
  funext a
  simp only [State.domainAt, h.physOf]

theorem SamePower.domState (d : Domain) : r.domState d = s.domState d := h.2 _ _ (stateField_offCalendar d)

theorem SamePower.domRefuses : r.domRefuses = s.domRefuses := by
  funext d
  have hreq : r.pwrReq d = s.pwrReq d := by
    rw [State.pwrReq, State.pwrReq]
    cases reqPage d with
    | none => rfl
    | some p => exact h.2 p _ (by decide)
  have hcool : r.get pgThrm THRM_STAT.COOL = s.get pgThrm THRM_STAT.COOL := h.2 _ _ (by decide)
  have hshut : r.shutDown d = s.shutDown d := by
    unfold State.shutDown
    rw [hcool]
  rw [State.domRefuses, State.domRefuses, hreq, hshut, State.offward, State.offward, h.domState, h.1]

theorem SamePower.xferRefused : r.xferRefused = s.xferRefused := by
  funext x
  simp only [State.xferRefused, State.rangeRefused, State.domainsOf, h.domainAt, h.domRefuses]

end

/-! ## Nothing to settle -/

/-- A tile none of whose transfers meets a domain that refuses it, with no ended output to tell. -/
def TileSettled (s : State) (u : Tile) : Prop := u.outEnded = [] ∧ ∀ x ∈ u.xfers, s.xferRefused x = false

theorem tileSettled_init (s : State) : TileSettled s Tile.init := ⟨rfl, by simp [Tile.init]⟩

/-- The tiles of a state in which only transfers wait. -/
theorem tileSettled_of_waits {s : State} (h : OnlyTransfersWait s) : ∀ e ∈ s.tiles, TileSettled s e.2 := by
  obtain ⟨-, -, -, -, -, htiles⟩ := h
  exact htiles

theorem tileSettled_tile {s : State} (h : OnlyTransfersWait s) (t : Nat) : TileSettled s (s.tile t) :=
  mapGet_of_forall (tileSettled_init s) (tileSettled_of_waits h) t

/-- A transfer that has ended waits for no domain. -/
theorem xferRefused_of_ended (s : State) {x : Xfer} (h : x.status ≠ stOk) : s.xferRefused x = false := by
  simp [State.xferRefused, h]

theorem settle_of_frame {s r : State} (h : OnlyTransfersWait s)
    (hframe : r = { s with regs := r.regs, tiles := r.tiles, res := r.res, arbs := r.arbs }) (hpower : SamePower s r)
    (htiles : ∀ e ∈ r.tiles, TileSettled s e.2) : r.settle = r := by
  obtain ⟨hparked, haccs, hhost, hcmds, haccepts, -⟩ := h
  refine State.settle_none r ?_ ?_ ?_ ?_ ?_ (fun e he => (htiles e he).1)
    (fun e he x hx => by rw [hpower.xferRefused]; exact (htiles e he).2 x hx)
  · rw [hframe]; exact hparked
  · rw [hframe]; exact haccs
  · rw [hframe]; exact hhost
  · rw [hframe]; exact hcmds
  · rw [hframe]; exact haccepts

end Sys2Proof.Machine
end

section
/-! The obligation on calendar sets (04 R110 to R113): reading an image, staging it, and the switch. -/

namespace Sys2Proof.Machine

open Sys2Proof.Say

/-! ## Reads by the device -/

/-- A state that differs in registers and in the log alone. -/
def LogFrame (s r : State) : Prop := r = { s with regs := r.regs, log := r.log }

theorem LogFrame.refl (s : State) : LogFrame s s := rfl

theorem LogFrame.trans {s r q : State} (h : LogFrame s r) (h' : LogFrame r q) : LogFrame s q := by
  unfold LogFrame at *
  rw [h', h]

theorem LogFrame.put {s r : State} (h : LogFrame s r) (p : PageRef) (f : Field) (v : Nat) : LogFrame s (r.put p f v) := by
  unfold LogFrame at *
  rw [State.put_frame, h]

theorem LogFrame.mem {s r : State} (h : LogFrame s r) : r.mem = s.mem := by rw [h]

theorem LogFrame.res {s r : State} (h : LogFrame s r) : r.res = s.res := by rw [h]

theorem logFrame_reportSector (s : State) (p : PageRef) (st : SectorState) (a src : Nat) :
    LogFrame s (s.reportSector p st a src) := by
  have hreport : ∀ (k : ErrKind) (code syn : Nat), LogFrame s (s.report p k code syn a src) := fun k code syn =>
    (errOnly_report s p k code syn a src).1
  cases st with
  | good | poisoned => exact .refl s
  | corrected _ _ | uncorrectable =>
    simp only [State.reportSector]
    split
    · split
      · split
        · exact (((hreport ..).put ..).put ..).put ..
        · exact hreport ..
      · exact hreport ..
    · exact hreport ..

theorem logFrame_reportAll (s : State) (page : Nat → PageRef) (src : Nat) (l : List Nat) :
    LogFrame s (s.reportAll page src l) := by
  have hfold : ∀ (m : List Nat) (r : State), LogFrame s r →
      LogFrame s (m.foldl (fun r a => r.reportSector (page a) (r.sector a).1 a src) r) := by
    intro m
    induction m with
    | nil => exact fun _ h => h
    | cons a m ih => exact fun r h => ih _ (h.trans (logFrame_reportSector r ..))
  exact hfold _ s (.refl s)

theorem logFrame_deviceRead (s : State) (a n : Nat) : LogFrame s (s.deviceRead a n).1 := by
  rw [State.deviceRead]
  split
  · exact .refl s
  · exact logFrame_reportAll s ..

theorem logFrame_readBlocks (a n : Nat) (s : State) (off : Nat) (acc : List CalBlock) :
    LogFrame s (State.readBlocks a n s off acc).1 := by
  induction n generalizing s off acc with
  | zero => exact .refl s
  | succ n ih =>
    have hhead := logFrame_deviceRead s (a + off) 32
    simp only [State.readBlocks]
    split
    · exact hhead
    · split
      · exact hhead
      · split
        · exact hhead.trans (logFrame_deviceRead ..)
        · exact (hhead.trans (logFrame_deviceRead ..)).trans (ih ..)

theorem logFrame_readSet (s : State) (arb a : Nat) : LogFrame s (s.readSet arb a).1 := by
  have hhead := logFrame_deviceRead s a 32
  simp only [State.readSet]
  split
  · exact hhead
  · split
    all_goals exact hhead.trans (logFrame_readBlocks ..)

/-! ## What a read of an image gives -/

section

variable {s : State} {x arb : Nat}

/-- An image whose header cannot be read is refused for reason 5. -/
theorem readSet_of_unreadable (h : s.rangeStatus x 32 ≠ stOk ∨ ∃ y ∈ sectorsOf x 32, (s.sector y).1.damaged = true) :
    (s.readSet arb x).2.1 = 5 := by
  have hnone : (s.deviceRead x 32).2 = none := by
    rw [State.deviceRead]
    split
    next => rfl
    next hstatus =>
      obtain ⟨y, hy, hdamaged⟩ := h.resolve_left hstatus
      have hany : (s.readMem srcRuntime x 32).2.2.1 = true := by
        simp only [State.readMem, State.readSectors, List.any_map]
        exact List.any_eq_true.mpr ⟨y, hy, hdamaged⟩
      simp only [hany, if_true]
  simp only [State.readSet, hnone]

/-- A number of little-endian bytes is 0 where every byte is. -/
theorem leNat_eq_zero {l : List Byte} : leNat l = 0 ↔ ∀ b ∈ l, b = 0 := by
  induction l with
  | nil => simp [leNat]
  | cons b l ih =>
    have hb : b.toNat = 0 ↔ b = 0 := by rw [← BitVec.toNat_inj]; rfl
    rw [leNat, List.forall_mem_cons, ← ih, ← hb]
    omega

variable (hstatus : s.rangeStatus x 32 = stOk) (hclean : Clean s x 32)
include hstatus hclean

/-- The header of an image of clean sectors. -/
theorem deviceRead_of_clean : s.deviceRead x 32 = (s, some ((List.range 32).map (fun j => s.dataByte (x + j)))) := by
  simp only [State.deviceRead, hstatus, ne_eq, not_true_eq_false, if_false, State.readMem, readSectors_of_clean hclean,
    Bool.false_eq_true]

/-- An image of a clean header and no blocks. -/
theorem readSet_of_header (hnone : dataNat s (x + 8) 4 = 0) : (s.readSet arb x).2 =
    (((if dataNat s x 4 ≠ 1 ∨ dataNat s (x + 12) 4 ≠ 32 then [1] else []) ++
        (if dataNat s (x + 16) 16 ≠ 0 then [2] else [])).foldl (fun m e => if m = 0 ∨ e < m then e else m) 0,
      dataNat s (x + 4) 4, []) := by
  have hfield : ∀ k n, k + n ≤ 32 → field ((List.range 32).map (fun j => s.dataByte (x + j))) k n = dataNat s (x + k) n := by
    intro k n hk
    rw [field_map_range _ hk, dataNat]
    simp only [Nat.add_assoc]
  have hrest : (((List.range 32).map (fun j => s.dataByte (x + j))).drop 16).any (· != 0) =
      decide (dataNat s (x + 16) 16 ≠ 0) := by
    have hdrop : ((List.range 32).map (fun j => s.dataByte (x + j))).drop 16 =
        (List.range 16).map (fun j => s.dataByte (x + 16 + j)) := by
      rw [← List.map_drop, show (List.range 32).drop 16 = (List.range 16).map (16 + ·) by decide, List.map_map]
      simp only [Function.comp_def, Nat.add_assoc]
    rw [hdrop, dataNat, Bool.eq_iff_iff, decide_eq_true_iff, ne_eq, leNat_eq_zero]
    simp
  simp only [State.readSet, deviceRead_of_clean hstatus hclean, hfield 8 4 (by decide), hnone, State.readBlocks,
    hfield 0 4 (by decide), hfield 12 4 (by decide), hfield 4 4 (by decide), hrest, State.setErrors, List.append_nil,
    decide_eq_true_eq, List.map_nil, Nat.add_zero]

end

end Sys2Proof.Machine
end

section
/-! The obligation on calendar sets (04 R111, R112): the switch. -/

namespace Sys2Proof.Machine

open Sys2Proof.Say

/-! ## A switch begins -/

theorem calOf_congr {s r : State} {id : Nat} (h : (r.resAt id).cal = (s.resAt id).cal) : r.calOf id = s.calOf id := by
  rw [State.calOf, State.calOf, h]

/-- The resources of a set with their new calendars waiting (04 R112). -/
def State.listNext (s : State) (blocks : List (Nat × Calendar)) : State :=
  blocks.foldl (fun s b => s.setRes b.1 { s.resAt b.1 with next := some b.2 }) s

section

variable (s : State) (blocks : List (Nat × Calendar)) (id : Nat)

theorem listNext_frame : s.listNext blocks = { s with res := (s.listNext blocks).res } := by
  induction blocks generalizing s with
  | nil => rfl
  | cons b l ih =>
    have hrest := ih (s.setRes b.1 { s.resAt b.1 with next := some b.2 })
    exact hrest

theorem cal_listNext : ((s.listNext blocks).resAt id).cal = (s.resAt id).cal := by
  induction blocks generalizing s with
  | nil => rfl
  | cons b l ih =>
    refine (ih (s.setRes b.1 { s.resAt b.1 with next := some b.2 })).trans ?_
    by_cases hb : id = b.1
    · rw [hb, State.resAt_setRes_self]
    · rw [State.resAt_setRes_ne _ _ _ _ hb]

variable {blocks id}

theorem resAt_listNext_of_not_mem (h : ∀ c, (id, c) ∉ blocks) : (s.listNext blocks).resAt id = s.resAt id := by
  induction blocks generalizing s with
  | nil => rfl
  | cons b l ih =>
    have hb : id ≠ b.1 := fun heq => h b.2 (by rw [heq]; exact List.mem_cons_self)
    refine (ih _ fun c hc => h c (List.mem_cons_of_mem _ hc)).trans ?_
    rw [State.resAt_setRes_ne _ _ _ _ hb]

theorem resAt_listNext_of_mem {c : Calendar} (hmem : (id, c) ∈ blocks) (hone : ∀ d, (id, d) ∈ blocks → d = c) :
    (s.listNext blocks).resAt id = { s.resAt id with next := some c } := by
  induction blocks generalizing s with
  | nil => cases hmem
  | cons b l ih =>
    have hstep : (s.setRes b.1 { s.resAt b.1 with next := some b.2 }).resAt id =
        if id = b.1 then { s.resAt id with next := some c } else s.resAt id := by
      split
      next hb =>
        subst hb
        rw [State.resAt_setRes_self, hone b.2 List.mem_cons_self]
      next hb => rw [State.resAt_setRes_ne _ _ _ _ hb]
    by_cases hl : (id, c) ∈ l
    · refine (ih _ hl fun d hd => hone d (List.mem_cons_of_mem _ hd)).trans ?_
      rw [hstep]
      split <;> rfl
    · have hnot : ∀ d, (id, d) ∉ l := fun d hd => hl (hone d (List.mem_cons_of_mem _ hd) ▸ hd)
      have hb : id = b.1 := by rw [← (List.mem_cons.mp hmem).resolve_right hl]
      refine (resAt_listNext_of_not_mem _ hnot).trans ?_
      rw [hstep, if_pos hb]

end

/-! ## Tiles whose requests are refused -/

section

variable (L : List PlaneLoad) (u : Tile)

theorem refuseLoad_xfers (l : PlaneLoad) : (u.refuseLoad l).xfers = u.xfers ∧ (u.refuseLoad l).outEnded = u.outEnded ∧
    (u.refuseLoad l).loads = u.loads.filter (fun m => m.id != l.id) := by
  unfold Tile.refuseLoad
  dsimp only
  split <;> exact ⟨rfl, rfl, rfl⟩

theorem foldl_refuseLoad : (L.foldl Tile.refuseLoad u).xfers = u.xfers ∧ (L.foldl Tile.refuseLoad u).outEnded = u.outEnded ∧
    ∀ m ∈ (L.foldl Tile.refuseLoad u).loads, m ∉ L := by
  have hloads : ∀ (L : List PlaneLoad) (u : Tile), ∀ m ∈ (L.foldl Tile.refuseLoad u).loads,
      m ∈ u.loads ∧ ∀ l ∈ L, m.id ≠ l.id := by
    intro L
    induction L with
    | nil => exact fun u m hm => ⟨hm, by simp⟩
    | cons l L ih =>
      intro u m hm
      obtain ⟨hm, hne⟩ := ih _ m hm
      rw [(refuseLoad_xfers u l).2.2, List.mem_filter, bne_iff_ne] at hm
      exact ⟨hm.1, List.forall_mem_cons.mpr ⟨hm.2, hne⟩⟩
  have hkeeps : ∀ (L : List PlaneLoad) (u : Tile), (L.foldl Tile.refuseLoad u).xfers = u.xfers ∧
      (L.foldl Tile.refuseLoad u).outEnded = u.outEnded := by
    intro L
    induction L with
    | nil => exact fun u => ⟨rfl, rfl⟩
    | cons l L ih =>
      intro u
      obtain ⟨hx, ho, -⟩ := refuseLoad_xfers u l
      obtain ⟨hx', ho'⟩ := ih (u.refuseLoad l)
      exact ⟨hx'.trans hx, ho'.trans ho⟩
  exact ⟨(hkeeps L u).1, (hkeeps L u).2, fun m hm hL => (hloads L u m hm).2 m hL rfl⟩

end

/-- Whether a transfer of tile `t` fails at a resource that gives its tile no slot any more (04 R112). -/
def State.xferRefusedAt (s : State) (id t : Nat) (x : Xfer) : Bool := x.status == stOk && (s.xferRes t x).contains id

/-- Tile `t` after resource `id` has taken a calendar: what it has queued there fails where it has no slot of it. -/
def State.switchedTile (s : State) (id : Nat) (c : Calendar) (t : Nat) (u : Tile) : Tile :=
  if c.has (s.logical t) then u
  else (u.loads.filter (fun l => !(l.unitsAt (s.logical t) id).isEmpty)).foldl Tile.refuseLoad
    { u with xfers := u.xfers.map (fun x => if s.xferRefusedAt id t x then x.fail stNoSlot else x) }

section

variable {s : State} {id t : Nat} {c : Calendar} {u : Tile}

theorem switchedTile_of_slot (h : c.has (s.logical t) = true) : s.switchedTile id c t u = u := if_pos h

section

variable (h : c.has (s.logical t) = false)
include h

theorem switchedTile_xfers : (s.switchedTile id c t u).xfers =
    u.xfers.map (fun x => if s.xferRefusedAt id t x then x.fail stNoSlot else x) := by
  rw [State.switchedTile, h, if_neg Bool.false_ne_true]
  exact (foldl_refuseLoad _ _).1

theorem switchedTile_outEnded : (s.switchedTile id c t u).outEnded = u.outEnded := by
  rw [State.switchedTile, h, if_neg Bool.false_ne_true]
  exact (foldl_refuseLoad _ _).2.1

theorem not_mem_loads_switchedTile {l : PlaneLoad} (hl : l ∈ u.loads) (hunits : l.unitsAt (s.logical t) id ≠ []) :
    l ∉ (s.switchedTile id c t u).loads := by
  rw [State.switchedTile, h, if_neg Bool.false_ne_true]
  exact fun hm => (foldl_refuseLoad _ _).2.2 l hm (List.mem_filter.mpr ⟨hl, by simpa using hunits⟩)

end

theorem switchedTile_length : (s.switchedTile id c t u).xfers.length = u.xfers.length := by
  cases h : c.has (s.logical t) with
  | true => rw [switchedTile_of_slot h]
  | false => rw [switchedTile_xfers h, List.length_map]

theorem switchedTile_init : s.switchedTile id c t Tile.init = Tile.init := by
  unfold State.switchedTile
  split <;> rfl

theorem tileSettled_switchedTile (hu : TileSettled s u) : TileSettled s (s.switchedTile id c t u) := by
  cases h : c.has (s.logical t) with
  | true => rwa [switchedTile_of_slot h]
  | false =>
    refine ⟨(switchedTile_outEnded h).trans hu.1, fun y hy => ?_⟩
    rw [switchedTile_xfers h] at hy
    obtain ⟨x, hx, rfl⟩ := List.mem_map.mp hy
    split
    · exact xferRefused_of_ended s (show stNoSlot ≠ stOk by decide)
    · exact hu.2 x hx

end

/-! ## A resource takes its new calendar -/

/-- Where no runtime access is under way and no runtime command is queued that the calendar would refuse, only tiles are
refused. -/
theorem refuseQueued_of_tiles {s : State} {id : Nat} {c : Calendar} (haccs : s.bridge.accs = [])
    (hqueue : c.has ownOPEN = true ∨ (s.resAt id).openQ = []) :
    s.refuseQueued id c = { s with tiles := mapUpd Tile.init s.tiles (s.switchedTile id c), res := (s.refuseQueued id c).res } ∧
      ∀ k, (s.refuseQueued id c).resAt k = s.resAt k := by
  cases hopen : c.has ownOPEN with
  | true =>
    have heq : s.refuseQueued id c = { s with tiles := mapUpd Tile.init s.tiles (s.switchedTile id c) } := by
      rw [State.refuseQueued]
      exact if_pos hopen
    rw [heq]
    exact ⟨rfl, fun _ => rfl⟩
  | false =>
    have hempty : (s.resAt id).openQ = [] := hqueue.resolve_left (by rw [hopen]; exact Bool.false_ne_true)
    have heq : s.refuseQueued id c = { s with
        tiles := mapUpd Tile.init s.tiles (s.switchedTile id c)
        res := (s.setRes id { s.resAt id with openQ := [] }).res } := by
      have hbridge : ∀ f, ({ s.bridge with accs := s.bridge.accs.map f } : Bridge) = s.bridge := fun f => by
        rw [haccs, List.map_nil, ← haccs]
      rw [State.refuseQueued]
      simp only [hopen, Bool.false_eq_true, if_false]
      change List.foldl _ _ (s.resAt id).openQ = _
      rw [hempty]
      exact congrArg (fun b => { s.setRes id { s.resAt id with openQ := [] } with
        tiles := mapUpd Tile.init s.tiles (s.switchedTile id c), bridge := b }) (hbridge _)
    have hsame : ({ s.resAt id with openQ := [] } : Res) = s.resAt id := by rw [← hempty]
    rw [heq]
    refine ⟨rfl, fun k => ?_⟩
    change (s.setRes id { s.resAt id with openQ := [] }).resAt k = _
    rw [hsame]
    by_cases hk : k = id
    · rw [hk, State.resAt_setRes_self]
    · rw [State.resAt_setRes_ne _ _ _ _ hk]

end Sys2Proof.Machine
end

section
/-! The obligation on calendar sets (04 R111, R112). -/

namespace Sys2Proof.Machine

open Sys2Proof.Say

/-! ## A resource of a set has switched -/

theorem apart_of_offCalendar {g : Field} (hg : g.offCalendar = true) :
    ARB_CAL_STAT.BUSY.apart g = true ∧ ARB_CAL_STAT.STAGED.apart g = true ∧ ARB_CAL_GEN.ACTIVE.apart g = true := by
  have hbusy : ARB_CAL_STAT.BUSY.place = 32 * 0x8C + 15 ∧ ARB_CAL_STAT.BUSY.off = 0x8C := by decide
  have hstaged : ARB_CAL_STAT.STAGED.place = 32 * 0x8C + 14 := by decide
  have hactive : ARB_CAL_GEN.ACTIVE.place = 32 * 0x90 ∧ ARB_CAL_GEN.ACTIVE.off = 0x90 := by decide
  simp only [Field.offCalendar, Field.apart, hbusy, hstaged, hactive, Bool.or_eq_true, Bool.and_eq_true, bne_iff_ne,
    decide_eq_true_eq] at hg ⊢
  omega

section

variable (s : State) (a id : Nat)

/-- The registers of a page that shows a switch as ended. -/
def State.endShown (g : Nat) : State :=
  ((s.putFlag (pgArb a) ARB_CAL_STAT.BUSY false).putFlag (pgArb a) ARB_CAL_STAT.STAGED false).put (pgArb a)
    ARB_CAL_GEN.ACTIVE g

theorem endShown_frame (g : Nat) : s.endShown a g = { s with regs := (s.endShown a g).regs } := by
  rw [State.endShown, State.putFlag, State.putFlag, State.put_frame, State.put_frame, State.put_frame s]

theorem switchEnd_frame : s.switchEnd a = { s with regs := (s.switchEnd a).regs, arbs := (s.switchEnd a).arbs } := by
  have hshown : ∃ g x, s.switchEnd a = (s.endShown a g).setArb a x := ⟨_, _, rfl⟩
  obtain ⟨g, x, hend⟩ := hshown
  have hframe := endShown_frame s a g
  rw [hend]
  generalize s.endShown a g = q at *
  rw [hframe]
  rfl

theorem samePower_switchEnd : SamePower s (s.switchEnd a) := by
  refine ⟨rfl, fun q g hg => ?_⟩
  obtain ⟨hbusy, hstaged, hactive⟩ := apart_of_offCalendar hg
  rw [State.switchEnd, State.get_setArb, State.get_put_apart _ _ _ _ _ _ hactive, State.putFlag,
    State.get_put_apart _ _ _ _ _ _ hstaged, State.putFlag, State.get_put_apart _ _ _ _ _ _ hbusy]

/-- What the registers of the page show once a switch has ended (04 R112). -/
theorem switchEnd_shows : (s.switchEnd a).flag (pgArb a) ARB_CAL_STAT.BUSY = false ∧
    (s.switchEnd a).flag (pgArb a) ARB_CAL_STAT.STAGED = false ∧
    ∀ g b, (s.arb a).staged = some (g, b) → (s.switchEnd a).get (pgArb a) ARB_CAL_GEN.ACTIVE = g % 65536 := by
  refine ⟨?_, ?_, fun g b hg => ?_⟩
  · rw [State.flag, State.switchEnd, State.get_setArb, State.get_put_apart _ _ _ _ _ _ (by decide), State.putFlag,
      State.get_put_apart _ _ _ _ _ _ (by decide)]
    exact State.flag_putFlag_self _ _ _ _ (by decide)
  · rw [State.flag, State.switchEnd, State.get_setArb, State.get_put_apart _ _ _ _ _ _ (by decide)]
    exact State.flag_putFlag_self _ _ _ _ (by decide)
  · rw [State.switchEnd, State.get_setArb, State.get_put_self, hg]
    exact Nat.mod_mod g 65536

/-- The state in which a resource is no longer listed as one that has to switch. -/
def State.unlisted : State := s.setArb a { s.arb a with switching := (s.arb a).switching.filter (· != id) }

variable {s a id}

theorem switchedOne_of_last (h : (s.arb a).switching.filter (· != id) = []) :
    s.switchedOne a id = (s.unlisted a id).switchEnd a := by
  rw [State.switchedOne]
  exact if_pos (by rw [h]; rfl)

theorem switchedOne_of_more (h : (s.arb a).switching.filter (· != id) ≠ []) : s.switchedOne a id = s.unlisted a id := by
  rw [State.switchedOne]
  exact if_neg (by simpa using h)

theorem switchedOne_frame :
    s.switchedOne a id = { s with regs := (s.switchedOne a id).regs, arbs := (s.switchedOne a id).arbs } ∧
      SamePower s (s.switchedOne a id) := by
  by_cases h : (s.arb a).switching.filter (· != id) = []
  · rw [switchedOne_of_last h]
    refine ⟨?_, samePower_switchEnd (s.unlisted a id) a⟩
    rw [switchEnd_frame]
    rfl
  · rw [switchedOne_of_more h]
    exact ⟨rfl, .of_regs rfl rfl⟩

end

/-- Resource `id` takes calendar `c`; what its tiles have queued there is served under it or fails (04 R112). -/
structure TakesCalendar (s : State) (a id : Nat) (c : Calendar) (r : State) : Prop where
  frame : r = { s with regs := r.regs, tiles := mapUpd Tile.init s.tiles (s.switchedTile id c), res := r.res, arbs := r.arbs }
  power : SamePower s r
  self : r.resAt id = (s.resAt id).switchTo c
  others : ∀ k, k ≠ id → r.resAt k = s.resAt k
  last : (s.arb a).switching.filter (· != id) = [] → r.flag (pgArb a) ARB_CAL_STAT.BUSY = false ∧
    r.flag (pgArb a) ARB_CAL_STAT.STAGED = false ∧
    ∀ g b, (s.arb a).staged = some (g, b) → r.get (pgArb a) ARB_CAL_GEN.ACTIVE = g % 65536
  more : (s.arb a).switching.filter (· != id) ≠ [] → r.regs = s.regs

section

variable {s : State} {id : Nat} {c : Calendar} (hc : c ≠ [])
include hc

theorem calOf_switchTo {r : State} (h : r.resAt id = (s.resAt id).switchTo c) : r.calOf id = c := by
  rw [State.calOf, h]
  cases c with
  | nil => exact absurd rfl hc
  | cons e l => rfl

theorem takesCalendar_resSwitch (haccs : s.bridge.accs = []) (hqueue : c.has ownOPEN = true ∨ (s.resAt id).openQ = [])
    (hnext : (s.resAt id).next = some c) (hidx : (s.resAt id).idx = 0) :
    TakesCalendar s (arbOfSlot (resSlot id)) id c (s.resSwitch id) := by
  have hself : (s.setRes id ((s.resAt id).switchTo c)).resAt id = (s.resAt id).switchTo c := State.resAt_setRes_self ..
  obtain ⟨hframe, hres⟩ := refuseQueued_of_tiles (s := s.setRes id ((s.resAt id).switchTo c)) (id := id) (c := c) haccs
    (by rw [hself]; exact hqueue)
  have heq : s.resSwitch id =
      ((s.setRes id ((s.resAt id).switchTo c)).refuseQueued id c).switchedOne (arbOfSlot (resSlot id)) id := by
    simp only [State.resSwitch, hnext, hidx, ne_eq, not_true_eq_false, if_false, calOf_switchTo hc hself]
  rw [heq]
  generalize (s.setRes id ((s.resAt id).switchTo c)).refuseQueued id c = q at *
  generalize arbOfSlot (resSlot id) = a
  have harb : q.arb a = s.arb a := by rw [hframe]; rfl
  obtain ⟨hone, hpower⟩ := switchedOne_frame (s := q) (a := a) (id := id)
  have hresAt : ∀ k, (q.switchedOne a id).resAt k = q.resAt k := fun k => by rw [hone]; rfl
  refine ⟨?_, ?_, ?_, fun k hk => ?_, fun hlast => ?_, fun hmore => ?_⟩
  · rw [hone, hframe]
    rfl
  · exact (SamePower.of_regs (by rw [hframe]; rfl) (by rw [hframe]; rfl)).trans hpower
  · rw [hresAt, hres, hself]
  · rw [hresAt, hres, State.resAt_setRes_ne _ _ _ _ hk]
  · rw [← harb] at hlast
    obtain ⟨hbusy, hstaged, hgen⟩ := switchEnd_shows (q.unlisted a id) a
    rw [switchedOne_of_last hlast]
    refine ⟨hbusy, hstaged, fun g b hg => hgen g b ?_⟩
    rw [State.unlisted, State.arb_setArb_self, harb]
    exact hg
  · rw [← harb] at hmore
    rw [switchedOne_of_more hmore, hframe]
    rfl

end

theorem TakesCalendar.tile {s r : State} {a id : Nat} {c : Calendar} (h : TakesCalendar s a id c r) (t : Nat) :
    r.tile t = s.switchedTile id c t (s.tile t) := by
  rw [h.frame]
  exact mapGet_mapUpd_of _ _ _ _ switchedTile_init

/-- Such a switch leaves nothing to settle where only transfers wait. -/
theorem TakesCalendar.settle {s r : State} {a id : Nat} {c : Calendar} (h : TakesCalendar s a id c r)
    (hwaits : OnlyTransfersWait s) : r.settle = r := by
  refine settle_of_frame hwaits ?_ h.power ?_
  · have hframe := h.frame
    rw [hframe]
  · rw [h.frame]
    exact forall_mapUpd (tileSettled_init s) (tileSettled_of_waits hwaits) fun _ _ => tileSettled_switchedTile

/-! ## A set begins to switch -/

theorem calSwitch_of_listed {s : State} {a g : Nat} {blocks : List (Nat × Calendar)}
    (hidle : s.flag (pgArb a) ARB_CAL_STAT.BUSY = false) (hstaged : (s.arb a).staged = some (g, blocks))
    (hsome : blocks ≠ []) : s.calSwitch a = ((s.listNext blocks).putFlag (pgArb a) ARB_CAL_STAT.BUSY true).setArb a
      { (s.listNext blocks).arb a with
        order := blocks.map (·.1) ++ (s.resourcesOf a).filter (fun id => !(blocks.map (·.1)).contains id)
        switching := blocks.map (·.1) } := by
  have hlisted : (blocks.map (·.1)).isEmpty = false := by simpa using hsome
  rw [State.calSwitch]
  simp only [hidle, Bool.false_eq_true, if_false, hstaged, hlisted]
  rfl

/-! ## A load ends -/

/-- A page that shows a load as ended, with its reason. -/
def State.readShown (s : State) (a err : Nat) : State :=
  (s.putFlag (pgArb a) ARB_CAL_STAT.BUSY false).put (pgArb a) ARB_CAL_STAT.ERR err

theorem logFrame_readShown (s : State) (a err : Nat) : LogFrame s (s.readShown a err) := ((LogFrame.refl s).put ..).put ..

theorem flag_readShown_busy (s : State) (a err : Nat) :
    (s.readShown a err).flag (pgArb a) ARB_CAL_STAT.BUSY = false := by
  rw [State.flag, State.readShown, State.get_put_apart _ _ _ _ _ _ (by decide)]
  exact State.flag_putFlag_self _ _ _ _ (by decide)

theorem get_readShown_err (s : State) (a err : Nat) :
    (s.readShown a err).get (pgArb a) ARB_CAL_STAT.ERR = err % 256 := State.get_put_self ..

section

variable {s : State} {a x : Nat} {r : State × Nat × Nat × List (Nat × Calendar)} (hloading : (s.arb a).loading = some x)
  (hread : s.readSet a x = r)
include hloading hread

theorem calLoadDone_of_passed (hok : r.2.1 = 0) : s.calLoadDone a =
    (((r.1.readShown a r.2.1).putFlag (pgArb a) ARB_CAL_STAT.STAGED true).put (pgArb a) ARB_CAL_GEN.STAGED
      (r.2.2.1 % 65536)).setArb a
        { (r.1.readShown a r.2.1).arb a with loading := none, staged := some (r.2.2.1, r.2.2.2) } := by
  simp only [State.calLoadDone, hloading, hread, if_pos hok]
  rfl

theorem calLoadDone_of_failed (hfailed : r.2.1 ≠ 0) : s.calLoadDone a =
    ((r.1.readShown a r.2.1).putFlag (pgArb a) ARB_CAL_STAT.STAGED false).setArb a
        { (r.1.readShown a r.2.1).arb a with loading := none, staged := none } := by
  simp only [State.calLoadDone, hloading, hread, if_neg hfailed]
  rfl

end

/-- The state that a finished load leaves (04 R111), after the read has given `r`. -/
theorem calLoadDone_of_read {s : State} {a x : Nat} {r : State × Nat × Nat × List (Nat × Calendar)}
    (hloading : (s.arb a).loading = some x) (hread : s.readSet a x = r) :
    (s.calLoadDone a).flag (pgArb a) ARB_CAL_STAT.BUSY = false ∧
    (s.calLoadDone a).get (pgArb a) ARB_CAL_STAT.ERR = r.2.1 % 256 ∧
    (s.calLoadDone a).flag (pgArb a) ARB_CAL_STAT.STAGED = decide (r.2.1 = 0) ∧
    ((s.calLoadDone a).arb a).loading = none ∧
    ((s.calLoadDone a).arb a).staged = (if r.2.1 = 0 then some (r.2.2.1, r.2.2.2) else none) ∧
    (r.2.1 = 0 → (s.calLoadDone a).get (pgArb a) ARB_CAL_GEN.STAGED = r.2.2.1 % 65536) ∧
    (s.calLoadDone a).mem = r.1.mem ∧ (s.calLoadDone a).res = r.1.res := by
  by_cases hok : r.2.1 = 0
  · have hframe : LogFrame r.1 (((r.1.readShown a r.2.1).putFlag (pgArb a) ARB_CAL_STAT.STAGED true).put (pgArb a)
        ARB_CAL_GEN.STAGED (r.2.2.1 % 65536)) := ((logFrame_readShown r.1 a r.2.1).put ..).put ..
    rw [calLoadDone_of_passed hloading hread hok, if_pos hok]
    refine ⟨?_, ?_, ?_, ?_, ?_, fun _ => ?_, ?_, ?_⟩
    · rw [State.flag, State.get_setArb, State.get_put_apart _ _ _ _ _ _ (by decide), State.putFlag,
        State.get_put_apart _ _ _ _ _ _ (by decide)]
      exact flag_readShown_busy ..
    · rw [State.get_setArb, State.get_put_apart _ _ _ _ _ _ (by decide), State.putFlag,
        State.get_put_apart _ _ _ _ _ _ (by decide)]
      exact get_readShown_err ..
    · rw [State.flag, State.get_setArb, State.get_put_apart _ _ _ _ _ _ (by decide), decide_eq_true hok]
      exact State.flag_putFlag_self _ _ _ _ (by decide)
    · rw [State.arb_setArb_self]
    · rw [State.arb_setArb_self]
    · rw [State.get_setArb, State.get_put_self]
      exact Nat.mod_mod _ 65536
    · rw [State.setArb_mem]
      exact hframe.mem
    · rw [State.setArb_res]
      exact hframe.res
  · have hframe : LogFrame r.1 ((r.1.readShown a r.2.1).putFlag (pgArb a) ARB_CAL_STAT.STAGED false) :=
      (logFrame_readShown r.1 a r.2.1).put ..
    rw [calLoadDone_of_failed hloading hread hok, if_neg hok]
    refine ⟨?_, ?_, ?_, ?_, ?_, fun h => absurd h hok, ?_, ?_⟩
    · rw [State.flag, State.get_setArb, State.putFlag, State.get_put_apart _ _ _ _ _ _ (by decide)]
      exact flag_readShown_busy ..
    · rw [State.get_setArb, State.putFlag, State.get_put_apart _ _ _ _ _ _ (by decide)]
      exact get_readShown_err ..
    · rw [State.flag, State.get_setArb, decide_eq_false hok]
      exact State.flag_putFlag_self _ _ _ _ (by decide)
    · rw [State.arb_setArb_self]
    · rw [State.arb_setArb_self]
    · rw [State.setArb_mem]
      exact hframe.mem
    · rw [State.setArb_res]
      exact hframe.res

/-- Settles O30: a load by `calLoadDone_of_read`, the beginning of a switch by `State.listNext`, and a resource's own switch by
`takesCalendar_resSwitch`, which leaves nothing to settle. -/
theorem calendarSetsAreLoadedAndSwitched : Obligations.CalendarSetsAreLoadedAndSwitched := by
  unfold Obligations.CalendarSetsAreLoadedAndSwitched
  intro a s p img
  refine ⟨fun hidle => ?_, fun x hx => ?_, fun g blocks hidle hstaged hsome => ?_, fun res c => ?_⟩
  · refine ⟨_, congrArg Host.Outcome.next (if_neg (by rw [hidle]; exact Bool.false_ne_true)), ?_, State.arb_setArb_self _ _ _, rfl,
      .of_put s _ _ _, fun k hk => State.arb_setArb_ne _ _ _ _ hk⟩
    exact State.flag_putFlag_self _ _ _ _ (by decide)
  · obtain ⟨hbusy, herr, hstaged, hloading, hset, hgen, hmem, hres⟩ := calLoadDone_of_read hx rfl
    have hframe := logFrame_readSet s a x
    refine ⟨⟨_, rfl, hbusy, herr, hstaged, hloading, hset, hgen, ?_, ?_⟩, readSet_of_unreadable,
      fun hstatus hclean _ hversion hnone hlen hrsv => ?_, fun hstatus hclean _ hversion hnone => ?_⟩
    · exact hmem.trans hframe.mem
    · exact hres.trans hframe.res
    · rw [readSet_of_header hstatus hclean hnone]
      simp [hversion, hlen, hrsv]
    · rw [readSet_of_header hstatus hclean hnone]
      rw [if_pos (.inl hversion)]
      split <;> rfl
  · have hframe := listNext_frame s blocks
    refine ⟨_, congrArg Host.Outcome.next (calSwitch_of_listed hidle hstaged hsome), ?_,
      fun id c hmem hone => resAt_listNext_of_mem s hmem hone, fun id hnot => resAt_listNext_of_not_mem s hnot,
      fun id => calOf_congr (cal_listNext s blocks id), ?_, ?_, ?_, ?_⟩
    · exact State.flag_putFlag_self _ _ _ _ (by decide)
    · rw [State.arb_setArb_self]
    · rw [State.resOrder, State.arb_setArb_self]
      cases blocks with
      | nil => exact absurd rfl hsome
      | cons b l => rfl
    · rw [hframe]
      rfl
    · exact (RegsBut.of_regs (by rw [hframe])).put List.mem_cons_self _
  · intro id hwaits hqueue harb hnext hidx hc
    have haccs : s.bridge.accs = [] := hwaits.2.1
    have htakes := takesCalendar_resSwitch hc haccs hqueue hnext hidx
    rw [harb] at htakes
    refine ⟨_, congrArg Host.Outcome.next (htakes.settle hwaits), calOf_switchTo hc htakes.self, by rw [htakes.self]; rfl,
      htakes.others, by rw [htakes.frame], htakes.last, htakes.more, fun t => ?_⟩
    rw [htakes.tile]
    refine ⟨switchedTile_length, fun l hl hslot hunits => not_mem_loads_switchedTile hslot hl hunits,
      fun j x hx hok hneeds hslot => ?_⟩
    have hfails : s.xferRefusedAt id t x = true := by simp [State.xferRefusedAt, hok, hneeds]
    rw [switchedTile_xfers hslot, List.getElem?_map, hx, Option.map_some, hfails, if_pos rfl]
    rfl

end Sys2Proof.Machine
end

section
/-! The obligation on calendar slots (04 R108, R112, 05 R142, 06 R164, 07 R204). -/

namespace Sys2Proof.Machine

open Sys2Proof.Say

/-! ## Resource IDs -/

theorem resKind_resIdOf {slot kind i : Nat} (hkind : kind < 256) (hi : i < 65536) : resKind (resIdOf slot kind i) = kind := by
  unfold resKind resIdOf
  omega

theorem resInst_resIdOf {slot kind i : Nat} (hi : i < 65536) : resInst (resIdOf slot kind i) = i := by
  unfold resInst resIdOf
  omega

/-- An edge channel's number on its die. -/
theorem resInst_lt_of_channel {s : State} {a id : Nat} (hmem : id ∈ s.resourcesOf a) (hkind : resKind id = kindEMCH) :
    resInst id < 64 := by
  have hform : ∃ kind i, id = resIdOf (slotOfArb a) kind i ∧ kind < 256 ∧ i < 65536 ∧ (kind = kindEMCH → i < 64) := by
    unfold State.resourcesOf at hmem
    dsimp only at hmem
    split at hmem
    · simp only [List.mem_append, List.mem_map, List.mem_range] at hmem
      obtain (⟨i, hi, rfl⟩ | ⟨i, hi, rfl⟩) | ⟨i, hi, rfl⟩ := hmem
      · exact ⟨_, i, rfl, by decide, by omega, fun h => absurd h (by decide)⟩
      · exact ⟨_, i, rfl, by decide, by omega, fun _ => hi⟩
      · exact ⟨_, i, rfl, by decide, by omega, fun h => absurd h (by decide)⟩
    · simp only [List.mem_append, List.mem_map, List.mem_range, List.mem_flatMap, List.mem_filter, List.mem_cons,
        List.not_mem_nil, or_false] at hmem
      obtain (⟨k, ⟨hk, -⟩, rfl | rfl⟩ | ⟨i, hi, rfl⟩) | ⟨i, hi, rfl⟩ := hmem
      all_goals exact ⟨_, _, rfl, by decide, by omega, fun h => absurd h (by decide)⟩
  obtain ⟨kind, i, rfl, hkind', hi, hchannel⟩ := hform
  rw [resInst_resIdOf hi]
  rw [resKind_resIdOf hkind' hi] at hkind
  exact hchannel hkind

/-- An edge channel is the one its stack and number name. -/
theorem emchId_of_channel {id : Nat} (hinst : resInst id < 64) (hkind : resKind id = kindEMCH) :
    emchId (chanStack id) (chanNumber id) = id := by
  unfold emchId resIdOf chanStack chanNumber resSlot at *
  unfold resKind at hkind
  unfold resInst at *
  omega

/-! ## Slots that serve nobody -/

section

variable {s : State} {id : Nat}

/-- No tile has the owner code of a slot without an owner. -/
theorem physOf_ownIDLE (s : State) : s.physOf ownIDLE = none := if_neg fun h => absurd h.1 (by decide)

theorem ownerSlot_of_idle (h : (s.calOf id).owner (s.resAt id).idx = ownIDLE) : s.ownerSlot id = s := by
  simp only [State.ownerSlot, h]
  rfl

theorem ownerSlot_of_tile {t : Nat} (hcode : (s.calOf id).owner (s.resAt id).idx < 0x600)
    (hphys : s.physOf ((s.calOf id).owner (s.resAt id).idx) = some t) : s.ownerSlot id =
      (if resKind id = kindNMBG ∨ resKind id = kindSUMB then s.serveUnit id (s.tileReq t id)
        else if resKind id = kindINJ then s.serveInject t id else s.servePort t id) := by
  have hrun : ¬((s.calOf id).owner (s.resAt id).idx = ownROWE ∨ (s.calOf id).owner (s.resAt id).idx = ownREFR) := by
    unfold ownROWE ownREFR
    omega
  have hopen : (s.calOf id).owner (s.resAt id).idx ≠ ownOPEN := by unfold ownOPEN; omega
  have hidle : (s.calOf id).owner (s.resAt id).idx ≠ ownIDLE := by unfold ownIDLE; omega
  simp only [State.ownerSlot, if_neg hrun, if_neg hopen, if_neg hidle, State.serveTile, hphys]

section

variable {t : Nat} (hsent : ∀ x ∈ (s.tile t).xfers, x.inject = 0 ∧ x.todo = [])
include hsent

theorem tileReq_of_empty (hloads : (s.tile t).loads = []) : s.tileReq t id = none := by
  have hxfers : (s.tile t).moving.filterMap (fun x => (x.todoAt id).head?.map (fun a => (x.id, UnitReq.xfer t x a))) = [] :=
    List.filterMap_eq_nil_iff.mpr fun x hx => by
      rw [Xfer.todoAt, (hsent x (List.mem_filter.mp hx).1).2]
      rfl
  simp only [State.tileReq, hloads, hxfers]
  rfl

theorem serveInject_of_empty : s.serveInject t id = s := by
  have hnone : (s.tile t).xfers.find? (fun x => decide (0 < x.inject)) = none :=
    List.find?_eq_none.mpr fun x hx => by rw [(hsent x hx).1]; decide
  rw [State.serveInject]
  split
  · rfl
  · rw [hnone]

theorem servePort_of_empty : s.servePort t id = s := by
  have hnone : (s.tile t).xfers.find? (fun x =>
      x.kind == .rowc && x.inject == 0 && !x.todo.isEmpty && s.portOf x.target == some id) = none :=
    List.find?_eq_none.mpr fun x hx => by rw [(hsent x hx).2]; simp
  rw [State.servePort]
  simp only [hnone, ite_self]

end

/-! ## One slot passes -/

theorem resAt_slotPass_self : (s.slotPass id).resAt id = Passed s id (s.resAt id) := State.resAt_setRes_self ..

theorem resAt_slotPass_ne {k : Nat} (hk : k ≠ id) : (s.slotPass id).resAt k = s.resAt k := State.resAt_setRes_ne _ _ _ _ hk

theorem onlyRes_slotPass (s : State) (id : Nat) : OnlyRes id s (s.slotPass id) := ⟨rfl, fun _ => resAt_slotPass_ne⟩

theorem oneSlot_of_kind (hkind : resKind id ≠ kindEMCH) : s.oneSlot id = (s.ownerSlot id).slotPass id := by
  rw [State.oneSlot, if_neg hkind]

/-- A channel's slot without an owner and without a checker. -/
theorem oneSlot_of_idle_channel (hkind : resKind id = kindEMCH) (hinst : resInst id < 64)
    (hidle : (s.calOf id).owner (s.resAt id).idx = ownIDLE) (hcheck : s.checking (chanStack id) (chanNumber id) = false) :
    s.oneSlot id = s.slotPass id := by
  have hopen : ownIDLE ≠ ownOPEN := by decide
  have hclient : s.slotClient id = none := by
    simp only [State.slotClient, hcheck, hidle, Bool.false_eq_true, if_false, if_neg hopen, physOf_ownIDLE]
    rfl
  have hvisit : s.bankVisit (chanStack id) (chanNumber id) = s := by
    simp only [State.bankVisit, emchId_of_channel hinst hkind, hclient, ite_self]
  rw [State.oneSlot, if_pos hkind]
  simp only [State.edgeSlot, hcheck, Bool.false_eq_true, if_false, hvisit, hidle, if_neg hopen, hclient]

/-- No channel of the die is behind. -/
theorem catchUp_of_ahead {b e n : Nat} (h : ∀ i < n, e < (s.resAt (resIdOf b kindEMCH i)).slots) : s.catchUp b e n = s := by
  have hfold : ∀ l : List Nat, (∀ i ∈ l, i < n) → l.foldl (fun s i =>
      if (s.resAt (resIdOf b kindEMCH i)).slots ≤ e then s.oneSlot (resIdOf b kindEMCH i) else s) s = s := by
    intro l
    induction l with
    | nil => exact fun _ => rfl
    | cons i l ih =>
      intro hl
      obtain ⟨hi, hl⟩ := List.forall_mem_cons.mp hl
      rw [List.foldl_cons, if_neg (Nat.not_le.mpr (h i hi))]
      exact ih hl
  exact hfold (List.range n) fun i => List.mem_range.mp

theorem channelSlot_of_turn (hturn : (s.resAt id).slots ≤ s.emclkOf (resSlot id))
    (hahead : ∀ i < resInst id, s.emclkOf (resSlot id) < (s.resAt (resIdOf (resSlot id) kindEMCH i)).slots) :
    s.channelSlot id = s.oneSlot id := by
  simp only [State.channelSlot, if_pos hturn, catchUp_of_ahead hahead]

section

variable (hmem : id ∈ s.resourcesOf (arbOfSlot (resSlot id))) (hruns : s.slotRuns id = true)
include hmem hruns

theorem calendarSlot_of_kind (hkind : resKind id ≠ kindEMCH) : s.calendarSlot id = s.oneSlot id := by
  simp [State.calendarSlot, hmem, hruns, hkind]

theorem calendarSlot_of_channel (hkind : resKind id = kindEMCH) : s.calendarSlot id = s.channelSlot id := by
  simp [State.calendarSlot, hmem, hruns, hkind]

end

theorem calendarSlot_of_still (h : id ∉ s.resourcesOf (arbOfSlot (resSlot id)) ∨ s.slotRuns id = false) :
    s.calendarSlot id = s := by
  rw [State.calendarSlot]
  exact if_pos (by simpa using h)

end

/-! ## Slots as commands -/

section

variable {s : State} {res : ResId} (hgood : s.boot.damaged = []) (hwaits : OnlyTransfersWait s)
include hgood hwaits

theorem exec_calendarSlot {r : State} (h : s.calendarSlot res.toNat = r)
    (hframe : r = { s with tiles := r.tiles, res := r.res }) (htiles : ∀ e ∈ r.tiles, TileSettled s e.2) :
    exec (.calendarSlot res) s = .next r := by
  change Host.Outcome.next ((s.meetCopies fun _ => true).calendarSlot res.toNat).settle = _
  rw [State.meetCopies_nil hgood, h, settle_of_frame hwaits (by rw [hframe]) (.of_regs (by rw [hframe]) (by rw [hframe])) htiles]

/-- A slot that serves nobody passes. -/
theorem unused_of_pass (h : s.calendarSlot res.toNat = s.slotPass res.toNat) :
    Gives (.calendarSlot res) s (fun s' => OnlyRes res.toNat s s' ∧
      s'.resAt res.toNat = Passed s res.toNat (s.resAt res.toNat)) :=
  ⟨_, exec_calendarSlot hgood hwaits h rfl (tileSettled_of_waits hwaits), onlyRes_slotPass s _, resAt_slotPass_self⟩

end

/-! ## A tile's slot of its drop -/

/-- A transfer of tile `t` after transfer `x` has sent one flit more: `x` fails with its last one where a resource it needs
gives its tile no slot (04 R98). -/
def State.flitSent (s : State) (t : Nat) (x y : Xfer) : Xfer :=
  if y.id = x.id then
    (if y.inject = 1 ∧ (∃ k ∈ s.xferNeeds x, s.ownsSlot t k = false) then y.fail stNoSlot
      else { y with inject := y.inject - 1 })
  else y

/-- A tile whose transfer `x` has sent one flit more. -/
def State.tileSent (s : State) (t : Nat) (x : Xfer) (u : Tile) : Tile := { u with xfers := u.xfers.map (s.flitSent t x) }

section

variable {s : State} {t id : Nat} {x : Xfer}

theorem serveInject_of_flit (hdrop : s.injOf t = id) (hfirst : (s.tile t).xfers.find? (fun x => decide (0 < x.inject)) = some x) :
    s.serveInject t id = s.modTile t (s.tileSent t x) := by
  have hslots : ∀ y : Xfer, (y.inject = 1 ∧ (!(s.xferNeeds x).all (s.ownsSlot t)) = true) ↔
      (y.inject = 1 ∧ ∃ k ∈ s.xferNeeds x, s.ownsSlot t k = false) := by simp
  simp only [State.serveInject, hdrop, ne_eq, not_true_eq_false, if_false, hfirst, State.modXfer, hslots]
  rfl

theorem xferRefused_flitSent {y : Xfer} (h : s.xferRefused y = false) : s.xferRefused (s.flitSent t x y) = false := by
  unfold State.flitSent
  split
  · split
    · exact xferRefused_of_ended s (show stNoSlot ≠ stOk by decide)
    · exact h
  · exact h

theorem tileSettled_tileSent {u : Tile} (h : TileSettled s u) : TileSettled s (s.tileSent t x u) := by
  obtain ⟨hout, hxfers⟩ := h
  refine ⟨hout, fun y hy => ?_⟩
  obtain ⟨z, hz, rfl⟩ := List.mem_map.mp hy
  exact xferRefused_flitSent (hxfers z hz)

end

/-- Settles O28: a slot of any kind but an edge channel's is `State.ownerSlot` and the pass; an edge channel's, where no lower
one is behind, is its own slot alone. -/
theorem calendarSlotsServeTheirOwner : Obligations.CalendarSlotsServeTheirOwner := by
  unfold Obligations.CalendarSlotsServeTheirOwner
  intro res s id o unused hgood hwaits
  refine ⟨fun hmem hruns => ⟨fun hkind => ?_, fun hkind hidle hcheck hturn hahead => ?_⟩, fun hstill => ?_⟩
  · have hslot : s.calendarSlot id = (s.ownerSlot id).slotPass id := by
      rw [calendarSlot_of_kind hmem hruns hkind, oneSlot_of_kind hkind]
    refine ⟨fun hidle => ?_, fun t hcode hphys => ⟨fun hloads hsent => ?_, fun x hinj hdrop hfirst => ?_⟩⟩
    · exact unused_of_pass hgood hwaits (by rw [hslot, ownerSlot_of_idle hidle])
    · refine unused_of_pass hgood hwaits (hslot.trans ?_)
      rw [ownerSlot_of_tile hcode hphys, tileReq_of_empty hsent hloads, serveInject_of_empty hsent,
        servePort_of_empty hsent, ite_self, State.serveUnit, ite_self]
    · have hserved : s.ownerSlot id = s.modTile t (s.tileSent t x) := by
        rw [ownerSlot_of_tile hcode hphys, hinj, if_neg (by decide), if_pos rfl, serveInject_of_flit hdrop hfirst]
      have hsettled : ∀ e ∈ (s.modTile t (s.tileSent t x)).tiles, TileSettled s e.2 :=
        forall_mapSet (tileSettled_of_waits hwaits) (tileSettled_tileSent (tileSettled_tile hwaits t)) t
      exact ⟨(s.modTile t (s.tileSent t x)).slotPass id, exec_calendarSlot hgood hwaits (by rw [hslot, hserved]) rfl hsettled,
        rfl, fun k hk => State.tile_modTile_ne s t k _ hk, resAt_slotPass_self, fun _ => resAt_slotPass_ne,
        State.tile_modTile_self s t _⟩
  · refine unused_of_pass hgood hwaits ?_
    rw [calendarSlot_of_channel hmem hruns hkind, channelSlot_of_turn hturn hahead,
      oneSlot_of_idle_channel hkind (resInst_lt_of_channel hmem hkind) hidle hcheck]
  · exact exec_calendarSlot hgood hwaits (calendarSlot_of_still hstill) rfl (tileSettled_of_waits hwaits)

end Sys2Proof.Machine
end

section
/-! Symbol errors in a sector (05 R133, R134): the syndromes of a word are sums of powers of the element x over its wrong
symbols, and four of them determine up to four wrong symbols. -/

namespace Sys2Proof.Machine

/-! ## Multiplication by powers of x -/

theorem byte_zero_xor (a : Byte) : 0 ^^^ a = a := BitVec.zero_xor

theorem byte_xor_self (a : Byte) : a ^^^ a = 0 := BitVec.xor_self

theorem byte_xor_cancel (a b : Byte) : a ^^^ b ^^^ b = a := by rw [BitVec.xor_assoc, byte_xor_self, byte_xor_zero]

theorem byte_xor_eq_zero_iff {a b : Byte} : a ^^^ b = 0 ↔ a = b :=
  ⟨fun h => by rw [← byte_xor_cancel a b, h, byte_zero_xor], fun h => by rw [h, byte_xor_self]⟩

theorem iterate_gfDouble_xor (n : Nat) (a b : Byte) : gfDouble^[n] (a ^^^ b) = gfDouble^[n] a ^^^ gfDouble^[n] b := by
  induction n generalizing a b with
  | zero => rfl
  | succ n ih => rw [Function.iterate_succ_apply, Function.iterate_succ_apply, Function.iterate_succ_apply, gfDouble_xor, ih]

theorem iterate_gfDouble_zero (n : Nat) : gfDouble^[n] 0 = 0 := Function.iterate_fixed rfl n

/-- Two additive maps of bytes are equal where they agree on the bits. -/
theorem additive_ext {f g : Byte → Byte} (hf : ∀ a b, f (a ^^^ b) = f a ^^^ f b) (hg : ∀ a b, g (a ^^^ b) = g a ^^^ g b)
    (hbits : ∀ i ∈ List.range 8, f (BitVec.twoPow 8 i) = g (BitVec.twoPow 8 i)) (b : Byte) : f b = g b := by
  have hzero : ∀ {f : Byte → Byte}, (∀ a b, f (a ^^^ b) = f a ^^^ f b) → f 0 = 0 := fun {f} hf => by
    have h := hf 0 0
    rwa [byte_xor_self, byte_xor_self] at h
  have hfold : ∀ l ⊆ List.range 8, f (l.foldr (fun i r => if b.getLsbD i then BitVec.twoPow 8 i ^^^ r else r) 0) =
      g (l.foldr (fun i r => if b.getLsbD i then BitVec.twoPow 8 i ^^^ r else r) 0) := by
    intro l hl
    induction l with
    | nil => exact (hzero hf).trans (hzero hg).symm
    | cons i l ih =>
      obtain ⟨hi, hl⟩ := List.cons_subset.mp hl
      rw [List.foldr_cons]
      split
      · rw [hf, hg, hbits i hi, ih hl]
      · exact ih hl
  rw [byte_eq_bits b]
  exact hfold _ (List.Subset.refl _)

/-- Multiplication by the `j`th power of x. -/
theorem gfMul_power {j : Nat} (hj : j < 36) (a : Byte) : gfMul a (gfDouble^[j] 1) = gfDouble^[j] a := by
  have hbits : ∀ j < 36, ∀ i ∈ List.range 8,
      gfMul (BitVec.twoPow 8 i) (gfDouble^[j] 1) = gfDouble^[j] (BitVec.twoPow 8 i) := by
    decide +kernel
  exact additive_ext (f := (gfMul · _)) (fun a b => gfMul_xor a b _) (iterate_gfDouble_xor j) (hbits j hj) a

theorem gfDouble_injective : Function.Injective gfDouble := by
  have hzero : ∀ a : Byte, gfDouble a = 0 → a = 0 := by decide +kernel
  intro a b h
  exact byte_xor_eq_zero_iff.mp (hzero _ (by rw [gfDouble_xor, h, byte_xor_self]))

theorem iterate_gfDouble_255 (a : Byte) : gfDouble^[255] a = a := by
  have hbits : ∀ i ∈ List.range 8, gfDouble^[255] (BitVec.twoPow 8 i) = BitVec.twoPow 8 i := by decide +kernel
  exact additive_ext (g := id) (iterate_gfDouble_xor 255) (fun _ _ => rfl) hbits a

/-- The order of x is 255: no smaller power below 36 fixes a byte other than 0, as it would be fixed by x^15 or by x^17. -/
theorem eq_zero_of_iterate_gfDouble_eq {n : Nat} (hn : n < 36) (hpos : n ≠ 0) {a : Byte} (h : gfDouble^[n] a = a) :
    a = 0 := by
  have hgcd : ∀ n < 36, n ≠ 0 → n.gcd 255 ∣ 15 ∨ n.gcd 255 ∣ 17 := by decide
  have h15 : ∀ a : Byte, gfDouble^[15] a = a → a = 0 := by decide +kernel
  have h17 : ∀ a : Byte, gfDouble^[17] a = a → a = 0 := by decide +kernel
  have hper : Function.IsPeriodicPt gfDouble (n.gcd 255) a :=
    Function.IsPeriodicPt.gcd (show gfDouble^[n] a = a from h) (iterate_gfDouble_255 a)
  rcases hgcd n hn hpos with hdvd | hdvd
  · exact h15 a (hper.trans_dvd hdvd)
  · exact h17 a (hper.trans_dvd hdvd)

/-- Different powers of x below 36 take a byte other than 0 to different bytes. -/
theorem eq_zero_of_iterate_gfDouble_eq_iterate {m n : Nat} (hm : m < 36) (hn : n < 36) (hne : m ≠ n) {a : Byte}
    (h : gfDouble^[m] a = gfDouble^[n] a) : a = 0 := by
  wlog hlt : m < n generalizing m n with H
  · exact H hn hm hne.symm h.symm (by omega)
  · refine eq_zero_of_iterate_gfDouble_eq (n := n - m) (by omega) (by omega) (gfDouble_injective.iterate m ?_)
    rw [← Function.iterate_add_apply, Nat.add_sub_cancel' hlt.le, h]

/-! ## Syndromes as sums over the symbols -/

/-- The sum over the positions `l` of the symbols `v`, each times the `k`th power of its position's locator x^(35 - i). -/
def errorSum (k : Nat) (l : List Nat) (v : Nat → Byte) : Byte :=
  l.foldr (fun i r => gfDouble^[k * (35 - i)] (v i) ^^^ r) 0

/-- The symbols of a word. -/
def symbols (w : List Byte) (i : Nat) : Byte := w.getD i 0

theorem errorSum_cons (k i : Nat) (l : List Nat) (v : Nat → Byte) :
    errorSum k (i :: l) v = gfDouble^[k * (35 - i)] (v i) ^^^ errorSum k l v := rfl

theorem errorSum_xor (k : Nat) (l : List Nat) (u v : Nat → Byte) :
    errorSum k l (fun i => u i ^^^ v i) = errorSum k l u ^^^ errorSum k l v := by
  induction l with
  | nil => exact (byte_xor_self 0).symm
  | cons i l ih =>
    rw [errorSum_cons, errorSum_cons, errorSum_cons, ih, iterate_gfDouble_xor]
    ac_rfl

theorem errorSum_congr {k : Nat} {l : List Nat} {u v : Nat → Byte} (h : ∀ i ∈ l, u i = v i) :
    errorSum k l u = errorSum k l v := by
  induction l with
  | nil => rfl
  | cons i l ih =>
    obtain ⟨hi, hl⟩ := List.forall_mem_cons.mp h
    rw [errorSum_cons, errorSum_cons, hi, ih hl]

/-- Symbols that are 0 add nothing. -/
theorem errorSum_filter (k : Nat) (l : List Nat) (v : Nat → Byte) :
    errorSum k (l.filter (fun i => v i != 0)) v = errorSum k l v := by
  induction l with
  | nil => rfl
  | cons i l ih =>
    by_cases hi : v i = 0
    · rw [List.filter_cons_of_neg (by simp [hi]), ih, errorSum_cons, hi, iterate_gfDouble_zero, byte_zero_xor]
    · rw [List.filter_cons_of_pos (by simpa using hi), errorSum_cons, errorSum_cons, ih]

theorem errorSum_eq_zero {k : Nat} {l : List Nat} {v : Nat → Byte} (h : ∀ i ∈ l, v i = 0) : errorSum k l v = 0 := by
  rw [← errorSum_filter, List.filter_eq_nil_iff.mpr fun i hi => by simp [h i hi]]
  rfl

/-- One step of elimination: the next sum less x^(35 - m) times this one. -/
theorem errorSum_eliminate (k m : Nat) (l : List Nat) (v : Nat → Byte) :
    errorSum k l (fun i => gfDouble^[35 - i] (v i) ^^^ gfDouble^[35 - m] (v i)) =
      errorSum (k + 1) l v ^^^ gfDouble^[35 - m] (errorSum k l v) := by
  induction l with
  | nil => exact (iterate_gfDouble_zero _).symm.trans (byte_zero_xor _).symm
  | cons i l ih =>
    have hnext : gfDouble^[k * (35 - i)] (gfDouble^[35 - i] (v i)) = gfDouble^[(k + 1) * (35 - i)] (v i) := by
      rw [← Function.iterate_add_apply, Nat.succ_mul]
    have hswap : gfDouble^[k * (35 - i)] (gfDouble^[35 - m] (v i)) = gfDouble^[35 - m] (gfDouble^[k * (35 - i)] (v i)) := by
      rw [← Function.iterate_add_apply, Nat.add_comm, Function.iterate_add_apply]
    rw [errorSum_cons, errorSum_cons, errorSum_cons, ih, iterate_gfDouble_xor, iterate_gfDouble_xor, hnext, hswap]
    ac_rfl

/-- As many sums as positions determine the symbols there. -/
theorem symbols_zero_of_errorSum {l : List Nat} {v : Nat → Byte} (hnodup : l.Nodup) (hl : ∀ i ∈ l, i < 36)
    (h : ∀ k < l.length, errorSum k l v = 0) : ∀ i ∈ l, v i = 0 := by
  induction l generalizing v with
  | nil => simp
  | cons m l ih =>
    obtain ⟨hm, hnodup⟩ := List.nodup_cons.mp hnodup
    obtain ⟨hm36, hl36⟩ := List.forall_mem_cons.mp hl
    have hrest : ∀ i ∈ l, v i = 0 := by
      have helim : ∀ k < l.length, errorSum k l (fun i => gfDouble^[35 - i] (v i) ^^^ gfDouble^[35 - m] (v i)) = 0 := by
        intro k hk
        have hstep := errorSum_eliminate k m (m :: l) v
        rwa [h k (by simp; omega), h (k + 1) (by simpa using hk), iterate_gfDouble_zero, byte_xor_zero, errorSum_cons,
          byte_xor_self, iterate_gfDouble_zero, byte_zero_xor] at hstep
      intro i hi
      have hi36 := hl36 i hi
      have hne : i ≠ m := fun him => hm (him ▸ hi)
      exact eq_zero_of_iterate_gfDouble_eq_iterate (m := 35 - i) (n := 35 - m) (by omega) (by omega) (by omega)
        (byte_xor_eq_zero_iff.mp (ih hnodup hl36 helim i hi))
    have hfirst : v m = 0 := by
      have h0 := h 0 (by simp)
      rwa [errorSum_cons, errorSum_eq_zero hrest, byte_xor_zero, Nat.zero_mul] at h0
    exact List.forall_mem_cons.mpr ⟨hfirst, hrest⟩

theorem gfEval_eq_errorSum {k : Nat} (hk : k < 36) {w : List Byte} (h : w.length = 36) :
    gfEval (gfDouble^[k] 1) w = errorSum k (List.range 36) (symbols w) := by
  have hfold : ∀ (w : List Byte) (r : Byte), w.foldl (fun r c => gfMul r (gfDouble^[k] 1) ^^^ c) r =
      gfDouble^[k * w.length] r ^^^
        (List.range w.length).foldr (fun i t => gfDouble^[k * (w.length - 1 - i)] (w.getD i 0) ^^^ t) 0 := by
    intro w
    induction w with
    | nil => exact fun r => (byte_xor_zero r).symm
    | cons c w ih =>
      intro r
      have hexp : ∀ i, w.length + 1 - 1 - i.succ = w.length - 1 - i := fun i => by omega
      have hmul : gfDouble^[k * w.length] (gfDouble^[k] r) = gfDouble^[k * (w.length + 1)] r := by
        rw [← Function.iterate_add_apply, Nat.mul_succ]
      rw [List.foldl_cons, ih, gfMul_power hk, iterate_gfDouble_xor, hmul, List.length_cons, List.range_succ_eq_map,
        List.foldr_cons, List.foldr_map, BitVec.xor_assoc]
      simp only [hexp, List.getD_cons_zero, List.getD_cons_succ]
      rfl
  have hsum := hfold w 0
  rw [iterate_gfDouble_zero, byte_zero_xor, h] at hsum
  exact hsum

/-- The four sums that are a word's syndromes. -/
def errorSums (v : Nat → Byte) : List Byte := (List.range 4).map (fun k => errorSum k (List.range 36) v)

theorem syndromes_eq {w : List Byte} (h : w.length = 36) : syndromes w = errorSums (symbols w) := by
  change [gfEval (gfDouble^[0] 1) w, gfEval (gfDouble^[1] 1) w, gfEval (gfDouble^[2] 1) w, gfEval (gfDouble^[3] 1) w] = _
  rw [gfEval_eq_errorSum (by decide) h, gfEval_eq_errorSum (by decide) h, gfEval_eq_errorSum (by decide) h,
    gfEval_eq_errorSum (by decide) h]
  rfl

theorem errorSums_xor (u v : Nat → Byte) : errorSums (fun i => u i ^^^ v i) = xorBytes (errorSums u) (errorSums v) := by
  rw [errorSums, List.map_congr_left fun k _ => errorSum_xor k _ u v]
  rfl

theorem errorSums_congr {u v : Nat → Byte} (h : ∀ i < 36, u i = v i) : errorSums u = errorSums v :=
  List.map_congr_left fun _ _ => errorSum_congr fun i hi => h i (List.mem_range.mp hi)

/-- The distance of the code: where all syndromes are 0, no one to four symbols are wrong. -/
theorem symbols_zero_of_errorSums {v : Nat → Byte} (h : errorSums v = [0, 0, 0, 0])
    (hcount : (List.range 36).countP (fun i => v i != 0) ≤ 4) : ∀ i < 36, v i = 0 := by
  have hsum : ∀ k < 4, errorSum k (List.range 36) v = 0 := by
    have hmem : ∀ s ∈ errorSums v, s = 0 := by simp [h]
    exact fun k hk => hmem _ (List.mem_map_of_mem (List.mem_range.mpr hk))
  have hwrong := symbols_zero_of_errorSum (l := (List.range 36).filter (fun i => v i != 0)) (v := v)
    (List.nodup_range.filter _) (fun i hi => List.mem_range.mp (List.mem_of_mem_filter hi)) fun k hk => by
      rw [errorSum_filter]
      exact hsum k (by rw [← List.countP_eq_length_filter] at hk; omega)
  intro i hi
  by_contra hne
  exact hne (hwrong i (List.mem_filter.mpr ⟨List.mem_range.mpr hi, by simpa using hne⟩))

/-! ## One wrong symbol -/

/-- The value `e` at position `p`, and 0 elsewhere. -/
def oneError (p : Nat) (e : Byte) (i : Nat) : Byte := if i = p then e else 0

theorem errorSum_oneError_of_not_mem {k p : Nat} {l : List Nat} (e : Byte) (h : p ∉ l) : errorSum k l (oneError p e) = 0 :=
  errorSum_eq_zero fun _ hi => if_neg (ne_of_mem_of_not_mem hi h)

theorem errorSum_oneError (k : Nat) {p : Nat} {l : List Nat} (e : Byte) (hnodup : l.Nodup) (hp : p ∈ l) :
    errorSum k l (oneError p e) = gfDouble^[k * (35 - p)] e := by
  induction l with
  | nil => cases hp
  | cons i l ih =>
    obtain ⟨hi, hnodup⟩ := List.nodup_cons.mp hnodup
    rw [errorSum_cons, oneError]
    by_cases hip : i = p
    · subst hip
      rw [if_pos rfl, errorSum_oneError_of_not_mem e hi, byte_xor_zero]
    · rw [if_neg hip, iterate_gfDouble_zero, byte_zero_xor, ih hnodup ((List.mem_cons.mp hp).resolve_left (Ne.symm hip))]

theorem errorSums_oneError {p : Nat} (hp : p < 36) (e : Byte) : errorSums (oneError p e) =
    [e, gfDouble^[35 - p] e, gfDouble^[2 * (35 - p)] e, gfDouble^[3 * (35 - p)] e] := by
  have hsum : ∀ k, errorSum k (List.range 36) (oneError p e) = gfDouble^[k * (35 - p)] e := fun k =>
    errorSum_oneError k e List.nodup_range (List.mem_range.mpr hp)
  change [errorSum 0 _ _, errorSum 1 _ _, errorSum 2 _ _, errorSum 3 _ _] = _
  rw [hsum, hsum, hsum, hsum, Nat.zero_mul, Nat.one_mul]
  rfl

/-- Whether four syndromes are those of one error with locator x^j. -/
def locates (s0 s1 s2 s3 : Byte) (j : Nat) : Bool :=
  gfMul s0 (gfDouble^[j] 1) = s1 && gfMul s1 (gfDouble^[j] 1) = s2 && gfMul s2 (gfDouble^[j] 1) = s3

theorem singleError_eq_find (s0 s1 s2 s3 : Byte) : singleError [s0, s1, s2, s3] =
    if s0 = 0 then none else ((List.range 36).find? (locates s0 s1 s2 s3)).map (fun j => (35 - j, s0)) := by
  have hpower : ∀ j, gfMul (gfDouble^[j] 1) 2#8 = gfDouble^[j + 1] 1 := fun j =>
    (gfMul_power (j := 1) (by decide) _).trans (Function.iterate_succ_apply' gfDouble j 1).symm
  have hfold : ∀ n, (List.range n).foldl (fun (r : Option (Nat × Byte) × Byte) j =>
      (if r.1.isNone && gfMul s0 r.2 = s1 && gfMul s1 r.2 = s2 && gfMul s2 r.2 = s3 then some (35 - j, s0) else r.1,
        gfMul r.2 2#8)) (none, 1#8) =
      (((List.range n).find? (locates s0 s1 s2 s3)).map (fun j => (35 - j, s0)), gfDouble^[n] 1) := by
    intro n
    induction n with
    | zero => rfl
    | succ n ih =>
      rw [List.range_succ, List.foldl_append, ih, List.foldl_cons, List.foldl_nil, hpower, List.find?_append]
      cases (List.range n).find? (locates s0 s1 s2 s3) with
      | some j => simp
      | none =>
        by_cases h : locates s0 s1 s2 s3 n = true
        · rw [List.find?_cons_of_pos h, if_pos (by simpa [locates, and_assoc] using h)]
          rfl
        · rw [List.find?_cons_of_neg h, if_neg (by simpa [locates, and_assoc] using h)]
          rfl
  rw [singleError, hfold 36]

theorem locates_iff {s0 s1 s2 s3 : Byte} {p : Nat} (hp : p < 36) :
    locates s0 s1 s2 s3 (35 - p) = true ↔ [s0, s1, s2, s3] = errorSums (oneError p s0) := by
  have htwo : ∀ a : Byte, gfDouble^[2 * (35 - p)] a = gfDouble^[35 - p] (gfDouble^[35 - p] a) := fun a => by
    rw [← Function.iterate_add_apply, Nat.two_mul]
  have hthree : ∀ a : Byte, gfDouble^[3 * (35 - p)] a = gfDouble^[35 - p] (gfDouble^[2 * (35 - p)] a) := fun a => by
    rw [← Function.iterate_add_apply, Nat.succ_mul, Nat.add_comm]
  rw [errorSums_oneError hp, hthree, htwo, locates, gfMul_power (by omega), gfMul_power (by omega), gfMul_power (by omega)]
  simp only [Bool.and_eq_true, decide_eq_true_eq, List.cons.injEq, and_true, true_and, and_assoc]
  constructor
  · rintro ⟨rfl, rfl, rfl⟩
    exact ⟨rfl, rfl, rfl⟩
  · rintro ⟨rfl, rfl, rfl⟩
    exact ⟨rfl, rfl, rfl⟩

/-- `singleError` finds the one error with these syndromes, and only that (05 R133). -/
theorem singleError_eq_some_iff {s : List Byte} (h : s.length = 4) {p : Nat} {e : Byte} :
    singleError s = some (p, e) ↔ p < 36 ∧ e ≠ 0 ∧ s = errorSums (oneError p e) := by
  obtain ⟨s0, s1, s2, s3, rfl⟩ : ∃ a b c d, s = [a, b, c, d] := by
    match s, h with | [a, b, c, d], _ => exact ⟨a, b, c, d, rfl⟩
  rw [singleError_eq_find]
  constructor
  · intro hsome
    split at hsome
    · cases hsome
    · obtain ⟨j, hj, hpe⟩ := Option.map_eq_some_iff.mp hsome
      obtain ⟨rfl, rfl⟩ := Prod.mk.inj hpe
      have hj36 := List.mem_range.mp (List.mem_of_find?_eq_some hj)
      refine ⟨by omega, ‹_›, (locates_iff (by omega)).mp ?_⟩
      rw [Nat.sub_sub_self (by omega)]
      exact List.find?_some hj
  · rintro ⟨hp, he, hs⟩
    obtain rfl : s0 = e := by
      rw [errorSums_oneError hp] at hs
      exact (List.cons.inj hs).1
    have hloc : locates s0 s1 s2 s3 (35 - p) = true := (locates_iff hp).mpr hs
    obtain ⟨j, hj⟩ := Option.isSome_iff_exists.mp
      (List.find?_isSome (xs := List.range 36).mpr ⟨35 - p, List.mem_range.mpr (by omega), hloc⟩)
    have hj36 := List.mem_range.mp (List.mem_of_find?_eq_some hj)
    have hsame : j = 35 - p := by
      have hj' := (locates_iff (p := 35 - j) (by omega)).mp (by
        rw [Nat.sub_sub_self (Nat.le_of_lt_succ hj36)]; exact List.find?_some hj)
      rw [hs, errorSums_oneError hp, errorSums_oneError (p := 35 - j) (by omega),
        Nat.sub_sub_self (by omega)] at hj'
      by_contra hne
      exact he (eq_zero_of_iterate_gfDouble_eq_iterate hj36 (by omega) hne (List.cons.inj (List.cons.inj hj').2).1.symm)
    rw [if_neg he, hj, hsame, Option.map_some, Nat.sub_sub_self (by omega)]

theorem length_errorSums (v : Nat → Byte) : (errorSums v).length = 4 := rfl

theorem singleError_oneError {p : Nat} {e : Byte} (hp : p < 36) (he : e ≠ 0) :
    singleError (errorSums (oneError p e)) = some (p, e) :=
  (singleError_eq_some_iff (length_errorSums _)).mpr ⟨hp, he, rfl⟩

theorem errorSums_oneError_ne_zero {p : Nat} {e : Byte} (hp : p < 36) (he : e ≠ 0) :
    errorSums (oneError p e) ≠ [0, 0, 0, 0] := by
  rw [errorSums_oneError hp]
  exact fun h => he (List.cons.inj h).1

/-! ## The poison mask -/

theorem poisonSyndromes_eq : poisonSyndromes = [0, 108#8, 94#8, 240#8] := by decide +kernel

/-- The `k`th powers of two locators, as they act on one symbol. -/
theorem xor_powers_succ (k a b : Nat) (e : Byte) :
    gfDouble^[(k + 1) * a] e ^^^ gfDouble^[(k + 1) * b] e =
      gfDouble^[a] (gfDouble^[k * a] e ^^^ gfDouble^[k * b] e) ^^^ gfDouble^[k * b] (gfDouble^[a] e ^^^ gfDouble^[b] e) := by
  have hswap : gfDouble^[a] (gfDouble^[k * b] e) = gfDouble^[k * b] (gfDouble^[a] e) := by
    rw [← Function.iterate_add_apply, Nat.add_comm, Function.iterate_add_apply]
  rw [iterate_gfDouble_xor, iterate_gfDouble_xor, hswap, ← Function.iterate_add_apply, ← Function.iterate_add_apply _ _ b,
    Nat.succ_mul, Nat.succ_mul, Nat.add_comm a, BitVec.xor_assoc, ← BitVec.xor_assoc (gfDouble^[k * b] (gfDouble^[a] e)),
    byte_xor_self, byte_zero_xor]

/-- No two symbols have the poison mask's syndromes: the mask and a wrong symbol never look like another wrong symbol. -/
theorem singleError_poisoned_oneError {p : Nat} {e : Byte} (hp : p < 36) :
    singleError (xorBytes (errorSums (oneError p e)) poisonSyndromes) = none := by
  have hpairs : ∀ a < 36, ∀ b < 36, gfDouble^[a] 108#8 ^^^ gfDouble^[b] 108#8 = 94#8 →
      gfDouble^[a] 94#8 ^^^ gfDouble^[2 * b] 108#8 ≠ 240#8 := by decide +kernel
  have hmove : ∀ {x y z : Byte}, x ^^^ y = z → x ^^^ z = y := by
    rintro x y _ rfl
    rw [← BitVec.xor_assoc, byte_xor_self, byte_zero_xor]
  rw [Option.eq_none_iff_forall_ne_some]
  rintro ⟨q, f⟩ h
  obtain ⟨hq, -, hsum⟩ := (singleError_eq_some_iff (by rw [poisonSyndromes_eq]; rfl)).mp h
  rw [errorSums_oneError hp, errorSums_oneError hq, poisonSyndromes_eq] at hsum
  simp only [xorBytes, List.zipWith_cons_cons, List.zipWith_nil_left, List.cons.injEq, and_true] at hsum
  obtain ⟨h0, h1, h2, h3⟩ := hsum
  obtain rfl : e = f := (byte_xor_zero e).symm.trans h0
  have h1 := hmove h1
  have h2 := hmove h2
  have h3 := hmove h3
  have hnext := xor_powers_succ 1 (35 - p) (35 - q) e
  have hlast := xor_powers_succ 2 (35 - p) (35 - q) e
  rw [Nat.one_mul, Nat.one_mul, h1, h2] at hnext
  rw [h1, h2, h3] at hlast
  exact hpairs _ (by omega) _ (by omega) hnext.symm hlast.symm

/-! ## Decoding by the syndromes -/

theorem decodeSector_corrected {w : List Byte} {p : Nat} {e : Byte} (hp : p < 36) (he : e ≠ 0)
    (h : syndromes w = errorSums (oneError p e)) :
    decodeSector w = (.corrected p e, (w.set p (w.getD p 0 ^^^ e)).take 32) := by
  have hmask : xorBytes (errorSums (oneError p e)) poisonSyndromes ≠ [0, 0, 0, 0] := by
    rw [errorSums_oneError hp, poisonSyndromes_eq]
    exact fun h => he ((byte_xor_zero e).symm.trans (List.cons.inj h).1)
  simp only [decodeSector, h, errorSums_oneError_ne_zero hp he, if_false, hmask, singleError_poisoned_oneError hp,
    singleError_oneError hp he, decide_false, Option.isSome_none, Bool.or_self, Bool.false_eq_true]

theorem decodeSector_poisoned {w : List Byte} (h : syndromes w ≠ [0, 0, 0, 0])
    (hmask : xorBytes (syndromes w) poisonSyndromes = [0, 0, 0, 0] ∨
      (singleError (xorBytes (syndromes w) poisonSyndromes)).isSome = true) : (decodeSector w).1 = .poisoned := by
  rw [decodeSector, if_neg h, if_pos (by simpa using hmask)]

/-- A word that decodes as good or corrected has the syndromes of no wrong symbol or of one. -/
theorem decodeSector_cases (w : List Byte) (hlen : w.length = 36) :
    syndromes w = [0, 0, 0, 0] ∨ (∃ p e, p < 36 ∧ syndromes w = errorSums (oneError p e)) ∨
      (decodeSector w).1 = .poisoned ∨ (decodeSector w).1 = .uncorrectable := by
  by_cases hzero : syndromes w = [0, 0, 0, 0]
  · exact .inl hzero
  right
  cases herr : singleError (syndromes w) with
  | some x =>
    obtain ⟨p, e⟩ := x
    obtain ⟨hp, -, hs⟩ := (singleError_eq_some_iff (by rw [syndromes_eq hlen]; rfl)).mp herr
    exact .inl ⟨p, e, hp, hs⟩
  | none =>
    right
    simp only [decodeSector, if_neg hzero, herr]
    split
    · exact .inl rfl
    · exact .inr rfl

/-! ## Words by their symbols -/

theorem symbols_set {w : List Byte} {p : Nat} (hp : p < w.length) (e : Byte) (i : Nat) :
    symbols (w.set p (w.getD p 0 ^^^ e)) i = symbols w i ^^^ oneError p e i := by
  simp only [symbols, oneError, List.getD_eq_getElem?_getD, List.getElem?_set]
  by_cases hip : i = p
  · subst hip
    simp [hp]
  · rw [if_neg (Ne.symm hip), if_neg hip, byte_xor_zero]

theorem symbols_xorBytes {u w : List Byte} (h : u.length = w.length) (i : Nat) :
    symbols (xorBytes u w) i = symbols u i ^^^ symbols w i := by
  by_cases hi : i < u.length
  · simp [symbols, xorBytes, List.getD_eq_getElem?_getD, hi, h ▸ hi]
  · simp [symbols, xorBytes, List.getD_eq_getElem?_getD, hi, h ▸ hi]

theorem errorSums_codeWord {d : List Byte} (h : d.length = 32) : errorSums (symbols (codeWord d)) = [0, 0, 0, 0] := by
  rw [← syndromes_eq (by rw [length_codeWord, h]), syndromes, syndrome_codeWord (generatorAt_root (by simp)),
    syndrome_codeWord (generatorAt_root (by simp)), syndrome_codeWord (generatorAt_root (by simp)),
    syndrome_codeWord (generatorAt_root (by simp))]

theorem xorBytes_zeros {s : List Byte} (h : s.length = 4) : xorBytes [0, 0, 0, 0] s = s := by
  match s, h with
  | [a, b, c, d], _ => simp only [xorBytes, List.zipWith_cons_cons, List.zipWith_nil_left, byte_zero_xor]

theorem xorBytes_zeros_right {s : List Byte} (h : s.length = 4) : xorBytes s [0, 0, 0, 0] = s := by
  match s, h with
  | [a, b, c, d], _ => simp only [xorBytes, List.zipWith_cons_cons, List.zipWith_nil_left, byte_xor_zero]

theorem xorBytes_self (s : List Byte) : xorBytes s s = List.replicate s.length 0 := by
  rw [xorBytes, List.zipWith_self, ← List.map_const']
  exact List.map_congr_left fun a _ => byte_xor_self a

theorem xorBytes_cancel (s t : List Byte) (h : s.length = t.length) : xorBytes (xorBytes s t) s = t := by
  induction s generalizing t with
  | nil => exact (List.length_eq_zero_iff.mp h.symm).symm
  | cons a s ih =>
    obtain ⟨b, t, rfl⟩ := List.exists_cons_of_length_eq_add_one h.symm
    have hfirst : a ^^^ b ^^^ a = b := by rw [BitVec.xor_comm, ← BitVec.xor_assoc, byte_xor_self, byte_zero_xor]
    exact congrArg₂ _ hfirst (ih t (by simpa using h))

/-- A word with one symbol changed has the changed symbol's syndromes beside its own. -/
theorem syndromes_set {w : List Byte} (h : w.length = 36) {p : Nat} (hp : p < 36) (e : Byte) :
    syndromes (w.set p (w.getD p 0 ^^^ e)) = xorBytes (syndromes w) (errorSums (oneError p e)) := by
  rw [syndromes_eq (by rwa [List.length_set]), syndromes_eq h, ← errorSums_xor]
  exact errorSums_congr fun i _ => symbols_set (h.symm ▸ hp) e i

theorem syndromes_codeWord {d : List Byte} (h : d.length = 32) : syndromes (codeWord d) = [0, 0, 0, 0] := by
  rw [syndromes_eq (by rw [length_codeWord, h]), errorSums_codeWord h]

/-- A poisoned sector with data is its code word under the poison mask. -/
theorem poisoned_eq_xorBytes {d : List Byte} (h : d.length = 32) :
    d ++ (rsCheck d).map (· ^^^ 0xFF) = xorBytes (codeWord d) poisonWord := by
  have hdata : d.zipWith (· ^^^ ·) (List.replicate 32 0) = d := by
    refine List.ext_getElem (by simp [h]) fun i _ _ => ?_
    simp only [List.getElem_zipWith, List.getElem_replicate, byte_xor_zero]
  rw [codeWord, poisonWord, xorBytes, List.zipWith_append (by simp [h]), hdata]
  rfl

theorem syndromes_poisoned {d : List Byte} (h : d.length = 32) :
    syndromes (d ++ (rsCheck d).map (· ^^^ 0xFF)) = poisonSyndromes := by
  have hlen : (codeWord d).length = poisonWord.length := by rw [length_codeWord, h]; rfl
  rw [poisoned_eq_xorBytes h, syndromes_eq (by simp [xorBytes, ← hlen, length_codeWord, h]),
    errorSums_congr fun i _ => symbols_xorBytes hlen i, errorSums_xor, errorSums_codeWord h, xorBytes_zeros rfl,
    ← syndromes_eq rfl, poisonSyndromes]

/-! ## One error -/

theorem decodeSector_codeWord_set {d : List Byte} (h : d.length = 32) {p : Nat} {e : Byte} (hp : p < 36) (he : e ≠ 0) :
    decodeSector ((codeWord d).set p ((codeWord d).getD p 0 ^^^ e)) = (.corrected p e, d) := by
  have hlen : (codeWord d).length = 36 := by rw [length_codeWord, h]
  have hsyn : syndromes ((codeWord d).set p ((codeWord d).getD p 0 ^^^ e)) = errorSums (oneError p e) := by
    rw [syndromes_set hlen hp, syndromes_codeWord h, xorBytes_zeros rfl]
  have hback : ((codeWord d).set p ((codeWord d).getD p 0 ^^^ e)).getD p 0 ^^^ e = (codeWord d).getD p 0 := by
    have hp' : p < (codeWord d).length := hlen.symm ▸ hp
    rw [List.getD_eq_getElem?_getD, List.getElem?_set_self hp', Option.getD_some, byte_xor_cancel]
  rw [decodeSector_corrected hp he hsyn, hback, List.set_set, List.getD_eq_getElem _ _ (hlen.symm ▸ hp),
    List.set_getElem_self, codeWord, ← h, List.take_left]

theorem decodeSector_poisoned_set {d : List Byte} (h : d.length = 32) {p : Nat} {e : Byte} (hp : p < 36) (he : e ≠ 0) :
    let w := d ++ (rsCheck d).map (· ^^^ 0xFF)
    (decodeSector (w.set p (w.getD p 0 ^^^ e))).1 = .poisoned := by
  intro w
  have hsyn : syndromes (w.set p (w.getD p 0 ^^^ e)) = xorBytes poisonSyndromes (errorSums (oneError p e)) := by
    rw [syndromes_set (by simp [w, h, rsCheck]) hp, syndromes_poisoned h]
  refine decodeSector_poisoned ?_ (.inr ?_)
  · rw [hsyn, poisonSyndromes_eq, errorSums_oneError hp]
    exact fun h => he ((byte_zero_xor e).symm.trans (List.cons.inj h).1)
  · rw [hsyn, xorBytes_cancel poisonSyndromes (errorSums _) (by rw [poisonSyndromes_eq]; rfl), singleError_oneError hp he]
    rfl

/-! ## Two and three errors -/

/-- Two tests of distinct positions that differ at one position at most count nearly the same. -/
theorem countP_le_succ {f g : Nat → Bool} {x : Nat} (h : ∀ i, i ≠ x → f i = g i) {l : List Nat} (hnodup : l.Nodup) :
    l.countP f ≤ l.countP g + 1 := by
  induction l with
  | nil => exact Nat.zero_le _
  | cons i l ih =>
    obtain ⟨hi, hnodup⟩ := List.nodup_cons.mp hnodup
    rw [List.countP_cons, List.countP_cons]
    by_cases hix : i = x
    · have hrest : l.countP f = l.countP g :=
        List.countP_congr fun j hj => by rw [h j fun hjx => hi (hix ▸ hjx ▸ hj)]
      split <;> split <;> omega
    · have := ih hnodup
      rw [h i hix]
      omega

/-- The syndromes of two or three wrong symbols are neither those of none nor those of one: with one more symbol they are at
most four. -/
theorem errorSums_of_few {v : Nat → Byte} (htwo : 2 ≤ (List.range 36).countP (fun i => v i != 0))
    (hthree : (List.range 36).countP (fun i => v i != 0) ≤ 3) :
    errorSums v ≠ [0, 0, 0, 0] ∧ ∀ p e, errorSums v ≠ errorSums (oneError p e) := by
  have hnone : ∀ {u : Nat → Byte}, (∀ i < 36, u i = 0) → (List.range 36).countP (fun i => u i != 0) = 0 := fun h =>
    List.countP_eq_zero.mpr fun i hi => by simp [h i (List.mem_range.mp hi)]
  refine ⟨fun hsum => ?_, fun p e hsum => ?_⟩
  · have := hnone (symbols_zero_of_errorSums hsum (by omega))
    omega
  · have hrest : ∀ i, i ≠ p → v i ^^^ oneError p e i = v i := fun i hi => by rw [oneError, if_neg hi, byte_xor_zero]
    have hzero : ∀ i < 36, v i ^^^ oneError p e i = 0 := by
      refine symbols_zero_of_errorSums ?_ ((countP_le_succ (x := p) (fun i hi => by rw [hrest i hi]) List.nodup_range).trans
        (Nat.succ_le_succ hthree))
      rw [errorSums_xor, hsum, xorBytes_self]
      rfl
    have hone := countP_le_succ (f := fun i => v i != 0) (g := fun i => v i ^^^ oneError p e i != 0) (x := p)
      (fun i hi => by rw [hrest i hi]) (List.nodup_range (n := 36))
    have := hnone hzero
    omega

theorem decodeSector_of_few {d w : List Byte} (hd : d.length = 32) (hw : w.length = 36)
    (htwo : 2 ≤ (List.range 36).countP (fun i => w.getD i 0 != (codeWord d).getD i 0))
    (hthree : (List.range 36).countP (fun i => w.getD i 0 != (codeWord d).getD i 0) ≤ 3) :
    (decodeSector w).1 = .uncorrectable ∨ (decodeSector w).1 = .poisoned := by
  have hsyn : syndromes w = errorSums (fun i => symbols w i ^^^ symbols (codeWord d) i) := by
    rw [errorSums_xor, errorSums_codeWord hd, syndromes_eq hw]
    exact (xorBytes_zeros_right rfl).symm
  have hwrong : (fun i => w.getD i 0 != (codeWord d).getD i 0) = fun i => symbols w i ^^^ symbols (codeWord d) i != 0 := by
    funext i
    rw [Bool.eq_iff_iff, bne_iff_ne, bne_iff_ne, Ne, Ne, byte_xor_eq_zero_iff]
    rfl
  rw [hwrong] at htwo hthree
  obtain ⟨hgood, hone⟩ := errorSums_of_few htwo hthree
  rw [← hsyn] at hgood hone
  rcases decodeSector_cases w hw with h | ⟨p, e, -, h⟩ | h | h
  · exact absurd h hgood
  · exact absurd h (hone p e)
  · exact .inr h
  · exact .inl h

/-- Settles O8: a word's syndromes are sums over its wrong symbols. Those of one error are found by `singleError_eq_some_iff`
and never look like poison (`singleError_poisoned_oneError`); two or three with one more are too few for the code's distance
(`symbols_zero_of_errorSums`). -/
theorem symbolErrorsInSectors : Obligations.SymbolErrorsInSectors := by
  unfold Obligations.SymbolErrorsInSectors
  intro d hd
  refine ⟨fun p e hp he => ⟨decodeSector_codeWord_set hd hp he, decodeSector_poisoned_set hd hp he⟩,
    fun w hw hcount => ?_⟩
  exact decodeSector_of_few hd hw (by omega) (by omega)

end Sys2Proof.Machine
end

section
/-! The obligation on stored sectors (05 R131 to R133). -/

namespace Sys2Proof.Machine

theorem slice_all {d : List Byte} {n : Nat} (h : d.length = n) : slice d 0 n = d := by
  refine List.ext_getElem (by rw [length_slice, h]) fun i _ hi => ?_
  simp [slice, hi]

section

variable (s : State) {a x : Nat} {w : List Byte}

theorem codeWordAt_putCodeWord_self (hw : w.length = 36) (h : x / 32 = a / 32) : (s.putCodeWord a w).codeWordAt x = w := by
  rw [State.codeWordAt, State.putCodeWord, List.take_of_length_le hw.le, sectorKey, sectorKey, h]
  exact hw ▸ memRead_memWrite ..

theorem codeWordAt_putCodeWord_ne (hw : w.length = 36) (h : x / 32 ≠ a / 32) :
    (s.putCodeWord a w).codeWordAt x = s.codeWordAt x := by
  rw [State.codeWordAt, State.putCodeWord, List.take_of_length_le hw.le, State.codeWordAt]
  exact memRead_memWrite_apart _ _ _ _ _ (by rw [hw]; simp only [sectorKey]; omega)

theorem sector_poisonSector_self : ((s.poisonSector a).sector a).1 = .poisoned := by
  have hpoison : (decodeSector poisonWord).1 = .poisoned := by decide +kernel
  rw [State.sector, State.poisonSector, codeWordAt_putCodeWord_self s rfl rfl, hpoison]

theorem sector_poisonSector_ne (h : x / 32 ≠ a / 32) : (s.poisonSector a).sector x = s.sector x := by
  rw [State.sector, State.poisonSector, codeWordAt_putCodeWord_ne s rfl h, State.sector]

end

/-- Settles O7: what is read back is the stored code word, which decodes to the sector's data or as poisoned. -/
theorem storedSectorReadsBack : Obligations.StoredSectorReadsBack := by
  unfold Obligations.StoredSectorReadsBack
  intro s a b d hd
  refine ⟨by rw [sector_putSector_self s a rfl, slice_all hd], sector_poisonSector_self s, fun hne => ⟨?_, ?_⟩⟩
  · exact sector_putSector_ne s a (Ne.symm hne)
  · exact sector_poisonSector_ne s (Ne.symm hne)

end Sys2Proof.Machine
end

section
/-! The obligation on refresh and bank visits (05 R154, R155, R158, 06 R165). -/

namespace Sys2Proof.Machine

open Sys2Proof.Say

/-! ## Refresh debt (05 R154) -/

@[simp] theorem refr_setRefr_self (s : State) (i m : Nat) (x : Refresh) : (s.setRefr i m x).refr i m = x :=
  mapGet_mapSet_self _ _ _ _

theorem refr_setRefr_ne (s : State) {i m j k : Nat} (x : Refresh) (h : refreshKey j k ≠ refreshKey i m) :
    (s.setRefr i m x).refr j k = s.refr j k :=
  mapGet_mapSet_ne _ _ _ _ _ _ h

/-- A refresh interval that has passed over a layer of a bank group. -/
def State.owe (s : State) (id m : Nat) : State := s.setRefr id m { s.refr id m with debt := (s.refr id m).debt + 1 }

section

variable (s : State) (n k g m : Nat)

theorem debtTick_of_off (h : s.quarterOn (nmbgId n k g) m = false) : s.debtTick n k g m = s := by
  simp [State.debtTick, h]

theorem debtTick_of_owed (h : s.quarterOn (nmbgId n k g) m = true) (hdebt : (s.refr (nmbgId n k g) m).debt ≠ 3) :
    s.debtTick n k g m = s.owe (nmbgId n k g) m := by
  simp [State.debtTick, h, hdebt, State.owe]

theorem debtTick_of_late (h : s.quarterOn (nmbgId n k g) m = true) (hdebt : (s.refr (nmbgId n k g) m).debt = 3) :
    s.debtTick n k g m =
      ((s.owe (nmbgId n k g) m).count (pgNmem n m) NMEM_REFR_LATE.COUNT 1).report (pgNmem n m) .u 0x08 (2 * k + g) 0 0 := by
  simp [State.debtTick, h, hdebt, State.owe]

/-- A late refresh is counted on the layer's page, beside the error it reports. -/
theorem late_reported (s : State) {p : PageRef} (hp : p ≠ pgMgmt) (syn : Nat) :
    let t := (s.count p NMEM_REFR_LATE.COUNT 1).report p .u 0x08 syn 0 0
    t = { s with regs := t.regs, log := t.log } ∧
      t.get p NMEM_REFR_LATE.COUNT = min (s.get p NMEM_REFR_LATE.COUNT + 1) (2 ^ 32 - 1) ∧
      t.get p PAGE_ERR_CNT_U.COUNT = min (s.get p PAGE_ERR_CNT_U.COUNT + 1) (2 ^ 32 - 1) ∧
      RegsBut ((p, NMEM_REFR_LATE.COUNT) :: errFields p) s t := by
  intro t
  have hcounter (f : Field) (hplace : f.place < 2 ^ 17) :
      t.get p f = ((s.count p NMEM_REFR_LATE.COUNT 1).countError p .u 0x08 syn).get p f := by
    refine (report_logOnly _ p .u 0x08 syn 0 0).2 p f ?_
    simp only [logFields, List.forall_mem_cons, List.not_mem_nil, false_implies, implies_true, and_true]
    exact ⟨fun h => hp (eq_of_fieldKey_eq hplace (by decide) h).1, fun h => hp (eq_of_fieldKey_eq hplace (by decide) h).1⟩
  obtain ⟨hframe, hbut⟩ := errOnly_report (s.count p NMEM_REFR_LATE.COUNT 1) p .u 0x08 syn 0 0
  refine ⟨hframe, ?_, ?_, ?_⟩
  · rw [hcounter _ (by decide), get_countError_counter _ p .u _ _ _ (by decide) (by decide) (by decide) (by decide),
      get_count_errCounter _ p .u _ (by decide) (by decide)]
    exact s.get_count_self p NMEM_REFR_LATE.COUNT 1
  · rw [hcounter _ (by decide), get_countError_counter _ p .u _ _ _ (by decide) (by decide) (by decide) (by decide)]
    refine (State.get_count_self _ p PAGE_ERR_CNT_U.COUNT 1).trans ?_
    rw [s.get_count_apart p p NMEM_REFR_LATE.COUNT _ 1 (by decide)]
    rfl
  · exact ((RegsBut.of_put s p NMEM_REFR_LATE.COUNT _).mono (by simp)).trans (hbut.mono (List.subset_cons_self _ _))

end

/-! ## The clears of `NMEM_CTRL` (05 R158) -/

theorem refr_clrScrub_passes (s : State) {n m k g : Nat} (hm : m < 4) (hkg : 2 * k + g < 2 ^ 16) :
    ((s.clrScrub n m).refr (nmbgId n k g) m).passes = 0 := by
  have hkey : refreshKey (nmbgId n k g) m % 4 = m ∧ resSlot (refreshKey (nmbgId n k g) m / 4) = 0x10 + n := by
    simp only [refreshKey, nmbgId, resIdOf, resSlot, kindNMBG]
    omega
  rw [State.clrScrub, State.refr]
  dsimp only
  rw [mapGet_mapUpd_of _ _ _ _ (by split <;> rfl), if_pos hkey]

theorem nmemClrLate_gives (n : Die) (m : Fin 4) (s : State) : Gives (.nmemClrLate n m) s (fun s' =>
    OnlyRegs [(pgNmem n m, NMEM_REFR_LATE.COUNT)] s s' ∧ s'.get (pgNmem n m) NMEM_REFR_LATE.COUNT = 0) :=
  ⟨s.clrLate n m, rfl, (OnlyRegs.refl _ s).put List.mem_cons_self 0, s.get_put_self (pgNmem n m) NMEM_REFR_LATE.COUNT 0⟩

/-- What `CLR_SCRUB` clears on a layer's page. -/
def scrubFields : List Field := [NMEM_SCRUB_C.COUNT, NMEM_SCRUB_U.COUNT, NMEM_SCRUB_P.COUNT, NMEM_SCRUB_STAT.PASSES]

theorem clrScrub_eq (s : State) (n m : Nat) : s.clrScrub n m =
    { s.putAll (pgNmem n m) (scrubFields.map (·, 0)) with refresh := (s.clrScrub n m).refresh } := by
  unfold State.clrScrub
  rfl

theorem get_clrScrub (s : State) (n m : Nat) (q : PageRef) (f : Field) :
    (s.clrScrub n m).get q f = (s.putAll (pgNmem n m) (scrubFields.map (·, 0))).get q f :=
  State.get_congr (by rw [clrScrub_eq]) q f

theorem clrScrub_frame (s : State) (n m : Nat) :
    s.clrScrub n m = { s with regs := (s.clrScrub n m).regs, refresh := (s.clrScrub n m).refresh } := by
  have hregs : (s.clrScrub n m).regs = (s.putAll (pgNmem n m) (scrubFields.map (·, 0))).regs := by rw [clrScrub_eq]
  refine (clrScrub_eq s n m).trans ?_
  rw [hregs, State.putAll_frame]

theorem get_clrScrub_of_mem (s : State) (n m : Nat) {f : Field} (hf : f ∈ scrubFields) :
    (s.clrScrub n m).get (pgNmem n m) f = 0 := by
  have hapart : (scrubFields.map (·, 0)).Pairwise (fun a b => a.1.apart b.1) := by decide
  rw [get_clrScrub]
  exact (State.get_putAll_of_mem s _ hapart (List.mem_map_of_mem hf)).trans (Nat.zero_mod _)

theorem regsBut_clrScrub (s : State) (n m : Nat) : RegsBut (scrubFields.map (pgNmem n m, ·)) s (s.clrScrub n m) := by
  intro q f h
  rw [get_clrScrub]
  refine s.get_putAll_of_ne _ q f _ fun e he => ?_
  obtain ⟨g, hg, rfl⟩ := List.mem_map.mp he
  exact h (pgNmem n m, g) (List.mem_map_of_mem hg)

/-! ## Bank visits (06 R165) -/

theorem mem_rows_setRow {r : Res} {key row ready who : Nat} (h : ∀ z ∈ r.rows, z.1 ≠ key) (z : Nat × Nat × Nat × Nat) :
    z ∈ (r.setRow key row ready who).rows ↔ z ∈ r.rows ∨ z = (key, row, ready, who) := by
  rw [Res.setRow, List.filter_eq_self.mpr fun e he => bne_iff_ne.mpr (h e he), List.mem_append, List.mem_singleton]

/-- The rows of both pseudo-channels opened for a granule's access. -/
def Res.openBoth (r : Res) (o e who : Nat) : Res :=
  (r.setRow (edgeKey 0 (edgeBank o)) (edgeRow o) e who).setRow (edgeKey 1 (edgeBank o)) (edgeRow o) e who

/-- How `openBoth` changes the rows where neither bank has one. -/
theorem mem_rows_openBoth {r : Res} {o e who : Nat}
    (h : ∀ z ∈ r.rows, z.1 ≠ edgeKey 0 (edgeBank o) ∧ z.1 ≠ edgeKey 1 (edgeBank o)) (z : Nat × Nat × Nat × Nat) :
    z ∈ (r.openBoth o e who).rows ↔ z ∈ r.rows ∨ z = (edgeKey 0 (edgeBank o), edgeRow o, e, who) ∨
      z = (edgeKey 1 (edgeBank o), edgeRow o, e, who) := by
  have hfirst := mem_rows_setRow (row := edgeRow o) (ready := e) (who := who) fun z hz => (h z hz).1
  rw [Res.openBoth, mem_rows_setRow, hfirst, or_assoc]
  intro y hy
  rcases (hfirst y).mp hy with hy | rfl
  · exact (h y hy).2
  · simp only [edgeKey]
    omega

theorem openBoth_frame (r : Res) (o e who : Nat) : r.openBoth o e who = { r with rows := (r.openBoth o e who).rows } := rfl

/-- What one queued access adds to a visit: which pseudo-channels have opened a row, and the resource. -/
def visitStep (set e who : Nat) (m : Bool × Bool × Res) (a : EdgeEntry) : Bool × Bool × Res :=
  let row (r : Res) (o x : Nat) : Res := r.setRow (edgeKey x (edgeBank o)) (edgeRow o) e who
  let isOpen (r : Res) (o x : Nat) : Bool :=
    r.rows.any (fun z => z.1 == edgeKey x (edgeBank o) && z.2.1 == edgeRow o && z.2.2.2 == who && e ≤ z.2.2.1 + 44)
  let o := edgeOffset a.a
  if bankSet (edgeBank o) != set then m
  else if a.whole then
    (if m.1 || m.2.1 || isOpen m.2.2 o 0 || isOpen m.2.2 o 1 then m else (true, true, row (row m.2.2 o 0) o 1))
  else if isOpen m.2.2 o (edgePseudo o) then m
  else if edgePseudo o = 0 then (if m.1 then m else (true, m.2.1, row m.2.2 o 0))
  else if m.2.1 then m else (m.1, true, row m.2.2 o 1)

section

variable {set e who : Nat} {r : Res}

theorem visitRows_eq_foldl (q : List EdgeEntry) :
    visitRows set e who q r = (q.foldl (visitStep set e who) (false, false, r)).2.2 := rfl

/-- An access whose bank lies in another set opens nothing. -/
theorem visitStep_of_other {m : Bool × Bool × Res} {a : EdgeEntry} (h : bankSet (edgeBank (edgeOffset a.a)) ≠ set) :
    visitStep set e who m a = m :=
  if_pos (bne_iff_ne.mpr h)

/-- Where both pseudo-channels have opened a row, no access opens another. -/
theorem visitStep_of_both (r : Res) (a : EdgeEntry) : visitStep set e who (true, true, r) a = (true, true, r) := by
  simp only [visitStep, Bool.true_or, if_true, ite_self]

theorem visitStep_of_closed {a : EdgeEntry} (hset : bankSet (edgeBank (edgeOffset a.a)) = set) (hwhole : a.whole = true)
    (h : ∀ z ∈ r.rows, z.1 ≠ edgeKey 0 (edgeBank (edgeOffset a.a)) ∧ z.1 ≠ edgeKey 1 (edgeBank (edgeOffset a.a))) :
    visitStep set e who (false, false, r) a = (true, true, r.openBoth (edgeOffset a.a) e who) := by
  have hclosed : ∀ x < 2, r.rows.any (fun z => z.1 == edgeKey x (edgeBank (edgeOffset a.a)) &&
      z.2.1 == edgeRow (edgeOffset a.a) && z.2.2.2 == who && e ≤ z.2.2.1 + 44) = false := by
    intro x hx
    refine List.any_eq_false.mpr fun z hz => ?_
    obtain ⟨h0, h1⟩ := h z hz
    have hkey : z.1 ≠ edgeKey x (edgeBank (edgeOffset a.a)) := by
      obtain rfl | rfl : x = 0 ∨ x = 1 := by omega
      · exact h0
      · exact h1
    simp [hkey]
  simp only [visitStep, hset, hwhole, bne_self_eq_false, hclosed 0 (by decide), hclosed 1 (by decide), Bool.or_self,
    Bool.false_eq_true, if_false, if_true]
  rfl

/-- The first access of the visited set, of a granule whose row is not open, decides the visit. -/
theorem visitRows_of_granule {q rest : List EdgeEntry} {x : EdgeEntry}
    (hq : q.filter (fun a => bankSet (edgeBank (edgeOffset a.a)) == set) = x :: rest) (hwhole : x.whole = true)
    (h : ∀ z ∈ r.rows, z.1 ≠ edgeKey 0 (edgeBank (edgeOffset x.a)) ∧ z.1 ≠ edgeKey 1 (edgeBank (edgeOffset x.a))) :
    visitRows set e who q r = r.openBoth (edgeOffset x.a) e who := by
  have hfilter : ∀ (q : List EdgeEntry) m, q.foldl (visitStep set e who) m =
      (q.filter (fun a => bankSet (edgeBank (edgeOffset a.a)) == set)).foldl (visitStep set e who) m := by
    intro q m
    induction q generalizing m with
    | nil => rfl
    | cons a q ih =>
      by_cases ha : bankSet (edgeBank (edgeOffset a.a)) = set
      · rw [List.filter_cons_of_pos (by simpa using ha), List.foldl_cons, List.foldl_cons, ih]
      · rw [List.filter_cons_of_neg (by simpa using ha), List.foldl_cons, visitStep_of_other ha, ih]
  have hset : bankSet (edgeBank (edgeOffset x.a)) = set := by
    have hx : x ∈ q.filter (fun a => bankSet (edgeBank (edgeOffset a.a)) == set) := hq ▸ List.mem_cons_self
    exact beq_iff_eq.mp (List.mem_filter.mp hx).2
  rw [visitRows_eq_foldl, hfilter, hq, List.foldl_cons, visitStep_of_closed hset hwhole h,
    List.foldl_fixed' (visitStep_of_both _)]

end

section

variable (s : State) (k c : Nat)

theorem bankVisit_of_still (h : (s.resAt (emchId k c)).slots % 3 ≠ 0 ∨
    (s.resAt (emchId k c)).visited = (s.resAt (emchId k c)).slots + 1 ∨ s.visitBlocked (emchId k c) = true ∨
      s.slotClient (emchId k c) = none) : s.bankVisit k c = s := by
  rw [State.bankVisit]
  dsimp only
  split
  · rfl
  · next hgoes =>
    obtain ⟨hthird, hfresh, hblocked⟩ : _ ∧ _ ∧ _ := by simpa only [not_or] using hgoes
    rw [((h.resolve_left hthird).resolve_left hfresh).resolve_left hblocked]

theorem bankVisit_of_client {cl : EdgeClient} (hthird : (s.resAt (emchId k c)).slots % 3 = 0)
    (hfresh : (s.resAt (emchId k c)).visited ≠ (s.resAt (emchId k c)).slots + 1)
    (hblocked : s.visitBlocked (emchId k c) = false) (hclient : s.slotClient (emchId k c) = some cl) :
    s.bankVisit k c = s.setRes (emchId k c)
      { visitRows ((s.resAt (emchId k c)).slots / 3 % 16) (s.resAt (emchId k c)).slots (s.clientNumber cl)
          (s.edgeQueue cl (emchId k c)) (s.resAt (emchId k c)) with visited := (s.resAt (emchId k c)).slots + 1 } := by
  rw [State.bankVisit]
  dsimp only
  rw [if_neg (by simp [hthird, hfresh, hblocked]), hclient]

end

theorem onlyRes_setRes (s : State) (id : Nat) (r : Res) : OnlyRes id s (s.setRes id r) :=
  ⟨rfl, fun k hk => s.resAt_setRes_ne id k r hk⟩

theorem refreshDebtTick_gives (n : Die) (k : Fin 128) (g : Fin 2) (m : Fin 4) (s : State)
    (hon : s.quarterOn (nmbgId n k g) m = true) : Gives (.refreshDebtTick n k g m) s (fun s' =>
      s'.refr (nmbgId n k g) m = { s.refr (nmbgId n k g) m with debt := (s.refr (nmbgId n k g) m).debt + 1 } ∧
      (∀ i j, refreshKey i j ≠ refreshKey (nmbgId n k g) m → s'.refr i j = s.refr i j) ∧
      ((s.refr (nmbgId n k g) m).debt ≠ 3 → s' = { s with refresh := s'.refresh }) ∧
      ((s.refr (nmbgId n k g) m).debt = 3 → s' = { s with refresh := s'.refresh, regs := s'.regs, log := s'.log } ∧
        s'.get (pgNmem n m) NMEM_REFR_LATE.COUNT = min (s.get (pgNmem n m) NMEM_REFR_LATE.COUNT + 1) (2 ^ 32 - 1) ∧
        s'.get (pgNmem n m) PAGE_ERR_CNT_U.COUNT = min (s.get (pgNmem n m) PAGE_ERR_CNT_U.COUNT + 1) (2 ^ 32 - 1) ∧
        RegsBut ((pgNmem n m, NMEM_REFR_LATE.COUNT) :: errFields (pgNmem n m)) s s')) := by
  refine ⟨s.debtTick n k g m, rfl, ?_⟩
  by_cases hdebt : (s.refr (nmbgId n k g) m).debt = 3
  · have hpage : ∀ (n : Die) (m : Fin 4), pgNmem n m ≠ pgMgmt := by decide
    obtain ⟨hframe, hlate, hcount, hbut⟩ := late_reported (s.owe (nmbgId n k g) m) (hpage n m) (2 * k + g)
    have hrefresh : (s.debtTick n k g m).refresh = (s.owe (nmbgId n k g) m).refresh := by
      rw [debtTick_of_late s n k g m hon hdebt, hframe]
    have hrefr : ∀ i j, (s.debtTick n k g m).refr i j = (s.owe (nmbgId n k g) m).refr i j := fun i j => by
      rw [State.refr, hrefresh, State.refr]
    rw [← debtTick_of_late s n k g m hon hdebt] at hframe hlate hcount hbut
    refine ⟨(hrefr _ _).trans (refr_setRefr_self s _ _ _), fun i j h => (hrefr i j).trans (refr_setRefr_ne s _ h),
      fun h => absurd hdebt h, fun _ => ⟨?_, hlate, hcount, hbut⟩⟩
    rw [hrefresh]
    exact hframe
  · rw [debtTick_of_owed s n k g m hon hdebt]
    exact ⟨refr_setRefr_self s _ _ _, fun i j h => refr_setRefr_ne s _ h, fun _ => rfl, fun h => absurd h hdebt⟩

/-- Settles O31: a tick is one of its three cases, a visit is decided by its first access (`visitRows_of_granule`), and a
closing row is filtered out. -/
theorem refreshAndBankVisits : Obligations.RefreshAndBankVisits := by
  unfold Obligations.RefreshAndBankVisits
  refine ⟨fun n k g m s => ⟨fun hoff => ?_, fun hon => ?_, ?_, ?_⟩, fun k c s cl x rest => ⟨fun hstill => ?_, ?_⟩,
    fun k c x bank s => ?_⟩
  · exact congrArg Host.Outcome.next (debtTick_of_off s n k g m hoff)
  · exact refreshDebtTick_gives n k g m s hon
  · exact nmemClrLate_gives n m s
  · exact ⟨s.clrScrub n m, rfl, clrScrub_frame s n m, fun f => get_clrScrub_of_mem s n m, regsBut_clrScrub s n m,
      refr_clrScrub_passes s m.isLt (by omega)⟩
  · exact congrArg Host.Outcome.next (bankVisit_of_still s k c hstill)
  · intro hthird hfresh hblocked hclient hq hwhole hclosed
    have hvisit := bankVisit_of_client s k c hthird hfresh hblocked hclient
    rw [visitRows_of_granule hq hwhole hclosed] at hvisit
    refine ⟨_, congrArg Host.Outcome.next hvisit, onlyRes_setRes s _ _, ?_, ?_⟩
    · rw [State.resAt_setRes_self]
      rfl
    · rw [State.resAt_setRes_self]
      exact mem_rows_openBoth hclosed
  · refine ⟨_, rfl, onlyRes_setRes s _ _, ?_, fun z => ?_⟩
    · rw [State.edgeClose, State.resAt_setRes_self]
    · rw [State.edgeClose, State.resAt_setRes_self, List.mem_filter, Bool.or_eq_true, bne_iff_ne, decide_eq_true_eq,
        ← imp_iff_not_or]
      rfl

end Sys2Proof.Machine
end

section
/-! The obligation on row operations (05 R142, R144, 12 R360): the completion record of a window's command is a write of memory
too. -/

namespace Sys2Proof.Machine

open Sys2Proof.Say

/-- `FILL` with zeros of row 0x10000 of stack 0 (channel 0), sent as command 0 of window 0. -/
def fillFromWindow : RowCmd :=
  { op := 2, z := true, dst := 0x10000, srcA := 0, srcB := 0, tag := 0, issuer := .window 0 0, steps := 0, bufs := [] }

/-- That command at the head of the queue of its channel's engine, in a ROWE run of 48 slots. Window 0 is enabled, holds the
command in flight, and has its completion ring at package address 0x1000, in stack 0. -/
def fillFromWindowState : State :=
  { ((((State.reset.put (pgEstk 0) ESTK_STAT.INIT 2).put (pgSubw 0) PAGE_CTRL.EN 1).put (pgSubw 0) SUBW_CFG.CQLOC 1).put
      (pgSubw 0) SUBW_CQ_LO.ADDR 1) with
    res := [(emchId 0 0, { Res.init with cal := [(ownROWE, 48)] })]
    wins := [(0, { flags := [], flight :=
      [{ count := 0, order := 0, cls := 0, tag := 7, body := 0, noRecord := false, discard := false }] })]
    engines := [(edgeEngine 0 0, { queue := [fillFromWindow], ready := 0 })] }

/-- The engine is to make the command's last step. -/
theorem fillFromWindow_ready :
    fillFromWindowState.engineQ (edgeEngine 0 0) = fillFromWindow :: [] ∧
    fillFromWindowState.stepReady (edgeEngine 0 0) (decide (fillFromWindow.rows.length ≤ fillFromWindow.steps + 1))
      (fillFromWindow.rows.getD fillFromWindow.steps fillFromWindow.dst) = true ∧
    fillFromWindowState.engineDown (edgeEngine 0 0) = false ∧
    fillFromWindowState.asleep (fillFromWindow.rows.getD fillFromWindow.steps fillFromWindow.dst) 2048 = false ∧
    fillFromWindow.rows.length ≤ fillFromWindow.steps + 1 ∧
    fillFromWindowState.winsTouched fillFromWindow.dst 2048 = [] ∧ fillFromWindow.dst % 2048 = 0 := by
  decide +kernel

/-- That step also writes the command's record: byte 5 of the ring's first place takes its `PHASE`. -/
theorem fillFromWindow_record :
    memByte (fillFromWindowState.rowStep (edgeEngine 0 0)).mem (sectorKey 0x1000 + 5) = 1 ∧
      memByte fillFromWindowState.mem (sectorKey 0x1000 + 5) = 0 := by
  decide +kernel

/-- Refutes O33: the last step of a command that a submission window sent writes its completion record, and where the ring lies
at a package address (12 R360) that record is a write outside the destination row. In `fillFromWindowState` it goes to 0x1000,
while the row written is at 0x10000. -/
theorem not_rowOperationsWriteWholeRows : ¬ Obligations.RowOperationsWriteWholeRows := by
  unfold Obligations.RowOperationsWriteWholeRows
  rintro ⟨-, hstep⟩
  obtain ⟨hqueue, hready, hup, hawake, hlast, hwindows, haligned⟩ := fillFromWindow_ready
  obtain ⟨-, hwrites⟩ := hstep (.edge 0 0) fillFromWindowState fillFromWindow [] hqueue hready hup hawake
  obtain ⟨t, ht, -, hmem, -⟩ := hwrites hlast hwindows haligned
  obtain rfl : fillFromWindowState.rowStep (edgeEngine 0 0) = t := Host.Outcome.next.inj ht
  have hoff : sectorKey 0x1000 + 5 < sectorKey fillFromWindow.dst := by decide
  obtain ⟨hafter, hbefore⟩ := fillFromWindow_record
  exact absurd (hafter.symm.trans ((hmem _ (.inl hoff)).trans hbefore)) (by decide)

end Sys2Proof.Machine
end

section
/-! The obligation on summit modes and channel checkers (06 R184, R185, R186). -/

namespace Sys2Proof.Say

open Sys2Proof.Machine

theorem RegsBut.of_putAll (s : State) (p : PageRef) (l : List (Field × Nat)) :
    RegsBut (l.map (fun e => (p, e.1))) s (s.putAll p l) :=
  fun q g h => s.get_putAll_of_ne p q g l fun e he => h (p, e.1) (List.mem_map_of_mem he)

theorem RegsBut.congr_right {l : Fields} {s t u : State} (h : RegsBut l s t) (hregs : u.regs = t.regs) : RegsBut l s u :=
  h.trans (.of_regs hregs)

end Sys2Proof.Say

namespace Sys2Proof.Machine

open Sys2Proof.Say

theorem State.putAll_append (s : State) (p : PageRef) (l m : List (Field × Nat)) :
    s.putAll p (l ++ m) = (s.putAll p l).putAll p m :=
  List.foldl_append

/-! ## Zero-filled ranges -/

theorem memBut_zeroRange (s : State) (a n : Nat) : MemBut a n s (s.zeroRange a n) := by
  intro k hk
  rw [State.zeroRange, memByte_memZero, if_neg (by omega)]

theorem sector_zeroRange (s : State) {a n x : Nat} (hlo : a / 32 ≤ x / 32) (hhi : x / 32 < a / 32 + n / 32) :
    (s.zeroRange a n).sector x = (.good, List.replicate 32 0) := by
  have hword : (s.zeroRange a n).codeWordAt x = List.replicate 36 0 := by
    rw [codeWordAt_eq]
    refine (List.map_congr_left fun j hj => ?_).trans (List.map_const' (l := List.range 36) (b := 0))
    have hj := List.mem_range.mp hj
    rw [State.zeroRange, memByte_memZero, if_pos (by simp only [sectorKey]; omega)]
  rw [State.sector, hword, decodeSector_zeros]

/-- A cache set without a line of the range is as it was. -/
theorem mem_zeroLines_of_outside {c : List (Nat × CacheSet)} {a n : Nat} {e : Nat × CacheSet} (he : e ∈ c)
    (h : ∀ x ∈ e.2.ways, ∀ l, x = some l → l.1 < a ∨ a + n ≤ l.1) : e ∈ zeroLines c a n := by
  obtain ⟨key, ways, tree⟩ := e
  refine List.mem_map.mpr ⟨_, he, congrArg (fun w => (key, ({ ways := w, tree := tree } : CacheSet))) ?_⟩
  refine (List.map_congr_left (g := id) fun x hx => ?_).trans (List.map_id _)
  cases x with
  | none => rfl
  | some l =>
    have hout := h _ hx l rfl
    exact congrArg (fun v => some (l.1, v)) (if_neg (by omega))

/-! ## The modes of a summit region (06 R184) -/

/-- The mode and the stack of a region, as a write of its register gives them. -/
def regionValues (r v : Nat) : List (Field × Nat) := [(SUMT_REG.MODE.at r, v % 4), (SUMT_REG.STACK.at r, v / 4 % 2)]

theorem mem_dropRegion_cache {s : State} {b r : Nat} {e : Nat × CacheSet} :
    e ∈ (s.dropRegion b r).cache ↔ e ∈ s.cache ∧ e.1 / 32768 ≠ 20 * b + r := by
  rw [State.dropRegion, List.mem_filter, bne_iff_ne]

section

variable {s : State} {b r v : Nat}

theorem summitMode_of_ignored (h : s.get (pgSumt b) (SUMT_REG.BUSY.at r) = 1 ∨ 2 ≤ v % 4) : s.summitMode b r v = s :=
  if_pos h

variable (hbusy : s.get (pgSumt b) (SUMT_REG.BUSY.at r) ≠ 1) (hvalid : v % 4 < 2)
include hbusy hvalid

theorem summitMode_of_same (hmode : v % 4 = s.get (pgSumt b) (SUMT_REG.MODE.at r))
    (hstack : v / 4 % 2 = s.get (pgSumt b) (SUMT_REG.STACK.at r)) :
    s.summitMode b r v = s.putAll (pgSumt b) (regionValues r v) := by
  rw [State.summitMode]
  dsimp only
  rw [if_neg (by omega), if_pos hmode, if_pos hstack]
  rfl

theorem summitMode_of_stack (hmode : v % 4 = s.get (pgSumt b) (SUMT_REG.MODE.at r))
    (hstack : v / 4 % 2 ≠ s.get (pgSumt b) (SUMT_REG.STACK.at r)) :
    s.summitMode b r v = (s.putAll (pgSumt b) (regionValues r v)).dropRegion b r := by
  rw [State.summitMode]
  dsimp only
  rw [if_neg (by omega), if_pos hmode, if_neg hstack]
  rfl

theorem summitMode_of_mode (hmode : v % 4 ≠ s.get (pgSumt b) (SUMT_REG.MODE.at r)) :
    s.summitMode b r v = (((s.putAll (pgSumt b) (regionValues r v)).zeroRange (summitBase b r) 0x1000000).dropRegion b r).put
      (pgSumt b) (SUMT_REG.BUSY.at r) 1 := by
  rw [State.summitMode]
  dsimp only
  rw [if_neg (by omega), if_neg hmode]
  rfl

end

/-- The fields of a region's register lie apart. -/
theorem regionFields_apart : ∀ r : Fin 20,
    [SUMT_REG.MODE.at r, SUMT_REG.STACK.at r, SUMT_REG.BUSY.at r].Pairwise (fun f g => f.apart g) := by decide

/-- A write of a region's register, and of `BUSY` with it or not, leaves its values there. -/
theorem get_regionValues (s : State) (b : Nat) (r : Fin 20) (v : Nat) {l : List (Field × Nat)}
    (hl : (l.map (·.1)).Sublist [SUMT_REG.BUSY.at r]) :
    (s.putAll (pgSumt b) (regionValues r v ++ l)).get (pgSumt b) (SUMT_REG.MODE.at r) = v % 4 ∧
      (s.putAll (pgSumt b) (regionValues r v ++ l)).get (pgSumt b) (SUMT_REG.STACK.at r) = v / 4 % 2 := by
  have hapart : (regionValues r v ++ l).Pairwise (fun x y => x.1.apart y.1) :=
    List.pairwise_map.mp (.sublist (by simpa [regionValues] using hl) (regionFields_apart r))
  refine ⟨?_, ?_⟩
  · exact (s.get_putAll_of_mem _ hapart (e := (SUMT_REG.MODE.at r, v % 4)) (by simp [regionValues])).trans (Nat.mod_mod _ _)
  · exact (s.get_putAll_of_mem _ hapart (e := (SUMT_REG.STACK.at r, v / 4 % 2)) (by simp [regionValues])).trans
      (Nat.mod_mod _ _)

theorem sector_zeroRegion (s : State) (b r : Nat) {i : Nat} (h : i < 0x1000000) :
    (s.zeroRange (summitBase b r) 0x1000000).sector (summitBase b r + i) = (.good, List.replicate 32 0) := by
  have hbase : summitBase b r % 32 = 0 := by
    simp only [summitBase]
    omega
  exact sector_zeroRange s (by omega) (by omega)

section

variable (b : Base) (r : Fin 20) (v : Word) (s : State)

/-- A change of a region's mode. -/
theorem sumtModeWrite_of_mode (hbusy : s.get (pgSumt b) (SUMT_REG.BUSY.at r) ≠ 1) (hvalid : v.toNat % 4 < 2)
    (hmode : v.toNat % 4 ≠ s.get (pgSumt b) (SUMT_REG.MODE.at r)) :
    Gives (.sumtModeWrite b r v) s (fun s' => s'.get (pgSumt b) (SUMT_REG.BUSY.at r) = 1 ∧
      s'.get (pgSumt b) (SUMT_REG.MODE.at r) = v.toNat % 4 ∧ s'.get (pgSumt b) (SUMT_REG.STACK.at r) = v.toNat / 4 % 2 ∧
      (∀ i < 0x1000000, s'.sector (summitBase b r + i) = (.good, List.replicate 32 0)) ∧
      (∀ e ∈ s'.cache, e.1 / 32768 ≠ 20 * b.val + r.val) ∧
      (∀ e ∈ s.cache, e.1 / 32768 ≠ 20 * b.val + r.val →
        (∀ x ∈ e.2.ways, ∀ l, x = some l → l.1 < summitBase b r ∨ summitBase b r + 0x1000000 ≤ l.1) → e ∈ s'.cache) ∧
      s' = { s with regs := s'.regs, mem := s'.mem, cache := s'.cache } ∧ MemBut (summitBase b r) 0x1000000 s s' ∧
      RegsBut [(pgSumt b, SUMT_REG.BUSY.at r), (pgSumt b, SUMT_REG.MODE.at r), (pgSumt b, SUMT_REG.STACK.at r)] s s') := by
  refine ⟨s.summitMode b r v.toNat, rfl, ?_⟩
  rw [summitMode_of_mode hbusy hvalid hmode]
  generalize hw : s.putAll (pgSumt b) (regionValues r v.toNat) = w
  have hframe : w = { s with regs := w.regs } := hw ▸ s.putAll_frame _ _
  have hregs : (((w.zeroRange (summitBase b r) 0x1000000).dropRegion b r).put (pgSumt b) (SUMT_REG.BUSY.at r) 1).regs =
      (s.putAll (pgSumt b) (regionValues r v.toNat ++ [(SUMT_REG.BUSY.at r, 1)])).regs := by
    rw [State.putAll_append, hw]
    rfl
  obtain ⟨hmode', hstack'⟩ := get_regionValues s b r v.toNat (l := [(SUMT_REG.BUSY.at r, 1)]) (List.Sublist.refl _)
  refine ⟨State.get_put_self _ _ _ _, (State.get_congr hregs _ _).trans hmode', (State.get_congr hregs _ _).trans hstack',
    fun i hi => sector_zeroRegion w b r hi, fun e he => (mem_dropRegion_cache.mp he).2, fun e he hother hout => ?_, ?_, ?_, ?_⟩
  · have hcache : w.cache = s.cache := by rw [hframe]
    exact mem_dropRegion_cache.mpr ⟨mem_zeroLines_of_outside (hcache ▸ he) hout, hother⟩
  · rw [hframe]
    rfl
  · have hmem : w.mem = s.mem := by rw [hframe]
    intro k hk
    exact (memBut_zeroRange w _ _ k hk).trans (by rw [hmem])
  · exact ((RegsBut.of_putAll s _ _).congr_right hregs).mono (by simp [regionValues])

/-- A change of a region's stack alone. -/
theorem sumtModeWrite_of_stack (hbusy : s.get (pgSumt b) (SUMT_REG.BUSY.at r) ≠ 1) (hvalid : v.toNat % 4 < 2)
    (hmode : v.toNat % 4 = s.get (pgSumt b) (SUMT_REG.MODE.at r))
    (hstack : v.toNat / 4 % 2 ≠ s.get (pgSumt b) (SUMT_REG.STACK.at r)) :
    Gives (.sumtModeWrite b r v) s (fun s' => s'.get (pgSumt b) (SUMT_REG.STACK.at r) = v.toNat / 4 % 2 ∧
      s'.get (pgSumt b) (SUMT_REG.MODE.at r) = s.get (pgSumt b) (SUMT_REG.MODE.at r) ∧
      (∀ e, e ∈ s'.cache ↔ e ∈ s.cache ∧ e.1 / 32768 ≠ 20 * b.val + r.val) ∧
      s' = { s with regs := s'.regs, cache := s'.cache } ∧
      RegsBut [(pgSumt b, SUMT_REG.MODE.at r), (pgSumt b, SUMT_REG.STACK.at r)] s s') := by
  refine ⟨s.summitMode b r v.toNat, rfl, ?_⟩
  obtain ⟨hmode', hstack'⟩ := get_regionValues s b r v.toNat (l := []) (List.nil_sublist _)
  have hframe := s.putAll_frame (pgSumt b) (regionValues r v.toNat)
  rw [summitMode_of_stack hbusy hvalid hmode hstack]
  rw [List.append_nil] at hmode' hstack'
  refine ⟨hstack', hmode'.trans hmode, fun e => ?_, ?_, (RegsBut.of_putAll s _ (regionValues r v.toNat)).congr_right rfl⟩
  · rw [mem_dropRegion_cache, hframe]
  · rw [hframe]
    rfl

/-- A write of a region's register that changes neither. -/
theorem sumtModeWrite_of_same (hbusy : s.get (pgSumt b) (SUMT_REG.BUSY.at r) ≠ 1) (hvalid : v.toNat % 4 < 2)
    (hmode : v.toNat % 4 = s.get (pgSumt b) (SUMT_REG.MODE.at r))
    (hstack : v.toNat / 4 % 2 = s.get (pgSumt b) (SUMT_REG.STACK.at r)) :
    Gives (.sumtModeWrite b r v) s (fun s' =>
      OnlyRegs [(pgSumt b, SUMT_REG.MODE.at r), (pgSumt b, SUMT_REG.STACK.at r)] s s' ∧
      s'.get (pgSumt b) (SUMT_REG.MODE.at r) = s.get (pgSumt b) (SUMT_REG.MODE.at r) ∧
      s'.get (pgSumt b) (SUMT_REG.STACK.at r) = s.get (pgSumt b) (SUMT_REG.STACK.at r)) := by
  refine ⟨s.summitMode b r v.toNat, rfl, ?_⟩
  obtain ⟨hmode', hstack'⟩ := get_regionValues s b r v.toNat (l := []) (List.nil_sublist _)
  rw [List.append_nil] at hmode' hstack'
  rw [summitMode_of_same hbusy hvalid hmode hstack]
  exact ⟨⟨s.putAll_frame _ _, RegsBut.of_putAll s _ (regionValues r v.toNat)⟩, hmode'.trans hmode, hstack'.trans hstack⟩

theorem sumtModeDone_gives : Gives (.sumtModeDone b r) s (fun s' =>
    s'.get (pgSumt b) (SUMT_REG.BUSY.at r) = 0 ∧ OnlyRegs [(pgSumt b, SUMT_REG.BUSY.at r)] s s') :=
  ⟨_, rfl, s.get_put_self _ _ 0, (OnlyRegs.refl _ s).put List.mem_cons_self 0⟩

end

/-! ## The end of a checker (06 R185, R186) -/

/-- A channel's checker does not run, and its page shows that it ended, with `ABORT` as given. -/
def CheckEnded (s : State) (k c abort : Nat) : Prop :=
  s.checking k c = false ∧ s.get (pgEchk k c) ECHK_STAT.RUN = 0 ∧ s.get (pgEchk k c) ECHK_STAT.DONE = 1 ∧
    s.get (pgEchk k c) ECHK_STAT.ABORT = abort

/-- What the end of a checker writes on its page. -/
def endValues (abort : Bool) : List (Field × Nat) :=
  [(ECHK_STAT.RUN, 0), (ECHK_STAT.DONE, 1), (ECHK_STAT.ABORT, b2n abort)]

theorem checkerKey_ne {j d k c : Nat} (hd : d < 32) (hc : c < 32) (h : j ≠ k ∨ d ≠ c) : checkerKey j d ≠ checkerKey k c := by
  simp only [checkerKey]
  omega

theorem pgEchk_ne {k c d : Nat} (hc : c < 32) (hd : d < 32) (h : c ≠ d) : pgEchk k c ≠ pgEchk k d := by
  intro heq
  have hpage := congrArg (·.page.toNat) heq
  simp only [pgEchk, mkPage, BitVec.toNat_ofNat] at hpage
  omega

theorem checking_eq_true_iff {s : State} {k c : Nat} : s.checking k c = true ↔ ∃ e ∈ s.checkers, e.1 = checkerKey k c := by
  simp [State.checking]

theorem checking_congr {s t : State} (h : t.checkers = s.checkers) (k c : Nat) : t.checking k c = s.checking k c := by
  rw [State.checking, h, State.checking]

theorem checking_of_find {s : State} {k c : Nat} {x : Nat × Checker}
    (h : s.checkers.find? (fun e => e.1 == checkerKey k c) = some x) : s.checking k c = true :=
  checking_eq_true_iff.mpr ⟨x, List.mem_of_find?_eq_some h, by simpa using List.find?_some h⟩

section

variable (s : State) (k c : Nat) (abort : Bool)

theorem checkEnd_of_idle (h : s.checking k c = false) : s.checkEnd k c abort = s := by
  simp [State.checkEnd, h]

theorem checkEnd_of_checking (h : s.checking k c = true) : s.checkEnd k c abort =
    { s.putAll (pgEchk k c) (endValues abort) with checkers := s.checkers.filter (fun e => e.1 != checkerKey k c) } :=
  if_pos h

theorem checkers_checkEnd :
    (s.checkEnd k c abort).checkers = s.checkers.filter (fun e => e.1 != checkerKey k c) := by
  cases h : s.checking k c with
  | true => rw [checkEnd_of_checking s k c abort h]
  | false =>
    rw [checkEnd_of_idle s k c abort h, List.filter_eq_self.mpr]
    simpa [State.checking] using h

theorem checkEnd_frame :
    s.checkEnd k c abort = { s with regs := (s.checkEnd k c abort).regs, checkers := (s.checkEnd k c abort).checkers } := by
  cases h : s.checking k c with
  | true => rw [checkEnd_of_checking s k c abort h, State.putAll_frame]
  | false => rw [checkEnd_of_idle s k c abort h]

theorem checkEnd_regsBut :
    RegsBut [(pgEchk k c, ECHK_STAT.RUN), (pgEchk k c, ECHK_STAT.DONE), (pgEchk k c, ECHK_STAT.ABORT)] s
      (s.checkEnd k c abort) := by
  cases h : s.checking k c with
  | true =>
    rw [checkEnd_of_checking s k c abort h]
    exact (RegsBut.of_putAll s (pgEchk k c) (endValues abort)).congr_right rfl
  | false => exact .of_regs (by rw [checkEnd_of_idle s k c abort h])

theorem checking_checkEnd_self : (s.checkEnd k c abort).checking k c = false := by
  rw [State.checking, checkers_checkEnd, List.any_eq_false]
  intro e he
  simpa using (List.mem_filter.mp he).2

theorem checking_checkEnd_ne {j d : Nat} (h : checkerKey j d ≠ checkerKey k c) :
    (s.checkEnd k c abort).checking j d = s.checking j d := by
  rw [Bool.eq_iff_iff, checking_eq_true_iff, checking_eq_true_iff, checkers_checkEnd]
  refine exists_congr fun e => ?_
  rw [List.mem_filter, and_assoc]
  refine and_congr_right fun _ => and_iff_right_of_imp fun he => ?_
  rw [he]
  exact bne_iff_ne.mpr h

theorem checkEnd_ended (h : s.checking k c = true) : CheckEnded (s.checkEnd k c abort) k c (b2n abort) := by
  have hapart : (endValues abort).Pairwise (fun a b => a.1.apart b.1) := by cases abort <;> decide
  have hget {e : Field × Nat} (he : e ∈ endValues abort) :
      (s.checkEnd k c abort).get (pgEchk k c) e.1 = e.2 % 2 ^ (e.1.hi + 1 - e.1.lo) := by
    rw [← s.get_putAll_of_mem (pgEchk k c) hapart he]
    exact State.get_congr (by rw [checkEnd_of_checking s k c abort h]) _ _
  refine ⟨checking_checkEnd_self s k c abort, hget (e := (ECHK_STAT.RUN, 0)) (by simp [endValues]),
    hget (e := (ECHK_STAT.DONE, 1)) (by simp [endValues]), ?_⟩
  refine (hget (e := (ECHK_STAT.ABORT, b2n abort)) (by simp [endValues])).trans ?_
  cases abort <;> rfl

/-- What the end of a channel's checker leaves. -/
theorem checkEnd_onlyMine :
    s.checkEnd k c abort = { s with regs := (s.checkEnd k c abort).regs, checkers := (s.checkEnd k c abort).checkers } ∧
      RegsBut [(pgEchk k c, ECHK_STAT.RUN), (pgEchk k c, ECHK_STAT.DONE), (pgEchk k c, ECHK_STAT.ABORT)] s
        (s.checkEnd k c abort) ∧
      ∀ j d, checkerKey j d ≠ checkerKey k c → (s.checkEnd k c abort).checking j d = s.checking j d :=
  ⟨checkEnd_frame s k c abort, checkEnd_regsBut s k c abort, fun _ _ h => checking_checkEnd_ne s k c abort h⟩

end

/-! ## The start of a checker (06 R185) -/

/-- What the start of a checker writes on its page. -/
def startValues : List (Field × Nat) :=
  [(ECHK_STAT.RUN, 1), (ECHK_STAT.ABORT, 0), (ECHK_STAT.DONE, 0), (ECHK_MIS_SECT.COUNT, 0), (ECHK_MIS_BITS.COUNT, 0),
   (ECHK_FIRST.VALID, 0), (ECHK_FIRST.SECT, 0), (ECHK_CYCLES.COUNT, 0)]

theorem startValues_apart : startValues.Pairwise (fun a b => a.1.apart b.1) := by decide

theorem checkStart_of_enabled {s : State} {k c : Nat} (h : s.flag (pgEmc k) PAGE_CTRL.EN = true) : s.checkStart k c = s := by
  simp [State.checkStart, h]

/-- The PRBS31 register that a checker starts with in a pseudo-channel. -/
def State.checkSeed (s : State) (k c x : Nat) : Nat :=
  max 1 (Config.prbsStart (max 1 (s.get (pgEchk k c) ECHK_CFG.SEED)) x).toNat

theorem checkSeed_pos (s : State) (k c x : Nat) : 0 < s.checkSeed k c x := lt_max_of_lt_left Nat.one_pos

theorem checkStart_of_free {s : State} {k c : Nat} (hoff : s.flag (pgEmc k) PAGE_CTRL.EN = false)
    (hidle : s.checking k c = false) (hused : s.stackUsed k = true) :
    s.checkStart k c = { s.putAll (pgEchk k c) startValues with checkers := s.checkers ++ [(checkerKey k c,
      { next := 0, queue := [], prbs0 := s.checkSeed k c 0, prbs1 := s.checkSeed k c 1, stop := false })] } := by
  rw [State.checkStart, if_neg (by simp [hoff, hidle, hused])]
  simp only [startValues, State.putAll, List.foldl_cons, List.foldl_nil, State.checkSeed, State.put_checkers]

theorem echkStart_gives (k : Stack) (c : Fin 32) (s : State) (hoff : s.flag (pgEmc k) PAGE_CTRL.EN = false)
    (hidle : s.checking k c = false) (hused : s.stackUsed k = true) :
    Gives (.echkStart k c) s (fun s' => s'.checking k c = true ∧ s'.get (pgEchk k c) ECHK_STAT.RUN = 1 ∧
      (∀ f ∈ startValues.tail.map (·.1), s'.get (pgEchk k c) f = 0) ∧
      (∃ x y : Nat, 0 < x ∧ 0 < y ∧ s' = { s with regs := s'.regs, checkers := s.checkers ++
        [(checkerKey k c, { next := 0, queue := [], prbs0 := x, prbs1 := y, stop := false })] }) ∧
      RegsBut (startValues.map (fun e => (pgEchk k c, e.1))) s s') := by
  refine ⟨s.checkStart k c, rfl, ?_⟩
  have hstart := checkStart_of_free hoff hidle hused
  have hregs : (s.checkStart k c).regs = (s.putAll (pgEchk k c) startValues).regs := by rw [hstart]
  have hget {e : Field × Nat} (he : e ∈ startValues) :
      (s.checkStart k c).get (pgEchk k c) e.1 = e.2 % 2 ^ (e.1.hi + 1 - e.1.lo) :=
    (State.get_congr hregs _ _).trans (s.get_putAll_of_mem _ startValues_apart he)
  refine ⟨?_, hget (e := (ECHK_STAT.RUN, 1)) List.mem_cons_self, fun f hf => ?_,
    ⟨_, _, checkSeed_pos s k c 0, checkSeed_pos s k c 1, ?_⟩, (RegsBut.of_putAll s _ startValues).congr_right hregs⟩
  · exact checking_eq_true_iff.mpr ⟨_, by rw [hstart]; exact List.mem_append_right _ List.mem_cons_self, rfl⟩
  · have hzero : ∀ e ∈ startValues.tail, e.2 = 0 := by decide
    obtain ⟨e, he, rfl⟩ := List.mem_map.mp hf
    rw [hget (List.mem_of_mem_tail he), hzero e he, Nat.zero_mod]
  · rw [hregs, hstart, State.putAll_frame]

/-! ## Checkers stopped, and those that reach their end (06 R186) -/

/-- The sectors of one access of a channel's checker. -/
def State.checkSectors (s : State) (k c : Nat) : Nat :=
  (if s.get (pgEchk k c) ECHK_CFG.OP = 2 then 2 else 1) * (if s.get (pgEchk k c) ECHK_CFG.PATH = 0 then 8 else 1)

/-- The queued sectors of the accesses of which some have moved, where an access has `n` sectors. -/
def Checker.begun (x : Checker) (n : Nat) : List CheckEntry :=
  x.queue.filter (fun e => decide ((x.queue.filter (fun f => f.n == e.n)).length < n))

theorem mem_begun {x : Checker} {n : Nat} {e : CheckEntry} :
    e ∈ x.begun n ↔ e ∈ x.queue ∧ (x.queue.filter (fun f => f.n == e.n)).length < n := by
  rw [Checker.begun, List.mem_filter, decide_eq_true_eq]

theorem begun_eq_nil_iff {x : Checker} {n : Nat} :
    x.begun n = [] ↔ ∀ e ∈ x.queue, ¬(x.queue.filter (fun f => f.n == e.n)).length < n := by
  simp [Checker.begun, List.filter_eq_nil_iff]

section

variable {s : State} {k c : Nat}

theorem checkStop_eq {x : Nat × Checker} (h : s.checkers.find? (fun e => e.1 == checkerKey k c) = some x) :
    s.checkStop k c = if (x.2.begun (s.checkSectors k c)).isEmpty then s.checkEnd k c false
      else { s with checkers := s.checkers.map (fun e => if e.1 = checkerKey k c then
        (e.1, { x.2 with queue := x.2.begun (s.checkSectors k c), stop := true }) else e) } := by
  have hsectors : s.checkSectors k c = if s.get (pgEchk k c) ECHK_CFG.OP = 2
      then 2 * (if s.get (pgEchk k c) ECHK_CFG.PATH = 0 then 8 else 1)
      else if s.get (pgEchk k c) ECHK_CFG.PATH = 0 then 8 else 1 := by
    rw [State.checkSectors, ite_mul, Nat.one_mul]
  rw [State.checkStop, h, hsectors]
  rfl

theorem find_none_of_idle (h : s.checking k c = false) :
    s.checkers.find? (fun e => e.1 == checkerKey k c) = none := by
  simpa [State.checking] using h

theorem checkStop_of_idle (h : s.checking k c = false) : s.checkStop k c = s := by
  rw [State.checkStop, find_none_of_idle h]

theorem checkDone_of_idle (h : s.checking k c = false) : s.checkDone k c = s := by
  rw [State.checkDone, find_none_of_idle h]

/-- A checker begins nothing more once it is stopped or its count is reached. -/
theorem checkGoes_eq_false {x : Checker} (h : x.stop = true ∨
    (s.get (pgEchk k c) ECHK_COUNT.COUNT ≠ 0 ∧ s.get (pgEchk k c) ECHK_COUNT.COUNT ≤ x.next)) : s.checkGoes k c x = false := by
  rw [State.checkGoes]
  rcases h with hstop | ⟨hcount, hreached⟩
  · simp [hstop]
  · simp [hcount, hreached]

theorem checkDone_of_over {x : Nat × Checker} (h : s.checkers.find? (fun e => e.1 == checkerKey k c) = some x)
    (hqueue : x.2.queue = []) (hgoes : s.checkGoes k c x.2 = false) : s.checkDone k c = s.checkEnd k c false := by
  rw [State.checkDone, h]
  simp [hqueue, hgoes]

end

section

variable (k : Stack) (c : Fin 32) (s : State) {x : Nat × Checker}
  (hx : s.checkers.find? (fun e => e.1 == checkerKey k c) = some x)
include hx

theorem checkStop_of_none_begun (h : ∀ e ∈ x.2.queue, ¬(x.2.queue.filter (fun f => f.n == e.n)).length < s.checkSectors k c) :
    s.checkStop k c = s.checkEnd k c false := by
  rw [checkStop_eq hx, begun_eq_nil_iff.mpr h]
  rfl

/-- With an access begun, a stopped checker goes on with that one alone. -/
theorem echkStop_of_begun
    (h : ∃ e ∈ x.2.queue, (x.2.queue.filter (fun f => f.n == e.n)).length < s.checkSectors k c) :
    Gives (.echkStop k c) s (fun s' => s' = { s with checkers := s'.checkers } ∧ s'.checking k c = true ∧
      (∀ j d, checkerKey j d ≠ checkerKey k c → s'.checking j d = s.checking j d) ∧
      ∀ y ∈ s'.checkers, y.1 = checkerKey k c → y.2.stop = true ∧ ∀ e, e ∈ y.2.queue ↔
        e ∈ x.2.queue ∧ (x.2.queue.filter (fun f => f.n == e.n)).length < s.checkSectors k c) := by
  refine ⟨s.checkStop k c, rfl, ?_⟩
  have hbegun : ¬(x.2.begun (s.checkSectors k c)).isEmpty = true := by
    rw [List.isEmpty_iff, begun_eq_nil_iff]
    push Not
    exact h
  have hchecking (j d : Nat) : (s.checkStop k c).checking j d = s.checking j d := by
    rw [checkStop_eq hx, if_neg hbegun, State.checking, State.checking, List.any_map]
    congr 1
    funext e
    simp only [Function.comp_apply]
    split <;> rfl
  refine ⟨by rw [checkStop_eq hx, if_neg hbegun], (hchecking k c).trans (checking_of_find hx), fun j d _ => hchecking j d,
    fun y hy hkey => ?_⟩
  rw [checkStop_eq hx, if_neg hbegun] at hy
  obtain ⟨e, -, rfl⟩ := List.mem_map.mp hy
  by_cases he : e.1 = checkerKey k c
  · rw [if_pos he]
    exact ⟨rfl, fun e => mem_begun⟩
  · rw [if_neg he] at hkey
    exact absurd hkey he

end

/-! ## The EMC enabled (06 R185) -/

/-- The checkers of the first `n` channels of a stack have ended with `ABORT`, and nothing else has changed. -/
structure AbortedBelow (k n : Nat) (s t : State) : Prop where
  frame : t = { s with regs := t.regs, checkers := t.checkers }
  checking : ∀ j d, d < 32 → t.checking j d = (s.checking j d && !(j == k && decide (d < n)))
  get : ∀ q f, (∀ e ∈ endValues true, e.1.apart f = true) → t.get q f = s.get q f
  ended : ∀ c < n, s.checking k c = true → CheckEnded t k c 1

/-- The end of one channel's checker leaves what another channel's page shows of its end. -/
theorem CheckEnded.checkEnd {t : State} {k c d abort : Nat} {a : Bool} (h : CheckEnded t k c abort) (hc : c < 32) (hd : d < 32)
    (hne : c ≠ d) : CheckEnded (t.checkEnd k d a) k c abort := by
  obtain ⟨hchecking, hrun, hdone, habort⟩ := h
  have hget {f : Field} (hf : f.place < 2 ^ 17) : (t.checkEnd k d a).get (pgEchk k c) f = t.get (pgEchk k c) f := by
    refine checkEnd_regsBut t k d a _ _ ?_
    simp only [List.forall_mem_cons, List.not_mem_nil, false_implies, implies_true, and_true]
    have hkey {g : Field} (hg : g.place < 2 ^ 17) : fieldKey (pgEchk k c) f ≠ fieldKey (pgEchk k d) g :=
      fun heq => pgEchk_ne hc hd hne (eq_of_fieldKey_eq hf hg heq).1
    exact ⟨hkey (by decide), hkey (by decide), hkey (by decide)⟩
  exact ⟨(checking_checkEnd_ne t k d a (checkerKey_ne hc hd (.inr hne))).trans hchecking, (hget (by decide)).trans hrun,
    (hget (by decide)).trans hdone, (hget (by decide)).trans habort⟩

theorem AbortedBelow.step {k n : Nat} {s t : State} (h : AbortedBelow k n s t) (hn : n < 32) :
    AbortedBelow k (n + 1) s (t.checkEnd k n true) where
  frame := by rw [checkEnd_frame, h.frame]
  checking j d hd := by
    by_cases hsame : j = k ∧ d = n
    · obtain ⟨rfl, rfl⟩ := hsame
      simp [checking_checkEnd_self]
    · have hkey : checkerKey j d ≠ checkerKey k n := checkerKey_ne hd hn (by omega)
      have hbelow : (j == k && decide (d < n + 1)) = (j == k && decide (d < n)) := by
        rw [Bool.eq_iff_iff]
        simp only [Bool.and_eq_true, beq_iff_eq, decide_eq_true_eq]
        omega
      rw [checking_checkEnd_ne t k n true hkey, h.checking j d hd, hbelow]
  get q f hf := by
    refine ((checkEnd_regsBut t k n true).get_of_apart q ?_).trans (h.get q f hf)
    simpa [endValues] using hf
  ended c hc hrunning := by
    by_cases hcn : c = n
    · subst hcn
      refine checkEnd_ended t k c true ?_
      rw [h.checking k c hn, hrunning]
      simp
    · exact (h.ended c (by omega) hrunning).checkEnd (by omega) hn hcn

theorem abortedBelow_foldl (k : Nat) (s : State) {n : Nat} (hn : n ≤ 32) :
    AbortedBelow k n s ((List.range n).foldl (fun s c => s.checkEnd k c true) s) := by
  induction n with
  | zero => exact ⟨rfl, by simp, fun _ _ _ => rfl, by simp⟩
  | succ n ih =>
    rw [List.range_succ, List.foldl_append]
    exact (ih (by omega)).step hn

theorem emcEnabled_of_licensed {s : State} {k : Nat} (h : s.flag (pgEmc k) PAGE_CAPS.LIC_OFF = false) :
    AbortedBelow k 32 (s.putFlag (pgEmc k) PAGE_CTRL.EN true) (s.emcEnabled k) := by
  rw [State.emcEnabled, if_neg (by simp [h])]
  exact abortedBelow_foldl k _ le_rfl

theorem emcEnable_gives (k : Stack) (c : Fin 32) (s : State) (h : s.flag (pgEmc k) PAGE_CAPS.LIC_OFF = false) :
    Gives (.emcEnable k) s (fun s' => s'.flag (pgEmc k) PAGE_CTRL.EN = true ∧
      (∀ d : Fin 32, s'.checking k d = false) ∧ (s.checking k c = true → CheckEnded s' k c 1) ∧
      s' = { s with regs := s'.regs, checkers := s'.checkers } ∧
      ∀ j d, j ≠ k.val → d < 32 → s'.checking j d = s.checking j d) := by
  obtain ⟨hframe, hchecking, hget, hended⟩ := emcEnabled_of_licensed h
  have hstart : ∀ j d, (s.putFlag (pgEmc k) PAGE_CTRL.EN true).checking j d = s.checking j d := fun j d => rfl
  refine ⟨s.emcEnabled k, rfl, ?_, fun d => ?_, hended c c.isLt, hframe, fun j d hj hd => ?_⟩
  · rw [State.flag, hget _ _ (by decide)]
    exact s.flag_putFlag_self _ _ _ (by decide)
  · rw [hchecking k d d.isLt]
    simp
  · rw [hchecking j d hd, hstart]
    simp [hj]

/-- Settles O32: a write of a region's register is one of its four cases, and every end of a checker is `State.checkEnd`
(`checkEnd_ended`, `checkEnd_onlyMine`), which the enabled EMC calls for each channel (`AbortedBelow`). -/
theorem summitModesAndCheckers : Obligations.SummitModesAndCheckers := by
  unfold Obligations.SummitModesAndCheckers
  refine ⟨fun b r v s => ⟨fun hignored => ?_, ?_, ?_, ?_, ?_⟩, fun k c s => ⟨?_, fun hon => ?_, fun x hx => ⟨fun hnone => ?_,
    ?_, fun hqueue hover => ?_⟩, fun hidle => ⟨?_, ?_⟩, ?_⟩⟩
  · exact congrArg Host.Outcome.next (summitMode_of_ignored hignored)
  · exact sumtModeWrite_of_mode b r v s
  · exact sumtModeWrite_of_same b r v s
  · exact sumtModeWrite_of_stack b r v s
  · exact sumtModeDone_gives b r s
  · exact echkStart_gives k c s
  · exact congrArg Host.Outcome.next (checkStart_of_enabled hon)
  · exact ⟨_, congrArg Host.Outcome.next (checkStop_of_none_begun k c s hx hnone),
      checkEnd_ended s k c false (checking_of_find hx), checkEnd_onlyMine s k c false⟩
  · exact echkStop_of_begun k c s hx
  · exact ⟨_, congrArg Host.Outcome.next (checkDone_of_over hx hqueue (checkGoes_eq_false hover)),
      checkEnd_ended s k c false (checking_of_find hx), checkEnd_onlyMine s k c false⟩
  · exact congrArg Host.Outcome.next (checkStop_of_idle hidle)
  · exact congrArg Host.Outcome.next (checkDone_of_idle hidle)
  · exact emcEnable_gives k c s

end Sys2Proof.Machine
end

section
/-! Errors that a router or a link reports (07 R200, R206, R212): the fields of their page, and a counter beside them. -/

namespace Sys2Proof.Machine

open Sys2Proof.Say

/-- Fields of two pages have keys of their own. -/
theorem fieldKey_ne_of_page {p q : PageRef} {f g : Field} (h : q ≠ p) (hf : f.place < 2 ^ 17) (hg : g.place < 2 ^ 17) :
    fieldKey q g ≠ fieldKey p f :=
  fun hkey => h (eq_of_fieldKey_eq hg hf hkey).1

theorem State.get_put_page (s : State) {p q : PageRef} {f g : Field} (h : q ≠ p) (hf : f.place < 2 ^ 17)
    (hg : g.place < 2 ^ 17) (v : Nat) : (s.put p f v).get q g = s.get q g :=
  s.get_put_ne p q f g v (fieldKey_ne_of_page h hf hg)

/-- A field of a page other than the log's that is none of the header's error registers. -/
theorem ErrOnly.get_beside {p q : PageRef} {s r : State} (h : ErrOnly p s r) (hq : q ≠ pgMgmt) {f : Field}
    (hf : ∀ g ∈ errorHeader, g.apart f = true) : r.get q f = s.get q f := by
  have hplace : f.place < 2 ^ 17 := by
    have := hf _ List.mem_cons_self
    simp only [Field.apart, Bool.and_eq_true, decide_eq_true_eq] at this
    exact this.2
  refine h.2 q f fun e he => ?_
  rcases (mem_errFields (q := e.1) (g := e.2) he).2 with ⟨-, hg⟩ | hlog
  · exact fieldKey_ne_of_apart _ _ (hf _ hg)
  · exact fieldKey_ne_of_page (hlog ▸ hq) (mem_errFields he).1 hplace

/-- An error reported on a page other than the log's counts there. -/
theorem get_report_counter (s : State) {p : PageRef} (hp : p ≠ pgMgmt) (k : ErrKind) (code syn addr src : Nat) :
    (s.report p k code syn addr src).get p (errCounter k) = min (s.get p (errCounter k) + 1) (2 ^ 32 - 1) := by
  have hplace : (errCounter k).place < 2 ^ 17 := by cases k <;> decide
  have hlog : (s.report p k code syn addr src).get p (errCounter k) = (s.countError p k code syn).get p (errCounter k) := by
    refine (report_logOnly s p k code syn addr src).2 p _ ?_
    simp only [logFields, List.forall_mem_cons, List.not_mem_nil, false_implies, implies_true, and_true]
    exact ⟨fieldKey_ne_of_page hp (by decide) hplace, fieldKey_ne_of_page hp (by decide) hplace⟩
  have hbeside : ∀ f ∈ [PAGE_ERR_FIRST.VALID, PAGE_ERR_FIRST.CODE, PAGE_ERR_FIRST.SYNDROME, PAGE_ERR_NEXT.COUNT],
      f.apart (errCounter k) = true := by cases k <;> decide
  rw [hlog, get_countError_counter s p k _ _ _ (hbeside _ (by simp)) (hbeside _ (by simp)) (hbeside _ (by simp))
    (hbeside _ (by simp)), State.get_count_self]
  cases k <;> rfl

/-- An error reported on a page and counted in a register of the page's own. -/
structure ReportedIn (p : PageRef) (f : Field) (s t : State) : Prop where
  frame : t = { s with regs := t.regs, log := t.log }
  counted : t.get p f = min (s.get p f + 1) (2 ^ 32 - 1)
  errors : t.get p PAGE_ERR_CNT_U.COUNT = min (s.get p PAGE_ERR_CNT_U.COUNT + 1) (2 ^ 32 - 1)
  regs : RegsBut ((p, f) :: errFields p) s t

theorem reportedIn_count (s : State) {p : PageRef} (hp : p ≠ pgMgmt) {f : Field} (hwidth : f.hi + 1 - f.lo = 32)
    (hf : ∀ g ∈ errorHeader, g.apart f = true) (code syn : Nat) :
    ReportedIn p f s ((s.report p .u code syn 0 0).count p f 1) := by
  have herr := errOnly_report s p .u code syn 0 0
  refine ⟨?_, ?_, ?_, ?_⟩
  · rw [State.count, State.put_frame, herr.1]
  · rw [State.get_count_self, herr.get_beside hp hf, hwidth]
  · rw [State.get_count_apart _ _ _ _ _ _ (by rw [apart_comm]; exact hf _ (by decide))]
    exact get_report_counter s hp .u code syn 0 0
  · exact (herr.2.mono (List.subset_cons_self _ _)).put List.mem_cons_self _

end Sys2Proof.Machine
end

section
/-! The obligation on flit heads and route tables (07 R200, R201, R212). -/

namespace Sys2Proof.Machine

open Sys2Proof.Say

/-! ## Heads -/

theorem pgCnet_ne_pgMgmt : ∀ n : Die, pgCnet n ≠ pgMgmt := by decide
theorem pgBnet_ne_pgMgmt : ∀ b : Base, pgBnet b ≠ pgMgmt := by decide

theorem dieOfXY_lt (x y : Nat) : dieOfXY x y < 4 := by unfold dieOfXY; split <;> split <;> decide

theorem routerXY_base (x y : Fin 8) : routerXY (2048 + 8 * y.val + x.val) = (x.val, y.val) := by
  rw [routerXY]
  exact Prod.ext (by dsimp only; omega) (by dsimp only; omega)

theorem routerNumber_tile (n : Die) (x : Fin 6) (y : Fin 24) : let r := routerNumber (.tile n x y)
    r < 2048 ∧ r / 144 = n.val ∧ r % 6 = x.val ∧ r % 144 / 6 = y.val := by
  dsimp only [routerNumber]
  omega

section

variable {s : State} {r inp : Nat} {head : List Byte} {body : List (List Byte)} (hload : s.loading = false)
include hload

/-- A head of a known type between present nodes goes on by the routes of its router. -/
theorem routePacket_of_known {cls : Nat} {d : List Byte} (hd : (decodeSector (flitWord head)).2 = d)
    (hgood : (decodeSector (flitWord head)).1.damaged = false) (htype : typeClass false (hdType d) = some cls)
    (hsrc : s.nodePresent (nodeOf (hdSrc d)) = true) (hdst : s.nodePresent (nodeOf (hdDst d)) = true) :
    s.routePacket r inp head body =
      if r < 2048 then
        let o := s.tileRoute (r / 144) (r % 6) (r % 144 / 6) (hdSrc d) (hdDst d)
        s.routeTile r inp d ((codeWord d ++ head.drop 36) :: body) cls o.1 o.2
      else s.routeBase r inp d ((codeWord d ++ head.drop 36) :: body) cls
        (s.wayTo (routerXY r).1 (routerXY r).2 (hdDst d)) := by
  subst hd
  simp only [State.routePacket, hgood, hload, htype, hsrc, hdst, broadcast, Bool.false_and, Bool.false_eq_true, if_false,
    Bool.not_true, Bool.or_self]

/-- A head that cannot be read, or whose type or nodes the router does not know, is dropped. -/
theorem routePacket_of_unknown (h : (decodeSector (flitWord head)).1.damaged = true ∨
      typeClass false (hdType (decodeSector (flitWord head)).2) = none ∨
      s.nodePresent (nodeOf (hdSrc (decodeSector (flitWord head)).2)) = false ∨
      s.nodePresent (nodeOf (hdDst (decodeSector (flitWord head)).2)) = false) :
    ∃ reason, s.routePacket r inp head body = s.dropHead r reason := by
  unfold State.routePacket
  dsimp only
  split
  next => exact ⟨0, rfl⟩
  next hgood =>
    rw [hload]
    split
    next => exact ⟨1, rfl⟩
    next cls htype =>
      rw [htype] at h
      rw [if_neg (by simp [broadcast]), if_pos]
      · exact ⟨2, rfl⟩
      · rcases h with h | h | h | h
        · exact absurd h hgood
        · cases h
        · simp [h]
        · simp [h]

end

theorem hop_eq (s : State) (r dir cls src : Nat) (flits : List (List Byte)) : s.hop r dir cls src flits =
    { s with out := s.out ++ [.hop r dir cls (if 2048 ≤ r ∧ dir < 4 then src % 8 else 0) (flits.map (inClass cls))] } := rfl

/-- Within a compute die a packet between two of its tiles goes along x, then along y. -/
theorem tileRoute_inside (s : State) {n x y p q src dst : Nat} (hsrc : nodeOf src = .tile n q) (hdst : nodeOf dst = .tile n p) :
    s.tileRoute n x y src dst = if x ≠ p % 6 then (toward x (p % 6) dirWest dirEast, false)
      else if y ≠ p / 6 then (toward y (p / 6) dirSouth dirNorth, false) else (dirTile, false) := by
  simp only [State.tileRoute, hsrc, hdst, if_true, beq_self_eq_true]

/-- In a direction that is not its tile's, or to a tile whose domain is on, a packet leaves its router at once. -/
theorem routeTile_of_open (s : State) {r inp dir cls : Nat} {d : List Byte} (flits : List (List Byte)) (hdown : dir ≠ dirDown)
    (h : dir = dirTile → ∀ dom, s.tileDomain r d = some dom → s.domState dom = 0) :
    s.routeTile r inp d flits cls dir false = s.hop r dir cls (hdSrc d) flits := by
  have hleave : s.leaveTile r inp (hdSrc d) flits cls dir false = s.hop r dir cls (hdSrc d) flits := by
    simp only [State.leaveTile, hdown, if_false, Bool.false_eq_true]
  unfold State.routeTile
  split
  next => exact hleave
  next dom hdom =>
    split at hdom
    next htile =>
      have hon := h htile dom hdom
      have haccepts : s.domRefuses dom = false := by simp [State.domRefuses, State.offward, hon]
      rw [haccepts, if_neg Bool.false_ne_true, if_neg (not_not.mpr hon), hleave]
    next => cases hdom

/-- Within a quarter of the package the way goes along X, then along Y. -/
theorem baseRoute_inside (s : State) {x y tx ty : Nat} (port : Nat) (hx : x < 4 ↔ tx < 4) (hy : y < 4 ↔ ty < 4) :
    s.baseRoute x y tx ty port = if x ≠ tx then .go (toward x tx dirWest dirEast) false
      else if y ≠ ty then .go (toward y ty dirSouth dirNorth) false else .go (dirPort port) false := by
  simp [State.baseRoute, hx, hy]

theorem toward_lt {a b lo hi m : Nat} (hlo : lo < m) (hhi : hi < m) : toward a b lo hi < m := by
  unfold toward
  split
  · exact hlo
  · exact hhi

/-- Towards a neighbour a packet leaves its base router at once. -/
theorem routeBase_of_neighbour (s : State) {r inp dir cls : Nat} (d : List Byte) (flits : List (List Byte)) (h : dir < 4) :
    s.routeBase r inp d flits cls (.go dir false) = s.hop r dir cls (hdSrc d) flits := by
  have hport : ¬8 ≤ dir := by omega
  simp only [State.routeBase, hport, if_false, State.leaveBase, Bool.false_eq_true]

/-- The page of a router, and its counter of dropped heads. -/
def dropCounter : RouterRef → PageRef × Field
  | .tile n _ _ => (pgCnet n, CNET_HDR_DROP.COUNT)
  | .base x y => (pgBnet (dieOfXY x y), BNET_HDR_DROP.COUNT)

theorem reportedIn_dropHead (s : State) (r : RouterRef) (reason : Nat) :
    ReportedIn (dropCounter r).1 (dropCounter r).2 s (s.dropHead (routerNumber r) reason) := by
  cases r with
  | tile n x y =>
    obtain ⟨hlow, hdie, -, -⟩ := routerNumber_tile n x y
    rw [State.dropHead, if_pos hlow, hdie]
    exact reportedIn_count s (pgCnet_ne_pgMgmt n) rfl (f := CNET_HDR_DROP.COUNT) (by decide) 0x12 reason
  | base x y =>
    have hhigh : ¬routerNumber (.base x y) < 2048 := by rw [routerNumber]; omega
    rw [State.dropHead, if_neg hhigh, routerNumber, routerXY_base]
    exact reportedIn_count s (pgBnet_ne_pgMgmt ⟨_, dieOfXY_lt x y⟩) rfl (f := BNET_HDR_DROP.COUNT) (by decide) 0x12 reason

/-- A head that its router knows goes on as the routes say. -/
theorem exec_flitHeadRoute {r : RouterRef} {inp : Fin 16} {head : List Byte} {body : List (List Byte)} {s : State}
    (hwf : (Instr.flitHeadRoute ⟨r, inp⟩ head body).wellFormed = true) (hlen : lenFits head body = true) :
    exec (.flitHeadRoute ⟨r, inp⟩ head body) s = .next (s.routePacket (routerNumber r) inp head body) :=
  if_pos (by rw [hwf, hlen]; rfl)

/-! ## Route tables -/

theorem testBit_foldl_two_pow (p : Nat → Bool) (n : Nat) :
    let v := ((List.range n).filter p).foldl (fun m i => m + 2 ^ i) 0
    ∀ l < n, v.testBit l = p l := by
  have hsum : ∀ (l : List Nat) (a : Nat), (l.filter p).foldl (fun m i => m + 2 ^ i) a =
      l.foldl (fun m i => m + if p i then 2 ^ i else 0) a := by
    intro l
    induction l with
    | nil => exact fun _ => rfl
    | cons i l ih =>
      intro a
      rw [List.filter_cons]
      split
      next h => rw [List.foldl_cons, List.foldl_cons, ih, if_pos h]
      next h => rw [List.foldl_cons, ih, if_neg h]; rfl
  rw [hsum]
  exact (foldl_bits p n).2

theorem bit_eq_testBit (v i : Nat) : bit v i = v.testBit i := by
  rw [bit, Nat.testBit_eq_decide_div_mod_eq]
  rfl

/-- The mask of the links held down has the bit of each. -/
theorem bit_heldMask (s : State) {i : Nat} (h : i < 16) : bit s.heldMask i = (s.seamState (i / 4) (i % 4) == smHeld) := by
  rw [bit_eq_testBit, State.heldMask]
  exact testBit_foldl_two_pow (fun i => s.seamState (i / 4) (i % 4) == smHeld) 16 i h

theorem heldMask_ne_zero_iff (s : State) : s.heldMask ≠ 0 ↔ ∃ sm < 4, ∃ l < 4, s.seamState sm l = smHeld := by
  constructor
  · intro h
    by_contra hnone
    push Not at hnone
    refine h ?_
    have hfilter : (List.range 16).filter (fun i => s.seamState (i / 4) (i % 4) == smHeld) = [] :=
      List.filter_eq_nil_iff.mpr fun i hi => by
        have hi := List.mem_range.mp hi
        simpa using hnone (i / 4) (by omega) (i % 4) (by omega)
    rw [State.heldMask, hfilter]
    rfl
  · rintro ⟨sm, hsm, l, hl, hheld⟩ hzero
    have hbit := bit_heldMask s (i := 4 * sm + l) (by omega)
    rw [hzero, show (4 * sm + l) / 4 = sm by omega, show (4 * sm + l) % 4 = l by omega, hheld] at hbit
    exact absurd hbit (by rw [bit_eq_testBit]; simp)

/-- The state in which the tables of a base die have been rewritten and nothing has waited there. -/
def State.rewritten (s : State) (b : Nat) (detour : Bool) : State :=
  let t := (s.wrapCount (pgBnet b) BNET_RT_STAT.GEN 1).putFlag (pgBnet b) BNET_RT_STAT.DETOUR detour
  { t with net := { s.net with known := mapSet 0 s.net.known b s.heldMask } }

theorem rewriteRoutes_of_none (s : State) (b : Nat) (hfw : s.boot.fw = fwMain)
    (hnone : s.net.stalled.any (fun e => routerBase e.1 == b) = false) :
    s.rewriteRoutes b = s.rewritten b
      (s.heldMask != 0 || (List.range 3).any (fun u => s.get (pgCnet (3 * b + u)) CNET_DROP_DOWN.DOWN != 0)) := by
  have hkeep : s.net.stalled.filter (fun e => !(routerBase e.1 == b)) = s.net.stalled :=
    List.filter_eq_self.mpr fun e he => by simpa using (List.any_eq_false.mp hnone) e he
  have hgo : s.net.stalled.filter (fun e => routerBase e.1 == b) = [] :=
    List.filter_eq_nil_iff.mpr fun e he => (List.any_eq_false.mp hnone) e he
  have hmain : ¬s.boot.fw ≠ 2 := not_not.mpr hfw
  simp only [State.rewriteRoutes, hmain, if_false, State.putFlag, State.wrapCount, State.put_net, hkeep, hgo]
  rfl

theorem avoided_rewritten (s : State) (b e sm l : Nat) (detour : Bool) : (s.rewritten b detour).avoided e sm l =
    if e = b then bit s.heldMask (4 * sm + l) else s.avoided e sm l := by
  have hknown : (s.rewritten b detour).net.known = mapSet 0 s.net.known b s.heldMask := rfl
  rw [State.avoided, hknown, mapGet_mapSet]
  split
  · rfl
  · rfl

theorem rewritten_regs (s : State) (b : Nat) (detour : Bool) :
    (s.rewritten b detour).get (pgBnet b) BNET_RT_STAT.GEN = (s.get (pgBnet b) BNET_RT_STAT.GEN + 1) % 65536 ∧
    (s.rewritten b detour).flag (pgBnet b) BNET_RT_STAT.DETOUR = detour ∧
    RegsBut [(pgBnet b, BNET_RT_STAT.GEN), (pgBnet b, BNET_RT_STAT.DETOUR)] s (s.rewritten b detour) := by
  have hwidth : 2 ^ (BNET_RT_STAT.GEN.hi + 1 - BNET_RT_STAT.GEN.lo) = 65536 := rfl
  have hregs : (s.rewritten b detour).regs =
    ((s.wrapCount (pgBnet b) BNET_RT_STAT.GEN 1).putFlag (pgBnet b) BNET_RT_STAT.DETOUR detour).regs := rfl
  refine ⟨?_, ?_, ((RegsBut.of_regs rfl).put (by simp) _ |>.put (by simp) _).congr_right hregs⟩
  · rw [State.get_congr hregs, State.putFlag, State.get_put_apart _ _ _ _ _ _ (by decide), State.wrapCount,
      State.get_put_self, hwidth]
  · rw [State.flag, State.get_congr hregs]
    exact State.flag_putFlag_self _ _ _ _ (by decide)

section

variable {s : State} {r : RouterRef} {inp : Fin 16} {head : List Byte} {body : List (List Byte)}
  (hwf : (Instr.flitHeadRoute ⟨r, inp⟩ head body).wellFormed = true) (hlen : lenFits head body = true)
  (hload : s.loading = false) {d : List Byte} (hd : (decodeSector (flitWord head)).2 = d)
  (hgood : (decodeSector (flitWord head)).1.damaged = false) {cls : Nat} (htype : typeClass false (hdType d) = some cls)
  (hsrc : s.nodePresent (nodeOf (hdSrc d)) = true) (hdst : s.nodePresent (nodeOf (hdDst d)) = true)
include hwf hlen hload hd hgood htype hsrc hdst

/-- A head forwarded in a direction by a tile router. -/
theorem flitHeadRoute_tile {n : Die} {x : Fin 6} {y : Fin 24} (hr : r = .tile n x y) {dir : Nat}
    (hroute : s.tileRoute n x y (hdSrc d) (hdDst d) = (dir, false)) (hdown : dir ≠ dirDown)
    (hopen : dir = dirTile → ∀ dom, s.tileDomain (routerNumber r) d = some dom → s.domState dom = 0) :
    exec (.flitHeadRoute ⟨r, inp⟩ head body) s =
      .next (s.hop (routerNumber r) dir cls (hdSrc d) ((codeWord d ++ head.drop 36) :: body)) := by
  subst hr
  obtain ⟨hlow, hdie, hcol, hrow⟩ := routerNumber_tile n x y
  rw [exec_flitHeadRoute hwf hlen, routePacket_of_known hload hd hgood htype hsrc hdst, if_pos hlow, hdie, hcol, hrow,
    hroute]
  exact congrArg _ (routeTile_of_open s _ hdown hopen)

/-- A head forwarded to a neighbour by a base router. -/
theorem flitHeadRoute_base {x y : Fin 8} (hr : r = .base x y) {dir : Nat} (hdir : dir < 4)
    (hway : s.wayTo x y (hdDst d) = .go dir false) :
    exec (.flitHeadRoute ⟨r, inp⟩ head body) s =
      .next (s.hop (routerNumber r) dir cls (hdSrc d) ((codeWord d ++ head.drop 36) :: body)) := by
  subst hr
  have hhigh : ¬routerNumber (.base x y) < 2048 := by rw [routerNumber]; omega
  rw [exec_flitHeadRoute hwf hlen, routePacket_of_known hload hd hgood htype hsrc hdst, if_neg hhigh]
  dsimp only [routerNumber] at *
  rw [routerXY_base, hway, routeBase_of_neighbour s d _ hdir]

end

/-- Settles O34: heads go by `routePacket_of_known` and the routes within a die and a quarter, others are dropped
(`reportedIn_dropHead`); the tables take the mask of the links held down. -/
theorem flitHeadsAndRouteTables : Obligations.FlitHeadsAndRouteTables := by
  unfold Obligations.FlitHeadsAndRouteTables
  refine ⟨?_, ?_⟩
  · intro r inp head body s c e d src dst track sends hwf hlen hload
    refine ⟨fun cls hgood htype hsrc hdst => ⟨?_, ?_⟩, fun hbad => ?_⟩
    · intro n x y p q hr hp hq
      have hroute := tileRoute_inside s (x := x) (y := y) hq hp
      have hsends (dir : Nat) (hdir : s.tileRoute n x y (hdSrc d) (hdDst d) = (dir, false)) (hdown : dir ≠ dirDown)
          (hopen : dir = dirTile → ∀ dom, s.tileDomain (routerNumber r) d = some dom → s.domState dom = 0) :
          sends dir cls := by
        have hlow : ¬2048 ≤ routerNumber r := by subst hr; exact Nat.not_le.mpr (routerNumber_tile n x y).1
        refine (flitHeadRoute_tile hwf hlen hload rfl hgood htype hsrc hdst hr hdir hdown hopen).trans ?_
        rw [hop_eq, if_neg (fun h => hlow h.1)]
        simp only [track, if_neg hlow]
        rfl
      have hside (dir : Nat) (hdir : s.tileRoute n x y (hdSrc d) (hdDst d) = (dir, false)) (hlt : dir < 4) : sends dir cls :=
        hsends dir hdir (Nat.ne_of_lt hlt) (fun h => absurd (h ▸ hlt) (by decide))
      refine ⟨fun hx => ?_, fun hx hy => ?_, fun hx hy hon => ?_⟩
      · exact hside _ (hroute.trans (if_pos hx)) (toward_lt (by decide) (by decide))
      · exact hside _ (hroute.trans ((if_neg (not_not.mpr hx)).trans (if_pos hy))) (toward_lt (by decide) (by decide))
      · exact hsends _ (hroute.trans ((if_neg (not_not.mpr hx)).trans (if_neg (not_not.mpr hy)))) (by decide) (fun _ => hon)
    · intro x y tx ty port hr hdst' hx hy
      have hway : s.wayTo x y (hdDst d) = s.baseRoute x y tx ty port := by
        rw [State.wayTo, show nodeOf (hdDst d) = _ from hdst']
      have hsends (dir : Nat) (hdir : s.baseRoute x y tx ty port = .go dir false) (hlt : dir < 4) : sends dir cls := by
        have hhigh : 2048 ≤ routerNumber r := by subst hr; rw [routerNumber]; omega
        refine (flitHeadRoute_base hwf hlen hload rfl hgood htype hsrc hdst hr hlt (hway.trans hdir)).trans ?_
        rw [hop_eq, if_pos ⟨hhigh, hlt⟩]
        simp only [track, if_pos hhigh]
        rfl
      have hroute := baseRoute_inside s port hx hy
      refine ⟨fun hx => ?_, fun hx hy => ?_⟩
      · exact hsends _ (hroute.trans (if_pos hx)) (toward_lt (by decide) (by decide))
      · exact hsends _ (hroute.trans ((if_neg (not_not.mpr hx)).trans (if_pos hy))) (toward_lt (by decide) (by decide))
    · obtain ⟨reason, hdrop⟩ := routePacket_of_unknown hload (r := routerNumber r) (inp := inp) (body := body) hbad
      obtain ⟨hframe, hcounted, herrors, hregs⟩ := reportedIn_dropHead s r reason
      exact ⟨_, (exec_flitHeadRoute hwf hlen).trans (congrArg _ hdrop), hframe, hcounted, herrors, hregs⟩
  · intro b s p here drops
    refine ⟨fun hfw hnone => ?_, fun hsome => ?_, fun hnone => ?_⟩
    · obtain ⟨hgen, hdetour, hregs⟩ := rewritten_regs s b (s.heldMask != 0 || drops)
      have htables := avoided_rewritten s b (detour := s.heldMask != 0 || drops)
      refine ⟨_, congrArg Host.Outcome.next (rewriteRoutes_of_none s b hfw hnone), rfl, fun sm l hsm hl => ?_,
        fun e sm l he => ?_, hgen, ?_, hregs⟩
      · rw [htables, if_pos rfl, bit_heldMask s (by omega), show (4 * sm + l) / 4 = sm by omega,
          show (4 * sm + l) % 4 = l by omega]
      · exact (htables e sm l).trans (if_neg he)
      · rw [hdetour, Bool.or_eq_true, bne_iff_ne, heldMask_ne_zero_iff]
        exact or_comm
    · have hstall : exec (.stallDrop b) s = _ := congrArg Host.Outcome.next (if_pos hsome)
      obtain ⟨hframe, hcounted, herrors, hregs⟩ := reportedIn_count { s with net := { s.net with
        stalled := s.net.stalled.eraseP here } } (pgBnet_ne_pgMgmt b) (f := BNET_STALL_DROP.COUNT) rfl (by decide) 0x14 0
      exact ⟨_, hstall, hframe, hcounted, herrors, hregs⟩
    · exact congrArg Host.Outcome.next (if_neg (ne_true_of_eq_false hnone))

end Sys2Proof.Machine
end

section
/-! Die-to-die links (07 R204 to R206, R210): frames sent again, and a seam link that goes to EXCHANGE. -/

namespace Sys2Proof.Machine

open Sys2Proof.Say

/-! ## Frames sent -/

theorem foldl_emit {α : Type} (f : α → OutMsg) (l : List α) (s : State) :
    l.foldl (fun s x => s.emit (f x)) s = { s with out := s.out ++ l.map f } := by
  induction l generalizing s with
  | nil => simp
  | cons x l ih => rw [List.foldl_cons, ih]; simp [State.emit]

/-- The frames that a link end has sent and not had acknowledged, as it sends them again. -/
def State.resent (s : State) (i : Nat) : List OutMsg :=
  (s.link i).replay.map (fun e => .d2d i (d2dFrame ltFlit e.1 (s.link i).last e.2))

section

variable (s : State) (i : Nat)

theorem linkResend_of_sends (hopen : s.linkOpen i = true) (hsent : (s.link i).replay ≠ []) :
    s.linkResend i = { s with out := s.out ++ s.resent i }.count (linkPage i) (replayField i) 1 := by
  have hgo : ((s.link i).replay.isEmpty || !s.linkOpen i) = false := by
    rw [hopen, Bool.not_true, Bool.or_false, List.isEmpty_eq_false_iff]
    exact hsent
  simp only [State.linkResend, hgo, Bool.false_eq_true, if_false, foldl_emit]
  rfl

theorem linkResend_of_still (h : ¬(s.linkOpen i = true ∧ (s.link i).replay ≠ [])) : s.linkResend i = s := by
  refine if_pos ?_
  by_contra hgo
  simp only [Bool.or_eq_true, not_or, Bool.not_eq_true', Bool.not_eq_false, List.isEmpty_iff] at hgo
  exact h ⟨hgo.2, hgo.1⟩

theorem replayField_width : (replayField i).hi + 1 - (replayField i).lo = 32 := by
  unfold replayField
  split <;> rfl

/-- What a link end that may send flits sends again. -/
theorem linkResend_of_open (hopen : s.linkOpen i = true) :
    s.linkResend i = { s with regs := (s.linkResend i).regs, out := s.out ++ s.resent i } ∧
      RegsBut [(linkPage i, replayField i)] s (s.linkResend i) := by
  by_cases hsent : (s.link i).replay = []
  · have hnone : s.resent i = [] := by rw [State.resent, hsent]; rfl
    rw [linkResend_of_still s i (fun h => h.2 hsent), hnone, List.append_nil]
    exact ⟨rfl, .of_regs rfl⟩
  · rw [linkResend_of_sends s i hopen hsent]
    exact ⟨rfl, RegsBut.put (.of_regs rfl) List.mem_cons_self _⟩

/-- An acknowledgement of no frame in the buffer. -/
theorem linkAck_of_unknown {ack : Nat} (h : ∀ e ∈ (s.link i).replay, e.1 ≠ ack) : s.linkAck i ack = s := by
  have hnone : (s.link i).replay.findIdx? (fun f => f.1 == ack) = none :=
    List.findIdx?_eq_none_iff.mpr fun e he => by simpa using h e he
  simp only [State.linkAck, hnone]

/-- With nothing to send, a link sends nothing. -/
theorem linkPump_of_idle (hqueue : (s.link i).queue = []) (hactive : (s.link i).active = []) : s.linkPump i = s := by
  have hnext (c : Nat) : (s.link i).nextPacket c = none := by
    rw [Link.nextPacket, hqueue]
    exact List.findSome?_eq_none_iff.mpr fun _ _ => rfl
  have hflit (c : Nat) : (s.link i).takeFlit c = none := by
    rw [Link.takeFlit, hactive, hnext]
    rfl
  have hsend : s.linkSend i = s := by
    have hnone : (s.link i).order.findSome? (s.link i).takeFlit = none :=
      List.findSome?_eq_none_iff.mpr fun c _ => hflit c
    simp only [State.linkSend, hnone, ite_self]
  have hfold : ∀ l : List Nat, l.foldl (fun s _ => s.linkSend i) s = s := by
    intro l
    induction l with
    | nil => rfl
    | cons _ l ih => rw [List.foldl_cons, hsend, ih]
  exact hfold _

end

/-! ## Fields of one page written together -/

/-- A field written among others that lie apart from it. -/
theorem get_of_putAll {s u : State} {p : PageRef} {l : List (Field × Nat)} (hregs : u.regs = (s.putAll p l).regs)
    (hl : (l.map Prod.fst).Pairwise (fun f g => f.apart g = true)) {f : Field} {v : Nat} (he : (f, v) ∈ l)
    (hv : v < 2 ^ (f.hi + 1 - f.lo)) : u.get p f = v := by
  rw [State.get_congr hregs, s.get_putAll_of_mem p (List.pairwise_map.mp hl) he, Nat.mod_eq_of_lt hv]

theorem regsBut_of_putAll {s u : State} {p : PageRef} {l : List (Field × Nat)} (hregs : u.regs = (s.putAll p l).regs) :
    RegsBut (l.map (fun e => (p, e.1))) s u :=
  (RegsBut.of_putAll s p l).congr_right hregs

/-! ## Training -/

/-- The fields of a seam link that a change of its state may write. -/
def seamFields (sm m : Nat) : Fields :=
  [(pgSeam sm, SEAM_LINK.STATE.at m), (pgSeam sm, SEAM_LINK.ATTEMPTS.at m), (pgSeam sm, SEAM_LINK.RETRAINS.at m)]

theorem sendTraining_eq (s : State) (sm l : Nat) : s.sendTraining sm l = { s with out := s.out ++ trainingOut s sm l } := by
  have hfold : ∀ (ends : List Nat) (t : State), t.links = s.links →
      ends.foldl (fun s i => s.emit (.d2d i (d2dFrame ltTraining 0 (s.link i).last []))) t =
        { t with out := t.out ++ ends.map (fun j => .d2d j (d2dFrame ltTraining 0 (s.link j).last [])) } := by
    intro ends
    induction ends with
    | nil => intro t _; simp
    | cons i ends ih =>
      intro t hlinks
      have hlink : t.link i = s.link i := by rw [State.link, hlinks, State.link]
      rw [List.foldl_cons, ih (t.emit _) hlinks, hlink]
      simp [State.emit]
  exact hfold _ s rfl

/-- The registers that a seam link writes as it goes to EXCHANGE, with `DEGRADED` at `v`. -/
def State.trainValues (s : State) (sm m v : Nat) : List (Field × Nat) :=
  [(SEAM_LINK.STATE.at m, smExchange), (SEAM_LINK.ATTEMPTS.at m, 0),
    (SEAM_LINK.RETRAINS.at m, min (s.get (pgSeam sm) (SEAM_LINK.RETRAINS.at m) + 1) 255), (PAGE_STAT.DEGRADED, v)]

theorem trainFields_apart (m : Fin 4) : [SEAM_LINK.STATE.at m, SEAM_LINK.ATTEMPTS.at m, SEAM_LINK.RETRAINS.at m,
    PAGE_STAT.DEGRADED].Pairwise (fun f g => f.apart g = true) := by
  revert m
  decide

theorem seamDegraded_eq (s : State) (sm : Nat) : ∃ b, s.seamDegraded sm = s.putFlag (pgSeam sm) PAGE_STAT.DEGRADED b :=
  ⟨_, rfl⟩

theorem seamTrain_eq (s : State) (sm : Nat) (m : Fin 4) : ∃ v, s.seamTrain sm m =
    { s.putAll (pgSeam sm) (s.trainValues sm m v) with out := s.out ++ trainingOut s sm m } := by
  have hretrains : ((s.put (pgSeam sm) (SEAM_LINK.STATE.at m) smExchange).put (pgSeam sm) (SEAM_LINK.ATTEMPTS.at m) 0).get
      (pgSeam sm) (SEAM_LINK.RETRAINS.at m) = s.get (pgSeam sm) (SEAM_LINK.RETRAINS.at m) := by
    have hapart : (SEAM_LINK.STATE.at m).apart (SEAM_LINK.RETRAINS.at m) = true ∧
        (SEAM_LINK.ATTEMPTS.at m).apart (SEAM_LINK.RETRAINS.at m) = true := by
      revert m; decide
    rw [State.get_put_apart _ _ _ _ _ _ hapart.2, State.get_put_apart _ _ _ _ _ _ hapart.1]
  obtain ⟨b, hdegraded⟩ := seamDegraded_eq ((((s.put (pgSeam sm) (SEAM_LINK.STATE.at m) smExchange).put (pgSeam sm)
    (SEAM_LINK.ATTEMPTS.at m) 0).count (pgSeam sm) (SEAM_LINK.RETRAINS.at m) 1)) sm
  refine ⟨b2n b, ?_⟩
  rw [State.seamTrain, hdegraded, State.count, hretrains, sendTraining_eq]
  rfl

/-- A seam link that has gone to EXCHANGE, with training frames out on its tracks (07 R210). -/
structure Trains (sm : Nat) (m : Fin 4) (s t : State) : Prop where
  frame : t = { s with regs := t.regs, out := s.out ++ trainingOut s sm m }
  state : t.seamState sm m = smExchange
  attempts : t.get (pgSeam sm) (SEAM_LINK.ATTEMPTS.at m) = 0
  retrains : t.get (pgSeam sm) (SEAM_LINK.RETRAINS.at m) = min (s.get (pgSeam sm) (SEAM_LINK.RETRAINS.at m) + 1) 255
  regs : RegsBut ((pgSeam sm, PAGE_STAT.DEGRADED) :: seamFields sm m) s t

theorem trains_seamTrain (s : State) (sm : Nat) (m : Fin 4) : Trains sm m s (s.seamTrain sm m) := by
  obtain ⟨v, htrain⟩ := seamTrain_eq s sm m
  have hregs : (s.seamTrain sm m).regs = (s.putAll (pgSeam sm) (s.trainValues sm m v)).regs := by rw [htrain]
  have hget {f : Field} {w : Nat} := get_of_putAll (f := f) (v := w) hregs (trainFields_apart m)
  refine ⟨?_, ?_, ?_, ?_, ?_⟩
  · rw [htrain, State.putAll_frame]
  · exact hget (by simp [State.trainValues]) (show 1 < 2 ^ 3 by decide)
  · exact hget (by simp [State.trainValues]) (show 0 < 2 ^ 2 by decide)
  · exact hget (by simp [State.trainValues]) (show min _ 255 < 2 ^ 8 by omega)
  · exact (regsBut_of_putAll hregs).mono (by simp [State.trainValues, seamFields])

end Sys2Proof.Machine
end

section
/-! The obligation on the frames of die-to-die links (07 R204 to R206). -/

namespace Sys2Proof.Machine

open Sys2Proof.Say

/-! ## Link ends by number -/

theorem isDrop_dropLink (n : Die) (y : Fin 24) (e : Fin 2) : isDrop (dropLink n y e) = true :=
  decide_eq_true (by rw [dropLink]; omega)

theorem dropDie_dropLink (n : Die) (y : Fin 24) (e : Fin 2) : dropDie (dropLink n y e) = n := by
  simp only [dropDie, dropLink]
  omega

theorem isDrop_seamLink (sm l track e : Nat) : isDrop (seamLink sm l track e) = false :=
  decide_eq_false (by rw [seamLink]; omega)

theorem seamDie_seamLink (sm : Nat) (l : Fin 4) (track : Fin 8) (e : Fin 2) : seamDie (seamLink sm l track e) = sm := by
  simp only [seamDie, seamLink]
  omega

theorem seamNo_seamLink (sm : Nat) (l : Fin 4) (track : Fin 8) (e : Fin 2) : seamNo (seamLink sm l track e) = l := by
  simp only [seamNo, seamLink]
  omega

theorem pgSeam_ne_pgMgmt : ∀ sm : Seam, pgSeam sm ≠ pgMgmt := by decide

theorem linkPage_ne_pgMgmt (l : LinkEnd) : linkPage (linkNumber l) ≠ pgMgmt := by
  cases l with
  | drop n y e =>
    rw [linkNumber, linkPage, isDrop_dropLink, if_pos rfl, dropDie_dropLink]
    exact pgCnet_ne_pgMgmt n
  | seam sm m track e =>
    rw [linkNumber, linkPage, isDrop_seamLink, if_neg Bool.false_ne_true, seamDie_seamLink]
    exact pgSeam_ne_pgMgmt sm

/-! ## A frame with a bad CRC -/

/-- The frame that repeats the last number taken in order. -/
def State.nakOf (s : State) (i : Nat) : OutMsg := .d2d i (d2dFrame ltNak 0 (s.link i).last [])

section

variable (s : State) (i owner : Nat) (f : List Byte)

theorem linkFrame_of_badCrc (hpage : linkPage i ≠ pgMgmt) (hcrc : leBytes 2 (crc16 (f.take 40)) ≠ slice f 40 2) :
    let t := s.linkFrame i owner f
    (t.link i = { s.link i with waiting := true } ∧ ∀ j, j ≠ i → t.link j = s.link j) ∧ t.out = s.out ++ [s.nakOf i] ∧
      t.get (linkPage i) PAGE_ERR_CNT_C.COUNT = min (s.get (linkPage i) PAGE_ERR_CNT_C.COUNT + 1) (2 ^ 32 - 1) ∧
      RegsBut (errFields (linkPage i)) s t ∧ t = { s with regs := t.regs, log := t.log, links := t.links, out := t.out } := by
  have herr := errOnly_report s (linkPage i) .c 0x10 (linkSyndrome i) 0 0
  have hlink (j : Nat) : (s.report (linkPage i) .c 0x10 (linkSyndrome i) 0 0).link j = s.link j := by rw [herr.1]; rfl
  have heq : s.linkFrame i owner f = ((s.report (linkPage i) .c 0x10 (linkSyndrome i) 0 0).setLink i
      { s.link i with waiting := true }).emit (s.nakOf i) := by
    have hnak : (((s.report (linkPage i) .c 0x10 (linkSyndrome i) 0 0).setLink i { s.link i with waiting := true }).sendNak i) =
        ((s.report (linkPage i) .c 0x10 (linkSyndrome i) 0 0).setLink i { s.link i with waiting := true }).emit
          (s.nakOf i) := by
      rw [State.sendNak, State.link_setLink_self]
      rfl
    rw [← hnak, ← hlink]
    exact if_pos hcrc
  have hregs : (s.linkFrame i owner f).regs = (s.report (linkPage i) .c 0x10 (linkSyndrome i) 0 0).regs := by
    rw [heq]
    rfl
  refine ⟨⟨?_, fun j hj => ?_⟩, ?_, ?_, herr.2.congr_right hregs, ?_⟩
  · rw [heq]
    exact State.link_setLink_self _ i _
  · rw [heq]
    exact (State.link_setLink_ne _ i j _ hj).trans (hlink j)
  · rw [heq, herr.1]
    rfl
  · rw [State.get_congr hregs]
    exact get_report_counter s hpage .c 0x10 (linkSyndrome i) 0 0
  · rw [heq, herr.1]
    rfl

/-! ## Flit frames -/

/-- A link end that has taken the flit of a frame with the next number. -/
def State.takes (n : Nat) : State := s.setLink i { s.link i with last := n, waiting := false }

/-- A flit frame that acknowledges no frame is taken with the next number while the other end may send, and discarded
otherwise. -/
theorem linkFrame_of_flit (hcrc : leBytes 2 (crc16 (f.take 40)) = slice f 40 2) (hty : field f 39 1 % 16 = ltFlit)
    (hack : ∀ e ∈ (s.link i).replay, e.1 ≠ field f 38 1) : s.linkFrame i owner f =
      if field f 37 1 = ((s.link i).last + 1) % 256 ∧ s.linkOpen (i + 1 - 2 * (i % 2)) = true then
        (s.takes i (field f 37 1)).linkTake i owner (f.take 37) else s := by
  have hnak : ltFlit ≠ ltNak := by decide
  have htraining : ltFlit ≠ ltTraining := by decide
  simp only [State.linkFrame, ne_eq, hcrc, not_true_eq_false, if_false, hty, hnak, htraining, if_true,
    linkAck_of_unknown s i hack, Bool.and_eq_true, decide_eq_true_eq]
  rfl

/-- The packet that a flit joins: by the owner of its slot at the base end of a drop, by class elsewhere (07 R204). -/
def flitKey : Nat := if isDrop i = true ∧ i % 2 = 0 then owner else flitClass f

/-- The link end with the flits that a packet has so far. -/
def State.gathers (l : List (List Byte)) : State :=
  s.setLink i { s.link i with rx := mapSet [] (s.link i).rx (flitKey i owner f) l }

theorem flitKey_eq : (if isDrop i && i % 2 == 0 then owner else flitClass f) = flitKey i owner f := by
  simp only [flitKey, Bool.and_eq_true, beq_iff_eq]

theorem linkTake_of_head (h : flitKind f = 0) : s.linkTake i owner f = s.gathers i owner f [f] := by
  simp only [State.linkTake, h, flitKey_eq, true_or, decide_true, Bool.not_true, Bool.false_and, Bool.false_eq_true, if_false,
    if_true, OfNat.zero_ne_ofNat, or_self]
  rfl

theorem linkTake_of_single (h : flitKind f = 3) :
    s.linkTake i owner f = (s.gathers i owner f []).routePacket (linkRouter i) (linkInput i) f [] := by
  simp only [State.linkTake, h, flitKey_eq, or_true, decide_true, Bool.not_true, Bool.false_and, Bool.false_eq_true, if_false,
    if_true]
  rfl

variable {s i owner f} in
theorem linkTake_of_rest (h : flitKind f = 1 ∨ flitKind f = 2) : s.linkTake i owner f =
    if mapGet [] (s.link i).rx (flitKey i owner f) = [] then s
    else if flitKind f = 2 then (s.gathers i owner f []).routePacket (linkRouter i) (linkInput i)
      ((mapGet [] (s.link i).rx (flitKey i owner f) ++ [f]).headD []) (mapGet [] (s.link i).rx (flitKey i owner f) ++ [f]).tail
    else s.gathers i owner f (mapGet [] (s.link i).rx (flitKey i owner f) ++ [f]) := by
  have hbegins : decide (flitKind f = 0 ∨ flitKind f = 3) = false := decide_eq_false (by omega)
  have hkind : (flitKind f = 2 ∨ flitKind f = 3) ↔ flitKind f = 2 := or_iff_left (by omega)
  unfold State.linkTake
  dsimp only
  rw [hbegins, flitKey_eq, Bool.not_false, Bool.true_and, if_neg (of_decide_eq_false hbegins)]
  simp only [List.isEmpty_iff, hkind]
  rfl

end

/-- What a link end shows once its flits so far are set. -/
def Takes (s : State) (i owner n : Nat) (w : List Byte) (t : State) (x : List (List Byte)) : Prop :=
  t = { s with links := t.links } ∧ t.link i = { s.link i with
    last := n, waiting := false, rx := mapSet [] (s.link i).rx (flitKey i owner w) x } ∧ ∀ j, j ≠ i → t.link j = s.link j

theorem takes_gathers (s : State) (i owner n : Nat) (w : List Byte) (x : List (List Byte)) :
    Takes s i owner n w ((s.takes i n).gathers i owner w x) x := by
  have hlink : (s.takes i n).link i = { s.link i with last := n, waiting := false } := State.link_setLink_self s i _
  refine ⟨rfl, ?_, fun j hj => ?_⟩
  · rw [State.gathers, State.link_setLink_self, hlink]
  · rw [State.gathers, State.link_setLink_ne _ i j _ hj]
    exact State.link_setLink_ne s i j _ hj

/-! ## NAKs -/

/-- A NAK frees what it acknowledges; the rest is sent again where the link may send. -/
theorem linkNak_of_known (s : State) {i a j : Nat} (hj : (s.link i).replay.findIdx? (fun e => e.1 == a) = some j)
    (hqueue : (s.link i).queue = []) (hactive : (s.link i).active = []) : s.linkNak i a = (s.setLink i { s.link i with
      replay := (s.link i).replay.drop (j + 1), nakSeq := (a + 1) % 256, naks := 1 }).linkResend i := by
  have hack : s.linkAck i a = s.setLink i { s.link i with replay := (s.link i).replay.drop (j + 1), naks := 0 } := by
    simp only [State.linkAck, hj]
    apply linkPump_of_idle <;> rw [State.link_setLink_self] <;> assumption
  have hset : (s.linkAck i a).setLink i { s.link i with
      replay := (s.link i).replay.drop (j + 1), nakSeq := (a + 1) % 256, naks := 1 } = s.setLink i { s.link i with
      replay := (s.link i).replay.drop (j + 1), nakSeq := (a + 1) % 256, naks := 1 } := by
    rw [hack, State.setLink, State.setLink, State.setLink, mapSet_mapSet]
  rw [State.linkNak, ← hset]
  simp only [hack, State.link_setLink_self, lt_irrefl, false_and, if_false]
  rfl

/-- The eighth NAK of one number retrains the link. -/
theorem linkNak_of_eighth (s : State) {i a : Nat} (hack : ∀ e ∈ (s.link i).replay, e.1 ≠ a) (hnaks : (s.link i).naks = 7)
    (hseq : (s.link i).nakSeq = (a + 1) % 256) :
    s.linkNak i a = (s.setLink i { s.link i with naks := 0 }).linkRetrain i := by
  simp only [State.linkNak, linkAck_of_unknown s i hack, hnaks, ← hseq]
  rfl

/-- What a NAK of a known frame leaves: the rest of the buffer, sent again where the link may send. -/
theorem linkNak_spec_of_known (s : State) {i a j : Nat} (hj : (s.link i).replay.findIdx? (fun e => e.1 == a) = some j)
    (hqueue : (s.link i).queue = []) (hactive : (s.link i).active = []) :
    let left := (s.link i).replay.drop (j + 1)
    let sends := s.linkOpen i = true ∧ left ≠ []
    let t := s.linkNak i a
    (t.link i = { s.link i with replay := left, nakSeq := (a + 1) % 256, naks := 1 } ∧
        ∀ k, k ≠ i → t.link k = s.link k) ∧
      (sends → t.out = s.out ++ left.map (fun e => .d2d i (d2dFrame ltFlit e.1 (s.link i).last e.2)) ∧
        t.get (linkPage i) (replayField i) = min (s.get (linkPage i) (replayField i) + 1) (2 ^ 32 - 1)) ∧
      (¬sends → t.out = s.out ∧ t.regs = s.regs) ∧
      RegsBut [(linkPage i, replayField i)] s t ∧ t = { s with regs := t.regs, links := t.links, out := t.out } := by
  set u := s.setLink i { s.link i with replay := (s.link i).replay.drop (j + 1), nakSeq := (a + 1) % 256, naks := 1 } with hu
  have hself : u.link i = { s.link i with
      replay := (s.link i).replay.drop (j + 1), nakSeq := (a + 1) % 256, naks := 1 } := State.link_setLink_self s i _
  have hother (k : Nat) (hk : k ≠ i) : u.link k = s.link k := State.link_setLink_ne s i k _ hk
  have hopen : u.linkOpen i = s.linkOpen i := rfl
  have hsent : (u.link i).replay = (s.link i).replay.drop (j + 1) := by rw [hself]
  dsimp only
  rw [linkNak_of_known s hj hqueue hactive, ← hu]
  by_cases hsends : s.linkOpen i = true ∧ (s.link i).replay.drop (j + 1) ≠ []
  · have hagain := linkResend_of_sends u i (hopen.trans hsends.1) (hsent ▸ hsends.2)
    refine ⟨?_, fun _ => ⟨?_, ?_⟩, fun h => absurd hsends h, ?_, ?_⟩
    · rw [hagain]
      exact ⟨hself, hother⟩
    · rw [hagain, State.count, State.put_frame, State.resent, hself]
      rfl
    · rw [hagain, State.get_count_self, replayField_width]
      rfl
    · rw [hagain]
      exact RegsBut.put (.of_regs rfl) List.mem_cons_self _
    · rw [hagain]
      rfl
  · rw [linkResend_of_still u i (hsent ▸ hopen ▸ hsends)]
    exact ⟨⟨hself, hother⟩, fun h => absurd h hsends, fun _ => ⟨rfl, rfl⟩, .of_regs rfl, rfl⟩

theorem trainingOut_of_last {s t : State} (h : ∀ i, (t.link i).last = (s.link i).last) (sm m : Nat) :
    trainingOut t sm m = trainingOut s sm m := by
  simp only [trainingOut, h]

/-- What the eighth NAK of one number leaves on a seam link that is UP: the link goes to EXCHANGE. -/
theorem linkNak_spec_of_eighth (s : State) (sm : Seam) (m : Fin 4) (track : Fin 8) (e : Fin 2) {a : Nat} :
    let i := seamLink sm m track e
    let t := s.linkNak i a
    (∀ e ∈ (s.link i).replay, e.1 ≠ a) → (s.link i).naks = 7 → (s.link i).nakSeq = (a + 1) % 256 →
    s.seamState sm m = smUp → t.seamState sm m = smExchange ∧
      (t.link i = { s.link i with naks := 0 } ∧ ∀ k, k ≠ i → t.link k = s.link k) ∧
      t.out = s.out ++ trainingOut s sm m ∧ t = { s with regs := t.regs, links := t.links, out := t.out } := by
  intro i t hack hnaks hseq hup
  set u := s.setLink i { s.link i with naks := 0 } with hu
  have hself : u.link i = { s.link i with naks := 0 } := State.link_setLink_self s i _
  have hother (k : Nat) (hk : k ≠ i) : u.link k = s.link k := State.link_setLink_ne s i k _ hk
  have hlast (k : Nat) : (u.link k).last = (s.link k).last := by
    by_cases hk : k = i
    · rw [hk, hself]
    · rw [hother k hk]
  have ht : t = u.seamTrain sm m := by
    have hdrop : isDrop i = false := isDrop_seamLink sm m track e
    have hdie : seamDie i = sm := seamDie_seamLink sm m track e
    have hno : seamNo i = m := seamNo_seamLink sm m track e
    simp only [t, linkNak_of_eighth s hack hnaks hseq, ← hu, State.linkRetrain, hdrop, hdie, hno, Bool.false_eq_true, if_false]
    exact if_pos hup
  have htrains := ht ▸ trains_seamTrain u sm m
  have hlink (k : Nat) : t.link k = u.link k := by rw [htrains.frame]; rfl
  refine ⟨htrains.state, ⟨(hlink i).trans hself, fun k hk => (hlink k).trans (hother k hk)⟩, ?_, ?_⟩
  · rw [htrains.frame, trainingOut_of_last hlast]
    rfl
  · rw [htrains.frame]
    rfl

/-- Settles O35: a frame is refused by its CRC, taken or discarded by its number, and a NAK sends the rest again or
retrains the link. -/
theorem linkFramesAreTakenInOrder : Obligations.LinkFramesAreTakenInOrder := by
  intro l owner f a s i k c links nak w key got taken
  refine ⟨fun hwf => ⟨fun hcrc => ?_, fun hcrc hty hack => ⟨fun hseq hopen => ?_, fun hno => ?_⟩⟩,
    fun j hj hqueue hactive => ⟨_, rfl, linkNak_spec_of_known s hj hqueue hactive⟩,
    fun sm m track e hl hack hnaks hseq hup => ⟨_, rfl, ?_⟩,
    fun hwaits => congrArg Host.Outcome.next (if_pos hwaits),
    fun hwaits => congrArg Host.Outcome.next (if_neg (by rw [hwaits]; exact Bool.false_ne_true))⟩
  · exact ⟨_, if_pos hwf, linkFrame_of_badCrc s i owner.toNat f (linkPage_ne_pgMgmt l) hcrc⟩
  · have hexec : exec c s = .next ((s.takes i (field f 37 1)).linkTake i owner.toNat w) :=
      (if_pos hwf).trans (congrArg _ ((linkFrame_of_flit s i owner.toNat f hcrc hty hack).trans (if_pos ⟨hseq, hopen⟩)))
    have htakes (x : List (List Byte)) := takes_gathers s i owner.toNat (field f 37 1) w x
    have hlink : (s.takes i (field f 37 1)).link i = { k with last := field f 37 1, waiting := false } :=
      State.link_setLink_self s i _
    have hrest (h : flitKind w = 1 ∨ flitKind w = 2) : (s.takes i (field f 37 1)).linkTake i owner.toNat w =
        if got = [] then s.takes i (field f 37 1)
        else if flitKind w = 2 then ((s.takes i (field f 37 1)).gathers i owner.toNat w []).routePacket (linkRouter i)
          (linkInput i) ((got ++ [w]).headD []) (got ++ [w]).tail
        else (s.takes i (field f 37 1)).gathers i owner.toNat w (got ++ [w]) := by
      have hrest := linkTake_of_rest (s := s.takes i (field f 37 1)) (i := i) (owner := owner.toNat) h
      rw [hlink] at hrest
      exact hrest
    refine ⟨fun hkind => ?_, fun hkind hgot => ?_, fun hkind hgot => ?_, fun hkind => ?_⟩
    · exact ⟨_, hexec.trans (congrArg _ (linkTake_of_head _ i _ w hkind)), htakes _⟩
    · refine ⟨_, hexec.trans (congrArg _ (hrest (.inl hkind))), ?_⟩
      rw [if_neg hgot, if_neg (by omega)]
      exact htakes _
    · refine ⟨_, hexec.trans (congrArg _ (hrest hkind)), ?_⟩
      rw [if_pos hgot]
      exact ⟨rfl, hlink, fun j hj => State.link_setLink_ne s i j _ hj⟩
    · refine ⟨_, htakes [], ?_⟩
      rcases hkind with hkind | ⟨hkind, hgot⟩
      · rw [hexec, linkTake_of_single _ i _ w hkind, if_pos hkind]
        rfl
      · rw [hexec, hrest (.inr hkind), if_neg hgot, if_pos hkind, if_neg (by omega)]
  · have hexec : exec c s = .next (s.linkFrame i owner.toNat f) := if_pos hwf
    rw [hexec, linkFrame_of_flit s i owner.toNat f hcrc hty hack, if_neg]
    rintro ⟨hseq, hopen⟩
    rcases hno with hno | hno
    · exact hno hseq
    · exact Bool.false_ne_true (hno.symm.trans hopen)
  · obtain rfl : l = .seam sm m track e := hl
    exact linkNak_spec_of_eighth s sm m track e hack hnaks hseq hup

end Sys2Proof.Machine
end

section
/-! The obligation on the training of seam links (07 R208 to R212). -/

namespace Sys2Proof.Machine

open Sys2Proof.Say

/-! ## Retraining -/

/-- The registers of one seam link lie apart from those of another, and from `DEGRADED`. -/
theorem seamFields_apart (sm : Nat) {m k : Fin 4} (h : m ≠ k) :
    ∀ e ∈ (pgSeam sm, PAGE_STAT.DEGRADED) :: seamFields sm m, ∀ f ∈ [SEAM_LINK.STATE.at k, SEAM_LINK.ATTEMPTS.at k,
      SEAM_LINK.RETRAINS.at k], e.2.apart f = true := by
  simp only [seamFields, List.forall_mem_cons, List.not_mem_nil, false_implies, implies_true, and_true]
  revert m k
  decide

/-- A link that has gone to EXCHANGE as seen from the state before. -/
structure Retrained (s : State) (sm : Nat) (m : Fin 4) (t : State) : Prop where
  state : t.seamState sm m = smExchange
  attempts : t.get (pgSeam sm) (SEAM_LINK.ATTEMPTS.at m) = 0
  retrains : t.get (pgSeam sm) (SEAM_LINK.RETRAINS.at m) = min (s.get (pgSeam sm) (SEAM_LINK.RETRAINS.at m) + 1) 255

theorem Retrained.congr {s s' t t' : State} {sm : Nat} {m : Fin 4} (h : Retrained s sm m t)
    (hs : s'.get (pgSeam sm) (SEAM_LINK.RETRAINS.at m) = s.get (pgSeam sm) (SEAM_LINK.RETRAINS.at m))
    (ht : ∀ f ∈ [SEAM_LINK.STATE.at m, SEAM_LINK.ATTEMPTS.at m, SEAM_LINK.RETRAINS.at m],
      t'.get (pgSeam sm) f = t.get (pgSeam sm) f) : Retrained s' sm m t' where
  state := (ht _ (by simp)).trans h.state
  attempts := (ht _ (by simp)).trans h.attempts
  retrains := by rw [ht _ (by simp), h.retrains, hs]

/-- The first n links of a seam, of which those asked to have gone to EXCHANGE. -/
structure RetrainedUpTo (s : State) (sm : Nat) (goes : Nat → Bool) (n : Nat) (t : State) : Prop where
  frame : t = { s with regs := t.regs, out := s.out ++ ((List.range n).filter goes).flatMap (trainingOut s sm) }
  regs : RegsBut ((pgSeam sm, PAGE_STAT.DEGRADED) :: ((List.range n).filter goes).flatMap (seamFields sm)) s t
  done : ∀ m : Fin 4, m.val < n → goes m = true → Retrained s sm m t

/-- A link whose turn has not come keeps its registers. -/
theorem RetrainedUpTo.get {s t : State} {sm : Nat} {goes : Nat → Bool} {n : Nat} (h : RetrainedUpTo s sm goes n t)
    {k : Fin 4} (hk : n ≤ k) : ∀ f ∈ [SEAM_LINK.STATE.at k, SEAM_LINK.ATTEMPTS.at k, SEAM_LINK.RETRAINS.at k],
      t.get (pgSeam sm) f = s.get (pgSeam sm) f := by
  intro f hf
  have hsucc : ∀ k : Fin 4, k + 1 ≠ k := by decide
  refine h.regs.get_of_apart _ fun e he => ?_
  obtain rfl | he := List.mem_cons.mp he
  · exact seamFields_apart sm (m := k + 1) (k := k) (hsucc k) _ List.mem_cons_self f hf
  · obtain ⟨m, hm, he⟩ := List.mem_flatMap.mp he
    have hlt : m < n := List.mem_range.mp (List.mem_of_mem_filter hm)
    have hne : (⟨m, by omega⟩ : Fin 4) ≠ k := fun heq => by
      have := congrArg Fin.val heq
      dsimp only at this
      omega
    exact seamFields_apart sm hne e (List.mem_cons_of_mem _ he) f hf

/-- One link asked to retrain, where it is UP or held down. -/
def State.seamAsked (s : State) (sm mask m : Nat) : State :=
  if bit mask m && (s.seamState sm m == smUp || s.seamState sm m == smHeld) then s.seamTrain sm m else s

theorem RetrainedUpTo.succ {s t : State} {sm mask n : Nat} {goes : Nat → Bool} (hgoes : ∀ m, goes m =
      (bit mask m && (s.seamState sm m == smUp || s.seamState sm m == smHeld))) (hn : n < 4)
    (h : RetrainedUpTo s sm goes n t) : RetrainedUpTo s sm goes (n + 1) (t.seamAsked sm mask n) := by
  have hget := h.get (k := ⟨n, hn⟩) le_rfl
  have hstate : t.seamState sm n = s.seamState sm n := hget _ (by simp)
  have hasked : t.seamAsked sm mask n = if goes n = true then t.seamTrain sm n else t := by
    rw [State.seamAsked, hstate, hgoes]
  by_cases hgo : goes n = true
  · have htrains := trains_seamTrain t sm ⟨n, hn⟩
    have hlist : (List.range (n + 1)).filter goes = (List.range n).filter goes ++ [n] := by
      rw [List.range_succ, List.filter_append, List.filter_cons_of_pos hgo, List.filter_nil]
    have hout : trainingOut t sm n = trainingOut s sm n := by
      refine trainingOut_of_last (fun i => ?_) sm n
      rw [h.frame]
      rfl
    rw [hasked, if_pos hgo]
    refine ⟨?_, ?_, fun m hm hm' => ?_⟩
    · rw [htrains.frame, hlist, List.flatMap_append, List.flatMap_singleton, ← List.append_assoc, hout, h.frame]
    · rw [hlist, List.flatMap_append, List.flatMap_singleton]
      refine (h.regs.mono ?_).trans (htrains.regs.mono ?_)
      · exact List.cons_subset_cons _ (List.subset_append_left _ _)
      · exact List.cons_subset_cons _ (List.subset_append_right _ _)
    · obtain hlt | heq : m.val < n ∨ m.val = n := by omega
      · refine (h.done m hlt hm').congr rfl fun f hf => ?_
        have hne : (⟨n, hn⟩ : Fin 4) ≠ m := fun heq => by
          have := congrArg Fin.val heq
          dsimp only at this
          omega
        exact htrains.regs.get_of_apart _ fun e he => seamFields_apart sm hne e he f hf
      · obtain rfl : m = ⟨n, hn⟩ := Fin.ext heq
        exact Retrained.congr ⟨htrains.state, htrains.attempts, htrains.retrains⟩ (hget _ (by simp)).symm fun _ _ => rfl
  · have hlist : (List.range (n + 1)).filter goes = (List.range n).filter goes := by
      rw [List.range_succ, List.filter_append, List.filter_cons_of_neg hgo, List.filter_nil, List.append_nil]
    rw [hasked, if_neg hgo]
    refine ⟨hlist ▸ h.frame, hlist ▸ h.regs, fun m hm hm' => h.done m ?_ hm'⟩
    have : m.val ≠ n := fun heq => hgo (heq ▸ hm')
    omega

theorem retrainedUpTo_fold (s : State) {sm mask : Nat} {goes : Nat → Bool} (hgoes : ∀ m, goes m =
      (bit mask m && (s.seamState sm m == smUp || s.seamState sm m == smHeld))) :
    ∀ n ≤ 4, RetrainedUpTo s sm goes n ((List.range n).foldl (fun s m => s.seamAsked sm mask m) s)
  | 0, _ => ⟨by simp, .of_regs rfl, fun m hm => by omega⟩
  | n + 1, hn => by
    rw [List.range_succ, List.foldl_append]
    exact (retrainedUpTo_fold s hgoes n (by omega)).succ hgoes (by omega)

theorem retrainedUpTo_seamRetrains (s : State) {sm mask : Nat} {goes : Nat → Bool} (hgoes : ∀ m, goes m =
      (bit mask m && (s.seamState sm m == smUp || s.seamState sm m == smHeld))) :
    RetrainedUpTo s sm goes 4 (s.seamRetrains sm mask) :=
  retrainedUpTo_fold s hgoes 4 le_rfl

/-! ## Attempts that fail -/

theorem attemptFields_apart (m : Fin 4) :
    [SEAM_LINK.ATTEMPTS.at m, SEAM_LINK.STATE.at m].Pairwise (fun f g => f.apart g = true) := by
  revert m
  decide

theorem seamFail_again (s : State) (sm : Nat) (m : Fin 4) (h : s.get (pgSeam sm) (SEAM_LINK.ATTEMPTS.at m) < 2) :
    let t := s.seamFail sm m
    t.seamState sm m = smExchange ∧
      t.get (pgSeam sm) (SEAM_LINK.ATTEMPTS.at m) = s.get (pgSeam sm) (SEAM_LINK.ATTEMPTS.at m) + 1 ∧
      RegsBut (seamFields sm m) s t ∧ t = { s with regs := t.regs, out := s.out ++ trainingOut s sm m } := by
  intro t
  have ht : t = { s.putAll (pgSeam sm) [(SEAM_LINK.ATTEMPTS.at m, s.get (pgSeam sm) (SEAM_LINK.ATTEMPTS.at m) + 1),
      (SEAM_LINK.STATE.at m, smExchange)] with out := s.out ++ trainingOut s sm m } := by
    have hfew : s.get (pgSeam sm) (SEAM_LINK.ATTEMPTS.at m) + 1 < 3 := by omega
    simp only [t, State.seamFail, hfew, if_true, sendTraining_eq]
    rfl
  have hregs := congrArg State.regs ht
  refine ⟨?_, ?_, ?_, ?_⟩
  · exact get_of_putAll hregs (attemptFields_apart m) (by simp) (show 1 < 2 ^ 3 by decide)
  · exact get_of_putAll hregs (attemptFields_apart m) (by simp) (show _ < 2 ^ 2 by omega)
  · exact (regsBut_of_putAll hregs).mono (by simp [seamFields])
  · rw [ht, State.putAll_frame]

/-- What link ends that are held down have lost: their replay buffers and what was under way; packets that wait whole go on
waiting at the routers there. -/
structure Lost (p : PageRef) (s : State) (ends : List Nat) (t : State) : Prop where
  frame : t = { s with regs := t.regs, log := t.log, links := t.links, net := { s.net with
    stalled := s.net.stalled ++ ends.flatMap (fun i => (s.link i).queue.map (fun e => (linkRouter i, e.2))) } }
  regs : RegsBut (errFields p) s t
  emptied : ∀ i ∈ ends, (t.link i).replay = [] ∧ (t.link i).queue = [] ∧ (t.link i).active = []
  kept : ∀ i, i ∉ ends → t.link i = s.link i

theorem errOnly_foldl_report {α : Type} (p : PageRef) (k : ErrKind) (code syn : Nat) (l : List α) (s : State) :
    ErrOnly p s (l.foldl (fun s _ => s.report p k code syn 0 0) s) := by
  induction l generalizing s with
  | nil => exact ErrOnly.refl p s
  | cons _ l ih => exact (errOnly_report s p k code syn 0 0).trans (ih _)

theorem lost_linkLost (s : State) (i : Nat) : Lost (linkPage i) s [i] (s.linkLost i) := by
  set u := s.setLink i { s.link i with replay := [], naks := 0, waiting := false, queue := [], active := [], rx := [] } with hu
  set n := packetsIn ((s.link i).replay.map (·.2) ++ (s.link i).active.flatMap (·.2)) with hn
  have herr := errOnly_foldl_report (linkPage i) .u 0x11 (linkSyndrome i) (List.range n) u
  have ht : s.linkLost i = { (List.range n).foldl (fun s _ => s.report (linkPage i) .u 0x11 (linkSyndrome i) 0 0) u with
      net := { s.net with stalled := s.net.stalled ++ (s.link i).queue.map (fun e => (linkRouter i, e.2)) } } := by
    simp only [State.linkLost, ← hu, ← hn]
    rw [herr.1]
    rfl
  have hlink (j : Nat) : (s.linkLost i).link j = u.link j := by
    rw [ht, herr.1]
    rfl
  refine ⟨?_, ?_, fun j hj => ?_, fun j hj => ?_⟩
  · rw [ht, herr.1, List.flatMap_singleton]
    rfl
  · exact herr.2.congr_right (by rw [ht])
  · obtain rfl := List.mem_singleton.mp hj
    rw [hlink, hu, State.link_setLink_self]
    exact ⟨rfl, rfl, rfl⟩
  · rw [hlink, hu, State.link_setLink_ne s i j _ (fun h => hj (h ▸ List.mem_singleton_self i))]

theorem Lost.trans {p : PageRef} {s t u : State} {ends more : List Nat} (h : Lost p s ends t) (h' : Lost p t more u)
    (hnew : ∀ i ∈ more, i ∉ ends) : Lost p s (ends ++ more) u := by
  have hqueue : more.flatMap (fun i => (t.link i).queue.map (fun e => (linkRouter i, e.2))) =
      more.flatMap (fun i => (s.link i).queue.map (fun e => (linkRouter i, e.2))) :=
    List.flatMap_congr fun i hi => by rw [h.kept i (hnew i hi)]
  refine ⟨?_, h.regs.trans h'.regs, fun i hi => ?_, fun i hi => ?_⟩
  · rw [h'.frame, hqueue, List.flatMap_append, ← List.append_assoc, h.frame]
  · by_cases hmore : i ∈ more
    · exact h'.emptied i hmore
    · rw [h'.kept i hmore]
      exact h.emptied i ((List.mem_append.mp hi).resolve_right hmore)
  · rw [List.mem_append, not_or] at hi
    rw [h'.kept i hi.2, h.kept i hi.1]

theorem lost_foldl {p : PageRef} : ∀ (ends : List Nat) (s : State), ends.Nodup → (∀ i ∈ ends, linkPage i = p) →
    Lost p s ends (ends.foldl (fun s i => s.linkLost i) s)
  | [], s, _, _ => ⟨by simp, .of_regs rfl, fun _ h => by simp at h, fun _ _ => rfl⟩
  | i :: ends, s, hnodup, hpage => by
    obtain ⟨hi, hnodup⟩ := List.nodup_cons.mp hnodup
    have hfirst : Lost p s [i] (s.linkLost i) := hpage i List.mem_cons_self ▸ lost_linkLost s i
    exact hfirst.trans (lost_foldl ends _ hnodup fun j hj => hpage j (List.mem_cons_of_mem i hj))
      fun j hj hji => hi (List.mem_singleton.mp hji ▸ hj)

theorem nodup_seamEnds : ∀ sm l : Fin 4, (seamEnds sm l).Nodup := by decide

theorem seamEnds_facts : ∀ (sm l : Fin 4), ∀ i ∈ seamEnds sm l, isDrop i = false ∧ seamDie i = sm ∧ seamNo i = l := by
  decide

theorem linkPage_of_mem_seamEnds (sm l : Fin 4) {i : Nat} (hi : i ∈ seamEnds sm l) : linkPage i = pgSeam sm := by
  obtain ⟨hdrop, hdie, -⟩ := seamEnds_facts sm l i hi
  rw [linkPage, hdrop, if_neg Bool.false_ne_true, hdie]

/-- The third attempt that fails holds the link down. -/
theorem seamFail_held (s : State) (sm l : Fin 4) (h : s.get (pgSeam sm) (SEAM_LINK.ATTEMPTS.at l) = 2) :
    let t := s.seamFail sm l
    t.seamState sm l = smHeld ∧ t.flag (pgSeam sm) PAGE_STAT.DEGRADED = true ∧
      (∀ i ∈ seamEnds sm l, (t.link i).replay = [] ∧ (t.link i).queue = [] ∧ (t.link i).active = []) ∧
      (∀ i, i ∉ seamEnds sm l → t.link i = s.link i) ∧
      t.net = { s.net with stalled := s.net.stalled ++ (seamEnds sm l).flatMap (fun i =>
        (s.link i).queue.map (fun e => (linkRouter i, e.2))) } ∧
      t = { s with regs := t.regs, log := t.log, links := t.links, net := t.net } ∧
      RegsBut ((pgSeam sm, PAGE_STAT.DEGRADED) :: seamFields sm l ++ errFields (pgSeam sm)) s t := by
  intro t
  set u := s.putAll (pgSeam sm) [(SEAM_LINK.ATTEMPTS.at l, 3), (SEAM_LINK.STATE.at l, smHeld)] with hu
  set v := (seamEnds sm l).foldl (fun s i => s.linkLost i) u with hv
  have hlost : Lost (pgSeam sm) u (seamEnds sm l) v :=
    lost_foldl _ u (nodup_seamEnds sm l) fun i hi => linkPage_of_mem_seamEnds sm l hi
  have hframe : u = { s with regs := u.regs } := State.putAll_frame s _ _
  have ht : t = v.seamDegraded sm := by
    simp only [t, State.seamFail, h]
    rfl
  have hstate : u.get (pgSeam sm) (SEAM_LINK.STATE.at l) = smHeld :=
    get_of_putAll (congrArg State.regs hu) (attemptFields_apart l) (by simp) (show 4 < 2 ^ 3 by decide)
  have hfirst : RegsBut ((pgSeam sm, PAGE_STAT.DEGRADED) :: seamFields sm l ++ errFields (pgSeam sm)) s u :=
    (regsBut_of_putAll (congrArg State.regs hu)).mono (by simp [seamFields])
  clear_value t u v
  have hheld : v.seamState sm l = smHeld := by
    have hapart : ∀ l : Fin 4, ∀ g ∈ errorHeader, g.apart (SEAM_LINK.STATE.at l) = true := by decide
    exact (ErrOnly.get_beside (r := { u with regs := v.regs, log := v.log }) ⟨rfl, hlost.regs⟩ (pgSeam_ne_pgMgmt sm)
      (hapart l)).trans hstate
  have hany : v.seamDegraded sm = v.putFlag (pgSeam sm) PAGE_STAT.DEGRADED true := by
    refine congrArg (v.putFlag _ _) (List.any_eq_true.mpr ⟨l, List.mem_range.mpr l.isLt, ?_⟩)
    simp only [hheld, beq_self_eq_true, Bool.true_or]
  have htv : t = v.putFlag (pgSeam sm) PAGE_STAT.DEGRADED true := ht.trans hany
  refine ⟨?_, ?_, ?_, ?_, ?_, ?_, ?_⟩
  · have hapart : ∀ l : Fin 4, PAGE_STAT.DEGRADED.apart (SEAM_LINK.STATE.at l) = true := by decide
    rw [htv]
    exact (State.get_put_apart _ _ _ _ _ _ (hapart l)).trans hheld
  · rw [htv]
    exact State.flag_putFlag_self _ _ _ _ (by decide)
  · rw [htv]
    exact hlost.emptied
  · rw [htv]
    intro i hi
    exact (hlost.kept i hi).trans (by rw [hframe]; rfl)
  · rw [htv, State.putFlag, State.put_frame, hlost.frame, hframe]
    rfl
  · rw [htv, State.putFlag, State.put_frame, hlost.frame, hframe]
  · rw [htv]
    exact (hfirst.trans (hlost.regs.mono (List.subset_append_right _ _))).put (by simp) _

/-! ## Proposals and tests -/

theorem proposalFields_apart (l : Fin 4) : [SEAM_LINK.P0.at l, SEAM_LINK.P1.at l, SEAM_LINK.WIDTH.at l, SEAM_LINK.STATE.at l,
    PAGE_STAT.DEGRADED].Pairwise (fun f g => f.apart g = true) := by
  revert l
  decide

theorem narrower_lt {p0 p1 : Nat} (h0 : p0 < 4) (h1 : p1 < 4) : narrower p0 p1 < 4 := by
  unfold narrower
  split
  · exact h1
  · split
    · exact h0
    · decide

/-- A seam link in test with its proposals and width known. -/
structure Proposed (s : State) (sm l p0 p1 w : Nat) (t : State) : Prop where
  frame : t = { s with regs := t.regs }
  p0 : t.get (pgSeam sm) (SEAM_LINK.P0.at l) = p0
  p1 : t.get (pgSeam sm) (SEAM_LINK.P1.at l) = p1
  state : t.seamState sm l = smTest
  width : t.get (pgSeam sm) (SEAM_LINK.WIDTH.at l) = w
  regs : RegsBut [(pgSeam sm, SEAM_LINK.WIDTH.at l), (pgSeam sm, SEAM_LINK.STATE.at l), (pgSeam sm, SEAM_LINK.P0.at l),
    (pgSeam sm, SEAM_LINK.P1.at l), (pgSeam sm, PAGE_STAT.DEGRADED)] s t

/-- Proposals that agree on a width begin the test; one that differs from the width before is reported after READY. -/
theorem seamProposals_of_width {s : State} {sm : Nat} {l : Fin 4} {p0 p1 : Nat} (h0 : p0 < 4) (h1 : p1 < 4)
    (hstate : s.seamState sm l = smExchange) (hw : narrower p0 p1 ≠ 0) :
    ∃ t, Proposed s sm l p0 p1 (narrower p0 p1) t ∧ s.seamProposals sm l p0 p1 =
      if narrower p0 p1 ≠ s.get (pgSeam sm) (SEAM_LINK.WIDTH.at l) ∧ s.isReady = true then
        t.report (pgSeam sm) .u 0x13 (l * 256 + narrower p0 p1 * 16) 0 0 else t := by
  obtain ⟨b, hdegraded⟩ := seamDegraded_eq ((((s.put (pgSeam sm) (SEAM_LINK.P0.at l) p0).put (pgSeam sm)
    (SEAM_LINK.P1.at l) p1).put (pgSeam sm) (SEAM_LINK.WIDTH.at l) (narrower p0 p1)).put (pgSeam sm) (SEAM_LINK.STATE.at l)
    smTest) sm
  have hapart := proposalFields_apart l
  set t := s.putAll (pgSeam sm) [(SEAM_LINK.P0.at l, p0), (SEAM_LINK.P1.at l, p1), (SEAM_LINK.WIDTH.at l, narrower p0 p1),
    (SEAM_LINK.STATE.at l, smTest), (PAGE_STAT.DEGRADED, b2n b)] with ht
  have hget {f : Field} {v : Nat} := get_of_putAll (f := f) (v := v) (congrArg State.regs ht) hapart
  refine ⟨t, ⟨State.putAll_frame s _ _, ?_, ?_, ?_, ?_, ?_⟩, ?_⟩
  · exact hget (by simp) (show p0 < 2 ^ 2 from h0)
  · exact hget (by simp) (show p1 < 2 ^ 2 from h1)
  · exact hget (by simp) (show 2 < 2 ^ 3 by decide)
  · exact hget (by simp) (show _ < 2 ^ 2 from narrower_lt h0 h1)
  · exact (regsBut_of_putAll (congrArg State.regs ht)).mono (by simp)
  · simp only [State.seamProposals, hstate, ne_eq, not_true_eq_false, if_false, hw, hdegraded]
    rfl

/-- Proposals that do not agree are a failed attempt. -/
theorem seamProposals_of_none {s : State} {sm : Nat} {l : Fin 4} {p0 p1 : Nat} (h0 : p0 < 4) (h1 : p1 < 4)
    (hstate : s.seamState sm l = smExchange) (hw : narrower p0 p1 = 0)
    (htries : s.get (pgSeam sm) (SEAM_LINK.ATTEMPTS.at l) < 2) :
    let t := s.seamProposals sm l p0 p1
    (t.get (pgSeam sm) (SEAM_LINK.P0.at l) = p0 ∧ t.get (pgSeam sm) (SEAM_LINK.P1.at l) = p1) ∧
      t.seamState sm l = smExchange ∧
      t.get (pgSeam sm) (SEAM_LINK.ATTEMPTS.at l) = s.get (pgSeam sm) (SEAM_LINK.ATTEMPTS.at l) + 1 ∧
      RegsBut ([(pgSeam sm, SEAM_LINK.P0.at l), (pgSeam sm, SEAM_LINK.P1.at l)] ++ seamFields sm l) s t ∧
      t = { s with regs := t.regs, out := s.out ++ trainingOut s sm l } := by
  intro t
  set u := s.putAll (pgSeam sm) [(SEAM_LINK.P0.at l, p0), (SEAM_LINK.P1.at l, p1)] with hu
  have hpair : ∀ l : Fin 4, [SEAM_LINK.P0.at l, SEAM_LINK.P1.at l].Pairwise (fun f g => f.apart g = true) := by decide
  have hget {f : Field} {v : Nat} := get_of_putAll (f := f) (v := v) (congrArg State.regs hu) (hpair l)
  have hbut := regsBut_of_putAll (congrArg State.regs hu)
  have htries' : u.get (pgSeam sm) (SEAM_LINK.ATTEMPTS.at l) = s.get (pgSeam sm) (SEAM_LINK.ATTEMPTS.at l) := by
    have hapart : ∀ l : Fin 4, ∀ f ∈ [SEAM_LINK.P0.at l, SEAM_LINK.P1.at l],
        f.apart (SEAM_LINK.ATTEMPTS.at l) = true := by decide
    refine hbut.get_of_apart _ fun e he => hapart l e.2 ?_
    simp only [List.map_cons, List.map_nil, List.mem_cons, List.not_mem_nil, or_false] at he ⊢
    exact he.imp (congrArg Prod.snd) (congrArg Prod.snd)
  have ht : t = u.seamFail sm l := by
    simp only [t, State.seamProposals, hstate, ne_eq, not_true_eq_false, if_false, hw, if_true]
    rfl
  obtain ⟨hexchange, hmore, hregs, hframe⟩ := ht ▸ seamFail_again u sm l (htries'.trans_lt htries)
  have hkept (f : Field) (hf : ∀ e ∈ seamFields sm l, e.2.apart f = true) : t.get (pgSeam sm) f = u.get (pgSeam sm) f :=
    hregs.get_of_apart _ hf
  have hapart : ∀ l : Fin 4, ∀ f ∈ [SEAM_LINK.P0.at l, SEAM_LINK.P1.at l], ∀ e ∈ seamFields 0 l,
      e.2.apart f = true := by decide
  simp only [seamFields, List.forall_mem_cons] at hapart
  refine ⟨⟨?_, ?_⟩, hexchange, hmore.trans (by rw [htries']), ?_, ?_⟩
  · rw [hkept _ (by simpa [seamFields] using (hapart l).1)]
    exact hget (by simp) (show p0 < 2 ^ 2 from h0)
  · rw [hkept _ (by simpa [seamFields] using (hapart l).2.1)]
    exact hget (by simp) (show p1 < 2 ^ 2 from h1)
  · exact (hbut.mono (by simp)).trans (hregs.mono (List.subset_append_right _ _))
  · rw [hframe, hu, State.putAll_frame]
    rfl

/-- Frames that open link ends of one seam link send again. -/
theorem linkResend_foldl {sm l : Fin 4} : ∀ (ends : List Nat) (s : State), (∀ i ∈ ends, i ∈ seamEnds sm l) →
    s.seamState sm l = smUp → let t := ends.foldl (fun s i => s.linkResend i) s
      t = { s with regs := t.regs, out := s.out ++ ends.flatMap s.resent } ∧
        RegsBut [(pgSeam sm, SEAM_REPLAY.COUNT.at l)] s t
  | [], s, _, _ => ⟨by simp, .of_regs rfl⟩
  | i :: ends, s, hmem, hup => by
    obtain ⟨hdrop, hdie, hno⟩ := seamEnds_facts sm l i (hmem i List.mem_cons_self)
    have hopen : s.linkOpen i = true := by
      simp only [State.linkOpen, hdrop, Bool.false_eq_true, if_false, hdie, hno, hup, beq_self_eq_true]
    obtain ⟨hframe, hregs⟩ := linkResend_of_open s i hopen
    have hfield : replayField i = SEAM_REPLAY.COUNT.at l := by rw [replayField, hdrop, if_neg Bool.false_ne_true, hno]
    rw [linkPage_of_mem_seamEnds sm l (hmem i List.mem_cons_self), hfield] at hregs
    have hapart : ∀ l : Fin 4, (SEAM_REPLAY.COUNT.at l).apart (SEAM_LINK.STATE.at l) = true := by decide
    have hup' : (s.linkResend i).seamState sm l = smUp :=
      (hregs.get_of_apart _ (by simpa using hapart l)).trans hup
    obtain ⟨hframe', hregs'⟩ := linkResend_foldl ends (s.linkResend i) (fun j hj => hmem j (List.mem_cons_of_mem i hj)) hup'
    have hresent : ends.flatMap (s.linkResend i).resent = ends.flatMap s.resent :=
      List.flatMap_congr fun j _ => by rw [hframe]; rfl
    refine ⟨?_, hregs.trans hregs'⟩
    rw [List.foldl_cons, hframe', hresent, hframe, List.flatMap_cons, ← List.append_assoc]

theorem rerunStalled_of_none {s : State} (h : s.net.stalled = []) : s.rerunStalled = s := by
  have hnet : { s.net with stalled := [] } = s.net := by rw [← h]
  rw [State.rerunStalled, h, hnet]
  rfl

/-- A passed test brings the link UP; its ends send again what they had not had acknowledged. -/
theorem seamTested_spec (s : State) (sm l : Fin 4) (hstate : s.seamState sm l = smTest) (hnone : s.net.stalled = []) :
    let t := s.seamTested sm l
    t.seamState sm l = smUp ∧ t.get (pgSeam sm) (SEAM_LINK.ATTEMPTS.at l) = 0 ∧
      RegsBut ((pgSeam sm, SEAM_REPLAY.COUNT.at l) :: seamFields sm l) s t ∧
      t = { s with regs := t.regs, out := s.out ++ (seamEnds sm l).flatMap s.resent } := by
  intro t
  set u := s.putAll (pgSeam sm) [(SEAM_LINK.STATE.at l, smUp), (SEAM_LINK.ATTEMPTS.at l, 0)] with hu
  have hpair : ∀ l : Fin 4, [SEAM_LINK.STATE.at l, SEAM_LINK.ATTEMPTS.at l].Pairwise (fun f g => f.apart g = true) := by
    decide
  have hapart : ∀ l : Fin 4, ∀ f ∈ [SEAM_LINK.STATE.at l, SEAM_LINK.ATTEMPTS.at l],
      (SEAM_REPLAY.COUNT.at l).apart f = true := by decide
  have hget {f : Field} {v : Nat} := get_of_putAll (f := f) (v := v) (congrArg State.regs hu) (hpair l)
  have hup : u.get (pgSeam sm) (SEAM_LINK.STATE.at l) = smUp := hget (by simp) (show 3 < 2 ^ 3 by decide)
  have hzero : u.get (pgSeam sm) (SEAM_LINK.ATTEMPTS.at l) = 0 := hget (by simp) (show 0 < 2 ^ 2 by decide)
  have hbut := regsBut_of_putAll (congrArg State.regs hu)
  have huframe : u = { s with regs := u.regs } := State.putAll_frame s _ _
  obtain ⟨hframe, hregs⟩ := linkResend_foldl (seamEnds sm l) u (fun _ h => h) hup
  have hnet : ((seamEnds sm l).foldl (fun s i => s.linkResend i) u).net.stalled = [] := by
    rw [hframe, huframe]
    exact hnone
  have ht : t = (seamEnds sm l).foldl (fun s i => s.linkResend i) u := by
    have hgo : t = ((seamEnds sm l).foldl (fun s i => s.linkResend i) u).rerunStalled := if_neg (not_not.mpr hstate)
    rw [hgo, rerunStalled_of_none hnet]
  rw [← ht] at hframe hregs
  have hresent : u.resent = s.resent := by
    rw [huframe]
    rfl
  have hkept (f : Field) (hf : f ∈ [SEAM_LINK.STATE.at l, SEAM_LINK.ATTEMPTS.at l]) :
      t.get (pgSeam sm) f = u.get (pgSeam sm) f :=
    hregs.get_of_apart _ (by simpa using hapart l f hf)
  clear_value t u
  refine ⟨(hkept _ (by simp)).trans hup, (hkept _ (by simp)).trans hzero, ?_, ?_⟩
  · exact (hbut.mono (by simp [seamFields])).trans (hregs.mono (by simp))
  · rw [hframe, hresent, huframe]

/-- The links of a seam die that were not asked keep their registers. -/
theorem RetrainedUpTo.regs_of_not {s t : State} {sm : Nat} {goes : Nat → Bool} {n : Nat} (h : RetrainedUpTo s sm goes n t)
    {m : Nat} (hm : goes m = false) :
    RegsBut ((pgSeam sm, PAGE_STAT.DEGRADED) :: ((List.range n).filter (· ≠ m)).flatMap (seamFields sm)) s t := by
  refine h.regs.mono (List.cons_subset_cons _ fun e he => ?_)
  obtain ⟨k, hk, he⟩ := List.mem_flatMap.mp he
  obtain ⟨hrange, hgo⟩ := List.mem_filter.mp hk
  have hne : k ≠ m := fun heq => Bool.false_ne_true (hm.symm.trans (heq ▸ hgo))
  exact List.mem_flatMap.mpr ⟨k, List.mem_filter.mpr ⟨hrange, decide_eq_true hne⟩, he⟩

/-- Settles O36: a retrain, proposals, a passed test and a failed attempt each take a seam link to its next state. -/
theorem seamLinksTrain : Obligations.SeamLinksTrain := by
  intro sm l s p st fields training tries sent
  have hp : p ≠ pgMgmt := pgSeam_ne_pgMgmt sm
  refine ⟨fun mask => ?_, fun hup => ?_, fun hup => congrArg Host.Outcome.next (if_neg hup), fun p0 p1 hstate => ?_,
    fun hstate hnone => ⟨_, rfl, seamTested_spec s sm l hstate hnone⟩, fun hstate => ⟨fun hfew => ?_, fun htwo => ?_⟩,
    fun hexchange htest => congrArg Host.Outcome.next (if_neg (not_or.mpr ⟨hexchange, htest⟩))⟩
  · intro goes
    have hgoes (m : Nat) : goes m = (bit mask.toNat m && (s.seamState sm m == smUp || s.seamState sm m == smHeld)) := by
      rw [bit_eq_testBit]
      rfl
    have hdone := retrainedUpTo_seamRetrains s hgoes
    refine ⟨_, rfl, fun m hm => ?_, fun m hm => hdone.regs_of_not hm, hdone.regs.mono ?_, hdone.frame⟩
    · obtain ⟨hstate, hattempts, hretrains⟩ := hdone.done m m.isLt hm
      exact ⟨hstate, hattempts, hretrains⟩
    · refine List.cons_subset_cons _ fun e he => ?_
      obtain ⟨k, hk, he⟩ := List.mem_flatMap.mp he
      exact List.mem_flatMap.mpr ⟨k, List.mem_of_mem_filter hk, he⟩
  · obtain ⟨hframe, hstate, hattempts, hretrains, hregs⟩ := trains_seamTrain s sm l
    exact ⟨_, congrArg Host.Outcome.next (if_pos hup), ⟨hstate, hattempts, hretrains⟩, hregs, hframe⟩
  · intro w known two
    refine ⟨fun hw hquiet => ?_, fun hw hnew hready => ?_, fun hw hfew => ?_⟩
    · obtain ⟨t, ht, heq⟩ := seamProposals_of_width p0.isLt p1.isLt hstate hw
      have hsame : ¬(narrower p0.toNat p1.toNat ≠ s.get p (SEAM_LINK.WIDTH.at l) ∧ s.isReady = true) := by
        rintro ⟨hnew, hready⟩
        exact hquiet.elim hnew (fun h => Bool.false_ne_true (h.symm.trans hready))
      exact ⟨t, congrArg Host.Outcome.next (heq.trans (if_neg hsame)), ⟨ht.p0, ht.p1⟩, ht.state, ht.width, ht.frame,
        ht.regs⟩
    · obtain ⟨t, ht, heq⟩ := seamProposals_of_width p0.isLt p1.isLt hstate hw
      rw [if_pos ⟨hnew, hready⟩] at heq
      have herr := errOnly_report t p .u 0x13 (l * 256 + narrower p0.toNat p1.toNat * 16) 0 0
      have hapart : ∀ l : Fin 4, ∀ g ∈ errorHeader, ∀ f ∈ [SEAM_LINK.P0.at l, SEAM_LINK.P1.at l, SEAM_LINK.STATE.at l,
          SEAM_LINK.WIDTH.at l], g.apart f = true := by decide
      have hcount : ∀ l : Fin 4, ∀ f ∈ [SEAM_LINK.WIDTH.at l, SEAM_LINK.STATE.at l, SEAM_LINK.P0.at l,
          SEAM_LINK.P1.at l, PAGE_STAT.DEGRADED], f.apart PAGE_ERR_CNT_U.COUNT = true := by decide
      have hkept (f : Field) (hf : f ∈ [SEAM_LINK.P0.at l, SEAM_LINK.P1.at l, SEAM_LINK.STATE.at l,
          SEAM_LINK.WIDTH.at l]) := herr.get_beside hp (fun g hg => hapart l g hg f hf)
      refine ⟨_, congrArg Host.Outcome.next heq, ⟨(hkept _ (by simp)).trans ht.p0, (hkept _ (by simp)).trans ht.p1⟩,
        (hkept _ (by simp)).trans ht.state, (hkept _ (by simp)).trans ht.width, ?_, ?_, ?_⟩
      · have hbefore : t.get p PAGE_ERR_CNT_U.COUNT = s.get p PAGE_ERR_CNT_U.COUNT :=
          ht.regs.get_of_apart p (by simpa using hcount l)
        rw [← hbefore]
        exact get_report_counter t hp .u 0x13 (l * 256 + narrower p0.toNat p1.toNat * 16) 0 0
      · rw [herr.1, ht.frame]
      · exact (ht.regs.mono (List.subset_append_left _ _)).trans (herr.2.mono (List.subset_append_right _ _))
    · obtain ⟨hknown, hexchange, hmore, hregs, hframe⟩ := seamProposals_of_none p0.isLt p1.isLt hstate hw hfew
      exact ⟨_, rfl, hknown, hexchange, hmore, hregs.mono (by simp [p, two, fields, seamFields]), hframe⟩
  · exact ⟨_, congrArg Host.Outcome.next (if_pos hstate), seamFail_again s sm l hfew⟩
  · exact ⟨_, congrArg Host.Outcome.next (if_pos hstate), seamFail_held s sm l htwo⟩

end Sys2Proof.Machine
end

section
/-! Partition reset (07 R214 to R217): changes that stay on some pages, and drops that close. -/

namespace Sys2Proof.Machine

open Sys2Proof.Say

/-! ## Changes on some pages alone -/

theorem mkPage_eq_iff {s a t b : Nat} : mkPage s a = mkPage t b ↔ s % 256 = t % 256 ∧ a % 1024 = b % 1024 := by
  simp [mkPage, ← BitVec.toNat_inj]

/-- A state in which no field beyond some pages has changed. -/
def PagesBut (P : PageRef → Prop) (s t : State) : Prop :=
  ∀ q f, ¬P q → f.place < 2 ^ 17 → t.get q f = s.get q f

namespace PagesBut

variable {P Q : PageRef → Prop} {s t u : State}

theorem of_regs (h : t.regs = s.regs) : PagesBut P s t := fun q f _ _ => State.get_congr h q f

theorem congr_right (h : PagesBut P s t) (hregs : u.regs = t.regs) : PagesBut P s u :=
  fun q f hq hf => (State.get_congr hregs q f).trans (h q f hq hf)

theorem mono (h : PagesBut P s t) (hsub : ∀ q, P q → Q q) : PagesBut Q s t :=
  fun q f hq hf => h q f (fun hp => hq (hsub q hp)) hf

theorem trans (h : PagesBut P s t) (h' : PagesBut P t u) : PagesBut P s u :=
  fun q f hq hf => (h' q f hq hf).trans (h q f hq hf)

theorem put (h : PagesBut P s t) {p : PageRef} {f : Field} (hp : P p) (hf : f.place < 2 ^ 17) (v : Nat) :
    PagesBut P s (t.put p f v) :=
  fun q g hq hg => (t.get_put_page (fun heq : q = p => hq (by rwa [heq])) hf hg v).trans (h q g hq hg)

theorem putAll (h : PagesBut P s t) {p : PageRef} (hp : P p) {l : List (Field × Nat)} (hl : ∀ e ∈ l, e.1.place < 2 ^ 17) :
    PagesBut P s (t.putAll p l) := by
  induction l generalizing t with
  | nil => exact h
  | cons e l ih => exact ih (h.put hp (hl e List.mem_cons_self) e.2) fun g hg => hl g (List.mem_cons_of_mem e hg)

end PagesBut

/-! ## Where nothing waits -/

/-- What may wait, where no transfer has a sector to move. -/
theorem nothingWaits_iff {s : State} : NothingWaits s ↔ s.softWait = [] ∧ s.net.parked = [] ∧ s.bridge.accs = [] ∧
    s.bridge.hostReqs = [] ∧ s.attn.cmds = [] ∧ s.attn.accepts = [] ∧
    ∀ e ∈ s.tiles, e.2.outEnded = [] ∧ ∀ x ∈ e.2.xfers, x.todo = [] := by
  constructor
  · rintro ⟨hsoft, ⟨hparked, haccs, hhost, hcmds, haccepts, htiles⟩, htodo⟩
    exact ⟨hsoft, hparked, haccs, hhost, hcmds, haccepts, fun e he => ⟨(htiles e he).1, htodo e he⟩⟩
  · rintro ⟨hsoft, hparked, haccs, hhost, hcmds, haccepts, htiles⟩
    refine ⟨hsoft, ⟨hparked, haccs, hhost, hcmds, haccepts, fun e he => ⟨(htiles e he).1, fun x hx => ?_⟩⟩,
      fun e he => (htiles e he).2⟩
    simp [State.xferRefused, (htiles e he).2 x hx]

/-! ## Drops that close (07 R214, R215) -/

theorem dropLink_injective {n y z e d : Nat} (he : e < 2) (hd : d < 2) (h : dropLink n y e = dropLink n z d) :
    y = z ∧ e = d := by
  simp only [dropLink] at h
  omega

theorem ddCount_apart : CDIE_DD_CNT.COUNT.apart CDIE_PRST_STAT.STATE = true := by decide

/-- Packets that wait and are no requests are counted as they go. -/
structure Counted (n k : Nat) (s t : State) : Prop where
  frame : t = { s with regs := t.regs }
  count : t.get (pgCdie n) CDIE_DD_CNT.COUNT = countedTo (s.get (pgCdie n) CDIE_DD_CNT.COUNT) k
  regs : RegsBut [(pgCdie n, CDIE_DD_CNT.COUNT)] s t

theorem countedTo_add (g m k : Nat) : countedTo (countedTo g m) k = countedTo g (m + k) := by
  unfold countedTo
  split <;> split <;> split <;> omega

theorem Counted.trans {n j k : Nat} {s t u : State} (h : Counted n j s t) (h' : Counted n k t u) :
    Counted n (j + k) s u where
  frame := by rw [h'.frame, h.frame]
  count := by rw [h'.count, h.count, countedTo_add]
  regs := h.regs.trans h'.regs

theorem Counted.prst {n k : Nat} {s t : State} (h : Counted n k s t) (m : Nat) : t.prst m = s.prst m :=
  h.regs.get_of_apart (pgCdie m) (List.forall_mem_singleton.mpr ddCount_apart)

theorem counted_countDownDrop {n : Nat} {s : State} (h : s.prst n ≠ prstUp) : Counted n 1 s (s.countDownDrop n) := by
  rw [State.countDownDrop, if_neg h]
  exact ⟨rfl, s.get_count_self _ _ 1, RegsBut.of_put s _ _ _⟩

theorem counted_turnBack {n r : Nat} {s : State} (h : s.prst n ≠ prstUp) {flits : List (List Byte)}
    (hclass : flitClass (flits.headD []) ≠ clsRequest) : Counted n 1 s (s.turnBack n r flits) := by
  have hback : s.turnBack n r flits = s.countDownDrop n := if_neg hclass
  exact hback ▸ counted_countDownDrop h

theorem counted_foldl_turnBack {n r : Nat} {α : Type} : ∀ (q : List (α × List (List Byte))) (s : State),
    s.prst n ≠ prstUp → (∀ e ∈ q, flitClass (e.2.headD []) ≠ clsRequest) →
    Counted n q.length s (q.foldl (fun s e => s.turnBack n r e.2) s)
  | [], _, _, _ => ⟨rfl, rfl, .of_regs rfl⟩
  | e :: q, s, hprst, hclass => by
    have hfirst := counted_turnBack (r := r) hprst (hclass e List.mem_cons_self)
    rw [List.length_cons, Nat.add_comm]
    exact hfirst.trans (counted_foldl_turnBack q _ (hfirst.prst n ▸ hprst) fun x hx => hclass x (List.mem_cons_of_mem e hx))

/-- One drop closed downward. -/
def State.closeDrop (s : State) (n y : Nat) : State :=
  (s.link (dropLink n y 0)).queue.foldl (fun s e => s.turnBack n (linkRouter (dropLink n y 0)) e.2)
    (s.setLink (dropLink n y 0) { s.link (dropLink n y 0) with queue := [] })

/-- The first k drops of a die closed downward. -/
structure Closed (n k : Nat) (s t : State) : Prop where
  frame : t = { s with regs := t.regs, links := t.links }
  count : t.get (pgCdie n) CDIE_DD_CNT.COUNT = countedTo (s.get (pgCdie n) CDIE_DD_CNT.COUNT)
    ((List.range k).map (fun y => (s.link (dropLink n y 0)).queue.length)).sum
  regs : RegsBut [(pgCdie n, CDIE_DD_CNT.COUNT)] s t
  closed : ∀ y < k, t.link (dropLink n y 0) = { s.link (dropLink n y 0) with queue := [] }
  kept : ∀ i, (∀ y < k, i ≠ dropLink n y 0) → t.link i = s.link i

theorem Closed.succ {n k : Nat} {s t : State} (h : Closed n k s t) (hprst : s.prst n ≠ prstUp)
    (hclass : ∀ e ∈ (s.link (dropLink n k 0)).queue, flitClass (e.2.headD []) ≠ clsRequest) :
    Closed n (k + 1) s (t.closeDrop n k) := by
  have hnew (y : Nat) (hy : y < k) : dropLink n k 0 ≠ dropLink n y 0 := fun heq => by
    have := (dropLink_injective (by decide) (by decide) heq).1
    omega
  have hlink : t.link (dropLink n k 0) = s.link (dropLink n k 0) := h.kept _ hnew
  have hprst' : t.prst n ≠ prstUp := by
    rwa [show t.prst n = s.prst n from h.regs.get_of_apart (pgCdie n) (List.forall_mem_singleton.mpr ddCount_apart)]
  set u := t.setLink (dropLink n k 0) { t.link (dropLink n k 0) with queue := [] } with hu
  have hcounted : Counted n (s.link (dropLink n k 0)).queue.length u (t.closeDrop n k) := by
    rw [State.closeDrop, ← hu, hlink]
    exact counted_foldl_turnBack _ u hprst' hclass
  have hlinks (i : Nat) : (t.closeDrop n k).link i = u.link i := by
    rw [hcounted.frame]
    rfl
  refine ⟨?_, ?_, h.regs.trans (RegsBut.trans (.of_regs rfl) hcounted.regs), fun y hy => ?_, fun i hi => ?_⟩
  · rw [hcounted.frame, hu, h.frame]
    rfl
  · rw [hcounted.count, show u.get (pgCdie n) CDIE_DD_CNT.COUNT = t.get (pgCdie n) CDIE_DD_CNT.COUNT from rfl, h.count,
      countedTo_add, List.range_succ, List.map_append, List.sum_append, List.map_singleton, List.sum_singleton]
  · rw [hlinks]
    obtain hlt | rfl : y < k ∨ y = k := by omega
    · rw [hu, State.link_setLink_ne _ _ _ _ (hnew y hlt).symm, h.closed y hlt]
    · rw [hu, State.link_setLink_self, hlink]
  · rw [hlinks, hu, State.link_setLink_ne _ _ _ _ (hi k (by omega)), h.kept i fun y hy => hi y (by omega)]

theorem closed_foldl {n : Nat} {s : State} (hprst : s.prst n ≠ prstUp) : ∀ k,
    (∀ y < k, ∀ e ∈ (s.link (dropLink n y 0)).queue, flitClass (e.2.headD []) ≠ clsRequest) →
    Closed n k s ((List.range k).foldl (fun s y => s.closeDrop n y) s)
  | 0, _ => ⟨rfl, rfl, .of_regs rfl, fun _ h => by omega, fun _ _ => rfl⟩
  | k + 1, hclass => by
    rw [List.range_succ, List.foldl_append]
    exact (closed_foldl hprst k fun y hy => hclass y (by omega)).succ hprst (hclass k (by omega))

theorem prstBegin_of_up {n : Nat} {s : State} (h : s.prst n = prstUp)
    (hopen : (s.isReady || s.flag pgBoot BOOT_STAT.HALT) = true) : s.prstBegin n =
      (List.range 24).foldl (fun s y => s.closeDrop n y) (s.put (pgCdie n) CDIE_PRST_STAT.STATE prstDrain) :=
  if_pos ⟨h, hopen⟩

end Sys2Proof.Machine
end

section
/-! Partition reset (07 R214, R217, 14 R403): what the end of the drain does to the row engines, tiles, layer quarters and
drops of a die. -/

namespace Sys2Proof.Machine

open Sys2Proof.Say

/-! ## Row engines -/

/-- A row engine of a die stopped, with the commands that wait at its port. -/
def State.stopEngine (s : State) (n i : Nat) : State :=
  ((s.resAt (enginePort (16 * n + i))).openQ.map (·.2)).foldl (fun s c => s.rowReply c stDestDown)
    ((s.setRes (enginePort (16 * n + i)) { s.resAt (enginePort (16 * n + i)) with openQ := [] }).rowCut (16 * n + i) stDestDown)

/-- Row engines that held nothing, stopped. -/
structure EnginesStopped (n : Nat) (s t : State) : Prop where
  frame : t = { s with regs := t.regs, engines := t.engines, res := t.res }
  pages : PagesBut (fun q => ∃ m < 4, q = pgNmem n m) s t
  queues : ∀ e, s.engineQ e = [] → t.engineQ e = []
  ports : ∀ id, (s.resAt id).openQ = [] → (t.resAt id).openQ = []

theorem EnginesStopped.refl (n : Nat) (s : State) : EnginesStopped n s s := ⟨rfl, .of_regs rfl, fun _ h => h, fun _ h => h⟩

theorem EnginesStopped.trans {n : Nat} {s t u : State} (h : EnginesStopped n s t) (h' : EnginesStopped n t u) :
    EnginesStopped n s u where
  frame := by rw [h'.frame, h.frame]
  pages := h.pages.trans h'.pages
  queues e he := h'.queues e (h.queues e he)
  ports id hid := h'.ports id (h.ports id hid)

theorem enginesStopped_stopEngine {n i : Nat} {s : State} (hn : n < 12) (hi : i < 16) (hq : s.engineQ (16 * n + i) = [])
    (hopen : (s.resAt (enginePort (16 * n + i))).openQ = []) : EnginesStopped n s (s.stopEngine n i) := by
  set u := s.setRes (enginePort (16 * n + i)) { s.resAt (enginePort (16 * n + i)) with openQ := [] } with hu
  have hstop : s.stopEngine n i = u.setEngineQ (16 * n + i) [] := by
    have hqu : u.engineQ (16 * n + i) = [] := hq
    rw [State.stopEngine, hopen, ← hu, State.rowCut, hqu]
    rfl
  have hnear : 16 * n + i < 192 := by omega
  have hpage : enginePage (16 * n + i) = pgNmem n (i / 4) := by
    rw [enginePage, if_pos hnear]
    congr 1 <;> omega
  have hfields : engineFields (16 * n + i) = engineFields (i % 4) := by
    have hmod : (16 * n + i) % 4 = i % 4 := by omega
    have hlt : i % 4 < 192 := by omega
    rw [engineFields, if_pos hnear, engineFields, if_pos hlt, hmod, Nat.mod_mod]
  have hplace : ∀ k : Fin 4, (engineFields k).1.place < 2 ^ 17 ∧ (engineFields k).2.1.place < 2 ^ 17 := by decide
  obtain ⟨hbusy, hqueued⟩ := hplace ⟨i % 4, by omega⟩
  refine ⟨?_, ?_, fun e he => ?_, fun id hid => ?_⟩
  · rw [hstop]
    rfl
  · have hin : ∃ m < 4, pgNmem n (i / 4) = pgNmem n m := ⟨i / 4, by omega, rfl⟩
    rw [hstop, State.setEngineQ, hpage, hfields]
    exact ((PagesBut.of_regs rfl).put hin hbusy _).put hin hqueued _
  · rw [hstop]
    by_cases heq : e = 16 * n + i
    · rw [heq, State.engineQ_setEngineQ_self]
    · rw [State.engineQ_setEngineQ_ne _ _ _ _ heq]
      exact he
  · rw [hstop]
    change (u.resAt id).openQ = []
    by_cases heq : id = enginePort (16 * n + i)
    · rw [heq, hu, State.resAt_setRes_self]
    · rw [hu, State.resAt_setRes_ne _ _ _ _ heq, hid]

theorem enginesStopped_foldl {n : Nat} (hn : n < 12) {s : State} (hnone : ∀ i < 16, s.engineQ (16 * n + i) = [] ∧
    (s.resAt (enginePort (16 * n + i))).openQ = []) : ∀ k ≤ 16,
    EnginesStopped n s ((List.range k).foldl (fun s i => s.stopEngine n i) s)
  | 0, _ => EnginesStopped.refl n s
  | k + 1, hk => by
    have h := enginesStopped_foldl hn hnone k (by omega)
    obtain ⟨hqueue, hport⟩ := hnone k (by omega)
    rw [List.range_succ, List.foldl_append]
    exact h.trans (enginesStopped_stopEngine hn hk (h.queues _ hqueue) (h.ports _ hport))

/-! ## Tiles -/

/-- A tile stopped with its die. -/
def State.stopTile (s : State) (t : Nat) : State :=
  ((s.modTile t (fun u => { u with xfers := s.leftDie t })).tileLost t).put (pgTile t) PAGE_PWR.STATE 2

/-- Tiles without transfers, whose attention outputs have been told. -/
def QuietTiles (s : State) : Prop := ∀ e ∈ s.tiles, e.2.outEnded = [] ∧ ∀ x ∈ e.2.xfers, x.todo = []

/-- What a tile keeps as it loses its supply with no transfer under way. -/
def Tile.stopped (u : Tile) : Tile := { Tile.init with nextId := u.nextId, taintWait := u.taintWait }

/-- Tiles that held no transfers, stopped. -/
structure TilesStopped (l : List Nat) (s t : State) : Prop where
  frame : t = { s with regs := t.regs, tiles := t.tiles, mem := t.mem, cache := t.cache }
  tile : ∀ u ∈ l, t.tile u = (s.tile u).stopped
  power : ∀ u ∈ l, t.get (pgTile u) PAGE_PWR.STATE = 2
  run : ∀ u ∈ l, t.tileRun u = if s.tileRun u = runFenced then runFenced else runIdle
  others : ∀ u, u ∉ l → t.tile u = s.tile u
  pages : PagesBut (fun q => ∃ u ∈ l, q = pgTile u) s t
  quiet : QuietTiles s → QuietTiles t

theorem pgTile_injective {t u : Nat} (ht : t < 1728) (hu : u < 1728) (h : pgTile t = pgTile u) : t = u := by
  obtain ⟨hslot, hpage⟩ := mkPage_eq_iff.mp h
  omega

theorem leftDie_of_none {s : State} {t : Nat} (h : (s.tile t).xfers = []) : s.leftDie t = [] := by
  rw [State.leftDie, State.sentOff, h]
  rfl

theorem stopFields_apart : [TILE_STAT.RUN, TILE_STAT.CAUSE, TILE_PC.PC, TILE_ARR_STAT.STATE, TILE_ARR_STAT.GROUPS,
    TILE_BOOT_STAT.DONE, PAGE_PWR.STATE].Pairwise (fun f g => f.apart g = true) := by decide

/-- The registers that a tile shows as it stops. -/
def State.stopValues (s : State) (t : Nat) : List (Field × Nat) :=
  [(TILE_STAT.RUN, if s.tileRun t = runFenced then runFenced else runIdle), (TILE_STAT.CAUSE, 0), (TILE_PC.PC, 0),
    (TILE_ARR_STAT.STATE, rampOff), (TILE_ARR_STAT.GROUPS, 0), (TILE_BOOT_STAT.DONE, 0), (PAGE_PWR.STATE, 2)]

theorem stopTile_eq {s : State} {t : Nat} (hnone : (s.tile t).xfers = []) (hout : (s.tile t).outEnded = []) : ∃ u : State,
    u = { s.setTile t (s.tile t).stopped with mem := u.mem, cache := u.cache } ∧
      s.stopTile t = u.putAll (pgTile t) (s.stopValues t) := by
  set r := s.setTile t (s.tile t).stopped with hr
  have htile : (s.modTile t (fun u => { u with xfers := s.leftDie t })).setTile t { Tile.init with
      nextId := (s.tile t).nextId, xfers := (s.leftDie t).filter (fun x => x.sent.isSome && x.inject == 0),
      outEnded := (s.tile t).outEnded, taintWait := (s.tile t).taintWait } = r := by
    rw [State.modTile, State.setTile, State.setTile, mapSet_mapSet, leftDie_of_none hnone, hout]
    rfl
  refine ⟨match r.logicalOf t with | some l => r.zeroRange (sramBase l) sramSize | none => r, ?_, ?_⟩
  · split <;> rfl
  · simp only [State.stopTile, State.tileLost, State.tile_modTile_self, htile] <;> rfl

theorem putAll_regs_congr {s t : State} (h : s.regs = t.regs) (p : PageRef) (l : List (Field × Nat)) :
    (s.putAll p l).regs = (t.putAll p l).regs := by
  induction l generalizing s t with
  | nil => exact h
  | cons e l ih => exact ih (congrArg (fun m => mapSet (resetOf p e.1) m (fieldKey p e.1) (e.2 % 2 ^ (e.1.hi + 1 - e.1.lo))) h)

theorem tilesStopped_stopTile {s : State} {t : Nat} (hnone : (s.tile t).xfers = []) (hout : (s.tile t).outEnded = []) :
    TilesStopped [t] s (s.stopTile t) := by
  obtain ⟨u, hu, hstop⟩ := stopTile_eq hnone hout
  have hregs : (s.stopTile t).regs = (s.putAll (pgTile t) (s.stopValues t)).regs := by
    rw [hstop]
    exact putAll_regs_congr (by rw [hu]; rfl) _ _
  have htiles : (s.stopTile t).tiles = (s.setTile t (s.tile t).stopped).tiles := by
    rw [hstop, State.putAll_frame, hu]
  have hget {f : Field} {v : Nat} := get_of_putAll (f := f) (v := v) hregs stopFields_apart
  refine ⟨?_, ?_, ?_, ?_, ?_, ?_, ?_⟩
  · rw [hstop, State.putAll_frame, hu]
    rfl
  · rintro _ (_ | ⟨_, ⟨⟩⟩)
    rw [State.tile, htiles]
    exact State.tile_setTile_self s t _
  · rintro _ (_ | ⟨_, ⟨⟩⟩)
    exact hget (by simp [State.stopValues]) (show 2 < 2 ^ 2 by decide)
  · rintro _ (_ | ⟨_, ⟨⟩⟩)
    exact hget (by simp [State.stopValues]) (show _ < 2 ^ 3 by split <;> decide)
  · intro v hv
    rw [State.tile, htiles]
    exact State.tile_setTile_ne s t v _ (fun h => hv (h ▸ List.mem_singleton_self t))
  · refine (PagesBut.putAll (.of_regs rfl) (p := pgTile t) ⟨t, List.mem_singleton_self t, rfl⟩ ?_).congr_right hregs
    simp only [State.stopValues, List.forall_mem_cons, List.not_mem_nil, false_implies, implies_true, and_true]
    decide
  · intro hquiet e he
    rw [htiles] at he
    exact forall_mapSet (P := fun u : Tile => u.outEnded = [] ∧ ∀ x ∈ u.xfers, x.todo = []) hquiet
      ⟨rfl, fun x hx => by simp [Tile.stopped, Tile.init] at hx⟩ t e he

theorem TilesStopped.cons {t : Nat} {l : List Nat} {s r q : State} (h : TilesStopped [t] s r) (h' : TilesStopped l r q)
    (hnew : t ∉ l) (hpages : ∀ u ∈ l, pgTile u ≠ pgTile t) : TilesStopped (t :: l) s q := by
  have hold (u : Nat) (hu : u ∈ l) : r.tile u = s.tile u :=
    h.others u fun heq => hnew (List.mem_singleton.mp heq ▸ hu)
  have hgetOld (u : Nat) (hu : u ∈ l) {f : Field} (hf : f.place < 2 ^ 17) : r.get (pgTile u) f = s.get (pgTile u) f := by
    refine h.pages _ f ?_ hf
    rintro ⟨v, hv, heq⟩
    exact hpages u hu (List.mem_singleton.mp hv ▸ heq)
  have hgetNew {f : Field} (hf : f.place < 2 ^ 17) : q.get (pgTile t) f = r.get (pgTile t) f := by
    refine h'.pages _ f ?_ hf
    rintro ⟨u, hu, heq⟩
    exact hpages u hu heq.symm
  have hself := List.mem_singleton_self t
  refine ⟨by rw [h'.frame, h.frame], fun u hu => ?_, fun u hu => ?_, fun u hu => ?_, fun u hu => ?_, ?_,
    fun hquiet => h'.quiet (h.quiet hquiet)⟩
  · obtain rfl | hu := List.mem_cons.mp hu
    · rw [h'.others u hnew, h.tile u hself]
    · rw [h'.tile u hu, hold u hu]
  · obtain rfl | hu := List.mem_cons.mp hu
    · rw [hgetNew (by decide), h.power u hself]
    · exact h'.power u hu
  · obtain rfl | hu := List.mem_cons.mp hu
    · rw [State.tileRun, hgetNew (by decide)]
      exact h.run u hself
    · rw [h'.run u hu, State.tileRun, hgetOld u hu (by decide)]
      rfl
  · rw [List.mem_cons, not_or] at hu
    rw [h'.others u hu.2, h.others u (fun heq => hu.1 (List.mem_singleton.mp heq))]
  · refine (h.pages.mono ?_).trans (h'.pages.mono ?_)
    · rintro p ⟨u, hu, heq⟩
      exact ⟨u, List.mem_cons.mpr (.inl (List.mem_singleton.mp hu)), heq⟩
    · rintro p ⟨u, hu, heq⟩
      exact ⟨u, List.mem_cons_of_mem t hu, heq⟩

theorem tilesStopped_foldl : ∀ (l : List Nat) (s : State), l.Nodup → (∀ u ∈ l, u < 1728) →
    (∀ u ∈ l, (s.tile u).xfers = [] ∧ (s.tile u).outEnded = []) →
    TilesStopped l s (l.foldl (fun s t => s.stopTile t) s)
  | [], s, _, _, _ => ⟨rfl, by simp, by simp, by simp, fun _ _ => rfl, .of_regs rfl, fun h => h⟩
  | t :: l, s, hnodup, hlt, hnone => by
    obtain ⟨hnew, hnodup⟩ := List.nodup_cons.mp hnodup
    obtain ⟨hxfers, hout⟩ := hnone t List.mem_cons_self
    have hfirst := tilesStopped_stopTile hxfers hout
    refine hfirst.cons (tilesStopped_foldl l _ hnodup (fun u hu => hlt u (List.mem_cons_of_mem t hu)) fun u hu => ?_) hnew ?_
    · rw [hfirst.others u fun heq => hnew (List.mem_singleton.mp heq ▸ hu)]
      exact hnone u (List.mem_cons_of_mem t hu)
    · intro u hu heq
      exact hnew (pgTile_injective (hlt u (List.mem_cons_of_mem t hu)) (hlt t List.mem_cons_self) heq ▸ hu)

/-! ## Layer quarters -/

theorem quarterFields_apart (n : Nat) :
    ((List.range 16).map (fun i => quarterField n (i / 4) (i % 4))).Pairwise (fun f g => f.apart g = true) := by
  have hall : ∀ r : Fin 3, ((List.range 16).map (fun i => (PWR_NMQ_STAT.Q.at r).sub (4 * (i / 4) + i % 4))).Pairwise
      (fun f g => f.apart g = true) := by decide
  exact hall ⟨n % 3, Nat.mod_lt n (by decide)⟩

theorem quarterField_place (n : Nat) {m q : Nat} (hm : m < 4) (hq : q < 4) : (quarterField n m q).place < 2 ^ 17 := by
  change 32 * (0x070 + 4 * (n % 3)) + (0 + 2 * (4 * m + q)) < 2 ^ 17
  omega

/-- Every layer quarter of a die put in one state. -/
structure QuartersSet (n v : Nat) (s t : State) : Prop where
  frame : t = { s with regs := t.regs }
  state : ∀ m < 4, ∀ q < 4, t.get (pgPwr (n / 3)) (quarterField n m q) = v
  pages : PagesBut (fun q => q = pgPwr (n / 3)) s t

theorem quartersSet (s : State) (n : Nat) {v : Nat} (hv : v < 4) : QuartersSet n v s (s.setQuarters n v) := by
  set l := (List.range 16).map (fun i => (quarterField n (i / 4) (i % 4), v)) with hl
  have hset : s.setQuarters n v = s.putAll (pgPwr (n / 3)) l := by
    rw [hl, State.putAll, List.foldl_map]
    rfl
  have hpair : (l.map Prod.fst).Pairwise (fun f g => f.apart g = true) := by
    rw [hl, List.map_map]
    exact quarterFields_apart n
  refine ⟨?_, fun m hm q hq => ?_, ?_⟩
  · rw [hset]
    exact State.putAll_frame s _ _
  · have hnumber : 4 * m + q ∈ List.range 16 := List.mem_range.mpr (by omega)
    refine get_of_putAll (congrArg State.regs hset) hpair (List.mem_map.mpr ⟨4 * m + q, hnumber, ?_⟩) ?_
    · rw [show (4 * m + q) / 4 = m by omega, show (4 * m + q) % 4 = q by omega]
    · have hwidth : (quarterField n m q).hi + 1 - (quarterField n m q).lo = 2 := by
        change 1 + 2 * (4 * m + q) + 1 - (0 + 2 * (4 * m + q)) = 2
        omega
      rw [hwidth]
      exact hv
  · rw [hset]
    refine PagesBut.putAll (P := fun q => q = pgPwr (n / 3)) (.of_regs rfl) rfl fun e he => ?_
    obtain ⟨i, hi, rfl⟩ := List.mem_map.mp he
    have := List.mem_range.mp hi
    exact quarterField_place n (by omega) (by omega)

/-! ## Drops -/

/-- Drops of a die that hold nothing under way, cut: their die ends start anew. -/
structure DropsCut (n k : Nat) (s t : State) : Prop where
  frame : t = { s with links := t.links }
  base : ∀ y < k, t.link (dropLink n y 0) = { s.link (dropLink n y 0) with rx := [], waiting := false }
  die : ∀ y < k, t.link (dropLink n y 1) = Link.init
  others : ∀ i, (∀ y < k, i ≠ dropLink n y 0 ∧ i ≠ dropLink n y 1) → t.link i = s.link i

theorem cutDrop_of_idle {s : State} {n y : Nat} (hreplay : (s.link (dropLink n y 0)).replay = [])
    (hactive : (s.link (dropLink n y 0)).active = []) : s.cutDrop n y =
      (s.setLink (dropLink n y 0) { s.link (dropLink n y 0) with rx := [], waiting := false }).setLink (dropLink n y 1)
        Link.init := by
  have hsame : { s.link (dropLink n y 0) with replay := [], active := [], rx := [], waiting := false } =
      { s.link (dropLink n y 0) with rx := [], waiting := false } := by
    rw [← hreplay, ← hactive]
  have hlost : (List.range 4).flatMap (fun c => gatherPackets (((s.link (dropLink n y 0)).replay.map (·.2) ++
      mapGet [] (s.link (dropLink n y 0)).active c).filter (fun f => flitClass f == c))) = [] := by
    rw [hreplay, hactive]
    rfl
  unfold State.cutDrop
  dsimp only
  rw [hlost, hsame]
  rfl

theorem DropsCut.succ {n k : Nat} {s t : State} (h : DropsCut n k s t) (hreplay : (s.link (dropLink n k 0)).replay = [])
    (hactive : (s.link (dropLink n k 0)).active = []) : DropsCut n (k + 1) s (t.cutDrop n k) := by
  have hne (y e d : Nat) (hy : y < k) (he : e < 2) (hd : d < 2) : dropLink n y e ≠ dropLink n k d := fun heq => by
    have := (dropLink_injective he hd heq).1
    omega
  have hends : dropLink n k 0 ≠ dropLink n k 1 := by simp only [dropLink]; omega
  have hlink : t.link (dropLink n k 0) = s.link (dropLink n k 0) := h.others _ fun y hy =>
    ⟨(hne y 0 0 hy (by decide) (by decide)).symm, (hne y 1 0 hy (by decide) (by decide)).symm⟩
  rw [cutDrop_of_idle (hlink ▸ hreplay) (hlink ▸ hactive), hlink]
  refine ⟨?_, fun y hy => ?_, fun y hy => ?_, fun i hi => ?_⟩
  · rw [h.frame]
    rfl
  · obtain hlt | rfl : y < k ∨ y = k := by omega
    · rw [State.link_setLink_ne _ _ _ _ (hne y 0 1 hlt (by decide) (by decide)),
        State.link_setLink_ne _ _ _ _ (hne y 0 0 hlt (by decide) (by decide)), h.base y hlt]
    · rw [State.link_setLink_ne _ _ _ _ hends, State.link_setLink_self]
  · obtain hlt | rfl : y < k ∨ y = k := by omega
    · rw [State.link_setLink_ne _ _ _ _ (hne y 1 1 hlt (by decide) (by decide)),
        State.link_setLink_ne _ _ _ _ (hne y 1 0 hlt (by decide) (by decide)), h.die y hlt]
    · rw [State.link_setLink_self]
  · obtain ⟨hbase, hdie⟩ := hi k (by omega)
    rw [State.link_setLink_ne _ _ _ _ hdie, State.link_setLink_ne _ _ _ _ hbase, h.others i fun y hy => hi y (by omega)]

theorem dropsCut_foldl {n : Nat} {s : State} : ∀ k,
    (∀ y < k, (s.link (dropLink n y 0)).replay = [] ∧ (s.link (dropLink n y 0)).active = []) →
    DropsCut n k s ((List.range k).foldl (fun s y => s.cutDrop n y) s)
  | 0, _ => ⟨rfl, fun _ h => by omega, fun _ h => by omega, fun _ _ => rfl⟩
  | k + 1, hidle => by
    obtain ⟨hreplay, hactive⟩ := hidle k (by omega)
    rw [List.range_succ, List.foldl_append]
    exact (dropsCut_foldl k fun y hy => hidle y (by omega)).succ hreplay hactive

end Sys2Proof.Machine
end

section
/-! Partition reset (07 R214, R217): the end of the drain as a whole. -/

namespace Sys2Proof.Machine

open Sys2Proof.Say

/-- The tile positions of a die. -/
def tilesOf (n : Nat) : List Nat := (List.range 144).map (fun i => 144 * n + i)

theorem mem_tilesOf {n t : Nat} : t ∈ tilesOf n ↔ t / 144 = n := by
  simp only [tilesOf, List.mem_map, List.mem_range]
  exact ⟨by rintro ⟨i, hi, rfl⟩; omega, fun h => ⟨t % 144, by omega, by omega⟩⟩

theorem nodup_tilesOf (n : Nat) : (tilesOf n).Nodup :=
  List.nodup_range.map fun _ _ h => Nat.add_left_cancel h

/-! ## Pages of a die -/

theorem pgNmem_ne_pgCdie {n m : Nat} (hm : m < 4) : pgCdie n ≠ pgNmem n m := fun h => by
  have := (mkPage_eq_iff.mp h).2
  omega

theorem pgTile_ne_pgCdie (n t : Nat) : pgCdie n ≠ pgTile t := fun h => by
  have := (mkPage_eq_iff.mp h).2
  omega

theorem pgPwr_ne_pgCdie (n b : Nat) : pgCdie n ≠ pgPwr b := fun h => by
  have := (mkPage_eq_iff.mp h).2
  omega

theorem pgTile_ne_pgNmem {t n m : Nat} (hm : m < 4) : pgTile t ≠ pgNmem n m := fun h => by
  have := (mkPage_eq_iff.mp h).2
  omega

theorem pgTile_ne_pgPwr (t b : Nat) : pgTile t ≠ pgPwr b := fun h => by
  have := (mkPage_eq_iff.mp h).2
  omega

/-! ## The phases in order -/

/-- What of the package the end of a drain stops. -/
def State.stopDie (s : State) (n : Nat) : State :=
  ((List.range 24).foldl (fun s y => s.cutDrop n y) (((List.range 144).foldl (fun s p => s.stopTile (144 * n + p))
    ((List.range 16).foldl (fun s i => s.stopEngine n i) (s.put (pgCdie n) CDIE_PRST_STAT.STATE prstReset))).setQuarters n
    1)).accsDown n

/-- What the rest of the package holds for a stopped die, dropped. -/
def State.forgetDie (s : State) (n : Nat) : State :=
  { s with
    moves := s.moves.filter (fun m => !domOnDie n m.dom)
    net := { s.net with parked := s.net.parked.filter (fun e => e.2.1 / 144 != n),
                        stalled := s.net.stalled.filter (fun e => e.1 / 144 != n) }
    res := mapUpd Res.init s.res (fun id r =>
      if resSlot id = 0x10 + n ∧ resKind id = kindNMBG then { r with rows := [] } else r) }

theorem prstDrained_of_drain {s : State} {n : Nat} (h : s.prst n = prstDrain) : s.prstDrained n = (s.stopDie n).forgetDie n := by
  unfold State.prstDrained State.forgetDie State.stopDie State.stopTile State.stopEngine
  rw [if_neg (not_not.mpr h)]

section

variable (s : State) (n : Nat)

theorem regs_forgetDie : (s.forgetDie n).regs = s.regs := rfl
theorem tiles_forgetDie : (s.forgetDie n).tiles = s.tiles := rfl
theorem links_forgetDie : (s.forgetDie n).links = s.links := rfl
theorem engines_forgetDie : (s.forgetDie n).engines = s.engines := rfl

theorem get_forgetDie (p : PageRef) (f : Field) : (s.forgetDie n).get p f = s.get p f :=
  State.get_congr (regs_forgetDie s n) p f

theorem tile_forgetDie (u : Nat) : (s.forgetDie n).tile u = s.tile u := by
  rw [State.tile, tiles_forgetDie, State.tile]

theorem link_forgetDie (i : Nat) : (s.forgetDie n).link i = s.link i := by
  rw [State.link, links_forgetDie, State.link]

theorem engineQ_forgetDie (e : Nat) : (s.forgetDie n).engineQ e = s.engineQ e := by
  rw [State.engineQ, State.engine, engines_forgetDie, State.engineQ, State.engine]

end

theorem openQ_forgetDie (s : State) (n id : Nat) : ((s.forgetDie n).resAt id).openQ = (s.resAt id).openQ := by
  rw [State.resAt, State.forgetDie, mapGet_mapUpd_of]
  · split <;> rfl
  · split <;> rfl

theorem accsDown_of_none {s : State} (h : s.bridge.accs = []) (n : Nat) : s.accsDown n = s := by
  have hbridge : { s.bridge with accs := [] } = s.bridge := by rw [← h]
  simp only [State.accsDown, h, List.map_nil, hbridge]

/-- A die of which nothing was under way, stopped. -/
structure DieStopped (n : Nat) (s t : State) : Prop where
  frame : t = { s with regs := t.regs, engines := t.engines, res := t.res, tiles := t.tiles, mem := t.mem, cache := t.cache,
                       links := t.links }
  prst : t.prst n = prstReset
  tile : ∀ u ∈ tilesOf n, t.tile u = (s.tile u).stopped
  power : ∀ u ∈ tilesOf n, t.get (pgTile u) PAGE_PWR.STATE = 2
  run : ∀ u ∈ tilesOf n, t.tileRun u = if s.tileRun u = runFenced then runFenced else runIdle
  others : ∀ u, u ∉ tilesOf n → t.tile u = s.tile u
  quarters : ∀ m < 4, ∀ q < 4, t.get (pgPwr (n / 3)) (quarterField n m q) = 1
  base : ∀ y < 24, t.link (dropLink n y 0) = { s.link (dropLink n y 0) with rx := [], waiting := false }
  die : ∀ y < 24, t.link (dropLink n y 1) = Link.init
  queues : ∀ e, s.engineQ e = [] → t.engineQ e = []
  ports : ∀ id, (s.resAt id).openQ = [] → (t.resAt id).openQ = []
  quiet : QuietTiles s → QuietTiles t

theorem dieStopped_of_phases {n : Nat} {s s1 s2 s3 s4 : State}
    (h1 : EnginesStopped n (s.put (pgCdie n) CDIE_PRST_STAT.STATE prstReset) s1) (h2 : TilesStopped (tilesOf n) s1 s2)
    (h3 : QuartersSet n 1 s2 s3) (h4 : DropsCut n 24 s3 s4) : DieStopped n s s4 := by
  have hget (p : PageRef) (f : Field) : s4.get p f = s3.get p f := State.get_congr (by rw [h4.frame]) p f
  have htiles4 : s4.tiles = s2.tiles := by rw [h4.frame, h3.frame]
  have htiles1 : s1.tiles = s.tiles := by rw [h1.frame]; rfl
  have hlinks3 : s3.links = s.links := by rw [h3.frame, h2.frame, h1.frame]; rfl
  have hengines4 : s4.engines = s1.engines := by rw [h4.frame, h3.frame, h2.frame]
  have hres4 : s4.res = s1.res := by rw [h4.frame, h3.frame, h2.frame]
  have htile (u : Nat) : s1.tile u = s.tile u := by rw [State.tile, htiles1, State.tile]
  have hlink (i : Nat) : s3.link i = s.link i := by rw [State.link, hlinks3, State.link]
  have hof4 (u : Nat) : s4.tile u = s2.tile u := by rw [State.tile, htiles4, State.tile]
  have hpwr {t : Nat} {f : Field} (hf : f.place < 2 ^ 17) : s4.get (pgTile t) f = s2.get (pgTile t) f :=
    (hget _ f).trans (h3.pages _ f (pgTile_ne_pgPwr t _) hf)
  have hbefore (t : Nat) : s1.tileRun t = s.tileRun t := by
    have hfar : ¬∃ m < 4, pgTile t = pgNmem n m := fun ⟨m, hm, heq⟩ => pgTile_ne_pgNmem hm heq
    exact (h1.pages _ _ hfar (by decide)).trans
      (s.get_put_page (pgTile_ne_pgCdie n t).symm (by decide) (by decide) prstReset)
  refine ⟨?_, ?_, fun u hu => ?_, fun u hu => ?_, fun u hu => ?_, fun u hu => ?_, fun m hm q hq => ?_, fun y hy => ?_,
    h4.die, fun e he => ?_, fun id hid => ?_, fun hquiet => ?_⟩
  · rw [h4.frame, h3.frame, h2.frame, h1.frame]
    rfl
  · have hfar1 : ¬∃ m < 4, pgCdie n = pgNmem n m := fun ⟨m, hm, heq⟩ => pgNmem_ne_pgCdie hm heq
    have hfar2 : ¬∃ u ∈ tilesOf n, pgCdie n = pgTile u := fun ⟨u, _, heq⟩ => pgTile_ne_pgCdie n u heq
    have hplace : CDIE_PRST_STAT.STATE.place < 2 ^ 17 := by decide
    calc s4.get (pgCdie n) CDIE_PRST_STAT.STATE = s2.get (pgCdie n) CDIE_PRST_STAT.STATE :=
          (hget _ _).trans (h3.pages _ _ (pgPwr_ne_pgCdie n _) hplace)
      _ = (s.put (pgCdie n) CDIE_PRST_STAT.STATE prstReset).get (pgCdie n) CDIE_PRST_STAT.STATE :=
          (h2.pages _ _ hfar2 hplace).trans (h1.pages _ _ hfar1 hplace)
      _ = prstReset := s.get_put_of_lt _ _ _ (by decide)
  · rw [hof4, h2.tile u hu, htile]
  · rw [hpwr (by decide)]
    exact h2.power u hu
  · rw [State.tileRun, hpwr (by decide), ← hbefore]
    exact h2.run u hu
  · rw [hof4, h2.others u hu, htile]
  · rw [hget]
    exact h3.state m hm q hq
  · rw [h4.base y hy, hlink]
  · have hqueue := h1.queues e he
    rw [State.engineQ, State.engine] at hqueue ⊢
    rwa [hengines4]
  · have hport := h1.ports id hid
    rw [State.resAt] at hport ⊢
    rwa [hres4]
  · have hq := h2.quiet (by rw [QuietTiles, htiles1]; exact hquiet)
    rw [QuietTiles, htiles4]
    exact hq

theorem dieStopped_stopDie {s : State} {n : Nat} (hn : n < 12) (hquiet : QuietTiles s) (haccs : s.bridge.accs = [])
    (hengines : ∀ i < 16, s.engineQ (16 * n + i) = [] ∧ (s.resAt (enginePort (16 * n + i))).openQ = [])
    (hxfers : ∀ i < 144, (s.tile (144 * n + i)).xfers = [])
    (hdrops : ∀ y < 24, (s.link (dropLink n y 0)).replay = [] ∧ (s.link (dropLink n y 0)).active = []) :
    DieStopped n s (s.stopDie n) := by
  have h1 := enginesStopped_foldl (s := s.put (pgCdie n) CDIE_PRST_STAT.STATE prstReset) hn hengines 16 le_rfl
  generalize hs1 : (List.range 16).foldl (fun s i => s.stopEngine n i) (s.put (pgCdie n) CDIE_PRST_STAT.STATE prstReset) = s1
    at h1
  have htile (u : Nat) : s1.tile u = s.tile u := by rw [h1.frame]; rfl
  have hout (u : Nat) : (s.tile u).outEnded = [] :=
    mapGet_of_forall (P := fun u : Tile => u.outEnded = []) rfl (fun e he => (hquiet e he).1) u
  have hlt (u : Nat) (hu : u ∈ tilesOf n) : u < 1728 := by
    have := mem_tilesOf.mp hu
    omega
  have hnone (u : Nat) (hu : u ∈ tilesOf n) : (s1.tile u).xfers = [] ∧ (s1.tile u).outEnded = [] := by
    have hdie := mem_tilesOf.mp hu
    have hmine := hxfers (u % 144) (Nat.mod_lt u (by decide))
    rw [show 144 * n + u % 144 = u by omega] at hmine
    exact htile u ▸ ⟨hmine, hout u⟩
  have h2 := tilesStopped_foldl (tilesOf n) s1 (nodup_tilesOf n) hlt hnone
  generalize hs2 : (tilesOf n).foldl (fun s t => s.stopTile t) s1 = s2 at h2
  have h3 := quartersSet s2 n (v := 1) (by decide)
  generalize hs3 : s2.setQuarters n 1 = s3 at h3
  have hlinks : s3.links = s.links := by rw [h3.frame, h2.frame, h1.frame]; rfl
  have hlink (i : Nat) : s3.link i = s.link i := by rw [State.link, hlinks, State.link]
  have h4 := dropsCut_foldl (n := n) (s := s3) 24 fun y hy => (hlink (dropLink n y 0)).symm ▸ hdrops y hy
  generalize hs4 : (List.range 24).foldl (fun s y => s.cutDrop n y) s3 = s4 at h4
  have hstopped := dieStopped_of_phases h1 h2 h3 h4
  have hbridge : s4.bridge.accs = [] := by
    rw [hstopped.frame]
    exact haccs
  have hstop : s.stopDie n = s4 := by
    rw [tilesOf, List.foldl_map] at hs2
    rw [State.stopDie, hs1, hs2, hs3, hs4]
    exact accsDown_of_none hbridge n
  rwa [hstop]

theorem nothingWaits_forgetDie {n : Nat} {s t : State} (h : NothingWaits s) (ht : DieStopped n s t) :
    NothingWaits (t.forgetDie n) := by
  obtain ⟨hsoft, hparked, haccs, hhost, hcmds, haccepts, htiles⟩ := nothingWaits_iff.mp h
  refine nothingWaits_iff.mpr ⟨?_, ?_, ?_, ?_, ?_, ?_, ht.quiet htiles⟩ <;> rw [State.forgetDie, ht.frame]
  · exact hsoft
  · change s.net.parked.filter _ = []
    rw [hparked, List.filter_nil]
  · exact haccs
  · exact hhost
  · exact hcmds
  · exact haccepts

end Sys2Proof.Machine
end

section
/-! Partition reset (07 R214 to R217): `RELEASE`, and the obligation. -/

namespace Sys2Proof.Machine

open Sys2Proof.Say

/-! ## Tiles that turn on -/

/-- A tile of a released die turns on where it may be on and its request is not OFF. -/
def State.powerTile (s : State) (t : Nat) : State :=
  if s.tilePowered t && s.get (pgTile t) PAGE_PWR.REQ != 2 then s.put (pgTile t) PAGE_PWR.STATE 0 else s

/-- The state of a tile as its die is released. -/
def State.releasedState (s : State) (t : Nat) : Nat :=
  if s.tilePowered t = true ∧ s.get (pgTile t) PAGE_PWR.REQ ≠ 2 then 0 else s.get (pgTile t) PAGE_PWR.STATE

/-- The first k tiles of a die turned on where they may be. -/
structure TilesReleased (n k : Nat) (s t : State) : Prop where
  frame : t = { s with regs := t.regs }
  state : ∀ i < k, t.get (pgTile (144 * n + i)) PAGE_PWR.STATE = s.releasedState (144 * n + i)
  others : ∀ q f, (∀ i < k, fieldKey q f ≠ fieldKey (pgTile (144 * n + i)) PAGE_PWR.STATE) → t.get q f = s.get q f

theorem pgTmap_ne_pgTile (n t : Nat) : pgTmap n ≠ pgTile t := fun h => by
  have := (mkPage_eq_iff.mp h).2
  omega

theorem get_powerTile_self (s : State) (t : Nat) :
    (s.powerTile t).get (pgTile t) PAGE_PWR.STATE = s.releasedState t := by
  simp only [State.powerTile, State.releasedState, Bool.and_eq_true, bne_iff_ne]
  split
  · exact s.get_put_of_lt _ _ 0 (by decide)
  · rfl

theorem get_powerTile_ne (s : State) {t : Nat} {q : PageRef} {f : Field}
    (h : fieldKey q f ≠ fieldKey (pgTile t) PAGE_PWR.STATE) : (s.powerTile t).get q f = s.get q f := by
  unfold State.powerTile
  split
  · exact s.get_put_ne _ _ _ _ _ h
  · rfl

theorem powerTile_frame (s : State) (t : Nat) : s.powerTile t = { s with regs := (s.powerTile t).regs } := by
  unfold State.powerTile
  split <;> rfl

theorem TilesReleased.succ {n k : Nat} {s t : State} (hn : n < 12) (hk : k < 144) (h : TilesReleased n k s t) :
    TilesReleased n (k + 1) s (t.powerTile (144 * n + k)) := by
  have hne (i : Nat) (hi : i < k) : pgTile (144 * n + k) ≠ pgTile (144 * n + i) := fun heq => by
    have := pgTile_injective (by omega) (by omega) heq
    omega
  have hkept (f : Field) (hf : f.place < 2 ^ 17) : t.get (pgTile (144 * n + k)) f = s.get (pgTile (144 * n + k)) f :=
    h.others _ _ fun i hi => fieldKey_ne_of_page (hne i hi) (by decide) hf
  have hpowered : t.tilePowered (144 * n + k) = s.tilePowered (144 * n + k) := by
    have hplace : ((TMAP_PHYS.STATE.at ((144 * n + k) % 144))).place < 2 ^ 17 := by
      change 32 * (0x080 + 4 * ((144 * n + k) % 144)) + 8 < 2 ^ 17
      omega
    have hstate : t.tmapState (144 * n + k) = s.tmapState (144 * n + k) :=
      h.others _ _ fun i _ => fieldKey_ne_of_page (pgTmap_ne_pgTile _ _) (by decide) hplace
    rw [State.tilePowered, State.tileServes, hstate]
    rfl
  refine ⟨?_, fun i hi => ?_, fun q f hq => ?_⟩
  · rw [powerTile_frame, h.frame]
  · obtain hlt | rfl : i < k ∨ i = k := by omega
    · rw [get_powerTile_ne _ (fieldKey_ne_of_page (hne i hlt).symm (by decide) (by decide)), h.state i hlt]
    · rw [get_powerTile_self, State.releasedState, hpowered, hkept _ (by decide), hkept _ (by decide)]
      rfl
  · rw [get_powerTile_ne _ (hq k (by omega)), h.others q f fun i hi => hq i (by omega)]

theorem tilesReleased_foldl {n : Nat} (hn : n < 12) (s : State) : ∀ k ≤ 144,
    TilesReleased n k s ((List.range k).foldl (fun s i => s.powerTile (144 * n + i)) s)
  | 0, _ => ⟨rfl, fun _ h => by omega, fun _ _ _ => rfl⟩
  | k + 1, hk => by
    rw [List.range_succ, List.foldl_append]
    exact (tilesReleased_foldl hn s k (by omega)).succ hn hk

/-! ## The arbiter page -/

theorem State.get_clearPage_of_page (s : State) {p q : PageRef} (h : q ≠ p) {f : Field} (hf : f.place < 2 ^ 17) :
    (s.clearPage p).get q f = s.get q f := by
  obtain ⟨hlo, hhi⟩ := fieldKey_mem_page (p := q) hf
  refine s.get_clearPage_of_outside ?_
  by_contra hin
  refine h ?_
  have hp := p.page.isLt
  have hq := q.page.isLt
  simp only [pageKey] at hlo hhi hin
  have hslot : q.slot.toNat = p.slot.toNat := by omega
  have hpage : q.page.toNat = p.page.toNat := by omega
  obtain ⟨_, _⟩ := p
  obtain ⟨_, _⟩ := q
  exact congrArg₂ PageRef.mk (BitVec.eq_of_toNat_eq hslot) (BitVec.eq_of_toNat_eq hpage)

/-- A page back at its package-reset state, but for the lock and READY. -/
structure PageIsReset (p : PageRef) (s t : State) : Prop where
  frame : t = { s with regs := t.regs }
  reset : ∀ f, f.place < 2 ^ 17 → PAGE_CTRL.LOCK.apart f = true → PAGE_STAT.READY.apart f = true → t.get p f = resetOf p f
  lock : t.get p PAGE_CTRL.LOCK = s.get p PAGE_CTRL.LOCK % 2
  pages : PagesBut (fun q => q = p) s t

theorem pageIsReset_pageReset (s : State) (p : PageRef) : PageIsReset p s (s.pageReset p) where
  frame := rfl
  reset f hf hlock hready := by
    rw [State.pageReset, State.get_put_apart _ _ _ _ _ _ hready, State.get_put_apart _ _ _ _ _ _ hlock]
    exact s.get_clearPage hf
  lock := by
    rw [State.pageReset, State.get_put_apart _ _ _ _ _ _ (by decide), State.get_put_self]
    rfl
  pages := by
    have hclear : PagesBut (fun q => q = p) s (s.clearPage p) := fun q f hq hf => s.get_clearPage_of_page hq hf
    exact (hclear.put rfl (by decide) _).put rfl (by decide) _

theorem arbFields_apart : ∀ f ∈ (fieldsOf .arb).flatMap Field.each,
    f.place < 2 ^ 17 ∧ PAGE_CTRL.LOCK.apart f = true ∧ PAGE_STAT.READY.apart f = true := by decide

theorem calOf_resetArb (s : State) {a id : Nat} (h : resSlot id = slotOfArb a) :
    (s.resetArb a).calOf id = resetCalendar (resKind id) := by
  have hcal : ((s.resetArb a).resAt id).cal = [] := by
    rw [State.resAt, State.resetArb, mapGet_mapUpd_of, if_pos h]
    · rfl
    · split <;> rfl
  rw [State.calOf, hcal]

/-! ## Drops that start anew -/

theorem link_foldl_setLink (n : Nat) (s : State) : ∀ k,
    let t := (List.range k).foldl (fun s y => s.setLink (dropLink n y 0) Link.init) s
    t = { s with links := t.links } ∧ (∀ y < k, t.link (dropLink n y 0) = Link.init) ∧
      ∀ i, (∀ y < k, i ≠ dropLink n y 0) → t.link i = s.link i
  | 0 => ⟨rfl, fun _ h => by omega, fun _ _ => rfl⟩
  | k + 1 => by
    obtain ⟨hframe, hinit, hkept⟩ := link_foldl_setLink n s k
    rw [List.range_succ, List.foldl_append]
    refine ⟨?_, fun y hy => ?_, fun i hi => ?_⟩
    · rw [List.foldl_cons, List.foldl_nil, State.setLink, hframe]
    · obtain hlt | rfl : y < k ∨ y = k := by omega
      · have hne : dropLink n y 0 ≠ dropLink n k 0 := fun heq => by
          have := (dropLink_injective (by decide) (by decide) heq).1
          omega
        exact (State.link_setLink_ne _ _ _ _ hne).trans (hinit y hlt)
      · exact State.link_setLink_self _ _ _
    · exact (State.link_setLink_ne _ _ _ _ (hi k (by omega))).trans (hkept i fun y hy => hi y (by omega))

/-! ## `RELEASE` as a whole -/

theorem prstFree_of_reset {s : State} {n : Nat} (h : s.prst n = prstReset)
    (hopen : (s.isReady || s.flag pgBoot BOOT_STAT.HALT) = true) : s.prstFree n =
      (List.range 24).foldl (fun s y => s.setLink (dropLink n y 0) Link.init) ((((List.range 144).foldl
        (fun s i => s.powerTile (144 * n + i)) (s.put (pgCdie n) CDIE_PRST_STAT.STATE prstReleasing)).setQuarters n 0).pageReset
          (pgArb (4 + n)) |>.resetArb (4 + n)) := by
  have hgo : ¬(s.prst n ≠ prstReset ∨ (!(s.isReady || s.flag pgBoot BOOT_STAT.HALT)) = true) := by simp [h, hopen]
  unfold State.prstFree State.powerTile
  rw [if_neg hgo]

theorem pgArb_ne {n : Nat} {q : PageRef} (hq : q.page.toNat ≠ 9) : q ≠ pgArb (4 + n) := fun h => by
  have hpage : (pgArb (4 + n)).page.toNat = 9 := by
    rw [pgArb, if_neg (by omega)]
    rfl
  exact hq (h ▸ hpage)

theorem page_pgTile (t : Nat) : (pgTile t).page.toNat = 0x200 + t % 144 := by
  rw [pgTile, mkPage, BitVec.toNat_ofNat]
  omega

/-- A die released. -/
structure DieReleased (n : Nat) (s t : State) : Prop where
  frame : t = { s with regs := t.regs, res := t.res, arbs := t.arbs, links := t.links }
  prst : t.prst n = prstReleasing
  power : ∀ i < 144, t.get (pgTile (144 * n + i)) PAGE_PWR.STATE = s.releasedState (144 * n + i)
  quarters : ∀ m < 4, ∀ q < 4, t.get (pgPwr (n / 3)) (quarterField n m q) = 0
  arb : ∀ f ∈ (fieldsOf .arb).flatMap Field.each, t.get (pgArb (4 + n)) f = resetOf (pgArb (4 + n)) f
  lock : t.get (pgArb (4 + n)) PAGE_CTRL.LOCK = s.get (pgArb (4 + n)) PAGE_CTRL.LOCK % 2
  calendars : ∀ id, resSlot id = 0x10 + n → t.calOf id = resetCalendar (resKind id)
  base : ∀ y < 24, t.link (dropLink n y 0) = Link.init
  others : ∀ i, (∀ y < 24, i ≠ dropLink n y 0) → t.link i = s.link i

theorem dieReleased_of_phases {n : Nat} {s s2 s3 s4 t : State}
    (h2 : TilesReleased n 144 (s.put (pgCdie n) CDIE_PRST_STAT.STATE prstReleasing) s2) (h3 : QuartersSet n 0 s2 s3)
    (h4 : PageIsReset (pgArb (4 + n)) s3 s4) (hframe : t = { s4.resetArb (4 + n) with links := t.links })
    (hbase : ∀ y < 24, t.link (dropLink n y 0) = Link.init)
    (hothers : ∀ i, (∀ y < 24, i ≠ dropLink n y 0) → t.link i = (s4.resetArb (4 + n)).link i) : DieReleased n s t := by
  have hget (p : PageRef) (f : Field) : t.get p f = s4.get p f := State.get_congr (by rw [hframe]; rfl) p f
  have hlinks : s4.links = s.links := by rw [h4.frame, h3.frame, h2.frame]; rfl
  have hpwr {q : PageRef} (h : q.page.toNat ≠ 9) (h' : q.page.toNat ≠ 2) {f : Field} (hf : f.place < 2 ^ 17) :
      t.get q f = s2.get q f := by
    have hfar : q ≠ pgPwr (n / 3) := fun heq => h' (heq ▸ rfl)
    rw [hget, h4.pages _ _ (pgArb_ne h) hf, h3.pages _ _ hfar hf]
  have htiles {q : PageRef} (h : ∀ t, q ≠ pgTile t) {f : Field} (hf : f.place < 2 ^ 17) :
      s2.get q f = (s.put (pgCdie n) CDIE_PRST_STAT.STATE prstReleasing).get q f :=
    h2.others _ _ fun i _ => fieldKey_ne_of_page (h _) (by decide) hf
  have hput {q : PageRef} (h : q ≠ pgCdie n) {f : Field} (hf : f.place < 2 ^ 17) :
      (s.put (pgCdie n) CDIE_PRST_STAT.STATE prstReleasing).get q f = s.get q f :=
    s.get_put_page h (by decide) hf _
  refine ⟨?_, ?_, fun i hi => ?_, fun m hm q hq => ?_, fun f hf => ?_, ?_, fun id hid => ?_, hbase, fun i hi => ?_⟩
  · rw [hframe, State.resetArb, h4.frame, h3.frame, h2.frame]
    rfl
  · have hplace : CDIE_PRST_STAT.STATE.place < 2 ^ 17 := by decide
    rw [State.prst, hpwr (q := pgCdie n) (show 0 ≠ 9 by decide) (show 0 ≠ 2 by decide) hplace,
      htiles (pgTile_ne_pgCdie n) hplace]
    exact s.get_put_of_lt _ _ _ (by decide)
  · have hpage := page_pgTile (144 * n + i)
    have hcdie := (pgTile_ne_pgCdie n (144 * n + i)).symm
    have htmap : pgTmap ((144 * n + i) / 144) ≠ pgCdie n := fun heq => by
      have := (mkPage_eq_iff.mp heq).2
      omega
    have hplace : (TMAP_PHYS.STATE.at ((144 * n + i) % 144)).place < 2 ^ 17 := by
      change 32 * (0x080 + 4 * ((144 * n + i) % 144)) + 8 < 2 ^ 17
      omega
    rw [hpwr (by omega) (by omega) (by decide), h2.state i hi, State.releasedState, hput hcdie (by decide),
      hput hcdie (by decide), State.tilePowered, State.tileServes, State.tmapState, hput htmap hplace]
    rfl
  · have hpage : (pgPwr (n / 3)).page.toNat ≠ 9 := show 2 ≠ 9 by decide
    rw [hget, h4.pages _ _ (pgArb_ne hpage) (quarterField_place n hm hq)]
    exact h3.state m hm q hq
  · obtain ⟨hplace, hlock, hready⟩ := arbFields_apart f hf
    rw [hget]
    exact h4.reset f hplace hlock hready
  · have hpwrArb : pgArb (4 + n) ≠ pgPwr (n / 3) := (pgArb_ne (q := pgPwr (n / 3)) (show 2 ≠ 9 by decide)).symm
    have htileArb (u : Nat) : pgArb (4 + n) ≠ pgTile u := (pgArb_ne (by rw [page_pgTile]; omega)).symm
    have hcdieArb : pgArb (4 + n) ≠ pgCdie n := (pgArb_ne (q := pgCdie n) (show 0 ≠ 9 by decide)).symm
    rw [hget, h4.lock, h3.pages _ _ hpwrArb (by decide), htiles htileArb (by decide), hput hcdieArb (by decide)]
  · have hslot : resSlot id = slotOfArb (4 + n) := by
      rw [hid, slotOfArb, if_neg (by omega)]
      omega
    rw [← calOf_resetArb s4 hslot, State.calOf, State.calOf, State.resAt, State.resAt, hframe]
  · rw [hothers i hi]
    change s4.link i = s.link i
    rw [State.link, hlinks, State.link]

theorem dieReleased_prstFree {s : State} {n : Nat} (hn : n < 12) (h : s.prst n = prstReset)
    (hopen : (s.isReady || s.flag pgBoot BOOT_STAT.HALT) = true) : DieReleased n s (s.prstFree n) := by
  have h2 := tilesReleased_foldl hn (s.put (pgCdie n) CDIE_PRST_STAT.STATE prstReleasing) 144 le_rfl
  rw [prstFree_of_reset h hopen]
  generalize (List.range 144).foldl (fun s i => s.powerTile (144 * n + i))
    (s.put (pgCdie n) CDIE_PRST_STAT.STATE prstReleasing) = s2 at h2 ⊢
  obtain ⟨hframe, hbase, hothers⟩ :=
    link_foldl_setLink n (((s2.setQuarters n 0).pageReset (pgArb (4 + n))).resetArb (4 + n)) 24
  exact dieReleased_of_phases h2 (quartersSet s2 n (by decide)) (pageIsReset_pageReset _ _) hframe hbase hothers

/-! ## The release complete -/

theorem doneFields_apart : CNET_DROP_DOWN.DOWN.apart PAGE_STAT.DEGRADED = true ∧
    CNET_DROP_DOWN.DOWN.apart CDIE_PRST_STAT.STATE = true ∧ CNET_DROP_DOWN.DOWN.apart CDIE_PRST_STAT.COUNT = true ∧
    PAGE_STAT.DEGRADED.apart CNET_DROP_DOWN.DOWN = true ∧ PAGE_STAT.DEGRADED.apart CDIE_PRST_STAT.STATE = true ∧
    PAGE_STAT.DEGRADED.apart CDIE_PRST_STAT.COUNT = true ∧ CDIE_PRST_STAT.STATE.apart CNET_DROP_DOWN.DOWN = true ∧
    CDIE_PRST_STAT.STATE.apart PAGE_STAT.DEGRADED = true ∧ CDIE_PRST_STAT.STATE.apart CDIE_PRST_STAT.COUNT = true ∧
    CDIE_PRST_STAT.COUNT.apart CNET_DROP_DOWN.DOWN = true ∧ CDIE_PRST_STAT.COUNT.apart PAGE_STAT.DEGRADED = true ∧
    CDIE_PRST_STAT.COUNT.apart CDIE_PRST_STAT.STATE = true := by decide

/-- The registers of a die and its drops as its release completes. -/
def State.releaseDone (s : State) (n failed : Nat) : State :=
  ((((s.put (pgCnet n) CNET_DROP_DOWN.DOWN failed).putFlag (pgCnet n) PAGE_STAT.DEGRADED (failed != 0)).put (pgCdie n)
    CDIE_PRST_STAT.STATE prstUp).count (pgCdie n) CDIE_PRST_STAT.COUNT 1)

theorem releaseDone_spec (s : State) (n : Nat) {failed : Nat} (hlt : failed < 2 ^ 24) :
    let t := s.releaseDone n failed
    t.prst n = prstUp ∧ t.get (pgCnet n) CNET_DROP_DOWN.DOWN = failed ∧
      t.flag (pgCnet n) PAGE_STAT.DEGRADED = (failed != 0) ∧
      t.get (pgCdie n) CDIE_PRST_STAT.COUNT = min (s.get (pgCdie n) CDIE_PRST_STAT.COUNT + 1) 65535 ∧
      OnlyRegs [(pgCdie n, CDIE_PRST_STAT.STATE), (pgCdie n, CDIE_PRST_STAT.COUNT), (pgCnet n, CNET_DROP_DOWN.DOWN),
        (pgCnet n, PAGE_STAT.DEGRADED)] s t := by
  obtain ⟨_, _, hdownCount, hdegDown, _, hdegCount, hstateDown, hstateDeg, hstateCount, hcountDown, hcountDeg, hcountState⟩ :=
    doneFields_apart
  refine ⟨?_, ?_, ?_, ?_, ?_⟩
  · rw [State.prst, State.releaseDone, State.get_count_apart _ _ _ _ _ _ hcountState]
    exact State.get_put_of_lt _ _ _ _ (by decide)
  · rw [State.releaseDone, State.get_count_apart _ _ _ _ _ _ hcountDown, State.get_put_apart _ _ _ _ _ _ hstateDown,
      State.putFlag, State.get_put_apart _ _ _ _ _ _ hdegDown]
    exact State.get_put_of_lt _ _ _ _ hlt
  · rw [State.flag, State.releaseDone, State.get_count_apart _ _ _ _ _ _ hcountDeg, State.get_put_apart _ _ _ _ _ _ hstateDeg]
    exact State.flag_putFlag_self _ _ _ _ (by decide)
  · rw [State.releaseDone, State.get_count_self, State.get_put_apart _ _ _ _ _ _ hstateCount, State.putFlag,
      State.get_put_apart _ _ _ _ _ _ hdegCount, State.get_put_apart _ _ _ _ _ _ hdownCount]
    rfl
  · exact ((((OnlyRegs.refl _ s).put (by simp) _).put (by simp) _).put (by simp) _).put (by simp) _

theorem prstFreed_of_releasing {s : State} {n : Nat} (h : s.prst n = prstReleasing) (hnone : s.net.stalled = []) (failed : Nat) :
    s.prstFreed n failed = s.releaseDone n failed := by
  have hgo : s.prstFreed n failed = (s.releaseDone n failed).rerunStalled := if_neg (not_not.mpr h)
  rw [hgo]
  exact rerunStalled_of_none hnone

/-! ## The obligation -/

theorem prstReq_gives {s : State} (n : Die) (hw : NothingWaits s) (hup : s.prst n = prstUp)
    (hopen : (s.isReady || s.flag pgBoot BOOT_STAT.HALT) = true)
    (hclass : ∀ y < 24, ∀ e ∈ (s.link (dropLink n y 0)).queue, flitClass (e.2.headD []) ≠ clsRequest) :
    ∃ t, exec (.prstReq n) s = .next t ∧ t.prst n = prstDrain ∧
      Closed n 24 (s.put (pgCdie n) CDIE_PRST_STAT.STATE prstDrain) t := by
  set u := s.put (pgCdie n) CDIE_PRST_STAT.STATE prstDrain with hu
  have hdrain : u.prst n = prstDrain := s.get_put_of_lt _ _ _ (by decide)
  have hclosed := closed_foldl (s := u) (by rw [hdrain]; decide) 24 hclass
  rw [← prstBegin_of_up hup hopen] at hclosed
  have hwaits : NothingWaits (s.prstBegin n) := by
    rw [nothingWaits_iff] at hw ⊢
    rw [hclosed.frame]
    exact hw
  refine ⟨s.prstBegin n, congrArg Host.Outcome.next (afterPower_of_nothingWaits hwaits), ?_, hclosed⟩
  rw [← hdrain]
  exact hclosed.regs.get_of_apart (pgCdie n) (List.forall_mem_singleton.mpr ddCount_apart)

/-- Settles O37: each command of a partition reset acts in its own state, by what the phases of its step leave. -/
theorem partitionResetFollowsItsStates : Obligations.PartitionResetFollowsItsStates := by
  intro n s p open_ quarter down up waiting
  refine ⟨fun hw hup hopen hclass => ?_, fun hw hno => ?_, fun hw hdrain hengines hxfers hdrops => ?_, fun hw hno => ?_,
    fun hreset hopen => ?_, fun hno => ?_, fun failed hrel hnone => ?_,
    fun failed hno => congrArg Host.Outcome.next (if_pos hno)⟩
  · obtain ⟨t, hexec, hprst, hclosed⟩ := prstReq_gives n hw hup hopen hclass
    have hapart : CDIE_PRST_STAT.STATE.apart CDIE_DD_CNT.COUNT = true := by decide
    refine ⟨t, hexec, hprst, ?_, hclosed.closed, hclosed.kept, ?_, ?_⟩
    · rw [hclosed.count, State.get_put_apart _ _ _ _ _ _ hapart]
      rfl
    · rw [hclosed.frame]
      rfl
    · exact ((RegsBut.of_put s _ _ _).mono (by simp [p])).trans (hclosed.regs.mono (by simp [p]))
  · have hstay : s.prstBegin n = s := by
      refine if_neg fun ⟨hup, hready⟩ => hno.elim (fun hup' => hup' hup) fun hclosed => ?_
      exact Bool.false_ne_true (hclosed.symm.trans hready)
    exact congrArg Host.Outcome.next ((congrArg State.afterPower hstay).trans (afterPower_of_nothingWaits hw))
  · obtain ⟨_, _, haccs, _, _, _, hquiet⟩ := nothingWaits_iff.mp hw
    have hd := dieStopped_stopDie n.isLt hquiet haccs hengines hxfers hdrops
    generalize hstop : s.stopDie n = t at hd
    have hmine (i : Nat) (hi : i < 144) : 144 * n.val + i ∈ tilesOf n := mem_tilesOf.mpr (by omega)
    refine ⟨t.forgetDie n, ?_, ?_, fun i hi => ⟨?_, ?_, ?_⟩, fun u hu => ?_, fun m q => ?_, fun y hy => ⟨?_, ?_⟩,
      fun i hi => ⟨?_, ?_⟩⟩
    · refine congrArg Host.Outcome.next ?_
      rw [prstDrained_of_drain hdrain, hstop]
      exact afterPower_of_nothingWaits (nothingWaits_forgetDie hw hd)
    · rw [State.prst, get_forgetDie]
      exact hd.prst
    · rw [tile_forgetDie]
      exact hd.tile _ (hmine i hi)
    · rw [get_forgetDie]
      exact hd.power _ (hmine i hi)
    · rw [State.tileRun, get_forgetDie]
      exact hd.run _ (hmine i hi)
    · rw [tile_forgetDie]
      exact hd.others u fun h => hu (mem_tilesOf.mp h)
    · change State.get _ _ _ = 1
      rw [get_forgetDie]
      exact hd.quarters m m.isLt q q.isLt
    · rw [link_forgetDie]
      exact hd.base y hy
    · rw [link_forgetDie]
      exact hd.die y hy
    · rw [engineQ_forgetDie]
      exact hd.queues _ (hengines i hi).1
    · rw [openQ_forgetDie]
      exact hd.ports _ (hengines i hi).2
  · have hstay : s.prstDrained n = s := if_pos hno
    exact congrArg Host.Outcome.next ((congrArg State.afterPower hstay).trans (afterPower_of_nothingWaits hw))
  · have hd := dieReleased_prstFree n.isLt hreset hopen
    refine ⟨_, rfl, hd.prst, hd.power, fun m q => hd.quarters m m.isLt q q.isLt, hd.arb, hd.lock, hd.calendars, hd.base,
      fun y _ => hd.others _ fun z _ heq => ?_, hd.frame⟩
    exact absurd (dropLink_injective (by decide) (by decide) heq).2 (by decide)
  · refine congrArg Host.Outcome.next (if_pos (hno.imp id fun h => ?_))
    rw [show (s.isReady || s.flag pgBoot BOOT_STAT.HALT) = false from h]
    rfl
  · refine ⟨_, congrArg Host.Outcome.next (prstFreed_of_releasing hrel hnone failed.toNat), ?_⟩
    obtain ⟨hprst, hdown, hdegraded, hcount, hregs⟩ := releaseDone_spec s n failed.isLt
    refine ⟨hprst, hdown, hdegraded.trans ?_, hcount, hregs⟩
    rw [Bool.eq_iff_iff, bne_iff_ne, bne_iff_ne, ne_eq, ne_eq, ← BitVec.toNat_inj]
    rfl

end Sys2Proof.Machine
end

section
/-! The obligation on tile messages (07 R194, R195, R202, 04 R487), and what a message carries and a delivery stores. -/

namespace Sys2Proof.Machine

open Sys2Proof.Say

/-! ## Code words stored in a row -/

theorem onlyMem_putCodeWord (s : State) (a : Nat) {w : List Byte} (hw : w.length = 36) : OnlyMem a 32 s (s.putCodeWord a w) := by
  refine ⟨rfl, fun k hk => ?_, fun b v => if b = 32 * (a / 32) then w.take 36 else v, fun b v hb => if_neg (by omega), ?_⟩
  · rw [State.putCodeWord, memByte_memWrite, if_neg]
    rw [List.length_take, hw]
    omega
  · refine List.map_congr_left fun e _ => ?_
    refine congrArg (fun w => (e.1, { e.2 with ways := w })) (List.map_congr_left fun x _ => ?_)
    cases x <;> rfl

theorem storeWords_cons (s : State) (a : Nat) (w : List Byte) (l : List (List Byte)) :
    s.storeWords a (w :: l) = (s.putCodeWord a w).storeWords (a + 32) l := rfl

theorem onlyMem_storeWords {l : List (List Byte)} (hl : ∀ w ∈ l, w.length = 36) (s : State) (a : Nat) :
    OnlyMem a (32 * l.length) s (s.storeWords a l) := by
  induction l generalizing s a with
  | nil => exact .refl ..
  | cons w l ih =>
    have hfirst := onlyMem_putCodeWord s a (hl w List.mem_cons_self)
    have hrest := ih (fun v hv => hl v (List.mem_cons_of_mem w hv)) (s.putCodeWord a w) (a + 32)
    rw [storeWords_cons, List.length_cons]
    exact (OnlyMem.mono (i := 0) (n := 1) hfirst (by omega)).trans (OnlyMem.mono (i := 1) hrest (by omega))

theorem codeWordAt_of_memBut {s t : State} {a n x : Nat} (h : MemBut a (32 * n) s t)
    (hx : x / 32 < a / 32 ∨ a / 32 + n ≤ x / 32) : t.codeWordAt x = s.codeWordAt x := by
  rw [codeWordAt_eq, codeWordAt_eq]
  refine List.map_congr_left fun j hj => h _ ?_
  have := List.mem_range.mp hj
  simp only [sectorKey]
  omega

theorem codeWordAt_storeWords {l : List (List Byte)} (hl : ∀ w ∈ l, w.length = 36) (s : State) (a : Nat) {i : Nat}
    (hi : i < l.length) : (s.storeWords a l).codeWordAt (a + 32 * i) = l.getD i [] := by
  induction l generalizing s a i with
  | nil => simp at hi
  | cons w l ih =>
    have hrest : ∀ v ∈ l, v.length = 36 := fun v hv => hl v (List.mem_cons_of_mem w hv)
    rw [storeWords_cons]
    cases i with
    | zero =>
      rw [codeWordAt_of_memBut (onlyMem_storeWords hrest _ _).2.1 (by omega)]
      exact codeWordAt_putCodeWord_self s (hl w List.mem_cons_self) (by omega)
    | succ i =>
      rw [show a + 32 * (i + 1) = a + 32 + 32 * i by omega]
      exact ih hrest _ _ (by simpa using hi)

/-- A change of memory alone, and of a tile after it. -/
theorem onlyMem_modTile {s u : State} {a n : Nat} (h : OnlyMem a n s u) (t : Nat) (f : Tile → Tile) :
    OnlyMem a n { s with tiles := (u.modTile t f).tiles } (u.modTile t f) := by
  refine ⟨?_, h.2.1, h.2.2⟩
  rw [State.modTile_frame, h.1]

/-! ## What a message carries -/

theorem carryWord_of_good (s : State) (page : PageRef) (src a : Nat) {w : List Byte} (h : (decodeSector w).1 = .good) :
    s.carryWord page src a w = (s, codeWord (decodeSector w).2, false) := by
  rw [State.carryWord]
  simp only [h, State.reportSector, SectorState.damaged, Bool.false_eq_true, if_false]

/-- The data of the sectors that a message reads. -/
def State.messageData (s : State) (t : Nat) (x : Xfer) : List (List Byte) :=
  (List.range x.sectors).map (fun i => (s.sector (s.sramAt t (x.sram + 32 * i))).2)

theorem gather_foldl (s : State) (t : Nat) (x : Xfer) (f : Nat → List Byte) (acc : List (List Byte)) :
    ∀ l : List Nat, (∀ i ∈ l, s.sendWord t x i = (s, f i, false)) →
      l.foldl (fun (r : State × List (List Byte) × Bool) i =>
        let c := r.1.sendWord t x i
        (c.1, r.2.1 ++ [c.2.1], r.2.2 || c.2.2)) (s, acc, false) = (s, acc ++ l.map f, false)
  | [], _ => by simp
  | i :: l, h => by
    rw [List.foldl_cons]
    simp only [h i List.mem_cons_self, Bool.or_self]
    rw [gather_foldl s t x f (acc ++ [f i]) l fun j hj => h j (List.mem_cons_of_mem i hj)]
    simp

theorem sramAt_add (s : State) (t o i : Nat) : s.sramAt t (o + i) = s.sramAt t o + i := by
  rw [State.sramAt, State.sramAt, Nat.add_assoc]

theorem mem_sectorsOf_of_lt {a n i : Nat} (ha : a % 32 = 0) (hi : i < n) : a + 32 * i ∈ sectorsOf a (32 * n) := by
  rw [sectorsOf, if_neg (by omega)]
  exact List.mem_map.mpr ⟨i, List.mem_range.mpr (by omega), by omega⟩

theorem good_of_clean {s : State} {t n : Nat} {x : Xfer} (hsram : x.sram % 32 = 0)
    (hclean : Clean s (s.sramAt t x.sram) (32 * n)) {i : Nat} (hi : i < n) :
    (s.sector (s.sramAt t (x.sram + 32 * i))).1 = .good := by
  have halign : s.sramAt t x.sram % 32 = 0 := by
    rw [State.sramAt, sramBase]
    omega
  rw [sramAt_add]
  exact hclean _ (mem_sectorsOf_of_lt halign hi)

/-- A message read from clean sectors carries their data. -/
theorem gather_of_clean {s : State} {t : Nat} {x : Xfer} (hsent : x.sent = none) (hsram : x.sram % 32 = 0)
    (hclean : Clean s (s.sramAt t x.sram) (32 * x.sectors)) :
    s.gather t x = (s, (s.messageData t x).map codeWord, false) := by
  have hsend (i : Nat) (hi : i ∈ List.range x.sectors) : s.sendWord t x i =
      (s, codeWord (s.sector (s.sramAt t (x.sram + 32 * i))).2, false) := by
    rw [State.sendWord, hsent]
    exact carryWord_of_good s _ _ _ (good_of_clean hsram hclean (List.mem_range.mp hi))
  rw [State.gather, gather_foldl s t x _ [] _ hsend, List.nil_append, State.messageData, List.map_map]
  rfl

/-- A message that a reset has left behind carries what it has sent. -/
theorem gather_of_sent {s : State} {t : Nat} {x : Xfer} {l : List (List Byte)} (hsent : x.sent = some l)
    (hlen : l.length = x.sectors) : s.gather t x = (s, l, false) := by
  have hsend (i : Nat) (_ : i ∈ List.range x.sectors) : s.sendWord t x i = (s, l.getD i poisonWord, false) := by
    rw [State.sendWord, hsent]
  have hall : (List.range x.sectors).map (fun i => l.getD i poisonWord) = l := by
    rw [← hlen]
    exact List.ext_getElem (by simp) fun i hi _ => by simp at hi; simp [hi]
  rw [State.gather, gather_foldl s t x _ [] _ hsend, hall, List.nil_append]

theorem length_of_mem_messageData {s : State} {t : Nat} {x : Xfer} {d : List Byte} (h : d ∈ s.messageData t x) :
    d.length = 32 := by
  obtain ⟨i, hi, rfl⟩ := List.mem_map.mp h
  exact length_sector_data s _

theorem length_of_mem_map_codeWord {s : State} {t : Nat} {x : Xfer} :
    ∀ w ∈ (s.messageData t x).map codeWord, w.length = 36 := by
  intro w hw
  obtain ⟨d, hd, rfl⟩ := List.mem_map.mp hw
  rw [length_codeWord, length_of_mem_messageData hd]

/-! ## Delivery -/

section

variable {s : State} {t k : Nat} {x : Xfer}

/-- What `NSND_DELIVER` does with a message that is on its way. -/
theorem deliver_of_message (hx : (s.tile t).nth k = some x) (hkind : x.kind = .nsnd) (hwaits : x.waits = true)
    (hinject : x.inject = 0) (hcode : x.target / 2 ^ 21 < 0x600) :
    let a := sramBase (x.target / 2 ^ 21) + x.target % 2 ^ 21
    let n := 32 * x.sectors
    s.deliver t k = if (s.tile t).firstFor x = false then s
      else if s.dieDown (x.target / 2 ^ 21 / 128) || s.rangeRefused a n then
        (s.downDrop a n).modTile t (fun u => u.retire x stDestDown)
      else if s.asleep a n then s
      else ((s.gather t x).1.storeWords a (s.gather t x).2.1).modTile t
        (fun u => u.retire { x with ue := x.ue || (s.gather t x).2.2 } stOk) := by
  have hfar : ¬0x600 ≤ x.target / 2 ^ 21 := by omega
  simp only [State.deliver, hx, hkind, hwaits, hinject, hfar, ne_eq, not_true_eq_false, Bool.not_true, Bool.false_eq_true,
    lt_irrefl, false_or, Bool.not_eq_true']

/-- A message that its destination takes is stored, and its transfer completes. -/
theorem deliver_of_taken (hx : (s.tile t).nth k = some x) (hkind : x.kind = .nsnd) (hwaits : x.waits = true)
    (hinject : x.inject = 0) (hcode : x.target / 2 ^ 21 < 0x600) (hfirst : (s.tile t).firstFor x = true)
    (hup : s.dieDown (x.target / 2 ^ 21 / 128) = false)
    (htaken : s.rangeRefused (sramBase (x.target / 2 ^ 21) + x.target % 2 ^ 21) (32 * x.sectors) = false)
    (hawake : s.asleep (sramBase (x.target / 2 ^ 21) + x.target % 2 ^ 21) (32 * x.sectors) = false)
    {l : List (List Byte)} (hgather : s.gather t x = (s, l, false)) :
    s.deliver t k = (s.storeWords (sramBase (x.target / 2 ^ 21) + x.target % 2 ^ 21) l).modTile t
      (fun u => u.retire x stOk) := by
  rw [deliver_of_message hx hkind hwaits hinject hcode, hfirst, if_neg (by decide), hup, htaken, if_neg (by decide), hawake,
    if_neg (by decide), hgather, Bool.or_false]

end

/-- What a delivery of code words leaves. -/
theorem delivered (s : State) (t a : Nat) (x : Xfer) {l : List (List Byte)} (hl : ∀ w ∈ l, w.length = 36) :
    let r := (s.storeWords a l).modTile t (fun u => u.retire x stOk)
    (∀ i < l.length, r.codeWordAt (a + 32 * i) = l.getD i []) ∧
      OnlyMem a (32 * l.length) { s with tiles := r.tiles } r ∧ r.tile t = (s.tile t).retire x stOk ∧ TilesBut t s r := by
  have hmem := onlyMem_storeWords hl s a
  refine ⟨fun i hi => codeWordAt_storeWords hl s a hi, onlyMem_modTile hmem t _, ?_, fun j hj => ?_⟩
  · rw [State.tile_modTile_self, hmem.tile]
  · rw [State.tile_modTile_ne _ _ _ _ hj, hmem.tile]

/-- What drops at dies in partition reset count. -/
theorem downDrop_frame (s : State) (a n : Nat) : s.downDrop a n = { s with regs := (s.downDrop a n).regs } ∧
    ∀ p f, (∀ d, fieldKey p f ≠ fieldKey (pgCdie d) CDIE_DD_CNT.COUNT) → (s.downDrop a n).get p f = s.get p f := by
  rw [State.downDrop]
  generalize s.diesOf a n = l
  induction l generalizing s with
  | nil => exact ⟨rfl, fun _ _ _ => rfl⟩
  | cons d l ih =>
    rw [List.foldl_cons]
    split
    · exact ih s
    · obtain ⟨hframe, hget⟩ := ih (s.count (pgCdie d) CDIE_DD_CNT.COUNT 1)
      exact ⟨by rw [hframe]; rfl, fun p f h => (hget p f h).trans (s.get_put_ne _ _ _ _ _ (h d))⟩

/-- Settles O38: a message is stored, or turned away with DEST_DOWN, or waits behind an earlier one, by the branches of its
delivery. -/
theorem messagesAreDelivered : Obligations.MessagesAreDelivered := by
  intro t k s x hx hkind hwaits hinject code a n hcode hsram ha
  refine ⟨fun hfirst hup htaken hawake => ⟨fun hsent hclean => ?_, fun l hsent hlen hwords => ?_⟩, fun hfirst hdown => ?_,
    fun hbehind => congrArg Host.Outcome.next ?_⟩
  · have hgather := gather_of_clean hsent hsram hclean
    obtain ⟨hread, hmem, htile, hothers⟩ := delivered s t a x (l := (s.messageData t x).map codeWord)
      length_of_mem_map_codeWord
    have hlen : ((s.messageData t x).map codeWord).length = x.sectors := by simp [State.messageData]
    rw [hlen] at hread hmem
    refine ⟨_, congrArg Host.Outcome.next (deliver_of_taken hx hkind hwaits hinject hcode hfirst hup htaken hawake hgather),
      fun i hi => ?_, hmem, htile, hothers⟩
    have hgood := good_of_clean hsram hclean hi
    have hword : ((s.messageData t x).map codeWord).getD i [] = codeWord (s.sector (s.sramAt t (x.sram + 32 * i))).2 := by
      simp [State.messageData, hi]
    rw [State.sector, hread i hi, hword, decodeSector_codeWord (length_sector_data s _)]
    exact Prod.ext hgood.symm rfl
  · obtain ⟨hread, hmem, htile, hothers⟩ := delivered s t a x hwords
    rw [hlen] at hread hmem
    exact ⟨_, congrArg Host.Outcome.next (deliver_of_taken hx hkind hwaits hinject hcode hfirst hup htaken hawake
      (gather_of_sent hsent hlen)), hread, hmem, htile, hothers⟩
  · have hturned : (s.dieDown (code / 128) || s.rangeRefused a n) = true := by simpa using hdown
    obtain ⟨hframe, hget⟩ := downDrop_frame s a n
    have htile (j : Nat) : (s.downDrop a n).tile j = s.tile j := by
      rw [hframe]
      rfl
    refine ⟨(s.downDrop a n).modTile t (fun u => u.retire x stDestDown), congrArg Host.Outcome.next ?_, ?_, fun j hj => ?_, ?_,
      hget⟩
    · rw [deliver_of_message hx hkind hwaits hinject hcode, hfirst, if_neg (by decide)]
      exact if_pos hturned
    · rw [State.tile_modTile_self, htile]
    · rw [State.tile_modTile_ne _ _ _ _ hj, htile]
    · rw [State.modTile_frame, hframe]
  · rw [deliver_of_message hx hkind hwaits hinject hcode]
    exact if_pos hbehind

end Sys2Proof.Machine
end

section
/-! Group tables (07 R218, R219): a load of the table, and what it takes. -/

namespace Sys2Proof.Machine

open Sys2Proof.Say

/-! ## Tables that can be read, or not -/

theorem deviceRead_of_status {s : State} {a n : Nat} (h : s.rangeStatus a n ≠ stOk) : s.deviceRead a n = (s, none) := if_pos h

theorem deviceRead_of_damaged {s : State} {a n : Nat} (hstatus : s.rangeStatus a n = stOk)
    (h : ∃ y ∈ sectorsOf a n, (s.sector y).1.damaged = true) : (s.deviceRead a n).2 = none := by
  obtain ⟨y, hy, hdamaged⟩ := h
  have hany : (s.readMem srcRuntime a n).2.2.1 = true := by
    simp only [State.readMem, State.readSectors, List.any_map]
    exact List.any_eq_true.mpr ⟨y, hy, hdamaged⟩
  simp only [State.deviceRead, hstatus, ne_eq, not_true_eq_false, if_false, hany, if_true]

theorem deviceRead_of_good {s : State} {a n : Nat} (hstatus : s.rangeStatus a n = stOk) (hclean : Clean s a n) :
    s.deviceRead a n = (s, some ((List.range n).map (fun j => s.dataByte (a + j)))) := by
  simp only [State.deviceRead, hstatus, ne_eq, not_true_eq_false, if_false, State.readMem, readSectors_of_clean hclean,
    Bool.false_eq_true]

/-- The state after a load has read its table, whatever it found. -/
def State.tableRead (s : State) : State :=
  { s.putFlag (pgBnet 0) BNET_RG_STAT.BUSY false with red := { s.red with loading := none } }

theorem groupLoaded_of_loading {s : State} {a : Nat} (h : s.red.loading = some a) : s.groupLoaded =
    match (s.deviceRead a 16384).2 with
    | none => (s.deviceRead a 16384).1.tableRead.put (pgBnet 0) BNET_RG_STAT.ERR 4
    | some img => (s.deviceRead a 16384).1.tableRead.groupTake img := by
  unfold State.groupLoaded State.tableRead
  simp only [h]
  generalize s.deviceRead a 16384 = r
  obtain ⟨_, _ | _⟩ := r <;> rfl

theorem busy_of_tableRead (s : State) : s.tableRead.flag (pgBnet 0) BNET_RG_STAT.BUSY = false :=
  State.flag_putFlag_self _ _ _ _ (by decide)

/-- A table that cannot be read leaves the groups, with code 4. -/
theorem tableRead_unreadable (s : State) : let t := s.tableRead.put (pgBnet 0) BNET_RG_STAT.ERR 4
    t.get (pgBnet 0) BNET_RG_STAT.ERR = 4 ∧ t.flag (pgBnet 0) BNET_RG_STAT.BUSY = false ∧
      t.red = { s.red with loading := none } := by
  refine ⟨State.get_put_of_lt _ _ _ _ (by decide), ?_, rfl⟩
  rw [State.flag, State.get_put_apart _ _ _ _ _ _ (by decide)]
  exact busy_of_tableRead s

/-! ## Descriptors in order -/

/-- The fields that make up the two ring words of a fabric port. -/
def ringFields : List Field :=
  [FPRT_RING_P.VALID, FPRT_RING_P.RING, FPRT_RING_P.NM1, FPRT_RING_P.POS, FPRT_RING_N.VALID, FPRT_RING_N.RING,
    FPRT_RING_N.NM1, FPRT_RING_N.POS]

/-- Two states with the same tile map and the same rings. -/
structure SameMap (s t : State) : Prop where
  assigned : ∀ l, t.assigned l = s.assigned l
  ring : ∀ r, t.ring r = s.ring r

/-- The page of base die 0's network holds nothing of the tile map or of the rings. -/
theorem sameMap_of_pages {s t : State} (h : PagesBut (fun q => q = pgBnet 0) s t) : SameMap s t := by
  have htmap (n : Nat) {f : Field} (hf : f.place < 2 ^ 17) : t.get (pgTmap n) f = s.get (pgTmap n) f := by
    refine h _ _ (fun heq => ?_) hf
    have := (mkPage_eq_iff.mp heq).2
    omega
  have hfprt (i : Nat) {f : Field} (hf : f.place < 2 ^ 17) : t.get (pgFprt i) f = s.get (pgFprt i) f := by
    refine h _ _ (fun heq => ?_) hf
    have := (mkPage_eq_iff.mp heq).2
    omega
  have hword (i : Nat) (prev : Bool) : t.ringWord i prev = s.ringWord i prev := by
    have hplace : ∀ f ∈ ringFields, f.place < 2 ^ 17 := by decide
    have hfields : ∀ f ∈ ringFields, t.get (pgFprt i) f = s.get (pgFprt i) f := fun f hf => hfprt i (hplace f hf)
    simp only [ringFields, List.forall_mem_cons, List.not_mem_nil, false_implies, implies_true, and_true] at hfields
    simp only [State.ringWord, hfields]
  have hports (prev : Bool) (r : Nat) : t.ringPorts prev r = s.ringPorts prev r := by
    have hcaps (i : Nat) : t.flag (pgFprt i) PAGE_CAPS.LIC_OFF = s.flag (pgFprt i) PAGE_CAPS.LIC_OFF := by
      rw [State.flag, hfprt i (by decide), State.flag]
    simp only [State.ringPorts, hcaps, hword]
  refine ⟨fun l => ?_, fun r => ?_⟩
  · have hplace : (TMAP_LOG.VALID.at (l % 128)).place < 2 ^ 17 ∧ (TMAP_LOG.PHYS.at (l % 128)).place < 2 ^ 17 := by
      have : ∀ j : Fin 128, (TMAP_LOG.VALID.at j).place < 2 ^ 17 ∧ (TMAP_LOG.PHYS.at j).place < 2 ^ 17 := by decide
      exact this ⟨l % 128, Nat.mod_lt l (by decide)⟩
    rw [State.assigned, State.physOf, htmap _ hplace.1, htmap _ hplace.2, State.assigned, State.physOf]
  · simp only [State.ring, hports, hword]

theorem SameMap.groupErrors {s t : State} (h : SameMap s t) (d : List Byte) : t.groupErrors d = s.groupErrors d := by
  simp only [State.groupErrors, h.assigned, h.ring]

theorem field_slice (d : List Byte) {o n k m : Nat} (h : k + m ≤ n) : field (slice d o n) k m = field d (o + k) m := by
  rw [slice, field_map_range _ h, field, slice]
  simp only [Nat.add_assoc]

/-- The descriptors of a table image that are marked valid, by number. -/
def validGroups (img : List Byte) : List Nat := (List.range 64).filter (fun g => bit (field img (256 * g) 1) 7)

theorem descriptors_eq (img : List Byte) :
    ((List.range 64).map (fun g => (g, slice img (256 * g) 256))).filter (fun e => bit (field e.2 0 1) 7) =
      (validGroups img).map (fun g => (g, slice img (256 * g) 256)) := by
  rw [List.filter_map, validGroups]
  refine congrArg (List.map _) (List.filter_congr fun g _ => ?_)
  simp only [Function.comp_apply, field_slice img (show 0 + 1 ≤ 256 by decide), Nat.add_zero]

/-- The registers that a table taken shows. -/
def tableValues (n : Nat) : List (Field × Nat) :=
  [(BNET_RG_STAT.ERR, 0), (BNET_RG_STAT.VALID, n), (BNET_RED_FAIL_LO.FAILED, 0), (BNET_RED_FAIL_HI.FAILED, 0)]

/-- A table whose descriptors are in order is taken. -/
theorem groupTake_of_good {s : State} {img : List Byte} (hfew : (validGroups img).length ≤ 16)
    (hgood : ∀ g ∈ validGroups img, s.groupErrors (slice img (256 * g) 256) = [])
    (hquiet : s.red.rounds.any (fun e => e.2.running) = false) : s.groupTake img =
      { s.putAll (pgBnet 0) (tableValues (validGroups img).length) with red := { s.red with
        groups := (validGroups img).map (fun g => (g, groupOfBytes (slice img (256 * g) 256))), rounds := [] } } := by
  have hmany : ¬16 < ((validGroups img).map (fun g => (g, slice img (256 * g) 256))).length := by
    rw [List.length_map]
    omega
  have herrors : ((validGroups img).map (fun g => (g, slice img (256 * g) 256))).flatMap (fun e => s.groupErrors e.2) = [] := by
    rw [List.flatMap_map, List.flatMap_eq_nil_iff]
    exact hgood
  unfold State.groupTake
  dsimp only
  rw [descriptors_eq, if_neg hmany, herrors, hquiet, List.length_map, List.map_map]
  rfl

theorem tableFields_apart : [BNET_RG_STAT.ERR, BNET_RG_STAT.VALID, BNET_RED_FAIL_LO.FAILED,
    BNET_RED_FAIL_HI.FAILED].Pairwise (fun f g => f.apart g = true) := by decide

/-- A readable table in order: its groups hold, and every round starts afresh. -/
theorem groupLoaded_of_good {s : State} {a : Nat} (hload : s.red.loading = some a) (hstatus : s.rangeStatus a 16384 = stOk)
    (hclean : Clean s a 16384) (hquiet : s.red.rounds.any (fun e => e.2.running) = false) :
    let img := (List.range 16384).map (fun i => s.dataByte (a + i))
    let t := s.groupLoaded
    (validGroups img).length ≤ 16 → (∀ g ∈ validGroups img, s.groupErrors (slice img (256 * g) 256) = []) →
      (t.flag (pgBnet 0) BNET_RG_STAT.BUSY = false ∧ t.red.loading = none ∧ t = { s with regs := t.regs, red := t.red }) ∧
      t.get (pgBnet 0) BNET_RG_STAT.ERR = 0 ∧ t.get (pgBnet 0) BNET_RG_STAT.VALID = (validGroups img).length ∧
      (∀ g < 64, t.groupFailed g = false) ∧ t.red = { s.red with
        groups := (validGroups img).map (fun g => (g, groupOfBytes (slice img (256 * g) 256))), rounds := [],
        loading := none } := by
  intro img t hfew hgood
  set u := s.tableRead with hu
  have hread : s.deviceRead a 16384 = (s, some img) := deviceRead_of_good hstatus hclean
  have huframe : u = { s with regs := u.regs, red := { s.red with loading := none } } := rfl
  have hpages : PagesBut (fun q => q = pgBnet 0) s u :=
    (PagesBut.put (P := fun q => q = pgBnet 0) (f := BNET_RG_STAT.BUSY) (.of_regs rfl) rfl (by decide) _).congr_right rfl
  have hgood' : ∀ g ∈ validGroups img, u.groupErrors (slice img (256 * g) 256) = [] := fun g hg =>
    ((sameMap_of_pages hpages).groupErrors _).trans (hgood g hg)
  have hquiet' : u.red.rounds.any (fun e => e.2.running) = false := by
    rw [huframe]
    exact hquiet
  have ht : t = { u.putAll (pgBnet 0) (tableValues (validGroups img).length) with red := { u.red with
        groups := (validGroups img).map (fun g => (g, groupOfBytes (slice img (256 * g) 256))), rounds := [] } } := by
    rw [← groupTake_of_good hfew hgood' hquiet', hu]
    simp only [t, groupLoaded_of_loading hload, hread]
  have hregs : t.regs = (u.putAll (pgBnet 0) (tableValues (validGroups img).length)).regs := by rw [ht]
  have hget {f : Field} {v : Nat} := get_of_putAll (f := f) (v := v) hregs tableFields_apart
  have hbusy : t.flag (pgBnet 0) BNET_RG_STAT.BUSY = false := by
    have happart : ∀ e ∈ tableValues 0, e.1.apart BNET_RG_STAT.BUSY = true := by decide
    have hkept : t.get (pgBnet 0) BNET_RG_STAT.BUSY = u.get (pgBnet 0) BNET_RG_STAT.BUSY := by
      refine (regsBut_of_putAll hregs).get_of_apart _ ?_
      simpa [tableValues] using happart
    rw [State.flag, hkept]
    exact busy_of_tableRead s
  have hlo : t.get (pgBnet 0) BNET_RED_FAIL_LO.FAILED = 0 := hget (by simp [tableValues]) (by decide)
  have hhi : t.get (pgBnet 0) BNET_RED_FAIL_HI.FAILED = 0 := hget (by simp [tableValues]) (by decide)
  have hred : t.red = { s.red with
      groups := (validGroups img).map (fun g => (g, groupOfBytes (slice img (256 * g) 256))), rounds := [],
      loading := none } := by
    rw [ht, huframe]
  refine ⟨⟨hbusy, by rw [hred], ?_⟩, ?_, ?_, fun g _ => ?_, hred⟩
  · rw [ht, State.putAll_frame, huframe]
  · exact hget (by simp [tableValues]) (by decide)
  · exact hget (by simp [tableValues]) (show _ < 2 ^ 5 by omega)
  · rw [State.groupFailed, State.getPair, hlo, hhi, bit_eq_testBit]
    simp

end Sys2Proof.Machine
end

section
/-! Contributions, rounds and their ends (07 R220 to R222), and the obligation. -/

namespace Sys2Proof.Machine

open Sys2Proof.Say

/-! ## Rounds -/

theorem round_setRound_self (s : State) (g : Nat) (r : Round) : (s.setRound g r).round g = r := mapGet_mapSet_self _ _ _ _

theorem round_setRound_ne (s : State) {g h : Nat} (r : Round) (hne : h ≠ g) : (s.setRound g r).round h = s.round h :=
  mapGet_mapSet_ne _ _ _ _ _ _ hne

/-! ## Delivery of results -/

theorem storeWords_frame (s : State) (a : Nat) (l : List (List Byte)) :
    s.storeWords a l = { s with mem := (s.storeWords a l).mem, cache := (s.storeWords a l).cache } := by
  induction l generalizing s a with
  | nil => rfl
  | cons w l ih =>
    rw [storeWords_cons, ih]
    rfl

theorem mem_storeWords_congr {s t : State} (h : t.mem = s.mem) (a : Nat) (l : List (List Byte)) :
    (t.storeWords a l).mem = (s.storeWords a l).mem := by
  induction l generalizing s t a with
  | nil => exact h
  | cons w l ih => exact ih (congrArg (fun m => memWrite m (sectorKey a) (w.take 36)) h) (a + 32)

/-- What the delivery of a round's value may change. -/
structure Delivers (s t : State) : Prop where
  frame : t = { s with regs := t.regs, mem := t.mem, cache := t.cache, red := { s.red with late := t.red.late } }
  pages : PagesBut (fun q => ∃ d, q = pgCdie d) s t

theorem Delivers.refl (s : State) : Delivers s s := ⟨rfl, .of_regs rfl⟩

theorem Delivers.trans {s t u : State} (h : Delivers s t) (h' : Delivers t u) : Delivers s u :=
  ⟨by rw [h'.frame, h.frame], h.pages.trans h'.pages⟩

theorem delivers_deliverTo (s : State) (l addr : Nat) (words : List (List Byte)) : Delivers s (s.deliverTo l addr words) := by
  unfold State.deliverTo
  dsimp only
  split
  · exact .refl s
  · split
    · exact ⟨rfl, (PagesBut.of_regs rfl).put ⟨_, rfl⟩ (by decide) _⟩
    · split
      · exact .refl s
      · split
        · exact ⟨rfl, .of_regs rfl⟩
        · refine ⟨?_, .of_regs ?_⟩ <;> rw [storeWords_frame]

theorem delivers_deliverResult (s : State) (d : Group) (words : List (List Byte)) : Delivers s (s.deliverResult d words) := by
  rw [State.deliverResult]
  generalize s.destinations d = l
  induction l generalizing s with
  | nil => exact .refl s
  | cons n l ih => exact (delivers_deliverTo s n d.addr words).trans (ih _)

/-- A value for the root of a group within the package, where the root takes it. -/
theorem deliverResult_of_root {s : State} {d : Group} {words : List (List Byte)} (hkind : d.kind = 0) (hxpkg : d.xpkg = 0)
    (hassigned : s.assigned d.root = true) (hup : s.prst (d.root / 128) = prstUp)
    (htaken : s.rangeRefused (sramBase d.root + d.addr) 32 = false) (hawake : s.asleep (sramBase d.root + d.addr) 32 = false)
    (hfits : d.addr + 32 * words.length ≤ sramSize) :
    s.deliverResult d words = s.storeWords (sramBase d.root + d.addr) words := by
  have hroot : s.destinations d = [d.root] := by
    rw [State.destinations, hkind, if_neg (by decide), if_pos (Or.inl hxpkg)]
  have hall : words.take ((sramSize - d.addr) / 32) = words := List.take_of_length_le (by omega)
  rw [State.deliverResult, hroot, List.foldl_cons, List.foldl_nil, State.deliverTo]
  simp only [hall, hassigned, hup, htaken, hawake, Bool.not_true, Bool.false_eq_true, if_false, ne_eq, not_true_eq_false]

/-! ## The fold -/

theorem foldAt_congr {s t : State} (h : ∀ l, t.memberRouter l = s.memberRouter l) (op : Nat) (root : Nat × Nat)
    (got : List (Nat × List (List Byte))) (k : Nat) (r : Nat × Nat) : t.foldAt op root got k r = s.foldAt op root got k r := by
  induction k generalizing r with
  | zero => rfl
  | succ k ih =>
    have hkids : State.foldAt t op root got k = State.foldAt s op root got k := funext ih
    rw [State.foldAt, State.foldAt, hkids]
    simp only [h]

theorem foldRound_congr {s t : State} (h : t.regs = s.regs) (d : Group) (got : List (Nat × List (List Byte))) :
    t.foldRound d got = s.foldRound d got := by
  have hphys (l : Nat) : t.physOf l = s.physOf l := by
    rw [State.physOf, State.get_congr h, State.get_congr h, State.physOf]
  have hdrop (n y : Nat) : t.dropFor n y = s.dropFor n y := by
    rw [State.dropFor, State.get_congr h, State.dropFor]
  have hrouter (l : Nat) : t.memberRouter l = s.memberRouter l := by
    simp only [State.memberRouter, hphys, hdrop]
  simp only [State.foldRound, hrouter, foldAt_congr hrouter]

/-! ## A contribution taken -/

/-- A member's contribution taken into the round of its group. -/
def State.takesPart (s : State) (t g : Nat) (x : Xfer) (got : List (Nat × List (List Byte))) : State :=
  (s.modTile t (fun u => u.retire x stOk)).setRound g { s.round g with got := got }

theorem takesPart_spec (s : State) (t g : Nat) (x : Xfer) (got : List (Nat × List (List Byte))) :
    let r := s.takesPart t g x got
    r.round g = { s.round g with got := got } ∧ (∀ h, h ≠ g → r.round h = s.round h) ∧
      r.tile t = (s.tile t).retire x stOk ∧ TilesBut t s r ∧ r = { s with tiles := r.tiles, red := r.red } :=
  ⟨round_setRound_self _ _ _, fun _ h => round_setRound_ne _ _ h, s.tile_modTile_self t (fun u => u.retire x stOk),
    fun j hj => s.tile_modTile_ne t j (fun u => u.retire x stOk) hj, rfl⟩

section

variable {s : State} {t k : Nat} {x : Xfer} {d : Group} (hx : (s.tile t).nth k = some x) (hkind : x.kind = .nsnd)
  (hwaits : x.waits = true) (hinject : x.inject = 0) (hfirst : (s.tile t).firstFor x = true) (hcode : 0x700 ≤ x.target / 2 ^ 21)
  (hgroup : s.group (x.target / 2 ^ 21 - 0x700) = some d) (hworks : s.groupFailed (x.target / 2 ^ 21 - 0x700) = false)
  (hlen : x.sectors = d.len + 1) (hmember : s.logical t ∈ d.members)
include hx hkind hwaits hinject hfirst hcode hgroup hworks hlen hmember

/-- A further contribution of a member to a round waits. -/
theorem contribute_of_again (h : ∃ e ∈ (s.round (x.target / 2 ^ 21 - 0x700)).got, e.1 = s.logical t) :
    s.contribute t k = s := by
  have hfar : ¬x.target / 2 ^ 21 < 0x700 := by omega
  have hagain : (s.round (x.target / 2 ^ 21 - 0x700)).got.any (fun e => e.1 == s.logical t) = true := by
    simpa using h
  have hcontains : d.members.contains (s.logical t) = true := List.contains_iff_mem.mpr hmember
  simp only [State.contribute, hx, hkind, hwaits, hinject, hfar, hfirst, hgroup, hworks, hlen, hcontains, hagain, ne_eq,
    not_true_eq_false, Bool.not_true, Bool.false_eq_true, lt_irrefl, or_self, if_false, if_true]

/-- A first contribution of a member is taken; the last of a round ends it. -/
theorem contribute_of_first (hnew : ∀ e ∈ (s.round (x.target / 2 ^ 21 - 0x700)).got, e.1 ≠ s.logical t)
    (hsent : x.sent = none) (hsram : x.sram % 32 = 0) (hclean : Clean s (s.sramAt t x.sram) (32 * x.sectors)) :
    let g := x.target / 2 ^ 21 - 0x700
    let got := (s.round g).got ++ [(s.logical t, s.messageData t x)]
    let u := s.takesPart t g x got
    (got.length < d.members.length → s.contribute t k = u) ∧
      (∀ v, d.members.length ≤ got.length → s.foldRound d got = some v → d.xpkg = 0 →
        s.contribute t k = (u.deliverResult d ((foldOutput d.op v).map codeWord)).endRound g) := by
  intro g got u
  have hfar : ¬x.target / 2 ^ 21 < 0x700 := by omega
  have hagain : (s.round (x.target / 2 ^ 21 - 0x700)).got.any (fun e => e.1 == s.logical t) = false :=
    List.any_eq_false.mpr fun e he => by simpa using hnew e he
  have hcontains : d.members.contains (s.logical t) = true := List.contains_iff_mem.mpr hmember
  have hdata : ((s.messageData t x).map codeWord).map (·.take 32) = s.messageData t x := by
    rw [List.map_map]
    refine (List.map_congr_left fun w hw => ?_).trans (List.map_id _)
    have := length_of_mem_messageData hw
    rw [Function.comp_apply, codeWord, List.take_append_of_le_length this.ge, List.take_of_length_le this.le]
    rfl
  have hcontribute : s.contribute t k =
      if got.length < d.members.length then u
      else match u.foldRound d got with
        | none => u
        | some v =>
          if d.xpkg = 0 then (u.deliverResult d ((foldOutput d.op v).map codeWord)).endRound g
          else (u.setRound g { s.round g with got := got, value := some v }).roundMoves g := by
    simp only [State.contribute, hx, hkind, hwaits, hinject, hfar, hfirst, hgroup, hworks, hlen, hcontains, hagain, ne_eq,
      not_true_eq_false, Bool.not_true, Bool.false_eq_true, lt_irrefl, or_self, if_false,
      gather_of_clean hsent hsram hclean, hdata, Bool.or_false] <;> rfl
  refine ⟨fun hmore => ?_, fun v hlast hfold hxpkg => ?_⟩
  · rw [hcontribute, if_pos hmore]
  · have hu : u.foldRound d got = some v := (foldRound_congr rfl d got).trans hfold
    rw [hcontribute, if_neg (by omega)]
    simp only [hu, hxpkg, if_true]

end

/-! ## Rounds that end and rounds that fail -/

/-- The round that follows one, with the packets held for it. -/
def Round.next (r : Round) : Round := { Round.init with num := r.num + 1, taken := r.held }

theorem endRound_of_good {s : State} {g : Nat} (h : (s.round g).next.damaged = false) :
    s.endRound g = (s.setRound g (s.round g).next).count (pgBnet 0) BNET_RED_DONE.COUNT 1 := by
  have hround : ((s.setRound g (s.round g).next).count (pgBnet 0) BNET_RED_DONE.COUNT 1).round g = (s.round g).next :=
    round_setRound_self s g _
  have hgood : ¬(((s.setRound g (s.round g).next).count (pgBnet 0) BNET_RED_DONE.COUNT 1).round g).damaged = true := by
    rw [hround, h]
    exact Bool.false_ne_true
  exact if_neg hgood

/-- The register half that marks a group as failed. -/
def failField (g : Nat) : Field := if g < 32 then BNET_RED_FAIL_LO.FAILED else BNET_RED_FAIL_HI.FAILED

theorem failField_facts (g : Nat) : (failField g).hi + 1 - (failField g).lo = 32 ∧ (failField g).place < 2 ^ 17 ∧
    (failField g).apart PAGE_ERR_CNT_U.COUNT = true ∧ ∀ f ∈ errorHeader, f.apart (failField g) = true := by
  unfold failField
  split <;> decide

theorem failLow_facts : BNET_RED_FAIL_LO.FAILED.place < 2 ^ 17 ∧
    BNET_RED_FAIL_HI.FAILED.apart BNET_RED_FAIL_LO.FAILED = true ∧
    ∀ f ∈ errorHeader, f.apart BNET_RED_FAIL_LO.FAILED = true := by decide

/-- Whether a group is marked as failed, by its bit in its half of the pair. -/
theorem groupFailed_eq {s : State} (hlo : s.get (pgBnet 0) BNET_RED_FAIL_LO.FAILED < 2 ^ 32) {g : Nat} (hg : g < 64) :
    s.groupFailed g = (s.get (pgBnet 0) (failField g)).testBit (g % 32) := by
  have hpair : s.getPair (pgBnet 0) BNET_RED_FAIL_LO.FAILED BNET_RED_FAIL_HI.FAILED =
      2 ^ 32 * s.get (pgBnet 0) BNET_RED_FAIL_HI.FAILED + s.get (pgBnet 0) BNET_RED_FAIL_LO.FAILED := by
    change 2 ^ 0 * _ + _ = _
    omega
  rw [State.groupFailed, bit_eq_testBit, hpair, Nat.testBit_two_pow_mul_add _ hlo, failField]
  split
  · rw [Nat.mod_eq_of_lt ‹g < 32›]
  · rw [show g % 32 = g - 32 by omega]

/-- A round that has failed. -/
structure RoundFailed (g : Nat) (s t : State) : Prop where
  round : t.round g = { Round.init with num := (s.round g).num }
  marked : t.groupFailed g = true
  reported : t.get (pgBnet 0) PAGE_ERR_CNT_U.COUNT = min (s.get (pgBnet 0) PAGE_ERR_CNT_U.COUNT + 1) (2 ^ 32 - 1)
  tiles : t.tiles = s.tiles
  groups : t.red.groups = s.red.groups

theorem roundFailed_failRound {s : State} {g : Nat} {d : Group} (hgroup : s.group g = some d) (hg : g < 64)
    (hlo : s.get (pgBnet 0) BNET_RED_FAIL_LO.FAILED < 2 ^ 32) : RoundFailed g s (s.failRound g) := by
  have hp : pgBnet 0 ≠ pgMgmt := pgBnet_ne_pgMgmt 0
  have hdelivers := delivers_deliverResult s d (List.replicate (d.len + 1) poisonWord)
  generalize hu : s.deliverResult d (List.replicate (d.len + 1) poisonWord) = u at hdelivers
  set v := u.put (pgBnet 0) (failField g) (u.get (pgBnet 0) (failField g) ||| 2 ^ (g % 32)) with hv
  have herr := errOnly_report v (pgBnet 0) .u 0x15 g 0 0
  have hcount := get_report_counter v hp .u 0x15 g 0 0
  have hfail : s.failRound g = (v.report (pgBnet 0) .u 0x15 g 0 0).setRound g { Round.init with num := (s.round g).num } := by
    unfold State.failRound
    rw [hgroup]
    dsimp only
    rw [hu]
    rfl
  generalize v.report (pgBnet 0) .u 0x15 g 0 0 = w at herr hcount hfail
  obtain ⟨hwidth, hplace, hcounter, hheader⟩ := failField_facts g
  obtain ⟨hloPlace, hloApart, hloHeader⟩ := failLow_facts
  have hfar : ¬∃ d, pgBnet 0 = pgCdie d := by
    rintro ⟨d, heq⟩
    have := (mkPage_eq_iff.mp heq).2
    omega
  have hself : w.get (pgBnet 0) (failField g) = (u.get (pgBnet 0) (failField g) ||| 2 ^ (g % 32)) % 2 ^ 32 := by
    rw [herr.get_beside hp hheader, hv, State.get_put_self, hwidth]
  have hlow : w.get (pgBnet 0) BNET_RED_FAIL_LO.FAILED < 2 ^ 32 := by
    by_cases hhalf : g < 32
    · have hfield : failField g = BNET_RED_FAIL_LO.FAILED := if_pos hhalf
      rw [← hfield, hself]
      exact Nat.mod_lt _ (by decide)
    · have hfield : failField g = BNET_RED_FAIL_HI.FAILED := if_neg hhalf
      rw [herr.get_beside hp hloHeader, hv, hfield, State.get_put_apart _ _ _ _ _ _ hloApart,
        hdelivers.pages _ _ hfar hloPlace]
      exact hlo
  have hregs : (s.failRound g).regs = w.regs := by rw [hfail]; rfl
  refine ⟨?_, ?_, ?_, ?_, ?_⟩
  · rw [hfail]
    exact round_setRound_self w g _
  · rw [groupFailed_eq (by rwa [State.get_congr hregs]) hg, State.get_congr hregs, hself, Nat.testBit_mod_two_pow,
      Nat.testBit_or, Nat.testBit_two_pow_self, Bool.or_true, Bool.and_true]
    exact decide_eq_true (Nat.mod_lt g (by decide))
  · have hbefore : v.get (pgBnet 0) PAGE_ERR_CNT_U.COUNT = s.get (pgBnet 0) PAGE_ERR_CNT_U.COUNT := by
      rw [hv, State.get_put_apart _ _ _ _ _ _ hcounter, hdelivers.pages _ _ hfar (by decide)]
    rw [State.get_congr hregs, ← hbefore]
    exact hcount
  · have htiles : w.tiles = s.tiles := by rw [herr.1, hv, State.put_frame, hdelivers.frame]
    rw [hfail]
    exact htiles
  · have hgroups : w.red.groups = s.red.groups := by rw [herr.1, hv, State.put_frame, hdelivers.frame]
    rw [hfail]
    exact hgroups

/-! ## The obligation -/

/-- The last contribution of a round whose value its root takes. -/
theorem contributed_of_last {s : State} {t : TileId} {x : Xfer} {d : Group} {g : Nat} {got : List (Nat × List (List Byte))}
    {words : List (List Byte)} (hkind : d.kind = 0) (hxpkg : d.xpkg = 0) (hassigned : s.assigned d.root = true)
    (hup : s.prst (d.root / 128) = prstUp) (htaken : s.rangeRefused (sramBase d.root + d.addr) 32 = false)
    (hawake : s.asleep (sramBase d.root + d.addr) 32 = false) (hfits : d.addr + 32 * words.length ≤ sramSize)
    (hgood : (s.round g).next.damaged = false) :
    let q := ((s.takesPart t g x got).deliverResult d words).endRound g
    q.mem = (s.storeWords (sramBase d.root + d.addr) words).mem ∧ q.round g = (s.round g).next ∧
      q.get (pgBnet 0) BNET_RED_DONE.COUNT = min (s.get (pgBnet 0) BNET_RED_DONE.COUNT + 1) (2 ^ 32 - 1) ∧
      q.tile t = (s.tile t).retire x stOk ∧ TilesBut t s q ∧ RegsBut [(pgBnet 0, BNET_RED_DONE.COUNT)] s q ∧
      q = { s with mem := q.mem, cache := q.cache, regs := q.regs, tiles := q.tiles, red := q.red } := by
  intro q
  obtain ⟨hround, -, htile, hothers, hframe⟩ := takesPart_spec s t g x got
  have hdelivered : (s.takesPart t g x got).deliverResult d words =
      (s.takesPart t g x got).storeWords (sramBase d.root + d.addr) words :=
    deliverResult_of_root hkind hxpkg hassigned hup htaken hawake hfits
  have hmem : ((s.takesPart t g x got).storeWords (sramBase d.root + d.addr) words).mem =
      (s.storeWords (sramBase d.root + d.addr) words).mem :=
    mem_storeWords_congr (s := s) (t := s.takesPart t g x got) rfl _ _
  have hstored := storeWords_frame (s.takesPart t g x got) (sramBase d.root + d.addr) words
  have hend : q = ((s.takesPart t g x got).storeWords (sramBase d.root + d.addr) words).endRound g :=
    congrArg (fun r => r.endRound g) hdelivered
  clear_value q
  clear hdelivered
  generalize (s.takesPart t g x got).storeWords (sramBase d.root + d.addr) words = u at hend hmem hstored
  generalize s.takesPart t g x got = r at hround htile hothers hframe hstored
  have hround' : (u.round g).next = (s.round g).next := by
    have : u.round g = r.round g := by rw [hstored]; rfl
    rw [this, hround]
    rfl
  have hq : q = (u.setRound g (s.round g).next).count (pgBnet 0) BNET_RED_DONE.COUNT 1 := by
    rw [hend, endRound_of_good (hround'.symm ▸ hgood), hround']
  have hregs : u.regs = s.regs := by rw [hstored, hframe]
  refine ⟨?_, ?_, ?_, ?_, fun j hj => ?_, ?_, ?_⟩
  · rw [hq]
    exact hmem
  · rw [hq]
    exact round_setRound_self u g _
  · rw [hq, State.get_count_self, ← State.get_congr hregs]
    rfl
  · have : q.tile t = r.tile t := by rw [hq, hstored]; rfl
    rw [this, htile]
  · have : q.tile j = r.tile j := by rw [hq, hstored]; rfl
    rw [this, hothers j hj]
  · rw [hq]
    exact RegsBut.put (.of_regs hregs) List.mem_cons_self _
  · rw [hq, State.count, State.put_frame, State.setRound, hstored, hframe]

/-- Settles O39: a load takes the table that its read gives, a contribution goes to the round of its group, and a round that
takes too long fails. -/
theorem groupTablesAndContributions : Obligations.GroupTablesAndContributions := by
  refine ⟨fun s => ⟨fun hidle => ?_, fun hbusy => congrArg Host.Outcome.next (if_pos hbusy), fun a hload _ =>
    ⟨fun hstatus => ?_, fun hstatus hdamaged => ?_, fun hstatus hclean hfew hgood hquiet =>
      ⟨_, rfl, groupLoaded_of_good hload hstatus hclean hquiet hfew hgood⟩⟩⟩, ⟨?_, fun a b => ⟨?_, ?_, rfl⟩, ?_⟩⟩
  · refine ⟨_, congrArg Host.Outcome.next (if_neg (by rw [hidle]; exact Bool.false_ne_true)), ?_, rfl, ?_⟩
    · exact s.flag_putFlag_self _ _ true (by decide)
    · exact RegsBut.of_put s _ _ _
  · have hload' := groupLoaded_of_loading hload
    rw [deviceRead_of_status hstatus] at hload'
    obtain ⟨herr, hbusy, hred⟩ := tableRead_unreadable s
    exact ⟨_, congrArg Host.Outcome.next hload', ⟨hbusy, rfl, rfl⟩, herr, hred⟩
  · have hload' := groupLoaded_of_loading hload
    rw [deviceRead_of_damaged hstatus hdamaged] at hload'
    have hframe := logFrame_deviceRead s a 16384
    generalize (s.deviceRead a 16384).1 = r at hload' hframe
    obtain ⟨herr, hbusy, hred⟩ := tableRead_unreadable r
    exact ⟨_, congrArg Host.Outcome.next hload', herr, hbusy, hred.trans (by rw [hframe])⟩
  · intro t k s x d hx g l r data got hkind hwaits hinject hsent hfirst hcode hgroup hworks hlen hmember
    refine ⟨fun hagain => congrArg Host.Outcome.next (contribute_of_again hx hkind hwaits hinject hfirst hcode hgroup hworks
      hlen hmember hagain), fun hnew hsram hclean => ?_⟩
    obtain ⟨hmore, hlast⟩ := contribute_of_first hx hkind hwaits hinject hfirst hcode hgroup hworks hlen hmember hnew hsent
      hsram hclean
    refine ⟨fun hfew => ⟨_, congrArg Host.Outcome.next (hmore hfew), takesPart_spec s t g x got⟩, ?_⟩
    intro v hfull hfold hxpkg hreduce a words next hassigned hup htaken hawake hfits hgood
    exact ⟨_, congrArg Host.Outcome.next (hlast v hfull hfold hxpkg),
      contributed_of_last hreduce hxpkg hassigned hup htaken hawake hfits hgood⟩
  · exact (saturate32_spec _).1
  · change (if a.toInt < b.toInt then b else a).toInt = max a.toInt b.toInt
    split <;> omega
  · intro g s d hgroup hlo r
    refine ⟨fun hgot hworks => ?_, fun hstay => congrArg Host.Outcome.next (if_pos ?_)⟩
    · have hgo : ¬((s.round g.toNat).got.isEmpty || s.groupFailed g.toNat) = true := by
        rw [hworks, Bool.or_false, List.isEmpty_iff]
        exact hgot
      obtain ⟨hround, hmarked, hreported, htiles, hgroups⟩ := roundFailed_failRound hgroup g.isLt hlo
      exact ⟨_, congrArg Host.Outcome.next (if_neg hgo), hround, hmarked, hreported, htiles, hgroups⟩
    · rw [Bool.or_eq_true, List.isEmpty_iff]
      exact hstay

end Sys2Proof.Machine
end

section
/-! What a write of a field of the ROPE page leaves of the memory map: the pool's tiles and stacks (08 R229) and the submission
windows, which lie on other pages. -/

namespace Sys2Proof.Machine

open Sys2Proof.Say

/-- The address range and the caches after a range is zero-filled. -/
theorem onlyMem_zeroRange (s : State) {a n : Nat} (ha : a % 32 = 0) (hn : n % 32 = 0) : OnlyMem a n s (s.zeroRange a n) := by
  refine ⟨rfl, memBut_zeroRange s a n, fun b v => if a ≤ b ∧ b < a + n then List.replicate 36 0 else v,
    fun b v hb => if_neg (by omega), ?_⟩
  refine List.map_congr_left fun e _ => ?_
  refine congrArg (fun w => (e.1, { e.2 with ways := w })) (List.map_congr_left fun x _ => ?_)
  cases x <;> rfl

theorem dataByte_zeroRange (s : State) {a n o : Nat} (ha : a % 32 = 0) (hn : n % 32 = 0) (ho : o < n) :
    (s.zeroRange a n).dataByte (a + o) = 0 := by
  rw [State.dataByte, State.zeroRange, memByte_memZero, if_pos (by simp only [sectorKey]; omega)]

/-! ## Other pages -/

/-- Of the registers only some on the ROPE page have changed, and the dies found are the same. -/
structure RopePage (s t : State) : Prop where
  pages : PagesBut (· = pgRope) s t
  found : t.found = s.found

theorem RopePage.refl (s : State) : RopePage s s := ⟨.of_regs rfl, rfl⟩

theorem RopePage.put {s t : State} (h : RopePage s t) {f : Field} (hf : f.place < 2 ^ 17) (v : Nat) :
    RopePage s (t.put pgRope f v) := ⟨h.pages.put rfl hf v, h.found⟩

theorem mkPage_ne_pgRope {slot page : Nat} (h : page % 1024 ≠ 0xD0) : mkPage slot page ≠ pgRope :=
  fun heq => h (mkPage_eq_iff.mp heq).2

theorem tmapFields_place : (∀ k < 128, (TMAP_LOG.VALID.at k).place < 2 ^ 17 ∧ (TMAP_LOG.PHYS.at k).place < 2 ^ 17) ∧
    ∀ k < 144, (TMAP_PHYS.STATE.at k).place < 2 ^ 17 := by decide

section

variable {s t : State} (h : RopePage s t)
include h

theorem RopePage.get {slot page : Nat} (hp : page % 1024 ≠ 0xD0) {f : Field} (hf : f.place < 2 ^ 17) :
    t.get (mkPage slot page) f = s.get (mkPage slot page) f := h.pages _ f (mkPage_ne_pgRope hp) hf

theorem RopePage.physOf (l : Nat) : t.physOf l = s.physOf l := by
  obtain ⟨hvalid, hphys⟩ := tmapFields_place.1 (l % 128) (Nat.mod_lt _ (by decide))
  rw [State.physOf, pgTmap, h.get (by decide) hvalid, h.get (by decide) hphys]
  rfl

theorem RopePage.fencedTile (l : Nat) : t.fencedTile l = s.fencedTile l := by
  have hstate (k : Nat) : t.tmapState k = s.tmapState k :=
    h.get (by decide) (tmapFields_place.2 (k % 144) (Nat.mod_lt _ (by decide)))
  simp only [State.fencedTile, h.physOf, hstate]

theorem RopePage.seamUp (n : Nat) : t.seamUp n = s.seamUp n := by
  have hplace : ∀ l < 4, (SEAM_LINK.STATE.at l).place < 2 ^ 17 := by decide
  have hlinks : ∀ l < 4, t.get (pgSeam n) (SEAM_LINK.STATE.at l) = s.get (pgSeam n) (SEAM_LINK.STATE.at l) :=
    fun l hl => h.get (by decide) (hplace l hl)
  rw [Bool.eq_iff_iff, State.seamUp, State.seamUp, List.any_eq_true, List.any_eq_true]
  exact exists_congr fun l => and_congr_right fun hl => by rw [hlinks l (List.mem_range.mp hl)]

theorem RopePage.dieInService (n : Nat) : t.dieInService n = s.dieInService n := by
  have htmap {f : Field} (hf : f.place < 2 ^ 17) : t.get (pgTmap n) f = s.get (pgTmap n) f := h.get (by decide) hf
  have hcnet : t.get (pgCnet n) CNET_DROP_DOWN.DOWN = s.get (pgCnet n) CNET_DROP_DOWN.DOWN := h.get (by decide) (by decide)
  have hbase (b : Nat) : t.baseInService b = s.baseInService b := by
    simp only [State.baseInService, h.seamUp, State.basePresent, h.found]
  simp only [State.dieInService, State.diePresent, State.basePresent, h.found, hbase, hcnet,
    htmap (f := TMAP_SUMMARY.ENABLED) (by decide), htmap (f := TMAP_SUMMARY.FENCED) (by decide)]

theorem RopePage.newNearTiles : t.newNearTiles = s.newNearTiles := by
  simp only [State.newNearTiles, State.assigned, h.physOf, h.fencedTile, h.dieInService]

theorem RopePage.newEdgeStacks : t.newEdgeStacks = s.newEdgeStacks := by
  have hused (k : Nat) : t.stackUsed k = s.stackUsed k :=
    congrArg (· == 2) (h.get (slot := 0x20 + k) (page := 0) (f := ESTK_STAT.INIT) (by decide) (by decide))
  rw [State.newEdgeStacks, funext hused]
  rfl

theorem RopePage.winsTouched (a n : Nat) : t.winsTouched a n = s.winsTouched a n := by
  refine List.filter_congr fun w hw => ?_
  have hw := List.mem_range.mp hw
  have hget {f : Field} (hf : f.place < 2 ^ 17) : t.get (pgSubw w) f = s.get (pgSubw w) f := h.get (by omega) hf
  have henabled : t.winEnabled w = s.winEnabled w := congrArg (· == 1) (hget (by decide))
  have hbase : t.winBase w = s.winBase w := by
    rw [State.winBase, State.getPair, hget (by decide), hget (by decide)]
    rfl
  have hbytes : t.winBytes w = s.winBytes w := congrArg (64 * 2 ^ ·) (hget (by decide))
  rw [henabled, hbase, hbytes]

end

end Sys2Proof.Machine
end

section
/-! The obligation on the rope logic's configuration: writes of `ROPE_CFG` (08 R232, R254, 09 R265), of layouts (08 R225) and
of `ROPE_SEL` (08 R240), and taint notices (13 R372). -/

namespace Sys2Proof.Machine

open Sys2Proof.Say

/-! ## Bits of a register's word -/

/-- Bits below 31 of a word whose bit 31 is written anew. -/
theorem bits_of_bit31 (v k : Nat) {hi lo : Nat} (hlo : lo ≤ hi) (hhi : hi < 31) :
    bits (v % 2 ^ 31 + 2 ^ 31 * k) hi lo = bits v hi lo := by
  have hdvd : 2 ^ lo * 2 ^ (hi + 1 - lo) ∣ 2 ^ 31 := by
    rw [← Nat.pow_add]
    exact Nat.pow_dvd_pow 2 (by omega)
  have hmod : (v % 2 ^ 31 + 2 ^ 31 * k) % (2 ^ lo * 2 ^ (hi + 1 - lo)) = v % (2 ^ lo * 2 ^ (hi + 1 - lo)) := by
    rw [Nat.add_mod, Nat.mod_mod_of_dvd v hdvd, Nat.mod_eq_zero_of_dvd (hdvd.mul_right k), Nat.add_zero, Nat.mod_mod]
  rw [bits, bits, ← Nat.mod_mul_right_div_self, hmod, Nat.mod_mul_right_div_self]

theorem rows_mod_width (v : Nat) :
    bits v 6 0 % 2 ^ (ROPE_CFG.FRAME_ROWS.hi + 1 - ROPE_CFG.FRAME_ROWS.lo) = bits v 6 0 := Nat.mod_mod _ _

theorem bit_eq_bits (v i : Nat) : bit v i = (bits v i i == 1) := by
  rw [bit, bits, Nat.add_sub_cancel_left, Nat.pow_one]

theorem bit31_of_sum (v k : Nat) : bit (v % 2 ^ 31 + 2 ^ 31 * k) 31 = (k % 2 == 1) := by
  rw [bit, show (v % 2 ^ 31 + 2 ^ 31 * k) / 2 ^ 31 = k by omega]

/-! ## Writes of `ROPE_CFG` -/

/-- The rope logic's own state after a write of `ROPE_CFG`: `FREEZE` drops the promotions queued (08 R254). -/
def State.frozen (s : State) (v : Nat) : Kv := if bits v 8 8 = 1 then { s.kv with queue := [] } else s.kv

/-- A write of `ROPE_CFG` while `ON` is 0, before `ON` acts. -/
def State.cfgOff (s : State) (v : Nat) : State :=
  { (s.put pgRope ROPE_CFG.FRAME_ROWS (bits v 6 0)).put pgRope ROPE_CFG.FREEZE (bits v 8 8) with kv := s.frozen v }

/-- The page where `FRAME_ROWS` is held: `LOCK_HIT` shows a write that would have changed it. -/
def State.rowsHeld (s : State) (v : Nat) : State :=
  if s.get pgRope ROPE_CFG.FRAME_ROWS = bits v 6 0 then s else s.putFlag pgRope PAGE_STAT.LOCK_HIT true

/-- A write of `ROPE_CFG` while `ON` is 1, before `ON` acts. -/
def State.cfgOn (s : State) (v : Nat) : State :=
  { (s.rowsHeld v).put pgRope ROPE_CFG.FREEZE (bits v 8 8) with kv := s.frozen v }

theorem freeze_eq (t : State) (v : Nat) :
    (if bit v 8 then { t with kv := { t.kv with queue := [] } } else t) = { t with kv := t.frozen v } := by
  rw [bit_eq_bits, State.frozen]
  by_cases h : bits v 8 8 = 1
  · simp [h]
  · simp [h]

theorem writeRopeCfg_of_off {s : State} {v : Nat} (hlock : s.flag pgRope PAGE_CTRL.LOCK = false) (hoff : s.ropesOn = false) :
    s.writeRopeCfg v = if bit v 31 then (s.cfgOff v).ropesStart else s.cfgOff v := by
  unfold State.writeRopeCfg
  simp only [hoff, Bool.false_eq_true, if_false, putRwl_of_unlocked hlock, rows_mod_width, freeze_eq]
  rfl

theorem heldField_rows (s : State) (v : Nat) :
    s.heldField pgRope ROPE_CFG.FRAME_ROWS (bits v 6 0) = s.rowsHeld v := by
  rw [State.heldField, State.rowsHeld, rows_mod_width]
  by_cases h : s.get pgRope ROPE_CFG.FRAME_ROWS = bits v 6 0
  · rw [if_neg (fun hne => hne.2 h), if_pos h]
  · rw [if_pos ⟨rfl, h⟩, if_neg h]

theorem rowsHeld_frame (s : State) (v : Nat) : s.rowsHeld v = { s with regs := (s.rowsHeld v).regs } := by
  unfold State.rowsHeld
  split <;> rfl

theorem writeRopeCfg_of_on {s : State} {v : Nat} (hon : s.ropesOn = true) :
    s.writeRopeCfg v = if bit v 31 then s.cfgOn v else (s.cfgOn v).ropesStop := by
  have hkv : ((s.rowsHeld v).put pgRope ROPE_CFG.FREEZE (bits v 8 8)).frozen v = s.frozen v := by
    rw [rowsHeld_frame]
    rfl
  unfold State.writeRopeCfg
  simp only [hon, if_true, heldField_rows, freeze_eq, hkv]
  rfl

/-- Bit 31 of the word is `ON`, which the command gives; the fields below are its operand's. -/
theorem cfg_of_bit31 (s : State) (v k : Nat) : s.cfgOff (v % 2 ^ 31 + 2 ^ 31 * k) = s.cfgOff v ∧
    s.cfgOn (v % 2 ^ 31 + 2 ^ 31 * k) = s.cfgOn v := by
  simp only [State.cfgOff, State.cfgOn, State.frozen, State.rowsHeld, bits_of_bit31 v k (show 0 ≤ 6 by decide) (by decide),
    bits_of_bit31 v k (show 8 ≤ 8 by decide) (by decide), and_self]

theorem exec_ropeOn (v : Word) (s : State) :
    exec (.ropeOn v) s = .next (s.writeRopeCfg (v.toNat % 2 ^ 31 + 2 ^ 31 * 1)) := rfl

theorem exec_ropeOff (v : Word) (s : State) :
    exec (.ropeOff v) s = .next (s.writeRopeCfg (v.toNat % 2 ^ 31 + 2 ^ 31 * 0)) := rfl

section

variable (v : Word) {s : State}

theorem exec_ropeOff_of_off (hlock : s.flag pgRope PAGE_CTRL.LOCK = false) (hoff : s.ropesOn = false) :
    exec (.ropeOff v) s = .next (s.cfgOff v.toNat) := by
  rw [exec_ropeOff, writeRopeCfg_of_off hlock hoff, bit31_of_sum, (cfg_of_bit31 ..).1]
  rfl

theorem exec_ropeOn_of_off (hlock : s.flag pgRope PAGE_CTRL.LOCK = false) (hoff : s.ropesOn = false) :
    exec (.ropeOn v) s = .next (s.cfgOff v.toNat).ropesStart := by
  rw [exec_ropeOn, writeRopeCfg_of_off hlock hoff, bit31_of_sum, (cfg_of_bit31 ..).1]
  rfl

theorem exec_ropeOff_of_on (hon : s.ropesOn = true) : exec (.ropeOff v) s = .next (s.cfgOn v.toNat).ropesStop := by
  rw [exec_ropeOff, writeRopeCfg_of_on hon, bit31_of_sum, (cfg_of_bit31 ..).2]
  rfl

theorem exec_ropeOn_of_on (hon : s.ropesOn = true) : exec (.ropeOn v) s = .next (s.cfgOn v.toNat) := by
  rw [exec_ropeOn, writeRopeCfg_of_on hon, bit31_of_sum, (cfg_of_bit31 ..).2]
  rfl

end

/-! ## Starting -/

/-- The thresholds of the twelve dies as a start leaves them (08 R252). -/
def thresholdValues : List (Field × Nat) :=
  (List.range 12).flatMap (fun n => [(ROPE_THR.T_UP.at n, 4), (ROPE_THR.T_DOWN.at n, 2)])

/-- The rope logic's own state after a start (08 R232). -/
def State.startKv (s : State) : Kv := { Kv.init with
  nearTiles := s.newNearTiles, edgeStacks := s.newEdgeStacks, captured := s.kv.captured, nextJob := s.kv.nextJob }

/-- The bytes of the page table that a start zero-fills (08 R235). -/
def State.startTable (s : State) : Nat :=
  tableBytes (s.newNearTiles.length * s.nearPer + s.newEdgeStacks.length * s.edgePer)

/-- Another state of the rope logic itself. -/
def State.withKv (s : State) (k : Kv) : State := { s with kv := k }

@[simp] theorem State.withKv_regs (s : State) (k : Kv) : (s.withKv k).regs = s.regs := rfl
@[simp] theorem State.withKv_kv (s : State) (k : Kv) : (s.withKv k).kv = k := rfl
@[simp] theorem State.withKv_found (s : State) (k : Kv) : (s.withKv k).found = s.found := rfl
@[simp] theorem State.get_withKv (s : State) (k : Kv) (p : PageRef) (f : Field) : (s.withKv k).get p f = s.get p f := rfl

/-- The state in which a start zero-fills the page table. -/
def State.turnedOn (s : State) : State :=
  (((s.put pgRope ROPE_STAT.CFG_ERR 0).withKv s.startKv).putFlag pgRope ROPE_CFG.ON true).putFlag pgRope ROPE_STAT.ACTIVE true

/-- The counts and thresholds with which a start ends. -/
def State.startCounts (s : State) : State :=
  ((s.put pgRope ROPE_EPOCH.COUNT 0).put pgCairn CAIRN_PAGES.COUNT 0).putAll pgRope thresholdValues

theorem thresholdFields_apart : thresholdValues.Pairwise (fun a b => a.1.apart b.1) ∧
    ∀ f ∈ [ROPE_CFG.ON, ROPE_STAT.ACTIVE, ROPE_EPOCH.COUNT], CAIRN_PAGES.COUNT.apart f = true ∧
      ∀ e ∈ thresholdValues, e.1.apart f = true := by decide

theorem metaBase_aligned (s : State) : s.metaBase % 32 = 0 := by
  have hlo : ROPE_META_LO.ADDR.lo = 21 := rfl
  rw [State.metaBase, State.getPair, hlo]
  omega

theorem tableBytes_aligned (n : Nat) : tableBytes n % 32 = 0 := by
  rw [tableBytes]
  omega

theorem ropesStart_of_refused {s : State} (h : s.ropeCheck ≠ 0) :
    s.ropesStart = s.put pgRope ROPE_STAT.CFG_ERR s.ropeCheck := if_pos h

theorem setThresholds_all (s : State) :
    (List.range 12).foldl (fun s n => s.setThresholds n 4) s = s.putAll pgRope thresholdValues := rfl

theorem kv_turnedOn (s : State) : s.turnedOn.kv = s.startKv := by
  simp only [State.turnedOn, State.putFlag, State.put_kv, State.withKv_kv]

theorem get_turnedOn (s : State) {f : Field}
    (h : ∀ g ∈ [ROPE_STAT.CFG_ERR, ROPE_CFG.ON, ROPE_STAT.ACTIVE], g.apart f = true) :
    s.turnedOn.get pgRope f = s.get pgRope f := by
  simp only [List.forall_mem_cons, List.not_mem_nil, false_implies, implies_true, and_true] at h
  obtain ⟨herr, hon, hactive⟩ := h
  rw [State.turnedOn, State.putFlag, State.get_put_apart _ _ _ _ _ _ hactive, State.putFlag,
    State.get_put_apart _ _ _ _ _ _ hon, State.get_withKv, State.get_put_apart _ _ _ _ _ _ herr]

theorem metaBase_turnedOn (s : State) : s.turnedOn.metaBase = s.metaBase := by
  simp only [State.metaBase, State.getPair, get_turnedOn s (f := ROPE_META_LO.ADDR) (by decide),
    get_turnedOn s (f := ROPE_META_HI.ADDR) (by decide)]

theorem startTable_turnedOn (s : State) : tableBytes s.turnedOn.pageCount = s.startTable := by
  simp only [State.pageCount, kv_turnedOn, State.startKv, State.startTable, State.nearPer, State.edgePer, State.frameRows,
    get_turnedOn s (f := ROPE_CFG.FRAME_ROWS) (by decide), get_turnedOn s (f := ROPE_NPOOL_ROWS.ROWS) (by decide),
    get_turnedOn s (f := ROPE_EPOOL.LEN) (by decide)]

theorem RopePage.withKv {s t : State} (h : RopePage s t) (k : Kv) : RopePage s (t.withKv k) :=
  ⟨h.pages.congr_right (t.withKv_regs k), (t.withKv_found k).trans h.found⟩

theorem ropePage_turnedOn (s : State) : RopePage s s.turnedOn :=
  ((((RopePage.refl s).put (by decide) 0).withKv s.startKv).put (f := ROPE_CFG.ON) (by decide) _).put (by decide) _

/-- A start that its conditions allow, as its writes. -/
theorem ropesStart_eq {s : State} (hcheck : s.ropeCheck = 0) (hwins : s.winsTouched s.metaBase s.startTable = []) :
    s.ropesStart = (s.turnedOn.zeroRange s.metaBase s.startTable).startCounts := by
  have hzero : s.turnedOn.deviceZero s.turnedOn.metaBase (tableBytes s.turnedOn.pageCount) =
      s.turnedOn.zeroRange s.metaBase s.startTable := by
    rw [metaBase_turnedOn, startTable_turnedOn, State.deviceZero, (ropePage_turnedOn s).winsTouched, hwins]
    rfl
  rw [← hzero, State.startCounts, ← setThresholds_all]
  unfold State.ropesStart
  rw [hcheck]
  exact if_neg (not_not.mpr rfl)

/-- One change of registers after another. -/
theorem regs_frame_trans {s t u : State} (h : t = { s with regs := t.regs }) (h' : u = { t with regs := u.regs }) :
    u = { s with regs := u.regs } := by
  rw [h', h]

/-- What a start that its conditions allow leaves (08 R232, R235, R252). -/
structure RopesStarted (s t : State) : Prop where
  on : t.ropesOn = true
  active : t.flag pgRope ROPE_STAT.ACTIVE = true
  epoch : t.epoch = 0
  kv : t.kv = s.startKv
  thresholds : ∀ n < 12, t.get pgRope (ROPE_THR.T_UP.at n) = 4 ∧ t.get pgRope (ROPE_THR.T_DOWN.at n) = 2
  zeros : ∀ o < s.startTable, t.dataByte (s.metaBase + o) = 0
  mem : MemBut s.metaBase s.startTable s t
  lines : LinesBut s.metaBase s.startTable s t
  frame : t = { s with regs := t.regs, mem := t.mem, cache := t.cache, kv := t.kv }

theorem turnedOn_flags (s : State) : s.turnedOn.flag pgRope ROPE_CFG.ON = true ∧
    s.turnedOn.flag pgRope ROPE_STAT.ACTIVE = true := by
  refine ⟨?_, State.flag_putFlag_self _ _ _ true (by decide)⟩
  rw [State.turnedOn, State.flag, State.putFlag, State.get_put_apart _ _ _ _ _ _ (by decide)]
  exact State.flag_putFlag_self _ _ _ true (by decide)

theorem turnedOn_frame (s : State) : s.turnedOn = { s with regs := s.turnedOn.regs, kv := s.turnedOn.kv } := by
  simp only [State.turnedOn, State.putFlag]
  rw [State.put_frame, State.put_frame]
  rfl

theorem startCounts_frame (s : State) : s.startCounts = { s with regs := s.startCounts.regs } :=
  regs_frame_trans (regs_frame_trans (s.put_frame pgRope ROPE_EPOCH.COUNT 0)
    (State.put_frame _ pgCairn CAIRN_PAGES.COUNT 0)) (State.putAll_frame _ pgRope thresholdValues)

theorem get_startCounts (s : State) {f : Field} (hf : f ∈ [ROPE_CFG.ON, ROPE_STAT.ACTIVE, ROPE_EPOCH.COUNT]) :
    s.startCounts.get pgRope f = (s.put pgRope ROPE_EPOCH.COUNT 0).get pgRope f := by
  obtain ⟨hcairn, hthresholds⟩ := thresholdFields_apart.2 f hf
  rw [State.startCounts, State.get_putAll_of_ne _ _ _ _ _ fun e he => fieldKey_ne_of_apart _ _ (hthresholds e he),
    State.get_put_apart _ _ _ _ _ _ hcairn]

theorem startCounts_flags (s : State) : s.startCounts.flag pgRope ROPE_CFG.ON = s.flag pgRope ROPE_CFG.ON ∧
    s.startCounts.flag pgRope ROPE_STAT.ACTIVE = s.flag pgRope ROPE_STAT.ACTIVE := by
  simp only [State.flag]
  rw [get_startCounts s (by simp), get_startCounts s (by simp), State.get_put_apart _ _ _ _ _ _ (by decide),
    State.get_put_apart _ _ _ _ _ _ (by decide)]
  exact ⟨rfl, rfl⟩

theorem thresholds_startCounts (s : State) {n : Nat} (hn : n < 12) :
    s.startCounts.get pgRope (ROPE_THR.T_UP.at n) = 4 ∧ s.startCounts.get pgRope (ROPE_THR.T_DOWN.at n) = 2 := by
  have hvalue {e : Field × Nat} (he : e ∈ [(ROPE_THR.T_UP.at n, 4), (ROPE_THR.T_DOWN.at n, 2)]) :=
    State.get_putAll_of_mem ((s.put pgRope ROPE_EPOCH.COUNT 0).put pgCairn CAIRN_PAGES.COUNT 0) pgRope
      thresholdFields_apart.1 (List.mem_flatMap.mpr ⟨n, List.mem_range.mpr hn, he⟩)
  exact ⟨hvalue (e := (ROPE_THR.T_UP.at n, 4)) (by simp), hvalue (e := (ROPE_THR.T_DOWN.at n, 2)) (by simp)⟩

theorem ropesStarted_of_good {s : State} (hcheck : s.ropeCheck = 0) (hwins : s.winsTouched s.metaBase s.startTable = []) :
    RopesStarted s s.ropesStart := by
  have hbase := metaBase_aligned s
  have htable : s.startTable % 32 = 0 := tableBytes_aligned _
  obtain ⟨hon, hactive⟩ := turnedOn_flags s
  obtain ⟨hmem, hcache⟩ : s.turnedOn.mem = s.mem ∧ s.turnedOn.cache = s.cache := by
    rw [turnedOn_frame]
    exact ⟨rfl, rfl⟩
  obtain ⟨-, hbut, g, hg, hlines⟩ := onlyMem_zeroRange s.turnedOn hbase htable
  have hzero (o : Nat) (ho : o < s.startTable) := dataByte_zeroRange s.turnedOn hbase htable ho
  have hregs (p : PageRef) (f : Field) := s.turnedOn.get_zeroRange s.metaBase s.startTable p f
  have hkv := (s.turnedOn.zeroRange_kv s.metaBase s.startTable).trans (kv_turnedOn s)
  have hframe : s.turnedOn.zeroRange s.metaBase s.startTable = { s with
      regs := s.turnedOn.regs, mem := (s.turnedOn.zeroRange s.metaBase s.startTable).mem,
      cache := (s.turnedOn.zeroRange s.metaBase s.startTable).cache, kv := s.turnedOn.kv } := by
    conv_lhs => rw [State.zeroRange, turnedOn_frame]
    rfl
  rw [ropesStart_eq hcheck hwins]
  generalize s.turnedOn.zeroRange s.metaBase s.startTable = z at hbut hlines hzero hregs hkv hframe
  obtain ⟨hshowOn, hshowActive⟩ := startCounts_flags z
  have hend := startCounts_frame z
  obtain ⟨hendMem, hendCache, hendKv⟩ :
      z.startCounts.mem = z.mem ∧ z.startCounts.cache = z.cache ∧ z.startCounts.kv = z.kv := by
    rw [hend]
    exact ⟨rfl, rfl, rfl⟩
  refine ⟨?_, ?_, ?_, hendKv.trans hkv, fun n hn => thresholds_startCounts z hn, fun o ho => ?_, fun k hk => ?_, ?_, ?_⟩
  · rw [State.ropesOn, hshowOn, State.flag, hregs]
    exact hon
  · rw [hshowActive, State.flag, hregs]
    exact hactive
  · rw [State.epoch, get_startCounts z (by simp)]
    exact State.get_put_self ..
  · rw [State.dataByte, hendMem]
    exact hzero o ho
  · rw [hendMem, hbut k hk, hmem]
  · exact ⟨g, hg, by rw [hendCache, hlines, hcache]⟩
  · rw [hend, hframe]

/-! ## A write of `ROPE_CFG` as a whole -/

section

variable (s : State) (v : Nat)

theorem frozen_kept : (s.frozen v).captured = s.kv.captured ∧ (s.frozen v).nextJob = s.kv.nextJob := by
  unfold State.frozen
  split <;> exact ⟨rfl, rfl⟩

theorem cfgOff_frame : s.cfgOff v = { s with regs := (s.cfgOff v).regs, kv := s.frozen v } := rfl

theorem ropePage_cfgOff : RopePage s (s.cfgOff v) :=
  (((RopePage.refl s).put (f := ROPE_CFG.FRAME_ROWS) (by decide) _).put (by decide) _).withKv (s.frozen v)

theorem metaBase_cfgOff : (s.cfgOff v).metaBase = s.metaBase := by
  have hget (f : Field) (hrows : ROPE_CFG.FRAME_ROWS.apart f = true) (hfreeze : ROPE_CFG.FREEZE.apart f = true) :
      (s.cfgOff v).get pgRope f = s.get pgRope f :=
    (State.get_put_apart _ _ _ _ _ _ hfreeze).trans (State.get_put_apart _ _ _ _ _ _ hrows)
  rw [State.metaBase, State.getPair, hget _ (by decide) (by decide), hget _ (by decide) (by decide), State.metaBase,
    State.getPair]

theorem cfgOn_frame : s.cfgOn v = { s with regs := (s.cfgOn v).regs, kv := s.frozen v } := by
  rw [State.cfgOn, rowsHeld_frame]
  rfl

theorem regsBut_rowsHeld : RegsBut [(pgRope, PAGE_STAT.LOCK_HIT)] s (s.rowsHeld v) := by
  unfold State.rowsHeld
  split
  · exact .of_regs rfl
  · exact .of_put s _ _ _

theorem regsBut_cfgOn : RegsBut [(pgRope, ROPE_CFG.FREEZE), (pgRope, PAGE_STAT.LOCK_HIT)] s (s.cfgOn v) :=
  (((regsBut_rowsHeld s v).mono (by simp)).put List.mem_cons_self _).congr_right (State.withKv_regs _ (s.frozen v))

/-- Whether `ON` may go to 0 does not depend on the other fields written. -/
theorem stops_cfgOn : (s.cfgOn v).allRopesFree = s.allRopesFree ∧
    (s.cfgOn v).flag pgCairn CAIRN_STAT.ACTIVE = s.flag pgCairn CAIRN_STAT.ACTIVE := by
  refine ⟨by rw [cfgOn_frame]; rfl, congrArg (· == 1) (regsBut_cfgOn s v _ _ ?_)⟩
  simp only [List.forall_mem_cons, List.not_mem_nil, false_implies, implies_true, and_true]
  exact ⟨fieldKey_ne_of_apart _ _ (by decide), fieldKey_ne_of_apart _ _ (by decide)⟩

end

theorem ropesStop_of_held {s : State} (h : s.allRopesFree = false ∨ s.flag pgCairn CAIRN_STAT.ACTIVE = true) :
    s.ropesStop = s := by
  refine if_pos ?_
  rcases h with h | h <;> simp [h]

theorem ropesStop_of_free {s : State} (hfree : s.allRopesFree = true) (hcairn : s.flag pgCairn CAIRN_STAT.ACTIVE = false) :
    s.ropesStop = ((s.withKv { Kv.init with captured := s.kv.captured, nextJob := s.kv.nextJob }).putFlag
      pgRope ROPE_CFG.ON false).putFlag pgRope ROPE_STAT.ACTIVE false :=
  if_neg (by simp [hfree, hcairn])

/-- `ON` written 1 where the conditions hold. -/
theorem ropeOn_gives (v : Word) {s : State} (hlock : s.flag pgRope PAGE_CTRL.LOCK = false) (hoff : s.ropesOn = false)
    (hcheck : (s.cfgOff v.toNat).ropeCheck = 0) :
    let table := tableBytes (s.newNearTiles.length * (s.cfgOff v.toNat).nearPer +
      s.newEdgeStacks.length * (s.cfgOff v.toNat).edgePer)
    s.winsTouched s.metaBase table = [] → Gives (.ropeOn v) s (fun t =>
      t.ropesOn = true ∧ t.flag pgRope ROPE_STAT.ACTIVE = true ∧ t.epoch = 0 ∧
      t.kv = { Kv.init with
        nearTiles := s.newNearTiles, edgeStacks := s.newEdgeStacks, captured := s.kv.captured, nextJob := s.kv.nextJob } ∧
      (∀ n < 12, t.get pgRope (ROPE_THR.T_UP.at n) = 4 ∧ t.get pgRope (ROPE_THR.T_DOWN.at n) = 2) ∧
      (∀ o < table, t.dataByte (s.metaBase + o) = 0) ∧ MemBut s.metaBase table s t ∧ LinesBut s.metaBase table s t ∧
      t = { s with regs := t.regs, mem := t.mem, cache := t.cache, kv := t.kv }) := by
  intro table hwins
  have hpage := ropePage_cfgOff s v.toNat
  have hbase := metaBase_cfgOff s v.toNat
  have htable : (s.cfgOff v.toNat).startTable = table := by
    rw [State.startTable, hpage.newNearTiles, hpage.newEdgeStacks]
  have hkv : (s.cfgOff v.toNat).startKv = { Kv.init with
      nearTiles := s.newNearTiles, edgeStacks := s.newEdgeStacks, captured := s.kv.captured, nextJob := s.kv.nextJob } := by
    obtain ⟨hcaptured, hjob⟩ := frozen_kept s v.toNat
    rw [State.startKv, hpage.newNearTiles, hpage.newEdgeStacks, ← hcaptured, ← hjob]
    rfl
  obtain ⟨hon, hactive, hepoch, htkv, hthresholds, hzeros, hmem, hlines, hframe⟩ :=
    ropesStarted_of_good hcheck (by rwa [hbase, htable, hpage.winsTouched])
  rw [hbase, htable] at hzeros hmem hlines
  refine ⟨_, exec_ropeOn_of_off v hlock hoff, hon, hactive, hepoch, htkv.trans hkv, hthresholds, hzeros, hmem, hlines, ?_⟩
  rw [hframe, cfgOff_frame]

/-- `ON` written 0 where every rope is FREE and the cairn store is not active. -/
theorem ropeOff_gives (v : Word) {s : State} (hon : s.ropesOn = true) (hfree : s.allRopesFree = true)
    (hcairn : s.flag pgCairn CAIRN_STAT.ACTIVE = false) : Gives (.ropeOff v) s (fun t =>
      t.ropesOn = false ∧ t.flag pgRope ROPE_STAT.ACTIVE = false ∧ t.kv = { Kv.init with
        captured := s.kv.captured, nextJob := s.kv.nextJob } ∧
      t = { s with regs := t.regs, kv := t.kv } ∧ RegsBut [(pgRope, ROPE_CFG.ON), (pgRope, ROPE_CFG.FREEZE),
        (pgRope, ROPE_STAT.ACTIVE), (pgRope, PAGE_STAT.LOCK_HIT)] s t) := by
  obtain ⟨hropes, hstore⟩ := stops_cfgOn s v.toNat
  have hstop := ropesStop_of_free (hropes.trans hfree) (hstore.trans hcairn)
  have hframe := cfgOn_frame s v.toNat
  have hbut := regsBut_cfgOn s v.toNat
  have hkv : (s.cfgOn v.toNat).kv = s.frozen v.toNat := rfl
  obtain ⟨hcaptured, hjob⟩ := frozen_kept s v.toNat
  rw [hkv, hcaptured, hjob] at hstop
  refine ⟨_, exec_ropeOff_of_on v hon, ?_⟩
  rw [hstop]
  generalize s.cfgOn v.toNat = w at hframe hbut
  refine ⟨?_, State.flag_putFlag_self _ _ _ false (by decide), rfl, ?_, ?_⟩
  · rw [State.ropesOn, State.flag, State.putFlag, State.get_put_apart _ _ _ _ _ _ (by decide)]
    exact State.flag_putFlag_self _ _ _ false (by decide)
  · rw [hframe]
    rfl
  · exact (((hbut.mono (by simp)).congr_right (w.withKv_regs _)).put (by simp) _).put (by simp) _

/-! ## Layouts -/

/-- The fields of a layout slot as a write of its register gives them (08 R258). -/
def layValues (m v : Nat) : List (Field × Nat) :=
  [(ROPE_LAY_CFG.VALID.at m, 1), (ROPE_LAY_CFG.FMT.at m, bits v 28 28), (ROPE_LAY_CFG.DIES.at m, bits v 27 16),
   (ROPE_LAY_CFG.HPG.at m, bits v 15 14), (ROPE_LAY_CFG.HEADS.at m, bits v 13 8), (ROPE_LAY_CFG.LAYERS.at m, bits v 7 0)]

theorem layFields_apart : ∀ m : Fin 16, [ROPE_LAY_CFG.VALID.at m, ROPE_LAY_CFG.FMT.at m, ROPE_LAY_CFG.DIES.at m,
    ROPE_LAY_CFG.HPG.at m, ROPE_LAY_CFG.HEADS.at m, ROPE_LAY_CFG.LAYERS.at m].Pairwise (fun f g => f.apart g = true) := by
  decide

theorem exec_layoutValidWrite (m : Fin 16) (v : Word) (s : State) :
    exec (.layoutValidWrite m v) s = .next (s.writeLayout m (v.toNat % 2 ^ 31 + 2 ^ 31 * 1)) := rfl

theorem layOf_of_bit31 (v k : Nat) : layOf (v % 2 ^ 31 + 2 ^ 31 * k) = layOf v := by
  simp only [layOf, bit_eq_bits, bits_of_bit31 v k (show 0 ≤ 7 by decide) (by decide),
    bits_of_bit31 v k (show 8 ≤ 13 by decide) (by decide), bits_of_bit31 v k (show 14 ≤ 15 by decide) (by decide),
    bits_of_bit31 v k (show 28 ≤ 28 by decide) (by decide), bits_of_bit31 v k (show 16 ≤ 27 by decide) (by decide)]

section

variable {m : Fin 16} (v : Word) {s : State}

theorem layoutWrite_of_named (h : s.slotNamed m = true) :
    exec (.layoutValidWrite m v) s = .next (s.put pgRope ROPE_STAT.LAY_ERR 4) := by
  rw [exec_layoutValidWrite]
  exact congrArg Host.Outcome.next (if_pos h)

variable (h : s.slotNamed m = false)
include h

theorem layoutWrite_of_refused (hcheck : s.layCheck (layOf v.toNat) ≠ 0) : exec (.layoutValidWrite m v) s =
    .next (s.put pgRope ROPE_STAT.LAY_ERR (s.layCheck (layOf v.toNat))) := by
  rw [exec_layoutValidWrite, State.writeLayout, h, bit31_of_sum, layOf_of_bit31]
  exact congrArg Host.Outcome.next (if_pos hcheck)

theorem layoutWrite_of_taken (hcheck : s.layCheck (layOf v.toNat) = 0) : exec (.layoutValidWrite m v) s =
    .next (s.putAll pgRope (layValues m v.toNat)) := by
  have hvalid : bits (v.toNat % 2 ^ 31 + 2 ^ 31 * 1) 31 31 = 1 := by
    have hbit := bit31_of_sum v.toNat 1
    rw [bit_eq_bits] at hbit
    exact beq_iff_eq.mp hbit
  rw [exec_layoutValidWrite, State.writeLayout, h, bit31_of_sum, layOf_of_bit31, hcheck, hvalid,
    bits_of_bit31 _ 1 (show 28 ≤ 28 by decide) (by decide), bits_of_bit31 _ 1 (show 16 ≤ 27 by decide) (by decide),
    bits_of_bit31 _ 1 (show 14 ≤ 15 by decide) (by decide), bits_of_bit31 _ 1 (show 8 ≤ 13 by decide) (by decide),
    bits_of_bit31 _ 1 (show 0 ≤ 7 by decide) (by decide)]
  rfl

end

theorem layCheck_lt (s : State) (l : Lay) : s.layCheck l < 2 ^ 4 := by
  unfold State.layCheck
  split_ifs <;> decide

theorem lay_of_layValues (s : State) (m : Fin 16) (v : Nat) : (s.putAll pgRope (layValues m v)).layValid m = true ∧
    (s.putAll pgRope (layValues m v)).lay m = layOf v := by
  have hapart : (layValues m v).Pairwise (fun x y => x.1.apart y.1) :=
    (List.pairwise_map (f := Prod.fst) (l := layValues m v)).mp (layFields_apart m)
  have hvalue : ∀ e ∈ layValues m v, (s.putAll pgRope (layValues m v)).get pgRope e.1 = e.2 % 2 ^ (e.1.hi + 1 - e.1.lo) :=
    fun e he => s.get_putAll_of_mem pgRope hapart he
  simp only [layValues, List.forall_mem_cons, List.not_mem_nil, false_implies, implies_true, and_true] at hvalue
  obtain ⟨hvalid, hfmt, hdies, hhpg, hheads, hlayers⟩ := hvalue
  have hwidth (hi lo : Nat) : bits v hi lo % 2 ^ (hi + 1 - lo) = bits v hi lo := Nat.mod_mod _ _
  refine ⟨?_, ?_⟩
  · rw [State.layValid, State.flag, layValues, hvalid]
    rfl
  · rw [State.lay, State.flag, layValues, hlayers, hheads, hhpg, hfmt, hdies, layOf, bit_eq_bits]
    simp only [show (ROPE_LAY_CFG.LAYERS.at m).hi + 1 - (ROPE_LAY_CFG.LAYERS.at m).lo = 7 + 1 - 0 from rfl,
      show (ROPE_LAY_CFG.HEADS.at m).hi + 1 - (ROPE_LAY_CFG.HEADS.at m).lo = 13 + 1 - 8 from rfl,
      show (ROPE_LAY_CFG.HPG.at m).hi + 1 - (ROPE_LAY_CFG.HPG.at m).lo = 15 + 1 - 14 from rfl,
      show (ROPE_LAY_CFG.FMT.at m).hi + 1 - (ROPE_LAY_CFG.FMT.at m).lo = 28 + 1 - 28 from rfl,
      show (ROPE_LAY_CFG.DIES.at m).hi + 1 - (ROPE_LAY_CFG.DIES.at m).lo = 27 + 1 - 16 from rfl, hwidth]

/-! ## Taint notices -/

section

variable {n : TileId} {s : State} {r : Nat} {rest : List Nat} (h : (s.tile n).taintWait = r :: rest)
include h

theorem taintNotice_of_open (hopen : s.ropeOpenAt r = true) : exec (.taintNotice n) s =
    .next ((s.setTile n { s.tile n with taintWait := rest }).setRope r { s.rope r with taint := true }) := by
  refine congrArg Host.Outcome.next ?_
  rw [State.taintNotice, h]
  exact if_pos hopen

theorem taintNotice_of_free (hfree : s.ropeOpenAt r = false) : exec (.taintNotice n) s =
    .next ((s.setTile n { s.tile n with taintWait := rest }).count pgMgmt MGMT_TAINT_DROP.COUNT 1) := by
  refine congrArg Host.Outcome.next ?_
  rw [State.taintNotice, h]
  exact if_neg fun hopen => Bool.false_ne_true (hfree.symm.trans hopen)

end

/-- Settles O55: writes of `ROPE_CFG` by `writeRopeCfg_of_off` and `writeRopeCfg_of_on`, a start by `ropesStarted_of_good`, a
layout taken by `lay_of_layValues`, and a taint notice by its two cases. -/
theorem ropesAreConfigured : Obligations.RopesAreConfigured := by
  refine ⟨fun v s hlock => ?_, fun m v s => ⟨fun hnamed => ?_, fun hslot hbad => ?_, fun hslot hgood => ?_⟩,
    fun q v s => ?_, fun n s => ⟨fun hnone => ?_, fun r rest hwait => ⟨fun hopen => ?_, fun hfree => ?_⟩⟩⟩
  · intro x kv off held on table
    refine ⟨exec_ropeOff_of_off v hlock, exec_ropeOn_of_on v, fun hoff hcheck => ?_,
      fun hoff hcheck hwins => ropeOn_gives v hlock hoff hcheck hwins, ropeOff_gives v, fun hon hheld => ?_⟩
    · rw [exec_ropeOn_of_off v hlock hoff]
      exact congrArg Host.Outcome.next (ropesStart_of_refused hcheck)
    · obtain ⟨hropes, hstore⟩ := stops_cfgOn s v.toNat
      rw [exec_ropeOff_of_on v hon, ropesStop_of_held (by rwa [hropes, hstore])]
      rfl
  · exact ⟨_, layoutWrite_of_named v hnamed, State.get_put_of_lt _ _ _ _ (by decide), (OnlyRegs.refl _ s).put (by simp) _⟩
  · exact ⟨_, layoutWrite_of_refused v hslot hbad, State.get_put_of_lt _ _ _ _ (layCheck_lt s _),
      (OnlyRegs.refl _ s).put (by simp) _⟩
  · obtain ⟨hvalid, hlay⟩ := lay_of_layValues s m v.toNat
    exact ⟨_, layoutWrite_of_taken v hslot hgood, hvalid, hlay, State.putAll_frame ..,
      RegsBut.of_putAll s _ (layValues m v.toNat)⟩
  · refine ⟨_, rfl, ?_, ?_, fun k hk => mapGet_mapSet_ne _ _ _ _ _ _ hk, rfl, .of_put s _ _ _⟩
    · exact (State.get_put_self ..).trans (Nat.mod_mod _ _)
    · exact (mapGet_mapSet_self ..).trans (congrArg s.ropeWords (Nat.mod_mod _ _))
  · refine congrArg Host.Outcome.next ?_
    rw [State.taintNotice, hnone]
  · exact ⟨_, taintNotice_of_open hwait hopen, ⟨s.tile_setTile_self .., fun k hk => s.tile_setTile_ne _ _ _ hk⟩,
      State.rope_setRope_self .., fun q hq => State.rope_setRope_ne _ _ _ _ hq, rfl⟩
  · exact ⟨_, taintNotice_of_free hwait hfree, ⟨s.tile_setTile_self .., fun k hk => s.tile_setTile_ne _ _ _ hk⟩,
      State.get_count_self .., rfl, fun k hk => s.tile_setTile_ne _ _ _ hk, .of_put (s.setTile ..) _ _ _⟩

end Sys2Proof.Machine
end

section
/-! What work on the tables, pages and frames leaves of the ropes (08 R236, R239, R250): the entries, and which nodes the
page lists hold. -/

namespace Sys2Proof.Machine

open Sys2Proof.Say

/-- The rope table is as it was, and so are the nodes of the page lists. -/
structure SameRopes (s t : State) : Prop where
  ropes : t.ropes = s.ropes
  nodes : t.kv.nodes = s.kv.nodes

theorem SameRopes.refl (s : State) : SameRopes s s := ⟨rfl, rfl⟩

theorem SameRopes.trans {s t u : State} (h : SameRopes s t) (h' : SameRopes t u) : SameRopes s u :=
  ⟨h'.ropes.trans h.ropes, h'.nodes.trans h.nodes⟩

theorem SameRopes.ite {c : Prop} [Decidable c] {s t u : State} (ht : SameRopes s t) (hu : SameRopes s u) :
    SameRopes s (if c then t else u) := by
  split
  · exact ht
  · exact hu

theorem SameRopes.foldl {α : Type} {f : State → α → State} (hf : ∀ t x, SameRopes t (f t x)) {s t : State}
    (h : SameRopes s t) (l : List α) : SameRopes s (l.foldl f t) := by
  induction l generalizing t with
  | nil => exact h
  | cons x l ih => exact ih (h.trans (hf t x))

theorem SameRopes.of_logFrame {s t : State} (h : LogFrame s t) : SameRopes s t := by
  rw [h]
  exact ⟨rfl, rfl⟩

theorem rope_of_ropes {s t : State} (h : t.ropes = s.ropes) (r : Nat) : t.rope r = s.rope r :=
  congrArg (mapGet Rope.init · r) h

theorem SameRopes.rope {s t : State} (h : SameRopes s t) (r : Nat) : t.rope r = s.rope r := rope_of_ropes h.ropes r

/-! ## Tables and pages -/

theorem sameRopes_winAdvance (s : State) (w : Nat) : SameRopes s (s.winAdvance w) := .ite ⟨rfl, rfl⟩ (.refl s)

theorem sameRopes_winMark (s : State) (a n : Nat) : SameRopes s (s.winMark a n) :=
  .foldl (fun _ w => .foldl (fun u _ => sameRopes_winAdvance u w) ⟨by rfl, by rfl⟩ _) (.refl s) _

theorem sameRopes_guardedWrite (s : State) (part a : Nat) (l : List (List Byte)) :
    SameRopes s (s.guardedWrite part a l).1 := by
  unfold State.guardedWrite
  dsimp only
  split
  · exact .refl s
  · split
    · exact ⟨rfl, rfl⟩
    · refine SameRopes.trans ?_ (sameRopes_winMark _ a _)
      rw [storeWords_frame]
      exact ⟨rfl, rfl⟩

theorem sameRopes_meetTable (s : State) (l : List Nat) : SameRopes s (s.meetTable l) :=
  .of_logFrame (logFrame_reportAll s ..)

theorem sameRopes_meetRecords (s : State) (r : Nat) (blocks : List Nat) : SameRopes s (s.meetRecords r blocks) :=
  sameRopes_meetTable s _

theorem sameRopes_deviceBytes (s : State) (a : Nat) (d : List Byte) : SameRopes s (s.deviceBytes a d) :=
  sameRopes_guardedWrite s ..

theorem sameRopes_metaWrite (s : State) (a : Nat) (d : List Byte) : SameRopes s (s.metaWrite a d) :=
  (sameRopes_meetTable s _).trans (sameRopes_guardedWrite ..)

theorem sameRopes_modPage (s : State) (x : Nat) (f : PageEntry → PageEntry) : SameRopes s (s.modPage x f) :=
  sameRopes_metaWrite s ..

theorem sameRopes_addRef (s : State) (x : Nat) (cairn : Bool) : SameRopes s (s.addRef x cairn) :=
  .ite (.refl s) (sameRopes_modPage s x _)

/-! ## Frames given up -/

theorem sameRopes_rowReply (s : State) {c : RowCmd} {n : Nat} (h : c.issuer = .device n) (status : Nat) :
    SameRopes s (s.rowReply c status) := by
  unfold State.rowReply
  rw [h]
  exact ⟨rfl, rfl⟩

theorem sameRopes_issueRow (s : State) (use : JobUse) (dst : Nat) (src : Option Nat) :
    SameRopes s (s.issueRow use dst src) := by
  unfold State.issueRow
  extract_lets id b c job kv s1 st
  have hbooked : SameRopes s s1 := ⟨rfl, rfl⟩
  have hreply (t : State) (h : SameRopes s t) (status : Nat) : SameRopes s (t.rowReply c status) :=
    h.trans (sameRopes_rowReply t (n := id) rfl status)
  split
  · exact hreply s1 hbooked stNoTarget
  · refine .ite ?_ (.ite (hreply s1 hbooked stNoSlot) (hbooked.trans ⟨rfl, rfl⟩))
    unfold State.rowRefuse
    split
    · exact hreply (s1.rowBook _ st) ⟨rfl, rfl⟩ st
    · exact hreply s1 hbooked st

theorem sameRopes_freeFrame (s : State) (h : Nat) : SameRopes s (s.freeFrame h) :=
  .foldl (fun t a => sameRopes_issueRow t (.zero h) a none) ⟨by rfl, by rfl⟩ _

theorem sameRopes_dropPage (s : State) (x : Nat) : SameRopes s (s.dropPage x) :=
  .foldl sameRopes_freeFrame ⟨by rfl, by rfl⟩ _

theorem sameRopes_releaseRef (s : State) (x : Nat) (cairn : Bool) : SameRopes s (s.releaseRef x cairn) :=
  .ite (.refl s) (.ite ((sameRopes_metaWrite s ..).trans (sameRopes_dropPage _ x)) (sameRopes_metaWrite s ..))

/-- Blocks given up leave the rope table, and take their records out of the page lists. -/
theorem ropes_releaseBlocks (s : State) (r start : Nat) : (s.releaseBlocks r start).ropes = s.ropes ∧
    (s.releaseBlocks r start).kv.nodes =
      s.kv.nodes.filter (fun e => !(e.2.rope == r && e.2.level == 0 && start ≤ e.2.block)) := by
  unfold State.releaseBlocks
  extract_lets gone s1 x s2
  have hpages : SameRopes s s1 :=
    .foldl (fun t _ => .foldl (fun u y => sameRopes_releaseRef u y false) (.refl t) _) (sameRopes_meetRecords s r _) _
  have hrecords : SameRopes s s2 := by
    refine .foldl (fun t e => ?_) hpages gone
    split
    · exact .ite (sameRopes_metaWrite t ..) (.refl t)
    · exact .refl t
  exact ⟨hrecords.ropes, congrArg (List.filter _) hrecords.nodes⟩

end Sys2Proof.Machine
end

section
/-! The obligation on rope commands (08 R241 to R244). -/

namespace Sys2Proof.Say

open Sys2Proof.Machine

theorem RopesBut.trans {r : Nat} {s t u : State} (h : RopesBut r s t) (h' : RopesBut r t u) : RopesBut r s u :=
  fun q hq => (h' q hq).trans (h q hq)

end Sys2Proof.Say

namespace Sys2Proof.Machine

open Sys2Proof.Say

/-! ## One rope changed -/

theorem SameRopes.ropesBut {s t : State} (h : SameRopes s t) (r : Nat) : RopesBut r s t := fun q _ => h.rope q

theorem ropesBut_setRope (s : State) (r : Nat) (x : Rope) : RopesBut r s (s.setRope r x) :=
  fun q hq => s.rope_setRope_ne r q x hq

/-- Only rope `r` has changed, and of its entry only how deep its page list is and where the list begins. -/
structure ListGrown (r : Nat) (s t : State) : Prop where
  others : RopesBut r s t
  self : t.rope r = { s.rope r with depth := (t.rope r).depth, root := (t.rope r).root }

theorem ListGrown.of_ropes {r : Nat} {s t : State} (h : t.ropes = s.ropes) : ListGrown r s t :=
  ⟨fun q _ => rope_of_ropes h q, by rw [rope_of_ropes h r]⟩

theorem ListGrown.trans {r : Nat} {s t u : State} (h : ListGrown r s t) (h' : ListGrown r t u) : ListGrown r s u :=
  ⟨h.others.trans h'.others, by rw [h'.self, h.self]⟩

theorem ropes_of_newNode {s : State} {use : NodeUse} {e : State × Nat} (h : s.newNode use = some e) :
    e.1.ropes = s.ropes := by
  obtain ⟨i, _, rfl⟩ := Option.map_eq_some_iff.mp h
  exact (sameRopes_deviceBytes _ _ _).ropes

theorem listGrown_growTree {r b fuel : Nat} {s t : State} (h : State.growTree r b fuel s = some t) : ListGrown r s t := by
  induction fuel generalizing s with
  | zero => exact .of_ropes (congrArg State.ropes (Option.some.inj h)).symm
  | succ fuel ih =>
    rw [State.growTree] at h
    split at h
    · exact .of_ropes (congrArg State.ropes (Option.some.inj h)).symm
    · obtain ⟨e, hnode, hgrow⟩ := Option.bind_eq_some_iff.mp h
      refine ListGrown.trans ?_ (ih hgrow)
      have hlinked : (if (s.rope r).depth = 0 then e.1
          else e.1.metaWrite e.2 (leBytes 8 (2 ^ 63 + (s.rope r).root))).ropes = s.ropes := by
        split
        · exact ropes_of_newNode hnode
        · exact (sameRopes_metaWrite ..).ropes.trans (ropes_of_newNode hnode)
      refine ⟨(ListGrown.of_ropes hlinked).others.trans (ropesBut_setRope _ r _), ?_⟩
      simp only [State.rope_setRope_self]

theorem listGrown_makePath {r b m : Nat} {s : State} {a : Nat} {e : State × Nat}
    (h : State.makePath r b m s a = some e) : ListGrown r s e.1 := by
  induction m generalizing s a with
  | zero => exact .of_ropes (congrArg (·.1.ropes) (Option.some.inj h)).symm
  | succ m ih =>
    rw [State.makePath] at h
    cases hchild : s.childOf a (digit b (m + 1)) with
    | some c => exact ih (by rwa [hchild] at h)
    | none =>
      rw [hchild] at h
      obtain ⟨d, hnode, hpath⟩ := Option.bind_eq_some_iff.mp h
      exact .trans (.of_ropes ((sameRopes_metaWrite ..).ropes.trans (ropes_of_newNode hnode))) (ih hpath)

theorem listGrown_makeRecord {r b : Nat} {s : State} {e : State × Nat} (h : s.makeRecord r b = some e) :
    ListGrown r s e.1 := by
  obtain ⟨u, hgrow, hpath⟩ := Option.bind_eq_some_iff.mp h
  exact (listGrown_growTree hgrow).trans (listGrown_makePath hpath)

theorem listGrown_forkBlocks {r src : Nat} {l : List Nat} {s t : State} (h : State.forkBlocks r src l s = some t) :
    ListGrown r s t := by
  induction l generalizing s with
  | nil => exact .of_ropes (congrArg State.ropes (Option.some.inj h)).symm
  | cons b l ih =>
    rw [State.forkBlocks] at h
    cases hrecord : s.blockRecord src b with
    | none => exact ih (by rwa [hrecord] at h)
    | some a =>
      rw [hrecord] at h
      obtain ⟨e, hmade, hrest⟩ := Option.bind_eq_some_iff.mp h
      have hcopied := (sameRopes_meetRecords e.1 src [b]).trans (sameRopes_deviceBytes _ e.2 (s.metaBytes a 2048))
      exact (listGrown_makeRecord hmade).trans
        (.trans (.of_ropes (SameRopes.foldl (fun u x => sameRopes_addRef u x false) hcopied _).ropes) (ih hrest))

/-! ## What each command leaves -/

/-- The entry that `FORK` gives its rope (08 R242). -/
def State.forkOf (s : State) (b : List Byte) : Rope :=
  let y := s.rope (ropeSrc b)
  let keep := decide (64 * (y.ablk + 1) ≤ ropePos b)
  { Rope.init with
    state := ropeIsOpen, len := ropePos b, mslot := y.mslot, adapter := y.adapter, prio := y.prio, tier := y.tier,
    taint := y.taint, shared := min y.shared (ropePos b / 64), anchor := if keep then y.anchor else 0,
    ablk := if keep then y.ablk else 0, av := keep && y.av, gen := ((s.rope (ropeR b)).gen + 1) % 2 ^ 32 }

theorem doFork_eq (s : State) (b : List Byte) : s.doFork b =
    State.forkBlocks (ropeR b) (ropeSrc b) (List.range ((ropePos b + 63) / 64)) (s.setRope (ropeR b) (s.forkOf b)) := rfl

theorem doFork_of_empty {s : State} {b : List Byte} (h : ropePos b = 0) :
    s.doFork b = some (s.setRope (ropeR b) (s.forkOf b)) := by
  rw [doFork_eq, h]
  rfl

theorem rope_of_doFork {s t : State} {b : List Byte} (h : s.doFork b = some t) :
    t.rope (ropeR b) = { s.forkOf b with depth := (t.rope (ropeR b)).depth, root := (t.rope (ropeR b)).root } ∧
      RopesBut (ropeR b) s t := by
  have hgrown := listGrown_forkBlocks (doFork_eq s b ▸ h)
  refine ⟨?_, (ropesBut_setRope s _ _).trans hgrown.others⟩
  have hself := hgrown.self
  rwa [State.rope_setRope_self] at hself

theorem ropes_doClose (s : State) (r : Nat) : (s.doClose r).rope r = { Rope.init with gen := (s.rope r).gen } ∧
    (s.doClose r).kv.nodes = s.kv.nodes.filter (fun e => e.2.rope != r) ∧ RopesBut r s (s.doClose r) := by
  obtain ⟨hropes, hnodes⟩ := ropes_releaseBlocks s r 0
  have hrope (q : Nat) : (s.releaseBlocks r 0).rope q = s.rope q := rope_of_ropes hropes q
  refine ⟨?_, ?_, RopesBut.trans (t := s.releaseBlocks r 0) (fun q _ => hrope q) (ropesBut_setRope _ r _)⟩
  · exact (State.rope_setRope_self _ r _).trans (by rw [← hrope r]; rfl)
  · change (s.releaseBlocks r 0).kv.nodes.filter _ = _
    rw [hnodes, List.filter_filter]
    refine List.filter_congr fun e _ => ?_
    cases hown : e.2.rope == r <;> simp [bne, hown]

theorem ropes_doTrunc (s : State) (b : List Byte) :
    (s.doTrunc b).rope (ropeR b) = { s.rope (ropeR b) with
      len := ropePos b, xlen := 0, shared := min (s.rope (ropeR b)).shared (ropePos b / 64),
      av := (s.rope (ropeR b)).av && 64 * ((s.rope (ropeR b)).ablk + 1) ≤ ropePos b, written := [], draft := [] } ∧
    (s.doTrunc b).kv.nodes = s.kv.nodes.filter
      (fun e => !(e.2.rope == ropeR b && e.2.level == 0 && (ropePos b + 63) / 64 ≤ e.2.block)) ∧
    RopesBut (ropeR b) s (s.doTrunc b) := by
  obtain ⟨hropes, hnodes⟩ := ropes_releaseBlocks s (ropeR b) ((ropePos b + 63) / 64)
  unfold State.doTrunc
  extract_lets r p s1 s2
  have hrope (q : Nat) : s1.rope q = s.rope q := rope_of_ropes hropes q
  have hshown (u : State) (h : SameRopes s2 u) : u.rope r = { s.rope r with
      len := p, xlen := 0, shared := min (s.rope r).shared (p / 64),
      av := (s.rope r).av && 64 * ((s.rope r).ablk + 1) ≤ p, written := [], draft := [] } ∧
      u.kv.nodes = s.kv.nodes.filter (fun e => !(e.2.rope == r && e.2.level == 0 && (p + 63) / 64 ≤ e.2.block)) ∧
      RopesBut r s u := by
    refine ⟨?_, h.nodes.trans hnodes, RopesBut.trans (fun q _ => hrope q)
      (RopesBut.trans (ropesBut_setRope s1 r _) (h.ropesBut r))⟩
    rw [h.rope r, ← hrope r]
    exact State.rope_setRope_self s1 r _
  split
  · exact hshown s2 (.refl s2)
  · split
    · exact hshown s2 (.refl s2)
    · exact hshown _ (.foldl (fun t x => .ite (sameRopes_modPage t x _) (.refl t)) (.refl s2) _)

/-! ## The commands -/

/-- The forms of a rope command, with the operation of each (08 R241). -/
def ropeForms (c : CmdSrc) : List (Instr × Nat) :=
  [(.ropeOpen c, 1), (.ropeClose c, 2), (.ropeFork c, 3), (.ropeTrunc c, 4), (.ropeSet c, 5)]

/-- What the operation of a rope command does once its checks have passed; none where a fork finds no node. -/
def State.ropeEffect (s : State) (b : List Byte) : Nat → Option State
  | 1 => some (s.doOpen b)
  | 2 => some (s.doClose (ropeR b))
  | 3 => s.doFork b
  | 4 => some (s.doTrunc b)
  | _ => some (s.doSet b)

/-- The ropes that a rope command names. -/
def ropesNamed (b : List Byte) : List Nat := if ropeOp b = 3 then [ropeR b, ropeSrc b] else [ropeR b]

theorem ropeStatus_of_off {s : State} {b : List Byte} (h : s.ropesOn = false) : s.ropeStatus b = stBadCmd := by
  rw [State.ropeStatus, h]
  exact if_pos (by simp)

theorem ropeStatus_of_state {s : State} {b : List Byte} (hon : s.ropesOn = true) (hform : ropeMalformed b = false)
    (h : s.ropeStateBad b = true) : s.ropeStatus b = stRopeState := by
  rw [State.ropeStatus, hon, hform, h]
  rfl

theorem ropeStateBad_of_not_open {s : State} {b : List Byte} (hopen : ropeOp b ≠ 1) (hfork : ropeOp b ≠ 3)
    (h : (s.rope (ropeR b)).state ≠ ropeIsOpen) : s.ropeStateBad b = true := by
  unfold State.ropeStateBad
  split
  · exact absurd ‹_› hopen
  · exact absurd ‹_› hfork
  all_goals simp [h]

theorem ropeStatus_of_layout {s : State} {b : List Byte} (hon : s.ropesOn = true) (hform : ropeMalformed b = false)
    (hop : ropeOp b = 1) (hfree : (s.rope (ropeR b)).state = ropeFree) (h : s.layValid (field b 16 1) = false) :
    s.ropeStatus b = stBadLayout := by
  have hstate : s.ropeStateBad b = false := by simp [State.ropeStateBad, hop, hfree]
  rw [State.ropeStatus, hon, hform, hstate, hop, h]
  rfl

section

variable {c : CmdSrc} {b : List Byte} {s : State} {op : Nat} (hb : s.cmdBytes c 3 = some b)
include hb

theorem ropeCommand_of_wait (hwait : s.turn (s.cmdOrder c) none (ropesNamed b) = false) : s.ropeCommand c op = s := by
  unfold ropesNamed at hwait
  rw [State.ropeCommand, hb]
  exact if_pos (by simp [hwait])

variable (hop : ropeOp b = op) (hturn : s.turn (s.cmdOrder c) none (ropesNamed b) = true)
include hop hturn

/-- In its turn a command is refused by its status, or acts and completes. -/
theorem ropeCommand_of_turn : s.ropeCommand c op =
    if s.ropeStatus b ≠ stOk then s.finish c (s.ropeStatus b) 0 0 (s.rope (ropeR b)).taint
    else (s.ropeEffect b op).elim (s.finish c stNoFrame 0 0 (s.rope (ropeR b)).taint) (fun t =>
      t.finish c stOk (if op = 1 ∨ op = 3 then (t.rope (ropeR b)).gen else 0) 0 (t.rope (ropeR b)).taint) := by
  unfold ropesNamed at hturn
  rw [State.ropeCommand, hb]
  refine (if_neg (by rw [← hop]; simp [hturn])).trans (if_congr Iff.rfl rfl ?_)
  rcases op with _ | _ | _ | _ | _ | op
  case succ.succ.succ.zero =>
    dsimp only [State.ropeEffect]
    cases s.doFork b <;> rfl
  all_goals rfl

end

section

variable {c : CmdSrc} {b : List Byte} {s : State} (hb : s.cmdBytes c 3 = some b) (hdamaged : s.boot.damaged = [])
  {e : Instr × Nat} (he : e ∈ ropeForms c) (hop : ropeOp b = e.2)

include hdamaged he in
theorem exec_ropeForm : exec e.1 s = .next (s.ropeCommand c e.2) := by
  simp only [ropeForms, List.mem_cons, List.not_mem_nil, or_false] at he
  obtain rfl | rfl | rfl | rfl | rfl := he
  · exact congrArg (fun t : State => Host.Outcome.next (t.ropeCommand c 1)) (State.meetCopies_nil hdamaged _)
  all_goals rfl

include hb hdamaged he in
theorem exec_rope_of_wait (hwait : s.turn (s.cmdOrder c) none (ropesNamed b) = false) : exec e.1 s = .next s := by
  rw [exec_ropeForm hdamaged he, ropeCommand_of_wait hb hwait]

variable (hturn : s.turn (s.cmdOrder c) none (ropesNamed b) = true)
include hb hdamaged he hop hturn

theorem exec_rope_of_status {status : Nat} (h : s.ropeStatus b = status) (hne : status ≠ stOk) :
    exec e.1 s = .next (s.finish c status 0 0 (s.rope (ropeR b)).taint) := by
  rw [exec_ropeForm hdamaged he, ropeCommand_of_turn hb hop hturn, if_pos (h ▸ hne), h]

variable (hok : s.ropeStatus b = stOk)
include hok

theorem exec_rope_of_noEffect (h : s.ropeEffect b e.2 = none) :
    exec e.1 s = .next (s.finish c stNoFrame 0 0 (s.rope (ropeR b)).taint) := by
  rw [exec_ropeForm hdamaged he, ropeCommand_of_turn hb hop hturn, if_neg (not_not.mpr hok), h]
  rfl

/-- A command that passes its checks ends well, after what its operation does. -/
theorem gives_of_ropeEffect {t : State} (h : s.ropeEffect b e.2 = some t) {res : State → Nat}
    (hres : res t = if e.2 = 1 ∨ e.2 = 3 then (t.rope (ropeR b)).gen else 0) {P : State → Prop} (hP : P t) :
    Gives e.1 s (EndsWith c stOk res (fun u => (u.rope (ropeR b)).taint) P) := by
  refine ⟨_, exec_ropeForm hdamaged he, t, hP, ?_⟩
  rw [ropeCommand_of_turn hb hop hturn, if_neg (not_not.mpr hok), h, hres]
  rfl

end

/-- Settles O56: a refused command ends by its status, and one that passes its checks by what its operation leaves of the
ropes (`ropes_doClose`, `ropes_doTrunc`, `rope_of_doFork`; the others write one entry). -/
theorem ropeCommandsActOnTheirRope : Obligations.RopeCommandsActOnTheirRope := by
  intro c b s hb hdamaged r p x y prio tier flags forms turn runs keep forked
  have hform (k : Fin 5) : (ropeForms c)[k] ∈ ropeForms c := List.getElem_mem _
  refine ⟨fun e he hop hwait => exec_rope_of_wait hb hdamaged he hwait, fun e he hop hturn => ?_, fun hturn hok => ?_⟩
  · have hends {status : Nat} (h : s.ropeStatus b = status) (hne : status ≠ stOk) :=
      exec_rope_of_status hb hdamaged he hop hturn h hne
    refine ⟨fun hoff => hends (ropeStatus_of_off hoff) (by decide), fun hne => hends rfl hne,
      fun hon hwell hopen hfork hstate => hends
        (ropeStatus_of_state hon hwell (ropeStateBad_of_not_open (hop ▸ hopen) (hop ▸ hfork) hstate)) (by decide),
      fun hon hwell hopen hfree hlay =>
        hends (ropeStatus_of_layout hon hwell (hop.trans hopen) hfree hlay) (by decide)⟩
  · refine ⟨fun hop => ?_, fun hop => ?_, fun hop => ?_, fun hop => ?_, fun hop hempty => ?_, fun hop hsome => ?_,
      fun hop hnone => ?_⟩
    · exact gives_of_ropeEffect hb hdamaged (hform 0) hop hturn hok rfl rfl
        ⟨⟨rfl, State.rope_setRope_self ..⟩, ropesBut_setRope s r _⟩
    · exact gives_of_ropeEffect hb hdamaged (hform 4) hop hturn hok rfl rfl
        ⟨⟨rfl, State.rope_setRope_self ..⟩, ropesBut_setRope s r _⟩
    · obtain ⟨hentry, hnodes, hothers⟩ := ropes_doClose s r
      exact gives_of_ropeEffect hb hdamaged (hform 1) hop hturn hok rfl rfl ⟨⟨hentry, hnodes⟩, hothers⟩
    · obtain ⟨hentry, hnodes, hothers⟩ := ropes_doTrunc s b
      exact gives_of_ropeEffect hb hdamaged (hform 3) hop hturn hok rfl rfl ⟨⟨hnodes, hentry⟩, hothers⟩
    · exact gives_of_ropeEffect hb hdamaged (hform 2) hop hturn hok (doFork_of_empty hempty) rfl
        ⟨⟨rfl, State.rope_setRope_self ..⟩, ropesBut_setRope s r _⟩
    · obtain ⟨t, ht⟩ := Option.isSome_iff_exists.mp hsome
      obtain ⟨hentry, hothers⟩ := rope_of_doFork ht
      exact gives_of_ropeEffect hb hdamaged (hform 2) hop hturn hok ht rfl ⟨hentry, hothers⟩
    · exact exec_rope_of_noEffect hb hdamaged (hform 2) hop hturn hok hnone

end Sys2Proof.Machine
end
